-- ==== Sys2Proof/Word.lean ====
section
/-!
DEFINITION. The word types of the Pyrion stream array: a 32-bit word (R8, chapter 8), a byte, a 64-bit tick count
(R58), and the canonical sparse table that every register file, memory and map of the model is kept in.
-/

namespace Sys2Proof

/-- A 32-bit word: a parameter (R8), a hearth word (chapter 8), a sequencer instruction (R180). -/
abbrev Word := BitVec 32

/-- A byte of flash, of an image, of a message, of stream memory. -/
abbrev Byte := BitVec 8

/-- The 64-bit tick count (chapter 4). -/
abbrev Tick := BitVec 64

/-- A sparse table: the listed keys rise strictly and no listed value is the one an unlisted key reads as, so that
equal tables are equal data.  What an unlisted key reads as is given by the reader. -/
abbrev Tab (α : Type) := List (Nat × α)

end Sys2Proof
end

