-- ==== Sys2Proof/Syntax.lean ====
section
/-!
DEFINITION. The commands of the array, one constructor per row of the table of operations and events, and the plain
types their operands are made of.  What a command's sender reads outside the model (a sensor, a pin, a received block,
the moment at which a count has run out) is an operand; everything else is read from the state.
-/

namespace Sys2Proof

/-- The two transports that carry lamp messages (chapter 17). -/
inductive Transport where
  | lampPair | pcie
  deriving DecidableEq, Repr

/-- A stored word that a read finds upset: its index in its store, and whether its code cannot correct it
(R129, R173, R217). -/
structure Upset where
  word  : Nat
  fatal : Bool
  deriving DecidableEq, Repr

/-- A mesh packet: the fields of the header unit (Table 13.1) and the bytes of its data units. -/
structure Packet where
  dx     : Nat
  dy     : Nat
  dport  : Nat
  dcard  : Nat
  sx     : Nat
  sy     : Nat
  sport  : Nat
  scard  : Nat
  gt     : Bool
  cmd    : Nat
  half   : Bool
  poison : Bool
  tag    : Nat
  len    : Nat
  flow   : Nat
  status : Nat
  addr   : Nat
  code   : Nat
  valid  : BitVec 128
  data   : List Byte
  deriving DecidableEq, Repr

/-- What the links of a packet's path do to it (R237): nothing, a corrected bit, or an uncorrectable error in the
header unit or in a data unit at output `d` of node `n`. -/
inductive LinkError where
  | none
  | corrected
  | header (n d : Nat)
  | data
  deriving DecidableEq, Repr

/-- Why a member lane takes its link down (R252). -/
inductive DownCause where
  | signal | syncHeaders | bufferWindow
  deriving DecidableEq, Repr

/-- An external pin that is probed or read back (Table 25.3). -/
inductive Pin where
  | trig (n : Nat)
  | starIn
  | starOut
  | sync
  | sysref
  | lampTx
  | lampRx
  | kindled
  | tally (bus line : Nat)
  | presn (s : Nat)
  | rxLane (s : Nat)
  | txLane (s : Nat)
  deriving DecidableEq, Repr

/-- How a read over a tally bus ends (R420, R423). -/
inductive TallyAnswer where
  | record (bytes : List Byte)
  | noAck
  | busFault
  deriving DecidableEq, Repr

/-- The commands: the 245 rows of the table of operations and events. -/
inductive Instr where
  /-- COLD_RESET (R75): COLD_RSTN low resets everything and holds the straps and RV latches transparent. -/
  | coldReset
  /-- COLD_RSTN_RISE (R38): The rising edge of COLD_RSTN closes every strap and RV latch, decodes the effective codes and starts the PLL. -/
  | coldRstnRise (straps moving : BitVec 4) (ratios : List Nat) (railsGood : Bool)
  /-- REF_LOST (R55): The presence detector marks the reference missing, so the core clock stops with outputs safe and the cause recorded. -/
  | refLost
  /-- PLL_UNLOCK (R55): The PLL declares unlock, so the core clock stops with outputs safe and cause PLL_UNLOCK. -/
  | pllUnlock
  /-- REF_PRESENT (R54): Two consecutive detector windows at or above threshold mark the reference present and restart the 1 ms wait. -/
  | refPresent
  /-- STOP_WAIT_EXPIRY (R56): The 1 ms wait of a clock stop ends and the PLL starts to relock. -/
  | stopWaitExpiry
  /-- RELOCK_TIMEOUT (R56): The PLL has not locked within the lock time, so the stop continues and a new wait starts. -/
  | relockTimeout
  /-- CLOCK_START_FAIL (R450): After COLD_RSTN rises, the reference is found missing or the PLL fails to lock in time, and the device enters the stop. -/
  | clockStartFail (missing : Bool)
  /-- PLL_LOCK (R76): The PLL declares lock, the keeper clock starts and kindling begins at the entry point of the reset source. -/
  | pllLock (periods : Nat)
  /-- BEACON_FRAME (R313): During a clock stop, each 65,536 oscillator periods LAMP_TX sends a beacon frame with the cause and the elapsed time. -/
  | beaconFrame
  /-- BROWN_OUT (R66): VCORE or VKEEP stays below tolerance for 1 µs, so a brown-out reset holds the device with outputs safe. -/
  | brownOut (rail : Nat)
  /-- RAIL_RECOVERED (R66): Both rails have been in tolerance for 10 µs, so the brown-out hold ends and the PLL locks again. -/
  | railRecovered
  /-- SYNC_CAPTURE (R58): A SYNC rising edge is captured, and alignment and the slip and marginal checks are applied to it. -/
  | syncCapture (marginal : Bool)
  /-- SYNC_ABSENT (R62): 10 ms after PLL lock with no alignment, event 0x06 is raised once. -/
  | syncAbsent
  /-- TB_ALIGN (R58): A write of 1 arms alignment at the next SYNC capture, and is refused with LOCKED or BUSY where applicable. -/
  | tbAlign (v : Word)
  /-- AVS_EVALUATION (R68): Every 100 µs the margin monitors are evaluated and the AVS code moves by at most one step within host bounds. -/
  | avsEvaluation (low high : BitVec 17)
  /-- THERM_ALERT (R71): PWR_TJ reaches 10 °C below the trip level, so THERM_ALERTN asserts and event 0x08 is raised. -/
  | thermAlert (tj : BitVec 16) (sensor : Nat)
  /-- THERM_TRIP (R71): PWR_TJ reaches the trip level, so duty is lowered by one step at once and event 0x09 is raised. -/
  | thermTrip (tj : BitVec 16)
  /-- THERM_GATE_STEP (R71): Each 1 ms at or above the trip level lowers duty one step, and each 1 ms 5 °C below it raises duty one step. -/
  | thermGateStep (tj : BitVec 16)
  /-- THERM_CRITICAL (R72): At 115 °C every gallery, port-pair and Tinder domain goes off without the damper, outputs go safe and event 0x0A is raised. -/
  | thermCritical (tj : BitVec 16) (sensor : Nat)
  /-- KEEPER_CYCLE_16 (R41): At keeper cycle 16 the inventory becomes valid, the lamp pair and PCI Express start, and STRAP_SCAN may bank the device. -/
  | keeperCycle16
  /-- DOMAIN_POWER_UP (R78): Every 1,250 keeper cycles the next present domain powers up, and a rail that is not good banks the device with DOMAIN_POWER. -/
  | domainPowerUp (good : Bool)
  /-- JOURNAL_SCAN (R132): The swap journal is scanned, FLASH_JOURNAL is set and the boot block is chosen. -/
  | journalScan (upsets : List Upset)
  /-- BOOT_RECORD_READ (R79): The boot record is read and CRC-checked, leading on to service hold, host wait or a bank. -/
  | bootRecordRead (upsets : List Upset)
  /-- IMAGE_SELECT (R80): The directory entry is read and its extent checked, or the device banks with NO_IMAGE. -/
  | imageSelect (upsets : List Upset)
  /-- IMAGE_HEADER_CHECK (R81): The image header is read, and its CRC, format and identity are checked in order. -/
  | imageHeaderCheck (upsets : List Upset)
  /-- SIGNATURE_CHECK (R82): The signature block is checked for form, key hash and ECDSA signature. -/
  | signatureCheck
  /-- CONTEXT_TABLE (R110): A CONTEXT_TABLE frame is checked and loads a gallery's context descriptors. -/
  | contextTable
  /-- PLANE_FRAME (R111): A PLANE frame is checked and written to its context's slot and initial plane. -/
  | planeFrame
  /-- SWITCH_FRAME (R197): A SWITCH frame is checked and written to its context's slot and initial plane. -/
  | switchFrame
  /-- SEQUENCER_FRAME (R109): A SEQUENCER frame writes 128 instructions into a gallery's program store. -/
  | sequencerFrame
  /-- TINDER_FRAME (R348): A TINDER frame is checked and loads a block's terms, inputs, macrocells or routes. -/
  | tinderFrame
  /-- PORT_DEFAULTS (R262): A PORT_DEFAULTS frame is checked and sets a port's protocol, binding and initial parameters. -/
  | portDefaults
  /-- CONTEXT_SEED (R112): A CONTEXT_SEED frame writes initial bank contents into a context slot. -/
  | contextSeed
  /-- MEM_PRELOAD (R113): A MEM_PRELOAD frame writes its payload into stream memory. -/
  | memPreload
  /-- FILL_RUN (R113): A FILL_RUN frame repeats a 16-byte pattern over a stream-memory range. -/
  | fillRun
  /-- PARAM_DEFAULTS (R114): A PARAM_DEFAULTS frame applies its entries as parameter writes, each checked in order. -/
  | paramDefaults
  /-- ESSENTIAL_MAP (R115): An ESSENTIAL_MAP frame is CRC-checked and its map records are kept for the sweep. -/
  | essentialMap
  /-- GOLDEN_TABLE (R116): A GOLDEN_TABLE frame is checked entry by entry against the loaded frames. -/
  | goldenTable
  /-- END_FRAME (R117): The END frame checks completeness and the digest, primes memory, loads initial planes and enters phase STEPS. -/
  | endFrame
  /-- LOCK_WAIT (R87): The lock-wait step ends when alignment and the lock-at-kindling ports are up. -/
  | lockWait
  /-- LOCK_LIMIT_EXPIRY (R87): The lock limit expires, which banks the device with LOCK_TIMEOUT or continues with LOCK_LATE. -/
  | lockLimitExpiry
  /-- OUTPUT_RELEASE (R88): Outputs leave the safe state and follow the configured logic. -/
  | outputRelease
  /-- GSR_RELEASE (R86): Flip-flops load their initial values, macrocells load INIT and sequencers start at ENTRY. -/
  | gsrRelease
  /-- WRITE_ENABLE (R89): Tap ST, DMA writes, mesh writes into stream memory and the internal configuration port are enabled. -/
  | writeEnable
  /-- KINDLED_RELEASE (R91): At the hold point, or at the next tick multiple of 4,096 when STRAP_KSHARE is 1, the KINDLED pull-down is released. -/
  | kindledRelease
  /-- KINDLED_HIGH (R91): The synchronised KINDLED line first reads high, and S and the entry tick E are computed. -/
  | kindledHigh
  /-- KINDLE_ENTRY (R91): The tick count reaches E and the steps after the hold point start. -/
  | kindleEntry
  /-- HOLD_TIMEOUT (R93): KINDLE_HOLD_TIMEOUT expires with KINDLED low, which banks the device or makes it proceed alone. -/
  | holdTimeout
  /-- KINDLE_HOLD_TIMEOUT (R99): A host write sets the hold timeout, which applies at once at the hold point. -/
  | kindleHoldTimeout (v : Word)
  /-- LAMP_FRAME_RX (R298): A lamp-pair frame is received whole and checked for FCS, size, version and kind. -/
  | lampFrameRx (bytes : List Byte)
  /-- OWNER_TIMEOUT (R303): The owner has sent no valid command for LAMP_OWNER_TIMEOUT, so ownership is released. -/
  | ownerTimeout
  /-- PING (R308): PING returns the tick count and KINDLE_STATUS. -/
  | ping (via : Transport)
  /-- RELEASE (R303): RELEASE from the owner releases lamp ownership. -/
  | release (via : Transport)
  /-- RESET (R309): RESET with device scope sends its response and then performs a warm reset. -/
  | reset (via : Transport)
  /-- GET (R309): GET reads 1–64 consecutive parameters, each with its own status. -/
  | get (via : Transport)
  /-- SET (R309): SET applies 1–64 parameter writes in order and stops at the first refusal. -/
  | set (via : Transport)
  /-- PARAM_WRITE (R318): A write to a parameter with no action of its own is checked in order and applied, with the low word of a pair staged. -/
  | paramWrite (n : Nat) (v : Word)
  /-- GET_PAIR (R309): GET_PAIR reads both words of a 64-bit pair in one cycle. -/
  | getPair (via : Transport)
  /-- FLASH_READ (R129): FLASH_READ returns 1–32 code words, corrected, with blank, torn and uncorrectable maps. -/
  | flashRead (via : Transport) (upsets : List Upset)
  /-- FLASH_PROGRAM (R127): FLASH_PROGRAM checks that the named words are blank and starts programming them in order. -/
  | flashProgram (via : Transport)
  /-- FLASH_PROGRAM_DONE (R127): The last word has been programmed and the response is sent. -/
  | flashProgramDone
  /-- FLASH_ERASE (R128): FLASH_ERASE is checked and starts erasing a sector. -/
  | flashErase (via : Transport)
  /-- FLASH_ERASE_DONE (R128): The erase ends, each word is checked blank, the erase count rises and the response or ERASE_FAIL is sent. -/
  | flashEraseDone (clean : Bool)
  /-- FLASH_SWAP (R133): FLASH_SWAP checks the target boot record and starts the journal program, with rollover where needed. -/
  | flashSwap (via : Transport)
  /-- FLASH_SWAP_DONE (R133): The swap's last program or erase ends and the response carries the selecting entry. -/
  | flashSwapDone (clean : Bool)
  /-- IMAGE_BEGIN (R309): IMAGE_BEGIN starts or restarts a host load at offset 0. -/
  | imageBegin (via : Transport)
  /-- IMAGE_DATA (R309): IMAGE_DATA gives the configuration engine the next chunk of a host-loaded image in order. -/
  | imageData (via : Transport)
  /-- IMAGE_ABORT (R309): IMAGE_ABORT banks the device with HOST_ABORT. -/
  | imageAbort (via : Transport)
  /-- DAMPER_CLOSE (R371): DAMPER_CLOSE is checked whole and starts the damper handshake on each named domain. -/
  | damperClose (via : Transport)
  /-- DAMPER_SEQUENCER_DAMPED (R371): Step 2 passes once the sequencer is damped and any started fill has ended, and the router begins holding inbound packets. -/
  | damperSequencerDamped (g : Nat)
  /-- DAMPER_DRAINED (R371): Step 3 passes once no transaction remains, so the gallery is fenced, closed and given its action. -/
  | damperDrained (g : Nat)
  /-- DRAIN_LIMIT_EXPIRY (R372): GAL_DRAIN_LIMIT expires before step 4, so the gallery is force-isolated and marked dead. -/
  | drainLimitExpiry (g : Nat)
  /-- PORT_PAIR_DRAINED (R373): A port pair's buffers have drained and its router ports are fenced. -/
  | portPairDrained (p : Nat)
  /-- PORT_DRAIN_EXPIRY (R373): The 10 µs drain limit of a port pair expires, so buffers are discarded and the ports are marked dead. -/
  | portDrainExpiry (p : Nat)
  /-- POWER_DOWN_COMPLETE (R375): A closed domain completes its transition to sleep or off. -/
  | powerDownComplete (d : Nat)
  /-- DAMPER_OPEN (R374): DAMPER_OPEN is checked whole and returns the named domains to on, starting re-kindling of off galleries. -/
  | damperOpen (via : Transport)
  /-- REKINDLE_DONE (R376): Re-kindling of an off gallery ends, and the gallery opens or stays off with the status reported. -/
  | rekindleDone (g : Nat)
  /-- TINDER_RELOAD_DONE (R351): The Tinder frames have been reloaded after power-up and the registers take INIT. -/
  | tinderReloadDone
  /-- GAL_RESET (R309): GAL_RESET is checked whole and resets every named gallery in one cycle. -/
  | galReset (via : Transport)
  /-- PORT_RESET (R309): PORT_RESET is checked whole and resets every named port, which then retrains. -/
  | portReset (via : Transport)
  /-- CONFIG_WRITE (R370): CONFIG_WRITE writes one frame through the gallery configuration port over the management path. -/
  | configWrite (via : Transport)
  /-- MEM_FILL (R309): MEM_FILL fills a stream-memory range with a pattern through the fill engine and primes whole granules. -/
  | memFill (via : Transport)
  /-- MEM_READ (R309): MEM_READ reads gallery stream memory through a mesh READ_REQ from node (2,4). -/
  | memRead (via : Transport)
  /-- MEM_WRITE (R309): MEM_WRITE sends mesh WRITEs from node (2,4) to gallery stream memory. -/
  | memWrite (via : Transport)
  /-- CAPT_ARM (R408): CAPT_ARM is checked and arms a SNAPSHOT or HALT capture at a named tick. -/
  | captArm (via : Transport)
  /-- CAPT_RELEASE (R415): CAPT_RELEASE clears the capture and releases halted galleries in one cycle. -/
  | captRelease (via : Transport)
  /-- CAPT_READ (R416): CAPT_READ returns part of a captured section. -/
  | captRead (via : Transport)
  /-- CAPTURE_TAKEN (R409): The first cycle at or after the armed tick records the shadows and, for HALT, stops the named galleries. -/
  | captureTaken
  /-- EVENT_TAKE (R332): The concentrator takes pending raises, counts them, applies mask and holdoff and queues the survivors. -/
  | eventTake
  /-- REPORT_SEND (R312): A queued report is sent to the owning transport once the line or ring has room. -/
  | reportSend
  /-- CMD_SLOT_WRITE (R282): A BAR0 write fills a free command slot, and is discarded if the slot is busy. -/
  | cmdSlotWrite (slot off : Nat) (bytes : List Byte)
  /-- CMD_DOORBELL (R282): A doorbell queues a slot's message for the controller, or is counted as an error. -/
  | cmdDoorbell (v : Word)
  /-- RSP_ACK (R283): A doorbell with RSP_ACK acknowledges DIRECT_RSP and lets the next slot be copied. -/
  | rspAck
  /-- SLOT_COPY (R282): The controller copies a queued slot into its command stream once it takes commands, and frees the slot. -/
  | slotCopy
  /-- RING_DOORBELL (R285): The host consumer offset is written, freeing ring space. -/
  | ringDoorbell (v : Word)
  /-- RING_ARM (R284): A write of 1 to PCIE_RING_CTRL ARM is checked and arms the report ring. -/
  | ringArm (v : Word)
  /-- BAR2_WRITE (R287): A BAR2 memory write becomes one BE mesh WRITE, or is dropped and counted. -/
  | bar2Write (off : Nat) (bytes : List Byte) (enables : Bool)
  /-- BAR2_READ (R288): A BAR2 read becomes BE READ_REQs of up to 512 bytes. -/
  | bar2Read (off len tag : Nat)
  /-- BAR2_READ_COMPLETE (R288): The mesh answers end, and the read completes with data or 0xFF bytes. -/
  | bar2ReadComplete (tag : Nat)
  /-- UPSTREAM_WRITE (R290): A mesh WRITE to node (1,4) becomes memory writes into a host window, or is dropped. -/
  | upstreamWrite (i : Nat)
  /-- UPSTREAM_MSIX (R291): A mesh MESSAGE to node (1,4) raises MSI-X vector 2 or 3. -/
  | upstreamMsix (i : Nat)
  /-- PCIE_CONFIG_REQUEST (R280): A configuration request is answered from link up, including during kindling or banking. -/
  | pcieConfigRequest (write : Bool) (reg : Nat) (v : Word)
  /-- PCIE_RESET (R293): PE_PERSTN, a hot reset or a function-level reset clears the endpoint state, slots and ring arming, and releases lamp ownership. -/
  | pcieReset
  /-- PCIE_LINK_DOWN (R293): The link goes down, which acts as a PCI Express reset and raises event 0x18. -/
  | pcieLinkDown
  /-- PCIE_LINK_UP (R293): The link trains up and event 0x18 reports its width and speed. -/
  | pcieLinkUp (width gen : Nat)
  /-- PASS (R145): PASS places A on OUT. -/
  | pass (g h : Nat)
  /-- DLY (R148): DLY shifts the register delay line and outputs the word entered d firings earlier. -/
  | dly (g h : Nat)
  /-- ADD (R145): ADD adds A and B per lane, wrapping or saturating. -/
  | add (g h : Nat)
  /-- SUB (R145): SUB subtracts B from A per lane. -/
  | sub (g h : Nat)
  /-- NEG (R145): NEG negates A per lane. -/
  | neg (g h : Nat)
  /-- ABS (R145): ABS gives the absolute value of A per lane. -/
  | abs (g h : Nat)
  /-- MIN (R145): MIN gives the signed minimum of A and B per lane. -/
  | min (g h : Nat)
  /-- MAX (R145): MAX gives the signed maximum of A and B per lane. -/
  | max (g h : Nat)
  /-- AND (R145): AND gives the bitwise AND of A and B. -/
  | and (g h : Nat)
  /-- OR (R145): OR gives the bitwise OR of A and B. -/
  | or (g h : Nat)
  /-- XOR (R145): XOR gives the bitwise XOR of A and B. -/
  | xor (g h : Nat)
  /-- NOT (R145): NOT gives the bitwise complement of A. -/
  | not (g h : Nat)
  /-- SHL (R158): SHL shifts A left by B per lane with zero fill. -/
  | shl (g h : Nat)
  /-- SHR (R158): SHR shifts A right by B per lane with zero fill. -/
  | shr (g h : Nat)
  /-- SHRA (R158): SHRA shifts A right by B per lane with sign fill. -/
  | shra (g h : Nat)
  /-- ROT (R158): ROT rotates A left by B per lane. -/
  | rot (g h : Nat)
  /-- CLZ (R145): CLZ counts the leading zero bits of A per lane. -/
  | clz (g h : Nat)
  /-- POPC (R145): POPC counts the one bits of A per lane. -/
  | popc (g h : Nat)
  /-- MUL (R145): MUL multiplies A by B per lane, fitted to the lane width. -/
  | mul (g h : Nat)
  /-- MULH (R145): MULH gives the high half of the product of A and B per lane. -/
  | mulh (g h : Nat)
  /-- MAC (R149): MAC accumulates A × B into ACC and optionally dumps the rounded ACC. -/
  | mac (g h : Nat)
  /-- MSU (R149): MSU subtracts A × B from ACC and optionally dumps the rounded ACC. -/
  | msu (g h : Nat)
  /-- RND (R151): RND rounds each lane of A right by SH bits. -/
  | rnd (g h : Nat)
  /-- CMP (R147): CMP compares A and B per lane under COND and gives all ones or 0. -/
  | cmp (g h : Nat)
  /-- SEL (R145): SEL selects A or B per lane by the MSB of C. -/
  | sel (g h : Nat)
  /-- DIV (R153): DIV divides A by B per lane in a divide unit. -/
  | div (g h : Nat)
  /-- REM (R153): REM gives the remainder of A ÷ B per lane in a divide unit. -/
  | rem (g h : Nat)
  /-- PACK (R152): PACK narrows the 2w-bit lanes of A and B into w-bit lanes. -/
  | pack (g h : Nat)
  /-- UNPK (R152): UNPK widens half of A's lanes to 2w bits. -/
  | unpk (g h : Nat)
  /-- LD (R154): LD requests a stream-memory burst whose words the tap places on OUT. -/
  | ld (g h : Nat)
  /-- ST (R155): ST opens or feeds a stream-memory write burst. -/
  | st (g h : Nat)
  /-- TRACK_WORD (R195): A word moves over a link, track segment or joint under the routing of the active plane. -/
  | trackWord (g : Nat)
  /-- EDGE_INGRESS (R198): A data unit from the router enters the gallery edge lanes, or waits in the ingress buffer while the gallery is gated. -/
  | edgeIngress (g : Nat)
  /-- INGRESS_BUFFER_RELEASE (R199): A buffered ingress unit is released in an enabled cycle. -/
  | ingressBufferRelease (g : Nat)
  /-- BANK_DECISION (R209): Before a free bank cycle the arbiter grants the highest effective priority, or gives a parked grant. -/
  | bankDecision (g b : Nat) (upsets : List Upset)
  /-- NOP (R181): NOP does nothing for one cycle. -/
  | nop (g : Nat)
  /-- HALT (R181): HALT stops sequencer issue while the plane keeps firing. -/
  | halt (g : Nat)
  /-- RET (R181): RET pops the return address and continues there. -/
  | ret (g : Nat)
  /-- FENCE (R186): FENCE waits until taps, DMA and held frames are complete. -/
  | fence (g : Nat)
  /-- FENCE_COMPLETE (R186): The FENCE conditions hold, held self-targeted frames are written and issue continues. -/
  | fenceComplete (g : Nat)
  /-- SWITCH (R166): SWITCH makes a context active, or starts a demand fill and stalls. -/
  | switch (g : Nat)
  /-- PREP (R170): PREP queues a prefetch of a context. -/
  | prep (g : Nat)
  /-- WAIT (R181): WAIT starts a wait of n + 1 enabled cycles. -/
  | wait (g : Nat)
  /-- WAIT_DONE (R181): The WAIT count expires and the next instruction issues. -/
  | waitDone (g : Nat)
  /-- WAITT (R183): WAITT waits for a condition with an optional timeout. -/
  | waitt (g : Nat)
  /-- WAITT_MET (R183): The condition becomes true, its latch is consumed and TO is cleared. -/
  | waittMet (g : Nat)
  /-- WAITT_TIMEOUT (R183): 64 × T enabled cycles pass, so WAITT completes with TO set. -/
  | waittTimeout (g : Nat)
  /-- BR (R181): BR continues at the target. -/
  | br (g : Nat)
  /-- BRC (R182): BRC branches on a condition and, with the hint set, prefetches along the predicted path. -/
  | brc (g : Nat)
  /-- LOOP (R185): LOOP loads or decrements a loop counter and branches. -/
  | loop (g : Nat)
  /-- CALL (R181): CALL pushes PC + 1 and continues at the target. -/
  | call (g : Nat)
  /-- SETF (R181): SETF sets sequencer flags. -/
  | setf (g : Nat)
  /-- CLRF (R181): CLRF clears flags and trigger latches. -/
  | clrf (g : Nat)
  /-- EMIT (R188): EMIT pulses GOUT lines and optionally raises GAL_EMIT. -/
  | emit (g : Nat)
  /-- CAPT (R189): CAPT asks the capture unit to arm a capture 16 + D ticks ahead. -/
  | capt (g : Nat)
  /-- DMA (R187): DMA reads a descriptor and starts a mesh transfer, stalling while two are in flight. -/
  | dma (g : Nat)
  /-- DMA_COMPLETE (R187): A DMA transfer completes or ends on an error, sets its flags and frees a slot. -/
  | dmaComplete (g d : Nat)
  /-- TRIGGER_EDGE (R183): A rising TI or HC input sets its sequencer latch or counts an overrun. -/
  | triggerEdge (g i : Nat)
  /-- WATCHDOG_BITE (R192): The gallery watchdog reaches its limit, so the gallery is reset and may be marked dead. -/
  | watchdogBite (g : Nat)
  /-- TRANSFER_START (R165): The free fill/spill engine takes its next work: a demand fill, a prefetch or a background spill. -/
  | transferStart (g : Nat) (upsets : List Upset)
  /-- FILL_COMPLETE (R165): A 256-cycle fill completes, and the plane becomes resident or a demand SWITCH takes effect. -/
  | fillComplete (g : Nat)
  /-- SPILL_COMPLETE (R162): A 256-cycle spill completes and the plane is clean. -/
  | spillComplete (g : Nat)
  /-- CONFIG_PORT_BOUNDARY (R389): A configuration-port write ends and the port grants the next waiting writer by rank. -/
  | configPortBoundary (g : Nat)
  /-- PACKET_SEND (R227): A source router routes a packet X then Y, or towards a seam port for a foreign card. -/
  | packetSend (p : Packet) (err : LinkError)
  /-- GT_WINDOW_SEND (R232): A conforming GT packet leaves at its window start in consecutive slots. -/
  | gtWindowSend (i : Nat)
  /-- MESH_WRITE (R226): A WRITE is delivered at its target, or dropped and counted. -/
  | meshWrite (i : Nat)
  /-- MESH_READ_REQ (R226): A READ_REQ at its target is answered with READ_RSP or ERROR. -/
  | meshReadReq (i : Nat)
  /-- MESH_READ_RSP (R224): A READ_RSP at its source ends its transaction. -/
  | meshReadRsp (i : Nat)
  /-- MESH_ERROR (R225): An ERROR at its source ends its transaction with the status. -/
  | meshError (i : Nat)
  /-- MESH_MESSAGE (R224): A MESSAGE is delivered, or answered with ERROR when it cannot be. -/
  | meshMessage (i : Nat)
  /-- MESH_WAKE (R242): A WAKE packet wakes a sleeping domain or re-kindles an off gallery. -/
  | meshWake (i : Nat)
  /-- MESH_CONFIG (R367): A CONFIG packet at a gallery or Tinder node is checked, written or held, and answered. -/
  | meshConfig (i : Nat)
  /-- TRANSACTION_TIMEOUT (R235): A transaction's timer passes NOC_TMO, so it ends with TIMEOUT and raises event 0xC0. -/
  | transactionTimeout (node port tag : Nat)
  /-- WAKE_COMPLETE (R241): A woken domain returns to on and its held packets are delivered. -/
  | wakeComplete (d : Nat)
  /-- EGRESS_PACKET_CLOSE (R234): A gallery egress packet is closed and sent as a WRITE to its target. -/
  | egressPacketClose (g e : Nat)
  /-- FLOW_COMMIT (R231): A write of 1 to ENABLE checks and commits a GT flow's slots. -/
  | flowCommit (f : Nat) (v : Word)
  /-- FLOW_RELEASE (R231): A write of 0 to ENABLE releases a flow's slots from the next slot frame. -/
  | flowRelease (f : Nat) (v : Word)
  /-- NOC_DEAD_SET (R238): A host write marks galleries or ports dead with cause 7. -/
  | nocDeadSet (v : Word)
  /-- NOC_DEAD_CLEAR (R239): A host write releases dead targets and raises event 0xC2. -/
  | nocDeadClear (v : Word)
  /-- CDR_LOCK (R251): Every member lane has CDR lock, so the link moves to sync-header lock. -/
  | cdrLock (s : Nat)
  /-- SH_LOCK (R251): 64 valid sync headers on every lane move the link to EMB lock. -/
  | shLock (s : Nat)
  /-- EMB_LOCK (R251): Extended-multiblock pilots are found on every lane, with polarity decided. -/
  | embLock (s : Nat) (inverted : BitVec 8)
  /-- ID_WINDOW_DONE (R259): The identity window ends and the lane order is accepted, remapped or held. -/
  | idWindowDone (s : Nat) (carried : List (Option Nat))
  /-- RELEASE_WAIT_DONE (R254): The LEMC phase is known and every buffer window holds, so the link is up. -/
  | releaseWaitDone (s earliest latest : Nat)
  /-- LINK_DOWN (R252): A member lane loses signal, sync or its buffer window, so the whole link goes down and restarts. -/
  | linkDown (s lane : Nat) (why : DownCause)
  /-- SYSREF_CAPTURE (R253): A SYSREF edge is captured and sets or checks the LEMC phase. -/
  | sysrefCapture
  /-- SYSREF_ABSENT (R253): No SYSREF arrives within 10 ms of arming, so cause 7 is raised. -/
  | sysrefAbsent (s : Nat)
  /-- SYSREF_ARM (R253): A write of 1 to PORT_SYSREF ARM arms the phase capture. -/
  | sysrefArm (s : Nat) (v : Word)
  /-- PACKET_GROUP_RELEASE (R255): A received packet group is released and packed into a mesh WRITE. -/
  | packetGroupRelease (s : Nat) (bytes : List Byte)
  /-- TX_STREAM_WRITE (R256): A WRITE to a port's transmit stream places its words into the next frame positions. -/
  | txStreamWrite (i : Nat)
  /-- TX_FRAME_DUE (R256): A frame position due for sending with no word carries zero samples and is counted. -/
  | txFrameDue (s : Nat)
  /-- EQ_EVALUATION (R260): Every 10 µs the CTLE and DFE values move one step within host bounds. -/
  | eqEvaluation (s : Nat) (want : List Int)
  /-- PORT_PROTOCOL (R244): A write sets the port protocol and performs a port reset. -/
  | portProtocol (s : Nat) (v : Word)
  /-- LINK_COMMIT (R248): A write of 1 to PORT_LINK_CFG0 ENABLE checks and commits a link. -/
  | linkCommit (s : Nat) (v : Word)
  /-- LINK_DISABLE (R248): A write of 0 to ENABLE takes every member lane of that direction to idle. -/
  | linkDisable (s : Nat) (v : Word)
  /-- SEAM_BLOCK_LOCK (R266): A seam port reaches block lock and starts sending TRAIN blocks. -/
  | seamBlockLock (s : Nat)
  /-- SEAM_TRAIN_RX (R266): A received TRAIN block advances the exchange, or takes an up link down. -/
  | seamTrainRx (s : Nat) (block : List Byte) (inverted : Bool)
  /-- SEAM_TIME_RX (R267): A TIME block updates SEAM_RTT and SEAM_TICK_DIFF and completes the time state. -/
  | seamTimeRx (s : Nat) (block : List Byte) (arrival : Tick)
  /-- SEAM_TIME_SEND (R267): Every 1,048,576 cycles a TIME block is sent. -/
  | seamTimeSend (s : Nat)
  /-- SEAM_UNIT_RX (R272): A UNIT block is accepted in sequence, discarded or answered with a NAK. -/
  | seamUnitRx (s : Nat) (block : List Byte)
  /-- SEAM_IDLE_RX (R268): An IDLE block advances ACK and returns credits. -/
  | seamIdleRx (s : Nat) (block : List Byte)
  /-- SEAM_NAK_RX (R273): A received NAK starts a replay pass. -/
  | seamNakRx (s : Nat) (block : List Byte)
  /-- SEAM_REPLAY_TIMEOUT (R273): The replay timer expires with blocks unacknowledged, so a pass starts. -/
  | seamReplayTimeout (s : Nat)
  /-- SEAM_BUDGET_EXHAUSTED (R274): An episode exceeds 8 attempts or 4,000 cycles, so the link goes down. -/
  | seamBudgetExhausted (s : Nat)
  /-- SEAM_PACKET_SEND (R268): A packet starts on the seam link once credits and replay room are held. -/
  | seamPacketSend (i : Nat)
  /-- SEAM_RETRAIN (R275): A write of SEAM_CTRL RETRAIN takes the link down with reason 5. -/
  | seamRetrain (s : Nat) (v : Word)
  /-- TRIGGER_LINE_RX (R353): A chassis line level is taken as received and enters the Tinder input bus. -/
  | triggerLineRx (line : Nat) (level : Bool)
  /-- TND_CAPTURE_ARM (R358): The capture route rises and asks the capture unit to arm a capture. -/
  | tndCaptureArm
  /-- TRIG_DRIVE_EN (R429): A write enables or disables trigger drivers, with a 0 then 1 restoring a tristated driver. -/
  | trigDriveEn (v : Word)
  /-- ICP_STAGE_WRITE (R366): A gallery WRITE fills its ICP staging area, or is dropped from other sources. -/
  | icpStageWrite (i : Nat)
  /-- ICP_COMMIT (R367): A COMMIT takes the staged frame, checks it and forwards it as CONFIG. -/
  | icpCommit (g : Nat)
  /-- ICP_CONFIG_SUBMIT (R366): A CONFIG packet from a gallery to (0,4) is checked and forwarded as a commit. -/
  | icpConfigSubmit (i : Nat)
  /-- SWEEP_PASS_START (R381): A sweep pass starts and its entry spacing is fixed. -/
  | sweepPassStart
  /-- SWEEP_ENTRY_DUE (R384): A golden entry falls due and its place is read, compared and classified on a mismatch. -/
  | sweepEntryDue (flips : List Nat) (upsets : List Upset)
  /-- SWEEP_REPAIR_WRITE (R389): The repair is granted the configuration port, written and recorded. -/
  | sweepRepairWrite
  /-- SWEEP_VOTE_FAILURE (R394): A three-way vote disagreement makes the supervisor restart the engine. -/
  | sweepVoteFailure
  /-- SWEEP_HEARTBEAT_TIMEOUT (R394): No heartbeat for 2 × T_eff makes the supervisor restart the engine. -/
  | sweepHeartbeatTimeout
  /-- SWEEP_RESTART_DONE (R394): The golden table has been relocated and a new pass starts at entry 0. -/
  | sweepRestartDone
  /-- ASSAY_SEGMENT_START (R396): A hearth segment starts in an idle window. -/
  | assaySegmentStart (g h : Nat)
  /-- ASSAY_SEGMENT_DONE (R398): A 16-cycle segment completes and its result is compared. -/
  | assaySegmentDone (g h : Nat) (matched : Bool)
  /-- ASSAY_LINK_UNIT (R403): A test unit is sent in an unused slot and checked by the next router. -/
  | assayLinkUnit (n d : Nat) (arrived : Bool)
  /-- ASSAY_CYCLE_DONE (R407): Every reachable unit has been tested, so the cycle time is recorded and event 0xEB is raised. -/
  | assayCycleDone
  /-- ASSAY_ENABLE (R407): A write of ENABLE 1 starts a new assay cycle. -/
  | assayEnable (v : Word)
  /-- ASSAY_DISABLE (R407): A write of ENABLE 0 stops assay at once. -/
  | assayDisable (v : Word)
  /-- PRESN_CHANGE (R426): A MOD_PRESN change stable for 1 ms is accepted as an insertion or a removal. -/
  | presnChange (s : Nat) (present : Bool)
  /-- TALLY_READ_START (R421): A tally read starts at the end frame or 10 ms after an insertion. -/
  | tallyReadStart (s : Nat)
  /-- TALLY_RETRY (R420): A read that is not acknowledged is retried 10 ms later. -/
  | tallyRetry (s : Nat)
  /-- TALLY_READ_DONE (R423): A tally read completes and is checked and bound or withheld. -/
  | tallyReadDone (s : Nat) (answer : TallyAnswer)
  /-- TALLY_REREAD (R421): A write to PORT_TALLY_CTRL starts a new tally read, or is refused. -/
  | tallyReread (s : Nat) (v : Word)
  /-- PIN_BIAS_PROBE (R427): Every 1 ms idle lines are probed for opens and shorts. -/
  | pinBiasProbe (pin : Pin) (kind : Nat)
  /-- DRIVER_READBACK_FAULT (R427): 16 cycles of read-back mismatch declare a driver short and tristate the driver. -/
  | driverReadbackFault (pin : Pin) (kind : Nat)
  /-- TIMING_LINE_REVERSED (R427): SYNC or SYSREF high for 1 ms is declared reversed and its captures are ignored. -/
  | timingLineReversed (line : Nat)
  /-- TALLY_BUS_PROBE (R428): Every 100 ms a faulted tally bus is probed and present modules are re-read. -/
  | tallyBusProbe (bus line kind : Nat)
  /-- LAMP_TX_READBACK (R428): Every 100 ms a tristated LAMP_TX checks one idle bit to recover. -/
  | lampTxReadback (kind : Nat)
  /-- PRESN_NO_ACK (R428): MOD_PRESN present with no acknowledge and no signal for 1 s raises a PRESN_FAULT. -/
  | presnNoAck (s : Nat)
  /-- PREFETCH_FILL_ABANDONED (R173): An uncorrectable context-store word met during a prefetch fill abandons the fill at once, leaves the plane free and frees the engine. -/
  | prefetchFillAbandoned (g : Nat)
  /-- TIMING_REVERSED_CLEARED (R427): A SYNC or SYSREF line declared reversed has its fault cleared after 1,000 consecutive cycles low, and its captures are used again. -/
  | timingReversedCleared (line : Nat)
  /-- MSIX_HOLDOFF_EXPIRY (R284): When the PCIE_MSIX_HOLDOFF interval ends with a producer update still unsignalled, MSI-X vector 0 is raised. -/
  | msixHoldoffExpiry
  /-- SEAM_SIGNAL_LOST (R275): An up seam port loses CDR or signal, or sees 16 invalid sync headers within 64, so the link goes down with reason 4 and dependent transactions end with LINK_DOWN. -/
  | seamSignalLost (s : Nat)
  deriving DecidableEq, Repr

end Sys2Proof
end

