-- ==== Sys2Proof/Decode.lean ====
section
/-!
DEFINITION. Reading a command from a word.  The table of operations and events gives no row any bits, so no word spells
a command.
-/

namespace Sys2Proof

/-- The command that a word of `nbits` bits spells: none, because no row of the table gives bits. -/
def decodeTableWord (_nbits _w : Nat) : Option Instr := none

end Sys2Proof
end

