-- ==== Sys2Proof/Config.lean ====
section
/-!
DEFINITION. What one device fixes for life (serial number, PCI identity) and the free values of the spec: constants
without a body, so that no proof can use a value of them.
-/

namespace Sys2Proof.Config

/-- INV_STEPPING (Table 18.3): 0x10 on the devices this manual describes. -/
def stepping : Nat := 0x10

/-- INV_SERIAL (Table 18.3): set in manufacture, different on every device.  Free: note 3, DESIGN CHOICE. -/
opaque serial : BitVec 64

/-- INV_PCI_IDS (Table 16.5): the spec gives no identity numbers in the catalogue.  Free: note 3, DESIGN CHOICE. -/
opaque pciIds : Word

/-- A free word, one for every value of the model's counter of free values: note 4, DESIGN CHOICE. -/
opaque freeWord : Nat → BitVec 32

/-- A free bit, one for every value of the model's counter of free values: note 4, DESIGN CHOICE. -/
opaque freeBit : Nat → Bool

/-- A free byte, one for every value of the model's counter of free values: note 4, DESIGN CHOICE. -/
opaque freeByte : Nat → BitVec 8

end Sys2Proof.Config
end

