-- ==== Sys2Proof/Machine/State.lean ====
section
/-!
DEFINITION. The state of the array as plain data: every register, memory, queue, counter and mode the spec gives the
device, the queue of waiting commands, and the state right after reset.

Numbered parameters (R316) that hold a value of their own (read-write values, counters, running counts, recorded
values) have their one home in `State.params`; a parameter that reports the state of a unit is computed from that unit
when it is read (Machine/Params.lean).  Maps are sparse tables (`Tab`): what is not listed reads as the reset value.
-/

namespace Sys2Proof.Machine

/-- A byte memory: strictly rising addresses, no listed byte equal to what an unlisted address reads as. -/
abbrev Memory := List Host.Cell

/-- Why the machine stops.  One case only. -/
inductive Fault where
  /-- Raised by COLD_RSTN_RISE when COLD_RSTN rises before the rails are in range: "the device's behaviour is not
  defined until the next correct COLD_RSTN" (chapter 4, Edges).  Safe: the model stops where the spec says nothing. -/
  | undefinedPowerUp
  deriving DecidableEq, Repr

/-- Why a command has no meaning. -/
inductive Refusal where
  /-- Raised by the dispatcher for a command that is not modelled.  Safe: nothing is claimed of it. -/
  | notModelled (mnemonic : String)
  deriving DecidableEq, Repr

/-- The three variants (Table 2.1). -/
inductive Variant where
  | pt1600 | pt1600e | pt0800e
  deriving DecidableEq, Repr

/-- The cause of a clock stop (R55). -/
inductive StopCause where
  | refLost | pllUnlock
  deriving DecidableEq, Repr

/-- Where the core clock stands (R53–R56, R66, R450). -/
inductive ClockMode where
  /-- COLD_RSTN is low. -/
  | coldReset
  /-- The PLL locks, after COLD_RSTN rose or a brown-out hold ended. -/
  | locking
  /-- The core clock runs. -/
  | running
  /-- Stopped; the 1 ms wait of R56 runs or waits for the reference. -/
  | waiting
  /-- Stopped; the PLL relocks. -/
  | relocking
  /-- Held by a brown-out reset (R66). -/
  | brownOut
  deriving DecidableEq, Repr

/-- What COLD_RSTN latched (R37–R41). -/
structure Board where
  straps  : BitVec 4
  rv      : BitVec 32
  rvFlags : BitVec 32
  /-- Keeper cycle 16 has passed: INV_STRAPS, INV_RV and INV_RV_FLAGS are valid. -/
  valid   : Bool
  deriving DecidableEq, Repr

/-- An event whose report waits for the end of kindling (R56, R66): its number and its data. -/
structure Deferred where
  event : Nat
  data  : List Byte
  deriving DecidableEq, Repr

/-- Clock, reset cause and time base (chapter 4). -/
structure Clock where
  mode       : ClockMode
  refPresent : Bool
  cause      : StopCause
  /-- Beacon frames sent since the stop. -/
  beacons    : Nat
  tick       : Tick
  /-- The model's own count of core cycles: never steps. -/
  cyc        : Nat
  /-- Core cycles left in the keeper cycle in progress. -/
  keeperLeft : Nat
  aligned    : Bool
  armed      : Bool
  marginal   : Bool
  /-- Cycles until a captured SYNC edge loads the tick count. -/
  loadIn     : Option Nat
  absentDone : Bool
  /-- Source of the last device-wide reset (Table 4.5). -/
  resetSrc   : Nat
  deferred   : List Deferred
  deriving DecidableEq, Repr

/-- A power domain's state (Table 4.4). -/
inductive DomSt where
  | on | sleep | off
  deriving DecidableEq, Repr

/-- GAL_DAMPER_STATE (Table 18.4). -/
inductive DamperSt where
  | openD | closing | closed | forced
  deriving DecidableEq, Repr

/-- One power domain: 0–15 galleries, 16–23 port pairs, 24 Tinder (R338). -/
structure Dom where
  st         : DomSt
  damper     : DamperSt
  /-- Damper step reached (Table 21.3). -/
  step       : Nat
  /-- Core cycle of damper step 1. -/
  since      : Nat
  /-- The action to apply when closed: 0 fence, 1 sleep, 2 off. -/
  action     : Nat
  /-- The closed domain moves to sleep or off (Table 21.4). -/
  moving     : Bool
  waking     : Bool
  rekindling : Bool
  /-- The router fences the local port (R240, R413). -/
  fenced     : Bool
  /-- Taken off by a thermal-critical stop (R72). -/
  critical   : Bool
  /-- Event 0xC5 was raised in this off period (R242). -/
  asleepDone : Bool
  deriving DecidableEq, Repr

/-- Power, AVS, thermal and margin gating (chapter 4). -/
structure Power where
  vid         : Nat
  /-- Evaluations in a row, since the last change of the code, in which every monitor reported high margin. -/
  highRun     : Nat
  clipCyc     : Option Nat
  tj          : BitVec 16
  thermActive : Bool
  /-- Thermal steps down that stand, latest first: the gallery of each (R71). -/
  thermSteps  : List Nat
  /-- Margin duty per gallery, 16 when unlisted. -/
  marginDuty  : Tab Nat
  /-- Evaluations with margin since the last low report of the gallery. -/
  marginOk    : Tab Nat
  /-- Duty changes wait for a HALT capture's release (R414): the duty in force of a halted gallery. -/
  frozenDuty  : Tab Nat
  critical    : Bool
  alertN      : Bool
  domains     : Tab Dom
  deriving DecidableEq, Repr

/-- Kindling (chapter 5). -/
structure Kindle where
  phase      : Nat
  code       : Nat
  warnings   : BitVec 4
  failPhase  : Nat
  journalOk  : Bool
  /-- Domains that DOMAIN_POWER_UP has powered in this kindling. -/
  poweredUp  : Nat
  /-- Start-up steps completed. -/
  steps      : Nat
  pullDown   : Bool
  /-- The hold point was reached in this core cycle. -/
  holdAt     : Option Nat
  /-- The entry tick E, once it is fixed (R91, R93). -/
  entry      : Option Tick
  outputs    : Bool
  gsr        : Bool
  writeEn    : Bool
  deriving DecidableEq, Repr

/-- A golden table entry (Table 6.9). -/
structure Golden where
  cfa      : Nat
  gcrc     : Word
  frameOff : Nat
  mapOff   : Nat
  deriving DecidableEq, Repr

/-- A loaded configuration frame: the CRC of its configuration data and its offset in the image. -/
structure Loaded where
  gcrc : Word
  off  : Nat
  deriving DecidableEq, Repr

/-- The configuration engine: the image being loaded, or the one that runs (chapters 5 and 6). -/
structure Image where
  host      : Bool
  hostLen   : Nat
  hostBytes : List Byte
  base      : Nat
  extent    : Nat
  block     : Nat
  blockOk   : Bool
  keyHash   : Option (List Byte)
  defEntry  : Nat
  entry     : Nat
  signed    : Bool
  imageLen  : Nat
  framesOff : Nat
  hasSig    : Bool
  galMask   : BitVec 16
  /-- Position and delay of lock wait, output release, GSR release and write enable. -/
  stepPos   : List Nat
  stepDelay : List Nat
  hold      : Nat
  strict    : Bool
  lockLimit : Nat
  digest    : Option (List Byte)
  off       : Nat
  index     : Nat
  sect      : Nat
  loaded    : List (Nat × Loaded)
  /-- Record starts of the essential-bit map: image offset, CFA, and bytes up to the end of the payload (R115). -/
  mapRecs   : List (Nat × Nat × Nat)
  golden    : List Golden
  /-- Frames that relate several ports are checked at the end frame: the lead ports (R262). -/
  linkLeads : List Nat
  deriving DecidableEq, Repr

/-- The state of a code word (Table 7.2). -/
inductive WordSt where
  | blank | programmed | torn
  deriving DecidableEq, Repr

/-- What a code word's check bytes tell a read (R121). -/
inductive Decay where
  | sound | corrected | fatal
  deriving DecidableEq, Repr

/-- One lamp command that has arrived (R300). -/
structure Cmd where
  via  : Transport
  type : Nat
  tag  : Nat
  body : List Byte
  deriving DecidableEq, Repr

/-- A flash write in progress (R125). -/
inductive FlashOp where
  | program (cmd : Cmd) (addr : Nat) (data : List Byte)
  | erase (cmd : Cmd) (sector : Nat)
  | swap (cmd : Cmd) (block : Nat)
  deriving DecidableEq, Repr

/-- The keeper flash (chapter 7). -/
structure Flash where
  data    : Memory
  words   : Tab WordSt
  decay   : Tab Decay
  erases  : Tab Nat
  op      : Option FlashOp
  corrCyc : Option Nat
  deriving DecidableEq, Repr

/-- A report waiting in the queue (R310). -/
structure Report where
  event : Nat
  tick  : Tick
  data  : List Byte
  deriving DecidableEq, Repr

/-- A pending latch of one event number (R332): the first raise and how many merged into it. -/
structure Latch where
  event  : Nat
  tick   : Tick
  data   : List Byte
  merged : Nat
  deriving DecidableEq, Repr

/-- An overflow episode (R311). -/
structure Lost where
  counts     : List Nat
  firstTick  : Tick
  lastTick   : Tick
  firstEvent : Nat
  /-- Reports that stood in the queue before REPORT_LOST was placed behind them. -/
  behind     : Nat
  deriving DecidableEq, Repr

/-- The event concentrator and the report queue (chapters 17 and 19). -/
structure Events where
  latches  : List Latch
  queue    : List Report
  queueMax : Nat
  lost     : Option Lost
  /-- Tick of the last queued report of each event. -/
  lastTick : Tab (Option Tick)
  deriving DecidableEq, Repr

/-- A completed command and its response, kept for a repeat (R306). -/
structure Stored where
  via  : Transport
  tag  : Nat
  crc  : Word
  rsp  : List Byte
  deriving DecidableEq, Repr

/-- A MEM_READ in progress: its parts as they return, and the first failing status (R309). -/
structure MemRead where
  cmd     : Cmd
  waiting : Nat
  parts   : List (Nat × List Byte)
  failed  : Option Nat
  deriving DecidableEq, Repr

/-- A DAMPER_CLOSE or DAMPER_OPEN in progress (R309): the domains it still waits for, and what it reports. -/
structure DamperCmd where
  cmd    : Cmd
  left   : BitVec 32
  ended  : BitVec 32
  forced : BitVec 32
  deriving DecidableEq, Repr

/-- The lamp controller (chapter 17). -/
structure Lamp where
  /-- The lamp pair is started (keeper cycle 16, RV_LAMP). -/
  pairOn      : Bool
  owner       : Option Transport
  /-- Commands that hold a place and have not started, in arrival order. -/
  inbox       : List Cmd
  /-- Deferred commands that have started and are not complete. -/
  running     : List Cmd
  /-- Outstanding commands whose response a PCI Express reset discards (R135, R293). -/
  orphans     : List Cmd
  stored      : List Stored
  /-- Messages that have left on the lamp pair, latest first. -/
  sent        : List (List Byte)
  /-- The model's record of the status of the last single host write. -/
  entryStatus : Nat
  dampers     : List DamperCmd
  reads       : List MemRead
  deriving DecidableEq, Repr

/-- A BAR2 read in progress (R288). -/
structure Bulk where
  tag     : Nat
  first   : Nat
  len     : Nat
  parts   : List (Nat × List Byte)
  waiting : Nat
  failed  : Option Nat
  deriving DecidableEq, Repr

/-- The PCI Express endpoint (chapter 16). -/
structure Pcie where
  started   : Bool
  linkUp    : Bool
  width     : Nat
  gen       : Nat
  config    : Tab Word
  msixTable : Tab Word
  pba       : BitVec 4
  slots     : Tab (List Byte)
  busy      : BitVec 4
  queue     : List (Nat × Nat)
  direct    : Option (List Byte)
  /-- Responses that wait for DIRECT_RSP or for ring room. -/
  waiting   : List (List Byte)
  /-- The response to the write that armed the ring, while DIRECT_RSP is not free (R284). -/
  armRsp    : Option (List Byte)
  ringArmed : Bool
  prod      : Nat
  cons      : Nat
  dbErrors  : Nat
  /-- Writes into host memory, latest first. -/
  hostWrites : List (Nat × List Byte)
  /-- MSI-X vectors raised, latest first. -/
  msix      : List Nat
  /-- Completions returned to the host, latest first. -/
  complete  : List (Nat × List Byte)
  unsignalled : Bool
  lastVec0  : Option Nat
  /-- Upstream packets held in D3hot. -/
  held      : List Packet
  bulk      : List Bulk
  bulkCyc   : Option Nat
  deriving DecidableEq, Repr

/-- A word on a wire with its plane tag (R195); absence is an invalid word. -/
structure TWord where
  word : Word
  tag  : Nat
  deriving DecidableEq, Repr

/-- A context descriptor (Table 6.6) with the slot's ACC_VALID bit (R160). -/
structure CtxDesc where
  defined   : Bool
  accUse    : Bool
  initPlane : Option Nat
  accValid  : Bool
  deriving DecidableEq, Repr

/-- One plane (Table 9.1, R159, R163). -/
structure Plane where
  ctx     : Option Nat
  filling : Option Nat
  stamp   : Nat
  /-- Enabled cycles until the plane has drained. -/
  drain   : Nat
  dirty   : Bool
  /-- ACC live, bit h for hearth h. -/
  accLive : BitVec 128
  /-- A spill has carried ACC since it last changed: no further spill is needed for it. -/
  accKept : Bool
  /-- Filled by a prefetch and not yet made active (R171). -/
  unused  : Bool
  /-- Active in some cycle since the sweep's previous check of its frames (R388). -/
  usedCyc : Nat
  deriving DecidableEq, Repr

/-- A transfer of the fill/spill engine (R165). -/
structure Transfer where
  fill     : Bool
  plane    : Nat
  ctx      : Nat
  demand   : Bool
  /-- The core cycle it started in. -/
  since    : Nat
  /-- Slot offset of the first uncorrectable word met. -/
  bad      : Option Nat
  deriving DecidableEq, Repr

/-- An operation in flight in a hearth (R157): what lands when its latency has passed. -/
structure InFlight where
  hearth : Nat
  plane  : Nat
  left   : Nat
  result : Option Word
  wb     : Option Nat
  setZN  : Option (Bool × Bool)
  setC   : Option Bool
  /-- V, D and U to set. -/
  sticky : BitVec 3
  /-- FCLR: V, D and U clear before the firing's own flag effects. -/
  fclr   : Bool
  /-- Registers the line of DLY shifts into. -/
  regs   : List (Nat × Word)
  deriving DecidableEq, Repr

/-- A tap request or the burst it has been granted (R154, R155, R207). -/
structure TapReq where
  load    : Bool
  addr    : Nat
  beats   : Nat
  plane   : Nat
  granted : Bool
  /-- LD: words still to place on OUT, marked when read from an unprimed granule.  ST: words supplied and not yet written. -/
  words   : List (Word × Bool)
  /-- ST: words that complete the burst. -/
  need    : Nat
  /-- Beats transferred. -/
  done    : Nat
  wb      : Option Nat
  fclr    : Bool
  /-- An ST burst opened before write enable: its words are consumed and discarded (R155). -/
  nowrite : Bool
  /-- Enabled cycles until the first LD word. -/
  wait    : Nat
  deriving DecidableEq, Repr

/-- A requester's view at one bank arbiter (R207–R213). -/
structure BankReq where
  bank      : Nat
  requester : Nat
  raised    : Nat
  /-- The cycle of its withdrawal. -/
  withdrawn : Option Nat
  losses    : Nat
  beats     : Nat
  deriving DecidableEq, Repr

/-- One bank's arbiter (R209–R213). -/
structure Bank where
  /-- The burst in progress: requester, first core cycle, beats left. -/
  burst   : Option (Nat × Nat × Nat)
  park    : Option Nat
  deriving DecidableEq, Repr

/-- The sequencer's state (Table 10.5). -/
inductive SeqSt where
  /-- GSR holds the sequencer. -/
  | held
  | issuing
  | switchStall (ctx : Nat)
  | waiting (left : Nat)
  | waitt (source test : Nat) (left : Nat) (timed : Bool)
  | fence
  | dmaStall
  | halt
  | fault
  deriving DecidableEq, Repr

/-- A DMA transfer in flight (R187). -/
structure Dma where
  id       : Nat
  toMesh   : Bool
  addr     : Nat
  units    : Nat
  remote   : Nat
  card     : Nat
  dx       : Nat
  dy       : Nat
  port     : Nat
  gt       : Bool
  doneFlag : Option Nat
  errFlag  : Option Nat
  waiting  : Nat
  failed   : Bool
  deriving DecidableEq, Repr

/-- The sequencer (chapter 10). -/
structure Seq where
  prog    : Tab Word
  entry   : Nat
  pc      : Nat
  st      : SeqSt
  /-- Stopped in the damped state (R190). -/
  damped  : Bool
  stack   : List Nat
  lc      : Tab (Option Nat)
  flags   : BitVec 8
  timeout : Bool
  latches : BitVec 20
  /-- Levels of TI0–TI15 and HC0–HC3 in this cycle and in the cycle before. -/
  inputs  : BitVec 20
  prev    : BitVec 20
  /-- Latches as the cycle began, and rising inputs already handled in this cycle. -/
  began   : BitVec 20
  seen    : BitVec 20
  pulse   : BitVec 4
  gout    : BitVec 4
  wdog    : Nat
  issued  : Bool
  dmas    : List Dma
  nextDma : Nat
  deriving DecidableEq, Repr

/-- A staged, held or waiting configuration frame (R366, R368). -/
structure Frame where
  cfa    : Nat
  writer : Option Nat
  data   : List Byte
  deriving DecidableEq, Repr

/-- Who waits at a configuration port (R363, R389). -/
inductive Writer where
  | engine
  | held
  | lamp (cmd : Cmd)
  | icp (tag : Packet)
  | sweep (lost : Nat)
  deriving DecidableEq, Repr

/-- The ICP staging area of one gallery (Table 21.1). -/
structure Staging where
  data   : Memory
  command : List Byte
  seq    : Nat
  status : Nat
  cfa    : Nat
  busy   : Bool
  held   : Bool
  deriving DecidableEq, Repr

/-- A march element open on a beat (R399). -/
structure March where
  bank   : Nat
  row    : Nat
  down   : Bool
  /-- Steps of the element done: 0 no element is open. -/
  step   : Nat
  buffer : List Byte
  retry  : Bool
  doneAll : Bool
  deriving DecidableEq, Repr

/-- A hearth's assay progress (R396–R398). -/
structure HearthTest where
  done    : Nat
  running : Bool
  retry   : Bool
  plane   : Nat
  excluded : Bool
  deriving DecidableEq, Repr

/-- One gallery (chapters 8–12, 21, 23). -/
structure Gallery where
  planeCfg   : Memory
  planes     : Tab Plane
  descs      : Tab CtxDesc
  store      : Memory
  storeBad   : Tab Decay
  initCtx    : Nat
  active     : Nat
  activeCtx  : Nat
  regs       : Tab Word
  acc        : Tab (BitVec 72)
  flags      : Tab (BitVec 6)
  outs       : Tab (Option TWord)
  self       : Tab Word
  pipe       : List InFlight
  busy       : Tab Nat
  wires      : Tab (Option TWord)
  nextWires  : Tab (Option TWord)
  edgeIn     : Tab (Option Word)
  edgeOut    : Tab (Option TWord)
  edgeQ      : List (List (Option Word))
  ingress    : List (List (Option Word))
  hf         : BitVec 4
  hfHist     : List (BitVec 4)
  tapQ       : Tab (List TapReq)
  seq        : Seq
  prefetch   : List Nat
  demand     : Option Nat
  /-- The plane and context that become active in the next cycle (R166). -/
  switchTo   : Option (Nat × Nat)
  engine     : Option Transfer
  mem        : Memory
  memBad     : Tab Decay
  allPrimed  : Bool
  granules   : Tab (BitVec 32)
  unprimedEv : BitVec 16
  requests   : List BankReq
  banks      : Tab Bank
  egress     : Tab (List (List (Option Word)))
  /-- GAL_EGRESS words in force for the packet that an egress flow is gathering (R322). -/
  egressNow  : Tab (Option (Word × Word))
  /-- A unit has entered the edge lanes in this cycle. -/
  edgeBusy   : Bool
  portBusy   : Option Writer
  portWait   : List Writer
  hold       : List Frame
  transit    : Nat
  staging    : Staging
  march      : March
  hearths    : Tab HearthTest
  bankFail   : BitVec 16
  resetDue   : Bool
  deriving DecidableEq, Repr

/-- What a transaction's answer is for (R224, R225). -/
inductive Purpose where
  | dma (g id addr : Nat) (len : Nat)
  | bulk (tag part : Nat)
  | lampRead (cmd : Cmd) (part : Nat)
  /-- A configuration frame forwarded for writer g, with the submission packet to answer, if it came as one. -/
  | icp (g seq cfa : Nat) (ask : Option Packet)
  /-- A request of a gallery that is sent as a packet of its own. -/
  | message
  deriving DecidableEq, Repr

/-- An outstanding transaction (R225). -/
structure Trans where
  node    : Nat
  port    : Nat
  tag     : Nat
  dcard   : Nat
  dnode   : Nat
  dport   : Nat
  purpose : Purpose
  deriving DecidableEq, Repr

/-- A packet on its way: the core cycle its header was presented at the source router, and whether a fence, a wake or
a demotion excludes it from R233. -/
structure Flying where
  pkt   : Packet
  since : Nat
  late  : Bool
  deriving DecidableEq, Repr

/-- The mesh (chapter 13). -/
structure Mesh where
  /-- Packets their units have presented to the source router, in order. -/
  ready   : List Packet
  flight  : List Flying
  gtWait  : List Flying
  /-- Held packets of fenced and sleeping ports, in arrival order (R240). -/
  held    : List Flying
  /-- Packets back-pressured behind them. -/
  pressed : List Flying
  trans   : List Trans
  nextTag : Nat
  dead    : BitVec 32
  deriving DecidableEq, Repr

/-- A seam port's link (chapter 15). -/
structure Seam where
  state     : Nat
  peerCard  : Nat
  peerPort  : Nat
  peerRefuse : Bool
  reason    : Nat
  good      : Nat
  readyRun  : Nat
  /-- Check results of this training already reported (R266). -/
  reported  : List Nat
  nextSeq   : Nat
  expected  : Nat
  acked     : Nat
  reqUsed   : Nat
  rspUsed   : Nat
  reqPeer   : Nat
  rspPeer   : Nat
  reqFreed  : Nat
  rspFreed  : Nat
  replay    : List (List Byte)
  nakPending : Bool
  nakCyc    : Nat
  peerReplay : Bool
  episode   : Option (Nat × Nat × Nat)
  passCyc   : Nat
  passFrom  : Option Nat
  echoTx    : BitVec 64
  echoRx    : BitVec 64
  timeSeen  : Bool
  lastDiff  : Option (BitVec 64)
  rxHead    : Option Packet
  sent      : List (List Byte)
  deriving DecidableEq, Repr

/-- A stream port (chapters 14, 15 and 25). -/
structure Port where
  /-- PORT_RATE in force since the last port reset (R244). -/
  rateNow   : Nat
  signal    : Bool
  cdr       : Bool
  inverted  : Bool
  polDone   : Bool
  txFault   : Bool
  laneSt    : Nat
  linkSt    : Nat
  phi       : Option Nat
  armed     : Bool
  armAbsent : Bool
  /-- Identity results already reported since the link was last up or the port reset (R259). -/
  idSeen    : List (List (Option Nat))
  ctle      : Nat
  dfe       : List Int
  clipCyc   : Tab (Option Nat)
  txBuf     : List Word
  ringK     : Nat
  lockAt    : Bool
  configured : Bool
  present   : Bool
  tallySt   : Nat
  tallyTry  : Nat
  tallyRev  : Bool
  /-- The read in progress can end a withholding (R425). -/
  tallyEnds : Bool
  reason    : Nat
  bind      : Nat
  bindCfg   : List Byte
  faults    : BitVec 4
  faultKind : Nat
  seam      : Seam
  deriving DecidableEq, Repr

/-- The Tinder fabric and the chassis lines (chapter 20). -/
structure Tinder where
  cfg       : Memory
  fromImage : Bool
  default   : Bool
  q         : BitVec 128
  out       : BitVec 128
  inbus     : BitVec 96
  /-- Received levels: TRIG0–TRIG7 in bits 0–7, STAR_IN in bit 8; with the levels of the last three cycles. -/
  lines     : BitVec 9
  lineHist  : List (BitVec 9)
  pulses    : BitVec 2
  pulseHist : List (BitVec 2)
  expHist   : List (BitVec 64)
  routeHist : List (BitVec 266)
  /-- Driven levels at the balls: TRIG0–TRIG7, STAR_OUT. -/
  driven    : BitVec 9
  /-- The tick of the cycle in which the capture route rose, for the request one cycle later. -/
  captDue   : Option Tick
  deriving DecidableEq, Repr

/-- A golden copy held in the keeper's cache (R390, R391). -/
structure Shadow where
  cfa  : Nat
  data : List Byte
  deriving DecidableEq, Repr

/-- The sweep engine (chapter 22). -/
structure Sweep where
  running   : Bool
  restarting : Bool
  late      : Bool
  start     : Nat
  teff      : Nat
  index     : Nat
  shadows   : List Shadow
  crcs      : List (Nat × Word)
  unguarded : List Nat
  mapBad    : List Nat
  reported  : List Nat
  /-- A repair that waits for the port: entry, differing bits, essential, in use. -/
  repair    : Option (Nat × Nat × Bool × Bool)
  changed   : Bool
  checked   : Tab Nat
  deriving DecidableEq, Repr

/-- Assay's device-wide state (chapter 23). -/
structure Assay where
  inCycle  : Bool
  start    : Nat
  failed   : Bool
  links    : Tab Nat
  linkRetry : List Nat
  linkFail : List Nat
  deriving DecidableEq, Repr

/-- A captured gallery (R410, R413, R414). -/
structure CaptGal where
  st     : Nat
  wasReset : Bool
  reason : Nat
  lost   : Bool
  deriving DecidableEq, Repr

/-- The capture unit (chapter 24). -/
structure Capture where
  st      : Nat
  kind    : Nat
  source  : Nat
  gals    : BitVec 16
  armTick : Tick
  srcGal  : Nat
  dropped : Nat
  perGal  : Tab CaptGal
  /-- Shadow copies of the captured galleries. -/
  shadows : List (Nat × Gallery)
  tick    : Tick
  tbStatus : Word
  inbus   : BitVec 96
  mcOut   : BitVec 128
  mcQ     : BitVec 128
  trigSt  : Word
  deriving DecidableEq, Repr

/-- Fault sensing of the chassis, management and bus pins (chapter 25). -/
structure Pins where
  /-- Active kind of TRIG0–TRIG7, STAR_IN (8), STAR_OUT (9), SYNC (10), SYSREF (11), LAMP_TX (12), LAMP_RX (13),
  KINDLED (14) and tally bus j (16 + j); 0 none. -/
  kinds     : Tab Nat
  /-- Faults since reset of TRIG0–TRIG7, STAR_IN, STAR_OUT, saturating at 255. -/
  counts    : Tab Nat
  /-- Probes in a row that disagree with the declared state, and the kind they saw. -/
  runs      : Tab (Nat × Nat)
  tristated : BitVec 10
  deriving DecidableEq, Repr

/-- The state of the device, and the commands that wait. -/
structure State where
  pending : List Instr
  variant : Variant
  board   : Board
  clk     : Clock
  pwr     : Power
  kin     : Kindle
  img     : Image
  flash   : Flash
  lamp    : Lamp
  evt     : Events
  params  : Tab Word
  /-- Staged low words of read-write pairs (R322), keyed by the low number. -/
  staged  : Tab (Option Word)
  pcie    : Pcie
  gals    : Tab Gallery
  mesh    : Mesh
  ports   : Tab Port
  tnd     : Tinder
  sweep   : Sweep
  assay   : Assay
  capt    : Capture
  pins    : Pins
  /-- The model's counter of free values (note 4, DESIGN CHOICE). -/
  free    : Nat
  deriving DecidableEq, Repr

/-- A domain at reset: without power until DOMAIN_POWER_UP (R78). -/
def Dom.reset : Dom :=
  { st := .off, damper := .openD, step := 0, since := 0, action := 0, moving := false, waking := false,
    rekindling := false, fenced := false, critical := false, asleepDone := false }

/-- An undefined context (Table 6.6). -/
def CtxDesc.reset : CtxDesc := { defined := false, accUse := false, initPlane := none, accValid := false }

/-- A free plane (Table 9.1). -/
def Plane.reset : Plane :=
  { ctx := none, filling := none, stamp := 0, drain := 0, dirty := false, accLive := 0, accKept := false, unused := false,
    usedCyc := 0 }

/-- A free bank with no park owner. -/
def Bank.reset : Bank := { burst := none, park := none }

/-- The sequencer before GSR release (R178). -/
def Seq.reset : Seq :=
  { prog := [], entry := 0, pc := 0, st := .held, damped := false, stack := [], lc := [], flags := 0,
    timeout := false, latches := 0, inputs := 0, prev := 0, began := 0, seen := 0, pulse := 0, gout := 0, wdog := 0, issued := false,
    dmas := [], nextDma := 0 }

/-- An empty staging area (Table 21.1). -/
def Staging.reset : Staging :=
  { data := [], command := [], seq := 0, status := 0, cfa := 0, busy := false, held := false }

/-- No element open; the march at bank 0, row 0. -/
def March.reset : March :=
  { bank := 0, row := 0, down := false, step := 0, buffer := [], retry := false, doneAll := false }

/-- A hearth not yet tested. -/
def HearthTest.reset : HearthTest :=
  { done := 0, running := false, retry := false, plane := 0, excluded := false }

/-- A gallery at reset. -/
def Gallery.reset : Gallery :=
  { planeCfg := [], planes := [], descs := [], store := [], storeBad := [], initCtx := 0, active := 0,
    activeCtx := 0, regs := [], acc := [], flags := [], outs := [], self := [], pipe := [], busy := [],
    wires := [], nextWires := [], edgeIn := [], edgeOut := [], edgeQ := [], ingress := [], hf := 0, hfHist := [],
    tapQ := [], seq := Seq.reset, prefetch := [], demand := none, switchTo := none, engine := none, mem := [], memBad := [],
    allPrimed := false, granules := [], unprimedEv := 0, requests := [], banks := [], egress := [], egressNow := [],
    edgeBusy := false, portBusy := none, portWait := [], hold := [], transit := 0, staging := Staging.reset,
    march := March.reset, hearths := [], bankFail := 0, resetDue := false }

/-- A seam link at reset (SEAM_STATUS 0: off). -/
def Seam.reset : Seam :=
  { state := 0, peerCard := 0, peerPort := 0, peerRefuse := false, reason := 0, good := 0, readyRun := 0,
    reported := [], nextSeq := 0, expected := 0, acked := 4095, reqUsed := 0, rspUsed := 0, reqPeer := 0,
    rspPeer := 0, reqFreed := 0, rspFreed := 0, replay := [], nakPending := false, nakCyc := 0,
    peerReplay := false, episode := none, passCyc := 0, passFrom := none, echoTx := 0, echoRx := 0,
    timeSeen := false, lastDiff := none, rxHead := none, sent := [] }

/-- A port at reset: protocol disabled (Table 14.5), adaptation from code 8 (R260). -/
def Port.reset : Port :=
  { rateNow := 0, signal := false, cdr := false, inverted := false, polDone := false, txFault := false, laneSt := 0,
    linkSt := 0, phi := none, armed := false, armAbsent := false, idSeen := [], ctle := 8, dfe := [0, 0, 0, 0, 0],
    clipCyc := [], txBuf := [], ringK := 0, lockAt := false, configured := false, present := false,
    tallySt := 0, tallyTry := 0, tallyRev := false, tallyEnds := false, reason := 0, bind := 0, bindCfg := [], faults := 0,
    faultKind := 0, seam := Seam.reset }

/-- The Tinder fabric at reset. -/
def Tinder.reset : Tinder :=
  { cfg := [], fromImage := false, default := false, q := 0, out := 0, inbus := 0, lines := 0, lineHist := [],
    pulses := 0, pulseHist := [], expHist := [], routeHist := [], driven := 0, captDue := none }

/-- The sweep before user mode. -/
def Sweep.reset : Sweep :=
  { running := false, restarting := false, late := false, start := 0, teff := 0, index := 0, shadows := [],
    crcs := [], unguarded := [], mapBad := [], reported := [], repair := none, changed := false, checked := [] }

/-- Assay before user mode. -/
def Assay.reset : Assay :=
  { inCycle := false, start := 0, failed := false, links := [], linkRetry := [], linkFail := [] }

/-- A gallery not named by a capture. -/
def CaptGal.reset : CaptGal := { st := 0, wasReset := false, reason := 0, lost := false }

/-- The capture unit idle. -/
def Capture.reset : Capture :=
  { st := 0, kind := 0, source := 0, gals := 0, armTick := 0, srcGal := 0, dropped := 0, perGal := [],
    shadows := [], tick := 0, tbStatus := 0, inbus := 0, mcOut := 0, mcQ := 0, trigSt := 0 }

/-- The configuration engine with no image. -/
def Image.reset : Image :=
  { host := false, hostLen := 0, hostBytes := [], base := 0, extent := 0, block := 0, blockOk := false,
    keyHash := none, defEntry := 0, entry := 0, signed := false, imageLen := 0, framesOff := 0, hasSig := false,
    galMask := 0, stepPos := [], stepDelay := [], hold := 0, strict := false, lockLimit := 0, digest := none,
    off := 0, index := 0, sect := 0, loaded := [], mapRecs := [], golden := [], linkLeads := [] }

/-- A flash whose every word is blank: note 6, DESIGN CHOICE. -/
def Flash.reset : Flash :=
  { data := [], words := [], decay := [], erases := [], op := none, corrCyc := none }

/-- The lamp controller with no owner and no command. -/
def Lamp.reset : Lamp :=
  { pairOn := false, owner := none, inbox := [], running := [], orphans := [], stored := [], sent := [], entryStatus := 0,
    dampers := [], reads := [] }

/-- The concentrator with nothing pending. -/
def Events.reset : Events := { latches := [], queue := [], queueMax := 0, lost := none, lastTick := [] }

/-- The endpoint before keeper cycle 16: every slot free. -/
def Pcie.reset : Pcie :=
  { started := false, linkUp := false, width := 0, gen := 0, config := [], msixTable := [], pba := 0, slots := [],
    busy := 0, queue := [], direct := none, waiting := [], armRsp := none, ringArmed := false, prod := 0, cons := 0, dbErrors := 0,
    hostWrites := [], msix := [], complete := [], unsignalled := false, lastVec0 := none, held := [], bulk := [],
    bulkCyc := none }

/-- The mesh with nothing in flight and nothing dead. -/
def Mesh.reset : Mesh :=
  { ready := [], flight := [], gtWait := [], held := [], pressed := [], trans := [], nextTag := 0, dead := 0 }

/-- Power at reset: AVS code 48 (R65, R77), every duty 16, every domain without power. -/
def Power.reset : Power :=
  { vid := 48, highRun := 0, clipCyc := none, tj := 0, thermActive := false, thermSteps := [], marginDuty := [],
    marginOk := [], frozenDuty := [], critical := false, alertN := false, domains := [] }

/-- Kindling at its start (R77): outputs safe, GSR asserted, the KINDLED pull-down on. -/
def Kindle.reset : Kindle :=
  { phase := 0, code := 0, warnings := 0, failPhase := 0, journalOk := false, poweredUp := 0, steps := 0,
    pullDown := true, holdAt := none, entry := none, outputs := false, gsr := true, writeEn := false }

/-- The clock while COLD_RSTN is low. -/
def Clock.reset : Clock :=
  { mode := .coldReset, refPresent := true, cause := .refLost, beacons := 0, tick := 0, cyc := 0, keeperLeft := 8,
    aligned := false, armed := false, marginal := false, loadIn := none, absentDone := false, resetSrc := 1,
    deferred := [] }

/-- The latches before their first capture, as pins left open read: straps 0 (R37), RV codes 15 (Table 3.10). -/
def Board.reset : Board := { straps := 0, rv := 0xFFFFFFFF, rvFlags := 0, valid := false }

/-- No pin fault. -/
def Pins.reset : Pins := { kinds := [], counts := [], runs := [], tristated := 0 }

/-- The state of a PT-1600 with COLD_RSTN low (R75, R77), no command waiting. -/
def State.reset : State :=
  { pending := [], variant := .pt1600, board := Board.reset, clk := Clock.reset, pwr := Power.reset,
    kin := Kindle.reset, img := Image.reset, flash := Flash.reset, lamp := Lamp.reset, evt := Events.reset,
    params := [], staged := [], pcie := Pcie.reset, gals := [], mesh := Mesh.reset, ports := [],
    tnd := Tinder.reset, sweep := Sweep.reset, assay := Assay.reset, capt := Capture.reset, pins := Pins.reset,
    free := 0 }

end Sys2Proof.Machine
end

