-- ==== Sys2Proof/Machine/Bits.lean ====
section
/-!
DEFINITION. Byte order (R4), bit fields (R3), sign, checksums (R104, R264), and reading and writing sparse tables and
byte memories.
-/

namespace Sys2Proof.Machine

/-- The value of key `n`: the listed one, or `d`. -/
def tabGet {α : Type} (d : α) : Tab α → Nat → α
  | [], _ => d
  | (k, v) :: r, n => if k = n then v else tabGet d r n

/-- Writes key `n`, keeping the keys rising and no entry at the value `d` an unlisted key reads as. -/
def tabSet {α : Type} [DecidableEq α] (d : α) : Tab α → Nat → α → Tab α
  | [], n, x => if x = d then [] else [(n, x)]
  | (k, v) :: r, n, x =>
    if k < n then (k, v) :: tabSet d r n x
    else if x = d then ((k, v) :: r).filter (fun p => decide (p.1 ≠ n))
    else if k = n then (n, x) :: r
    else (n, x) :: (k, v) :: r

/-- Applies `f` to the value of key `n`. -/
def tabMod {α : Type} [DecidableEq α] (d : α) (t : Tab α) (n : Nat) (f : α → α) : Tab α :=
  tabSet d t n (f (tabGet d t n))

/-- Replaces the values of keys `lo` to `lo + n - 1` by `f 0` to `f (n - 1)`. -/
def tabBlock {α : Type} [DecidableEq α] (d : α) (t : Tab α) (lo n : Nat) (f : Nat → α) : Tab α :=
  t.filter (fun p => decide (p.1 < lo)) ++
    ((List.range n).filterMap (fun i => if f i = d then none else some (lo + i, f i)) ++
      t.filter (fun p => decide (lo + n ≤ p.1)))

/-- Puts the values of keys `lo` to `lo + n - 1` back to the unlisted value. -/
def tabClear {α : Type} (t : Tab α) (lo n : Nat) : Tab α := t.filter (fun p => decide (p.1 < lo ∨ lo + n ≤ p.1))

/-- The canonical form of a table whose unlisted key `n` reads as `d n`. -/
abbrev TabWf {α : Type} (d : Nat → α) (t : Tab α) : Prop :=
  t.Pairwise (fun a b => a.1 < b.1) ∧ ∀ p ∈ t, p.2 ≠ d p.1

/-- The canonical form of a byte memory whose unlisted bytes read as `d`. -/
abbrev Memory.wf (d : Byte) (m : Memory) : Prop := TabWf (fun _ => d) m

/-- One byte of a memory whose unlisted bytes read 0. -/
def memByte (m : Memory) (a : Nat) : Byte := tabGet 0 m a

/-- Writes one byte of a memory whose unlisted bytes read 0. -/
def memPut (m : Memory) (a : Nat) (b : Byte) : Memory := tabSet 0 m a b

/-- `n` bytes from address `a` upward. -/
def memRead (m : Memory) (a n : Nat) : List Byte := (List.range n).map (fun i => memByte m (a + i))

/-- Writes bytes from address `a` upward. -/
def memWrite (m : Memory) (a : Nat) : List Byte → Memory
  | [] => m
  | b :: r => memWrite (memPut m a b) (a + 1) r

/-- Writes `n` zero bytes from address `a` upward. -/
def memZero (m : Memory) (a n : Nat) : Memory := m.filter (fun c => decide (c.1 < a ∨ a + n ≤ c.1))

/-- One byte of the flash, whose blank bytes read 0xFF (Table 7.2). -/
def flashByte (m : Memory) (a : Nat) : Byte := tabGet 0xFF m a

/-- `n` bytes of the flash. -/
def flashBytes (m : Memory) (a n : Nat) : List Byte := (List.range n).map (fun i => flashByte m (a + i))

/-- Writes bytes of the flash. -/
def flashPut (m : Memory) (a : Nat) : List Byte → Memory
  | [] => m
  | b :: r => flashPut (tabSet 0xFF m a b) (a + 1) r

/-- Sets `n` flash bytes blank. -/
def flashBlank (m : Memory) (a n : Nat) : Memory := m.filter (fun c => decide (c.1 < a ∨ a + n ≤ c.1))

/-- `n` bytes of `l` from offset `off`. -/
def slice (l : List Byte) (off n : Nat) : List Byte := (l.drop off).take n

/-- The byte at offset `i`, 0 past the end. -/
def byteAt (l : List Byte) (i : Nat) : Byte := l.getD i 0

/-- The unsigned value of a little-endian byte string (R4). -/
def leNat : List Byte → Nat
  | [] => 0
  | b :: r => b.toNat + 256 * leNat r

/-- The unsigned value of a big-endian byte string (R118). -/
def beNat (l : List Byte) : Nat := leNat l.reverse

/-- `n` bytes of a value, least significant first (R4). -/
def leBytes : Nat → Nat → List Byte
  | 0, _ => []
  | n + 1, v => BitVec.ofNat 8 v :: leBytes n (v / 256)

/-- The little-endian value of `n` bytes at offset `off`. -/
def leAt (l : List Byte) (off n : Nat) : Nat := leNat (slice l off n)

/-- Bits `[hi:lo]` of a number. -/
def bits (v hi lo : Nat) : Nat := v / 2 ^ lo % 2 ^ (hi + 1 - lo)

/-- Bit `i` of a number. -/
def bitOf (v i : Nat) : Bool := v / 2 ^ i % 2 = 1

/-- Bits `[hi:lo]` of a word. -/
def fld (w : Word) (hi lo : Nat) : Nat := bits w.toNat hi lo

/-- A word of a number. -/
def wd (n : Nat) : Word := BitVec.ofNat 32 n

/-- 1 for true, 0 for false, moved to bit `i`. -/
def flag (b : Bool) (i : Nat) : Nat := if b then 2 ^ i else 0

/-- The bit of a mask. -/
def hasBit {w : Nat} (v : BitVec w) (i : Nat) : Bool := v.getLsbD i

/-- The mask with bit `i` set to `b`. -/
def putBit {w : Nat} (v : BitVec w) (i : Nat) (b : Bool) : BitVec w :=
  if b then v ||| (1#w <<< i) else v &&& ~~~(1#w <<< i)

/-- The two's complement value of the low `w` bits of a number (R3). -/
def signed (w v : Nat) : Int :=
  let u := v % 2 ^ w
  if u < 2 ^ (w - 1) then (u : Int) else (u : Int) - (2 ^ w : Nat)

/-- The low `w` bits of an integer. -/
def wrap (w : Nat) (x : Int) : Nat := (x % ((2 ^ w : Nat) : Int)).toNat

/-- The words of a byte string, four bytes each. -/
def wordsOf : List Byte → List Word
  | a :: b :: c :: d :: r => wd (leNat [a, b, c, d]) :: wordsOf r
  | _ => []

/-- The bytes of words. -/
def bytesOf (l : List Word) : List Byte := l.flatMap (fun w => leBytes 4 w.toNat)

/-- One step of the reflected CRC-32 (R104). -/
def crcBit (c : BitVec 32) : BitVec 32 := if c.getLsbD 0 then (c >>> 1) ^^^ 0xEDB88320#32 else c >>> 1

/-- One byte of the CRC-32. -/
def crcByte (c : BitVec 32) (b : Byte) : BitVec 32 :=
  crcBit (crcBit (crcBit (crcBit (crcBit (crcBit (crcBit (crcBit (c ^^^ b.setWidth 32))))))))

/-- The CRC-32 of a byte string (R104). -/
def crc32 (l : List Byte) : Word := l.foldl crcByte 0xFFFFFFFF#32 ^^^ 0xFFFFFFFF#32

/-- One step of the CRC-16 of a seam block (R264), most significant bit first. -/
def crc16Bit (c : BitVec 16) : BitVec 16 := if c.getLsbD 15 then (c <<< 1) ^^^ 0x1021#16 else c <<< 1

/-- One byte of the CRC-16. -/
def crc16Byte (c : BitVec 16) (b : Byte) : BitVec 16 :=
  crc16Bit (crc16Bit (crc16Bit (crc16Bit (crc16Bit (crc16Bit (crc16Bit (crc16Bit
    (c ^^^ (b.setWidth 16 <<< 8)))))))))

/-- The CRC-16 of a byte string (R264). -/
def crc16 (l : List Byte) : BitVec 16 := l.foldl crc16Byte 0xFFFF#16

/-- A byte string padded with zero bytes to a multiple of `n`. -/
def padTo (n : Nat) (l : List Byte) : List Byte := l ++ List.replicate ((n - l.length % n) % n) 0

/-- The first index below `n` at which `p` holds. -/
def firstBelow (n : Nat) (p : Nat → Bool) : Option Nat := (List.range n).find? p

/-- How many indexes below `n` satisfy `p`. -/
def countBelow (n : Nat) (p : Nat → Bool) : Nat := ((List.range n).filter p).length

/-- The number whose bit `i`, for `i` below `n`, is `p i`. -/
def maskOf (n : Nat) (p : Nat → Bool) : Nat := (List.range n).foldl (fun a i => a + flag (p i) i) 0

/-- The indexes below `n` whose bit is set. -/
def setBits (n v : Nat) : List Nat := (List.range n).filter (bitOf v)

end Sys2Proof.Machine
end

