-- ==== Sys2Proof/Machine/Catalogue.lean ====
section
/-!
DEFINITION. The parameter catalogue (chapter 18): which numbers are defined, their access classes, their pairs and
their reset values (Tables 18.1 to 18.10 and the tables they cite), and which units a variant has (chapter 2).
-/

namespace Sys2Proof.Machine

/-- Access classes (Table 18.2). -/
inductive Access where
  | ro | rw | wo | counter | running | w0c
  deriving DecidableEq, Repr

/-- A run of numbers of one class; in a paired run the even places are low words. -/
structure Run where
  lo     : Nat
  hi     : Nat
  access : Access
  paired : Bool
  deriving DecidableEq, Repr

/-- The run that holds a number. -/
def findRun (l : List Run) (n : Nat) : Option Run := l.find? (fun r => decide (r.lo ≤ n ∧ n ≤ r.hi))

/-- Table 18.3 with Tables 4.3, 5.3, 16.5 and 17.5; the host windows by their offset within four numbers. -/
def deviceRuns : List Run :=
  [⟨0x00, 0x01, .ro, false⟩, ⟨0x10, 0x16, .ro, false⟩, ⟨0x18, 0x19, .ro, true⟩, ⟨0x1A, 0x1B, .ro, false⟩,
   ⟨0x20, 0x21, .ro, false⟩, ⟨0x22, 0x22, .rw, false⟩, ⟨0x23, 0x23, .ro, false⟩, ⟨0x24, 0x25, .ro, true⟩,
   ⟨0x100, 0x102, .rw, false⟩, ⟨0x103, 0x105, .ro, false⟩, ⟨0x200, 0x200, .ro, false⟩,
   ⟨0x201, 0x202, .rw, true⟩, ⟨0x203, 0x203, .rw, false⟩, ⟨0x204, 0x205, .rw, true⟩,
   ⟨0x206, 0x207, .rw, false⟩, ⟨0x208, 0x209, .counter, false⟩, ⟨0x20A, 0x20A, .ro, false⟩,
   ⟨0x300, 0x300, .ro, false⟩, ⟨0x301, 0x301, .rw, false⟩, ⟨0x302, 0x305, .counter, false⟩,
   ⟨0x306, 0x306, .ro, false⟩]

/-- Table 18.4 with Tables 4.3, 9.3, 10.5, 11.3, 12.3, 13.5 and 21.2, by offset. -/
def galleryRuns : List Run :=
  [⟨0x00, 0x01, .ro, false⟩, ⟨0x02, 0x03, .ro, true⟩, ⟨0x04, 0x04, .rw, false⟩, ⟨0x05, 0x06, .counter, false⟩,
   ⟨0x07, 0x07, .ro, false⟩, ⟨0x08, 0x08, .counter, false⟩, ⟨0x09, 0x0E, .running, true⟩,
   ⟨0x0F, 0x0F, .ro, false⟩, ⟨0x10, 0x1F, .running, false⟩, ⟨0x20, 0x2F, .w0c, false⟩,
   ⟨0x30, 0x30, .rw, false⟩, ⟨0x31, 0x33, .counter, false⟩, ⟨0x34, 0x34, .ro, false⟩,
   ⟨0x35, 0x35, .counter, false⟩, ⟨0x40, 0x40, .ro, false⟩, ⟨0x41, 0x41, .rw, false⟩,
   ⟨0x42, 0x42, .ro, false⟩, ⟨0x43, 0x44, .rw, false⟩, ⟨0x45, 0x45, .ro, false⟩, ⟨0x46, 0x46, .w0c, false⟩,
   ⟨0x50, 0x50, .ro, false⟩, ⟨0x51, 0x52, .counter, false⟩, ⟨0x53, 0x53, .ro, false⟩,
   ⟨0x60, 0x60, .counter, false⟩, ⟨0x61, 0x64, .running, false⟩, ⟨0x65, 0x6A, .running, true⟩,
   ⟨0x70, 0x71, .ro, true⟩, ⟨0x72, 0x72, .ro, false⟩, ⟨0x73, 0x7A, .counter, false⟩,
   ⟨0x80, 0x82, .counter, false⟩, ⟨0x90, 0x94, .rw, false⟩, ⟨0x95, 0x97, .counter, false⟩,
   ⟨0x98, 0x98, .ro, false⟩, ⟨0x99, 0x99, .counter, false⟩, ⟨0x9A, 0x9B, .w0c, false⟩,
   ⟨0x9C, 0x9D, .running, true⟩, ⟨0x9E, 0x9F, .running, false⟩, ⟨0xA0, 0xA0, .rw, false⟩,
   ⟨0xA1, 0xA1, .ro, false⟩, ⟨0xB0, 0xB7, .rw, false⟩, ⟨0xC0, 0xFF, .ro, false⟩]

/-- Table 18.5 with Tables 14.5, 15.4 and 25.4, by offset. -/
def portRuns : List Run :=
  [⟨0x00, 0x00, .ro, false⟩, ⟨0x01, 0x04, .rw, false⟩, ⟨0x05, 0x05, .ro, false⟩, ⟨0x06, 0x06, .counter, false⟩,
   ⟨0x07, 0x08, .ro, false⟩, ⟨0x09, 0x09, .rw, false⟩, ⟨0x0A, 0x0A, .ro, false⟩, ⟨0x0B, 0x0B, .rw, false⟩,
   ⟨0x0C, 0x0C, .counter, false⟩, ⟨0x10, 0x16, .counter, false⟩, ⟨0x17, 0x17, .ro, false⟩,
   ⟨0x18, 0x18, .w0c, false⟩, ⟨0x19, 0x1A, .ro, false⟩, ⟨0x20, 0x22, .rw, false⟩,
   ⟨0x23, 0x26, .running, false⟩, ⟨0x27, 0x27, .counter, false⟩, ⟨0x28, 0x2B, .running, true⟩,
   ⟨0x30, 0x39, .ro, false⟩, ⟨0x3A, 0x3D, .counter, false⟩, ⟨0x3E, 0x3E, .ro, false⟩, ⟨0x3F, 0x3F, .wo, false⟩,
   ⟨0x40, 0x40, .ro, false⟩, ⟨0x41, 0x41, .wo, false⟩, ⟨0x42, 0x43, .ro, true⟩, ⟨0x44, 0x44, .ro, false⟩,
   ⟨0x45, 0x45, .rw, false⟩, ⟨0x46, 0x4D, .counter, false⟩, ⟨0x4E, 0x4E, .w0c, false⟩,
   ⟨0x60, 0x63, .rw, false⟩, ⟨0x64, 0x64, .ro, false⟩, ⟨0x65, 0x65, .counter, false⟩, ⟨0x66, 0x66, .rw, false⟩,
   ⟨0x67, 0x6F, .ro, false⟩, ⟨0x70, 0x70, .counter, false⟩, ⟨0x71, 0x72, .ro, true⟩, ⟨0x73, 0x73, .ro, false⟩,
   ⟨0x74, 0x74, .running, false⟩, ⟨0x75, 0x76, .ro, true⟩]

/-- Tables 18.6 to 18.10 with Tables 4.1, 7.8, 13.5 and 23.3; the flows by their offset within four numbers. -/
def commonRuns : List Run :=
  [⟨0x3000, 0x3000, .rw, false⟩, ⟨0x3004, 0x3007, .rw, false⟩, ⟨0x3010, 0x3010, .ro, false⟩,
   ⟨0x3011, 0x3012, .wo, false⟩, ⟨0x3020, 0x3028, .counter, false⟩, ⟨0x3080, 0x30FF, .w0c, false⟩,
   ⟨0x3300, 0x3377, .running, false⟩, ⟨0x3380, 0x33F7, .running, false⟩, ⟨0x3400, 0x347F, .ro, false⟩,
   ⟨0x3480, 0x34FF, .running, false⟩, ⟨0x3500, 0x3503, .ro, false⟩, ⟨0x3600, 0x3600, .ro, false⟩,
   ⟨0x3601, 0x3601, .rw, false⟩, ⟨0x3602, 0x3602, .ro, false⟩, ⟨0x3610, 0x3618, .running, false⟩,
   ⟨0x3620, 0x3629, .ro, false⟩, ⟨0x3630, 0x363F, .ro, false⟩, ⟨0x3800, 0x3805, .ro, false⟩,
   ⟨0x3810, 0x3820, .ro, false⟩, ⟨0x3830, 0x3835, .ro, false⟩, ⟨0x3A00, 0x3A00, .rw, false⟩,
   ⟨0x3A01, 0x3A01, .ro, false⟩, ⟨0x3A02, 0x3A03, .counter, false⟩, ⟨0x3A04, 0x3A04, .running, false⟩,
   ⟨0x3A05, 0x3A05, .counter, false⟩, ⟨0x3A06, 0x3A06, .ro, false⟩, ⟨0x3A07, 0x3A07, .counter, false⟩,
   ⟨0x3A80, 0x3A80, .rw, false⟩, ⟨0x3A81, 0x3A82, .ro, false⟩, ⟨0x3A83, 0x3A83, .counter, false⟩,
   ⟨0x3A84, 0x3A86, .running, false⟩, ⟨0x3A87, 0x3A87, .ro, false⟩, ⟨0x3B00, 0x3BFF, .rw, false⟩,
   ⟨0x3C00, 0x3CFF, .counter, false⟩, ⟨0x3D00, 0x3D01, .ro, true⟩, ⟨0x3D02, 0x3D02, .ro, false⟩,
   ⟨0x3D03, 0x3D03, .rw, false⟩, ⟨0x3D04, 0x3D05, .rw, true⟩, ⟨0x3D06, 0x3D06, .rw, false⟩,
   ⟨0x3D07, 0x3D07, .wo, false⟩, ⟨0x3D08, 0x3D08, .ro, false⟩, ⟨0x3D09, 0x3D0A, .ro, true⟩,
   ⟨0x3D20, 0x3D20, .ro, false⟩, ⟨0x3D21, 0x3D22, .ro, true⟩, ⟨0x3D23, 0x3D23, .ro, false⟩,
   ⟨0x3D24, 0x3D25, .counter, false⟩, ⟨0x3D26, 0x3D27, .ro, true⟩, ⟨0x3D30, 0x3D3F, .ro, false⟩]

/-- The four parameters of a flow (Table 13.5), by the number's offset within the flow. -/
def flowRuns : List Run := [⟨0, 2, .rw, false⟩, ⟨3, 3, .counter, false⟩]

/-- The three parameters of a host window (Table 16.5), by the number's offset within the window. -/
def windowRuns : List Run := [⟨0, 1, .rw, true⟩, ⟨2, 2, .rw, false⟩]

/-- A defined number: its class, and whether it is the low or the high word of a pair. -/
structure ParamInfo where
  access : Access
  low    : Bool
  high   : Bool
  deriving DecidableEq, Repr

/-- The class of a number found at place `m` of a table. -/
def infoIn (l : List Run) (m : Nat) : Option ParamInfo :=
  (findRun l m).map (fun r =>
    { access := r.access
      low := r.paired && decide ((m - r.lo) % 2 = 0)
      high := r.paired && decide ((m - r.lo) % 2 = 1) })

/-- The derivation of chapter 18: what a number is, or none when it is undefined (R316). -/
def paramInfo (n : Nat) : Option ParamInfo :=
  if 0x210 ≤ n ∧ n ≤ 0x24F then infoIn windowRuns ((n - 0x210) % 4)
  else if n ≤ 0x3FF then infoIn deviceRuns n
  else if 0x1000 ≤ n ∧ n ≤ 0x1FFF then infoIn galleryRuns (n % 0x100)
  else if 0x2000 ≤ n ∧ n ≤ 0x27FF then infoIn portRuns (n % 0x80)
  else if 0x3100 ≤ n ∧ n ≤ 0x32FF then infoIn flowRuns (n % 4)
  else if 0x3000 ≤ n ∧ n ≤ 0x3DFF then infoIn commonRuns n
  else none

/-- The class of an event (Tables 19.2 to 19.9), or none for a reserved number. -/
def eventClass (e : Nat) : Option Nat :=
  if e = 0x00 then some 0
  else if e = 0x01 then some 3 else if e = 0x02 then some 3 else if e = 0x03 then some 0
  else if e = 0x04 ∨ e = 0x05 ∨ e = 0x06 then some 1 else if e = 0x07 then some 3
  else if e = 0x08 ∨ e = 0x09 then some 1 else if e = 0x0A then some 3
  else if e = 0x0B then some 0 else if e = 0x0C then some 1
  else if e = 0x10 then some 0 else if e = 0x11 then some 3
  else if e = 0x12 ∨ e = 0x13 ∨ e = 0x14 then some 1 else if e = 0x15 then some 0
  else if e = 0x18 ∨ e = 0x19 then some 1 else if e = 0x1A then some 0
  else if 0x20 ≤ e ∧ e ≤ 0x7F then
    some (match (e - 0x20) % 6 with | 0 => 2 | 1 => 0 | 2 => 2 | 3 => 2 | 4 => 0 | _ => 2)
  else if 0x80 ≤ e ∧ e ≤ 0xBF then some (match (e - 0x80) % 4 with | 0 => 1 | 1 => 1 | 2 => 2 | _ => 0)
  else if e = 0xC0 then some 1 else if e = 0xC1 then some 2 else if e = 0xC2 then some 0
  else if e = 0xC3 then some 1 else if e = 0xC4 ∨ e = 0xC5 then some 0 else if e = 0xC9 then some 1
  else if e = 0xD0 then some 0 else if e = 0xD1 ∨ e = 0xD2 then some 2 else if e = 0xD3 then some 1
  else if e = 0xD4 then some 0 else if e = 0xD5 then some 1 else if e = 0xD6 then some 2
  else if e = 0xD7 then some 0 else if e = 0xD8 then some 1
  else if e = 0xE0 then some 2 else if e = 0xE1 then some 1 else if e = 0xE2 ∨ e = 0xE3 then some 2
  else if e = 0xE4 then some 1 else if e = 0xE8 ∨ e = 0xE9 ∨ e = 0xEA then some 2 else if e = 0xEB then some 0
  else if e = 0xF0 then some 2 else if e = 0xF1 then some 0 else if e = 0xF2 then some 2
  else if e = 0xF3 then some 0
  else if e = 0xF8 ∨ e = 0xF9 then some 1 else if e = 0xFA ∨ e = 0xFB then some 0
  else if e = 0xFC ∨ e = 0xFD then some 2 else if e = 0xFE ∨ e = 0xFF then some 1
  else none

/-- Gallery g is present (Table 2.2). -/
def Variant.hasGal (v : Variant) (g : Nat) : Bool :=
  match v with
  | .pt0800e => decide (g < 8)
  | _ => decide (g < 16)

/-- Port s is present (Table 2.2). -/
def Variant.hasPort (v : Variant) (s : Nat) : Bool :=
  match v with
  | .pt0800e => decide (s < 8)
  | _ => decide (s < 16)

/-- The Tinder fabric is present (Table 2.2). -/
def Variant.hasTinder (v : Variant) : Bool := decide (v = .pt1600)

/-- The divide units are present (Table 2.2). -/
def Variant.hasDiv (v : Variant) : Bool := decide (v = .pt1600)

/-- Port s can carry the seam link (SEAM_ALL of Table 2.2). -/
def Variant.hasSeam (v : Variant) (s : Nat) : Bool := decide (v = .pt1600) || decide (s < 4)

/-- INV_UNITS (Table 2.3). -/
def Variant.units : Variant → Nat
  | .pt1600 => 0x001FFFFF
  | .pt1600e => 0x0010FFFF
  | .pt0800e => 0x000000FF

/-- INV_PART (Table 2.3). -/
def Variant.part : Variant → Nat
  | .pt1600 => 0x1600
  | .pt1600e => 0x160E
  | .pt0800e => 0x080E

/-- A power domain is present: 0–15 galleries, 16–23 port pairs, 24 Tinder. -/
def Variant.hasDom (v : Variant) (d : Nat) : Bool :=
  if d < 16 then v.hasGal d else if d < 24 then v.hasPort (2 * (d - 16)) else decide (d = 24) && v.hasTinder

/-- The source of an event is absent (R331). -/
def eventAbsent (v : Variant) (e : Nat) : Bool :=
  if 0x20 ≤ e ∧ e ≤ 0x7F then !v.hasGal ((e - 0x20) / 6)
  else if 0x80 ≤ e ∧ e ≤ 0xBF then !v.hasPort ((e - 0x80) / 4)
  else decide (e = 0xF3) && !v.hasTinder

/-- A defined number belongs to an absent unit (R22, Table 2.4). -/
def paramAbsent (v : Variant) (n : Nat) : Bool :=
  if 0x1000 ≤ n ∧ n ≤ 0x1FFF then !v.hasGal ((n - 0x1000) / 0x100)
  else if 0x2000 ≤ n ∧ n ≤ 0x27FF then
    !v.hasPort ((n - 0x2000) / 0x80) ||
      (decide (0x40 ≤ n % 0x80 ∧ n % 0x80 ≤ 0x4E) && !v.hasSeam ((n - 0x2000) / 0x80))
  else if 0x3400 ≤ n ∧ n ≤ 0x35FF then !v.hasTinder
  else if 0x3630 ≤ n ∧ n ≤ 0x363F then !v.hasGal (n - 0x3630)
  else if 0x3810 ≤ n ∧ n ≤ 0x381F then !v.hasGal (n - 0x3810)
  else if 0x3D30 ≤ n ∧ n ≤ 0x3D3F then !v.hasGal (n - 0x3D30)
  else if 0x3B00 ≤ n ∧ n ≤ 0x3BFF then eventAbsent v (n - 0x3B00)
  else if 0x3C00 ≤ n ∧ n ≤ 0x3CFF then eventAbsent v (n - 0x3C00)
  else false

/-- The reset value of a parameter that `State.params` holds (R326). -/
def paramReset (n : Nat) : Word :=
  if n = 0x0000 then 0x0100
  else if n = 0x0001 then 6198
  else if n = 0x0022 then 0x3E8
  else if n = 0x0101 then 56
  else if n = 0x0301 then 10000
  else if 0x1000 ≤ n ∧ n ≤ 0x1FFF then
    (if n % 0x100 = 0x04 then 65536 else if n % 0x100 = 0x43 then 100000 else 0)
  else if 0x2000 ≤ n ∧ n ≤ 0x27FF then
    (if n % 0x80 = 0x03 then 1 else if n % 0x80 = 0x09 then 0x0F00 else if n % 0x80 = 0x0B then 31
     else if n % 0x80 = 0x66 then 16 else 0)
  else if n = 0x3000 then 20
  else if n = 0x3A00 then 10
  else if n = 0x3A80 then 1
  else 0

/-- The number of a gallery parameter (R7). -/
def galP (g off : Nat) : Nat := 0x1000 + 0x100 * g + off

/-- The number of a port parameter (R7). -/
def portP (s off : Nat) : Nat := 0x2000 + 0x80 * s + off

end Sys2Proof.Machine
end

