-- ==== Sys2Proof/Machine/Ops.lean ====
section
/-!
DEFINITION. The named operations over the state that every family uses: reading and changing one gallery, port or
domain, counting in a parameter, raising an event, duty gating and the clock enable, and free values.
-/

namespace Sys2Proof.Machine

/-- Gallery g. -/
def State.gal (s : State) (g : Nat) : Gallery := tabGet Gallery.reset s.gals g

/-- Changes gallery g. -/
def State.modGal (s : State) (g : Nat) (f : Gallery → Gallery) : State :=
  { s with gals := tabMod Gallery.reset s.gals g f }

/-- Changes the sequencer of gallery g. -/
def State.modSeq (s : State) (g : Nat) (f : Seq → Seq) : State :=
  s.modGal g (fun x => { x with seq := f x.seq })

/-- Port p. -/
def State.port (s : State) (p : Nat) : Port := tabGet Port.reset s.ports p

/-- Changes port p. -/
def State.modPort (s : State) (p : Nat) (f : Port → Port) : State :=
  { s with ports := tabMod Port.reset s.ports p f }

/-- Changes the seam link of port p. -/
def State.modSeam (s : State) (p : Nat) (f : Seam → Seam) : State :=
  s.modPort p (fun x => { x with seam := f x.seam })

/-- Domain d. -/
def State.dom (s : State) (d : Nat) : Dom := tabGet Dom.reset s.pwr.domains d

/-- Changes domain d. -/
def State.modDom (s : State) (d : Nat) (f : Dom → Dom) : State :=
  { s with pwr := { s.pwr with domains := tabMod Dom.reset s.pwr.domains d f } }

/-- The value that `State.params` holds for a number. -/
def State.par (s : State) (n : Nat) : Word := tabGet (paramReset n) s.params n

/-- The value as a number. -/
def State.parN (s : State) (n : Nat) : Nat := (s.par n).toNat

/-- Puts a value into `State.params`. -/
def State.putPar (s : State) (n : Nat) (v : Word) : State :=
  { s with params := tabSet (paramReset n) s.params n v }

/-- Adds to a saturating counter (Table 18.2). -/
def State.count (s : State) (n k : Nat) : State :=
  s.putPar n (wd (min 0xFFFFFFFF ((s.par n).toNat + k)))

/-- Adds to a running count modulo 2^32 (Table 18.2). -/
def State.tally (s : State) (n k : Nat) : State := s.putPar n (s.par n + wd k)

/-- The 64-bit value of a pair. -/
def State.pair (s : State) (n : Nat) : Nat := (s.par n).toNat + 2 ^ 32 * (s.par (n + 1)).toNat

/-- Puts a 64-bit value into a pair. -/
def State.putPair (s : State) (n v : Nat) : State :=
  (s.putPar n (wd v)).putPar (n + 1) (wd (v / 2 ^ 32))

/-- Adds to a running pair modulo 2^64 (Table 18.2). -/
def State.tally64 (s : State) (n k : Nat) : State := s.putPair n (s.pair n + k)

/-- The effective code of RV pin `i` (R41). -/
def State.rv (s : State) (i : Nat) : Nat := bits s.board.rv.toNat (4 * i + 3) (4 * i)

/-- The card number (R42). -/
def State.card (s : State) : Nat := s.rv 0

/-- User mode is reached (R95). -/
def State.user (s : State) : Bool := decide (s.kin.phase = 9)

/-- The device is banked (R96). -/
def State.banked (s : State) : Bool := decide (s.kin.phase = 10)

/-- The core clock runs. -/
def State.clocked (s : State) : Bool := decide (s.clk.mode = .running)

/-- Puts a raise into the latch of its number: the first raise keeps its data and tick, a later one merges
(R332, R334). -/
def latchRaise (e : Nat) (t : Tick) (data : List Byte) : List Latch → List Latch
  | [] => [{ event := e, tick := t, data := data, merged := 0 }]
  | l :: r => if l.event = e then { l with merged := l.merged + 1 } :: r else l :: latchRaise e t data r

/-- An event of this number can be raised: it is not reserved and its source is present (R331). -/
def State.canRaise (s : State) (e : Nat) : Bool := (eventClass e).isSome && !eventAbsent s.variant e

/-- Raises event `e` with its data (R331, R332). -/
def State.raise (s : State) (e : Nat) (data : List Byte) : State :=
  if s.canRaise e then
    { s with evt := { s.evt with latches := latchRaise e s.clk.tick data s.evt.latches } }
  else s

/-- Raises gallery event k (Table 19.3). -/
def State.raiseGal (s : State) (g k : Nat) (data : List Byte) : State := s.raise (0x20 + 6 * g + k) data

/-- Raises port event k (Table 19.4). -/
def State.raisePort (s : State) (p k : Nat) (data : List Byte) : State := s.raise (0x80 + 4 * p + k) data

/-- Raises PORT_LINK of port p with a cause and its detail of 12 bytes (Table 19.4), and records the cause. -/
def State.raiseLink (s : State) (p cause : Nat) (detail : List Byte) : State :=
  (s.putPar (portP p 0x17) (wd (bits (s.parN (portP p 0x17)) 7 0 + 256 * cause))).raisePort p 1
    ([BitVec.ofNat 8 cause, 0, 0, 0] ++ (detail ++ List.replicate 12 0).take 12)

/-- Raises PORT_LANE_FAULT of port p with a cause, and records the cause. -/
def State.raiseLane (s : State) (p cause : Nat) : State :=
  (s.putPar (portP p 0x17) (wd (256 * bits (s.parN (portP p 0x17)) 15 8 + cause))).raisePort p 2
    [BitVec.ofNat 8 cause]

/-- Takes a free word (note 4, DESIGN CHOICE). -/
def State.freeWord (s : State) : Word × State := (Config.freeWord s.free, { s with free := s.free + 1 })

/-- Takes a free bit (note 4, DESIGN CHOICE). -/
def State.freeBit (s : State) : Bool × State := (Config.freeBit s.free, { s with free := s.free + 1 })

/-- Takes `n` free bytes (note 4, DESIGN CHOICE). -/
def State.freeBytes (s : State) (n : Nat) : List Byte × State :=
  ((List.range n).map (fun i => Config.freeByte (s.free + i)), { s with free := s.free + n })

/-- The thermal duty of gallery g: 16 less the steps down that stand (R71). -/
def State.thermDuty (s : State) (g : Nat) : Nat := 16 - (s.pwr.thermSteps.filter (fun x => x = g)).length

/-- The margin duty of gallery g (R73). -/
def State.marginDuty (s : State) (g : Nat) : Nat := tabGet 16 s.pwr.marginDuty g

/-- A HALT capture holds gallery g (R413). -/
def State.halted (s : State) (g : Nat) : Bool :=
  decide (s.capt.st = 2) && decide ((tabGet CaptGal.reset s.capt.perGal g).st = 2)

/-- The duty in force: the lower of the two (R73); a halted gallery keeps the duty it had (R414). -/
def State.duty (s : State) (g : Nat) : Nat :=
  if s.halted g then tabGet 16 s.pwr.frozenDuty g else min (s.thermDuty g) (s.marginDuty g)

/-- The domain of gallery g is on and not re-kindling. -/
def State.galOn (s : State) (g : Nat) : Bool := decide ((s.dom g).st = .on) && !(s.dom g).rekindling

/-- The clock enable of gallery g is held low: damper step 4 and later, a HALT capture, a domain not on. -/
def State.stopped (s : State) (g : Nat) : Bool :=
  !s.galOn g || s.halted g || decide ((s.dom g).damper = .closed) || decide ((s.dom g).damper = .forced)

/-- The clock enable of gallery g is high in this cycle (R70). -/
def State.enabled (s : State) (g : Nat) : Bool :=
  s.clocked && !s.stopped g && decide (s.clk.tick.toNat % 16 < s.duty g)

/-- The gallery runs its data path: GSR is released and its clock enable is high (R77). -/
def State.live (s : State) (g : Nat) : Bool := s.enabled g && !s.kin.gsr && decide (g < 16)

/-- Gallery or port `t` (16 + s for a port) is marked dead (R238). -/
def State.isDead (s : State) (t : Nat) : Bool := hasBit s.mesh.dead t

/-- Puts the KINDLE_STATUS fields together (Table 5.3). -/
def State.kindleStatus (s : State) : Nat :=
  s.kin.phase + 2 ^ 8 * s.kin.code + 2 ^ 16 * s.kin.warnings.toNat + 2 ^ 24 * s.kin.failPhase

/-- The ports whose protocol parameter is `v`. -/
def State.protocol (s : State) (p : Nat) : Nat := fld (s.par (portP p 0x01)) 1 0

/-- Present galleries. -/
def State.galList (s : State) : List Nat := (List.range 16).filter s.variant.hasGal

/-- Present ports. -/
def State.portList (s : State) : List Nat := (List.range 16).filter s.variant.hasPort

/-- Present domains in the order of R78: Tinder, port pairs, galleries. -/
def State.domOrder (s : State) : List Nat :=
  ([24] ++ (List.range 8).map (16 + ·) ++ List.range 16).filter s.variant.hasDom

/-- The mesh node of gallery g (R14), as 6y + x. -/
def galNode (g : Nat) : Nat := 6 * (g / 4) + g % 4 + 1

/-- The mesh node of port p (R14), as 6y + x. -/
def portNode (p : Nat) : Nat := 6 * (p % 8 / 2) + (if p < 8 then 0 else 5)

/-- The gallery at node (x, y), if one is mapped there (R14). -/
def nodeGal (x y : Nat) : Option Nat := if 1 ≤ x ∧ x ≤ 4 ∧ y ≤ 3 then some (4 * y + x - 1) else none

/-- The port at local port `k` of node (x, y), if one is mapped there (R14). -/
def nodePort (x y k : Nat) : Option Nat :=
  if y ≤ 3 ∧ k ≤ 1 then (if x = 0 then some (2 * y + k) else if x = 5 then some (8 + 2 * y + k) else none)
  else none

end Sys2Proof.Machine
end

