-- ==== Sys2Proof/Machine/Operands.lean ====
section
/-!
DEFINITION. The hearth's function record (Table 8.4), its operand sources (Table 8.3) and the lanes of a word.
-/

namespace Sys2Proof.Machine

/-- A function record (Table 8.4). -/
structure Record where
  op    : Nat
  lanes : Nat
  mode  : Nat
  srcA  : Nat
  srcB  : Nat
  srcC  : Nat
  wb    : Bool
  wreg  : Nat
  cond  : Nat
  sh    : Nat
  mout  : Bool
  fclr  : Bool
  depth : Nat
  xh    : Bool
  xz    : Bool
  fout  : Nat
  hfl   : Nat
  beats : Nat
  k     : Word
  deriving DecidableEq, Repr

/-- Reads the fields of a record from its bytes (R142). -/
def Record.ofBytes (l : List Byte) : Record :=
  let a := leAt l 0 4
  let b := leAt l 4 4
  { op := bits a 5 0, lanes := bits a 7 6, mode := bits a 11 8, srcA := bits a 16 12, srcB := bits a 21 17,
    srcC := bits a 26 22, wb := bitOf a 27, wreg := bits a 31 28, cond := bits b 2 0, sh := bits b 8 3,
    mout := bitOf b 9, fclr := bitOf b 10, depth := bits b 14 11, xh := bitOf b 15, xz := bitOf b 16,
    fout := bits b 20 17, hfl := bits b 22 21, beats := bits b 25 23, k := wd (leAt l 8 4) }

/-- The width of a configuration region: PLANE indices 0–7, then SWITCH indices 8–11 (Table 6.7). -/
def cfgSize : Nat := 0x1800

/-- The function record of hearth `h` in plane `p` (Table 6.5: 32 bytes at 32 × h of the region). -/
def Gallery.record (x : Gallery) (p h : Nat) : Record :=
  Record.ofBytes (memRead x.planeCfg (cfgSize * p + 32 * h) 32)

/-- The lane width that LANES names. -/
def Record.width (r : Record) : Nat := if r.lanes = 1 then 16 else if r.lanes = 2 then 8 else 32

/-- Register `n` of hearth `h` in bank `p`. -/
def Gallery.reg (x : Gallery) (p h n : Nat) : Word := tabGet 0 x.regs ((p * 128 + h) * 16 + n)

/-- Writes register `n` of hearth `h` in bank `p`. -/
def Gallery.setReg (x : Gallery) (p h n : Nat) (v : Word) : Gallery :=
  { x with regs := tabSet 0 x.regs ((p * 128 + h) * 16 + n) v }

/-- ACC of hearth `h` in bank `p`. -/
def Gallery.accOf (x : Gallery) (p h : Nat) : BitVec 72 := tabGet 0 x.acc (p * 128 + h)

/-- Flags Z N C V D U, bits 0–5, of hearth `h` in bank `p`. -/
def Gallery.flagsOf (x : Gallery) (p h : Nat) : BitVec 6 := tabGet 0 x.flags (p * 128 + h)

/-- Plane `p`. -/
def Gallery.plane (x : Gallery) (p : Nat) : Plane := tabGet Plane.reset x.planes p

/-- Changes plane `p`. -/
def Gallery.modPlane (x : Gallery) (p : Nat) (f : Plane → Plane) : Gallery :=
  { x with planes := tabMod Plane.reset x.planes p f }

/-- The word on a wire. -/
def Gallery.wire (x : Gallery) (n : Nat) : Option TWord := tabGet none x.wires n

/-- Where a switch source arrives: neighbour inputs N, E, S, W of hearth `h` at 4h + d, its track inputs at
512 + 4h + n. -/
def switchWire (h code : Nat) : Nat := if code < 0x14 then 4 * h + (code - 0x10) else 512 + 4 * h + (code - 0x14)

/-- The code names a switch source (Table 8.3). -/
def isSwitch (code : Nat) : Bool := decide (0x10 ≤ code ∧ code ≤ 0x17)

/-- What a source offers in a cycle: a word, no valid word, or a stale word (R201). -/
inductive Offer where
  | word (w : Word)
  | absent
  | stale
  deriving DecidableEq, Repr

/-- The offer of one source to hearth `h` in the active plane (Table 8.3, R201). -/
def offerOf (s : State) (x : Gallery) (r : Record) (h code : Nat) : Offer :=
  if code < 0x10 then .word (x.reg x.active h code)
  else if isSwitch code then
    match x.wire (switchWire h code) with
    | none => .absent
    | some t => if t.tag = x.active then .word t.word else .stale
  else if code = 0x18 then .word r.k
  else if code = 0x1A then .word (tabGet 0 x.self h)
  else if code = 0x1B then .word ((x.flagsOf x.active h).setWidth 32)
  else if code = 0x1C then .word (s.clk.tick.setWidth 32)
  else .word 0

/-- Lane `i` of a word in lanes of `w` bits. -/
def lane (w : Nat) (x : Word) (i : Nat) : Nat := x.toNat / 2 ^ (w * i) % 2 ^ w

/-- The word whose lane `i` is `f i`. -/
def joinLanes (w : Nat) (f : Nat → Nat) : Word :=
  wd ((List.range (32 / w)).foldl (fun a i => a + f i % 2 ^ w * 2 ^ (w * i)) 0)

/-- Lane `i` has the S mode (Table 8.4). -/
def Record.sat (r : Record) (i : Nat) : Bool := bitOf r.mode i

end Sys2Proof.Machine
end

