-- ==== Sys2Proof/Machine/Flags.lean ====
section
/-!
DEFINITION. Lane arithmetic with its edges (Table 8.8) and the flag rules of the hearth (R146, R147, R149–R152).
-/

namespace Sys2Proof.Machine

/-- A lane result: its value and whether it sets V and D. -/
structure LaneRes where
  val : Nat
  v   : Bool
  d   : Bool
  deriving DecidableEq, Repr

/-- The most negative value of a lane of `w` bits (Table 8.9). -/
def laneMin (w : Nat) : Int := -(2 ^ (w - 1) : Nat)

/-- The most positive value of a lane of `w` bits (Table 8.9). -/
def laneMax (w : Nat) : Int := (2 ^ (w - 1) : Nat) - 1

/-- The exact value lies in a lane of `w` bits. -/
def inLane (w : Nat) (x : Int) : Bool := decide (laneMin w ≤ x) && decide (x ≤ laneMax w)

/-- Fits an exact value to `w` bits: W keeps the low bits, S the nearest value; V when it does not fit. -/
def fit (w : Nat) (sat : Bool) (x : Int) : LaneRes :=
  if inLane w x then { val := wrap w x, v := false, d := false }
  else if sat then { val := wrap w (if x < 0 then laneMin w else laneMax w), v := true, d := false }
  else { val := wrap w x, v := true, d := false }

/-- A lane value with no flag. -/
def plain (w : Nat) (x : Int) : LaneRes := { val := wrap w x, v := false, d := false }

/-- Division by 2^k rounded to nearest, halves away from zero, fitted to `w` bits by saturation (R151). -/
def rnd (x : Int) (k w : Nat) : LaneRes :=
  let m : Nat := if k = 0 then x.natAbs else (x.natAbs + 2 ^ (k - 1)) / 2 ^ k
  fit w true (if x < 0 then -(m : Int) else (m : Int))

/-- How many leading zero bits a lane has: 0–w. -/
def clz (w x : Nat) : Nat := ((List.range w).reverse.takeWhile (fun i => !bitOf x i)).length

/-- How many one bits a lane has. -/
def popc (w x : Nat) : Nat := countBelow w (bitOf x)

/-- The condition of CMP (Table 8.6). -/
def condHolds (cond w a b : Nat) : Bool :=
  match cond with
  | 0 => decide (a = b)
  | 1 => decide (a ≠ b)
  | 2 => decide (signed w a < signed w b)
  | 3 => decide (signed w a ≤ signed w b)
  | 4 => decide (signed w a > signed w b)
  | 5 => decide (signed w a ≥ signed w b)
  | 6 => decide (a < b)
  | _ => decide (a ≥ b)

/-- The quotient of a lane (Table 8.8). -/
def laneDiv (w : Nat) (sat : Bool) (a b : Nat) : LaneRes :=
  let x := signed w a
  if b = 0 then
    { val := wrap w (if x = 0 then 0 else if x < 0 then laneMin w else laneMax w), v := false, d := true }
  else fit w sat (x.tdiv (signed w b))

/-- The remainder of a lane, with the sign of A (Table 8.8). -/
def laneRem (w a b : Nat) : LaneRes :=
  if b = 0 then { val := a, v := false, d := true } else plain w ((signed w a).tmod (signed w b))

/-- A left shift of a lane by an amount 0–63 (Table 8.8). -/
def laneShl (w a b : Nat) : LaneRes := { val := if w ≤ b % 64 then 0 else a * 2 ^ (b % 64) % 2 ^ w, v := false, d := false }

/-- A right shift with zero fill (Table 8.8). -/
def laneShr (w a b : Nat) : LaneRes := { val := if w ≤ b % 64 then 0 else a / 2 ^ (b % 64), v := false, d := false }

/-- A right shift with sign fill (Table 8.8). -/
def laneShra (w a b : Nat) : LaneRes := plain w (signed w a / ((2 ^ (b % 64) : Nat) : Int))

/-- A left rotation by the amount modulo the lane width (Table 8.8). -/
def laneRot (w a b : Nat) : LaneRes :=
  let m := b % 64 % w
  { val := a * 2 ^ m % 2 ^ w + a / 2 ^ (w - m), v := false, d := false }

/-- What an operation computes from its operands: the word, V, D, C and its own Z and N rule. -/
structure WordRes where
  word : Word
  v    : Bool
  d    : Bool
  c    : Option Bool
  zn   : Option (Bool × Bool)
  deriving DecidableEq, Repr

/-- Z and N of a result word (R146). -/
def znOf (x : Word) : Bool × Bool := (decide (x = 0), x.getLsbD 31)

/-- Puts lane results together: a flag is set when any lane meets its condition. -/
def ofLanes (w : Nat) (f : Nat → LaneRes) : WordRes :=
  let x := joinLanes w (fun i => (f i).val)
  { word := x, v := (List.range (32 / w)).any (fun i => (f i).v), d := (List.range (32 / w)).any (fun i => (f i).d),
    c := none, zn := some (znOf x) }

/-- A whole-word result with Z and N from it. -/
def ofWord (x : Word) : WordRes := { word := x, v := false, d := false, c := none, zn := some (znOf x) }

/-- C of ADD: the unsigned carry out of the most significant lane (R146). -/
def carryAdd (w : Nat) (a b : Word) : Bool :=
  decide (2 ^ w ≤ lane w a (32 / w - 1) + lane w b (32 / w - 1))

/-- C of SUB: 1 when the most significant lane of A is unsigned-greater-than-or-equal to that of B (R146). -/
def carrySub (w : Nat) (a b : Word) : Bool := decide (lane w b (32 / w - 1) ≤ lane w a (32 / w - 1))

/-- CMP: all ones or 0 per lane; Z when every lane is 0, N when every lane is all ones (R147). -/
def cmpRes (w cond : Nat) (a b : Word) : WordRes :=
  let t := fun i => condHolds cond w (lane w a i) (lane w b i)
  { word := joinLanes w (fun i => if t i then 2 ^ w - 1 else 0), v := false, d := false, c := none,
    zn := some (!(List.range (32 / w)).any t, (List.range (32 / w)).all t) }

/-- PACK: each 2w-bit lane of A, then of B, fitted to w bits (R152). -/
def packRes (r : Record) (a b : Word) : WordRes :=
  let w := r.width
  let n := 16 / w
  ofLanes w (fun i =>
    fit w (r.sat i) (signed (2 * w) (if i < n then lane (2 * w) a i else lane (2 * w) b (i - n))))

/-- UNPK: half of A's lanes extended to 2w bits (R152). -/
def unpkRes (r : Record) (a : Word) : WordRes :=
  let w := r.width
  let n := 16 / w
  ofLanes (2 * w) (fun i =>
    let x := lane w a (if r.xh then i + n else i)
    { val := if r.xz then x else wrap (2 * w) (signed w x), v := false, d := false })

/-- The width of an ACC lane (Table 8.7). -/
def accWidth (w : Nat) : Nat := if w = 16 then 36 else if w = 8 then 18 else 72

/-- Lane `i` of ACC (Table 8.7). -/
def accLane (w : Nat) (acc : BitVec 72) (i : Nat) : Int :=
  signed (accWidth w) (acc.toNat / 2 ^ (accWidth w * i))

/-- ACC from its lanes. -/
def joinAcc (w : Nat) (f : Nat → Nat) : BitVec 72 :=
  BitVec.ofNat 72 ((List.range (32 / w)).foldl (fun a i => a + f i % 2 ^ accWidth w * 2 ^ (accWidth w * i)) 0)

/-- The accumulation of a firing, exact and then fitted to the ACC lanes (R149, R150): the new ACC and V. -/
def accumulate (r : Record) (minus : Bool) (a b : Word) (acc : BitVec 72) : BitVec 72 × Bool :=
  let w := r.width
  let f := fun i =>
    let p := signed w (lane w a i) * signed w (lane w b i)
    fit (accWidth w) (r.sat i) (if minus then accLane w acc i - p else accLane w acc i + p)
  (joinAcc w (fun i => (f i).val), (List.range (32 / w)).any (fun i => (f i).v))

/-- The dump: lane i is rnd(ACC lane i, SH, w) (R149, R151). -/
def dumpRes (r : Record) (acc : BitVec 72) : WordRes :=
  ofLanes r.width (fun i => rnd (accLane r.width acc i) r.sh r.width)

/-- The flags after an effect lands (R146): FCLR first, then C, V, D, U, and Z and N when a result was placed. -/
def landFlags (f : BitVec 6) (e : InFlight) (placed : Bool) : BitVec 6 :=
  let f := if e.fclr then f &&& 0x07#6 else f
  let f := match e.setC with | some c => putBit f 2 c | none => f
  let f := f ||| (e.sticky.setWidth 6 <<< 3)
  match e.setZN, placed with
  | some (z, n), true => putBit (putBit f 0 z) 1 n
  | _, _ => f

/-- A landing writes some flag (R163). -/
def InFlight.writesFlags (e : InFlight) (placed : Bool) : Bool :=
  e.fclr || e.setC.isSome || decide (e.sticky ≠ 0) || (e.setZN.isSome && placed)

end Sys2Proof.Machine
end

