-- ==== Sys2Proof/Machine/Taps.lean ====
section
/-!
DEFINITION. The taps of rows 0 and 7 (R154, R155) and the requests they raise at the bank arbiters (R208).
-/

namespace Sys2Proof.Machine

/-- The tap of hearth `h`: number col in row 0, 16 + col in row 7. -/
def tapOf (h : Nat) : Nat := if h % 8 = 0 then h / 8 else 16 + h / 8

/-- The hearth of a tap. -/
def tapHearth (t : Nat) : Nat := if t < 16 then 8 * t else 8 * (t - 16) + 7

/-- The requests a tap holds, oldest first. -/
def Gallery.tap (x : Gallery) (t : Nat) : List TapReq := tabGet [] x.tapQ t

/-- Changes the requests of a tap. -/
def Gallery.setTap (x : Gallery) (t : Nat) (l : List TapReq) : Gallery := { x with tapQ := tabSet [] x.tapQ t l }

/-- The bank of a stream-memory address (R205). -/
def bankOf (a : Nat) : Nat := a / 2 ^ 17 % 16

/-- The row of a stream-memory address (R205). -/
def rowOf (a : Nat) : Nat := a / 16 % 8192

/-- Bank `b` of a gallery. -/
def Gallery.bank (x : Gallery) (b : Nat) : Bank := tabGet Bank.reset x.banks b

/-- Changes bank `b`. -/
def Gallery.setBank (x : Gallery) (b : Nat) (v : Bank) : Gallery := { x with banks := tabSet Bank.reset x.banks b v }

/-- A burst of the requester runs and has more than its last beat before it. -/
def Gallery.bursting (x : Gallery) (req : Nat) : Bool :=
  x.banks.any (fun p => match p.2.burst with | some (r, _, n) => decide (r = req ∧ 1 < n) | none => false)

/-- The requester stands in a bank's requests, not withdrawn. -/
def Gallery.raisedBy (x : Gallery) (req : Nat) : Bool :=
  x.requests.any (fun q => decide (q.requester = req) && q.withdrawn.isNone)

/-- The burst is ready to be requested: an LD at once, an ST when its first beat is complete (R155). -/
def TapReq.ready (q : TapReq) : Bool := !q.granted && (q.load || (!q.nowrite && decide (4 ≤ q.words.length)))

/-- Raises the tap's oldest waiting request, at most one at a time and no earlier than the last beat of its burst
(R208). -/
def raiseTap (cyc : Nat) (t : Nat) (x : Gallery) : Gallery :=
  if x.raisedBy t || x.bursting t then x
  else match (x.tap t).find? (fun q => !q.granted) with
    | some q =>
      if q.ready then
        { x with requests := x.requests ++
            [{ bank := bankOf q.addr, requester := t, raised := cyc, withdrawn := none, losses := 0, beats := q.beats }] }
      else x
    | none => x

/-- The ST burst that still takes words. -/
def openStore (l : List TapReq) : Option TapReq :=
  l.find? (fun q => !q.load && decide (q.words.length + 4 * q.done < q.need))

/-- The tap takes a firing of LD, or of ST: two places, or an open burst that takes the word (R154, R155). -/
def Gallery.tapRoom (x : Gallery) (load : Bool) (t : Nat) : Bool :=
  decide ((x.tap t).length < 2) || (!load && (openStore (x.tap t)).isSome)

/-- Requests a load burst (R154). -/
def tapLoad (cyc h : Nat) (r : Record) (a : Word) (x : Gallery) : Gallery :=
  raiseTap cyc (tapOf h) (x.setTap (tapOf h) (x.tap (tapOf h) ++
    [{ load := true, addr := fld a 20 4 * 16, beats := r.beats + 1, plane := x.active, granted := false, words := [],
       need := 4 * (r.beats + 1), done := 0, wb := if r.wb then some r.wreg else none, fclr := r.fclr,
       nowrite := false, wait := 5 }]))

/-- Gives a word to the first open store burst. -/
def feedStore (b : Word) : List TapReq → List TapReq
  | [] => []
  | q :: r =>
    if !q.load && decide (q.words.length + 4 * q.done < q.need) then { q with words := q.words ++ [(b, false)] } :: r
    else q :: feedStore b r

/-- A burst opened before write enable leaves when its last word has been consumed (R89, R155). -/
def dropNoWrite (l : List TapReq) : List TapReq :=
  l.filter (fun q => !(q.nowrite && decide (q.need ≤ q.words.length)))

/-- Opens or feeds a store burst (R155). -/
def tapStore (cyc h : Nat) (writeEn : Bool) (r : Record) (a b : Word) (x : Gallery) : Gallery :=
  let t := tapOf h
  let l := x.tap t
  let l := if (openStore l).isSome then feedStore b l
    else l ++ [{ load := false, addr := fld a 20 4 * 16, beats := r.beats + 1, plane := x.active, granted := false,
                 words := [(b, false)], need := 4 * (r.beats + 1), done := 0, wb := none, fclr := false,
                 nowrite := !writeEn, wait := 0 }]
  raiseTap cyc t (x.setTap t (dropNoWrite l))

end Sys2Proof.Machine
end

