-- ==== Sys2Proof/Machine/Hearth.lean ====
section
/-!
DEFINITION. The firing of a hearth (R138–R141) and the operations of Table 8.5.
-/

namespace Sys2Proof.Machine

/-- The word an offer carries, 0 where none is valid. -/
def Offer.val : Offer → Word
  | .word w => w
  | _ => 0

/-- Counts words in GAL_HEARTH_DISCARDS (R139). -/
def discard (g n : Nat) (s : State) : State := if n = 0 then s else s.count (galP g 0x60) n

/-- Distinct switch sources among the selectors whose offer satisfies `p`. -/
def switchCount (s : State) (x : Gallery) (r : Record) (h : Nat) (sel : List Nat) (p : Offer → Bool) : Nat :=
  (sel.eraseDups.filter (fun c => isSwitch c && p (offerOf s x r h c))).length

/-- The offer is a valid word. -/
def Offer.valid : Offer → Bool
  | .word _ => true
  | _ => false

/-- The offer is a stale word. -/
def Offer.isStale : Offer → Bool
  | .stale => true
  | _ => false

/-- Fires hearth `h` of gallery `g` if the active plane holds operation `op` and R138 holds; words that are not
consumed are counted (R139, R201).  `sel` are the selectors the operation uses, `iv` its interval, `room` whether the
tap takes the request, and `act` the firing's effect on its operands A, B and C. -/
def fire (op : Nat) (sel : Record → List Nat) (iv : Record → Nat) (room : Gallery → Bool)
    (act : Record → Word → Word → Word → State → State) (g h : Nat) (s : State) : State :=
  let x := s.gal g
  let r := x.record x.active h
  if s.live g && decide (h < 128) && decide (r.op = op) then
    let stale := switchCount s x r h (sel r) Offer.isStale
    let valid := switchCount s x r h (sel r) Offer.valid
    let s' := if stale = 0 then s else s.count (galP g 0x81) stale
    if !(sel r).all (fun c => (offerOf s x r h c).valid) then discard g valid s'
    else if tabGet 0 x.busy h ≠ 0 || !room x then discard g valid s'
    else
      act r (offerOf s x r h r.srcA).val (offerOf s x r h r.srcB).val (offerOf s x r h r.srcC).val
        ((s'.modGal g (fun y =>
          { y with busy := tabSet 0 y.busy h (iv r)
                   hearths := tabMod HearthTest.reset y.hearths h (fun t => { t with running := false }) })).tally64
            (galP g 0x65) 1)
  else s

/-- Puts an effect into the hearth's pipeline (R157). -/
def pushPipe (g : Nat) (e : InFlight) (s : State) : State := s.modGal g (fun x => { x with pipe := x.pipe ++ [e] })

/-- The write-back register of a record. -/
def Record.wbReg (r : Record) : Option Nat := if r.wb then some r.wreg else none

/-- A result word enters the pipeline with its latency. -/
def pushRes (lat g h : Nat) (r : Record) (e : WordRes) (s : State) : State :=
  pushPipe g { hearth := h, plane := (s.gal g).active, left := lat, result := some e.word, wb := r.wbReg,
               setZN := e.zn, setC := e.c,
               sticky := putBit (putBit 0#3 0 e.v) 1 e.d, fclr := r.fclr, regs := [] } s

/-- The interval of the multiplier operations: 2 in 1×32, else 1. -/
def mulInterval (r : Record) : Nat := if r.width = 32 then 2 else 1

/-- An operation on A alone. -/
def fireA (op lat : Nat) (f : Record → Word → WordRes) (g h : Nat) (s : State) : State :=
  fire op (fun r => [r.srcA]) (fun _ => 1) (fun _ => true) (fun r a _ _ => pushRes lat g h r (f r a)) g h s

/-- An operation on A and B. -/
def fireAB (op lat : Nat) (iv : Record → Nat) (f : Record → Word → Word → WordRes) (g h : Nat) (s : State) : State :=
  fire op (fun r => [r.srcA, r.srcB]) iv (fun _ => true) (fun r a b _ => pushRes lat g h r (f r a b)) g h s

/-- A lane operation on A. -/
def lanesA (f : Record → Nat → Nat → LaneRes) (r : Record) (a : Word) : WordRes :=
  ofLanes r.width (fun i => f r i (lane r.width a i))

/-- A lane operation on A and B. -/
def lanesAB (f : Record → Nat → Nat → Nat → LaneRes) (r : Record) (a b : Word) : WordRes :=
  ofLanes r.width (fun i => f r i (lane r.width a i) (lane r.width b i))

/-- Interval 1. -/
def one (_ : Record) : Nat := 1

/-- PASS: A. -/
def passRes (_ : Record) (a : Word) : WordRes := ofWord a

/-- ADD: A + B per lane, C from the most significant lane. -/
def addRes (r : Record) (a b : Word) : WordRes :=
  { lanesAB (fun r i x y => fit r.width (r.sat i) (signed r.width x + signed r.width y)) r a b with
    c := some (carryAdd r.width a b) }

/-- SUB: A − B per lane, C from the most significant lane. -/
def subRes (r : Record) (a b : Word) : WordRes :=
  { lanesAB (fun r i x y => fit r.width (r.sat i) (signed r.width x - signed r.width y)) r a b with
    c := some (carrySub r.width a b) }

/-- NEG: −A per lane. -/
def negRes : Record → Word → WordRes := lanesA (fun r i x => fit r.width (r.sat i) (-(signed r.width x)))

/-- ABS: |A| per lane. -/
def absRes : Record → Word → WordRes :=
  lanesA (fun r i x => fit r.width (r.sat i) ((signed r.width x).natAbs : Int))

/-- MIN: signed minimum per lane. -/
def minRes : Record → Word → Word → WordRes :=
  lanesAB (fun r _ x y => plain r.width (if signed r.width x ≤ signed r.width y then signed r.width x else signed r.width y))

/-- MAX: signed maximum per lane. -/
def maxRes : Record → Word → Word → WordRes :=
  lanesAB (fun r _ x y => plain r.width (if signed r.width x ≤ signed r.width y then signed r.width y else signed r.width x))

/-- CLZ: leading zero bits per lane. -/
def clzRes : Record → Word → WordRes := lanesA (fun r _ x => { val := clz r.width x, v := false, d := false })

/-- POPC: one bits per lane. -/
def popcRes : Record → Word → WordRes := lanesA (fun r _ x => { val := popc r.width x, v := false, d := false })

/-- MUL: the product fitted to the lane. -/
def mulRes : Record → Word → Word → WordRes :=
  lanesAB (fun r i x y => fit r.width (r.sat i) (signed r.width x * signed r.width y))

/-- MULH: bits [2w−1:w] of the product. -/
def mulhRes : Record → Word → Word → WordRes :=
  lanesAB (fun r _ x y => plain r.width (signed r.width x * signed r.width y / ((2 ^ r.width : Nat) : Int)))

/-- RND: rnd of each lane with k = SH; V is unchanged (Table 8.5). -/
def rndRes : Record → Word → WordRes :=
  lanesA (fun r _ x => { rnd (signed r.width x) r.sh r.width with v := false })

/-- SEL: A where C's lane MSB is 1, else B. -/
def selRes (r : Record) (a b c : Word) : WordRes :=
  ofLanes r.width (fun i =>
    { val := if bitOf (lane r.width c i) (r.width - 1) then lane r.width a i else lane r.width b i, v := false, d := false })

/-- PASS (Table 8.5). -/
def execPass (g h : Nat) (s : State) : Host.Outcome State Fault Refusal := .next (fireA 0x01 1 passRes g h s)

/-- The registers that DLY's line shifts into, from W(16 − d) up (R148). -/
def dlyRegs (x : Gallery) (h : Nat) (r : Record) (a : Word) : List (Nat × Word) :=
  (List.range r.depth).map (fun i => (15 - i, x.reg x.active h (14 - i))) ++ [(15 - r.depth, a)]

/-- DLY (R148): OUT takes W15 from before the firing, and the line shifts. -/
def execDly (g h : Nat) (s : State) : Host.Outcome State Fault Refusal :=
  .next (fire 0x02 (fun r => [r.srcA]) one (fun _ => true) (fun r a _ _ t =>
    let x := t.gal g
    let o := x.reg x.active h 15
    pushPipe g { hearth := h, plane := x.active, left := 1, result := some o, wb := none, setZN := some (znOf o),
                 setC := none, sticky := 0, fclr := r.fclr, regs := dlyRegs x h r a } t) g h s)

/-- ADD (Table 8.5). -/
def execAdd (g h : Nat) (s : State) : Host.Outcome State Fault Refusal := .next (fireAB 0x04 1 one addRes g h s)

/-- SUB (Table 8.5). -/
def execSub (g h : Nat) (s : State) : Host.Outcome State Fault Refusal := .next (fireAB 0x05 1 one subRes g h s)

/-- NEG (Table 8.5). -/
def execNeg (g h : Nat) (s : State) : Host.Outcome State Fault Refusal := .next (fireA 0x06 1 negRes g h s)

/-- ABS (Table 8.5). -/
def execAbs (g h : Nat) (s : State) : Host.Outcome State Fault Refusal := .next (fireA 0x07 1 absRes g h s)

/-- MIN (Table 8.5). -/
def execMin (g h : Nat) (s : State) : Host.Outcome State Fault Refusal := .next (fireAB 0x08 1 one minRes g h s)

/-- MAX (Table 8.5). -/
def execMax (g h : Nat) (s : State) : Host.Outcome State Fault Refusal := .next (fireAB 0x09 1 one maxRes g h s)

/-- AND (Table 8.5). -/
def execAnd (g h : Nat) (s : State) : Host.Outcome State Fault Refusal :=
  .next (fireAB 0x0C 1 one (fun _ a b => ofWord (a &&& b)) g h s)

/-- OR (Table 8.5). -/
def execOr (g h : Nat) (s : State) : Host.Outcome State Fault Refusal :=
  .next (fireAB 0x0D 1 one (fun _ a b => ofWord (a ||| b)) g h s)

/-- XOR (Table 8.5). -/
def execXor (g h : Nat) (s : State) : Host.Outcome State Fault Refusal :=
  .next (fireAB 0x0E 1 one (fun _ a b => ofWord (a ^^^ b)) g h s)

/-- NOT (Table 8.5). -/
def execNot (g h : Nat) (s : State) : Host.Outcome State Fault Refusal :=
  .next (fireA 0x0F 1 (fun _ a => ofWord (~~~a)) g h s)

/-- SHL (Table 8.8). -/
def execShl (g h : Nat) (s : State) : Host.Outcome State Fault Refusal :=
  .next (fireAB 0x10 1 one (lanesAB (fun r _ x y => laneShl r.width x y)) g h s)

/-- SHR (Table 8.8). -/
def execShr (g h : Nat) (s : State) : Host.Outcome State Fault Refusal :=
  .next (fireAB 0x11 1 one (lanesAB (fun r _ x y => laneShr r.width x y)) g h s)

/-- SHRA (Table 8.8). -/
def execShra (g h : Nat) (s : State) : Host.Outcome State Fault Refusal :=
  .next (fireAB 0x12 1 one (lanesAB (fun r _ x y => laneShra r.width x y)) g h s)

/-- ROT (Table 8.8). -/
def execRot (g h : Nat) (s : State) : Host.Outcome State Fault Refusal :=
  .next (fireAB 0x13 1 one (lanesAB (fun r _ x y => laneRot r.width x y)) g h s)

/-- CLZ (Table 8.5). -/
def execClz (g h : Nat) (s : State) : Host.Outcome State Fault Refusal := .next (fireA 0x14 1 clzRes g h s)

/-- POPC (Table 8.5). -/
def execPopc (g h : Nat) (s : State) : Host.Outcome State Fault Refusal := .next (fireA 0x15 1 popcRes g h s)

/-- MUL (Table 8.5). -/
def execMul (g h : Nat) (s : State) : Host.Outcome State Fault Refusal := .next (fireAB 0x18 3 mulInterval mulRes g h s)

/-- MULH (Table 8.5). -/
def execMulh (g h : Nat) (s : State) : Host.Outcome State Fault Refusal :=
  .next (fireAB 0x19 3 mulInterval mulhRes g h s)

/-- The selectors MAC and MSU use: C only when MOUT is 1 (R149). -/
def macSel (r : Record) : List Nat := if r.mout then [r.srcA, r.srcB, r.srcC] else [r.srcA, r.srcB]

/-- The effect of a MAC or MSU firing (R149, R150): ACC takes the product at once; with MOUT 0 OUT carries A after one
cycle; on a dump firing OUT carries the dump after four and ACC is 0. -/
def macAct (minus : Bool) (g h : Nat) (r : Record) (a b c : Word) (s : State) : State :=
  let x := s.gal g
  let p := x.active
  let n := accumulate r minus a b (x.accOf p h)
  let dump := r.mout && c.getLsbD 0
  let d := dumpRes r n.1
  let e : InFlight :=
    { hearth := h, plane := p, left := if dump then 4 else 1,
      result := if dump then some d.word else if r.mout then none else some a,
      wb := if dump || !r.mout then r.wbReg else none,
      setZN := if dump then d.zn else none, setC := none,
      sticky := putBit 0#3 0 (n.2 || (dump && d.v)), fclr := r.fclr, regs := [] }
  (pushPipe g e s).modGal g (fun y =>
    { y with acc := tabSet 0 y.acc (p * 128 + h) (if dump then 0 else n.1)
             planes := tabMod Plane.reset y.planes p (fun q => { q with accLive := putBit q.accLive h (!dump), accKept := false }) })

/-- MAC (R149). -/
def execMac (g h : Nat) (s : State) : Host.Outcome State Fault Refusal :=
  .next (fire 0x1A macSel mulInterval (fun _ => true) (macAct false g h) g h s)

/-- MSU (R149). -/
def execMsu (g h : Nat) (s : State) : Host.Outcome State Fault Refusal :=
  .next (fire 0x1B macSel mulInterval (fun _ => true) (macAct true g h) g h s)

/-- RND (R151). -/
def execRnd (g h : Nat) (s : State) : Host.Outcome State Fault Refusal := .next (fireA 0x1C 2 rndRes g h s)

/-- CMP (R147). -/
def execCmp (g h : Nat) (s : State) : Host.Outcome State Fault Refusal :=
  .next (fireAB 0x20 1 one (fun r => cmpRes r.width r.cond) g h s)

/-- SEL (Table 8.5). -/
def execSel (g h : Nat) (s : State) : Host.Outcome State Fault Refusal :=
  .next (fire 0x21 (fun r => [r.srcA, r.srcB, r.srcC]) one (fun _ => true)
    (fun r a b c => pushRes 1 g h r (selRes r a b c)) g h s)

/-- DIV (R153). -/
def execDiv (g h : Nat) (s : State) : Host.Outcome State Fault Refusal :=
  .next (fireAB 0x24 12 (fun _ => 4) (lanesAB (fun r i x y => laneDiv r.width (r.sat i) x y)) g h s)

/-- REM (R153). -/
def execRem (g h : Nat) (s : State) : Host.Outcome State Fault Refusal :=
  .next (fireAB 0x25 12 (fun _ => 4) (lanesAB (fun r _ x y => laneRem r.width x y)) g h s)

/-- PACK (R152). -/
def execPack (g h : Nat) (s : State) : Host.Outcome State Fault Refusal := .next (fireAB 0x28 1 one packRes g h s)

/-- UNPK (R152). -/
def execUnpk (g h : Nat) (s : State) : Host.Outcome State Fault Refusal := .next (fireA 0x29 1 unpkRes g h s)

/-- LD (R154): the tap takes the request for its burst. -/
def execLd (g h : Nat) (s : State) : Host.Outcome State Fault Refusal :=
  .next (fire 0x30 (fun r => [r.srcA]) one (fun x => x.tapRoom true (tapOf h))
    (fun r a _ _ t => t.modGal g (tapLoad t.clk.cyc h r a)) g h s)

/-- The effect of FCLR on a firing that places no result. -/
def fclrOnly (g h : Nat) (r : Record) (s : State) : State :=
  if r.fclr then
    pushPipe g { hearth := h, plane := (s.gal g).active, left := 1, result := none, wb := none, setZN := none,
                 setC := none, sticky := 0, fclr := true, regs := [] } s
  else s

/-- ST (R155): opens or feeds the tap's write burst. -/
def execSt (g h : Nat) (s : State) : Host.Outcome State Fault Refusal :=
  .next (fire 0x31 (fun r => [r.srcA, r.srcB]) one (fun x => x.tapRoom false (tapOf h))
    (fun r a b _ t => fclrOnly g h r (t.modGal g (tapStore t.clk.cyc h t.kin.writeEn r a b))) g h s)

/-- The latest of the effects that compete for one OUT in one cycle: an outgoing plane's result wins over an incoming
one (R157); between two others the spec names no winner, and a free bit decides (note 4, DESIGN CHOICE). -/
def outWinner (active : Nat) : List InFlight → State → Option InFlight × State
  | [], s => (none, s)
  | e :: r, s =>
    match outWinner active r s with
    | (none, t) => (some e, t)
    | (some w, t) =>
      if e.plane ≠ active ∧ w.plane = active then (some e, t)
      else if e.plane = active ∧ w.plane ≠ active then (some w, t)
      else match t.freeBit with | (b, t) => (some (if b then e else w), t)

/-- An effect lands in its plane's bank (R146, R157): `placed` says that its result takes OUT. -/
def landEffect (g : Nat) (e : InFlight) (placed : Bool) (s : State) : State :=
  s.modGal g (fun x =>
    let k := e.plane * 128 + e.hearth
    let y := e.regs.foldl (fun y q => y.setReg e.plane e.hearth q.1 q.2) x
    let y := match e.wb, e.result, placed with
      | some n, some w, true => y.setReg e.plane e.hearth n w
      | _, _, _ => y
    let y := { y with flags := tabSet 0 y.flags k (landFlags (tabGet 0 y.flags k) e placed) }
    let y := match e.result, placed with
      | some w, true =>
        { y with outs := tabSet none y.outs e.hearth (some { word := w, tag := e.plane })
                 self := if e.plane = y.active then tabSet 0 y.self e.hearth w else y.self }
      | _, _ => y
    if e.writesFlags placed || !e.regs.isEmpty || (e.wb.isSome && e.result.isSome && placed) then
      y.modPlane e.plane (fun q => { q with dirty := true })
    else y)

/-- Lands the effects of one hearth that fall due together; results that lose OUT are counted (R157, R139). -/
def landHearth (g : Nat) (h : Nat) (due : List InFlight) (s : State) : State :=
  let mine := due.filter (fun e => decide (e.hearth = h))
  let res := mine.filter (fun e => e.result.isSome)
  let w := outWinner (s.gal g).active res s
  let s := mine.foldl (fun t e => landEffect g e (decide (some e = w.1)) t) w.2
  discard g (res.length - 1) s

/-- One enabled cycle of waiting for the words of a granted LD (R154). -/
def TapReq.age (q : TapReq) : TapReq := if q.load && decide (0 < q.done) then { q with wait := q.wait - 1 } else q

/-- The tap's next LD word becomes an effect of its hearth (R154). -/
def tapDeliver (t : Nat) (x : Gallery) : Gallery × Option InFlight :=
  match (x.tap t).map TapReq.age with
  | [] => (x, none)
  | q :: r =>
    match q.words with
    | [] => (x.setTap t (q :: r), none)
    | w :: ws =>
      if q.load && decide (q.wait = 0) then
        (x.setTap t (if ws.isEmpty && decide (q.beats ≤ q.done) then r else { q with words := ws, fclr := false } :: r),
         some { hearth := tapHearth t, plane := q.plane, left := 0, result := some w.1, wb := q.wb,
                setZN := some (znOf w.1), setC := none, sticky := if w.2 then 4 else 0, fclr := q.fclr, regs := [] })
      else (x.setTap t (q :: r), none)

/-- Delivers the words of every tap. -/
def deliverTaps (x : Gallery) : Gallery × List InFlight :=
  (x.tapQ.map (·.1)).foldl (fun (p : Gallery × List InFlight) t =>
    match tapDeliver t p.1 with
    | (y, some e) => (y, p.2 ++ [e])
    | (y, none) => (y, p.2)) (x, [])

/-- The end of an enabled cycle of gallery g: latencies and intervals count, what falls due lands, and OUT takes the
results (R140, R145, R157). -/
def hearthCycle (g : Nat) (s : State) : State :=
  let x := s.gal g
  let p := deliverTaps { x with outs := [], busy := x.busy.filterMap (fun q => if q.2 ≤ 1 then none else some (q.1, q.2 - 1)) }
  let aged := p.1.pipe.map (fun e => { e with left := e.left - 1 })
  let due := aged.filter (fun e => decide (e.left = 0)) ++ p.2
  let s := s.modGal g (fun _ => { p.1 with pipe := aged.filter (fun e => decide (e.left ≠ 0)) })
  (due.map (·.hearth)).eraseDups.foldl (fun t h => landHearth g h due t) s

/-- The level hearth `h` drives onto its HF line: the line and the level (R144). -/
def hearthFlag (x : Gallery) (h : Nat) : Option (Nat × Bool) :=
  let r := x.record x.active h
  if r.fout = 0 then none
  else if r.fout = 7 then some (r.hfl, (tabGet none x.outs h).isSome)
  else if r.fout < 7 then some (r.hfl, hasBit (x.flagsOf x.active h) (r.fout - 1))
  else none

/-- The lines HF0–HF3: the OR over the 128 hearths (R144). -/
def hfLines (x : Gallery) : BitVec 4 :=
  (List.range 128).foldl (fun a h => match hearthFlag x h with | some (l, true) => putBit a l true | _ => a) 0

end Sys2Proof.Machine
end

