-- ==== Sys2Proof/Machine/Respond.lean ====
section
/-!
DEFINITION. Lamp messages on their way out (chapters 16 and 17): the header, the two transports, the report ring,
MSI-X vectors, and the one operation that answers a command.
-/

namespace Sys2Proof.Machine

/-- The status codes of Table 17.2. -/
def stSuccess : Nat := 0x00
def stNotReady : Nat := 0x01
def stNotOwner : Nat := 0x02
def stNoCredit : Nat := 0x03
def stBadType : Nat := 0x04
def stBadLength : Nat := 0x05
def stNoParam : Nat := 0x06
def stReadOnly : Nat := 0x07
def stWriteOnly : Nat := 0x08
def stRange : Nat := 0x09
def stBusy : Nat := 0x0A
def stLocked : Nat := 0x0B
def stAbsent : Nat := 0x0C
def stAbsentUnit : Nat := 0x0D
def stLate : Nat := 0x0E
def stConflict : Nat := 0x0F
def stProtected : Nat := 0x10
def stDoubleProgram : Nat := 0x11
def stBadBoot : Nat := 0x12
def stEraseFail : Nat := 0x13
def stFlashEcc : Nat := 0x14
def stDead : Nat := 0x20
def stAsleep : Nat := 0x21
def stTimeout : Nat := 0x22
def stLinkDown : Nat := 0x23
def stNoTarget : Nat := 0x24
def stEcc : Nat := 0x25

/-- A dword of the endpoint's configuration space that software can write; it reads 0 until written. -/
def State.cfgReg (s : State) (n : Nat) : Word := tabGet 0 s.pcie.config n

/-- Bus mastering is enabled (the command register, dword 1 bit 2). -/
def State.busMaster (s : State) : Bool := (s.cfgReg 1).getLsbD 2

/-- The endpoint is in D3hot (the power-management control register, dword 0x11 bits [1:0]: note 7, PRESUMED). -/
def State.d3hot (s : State) : Bool := decide (fld (s.cfgReg 0x11) 1 0 = 3)

/-- MSI-X is enabled and its function mask is clear (dword 0x14 bits 31 and 30: note 7, PRESUMED). -/
def State.msixOn (s : State) : Bool := (s.cfgReg 0x14).getLsbD 31 && !(s.cfgReg 0x14).getLsbD 30

/-- The per-vector mask of MSI-X vector `v`: bit 0 of the fourth dword of its entry, set at reset as the standard
says (note 7, PRESUMED); the table holds the complement of that bit. -/
def State.vectorMasked (s : State) (v : Nat) : Bool := !(tabGet 0 s.pcie.msixTable (4 * v + 3)).getLsbD 0

/-- Raises MSI-X vector `v`: it is sent, or its pending bit is set while it cannot be sent (R279, R280, Table 16.4). -/
def raiseVector (v : Nat) (s : State) : State :=
  if s.pcie.linkUp && s.busMaster && s.msixOn && !s.vectorMasked v && !s.d3hot then
    { s with pcie := { s.pcie with msix := v :: s.pcie.msix } }
  else { s with pcie := { s.pcie with pba := putBit s.pcie.pba v true } }

/-- Sends the vectors that are pending and can be sent now. -/
def releaseVectors (s : State) : State :=
  (List.range 4).foldl (fun t v =>
    if hasBit t.pcie.pba v then raiseVector v { t with pcie := { t.pcie with pba := putBit t.pcie.pba v false } }
    else t) s

/-- The ring size in bytes (R284). -/
def State.ringSize (s : State) : Nat := 2 ^ fld (s.par 0x203) 4 0

/-- The ring record of a message (R284). -/
def ringRecord (msg : List Byte) : List Byte := padTo 64 (leBytes 2 msg.length ++ [0, 0] ++ msg)

/-- Bytes that the record takes from the producer on, with the filler record when it would pass the ring's end. -/
def State.ringNeed (s : State) (rec : List Byte) : Nat :=
  if s.ringSize < s.pcie.prod + rec.length then s.ringSize - s.pcie.prod + rec.length else rec.length

/-- Free bytes of the ring between producer and consumer. -/
def State.ringFree (s : State) : Nat :=
  let n := s.ringSize
  let used := (s.pcie.prod + n - s.pcie.cons % n) % n
  n - used

/-- The ring holds the record: at least 64 bytes stay free after it (R285). -/
def State.ringRoom (s : State) (msg : List Byte) : Bool :=
  decide (s.ringNeed (ringRecord msg) + 64 ≤ s.ringFree)

/-- Writes into host memory. -/
def hostWrite (a : Nat) (b : List Byte) (s : State) : State :=
  { s with pcie := { s.pcie with hostWrites := (a, b) :: s.pcie.hostWrites } }

/-- Raises vector 0 no more often than PCIE_MSIX_HOLDOFF allows (R284). -/
def signalRing (s : State) : State :=
  let hold := fld (s.par 0x207) 15 0 * 1000
  let free := match s.pcie.lastVec0 with | none => true | some c => decide (c + hold ≤ s.clk.cyc)
  if free then
    raiseVector 0 { s with pcie := { s.pcie with lastVec0 := some s.clk.cyc, unsignalled := false } }
  else { s with pcie := { s.pcie with unsignalled := true } }

/-- Writes one record into the ring, then the producer offset (R284). -/
def ringPut (msg : List Byte) (s : State) : State :=
  let rec' := ringRecord msg
  let base := s.pair 0x201
  let wraps := decide (s.ringSize < s.pcie.prod + rec'.length)
  let s := if wraps then hostWrite (base + s.pcie.prod) (padTo 64 [0xFF, 0xFF, 0, 0]) s else s
  let start := if wraps then 0 else s.pcie.prod
  let prod := (start + rec'.length) % s.ringSize
  let s := hostWrite (base + start) rec' s
  let s := hostWrite (s.pair 0x204) (leBytes 8 prod) s
  signalRing { s with pcie := { s.pcie with prod := prod } }

/-- Places a response on its transport (R283, R285, R299, R304); `ring` says that the report ring carries it.  Nothing
leaves on a tristated LAMP_TX (Table 25.3). -/
def deliver (via : Transport) (ring : Bool) (msg : List Byte) (s : State) : State :=
  match via with
  | .lampPair =>
    if tabGet 0 s.pins.kinds 12 = 0 then { s with lamp := { s.lamp with sent := msg :: s.lamp.sent } } else s
  | .pcie =>
    if ring then
      (if s.pcie.waiting.isEmpty && s.ringRoom msg then ringPut msg s
       else { s with pcie := { s.pcie with waiting := s.pcie.waiting ++ [msg] } })
    else if s.pcie.direct.isNone && (s.pcie.ringArmed || s.pcie.waiting.isEmpty) then
      raiseVector 1 { s with pcie := { s.pcie with direct := some msg } }
    else if s.pcie.ringArmed then { s with pcie := { s.pcie with armRsp := some msg } }
    else { s with pcie := { s.pcie with waiting := s.pcie.waiting ++ [msg] } }

/-- A message: the header of Table 17.1 and the body. -/
def message (kind type tag status credits : Nat) (body : List Byte) : List Byte :=
  [1, BitVec.ofNat 8 kind] ++ leBytes 2 type ++ leBytes 2 tag ++ leBytes 2 body.length ++
    [BitVec.ofNat 8 status, BitVec.ofNat 8 credits, 0, 0] ++ body

/-- Free command places of a transport (R305). -/
def State.places (s : State) (via : Transport) : Nat :=
  4 - ((s.lamp.inbox ++ s.lamp.running).filter (fun c => decide (c.via = via))).length

/-- The command is forgotten: it no longer holds a place. -/
def dropCmd (c : Cmd) (s : State) : State :=
  { s with lamp := { s.lamp with inbox := s.lamp.inbox.erase c, running := s.lamp.running.erase c } }

/-- The last 8 completed commands of each transport, latest first (R306). -/
def keepStored (r : Stored) (l : List Stored) : List Stored :=
  r :: (l.filter (fun x => decide (x.via = r.via))).take 7 ++ l.filter (fun x => !decide (x.via = r.via))

/-- The message that answers a command with the free places at the moment it is sent. -/
def State.answer (s : State) (c : Cmd) (status : Nat) (body : List Byte) : List Byte :=
  message 1 c.type c.tag status (s.places c.via) body

/-- Sends a response without a record of it: for commands that are not executed. -/
def refuse (c : Cmd) (status : Nat) (s : State) : State :=
  deliver c.via s.pcie.ringArmed (s.answer c status []) s

/-- Answers a command (R305, R306): its place is free, the response is kept for a repeat, and it is sent, unless a
PCI Express reset has discarded it (R293). -/
def respondVia (ring : Bool) (c : Cmd) (status : Nat) (body : List Byte) (s : State) : State :=
  let s := dropCmd c s
  let lost := s.lamp.orphans.contains c
  let msg := s.answer c status body
  let s := { s with lamp := { s.lamp with
    orphans := s.lamp.orphans.erase c
    stored := keepStored { via := c.via, tag := c.tag, crc := crc32 c.body, rsp := msg } s.lamp.stored } }
  if lost then s else deliver c.via ring msg s

/-- Answers a command by the transport's present way. -/
def respond (c : Cmd) (status : Nat) (body : List Byte) (s : State) : State :=
  respondVia s.pcie.ringArmed c status body s

/-- A deferred command has started (R307). -/
def startCmd (c : Cmd) (s : State) : State :=
  { s with lamp := { s.lamp with inbox := s.lamp.inbox.erase c, running := s.lamp.running ++ [c] } }

/-- A running damper command no longer waits for domain `d`; with none left it is answered (R309). -/
def damperDone (d : Nat) (ended forced : Bool) (s : State) : State :=
  let note := fun (x : DamperCmd) =>
    if hasBit x.left d then
      { x with left := putBit x.left d false
               ended := if ended then putBit x.ended d true else x.ended
               forced := if forced then putBit x.forced d true else x.forced }
    else x
  let l := s.lamp.dampers.map note
  let s := { s with lamp := { s.lamp with dampers := l.filter (fun x => decide (x.left ≠ 0)) } }
  (l.filter (fun x => decide (x.left = 0))).foldl (fun s x =>
    respond x.cmd stSuccess
      (leBytes 4 x.ended.toNat ++ (if x.cmd.type = 0x40 then leBytes 4 x.forced.toNat else [])) s) s

end Sys2Proof.Machine
end

