-- ==== Sys2Proof/Machine/Trans.lean ====
section
/-!
DEFINITION. Mesh transactions (R224, R225): presenting a packet to a router, the one operation that ends an outstanding
transaction at its source, and marking a unit dead (R238).
-/

namespace Sys2Proof.Machine

/-- What stands at a local port of this card (R14, R226). -/
inductive Target where
  | gal (g : Nat)
  | port (p : Nat)
  | keeper | pcie | lamp | tinder | timeBase
  | nothing
  deriving DecidableEq, Repr

/-- The target at node (x, y), local port k (R14, R226). -/
def targetAt (x y k : Nat) : Target :=
  if y ≤ 3 then
    match nodeGal x y with
    | some g => if k = 0 then .gal g else .nothing
    | none => match nodePort x y k with | some p => .port p | none => .nothing
  else if y = 4 ∧ k = 0 then
    (if x = 0 then .keeper else if x = 1 then .pcie else if x = 2 then .lamp else if x = 3 then .tinder
     else if x = 4 then .timeBase else .nothing)
  else .nothing

/-- Node (x, y) of a node number 6y + x. -/
def nodeX (n : Nat) : Nat := n % 6

/-- Node (x, y) of a node number 6y + x. -/
def nodeY (n : Nat) : Nat := n / 6

/-- The local port of a target: its node number and port. -/
def Target.place : Target → Nat × Nat
  | .gal g => (galNode g, 0)
  | .port p => (portNode p, p % 2)
  | .keeper => (24, 0)
  | .pcie => (25, 0)
  | .lamp => (26, 0)
  | .tinder => (27, 0)
  | .timeBase => (28, 0)
  | .nothing => (29, 0)

/-- A packet with every field 0. -/
def blankPacket : Packet :=
  { dx := 0, dy := 0, dport := 0, dcard := 0, sx := 0, sy := 0, sport := 0, scard := 0, gt := false, cmd := 0,
    half := false, poison := false, tag := 0, len := 0, flow := 0, status := 0, addr := 0, code := 0, valid := 0,
    data := [] }

/-- The packet with the source fields of a unit of this card (R223). -/
def sourced (s : State) (t : Target) (p : Packet) : Packet :=
  { p with sx := nodeX t.place.1, sy := nodeY t.place.1, sport := t.place.2, scard := s.card }

/-- The packet sent to a unit of card `c`. -/
def toward (c : Nat) (t : Target) (p : Packet) : Packet :=
  { p with dx := nodeX t.place.1, dy := nodeY t.place.1, dport := t.place.2, dcard := c }

/-- A unit presents a packet to its router. -/
def present (p : Packet) (s : State) : State :=
  { s with mesh := { s.mesh with ready := s.mesh.ready ++ [p] } }

/-- The answer to a request: READ_RSP or ERROR with its TAG, routed back to its source fields (R224). -/
def replyTo (p : Packet) (cmd status len : Nat) (data : List Byte) : Packet :=
  { blankPacket with
    dx := p.sx, dy := p.sy, dport := p.sport, dcard := p.scard, sx := p.dx, sy := p.dy, sport := p.dport,
    scard := p.dcard, cmd := cmd, tag := p.tag, len := len, status := status,
    valid := BitVec.allOnes 128, data := data }

/-- Answers a request with ERROR and a status. -/
def replyError (p : Packet) (status : Nat) (s : State) : State := present (replyTo p 6 status 0 []) s

/-- Answers a request with READ_RSP. -/
def replyData (p : Packet) (len : Nat) (data : List Byte) (s : State) : State := present (replyTo p 2 0 len data) s

/-- Requests await an answer: READ_REQ, MESSAGE and CONFIG; WRITE and WAKE are posted (R224). -/
def awaits (p : Packet) : Bool := decide (p.cmd = 1 ∨ p.cmd = 3 ∨ p.cmd = 5)

/-- Outstanding transactions of one source local port. -/
def State.outstanding (s : State) (node port : Nat) : Nat :=
  (s.mesh.trans.filter (fun t => decide (t.node = node ∧ t.port = port))).length

/-- The first tag that no outstanding transaction of the source holds. -/
def State.newTag (s : State) (node port : Nat) : Nat :=
  match firstBelow 4096 (fun k =>
      !s.mesh.trans.any (fun t => decide (t.node = node ∧ t.port = port ∧ t.tag = (s.mesh.nextTag + k) % 4096))) with
  | some k => (s.mesh.nextTag + k) % 4096
  | none => s.mesh.nextTag

/-- A unit of this card sends a request that awaits an answer: it opens a transaction (R225). -/
def request (src : Target) (p : Packet) (purpose : Purpose) (s : State) : State :=
  let n := src.place
  let tag := s.newTag n.1 n.2
  let p := { sourced s src p with tag := tag }
  present p { s with mesh := { s.mesh with
    nextTag := (tag + 1) % 4096
    trans := s.mesh.trans ++ [{ node := n.1, port := n.2, tag := tag, dcard := p.dcard, dnode := 6 * p.dy + p.dx,
                                dport := p.dport, purpose := purpose }] } }

/-- Changes the transfer `id` of gallery g's DMA. -/
def modDma (g id : Nat) (f : Dma → Dma) (s : State) : State :=
  s.modSeq g (fun q => { q with dmas := q.dmas.map (fun d => if d.id = id then f d else d) })

/-- A part of a MEM_READ ends; with the last one the command is answered (R309). -/
def endMemRead (c : Cmd) (part status : Nat) (data : List Byte) (s : State) : State :=
  let l := s.lamp.reads.map (fun r =>
    if r.cmd = c then
      { r with waiting := r.waiting - 1, parts := r.parts ++ [(part, data)],
               failed := if status = 0 then r.failed else some (r.failed.getD status) }
    else r)
  match l.find? (fun r => decide (r.cmd = c)) with
  | none => s
  | some r =>
    if r.waiting = 0 then
      let s := { s with lamp := { s.lamp with reads := l.filter (fun x => !decide (x.cmd = c)) } }
      match r.failed with
      | some st => respond c st [] s
      | none =>
        respond c 0 ((List.range r.parts.length).flatMap (fun i =>
          match r.parts.find? (fun x => decide (x.1 = i)) with | some x => x.2 | none => [])) s
    else { s with lamp := { s.lamp with reads := l } }

/-- Changes the staging area of writer g. -/
def modStaging (g : Nat) (f : Staging → Staging) (s : State) : State :=
  s.modGal g (fun x => { x with staging := f x.staging })

/-- The gallery a CFA names (Table 6.4: bits [19:16]). -/
def cfaGal (cfa : Nat) : Nat := bits cfa 19 16

/-- The kind a CFA names (Table 6.4: bits [31:28]). -/
def cfaKind (cfa : Nat) : Nat := bits cfa 31 28

/-- The frame of writer g is self-targeted (R368). -/
def selfTargeted (g cfa : Nat) : Bool := decide (cfaGal cfa = g ∧ cfaKind cfa ≤ 1)

/-- The outcome of a frame that writer g has committed (R367, R368): recorded, counted, reported on refusal, and
answered when it came as one packet.  A self-targeted frame that is refused is no longer in transit; one that is
accepted left transit when its gallery held it (R368). -/
def icpOutcome (g seq cfa : Nat) (ask : Option Packet) (status : Nat) (s : State) : State :=
  let s := modStaging g (fun x =>
    { x with seq := seq, status := status, cfa := cfa, busy := if ask.isSome then x.busy else false,
             held := selfTargeted g cfa && decide (status = 0) }) s
  let s := if selfTargeted g cfa && decide (status ≠ 0) then s.modGal g (fun x => { x with transit := x.transit - 1 })
    else s
  let s :=
    if status = 0 then s.count (galP g 0x51) 1
    else (s.count (galP g 0x52) 1).raise 0xD8
      ([BitVec.ofNat 8 g, BitVec.ofNat 8 status, 0, 0] ++ leBytes 4 cfa)
  match ask with
  | none => s
  | some p => if status = 0 then replyData p 0 [] s else replyError p status s

/-- What the end of a transaction does at its source. -/
def Purpose.close (p : Purpose) (status : Nat) (data : List Byte) (s : State) : State :=
  match p with
  | .dma g id _ _ =>
    modDma g id (fun d => { d with waiting := d.waiting - 1, failed := d.failed || decide (status ≠ 0) }) s
  | .bulk tag part =>
    { s with pcie := { s.pcie with bulk := s.pcie.bulk.map (fun b =>
        if b.tag = tag then
          { b with waiting := b.waiting - 1, parts := b.parts ++ [(part, data)],
                   failed := if status = 0 then b.failed else some status }
        else b) } }
  | .lampRead c part => endMemRead c part status data s
  | .icp g seq cfa ask => icpOutcome g seq cfa ask status s
  | .message => s

/-- Ends one outstanding transaction with its one outcome (R225). -/
def endTrans (t : Trans) (status : Nat) (data : List Byte) (s : State) : State :=
  if s.mesh.trans.contains t then
    t.purpose.close status data { s with mesh := { s.mesh with trans := s.mesh.trans.erase t } }
  else s

/-- The outstanding transaction that an answer names: same source local port and TAG. -/
def State.findTrans (s : State) (node port tag : Nat) : Option Trans :=
  s.mesh.trans.find? (fun t => decide (t.node = node ∧ t.port = port ∧ t.tag = tag))

/-- Ends every transaction that `p` picks. -/
def endTransAll (p : Trans → Bool) (status : Nat) (s : State) : State :=
  (s.mesh.trans.filter p).foldl (fun s t => endTrans t status [] s) s

/-- A gallery (0–15) or port (16 + s). -/
def unitPlace (t : Nat) : Nat × Nat := if t < 16 then (galNode t, 0) else (portNode (t - 16), (t - 16) % 2)

/-- Marks a gallery or port dead (R238, R239): the bit, the event, GAL_LAST_FAULT, and the end of its transactions. -/
def markDead (t cause : Nat) (s : State) : State :=
  if s.isDead t then s
  else
    let s := if t < 16 then s.putPar (galP t 0xA1) (wd cause) else s
    endTransAll (fun x => decide (x.node = (unitPlace t).1 ∧ x.port = (unitPlace t).2)) stDead
      (({ s with mesh := { s.mesh with dead := putBit s.mesh.dead t true } } : State).raise 0xC1
        [BitVec.ofNat 8 t, BitVec.ofNat 8 cause])

/-- Marks the gallery dead when bit `b` of its GAL_FAULT_POLICY is set (Table 12.3). -/
def faultPolicy (g b : Nat) (s : State) : State :=
  if (s.par (galP g 0xA0)).getLsbD b then markDead g (b + 1) s else s

end Sys2Proof.Machine
end

