-- ==== Sys2Proof/Machine/Contexts.lean ====
section
/-!
DEFINITION. Planes, banks and logical contexts (chapter 9): residency, fills and spills, the switch of context and what
it does to the taps, prefetches, and the commands of the fill/spill engine.
-/

namespace Sys2Proof.Machine

/-- The size of a context-store slot (Table 6.7). -/
def slotSize : Nat := 0x4000

/-- The descriptor of context `c` (Table 6.6). -/
def Gallery.desc (x : Gallery) (c : Nat) : CtxDesc := tabGet CtxDesc.reset x.descs c

/-- Changes the descriptor of context `c`. -/
def Gallery.modDesc (x : Gallery) (c : Nat) (f : CtxDesc → CtxDesc) : Gallery :=
  { x with descs := tabMod CtxDesc.reset x.descs c f }

/-- The plane that holds context `c`, if it is resident (R159). -/
def Gallery.planeOf (x : Gallery) (c : Nat) : Option Nat := firstBelow 8 (fun p => decide ((x.plane p).ctx = some c))

/-- The plane that a fill of context `c` is writing. -/
def Gallery.fillingOf (x : Gallery) (c : Nat) : Option Nat :=
  firstBelow 8 (fun p => decide ((x.plane p).filling = some c))

/-- The plane holds no context and no fill writes it (Table 9.1). -/
def Plane.free (p : Plane) : Bool := p.ctx.isNone && p.filling.isNone

/-- The plane can leave: resident, not active, not about to become active, and drained (R159). -/
def Gallery.canLeave (x : Gallery) (p : Nat) : Bool :=
  (x.plane p).ctx.isSome && (x.plane p).filling.isNone && decide (p ≠ x.active) && decide ((x.plane p).drain = 0) &&
    !(match x.switchTo with | some (q, _) => decide (q = p) | none => false)

/-- The resident plane with the oldest stamp, ties to the lower index (R159). -/
def Gallery.oldest (x : Gallery) : Option Nat :=
  (List.range 8).foldl (fun a p =>
    if x.canLeave p then
      match a with
      | none => some p
      | some q => if (x.plane p).stamp < (x.plane q).stamp then some p else a
    else a) none

/-- The victim (R159): the free plane with the lowest index, else the oldest that can leave. -/
def Gallery.victim (x : Gallery) : Option Nat :=
  match firstBelow 8 (fun p => (x.plane p).free) with
  | some p => some p
  | none => x.oldest

/-- The plane has something that a spill writes (R162). -/
def Plane.mustSpill (p : Plane) : Bool := p.ctx.isSome && (p.dirty || (decide (p.accLive ≠ 0) && !p.accKept))

/-- A word of a memory at address `a`. -/
def memWord (m : Memory) (a : Nat) : Word := wd (leNat (memRead m a 4))

/-- Loads the configuration of context `c` from its slot into plane `p`. -/
def loadConfig (p c : Nat) (x : Gallery) : Gallery :=
  { x with planeCfg := tabBlock 0 x.planeCfg (cfgSize * p) cfgSize (fun i => memByte x.store (slotSize * c + i)) }

/-- Loads plane `p` from the slot of context `c` under the fill rules of Table 9.2; the bank is clean. -/
def loadPlane (p c stamp : Nat) (unused : Bool) (x : Gallery) : Gallery :=
  let b := slotSize * c
  let live := (x.desc c).accUse && (x.desc c).accValid
  let x := loadConfig p c x
  { x with
    regs := tabBlock 0 x.regs (p * 2048) 2048 (fun i => memWord x.store (b + 0x1800 + 4 * i))
    acc := tabBlock 0 x.acc (p * 128) 128 (fun h =>
      if live then BitVec.ofNat 72 (leNat (memRead x.store (b + 0x3800 + 16 * h) 9)) else 0)
    flags := tabBlock 0 x.flags (p * 128) 128 (fun h => (memByte x.store (b + 0x3809 + 16 * h)).setWidth 6)
    planes := tabSet Plane.reset x.planes p
      { ctx := some c, filling := none, stamp := stamp, drain := 0, dirty := false,
        accLive := if live then BitVec.allOnes 128 else 0, accKept := false, unused := unused, usedCyc := 0 } }

/-- Writes what a spill of plane `p` carries into the slot of its context (Table 9.2); whole words, so their check bits
are valid again. -/
def storePlane (p c : Nat) (x : Gallery) : Gallery :=
  let b := slotSize * c
  let q := x.plane p
  let withAcc := decide (q.accLive ≠ 0) && (x.desc c).accUse
  let st := if q.dirty then
      tabBlock 0 x.store (b + 0x1800) 0x2000 (fun i =>
        byteAt (leBytes 4 (tabGet 0 x.regs (p * 2048 + i / 4)).toNat) (i % 4))
    else x.store
  let st := tabBlock 0 st (b + 0x3800) 0x800 (fun i =>
    let h := i / 16
    let j := i % 16
    if j < 9 then
      (if withAcc then byteAt (leBytes 9 (x.accOf p h).toNat) j else memByte st (b + 0x3800 + i))
    else if j = 9 && q.dirty then (x.flagsOf p h).setWidth 8
    else memByte st (b + 0x3800 + i))
  let bad := if q.dirty then tabClear x.storeBad (2048 * c + 0x300) 0x400 else x.storeBad
  let bad := if withAcc then tabClear bad (2048 * c + 0x700) 0x100 else bad
  (({ x with store := st, storeBad := bad } : Gallery).modDesc c (fun d => { d with accValid := withAcc })).modPlane p
    (fun q => { q with dirty := false, accKept := true })

/-- Takes the context out of plane `p`, which a fill of context `c` writes next; a prefetched plane that was never
active is counted (R171). -/
def evictFor (g p c : Nat) (s : State) : State :=
  let s := if ((s.gal g).plane p).unused then s.count (galP g 0x76) 1 else s
  s.modGal g (fun x => { x with planes := tabSet Plane.reset x.planes p { Plane.reset with filling := some c } })

/-- The damper has asked the gallery to drain: damper step 1 and later (R175). -/
def State.damping (s : State) (g : Nat) : Bool := decide ((s.dom g).damper ≠ .openD)

/-- Queues a prefetch of context `c` (R170): nothing when it is undefined, resident, being filled or queued; dropped
and counted when the queue holds two. -/
def queuePrefetch (g c : Nat) (s : State) : State :=
  let x := s.gal g
  if !(x.desc c).defined || (x.planeOf c).isSome || (x.fillingOf c).isSome || x.prefetch.contains c ||
      decide (x.demand = some c) then s
  else if 2 ≤ x.prefetch.length then s.count (galP g 0x77) 1
  else s.modGal g (fun x => { x with prefetch := x.prefetch ++ [c] })

/-- Raises GAL_CTX_FAULT (Table 19.3). -/
def ctxFault (g kind c off : Nat) (s : State) : State :=
  s.raiseGal g 2 ([BitVec.ofNat 8 kind, BitVec.ofNat 8 c] ++ leBytes 2 off)

/-- What the switch of context does to the requests of one tap of the outgoing plane (R169): the requests that stay,
the beats still written, and how many requests were cancelled, discarded or truncated. -/
def cutTap (l : List TapReq) : List (Nat × List Word) × Nat :=
  l.foldl (fun a q =>
    if !q.granted then (a.1, if q.nowrite then a.2 else a.2 + 1)
    else if q.load then (a.1, a.2 + 1)
    else
      let full := q.words.length / 4
      (a.1 ++ (List.range full).map (fun i => (q.addr + 16 * (q.done + i), ((q.words.drop (4 * i)).take 4).map (·.1))),
       if q.done + full < q.beats then a.2 + 1 else a.2)) ([], 0)

/-- The granule of a beat's address (R205). -/
def granuleOf (a : Nat) : Nat := a / 512 % 4096

/-- The beat `i` of a burst from address `a` stays in the bank of `a` (R206). -/
def beatAddr (a i : Nat) : Nat := a / 2 ^ 17 % 16 * 2 ^ 17 + (rowOf a + i) % 8192 * 16

/-- The granule is primed (R218): its written mask is full, or everything was primed by kindling. -/
def Gallery.primed (x : Gallery) (k : Nat) : Bool :=
  x.allPrimed || decide (tabGet 0 x.granules k = 0xFFFFFFFF)

/-- Records a written beat in the mask of its granule (R218). -/
def markWritten (a : Nat) (x : Gallery) : Gallery :=
  if x.allPrimed then x
  else { x with granules := tabMod 0 x.granules (granuleOf a) (fun m => putBit m (a / 16 % 32) true) }

/-- Stores one beat of 16 bytes with sound check bits (R217). -/
def putBeat (a : Nat) (b : List Byte) (x : Gallery) : Gallery :=
  markWritten a { x with mem := memWrite x.mem a ((b ++ List.replicate 16 0).take 16)
                         memBad := tabClear x.memBad (a / 8) 2 }

/-- The bank without a burst of a requester that `p` picks. -/
def Bank.without (p : Nat → Bool) (b : Bank) : Bank :=
  match b.burst with
  | some (r, _, _) => if p r then { b with burst := none } else b
  | none => b

/-- Keeps the larger of a recorded maximum and a new value, with the requester it belongs to (Table 12.3). -/
def noteMax (n v req : Nat) (s : State) : State :=
  let v := min v 0xFFFFFF
  if bits (s.parN n) 23 0 < v then s.putPar n (wd (v + 2 ^ 24 * req)) else s

/-- The bursts of a gallery's requesters that `p` picks end: their banks are free, and their occupancy is recorded. -/
def releaseBursts (g : Nat) (p : Nat → Bool) (s : State) : State :=
  let s := (s.gal g).banks.foldl (fun s b =>
    match b.2.burst with
    | some (r, first, _) => if p r then noteMax (galP g 0x9B) (s.clk.cyc + 1 - first) r s else s
    | none => s) s
  s.modGal g (fun x =>
    { x with banks := (x.banks.map (fun b => (b.1, b.2.without p))).filter (fun b => decide (b.2 ≠ Bank.reset)) })

/-- The taps of the outgoing plane end (R169): waiting requests are withdrawn, discarded loads finish at the bank, open
stores end at the beat boundary. -/
def cutTaps (g : Nat) (s : State) : State :=
  let x := s.gal g
  let c := x.tapQ.foldl (fun (a : List (Nat × List Word) × Nat) t =>
    let r := cutTap t.2
    (a.1 ++ r.1, a.2 + r.2)) ([], 0)
  let stores := x.tapQ.filterMap (fun t => if t.2.any (fun q => q.granted && !q.load) then some t.1 else none)
  let s := (releaseBursts g (fun r => stores.contains r) s).modGal g (fun x =>
    let x := { x with
      tapQ := []
      requests := x.requests.map (fun q =>
        if q.requester < 32 && q.withdrawn.isNone then { q with withdrawn := some (s.clk.cyc + 1) } else q) }
    if s.kin.writeEn then c.1.foldl (fun x b => putBeat (beatAddr b.1 0) (bytesOf b.2) x) x else x)
  if c.2 = 0 then s else s.count (galP g 0x79) c.2

/-- Cancels the running assay segments of a gallery (R397). -/
def cancelSegments (x : Gallery) : Gallery :=
  { x with hearths := (x.hearths.map (fun h => (h.1, { h.2 with running := false }))).filter (fun h =>
      decide (h.2 ≠ HearthTest.reset)) }

/-- The plane of `switchTo` becomes active (R157, R166, R169): done between two cycles. -/
def switchNow (g : Nat) (s : State) : State :=
  match (s.gal g).switchTo with
  | none => s
  | some (p, c) =>
    let s := cutTaps g s
    s.modGal g (fun x =>
      let x := cancelSegments { x with planes := tabMod Plane.reset x.planes x.active (fun q =>
        { q with stamp := s.clk.cyc, drain := 12, usedCyc := s.clk.cyc }) }
      { x with
        planes := tabMod Plane.reset x.planes p (fun q => { q with unused := false })
        active := p, activeCtx := c, self := [], switchTo := none, demand := none
        seq := match x.seq.st with
          | .switchStall _ => { x.seq with st := .issuing, pc := x.seq.pc + 1 }
          | _ => x.seq })

/-- SWITCH of context `c` at the sequencer (R166–R168). -/
def switchCtx (g c : Nat) (s : State) : State :=
  let x := s.gal g
  if !(x.desc c).defined then ctxFault g 1 c 0 s
  else match x.planeOf c with
    | some p => if p = x.active then s else s.modGal g (fun x => { x with switchTo := some (p, c) })
    | none =>
      s.modGal g (fun x =>
        { x with demand := some c
                 prefetch := x.prefetch.filter (fun k => !decide (k = c))
                 engine := x.engine.map (fun t => if t.fill && decide (t.ctx = c) then { t with demand := true } else t)
                 seq := { x.seq with st := .switchStall c } })

/-- Reads of the context store (R173): the words of the slot that are upset. -/
def slotUpsets (x : Gallery) (c : Nat) : List (Nat × Decay) :=
  x.storeBad.filter (fun p => decide (2048 * c ≤ p.1 ∧ p.1 < 2048 * (c + 1)))

/-- Starts a fill of context `c` into plane `p`: the slot's corrected words are counted, the first uncorrectable one is
noted (R173). -/
def startFill (g p c : Nat) (demand : Bool) (s : State) : State :=
  let s := evictFor g p c s
  let bad := slotUpsets (s.gal g) c
  let fatal := bad.find? (fun q => decide (q.2 = .fatal))
  let s := s.count (galP g 0x7A) (bad.filter (fun q => decide (q.2 = .corrected))).length
  s.modGal g (fun x =>
    { x with engine := some { fill := true, plane := p, ctx := c, demand := demand, since := s.clk.cyc,
                              bad := fatal.map (fun q => (q.1 - 2048 * c) * 8) }
             prefetch := if demand then x.prefetch else x.prefetch.filter (fun k => !decide (k = c)) })

/-- Starts the spill of plane `p`; a live accumulator that the context does not declare is lost (R164). -/
def startSpill (g p c : Nat) (s : State) : State :=
  let x := s.gal g
  let s := if decide ((x.plane p).accLive ≠ 0) && !(x.desc c).accUse then s.count (galP g 0x78) 1 else s
  s.modGal g (fun x =>
    { x with engine := some { fill := false, plane := p, ctx := c, demand := false, since := s.clk.cyc, bad := none } })

/-- Work for context `c`: its victim's spill when needed, else its fill; nothing while no plane qualifies (R159,
R165). -/
def engineWork (g c : Nat) (demand : Bool) (s : State) : State :=
  let x := s.gal g
  match x.victim with
  | none => s
  | some p =>
    match (x.plane p).ctx with
    | some old => if (x.plane p).mustSpill then startSpill g p old s else startFill g p c demand s
    | none => startFill g p c demand s

/-- Records what the transfer's reads meet in the context store (R173). -/
def noteStore (g : Nat) (ups : List Upset) (s : State) : State :=
  s.modGal g (fun x =>
    { x with storeBad := ups.foldl (fun t u =>
        tabSet .sound t u.word (if u.fatal then .fatal else .corrected)) x.storeBad })

end Sys2Proof.Machine
end

