-- ==== Sys2Proof/Machine/Banks.lean ====
section
/-!
DEFINITION. Stream memory and bank arbitration (chapter 12), with the memory march of assay (R399–R402).
-/

namespace Sys2Proof.Machine

/-- The march has an element open on the beat at address `a` (R400). -/
def Gallery.marchOn (x : Gallery) (a : Nat) : Bool :=
  decide (0 < x.march.step) && decide (x.march.bank = bankOf a ∧ x.march.row = rowOf a)

/-- The check state of the two words of a beat: fatal when either is (R217). -/
def Gallery.beatDecay (x : Gallery) (a : Nat) : Decay :=
  let p := tabGet .sound x.memBad (a / 8)
  let q := tabGet .sound x.memBad (a / 8 + 1)
  if p = .fatal ∨ q = .fatal then .fatal else if p = .corrected ∨ q = .corrected then .corrected else .sound

/-- How many words of a beat a read corrects. -/
def Gallery.beatCorrected (x : Gallery) (a : Nat) : Nat :=
  (if tabGet Decay.sound x.memBad (a / 8) = .corrected then 1 else 0) +
    (if tabGet Decay.sound x.memBad (a / 8 + 1) = .corrected then 1 else 0)

/-- The read of the beat returns zero words without reading the array: its granule is unprimed and its mask bit 0
(R219). -/
def Gallery.unwritten (x : Gallery) (a : Nat) : Bool :=
  !x.primed (granuleOf a) && !hasBit (tabGet 0 x.granules (granuleOf a)) (a / 16 % 32)

/-- GAL_BANK_ECCk: [15:0] corrected, [31:16] uncorrectable, each saturating (Table 18.4). -/
def countBankEcc (g b corr fatal : Nat) (s : State) : State :=
  let v := s.parN (galP g (0x20 + b))
  s.putPar (galP g (0x20 + b)) (wd (min 65535 (bits v 15 0 + corr) + 65536 * min 65535 (bits v 31 16 + fatal)))

/-- An uncorrectable word met by a reader (R217): counted, reported, and the gallery marked dead when its policy says
so. -/
def eccFatal (g a req : Nat) (s : State) : State :=
  faultPolicy g 1
    ((countBankEcc g (bankOf a) 0 1 (s.count (galP g 0x96) 1)).raiseGal g 5
      ([BitVec.ofNat 8 (bankOf a), BitVec.ofNat 8 req] ++ leBytes 2 (rowOf a)))

/-- What a read of a beat gives: its bytes, whether a word is uncorrectable, and whether it was unprimed. -/
structure BeatRead where
  data     : List Byte
  fatal    : Bool
  unprimed : Bool
  deriving DecidableEq, Repr

/-- The data of the beat at address `a`: zeros when unprimed, the assay buffer under an open element, else the array
(R219, R400). -/
def Gallery.beatData (x : Gallery) (a : Nat) : BeatRead :=
  if x.unwritten a then { data := List.replicate 16 0, fatal := false, unprimed := true }
  else if x.marchOn a then { data := x.march.buffer, fatal := false, unprimed := false }
  else { data := memRead x.mem a 16, fatal := decide (x.beatDecay a = .fatal), unprimed := false }

/-- The counts and events of a read of a beat by a requester (R217, R219). -/
def beatEffects (g a req : Nat) (s : State) : State :=
  let x := s.gal g
  if x.unwritten a then
    let s := s.count (galP g 0x97) 1
    if hasBit x.unprimedEv (bankOf a) then s
    else (s.modGal g (fun y => { y with unprimedEv := putBit y.unprimedEv (bankOf a) true })).raiseGal g 4
      [BitVec.ofNat 8 (bankOf a), BitVec.ofNat 8 (granuleOf a % 256), BitVec.ofNat 8 req]
  else if x.marchOn a then s
  else
    let s := if x.beatCorrected a = 0 then s
      else countBankEcc g (bankOf a) (x.beatCorrected a) 0 (s.count (galP g 0x95) (x.beatCorrected a))
    if x.beatDecay a = .fatal then eccFatal g a req s else s

/-- Reads one beat for a requester. -/
def readBeat (g a req : Nat) (s : State) : BeatRead × State := ((s.gal g).beatData a, beatEffects g a req s)

/-- A foreground write of the beat under an element abandons the element (R400). -/
def abandonOn (a : Nat) (x : Gallery) : Gallery :=
  if x.marchOn a then { x with march := { x.march with step := 0, retry := false, row := x.march.row } } else x

/-- Writes one beat; before write enable it is discarded without event (R89, R208). -/
def writeBeat (g a : Nat) (b : List Byte) (s : State) : State :=
  if s.kin.writeEn then s.modGal g (fun x => putBeat a b (abandonOn a x)) else s

/-- Reads `n` bytes in whole beats from address `a`; the address stays inside the 2 MiB. -/
def readBeats (g req : Nat) : Nat → Nat → State → List Byte × Bool × State
  | 0, _, s => ([], false, s)
  | n + 1, a, s =>
    match readBeat g a req s with
    | (r, s) => match readBeats g req n (a + 16) s with | (d, f, s) => (r.data ++ d, r.fatal || f, s)

/-- Writes bytes in whole beats from address `a`. -/
def writeBeats (g : Nat) : Nat → Nat → List Byte → State → State
  | 0, _, _, s => s
  | n + 1, a, b, s => writeBeats g n (a + 16) (b.drop 16) (writeBeat g a (b.take 16) s)

/-- The base priority of a requester (Table 12.3). -/
def State.basePrio (s : State) (g req : Nat) : Nat :=
  if req < 32 then fld (s.par (galP g (0x90 + req / 8))) (4 * (req % 8) + 2) (4 * (req % 8))
  else if req = 32 then fld (s.par (galP g 0x94)) 2 0
  else if req = 33 then fld (s.par (galP g 0x94)) 6 4
  else 0

/-- The effective priority: base plus losses, capped at 7; assay's is always 0 (R211, R213). -/
def State.effPrio (s : State) (g : Nat) (q : BankReq) : Nat :=
  if q.requester = 34 then 0 else min 7 (s.basePrio g q.requester + q.losses)

/-- The requests that a decision in cycle `d` sees: raised before `d`, not granted, not withdrawn before `d` (R209). -/
def Gallery.vector (x : Gallery) (b d : Nat) : List BankReq :=
  x.requests.filter (fun q => decide (q.bank = b ∧ q.raised < d) &&
    (match q.withdrawn with | none => true | some w => decide (d ≤ w)))

/-- The winner: the highest effective priority, ties to the lower index, assay only when alone (R211, R213). -/
def pickReq (s : State) (g : Nat) : List BankReq → Option BankReq
  | [] => none
  | q :: r =>
    match pickReq s g r with
    | none => some q
    | some w =>
      if q.requester = 34 then some w
      else if w.requester = 34 then some q
      else if s.effPrio g w < s.effPrio g q ∨ (s.effPrio g w = s.effPrio g q ∧ q.requester < w.requester) then some q
      else some w

/-- A tap's oldest waiting request of the burst is granted (R154, R155). -/
def grantTap : List TapReq → List TapReq
  | [] => []
  | q :: r => if q.granted then q :: grantTap r else { q with granted := true } :: r

/-- Grants request `q`: its burst holds the bank from the next cycle, and the wait is recorded (R209, Table 12.3). -/
def grantReq (g b : Nat) (q : BankReq) (s : State) : State :=
  let d := s.clk.cyc
  let s := noteMax (galP g 0x9A) (d + 1 - q.raised) q.requester s
  s.modGal g (fun x =>
    let x := { x with requests := x.requests.erase q }
    let k := x.bank b
    let x := x.setBank b { burst := some (q.requester, d + 1, q.beats),
                           park := if q.requester = 34 then k.park else some q.requester }
    if q.requester < 32 then x.setTap q.requester (grantTap (x.tap q.requester)) else x)

/-- The last beat of the bank's burst is transferred in this cycle: an ST beat when its words are complete (R212). -/
def Gallery.lastBeat (x : Gallery) (b d : Nat) : Bool :=
  match (x.bank b).burst with
  | none => true
  | some (r, first, n) =>
    decide (first ≤ d ∧ n = 1) &&
      (match (x.tap r).find? (fun q => q.granted && !q.load) with
       | some q => decide (r ≥ 32) || decide (4 ≤ q.words.length)
       | none => true)

/-- The bit errors a reading command meets are noted in the memory's check state. -/
def noteMem (g b : Nat) (ups : List Upset) (s : State) : State :=
  s.modGal g (fun x =>
    { x with memBad := ups.foldl (fun t u =>
        tabSet .sound t (b * 16384 + u.word % 16384) (if u.fatal then .fatal else .corrected)) x.memBad })

/-- BANK_DECISION (R209–R213): the owner of the next cycle, a stale grant, or a parked grant. -/
def execBankDecision (g b : Nat) (upsets : List Upset) (s : State) : Host.Outcome State Fault Refusal :=
  .next (
    let d := s.clk.cyc
    let s := noteMem g b upsets s
    let x := s.gal g
    if !(s.clocked && decide ((s.dom g).st = .on)) || !x.lastBeat b d then s
    else
      let v := x.vector b d
      match pickReq s g v with
      | some w =>
        let s := s.modGal g (fun x => { x with requests := x.requests.map (fun q =>
          if v.contains q && !decide (q = w) then { q with losses := q.losses + 1 } else q) })
        if w.withdrawn.isSome then
          (s.modGal g (fun x => { x with requests := x.requests.erase w })).count (galP g 0x99) 1
        else grantReq g b w s
      | none =>
        match (x.bank b).park with
        | none => s
        | some r =>
          match x.requests.find? (fun q => decide (q.bank = b ∧ q.requester = r ∧ q.raised = d) && q.withdrawn.isNone) with
          | some q => grantReq g b q s
          | none => s)

/-- The march moves on to the next beat (R399): ascending rows, then descending rows, then the next bank. -/
def marchNext (g : Nat) (s : State) : State :=
  let m := (s.gal g).march
  let put := fun (k : March) (s : State) => s.modGal g (fun x => { x with march := k })
  let m := { m with step := 0, retry := false, buffer := [] }
  if !m.down then
    (if m.row < 8191 then put { m with row := m.row + 1 } s else put { m with down := true } s)
  else if 0 < m.row then put { m with row := m.row - 1 } s
  else
    (put { m with down := false, bank := if m.bank < 15 then m.bank + 1 else 0,
                  doneAll := decide (15 ≤ m.bank) } s).tally 0x3A85 1

/-- The march goes on with the next bank without finishing this one (R406). -/
def marchSkip (g : Nat) (s : State) : State :=
  s.modGal g (fun x => { x with march :=
    { x.march with step := 0, retry := false, buffer := [], row := 0, down := false,
                   bank := if x.march.bank < 15 then x.march.bank + 1 else 0,
                   doneAll := decide (15 ≤ x.march.bank) } })

/-- A failure found by assay (R406): counted, recorded, reported, and the gallery marked dead when DEAD_ON_FAIL is
set. -/
def assayFail (kind g u : Nat) (data : List Byte) (s : State) : State :=
  let s := (s.count 0x3A83 1).putPar 0x3A87 (wd (kind + 256 * g + 65536 * u))
  let s := { s with assay := { s.assay with failed := true } }
  let s := if kind = 3 then s else
    let v := s.parN (galP g 0x34)
    (s.count (galP g 0x35) 1).putPar (galP g 0x34)
      (if kind = 1 then wd (bits v 1 1 * 2 + 1 + 256 * u + 65536 * bits v 19 16)
       else wd (bits v 0 0 + 2 + 256 * bits v 15 8 + 65536 * u))
  let s := s.raise (0xE7 + kind) data
  if decide (kind ≠ 3) && (s.par 0x3A80).getLsbD 1 then markDead g 4 s else s

/-- The address of the march's beat. -/
def March.addr (m : March) : Nat := m.bank * 2 ^ 17 + m.row * 16

/-- The march's next burst is requested in this cycle (R208). -/
def raiseMarch (x : Gallery) (cyc : Nat) : Gallery :=
  if x.raisedBy 34 then x
  else { x with requests := x.requests ++
    [{ bank := x.march.bank, requester := 34, raised := cyc, withdrawn := none, losses := 0, beats := 1 }] }

/-- One granted beat of the march: the step of its element (R399, R401). -/
def marchBeat (g : Nat) (s : State) : State :=
  let x := s.gal g
  let m := x.march
  let a := m.addr
  let again := fun (k : Nat) (s : State) =>
    s.modGal g (fun x => raiseMarch { x with march := { x.march with step := k } } s.clk.cyc)
  match m.step with
  | 0 =>
    if x.unwritten a then marchNext g s
    else
      let s := beatEffects g a 34 s
      if x.beatDecay a = .fatal then marchNext g s
      else again 1 (s.modGal g (fun x => { x with march := { x.march with buffer := memRead x.mem a 16 } }))
  | 1 =>
    again 2 (s.modGal g (fun x =>
      { x with mem := memWrite x.mem a (x.march.buffer.map (~~~ ·)), memBad := tabClear x.memBad (a / 8) 2 }))
  | 2 =>
    let bad := decide (x.beatDecay a ≠ .sound) || decide (memRead x.mem a 16 ≠ m.buffer.map (~~~ ·))
    again (if bad then 4 else 3) s
  | k =>
    let s := s.modGal g (fun x => { x with mem := memWrite x.mem a m.buffer, memBad := tabClear x.memBad (a / 8) 2 })
    if k = 3 then marchNext g s
    else if m.retry then
      let s := marchSkip g (s.modGal g (fun x => { x with bankFail := putBit x.bankFail m.bank true }))
      assayFail 2 g m.bank ([BitVec.ofNat 8 g, BitVec.ofNat 8 m.bank] ++ leBytes 2 m.row) s
    else s.modGal g (fun x => raiseMarch { x with march := { x.march with step := 0, retry := true } } s.clk.cyc)

/-- Assay may open an element in gallery g (R399, R402, R407). -/
def State.marchWants (s : State) (g : Nat) : Bool :=
  s.assay.inCycle && (s.par 0x3A80).getLsbD 0 && !(s.par 0x3A80).getLsbD 3 && s.user && s.galOn g &&
    !s.damping g && !s.halted g && !(s.gal g).march.doneAll

/-- The march asks for its next beat; excluded banks and beats that read as zero are passed over (R399, R406). -/
def marchCycle (g : Nat) (s : State) : State :=
  let x := s.gal g
  if x.march.step ≠ 0 ∨ x.raisedBy 34 ∨ x.bursting 34 then s
  else if !s.marchWants g then s
  else if hasBit x.bankFail x.march.bank then marchSkip g s
  else if x.unwritten x.march.addr then marchNext g s
  else s.modGal g (fun x => raiseMarch x (s.clk.cyc + 1))

/-- One beat of a tap's granted burst is transferred, when it can be (R154, R155, R206). -/
def tapBeat (g t : Nat) (s : State) : Bool × State :=
  let l := (s.gal g).tap t
  match l.find? (fun q => q.granted && decide (q.done < q.beats)) with
  | none => (true, s)
  | some q =>
    let put := fun (q' : TapReq) (s : State) =>
      s.modGal g (fun x => x.setTap t ((x.tap t).map (fun r => if r = q then q' else r)))
    if q.load then
      let r := readBeat g (beatAddr q.addr q.done) t s
      (true, put { q with done := q.done + 1,
                          wait := if q.done = 0 then 5 else q.wait,
                          words := q.words ++ (wordsOf r.1.data).map (fun w => (w, r.1.unprimed)) } r.2)
    else if 4 ≤ q.words.length then
      let s := writeBeat g (beatAddr q.addr q.done) (bytesOf ((q.words.take 4).map (·.1))) s
      if q.done + 1 = q.beats then (true, s.modGal g (fun x => x.setTap t ((x.tap t).filter (fun r => !decide (r = q)))))
      else (true, put { q with done := q.done + 1, words := q.words.drop 4 } s)
    else (false, s)

/-- One cycle of bank `b` under its burst: a beat is transferred, the watchdog's count returns to 0 (R192), and after
the last beat the occupancy is recorded (Table 12.3). -/
def bankBeat (g b : Nat) (s : State) : State :=
  match ((s.gal g).bank b).burst with
  | none => s
  | some (r, first, n) =>
    if s.clk.cyc < first then s
    else
      let p := if r < 32 then tapBeat g r s else if r = 34 then (true, marchBeat g s) else (true, s)
      if !p.1 then p.2
      else
        let s := (p.2.modSeq g (fun q => { q with wdog := 0 })).tally64 (galP g 0x9C) 1
        if n ≤ 1 then
          let s := noteMax (galP g 0x9B) (s.clk.cyc + 1 - first) r s
          s.modGal g (fun x => x.setBank b { x.bank b with burst := none })
        else s.modGal g (fun x => x.setBank b { x.bank b with burst := some (r, first, n - 1) })

/-- One core cycle of the banks of gallery g (R209: banks and arbiters run on every core cycle). -/
def bankCycle (g : Nat) (s : State) : State :=
  let s := ((s.gal g).banks.map (·.1)).foldl (fun s b => bankBeat g b s) s
  let s := marchCycle g s
  s.modGal g (fun x =>
    x.tapQ.foldl (fun x t => raiseTap (s.clk.cyc + 1) t.1 x) { x with
      requests := x.requests.filter (fun q =>
        match q.withdrawn with | none => true | some w => decide (s.clk.cyc < w)) })

end Sys2Proof.Machine
end

