-- ==== Sys2Proof/Machine/Flows.lean ====
section
/-!
DEFINITION. Single host writes, and the GT flows of the mesh (R229–R233): their parameters, the outputs and slots they
own, the commit and the release.
-/

namespace Sys2Proof.Machine

/-- A single host write of parameter `n` that starts an action (R323): refused before user mode (R97), when the number is
not defined or its unit is absent (R318), else with the status of the action. -/
def hostEntry (n : Nat) (act : State → Nat × State) (s : State) : State :=
  let r :=
    if !s.clocked || (!s.user && decide (n ≠ 0x22)) then (stNotReady, s)
    else match paramInfo n with
      | none => (stNoParam, s)
      | some _ => if paramAbsent s.variant n then (stAbsent, s) else act s
  { r.2 with lamp := { r.2.lamp with entryStatus := r.1 } }

/-- The number of parameter `k` of flow `f` (Table 13.5). -/
def flowP (f k : Nat) : Nat := 0x3100 + 4 * f + k

/-- The source local port of a flow: x, y, port. -/
def State.flowSrc (s : State) (f : Nat) : Nat × Nat × Nat :=
  let v := s.par (flowP f 0)
  (fld v 2 0, fld v 5 3, fld v 6 6)

/-- The destination local port of a flow. -/
def State.flowDst (s : State) (f : Nat) : Nat × Nat × Nat :=
  let v := s.par (flowP f 0)
  (fld v 10 8, fld v 13 11, fld v 14 14)

/-- The windows of a flow: start slot and length (R230). -/
def State.flowWindows (s : State) (f : Nat) : List (Nat × Nat) :=
  let v := s.par (flowP f 1)
  (fld v 5 0, fld v 10 6) :: (if fld v 26 22 = 0 then [] else [(fld v 21 16, fld v 26 22)])

/-- The flow is enabled. -/
def State.flowOn (s : State) (f : Nat) : Bool := (s.par (flowP f 2)).getLsbD 0

/-- The flow's slots are reserved: from its commit to the slot frame after its release (R231). -/
def State.flowActive (s : State) (f : Nat) : Bool := (s.par (flowP f 2)).getLsbD 1

/-- The mesh outputs from (x, y) to (dx, dy), first in X and then in Y (R227): node and direction 0 toward lower y,
1 higher x, 2 higher y, 3 lower x (Table 18.6). -/
def pathFrom : Nat → Nat → Nat → Nat → Nat → List (Nat × Nat)
  | 0, _, _, _, _ => []
  | n + 1, x, y, dx, dy =>
    if x < dx then (6 * y + x, 1) :: pathFrom n (x + 1) y dx dy
    else if dx < x then (6 * y + x, 3) :: pathFrom n (x - 1) y dx dy
    else if y < dy then (6 * y + x, 2) :: pathFrom n x (y + 1) dx dy
    else if dy < y then (6 * y + x, 0) :: pathFrom n x (y - 1) dx dy
    else []

/-- The links crossed from one node to another; no path crosses more than nine. -/
def meshPath (x y dx dy : Nat) : List (Nat × Nat) := pathFrom 9 x y dx dy

/-- The outputs of a flow's path, the destination's local output last as direction 4 + port (R230). -/
def State.flowOutputs (s : State) (f : Nat) : List (Nat × Nat) :=
  let a := s.flowSrc f
  let b := s.flowDst f
  meshPath a.1 a.2.1 b.1 b.2.1 ++ [(6 * b.2.1 + b.1, 4 + b.2.2)]

/-- The slots that windows starting at the source own at output `k`: (s + 3k + i) mod 64 (R230). -/
def windowSlots (ws : List (Nat × Nat)) (k : Nat) : List Nat :=
  ws.flatMap (fun w => (List.range w.2).map (fun i => (w.1 + 3 * k + i) % 64))

/-- Every output and slot that a flow owns. -/
def State.flowSlots (s : State) (f : Nat) : List ((Nat × Nat) × Nat) :=
  (s.flowOutputs f).zipIdx.flatMap (fun o => (windowSlots (s.flowWindows f) o.2).map (fun t => (o.1, t)))

/-- A local port is absent (R24). -/
def State.absentAt (s : State) (x y k : Nat) : Bool :=
  match targetAt x y k with
  | .gal g => !s.variant.hasGal g
  | .port p => !s.variant.hasPort p
  | _ => false

/-- A local port belongs to a dead unit (R238). -/
def State.deadAt (s : State) (x y k : Nat) : Bool :=
  match targetAt x y k with
  | .gal g => s.isDead g
  | .port p => s.isDead (16 + p)
  | _ => false

/-- The checks of a commit in their order (R231). -/
def State.flowCheck (s : State) (f : Nat) : Nat :=
  let a := s.flowSrc f
  let b := s.flowDst f
  let ws := s.flowWindows f
  if decide (targetAt a.1 a.2.1 a.2.2 = .nothing) || decide (targetAt b.1 b.2.1 b.2.2 = .nothing) ||
      ws.any (fun w => decide (w.2 < 1 ∨ 17 < w.2)) || !decide (windowSlots ws 0).Nodup || decide (a = b) then stRange
  else if s.absentAt a.1 a.2.1 a.2.2 || s.absentAt b.1 b.2.1 b.2.2 then stAbsent
  else if s.deadAt a.1 a.2.1 a.2.2 || s.deadAt b.1 b.2.1 b.2.2 then stDead
  else if (List.range 128).any (fun e =>
      decide (e ≠ f) && s.flowActive e && (s.flowSlots e).any (fun t => (s.flowSlots f).contains t)) then stConflict
  else stSuccess

/-- A write of NOC_FLOW_CTRL (R231): 1 commits, and a refusal leaves the flow disabled with the status recorded; 0
releases the slots from the next slot frame. -/
def writeFlowCtrl (f : Nat) (v : Word) (s : State) : Nat × State :=
  if v.getLsbD 0 then
    if s.flowOn f then (stSuccess, s)
    else
      let st := s.flowCheck f
      (st, s.putPar (flowP f 2) (if st = 0 then 3 else wd (flag (s.flowActive f) 1 + 256 * st)))
  else if s.flowOn f then (stSuccess, s.putPar (flowP f 2) (s.par (flowP f 2) &&& ~~~1#32))
  else (stSuccess, s)

/-- At a slot frame the slots of released flows are free (R231). -/
def endSlotFrame (s : State) : State :=
  (List.range 128).foldl (fun s f =>
    if s.flowActive f && !s.flowOn f then s.putPar (flowP f 2) (s.par (flowP f 2) &&& ~~~2#32) else s) s

/-- FLOW_COMMIT (R231): a host write of NOC_FLOW_CTRL with ENABLE 1. -/
def execFlowCommit (f : Nat) (v : Word) (s : State) : Host.Outcome State Fault Refusal :=
  .next (if v.getLsbD 0 && decide (f < 128) then hostEntry (flowP f 2) (writeFlowCtrl f v) s else s)

/-- FLOW_RELEASE (R231): a host write of NOC_FLOW_CTRL with ENABLE 0. -/
def execFlowRelease (f : Nat) (v : Word) (s : State) : Host.Outcome State Fault Refusal :=
  .next (if !v.getLsbD 0 && decide (f < 128) then hostEntry (flowP f 2) (writeFlowCtrl f v) s else s)

/-- The source and destination of a packet are those of flow `f`, which is enabled (R232). -/
def State.flowTakes (s : State) (f : Nat) (p : Packet) : Bool :=
  s.flowOn f && decide (s.flowSrc f = (p.sx, p.sy, p.sport)) && decide (s.flowDst f = (p.dx, p.dy, p.dport))

/-- The packet with the first enabled flow that matches its ends, for a source that names none (R232). -/
def withFlow (s : State) (p : Packet) : Packet :=
  if p.gt then { p with flow := (firstBelow 128 (fun f => s.flowTakes f p)).getD p.flow } else p

/-- The units of a packet, header included (R233). -/
def unitsOf (p : Packet) : Nat := 1 + (if p.cmd = 1 then 0 else p.len)

/-- Cycles until the next start of a window. -/
def State.untilWindow (s : State) (w : Nat × Nat) : Nat := (w.1 + 64 - s.clk.tick.toNat % 64) % 64

/-- The windows of a flow in the order in which they next start. -/
def State.nextWindows (s : State) (f : Nat) : List (Nat × Nat) :=
  match s.flowWindows f with
  | [a, b] => if s.untilWindow b < s.untilWindow a then [b, a] else [a, b]
  | l => l

/-- Packets of a flow that wait for a window. -/
def State.flowWaiting (s : State) (f : Nat) : Nat :=
  (s.mesh.gtWait.filter (fun q => decide (q.pkt.flow = f))).length

/-- The packet conforms: it matches its enabled flow, and the window it would use holds it (R232). -/
def State.conforms (s : State) (p : Packet) : Bool :=
  let ws := s.nextWindows p.flow
  s.flowTakes p.flow p && decide (unitsOf p ≤ (ws.getD (s.flowWaiting p.flow % ws.length) (0, 0)).2)

/-- NOC_DEAD_SET (R238): marks every named unit of this variant with cause 7. -/
def writeDeadSet (v : Word) (s : State) : Nat × State :=
  (stSuccess, (setBits 32 v.toNat).foldl (fun s t =>
    if (if t < 16 then s.variant.hasGal t else s.variant.hasPort (t - 16)) then markDead t 7 s else s) s)

/-- NOC_DEAD_CLEAR (R239): releases every named unit that is dead. -/
def writeDeadClear (v : Word) (s : State) : Nat × State :=
  (stSuccess, (setBits 32 v.toNat).foldl (fun s t =>
    if s.isDead t then
      ({ s with mesh := { s.mesh with dead := putBit s.mesh.dead t false } } : State).raise 0xC2 [BitVec.ofNat 8 t]
    else s) s)

/-- NOC_DEAD_SET, a host write. -/
def execNocDeadSet (v : Word) (s : State) : Host.Outcome State Fault Refusal :=
  .next (hostEntry 0x3011 (writeDeadSet v) s)

/-- NOC_DEAD_CLEAR, a host write. -/
def execNocDeadClear (v : Word) (s : State) : Host.Outcome State Fault Refusal :=
  .next (hostEntry 0x3012 (writeDeadClear v) s)

end Sys2Proof.Machine
end

