-- ==== Sys2Proof/Machine/Assay.lean ====
section
/-!
DEFINITION. Assay, the in-service test (chapter 23): hearth segments, link units, the end of a cycle, start and stop.
The memory march runs in the banks (Machine/Banks.lean).
-/

namespace Sys2Proof.Machine

/-- The segments of a full hearth test (R398). -/
def State.segments (s : State) (h : Nat) : Nat := if s.variant.hasDiv && decide (h / 8 % 4 = 3) then 42 else 38

/-- Hearth `h` of gallery g in assay. -/
def State.hearthTest (s : State) (g h : Nat) : HearthTest := tabGet HearthTest.reset (s.gal g).hearths h

/-- Changes the assay progress of a hearth. -/
def modHearth (g h : Nat) (f : HearthTest → HearthTest) (s : State) : State :=
  s.modGal g (fun x => { x with hearths := tabMod HearthTest.reset x.hearths h f })

/-- ASSAY_CTRL bit `i`. -/
def State.assayCtrl (s : State) (i : Nat) : Bool := (s.par 0x3A80).getLsbD i

/-- Assay runs (R407). -/
def State.assayOn (s : State) : Bool := s.user && s.assay.inCycle && s.assayCtrl 0

/-- The hearth's test is wanted and not complete. -/
def State.hearthWanted (s : State) (g h : Nat) : Bool :=
  !s.assayCtrl 2 && s.galOn g && !(s.hearthTest g h).excluded && decide ((s.hearthTest g h).done < s.segments h)

/-- The hearth has a window (R396): the active plane's OP is IDLE, or the sequencer waits for 16 more enabled cycles. -/
def State.window (s : State) (g h : Nat) : Bool :=
  let x := s.gal g
  decide ((x.record x.active h).op = 0) ||
    (match x.seq.st with | .waiting n => decide (16 ≤ n) && !x.seq.damped | _ => false)

/-- ASSAY_SEGMENT_START (R396): the hearth's next segment starts in a window. -/
def execAssaySegmentStart (g h : Nat) (s : State) : Host.Outcome State Fault Refusal :=
  .next (
    if s.assayOn && s.live g && decide (h < 128) && s.hearthWanted g h && !(s.hearthTest g h).running && s.window g h then
      modHearth g h (fun t => { t with running := true, plane := (s.gal g).active }) s
    else s)

/-- ASSAY_SEGMENT_DONE (R398): the segment has matched, or has mismatched once, or twice in a row (R406). -/
def execAssaySegmentDone (g h : Nat) (matched : Bool) (s : State) : Host.Outcome State Fault Refusal :=
  .next (
    let t := s.hearthTest g h
    if !s.clocked || !t.running then s
    else if matched then
      let s' := modHearth g h (fun t => { t with running := false, retry := false, done := t.done + 1 }) s
      if t.done + 1 = s.segments h then s'.tally 0x3A84 1 else s'
    else if t.retry then
      assayFail 1 g h [BitVec.ofNat 8 g, BitVec.ofNat 8 h, BitVec.ofNat 8 t.plane]
        (modHearth g h (fun t => { t with running := false, retry := false, excluded := true }) s)
    else modHearth g h (fun t => { t with running := false, retry := true }) s)

/-- A link leaves node `n` in direction `d`: 0 lower y, 1 higher x, 2 higher y, 3 lower x (R403, Table 18.6). -/
def linkExists (n d : Nat) : Bool :=
  decide (n < 30) &&
    (match d with
     | 0 => decide (0 < n / 6)
     | 1 => decide (n % 6 < 5)
     | 2 => decide (n / 6 < 4)
     | 3 => decide (0 < n % 6)
     | _ => false)

/-- The link direction is to be tested in this cycle of assay. -/
def State.linkWanted (s : State) (n d : Nat) : Bool :=
  !s.assayCtrl 4 && linkExists n d && !s.assay.linkFail.contains (4 * n + d) &&
    decide (tabGet 0 s.assay.links (4 * n + d) < 578)

/-- An enabled GT flow owns this cycle's slot at the output (R230). -/
def State.slotOwned (s : State) (n d : Nat) : Bool :=
  (List.range 128).any (fun f => s.flowOn f && (s.flowSlots f).contains ((n, d), s.clk.tick.toNat % 64))

/-- ASSAY_LINK_UNIT (R403): a test unit sent in an unused slot has arrived right or wrong. -/
def execAssayLinkUnit (n d : Nat) (arrived : Bool) (s : State) : Host.Outcome State Fault Refusal :=
  .next (
    let k := 4 * n + d
    if !s.clocked || !s.assayOn || !s.linkWanted n d || s.slotOwned n d then s
    else if arrived then
      let s' := { s with assay := { s.assay with
        links := tabMod 0 s.assay.links k (· + 1), linkRetry := s.assay.linkRetry.filter (fun x => !decide (x = k)) } }
      if tabGet 0 s.assay.links k = 577 then s'.tally 0x3A86 1 else s'
    else if s.assay.linkRetry.contains k then
      assayFail 3 n d [BitVec.ofNat 8 n, BitVec.ofNat 8 d]
        { s with assay := { s.assay with
            linkFail := s.assay.linkFail ++ [k], linkRetry := s.assay.linkRetry.filter (fun x => !decide (x = k)) } }
    else { s with assay := { s.assay with linkRetry := s.assay.linkRetry ++ [k] } })

/-- The banks of gallery g that this cycle of assay still has to march. -/
def State.banksLeft (s : State) (g : Nat) : Nat :=
  let x := s.gal g
  if s.assayCtrl 3 || !s.galOn g || x.march.doneAll then 0
  else countBelow 16 (fun b => decide (x.march.bank ≤ b) && !hasBit x.bankFail b)

/-- Units still to test in this cycle: hearths, banks and link directions. -/
def State.unitsLeft (s : State) : Nat :=
  s.galList.foldl (fun a g => a + countBelow 128 (s.hearthWanted g) + s.banksLeft g) 0 +
    countBelow 120 (fun k => s.linkWanted (k / 4) (k % 4))

/-- Closes an open element of the march: the true data goes back (R399, R407: note 40, DEDUCED). -/
def closeElement (x : Gallery) : Gallery :=
  let m := x.march
  { x with
    mem := if 2 ≤ m.step then memWrite x.mem m.addr m.buffer else x.mem
    requests := x.requests.filter (fun q => !decide (q.requester = 34))
    march := March.reset }

/-- A new assay cycle starts: progress from the beginning, exclusions kept (R407). -/
def startAssay (s : State) : State :=
  let s := { s with assay := { s.assay with inCycle := true, start := s.clk.cyc, links := [], linkRetry := [] } }
  s.galList.foldl (fun s g => s.modGal g (fun x =>
    closeElement { x with hearths := tabBlock HearthTest.reset [] 0 128 (fun h =>
      { HearthTest.reset with excluded := (tabGet HearthTest.reset x.hearths h).excluded }) })) s

/-- Assay stops at once: segments end without effect, an open element still completes (R407). -/
def stopAssay (s : State) : State :=
  let s := { s with assay := { s.assay with inCycle := false } }
  s.galList.foldl (fun s g => s.modGal g cancelSegments) s

/-- A write of ASSAY_CTRL (R407); before user mode it only sets the parameter. -/
def writeAssayCtrl (v : Word) (s : State) : Nat × State :=
  let s := s.putPar 0x3A80 (v &&& 0x1F#32)
  (stSuccess, if !s.user then s else if v.getLsbD 0 then startAssay s else stopAssay s)

/-- ASSAY_CYCLE_DONE (R407): every unit that can be reached has been tested; the next cycle starts. -/
def execAssayCycleDone (s : State) : Host.Outcome State Fault Refusal :=
  .next (
    if !s.clocked || !s.assayOn || decide (s.unitsLeft ≠ 0) then s
    else
      let n := s.clk.cyc - s.assay.start
      startAssay ((s.putPar 0x3A82 (wd (n / 1000))).raise 0xEB (leBytes 4 ((n + 999999) / 1000000))))

/-- ASSAY_ENABLE (R407): a host write of ASSAY_CTRL with ENABLE 1. -/
def execAssayEnable (v : Word) (s : State) : Host.Outcome State Fault Refusal :=
  .next (if v.getLsbD 0 then hostEntry 0x3A80 (writeAssayCtrl v) s else s)

/-- ASSAY_DISABLE (R407): a host write of ASSAY_CTRL with ENABLE 0. -/
def execAssayDisable (v : Word) (s : State) : Host.Outcome State Fault Refusal :=
  .next (if v.getLsbD 0 then s else hostEntry 0x3A80 (writeAssayCtrl v) s)

end Sys2Proof.Machine
end

