-- ==== Sys2Proof/Machine/Switches.lean ====
section
/-!
DEFINITION. Gallery switches and word routing (chapter 11): the switch record, one cycle of word movement, the edge
lanes and the egress packets (R234).
-/

namespace Sys2Proof.Machine

/-- A switch record (Table 11.2). -/
structure SwitchRec where
  nsel   : Nat
  esel   : Nat
  ssel   : Nat
  wsel   : Nat
  tsel   : List Nat
  rdrv   : Nat
  cdrv   : Nat
  rjoint : Nat
  cjoint : Nat
  edge   : Nat
  deriving DecidableEq, Repr

/-- Reads the fields of a switch record from its bytes (R196). -/
def SwitchRec.ofBytes (l : List Byte) : SwitchRec :=
  let a := leAt l 0 4
  let b := leAt l 4 4
  let c := leAt l 8 4
  { nsel := bits a 2 0, esel := bits a 5 3, ssel := bits a 8 6, wsel := bits a 11 9,
    tsel := [bits a 20 16, bits a 25 21, bits a 30 26, bits b 4 0],
    rdrv := bits b 8 5, cdrv := bits b 12 9, rjoint := bits b 31 16, cjoint := bits c 15 0, edge := bits c 19 16 }

/-- The switch record of hearth `h` in plane `p` (Table 6.5: 16 bytes at 0x1000 + 16 × h of the region). -/
def Gallery.switchRec (x : Gallery) (p h : Nat) : SwitchRec :=
  SwitchRec.ofBytes (memRead x.planeCfg (cfgSize * p + 0x1000 + 16 * h) 16)

/-- The switch record of hearth `h` in the active plane (R200). -/
def Gallery.routing (x : Gallery) (h : Nat) : SwitchRec := x.switchRec x.active h

/-- The joint code for track `t` in a joint field: 0 open, 1 eastward or southward, 2 westward or northward. -/
def jointCode (field t : Nat) : Nat := bits field (2 * t + 1) (2 * t)

/-- The register of the row joint east of column 4j + 3, row r, track t. -/
def rowJoint (r t j : Nat) : Nat := 1024 + (r * 8 + t) * 3 + j

/-- The register of the column joint south of row 3, column c, track t. -/
def colJoint (c t : Nat) : Nat := 1216 + c * 8 + t

/-- The words that reach a row-track segment in a cycle, in the order of R202: its own drivers, the joint from the
lower segment, the joint from the higher one. -/
def Gallery.rowReach (x : Gallery) (r t k : Nat) : List TWord :=
  let edge := x.routing r
  let lane := if k = 0 ∧ bitOf edge.edge 3 ∧ bits edge.edge 2 0 = t then
      (match tabGet none x.edgeIn r with | some w => [{ word := w, tag := x.active : TWord }] | none => [])
    else []
  let own := (List.range 4).filterMap (fun i =>
    let h := (4 * k + i) * 8 + r
    let q := x.routing h
    if bitOf q.rdrv 3 && decide (bits q.rdrv 2 0 = t) then tabGet none x.outs h else none)
  let low := if 0 < k ∧ jointCode (x.routing ((4 * k - 1) * 8 + r)).rjoint t = 1 then
      (x.wire (rowJoint r t (k - 1))).toList else []
  let high := if k < 3 ∧ jointCode (x.routing ((4 * k + 3) * 8 + r)).rjoint t = 2 then
      (x.wire (rowJoint r t k)).toList else []
  own ++ lane ++ low ++ high

/-- The words that reach a column-track segment in a cycle, in the order of R202. -/
def Gallery.colReach (x : Gallery) (c t k : Nat) : List TWord :=
  let own := (List.range 4).filterMap (fun i =>
    let h := c * 8 + 4 * k + i
    let q := x.routing h
    if bitOf q.cdrv 3 && decide (bits q.cdrv 2 0 = t) then tabGet none x.outs h else none)
  let low := if k = 1 ∧ jointCode (x.routing (c * 8 + 3)).cjoint t = 1 then (x.wire (colJoint c t)).toList else []
  let high := if k = 0 ∧ jointCode (x.routing (c * 8 + 3)).cjoint t = 2 then (x.wire (colJoint c t)).toList else []
  own ++ low ++ high

/-- The word a row segment carries (R202). -/
def Gallery.rowSeg (x : Gallery) (r t k : Nat) : Option TWord := (x.rowReach r t k).head?

/-- The word a column segment carries (R202). -/
def Gallery.colSeg (x : Gallery) (c t k : Nat) : Option TWord := (x.colReach c t k).head?

/-- The words discarded by collisions in one cycle (R202). -/
def Gallery.collisions (x : Gallery) : Nat :=
  (List.range 256).foldl (fun a i => a + ((x.rowReach (i / 32) (i / 4 % 8) (i % 4)).length - 1)) 0 +
    (List.range 256).foldl (fun a i => a + ((x.colReach (i / 16) (i / 2 % 8) (i % 2)).length - 1)) 0

/-- What a neighbour-output selector of hearth `h` carries (Table 11.2). -/
def Gallery.neighbour (x : Gallery) (h sel : Nat) : Option TWord :=
  if sel = 1 then tabGet none x.outs h
  else if 2 ≤ sel ∧ sel ≤ 5 then x.wire (4 * h + (sel - 2))
  else if sel = 6 then x.wire (512 + 4 * h)
  else none

/-- The word on neighbour input `d` (0 N, 1 E, 2 S, 3 W) of hearth `h` in the next cycle (R194). -/
def Gallery.nextNeighbour (x : Gallery) (h d : Nat) : Option TWord :=
  let c := h / 8
  let r := h % 8
  if d = 0 then (if 0 < r then x.neighbour (h - 1) (x.routing (h - 1)).ssel else none)
  else if d = 1 then (if c < 15 then x.neighbour (h + 8) (x.routing (h + 8)).wsel else none)
  else if d = 2 then (if r < 7 then x.neighbour (h + 1) (x.routing (h + 1)).nsel else none)
  else (if 0 < c then x.neighbour (h - 8) (x.routing (h - 8)).esel else none)

/-- The word on track input `n` of hearth `h` in the next cycle (Table 11.1). -/
def Gallery.nextTrack (x : Gallery) (h n : Nat) : Option TWord :=
  let v := (x.routing h).tsel.getD n 0
  if !bitOf v 4 then none
  else if bits v 3 0 < 8 then x.rowSeg (h % 8) (bits v 3 0) (h / 8 / 4)
  else x.colSeg (h / 8) (bits v 3 0 - 8) (h % 8 / 4)

/-- The word in a row-joint register in the next cycle. -/
def Gallery.nextRowJoint (x : Gallery) (r t j : Nat) : Option TWord :=
  match jointCode (x.routing ((4 * j + 3) * 8 + r)).rjoint t with
  | 1 => x.rowSeg r t j
  | 2 => x.rowSeg r t (j + 1)
  | _ => none

/-- The word in a column-joint register in the next cycle. -/
def Gallery.nextColJoint (x : Gallery) (c t : Nat) : Option TWord :=
  match jointCode (x.routing (c * 8 + 3)).cjoint t with
  | 1 => x.colSeg c t 0
  | 2 => x.colSeg c t 1
  | _ => none

/-- The word on wire `n` in the next cycle (Table 11.1). -/
def Gallery.nextWire (x : Gallery) (n : Nat) : Option TWord :=
  if n < 512 then x.nextNeighbour (n / 4) (n % 4)
  else if n < 1024 then x.nextTrack ((n - 512) / 4) ((n - 512) % 4)
  else if n < 1216 then x.nextRowJoint ((n - 1024) / 24) ((n - 1024) / 3 % 8) ((n - 1024) % 3)
  else x.nextColJoint ((n - 1216) / 8) ((n - 1216) % 8)

/-- The word on the egress segment of row `r` (Table 11.1). -/
def Gallery.egressWord (x : Gallery) (r : Nat) : Option TWord :=
  let e := (x.routing (120 + r)).edge
  if bitOf e 3 then x.rowSeg r (bits e 2 0) 3 else none

/-- The word that lane `r` passes: a stale word never leaves (R201). -/
def Gallery.egressLane (x : Gallery) (r : Nat) : Option Word :=
  match x.egressWord r with
  | some t => if t.tag = x.active then some t.word else none
  | none => none

/-- The two GAL_EGRESS words of egress flow `e` as written. -/
def State.egressSet (s : State) (g e : Nat) : Word × Word := (s.par (galP g (0xB0 + 2 * e)), s.par (galP g (0xB1 + 2 * e)))

/-- The two words in force: those of the packet being gathered, else those written (R322). -/
def State.egressCfg (s : State) (g e : Nat) : Word × Word :=
  if (tabGet [] (s.gal g).egress e).isEmpty then s.egressSet g e
  else (tabGet none (s.gal g).egressNow e).getD (s.egressSet g e)

/-- Egress flow `e` of gallery g is enabled (Table 13.5). -/
def State.egressOn (s : State) (g e : Nat) : Bool := (s.egressCfg g e).1.getLsbD 31

/-- The lane is in the mask of egress flow `e`. -/
def State.egressOwns (s : State) (g e r : Nat) : Bool := s.egressOn g e && (s.egressCfg g e).1.getLsbD r

/-- The data unit that egress flow `e` gathers in a cycle; none when no lane of its mask carries a word (R234). -/
def egressUnit (s : State) (g e : Nat) (lanes : List (Option Word)) : Option (List (Option Word)) :=
  let u := (List.range 8).map (fun r => if s.egressOwns g e r then lanes.getD r none else none)
  if u.any (·.isSome) then some u else none

/-- TRACK_WORD (R195, R202): every word of the gallery moves over its link, track segment or joint under the routing of
the active plane; what leaves on the egress lanes is gathered by the egress flows. -/
def execTrackWord (g : Nat) (s : State) : Host.Outcome State Fault Refusal :=
  .next (
    if !s.live g then s
    else
      let x := s.gal g
      let lanes := (List.range 8).map x.egressLane
      let stale := countBelow 8 (fun r => match x.egressWord r with | some t => decide (t.tag ≠ x.active) | none => false)
      let unowned := countBelow 8 (fun r =>
        (lanes.getD r none).isSome && !(List.range 4).any (fun e => s.egressOwns g e r))
      let s := if x.collisions = 0 then s else s.count (galP g 0x80) x.collisions
      let s := if stale = 0 then s else s.count (galP g 0x81) stale
      let s := if unowned = 0 then s else s.count (galP g 0x82) unowned
      s.modGal g (fun y =>
        { y with
          nextWires := tabBlock none [] 0 1344 x.nextWire
          edgeOut := tabBlock none [] 0 8 (fun r => (lanes.getD r none).map (fun w => { word := w, tag := x.active }))
          egress := (List.range 4).foldl (fun t e =>
            match egressUnit s g e lanes with
            | some u => tabMod [] t e (fun l => l ++ [u])
            | none => t) y.egress
          egressNow := tabBlock none [] 0 4 (fun e => some (s.egressCfg g e)) }))

/-- A unit enters the edge lanes: words on rows whose EDGE is not enabled are discarded and counted (R198). -/
def enterEdge (g : Nat) (u : List (Option Word)) (s : State) : State :=
  let x := s.gal g
  let lost := countBelow 8 (fun r => (u.getD r none).isSome && !bitOf (x.routing r).edge 3)
  let s := if lost = 0 then s else s.count (galP g 0x82) lost
  s.modGal g (fun y =>
    { y with edgeBusy := true
             edgeIn := tabBlock none [] 0 8 (fun r => if bitOf (x.routing r).edge 3 then u.getD r none else none) })

/-- EDGE_INGRESS (R198, R199): the unit that the router hands over enters the lanes, or waits in the 32-unit buffer. -/
def execEdgeIngress (g : Nat) (s : State) : Host.Outcome State Fault Refusal :=
  .next (match (s.gal g).edgeQ with
    | [] => s
    | u :: r =>
      let x := s.gal g
      let s := s.modGal g (fun y => { y with edgeQ := r })
      if s.live g && x.ingress.isEmpty && !x.edgeBusy then enterEdge g u s
      else if x.ingress.length < 32 then s.modGal g (fun y => { y with ingress := y.ingress ++ [u] })
      else s.count (galP g 0x82) (u.filter (·.isSome)).length)

/-- INGRESS_BUFFER_RELEASE (R199): one buffered unit enters in an enabled cycle. -/
def execIngressBufferRelease (g : Nat) (s : State) : Host.Outcome State Fault Refusal :=
  .next (match (s.gal g).ingress with
    | [] => s
    | u :: r =>
      if s.live g && !(s.gal g).edgeBusy then enterEdge g u (s.modGal g (fun y => { y with ingress := r })) else s)

/-- The stream address of a target (Table 13.3). -/
def streamAddr (x y k : Nat) : Nat := match targetAt x y k with | .gal _ => 0x000100000000 | _ => 0

/-- The WRITE that carries data units with their valid bits (R223, R234). -/
def unitsPacket (l : List (List (Option Word))) : Packet :=
  { blankPacket with
    cmd := 0, len := l.length
    valid := BitVec.ofNat 128 (maskOf (8 * l.length) (fun i => ((l.getD (i / 8) []).getD (i % 8) none).isSome))
    data := l.flatMap (fun u => (List.range 8).flatMap (fun j => leBytes 4 ((u.getD j none).getD 0).toNat)) }

/-- EGRESS_PACKET_CLOSE (R234): a packet that holds U units, or whose mask carries no valid word in this cycle, is sent
as a WRITE to the target's stream address. -/
def execEgressPacketClose (g e : Nat) (s : State) : Host.Outcome State Fault Refusal :=
  .next (
    let x := s.gal g
    let l := tabGet [] x.egress e
    let c := (s.egressCfg g e).1
    let d := (s.egressCfg g e).2
    let units := fld c 12 8
    let lanes := (List.range 8).map (fun r => (tabGet none x.edgeOut r).map (·.word))
    if l.isEmpty || (decide (l.length < units) && (egressUnit s g e lanes).isSome) then s
    else
      let now := l.take (max 1 (min 16 units))
      let p := { unitsPacket now with
        dx := fld d 2 0, dy := fld d 5 3, dport := fld d 6 6, dcard := fld d 10 7, gt := c.getLsbD 13,
        flow := fld c 20 14, addr := streamAddr (fld d 2 0) (fld d 5 3) (fld d 6 6) }
      present (sourced s (.gal g) p)
        (s.modGal g (fun y =>
          { y with egress := tabSet [] y.egress e (l.drop now.length)
                   egressNow := tabSet none y.egressNow e (some (s.egressSet g e)) })))

end Sys2Proof.Machine
end

