-- ==== Sys2Proof/Machine/Tinder.lean ====
section
/-!
DEFINITION. The Tinder fabric (chapter 20): its configuration, one cycle of arrays, macrocells and routes, the default
configuration and the checks of its frames.
-/

namespace Sys2Proof.Machine

/-- The configuration address of byte `o` of frame `x` of block `b`: frames of 512 bytes, eight per block. -/
def tndAddr (b x o : Nat) : Nat := b * 4096 + 512 * x + o

/-- A configuration byte of the fabric. -/
def State.tndByte (s : State) (b x o : Nat) : Nat := (memByte s.tnd.cfg (tndAddr b x o)).toNat

/-- Array input `j` of block `b` (Table 20.3). -/
def State.tndInput (s : State) (b j : Nat) : Bool :=
  let c := s.tndByte b 5 j
  if c < 0x60 then hasBit s.tnd.inbus c
  else if c < 0x80 then hasBit s.tnd.out (32 * b + (c - 0x60))
  else decide (c = 0x81)

/-- Product term `u` of block `b` (R342): the AND of its literals, 0 with none. -/
def State.tndTerm (s : State) (b u : Nat) : Bool :=
  let rec' := leNat (memRead s.tnd.cfg (tndAddr b (u / 32) (16 * (u % 32))) 16)
  decide (rec' ≠ 0) && (List.range 64).all (fun j =>
    (!bitOf rec' (2 * j) || s.tndInput b j) && (!bitOf rec' (2 * j + 1) || !s.tndInput b j))

/-- Byte `o` of the record of macrocell `i` of block `b` (Table 20.4). -/
def State.mcByte (s : State) (b i o : Nat) : Nat := s.tndByte b 6 (16 * i + o)

/-- The macrocell's own terms (Table 20.4). -/
def State.mcOwn (s : State) (b i : Nat) : Bool :=
  (List.range 5).any (fun k => bitOf (s.mcByte b i 0) k && s.tndTerm b (5 * i + k))

/-- The sum of macrocell `i`, with its neighbours' sums cascaded downward, at most `n` further (R345). -/
def State.mcSum (s : State) (b : Nat) : Nat → Nat → Bool
  | 0, i => s.mcOwn b i
  | n + 1, i => s.mcOwn b i || (bitOf (s.mcByte b i 0) 5 && decide (i < 31) && s.mcSum b n (i + 1))

/-- The register of macrocell `i` in the next cycle (R344). -/
def State.mcNext (s : State) (b i : Nat) : Bool :=
  let q := hasBit s.tnd.q (32 * b + i)
  let m := s.mcByte b i 1
  let clr := bits m 7 5
  let ce := bits m 4 2
  let sum := s.mcSum b 3 i
  if clr < 5 && s.tndTerm b (5 * i + clr) then false
  else match bits m 1 0 with
    | 0 => sum
    | 1 => if ce = 7 ∨ (ce < 5 ∧ s.tndTerm b (5 * i + ce) = true) then sum else q
    | 2 => q ^^ sum
    | _ => q

/-- The outputs of the 128 macrocells for register values `q`: Q XOR INV (R344). -/
def State.mcOut (s : State) (q : BitVec 128) : BitVec 128 :=
  BitVec.ofNat 128 (maskOf 128 (fun m => hasBit q m ^^ bitOf (s.mcByte (m / 32) (m % 32) 0) 6))

/-- The INIT values of the 128 macrocells. -/
def State.mcInit (s : State) : BitVec 128 :=
  BitVec.ofNat 128 (maskOf 128 (fun m => bitOf (s.mcByte (m / 32) (m % 32) 0) 7))

/-- The Tinder domain is on; on E variants the fixed map has no domain of its own. -/
def State.tndOn (s : State) : Bool := !s.variant.hasTinder || decide ((s.dom 24).st = .on ∧ (s.dom 24).rekindling = false)

/-- The damper fences the Tinder domain (R351). -/
def State.tndFenced (s : State) : Bool := s.variant.hasTinder && (s.dom 24).fenced

/-- Routes deliver: GSR is released, the domain is on and not fenced (R350, R351). -/
def State.tndRoutes (s : State) : Bool := !s.kin.gsr && s.tndOn && !s.tndFenced

/-- The value a route byte selects (Table 20.5). -/
def State.routeValue (s : State) (c : Nat) : Bool :=
  if c < 0x80 then hasBit s.tnd.out c else if c < 0xE0 then hasBit s.tnd.inbus (c - 0x80) else decide (c = 0xFF)

/-- The route byte of destination `k`: 16g + n for TIn of Gg, 256 + n for TRIGn, 264 STAR_OUT, 265 capture (Table
20.6). -/
def State.routeByte (s : State) (k : Nat) : Nat :=
  if k < 256 then s.tndByte (k / 64) 7 (k % 64) else s.tndByte 0 7 (64 + (k - 256))

/-- The route values of this cycle. -/
def State.routes (s : State) : BitVec 266 :=
  if s.tndRoutes then BitVec.ofNat 266 (maskOf 266 (fun k =>
    (decide (k ≠ 265) || s.variant.hasTinder) && s.routeValue (s.routeByte k))) else 0

/-- The exports of this cycle: GOUTk, or HFk when the export-select bit is set (Table 20.2). -/
def State.exports (s : State) : BitVec 64 :=
  BitVec.ofNat 64 (maskOf 64 (fun n =>
    let x := s.gal (n / 4)
    if bitOf (s.tndByte 0 5 (64 + n / 8)) (n % 8) then hasBit x.hf (n % 4) else hasBit x.seq.gout (n % 4)))

/-- Strobe TSi at tick count `t` (R356). -/
def State.strobe (s : State) (i : Nat) (t : Tick) : Bool :=
  let phase := leNat (memRead s.tnd.cfg (tndAddr 0 7 (80 + 8 * i)) 5)
  let p := s.tndByte 0 7 (85 + 8 * i)
  decide (p ≠ 0) && decide (t.toNat % 2 ^ p = phase % 2 ^ p)

/-- RV_TRIG (pin 2: Table 3.10), the electrical mode of the chassis lines. -/
def State.rvTrig (s : State) : Nat := s.rv 2

/-- A thermal-critical stop holds the outputs safe where no Tinder domain does so (R72, note 42, DEDUCED). -/
def State.critSafe (s : State) : Bool := s.pwr.critical && !s.variant.hasTinder

/-- The levels that the drivers put on TRIG0–TRIG7 and STAR_OUT for route values delivered now (R354, R355). -/
def State.drive (s : State) (r : BitVec 266) (listen starOff : Bool) : BitVec 9 :=
  let en := s.par 0x3601
  BitVec.ofNat 9 (maskOf 9 (fun n =>
    s.kin.outputs && s.tndOn && !s.critSafe && !s.tndFenced && hasBit en n && hasBit r (256 + n) && !hasBit s.pins.tristated (if n = 8 then 9 else n) &&
      (if n = 8 then !starOff else !listen)))

/-- The bus of the next cycle, whose tick count is `t` (Tables 20.2 and 20.7). -/
def State.nextBus (s : State) (t : Tick) : BitVec 96 :=
  let ex := s.tnd.expHist.getD 0 0
  let ln := s.tnd.lineHist.getD 1 0
  let pu := s.tnd.pulseHist.getD 1 0
  BitVec.ofNat 96 (maskOf 96 (fun n =>
    if n < 64 then hasBit ex n
    else if n < 73 then hasBit ln (n - 64)
    else if n < 75 then hasBit pu (n - 73)
    else if n = 75 then false
    else if n < 80 then s.strobe (n - 76) t
    else hasBit s.tnd.out (32 * ((n - 80) / 4) + (n - 80) % 4)))

/-- The terms, macrocells, routes and delays move on by one core cycle into the cycle with tick count `t` (R344,
Table 20.7); rising outputs are counted and reported (R362). -/
def tndCycle (t : Tick) (s : State) : State :=
  let run := !s.kin.gsr && s.tndOn
  let q := if run then BitVec.ofNat 128 (maskOf 128 (fun m => s.mcNext (m / 32) (m % 32))) else s.tnd.q
  let out := if run then s.mcOut q else s.tnd.out
  let r := s.routes
  let rising := out &&& ~~~s.tnd.out
  let bus := s.nextBus t
  let capt := hasBit r 265 && !hasBit (s.tnd.routeHist.getD 0 0) 265
  let s := { s with tnd := { s.tnd with
    q := q, out := out, inbus := bus
    lineHist := (s.tnd.lines :: s.tnd.lineHist).take 3
    pulses := 0, pulseHist := (s.tnd.pulses :: s.tnd.pulseHist).take 3
    expHist := (s.exports :: s.tnd.expHist).take 2
    routeHist := (r :: s.tnd.routeHist).take 4
    captDue := if capt then some s.clk.tick else none } }
  if rising = 0 then s
  else (setBits 128 rising.toNat).foldl (fun s m =>
    let s := s.tally (0x3480 + m) 1
    if bitOf (s.mcByte (m / 32) (m % 32) 2) 0 then s.raise 0xF3 [BitVec.ofNat 8 m] else s) s

/-- One byte of the default configuration (Table 20.8). -/
def defaultTndByte (b x o : Nat) : Byte :=
  if x ≤ 4 then
    if b ≠ 0 then 0
    else
      let u := 32 * x + o / 16
      let i := u / 5
      let k := u % 5
      let input := if i < 8 then (if k = 0 then some i else if k = 1 then some (i + 8) else none)
        else if i < 12 then (if k < 4 then some (16 + 4 * (i - 8) + k) else none)
        else if i < 16 then (if k < 4 then some (32 + 4 * (i - 12) + k) else none)
        else none
      match input with
      | some j => if 2 * j / 8 = o % 16 then BitVec.ofNat 8 (2 ^ (2 * j % 8)) else 0
      | none => 0
  else if x = 5 then
    if b ≠ 0 then (if o < 64 then 0x80 else 0)
    else if o < 16 then BitVec.ofNat 8 (4 * o)
    else if o < 32 then BitVec.ofNat 8 (4 * (o - 16) + 1)
    else if o < 48 then BitVec.ofNat 8 (4 * (o - 32) + 2)
    else if o < 64 then 0x80
    else 0
  else if x = 6 then
    let i := o / 16
    if o % 16 = 1 then 0xFC
    else if o % 16 = 0 ∧ b = 0 then
      (if i < 8 then 0x03 else if i < 16 then (if i % 4 = 3 then 0x0F else 0x2F) else 0)
    else 0
  else
    if o < 64 then
      (if o % 16 < 8 then BitVec.ofNat 8 (0xC0 + o % 16) else if o % 16 = 8 then 0xC8 else if o % 16 = 9 then 0x0C
       else 0xFE)
    else if b ≠ 0 then 0
    else if o < 72 then BitVec.ofNat 8 (o - 64)
    else if o = 72 then 0x08
    else if o = 73 then 0xFE
    else 0

/-- The default configuration (R361), which is also the fixed map of the E variants (R360). -/
def defaultTinder : Memory :=
  tabBlock 0 [] 0 16384 (fun a => defaultTndByte (a / 4096) (a / 512 % 8) (a % 512))

/-- A route code is reserved (Table 20.5). -/
def badRoute (c : Nat) : Bool := decide (0xE0 ≤ c ∧ c ≤ 0xFD)

/-- A macrocell record that R348 refuses. -/
def badMacro (i b0 b1 : Nat) : Bool :=
  let terms := bits b0 4 0
  let mode := bits b1 1 0
  let ce := bits b1 4 2
  let clr := bits b1 7 5
  decide (mode = 3) || decide (ce = 5 ∨ ce = 6) || decide (clr = 5 ∨ clr = 6) || decide (ce ≠ 7 ∧ mode ≠ 1) ||
    (decide (ce < 5) && bitOf terms ce) || (decide (clr < 5) && bitOf terms clr) || (decide (i = 31) && bitOf b0 5)

/-- The checks of a TINDER frame (R348). -/
def tinderFrameOk (b x : Nat) (d : List Byte) : Bool :=
  let byte := fun o => (byteAt d o).toNat
  if x ≤ 4 then true
  else if x = 5 then !(List.range 64).any (fun j => decide (0x82 ≤ byte j))
  else if x = 6 then
    !(List.range 32).any (fun i => badMacro i (byte (16 * i)) (byte (16 * i + 1))) &&
    !(List.range 29).any (fun i => (List.range 4).all (fun k => bitOf (byte (16 * (i + k))) 5))
  else
    !(List.range 64).any (fun o => badRoute (byte o)) &&
    (decide (b ≠ 0) ||
      (!(List.range 10).any (fun o => badRoute (byte (64 + o))) &&
       !(List.range 4).any (fun i => decide (40 < byte (85 + 8 * i))) &&
       decide (byte 112 ≤ 1) &&
       !(decide (leAt d 114 2 = 0) && decide (byte 73 ≠ 0xFE))))

/-- Writes a TINDER frame into the fabric (R352): registers keep Q. -/
def writeTinder (b x : Nat) (d : List Byte) (s : State) : State :=
  let s := { s with tnd := { s.tnd with cfg := tabBlock 0 s.tnd.cfg (tndAddr b x 0) 512 (byteAt d) } }
  { s with tnd := { s.tnd with out := s.mcOut s.tnd.q } }

end Sys2Proof.Machine
end

