-- ==== Sys2Proof/Machine/Frames.lean ====
section
/-!
DEFINITION. Configuration frames at a gallery configuration port or the Tinder fabric: the checks of R21, R143, R197 and
R348, the in-service rule of R365, and writing a frame (R111, R174, R352, R364).
-/

namespace Sys2Proof.Machine

/-- The operation codes of Table 8.5. -/
def knownOp (op : Nat) : Bool :=
  [0x00, 0x01, 0x02, 0x04, 0x05, 0x06, 0x07, 0x08, 0x09, 0x0C, 0x0D, 0x0E, 0x0F, 0x10, 0x11, 0x12, 0x13, 0x14, 0x15,
   0x18, 0x19, 0x1A, 0x1B, 0x1C, 0x20, 0x21, 0x24, 0x25, 0x28, 0x29, 0x30, 0x31].contains op

/-- The operation uses operand B (Table 8.5). -/
def usesB (op : Nat) : Bool :=
  [0x04, 0x05, 0x08, 0x09, 0x0C, 0x0D, 0x0E, 0x10, 0x11, 0x12, 0x13, 0x18, 0x19, 0x1A, 0x1B, 0x20, 0x21, 0x24, 0x25,
   0x28, 0x31].contains op

/-- The record uses operand C: SEL, and MAC and MSU with MOUT 1 (R149). -/
def Record.usesC (r : Record) : Bool := decide (r.op = 0x21) || (decide (r.op = 0x1A ∨ r.op = 0x1B) && r.mout)

/-- DIV or REM. -/
def Record.divides (r : Record) : Bool := decide (r.op = 0x24 ∨ r.op = 0x25)

/-- A record at column `c`, row `row`, that R143 accepts. -/
def Record.ok (r : Record) (c row : Nat) : Bool :=
  knownOp r.op && decide (r.lanes ≠ 3) && decide (r.fout < 8) &&
  (decide (r.op = 0) || decide (r.srcA < 0x1D)) && (!usesB r.op || decide (r.srcB < 0x1D)) &&
  (!r.usesC || decide (r.srcC < 0x1D)) &&
  (decide (r.op ≠ 0x28 ∧ r.op ≠ 0x29) || decide (r.lanes ≠ 0)) &&
  (!r.divides || decide (c % 4 = 3)) &&
  (decide (r.op ≠ 0x30 ∧ r.op ≠ 0x31) || decide (row = 0 ∨ row = 7)) &&
  (decide (r.op ≠ 0x02) || !r.wb)

/-- Record `n` of a PLANE frame. -/
def frameRecord (d : List Byte) (n : Nat) : Record := Record.ofBytes (slice d (32 * n) 32)

/-- The checks of PLANE frame index `i` (R143). -/
def planeFrameOk (i : Nat) (d : List Byte) : Bool :=
  (List.range 16).all (fun n => (frameRecord d n).ok (2 * i + n / 8) (n % 8))

/-- The frame holds a DIV or REM record (R21). -/
def planeDivides (d : List Byte) : Bool := (List.range 16).any (fun n => (frameRecord d n).divides)

/-- Record `n` of a SWITCH frame. -/
def frameSwitch (d : List Byte) (n : Nat) : SwitchRec := SwitchRec.ofBytes (slice d (16 * n) 16)

/-- A joint field with a reserved code. -/
def badJoint (f : Nat) : Bool := (List.range 8).any (fun t => decide (jointCode f t = 3))

/-- A switch record at column `c`, row `row`, with no reserved code and no output past the border (R197). -/
def SwitchRec.ok (q : SwitchRec) (c row : Nat) : Bool :=
  decide (q.nsel ≠ 7 ∧ q.esel ≠ 7 ∧ q.ssel ≠ 7 ∧ q.wsel ≠ 7) &&
  !(decide (c = 3 ∨ c = 7 ∨ c = 11) && badJoint q.rjoint) && !(decide (row = 3) && badJoint q.cjoint) &&
  !(decide (row = 0 ∧ q.nsel ≠ 0)) && !(decide (row = 7 ∧ q.ssel ≠ 0)) &&
  !(decide (c = 0 ∧ q.wsel ≠ 0)) && !(decide (c = 15 ∧ q.esel ≠ 0))

/-- Drivers of row track `t`, row `r`, in SWITCH frame `k` (R197). -/
def rowDrivers (k : Nat) (d : List Byte) (r t : Nat) : Nat :=
  countBelow 4 (fun c =>
    let q := frameSwitch d (c * 8 + r)
    bitOf q.rdrv 3 && decide (bits q.rdrv 2 0 = t)) +
  (let q := frameSwitch d r
   if k = 0 ∧ bitOf q.edge 3 ∧ bits q.edge 2 0 = t then 1 else 0)

/-- Drivers of column track `t`, column `c` of the frame, half `half` (R197). -/
def colDrivers (d : List Byte) (c t half : Nat) : Nat :=
  countBelow 4 (fun i =>
    let q := frameSwitch d (c * 8 + 4 * half + i)
    bitOf q.cdrv 3 && decide (bits q.cdrv 2 0 = t))

/-- The checks of SWITCH frame index 8 + `k` (R197). -/
def switchFrameOk (k : Nat) (d : List Byte) : Bool :=
  (List.range 32).all (fun n => (frameSwitch d n).ok (4 * k + n / 8) (n % 8)) &&
  (List.range 64).all (fun n => decide (rowDrivers k d (n / 8) (n % 8) ≤ 1)) &&
  (List.range 64).all (fun n => decide (colDrivers d (n / 16) (n / 2 % 8) (n % 2) ≤ 1))

/-- The context a CFA names (Table 6.4). -/
def cfaCtx (cfa : Nat) : Nat := bits cfa 13 8

/-- The index a CFA names (Table 6.4). -/
def cfaIndex (cfa : Nat) : Nat :=
  match cfaKind cfa with
  | 0 => bits cfa 3 0
  | 1 => bits cfa 2 0
  | 3 => bits cfa 2 0
  | 4 => bits cfa 0 0
  | _ => 0

/-- The Tinder block a CFA names. -/
def cfaBlock (cfa : Nat) : Nat := bits cfa 9 8

/-- The fields of a CFA lie in their ranges (R108). -/
def cfaOk (cfa : Nat) : Bool := decide (cfaKind cfa ≤ 4) && (decide (cfaKind cfa ≠ 0) || decide (cfaIndex cfa ≤ 11))

/-- The CFA without its reserved bits (R5). -/
def cfaNorm (cfa : Nat) : Nat :=
  match cfaKind cfa with
  | 0 => bits cfa 19 16 * 65536 + bits cfa 13 8 * 256 + bits cfa 3 0
  | 1 => 0x10000000 + bits cfa 19 16 * 65536 + bits cfa 2 0
  | 2 => 0x20000000 + bits cfa 19 16 * 65536
  | 3 => 0x30000000 + bits cfa 9 8 * 256 + bits cfa 2 0
  | 4 => 0x40000000 + bits cfa 19 16 * 65536 + bits cfa 0 0
  | _ => cfa

/-- R21: the frame needs a unit that this variant lacks. -/
def needsAbsent (v : Variant) (cfa : Nat) (d : List Byte) : Bool :=
  match cfaKind cfa with
  | 0 => !v.hasGal (cfaGal cfa) || (!v.hasDiv && decide (cfaIndex cfa < 8) && planeDivides d)
  | 1 | 2 => !v.hasGal (cfaGal cfa)
  | 3 => !v.hasTinder
  | 4 => !v.hasPort (cfaGal cfa) || (decide (cfaIndex cfa = 0 ∧ byteAt d 0 = 2) && !v.hasSeam (cfaGal cfa)) ||
      (decide (cfaIndex cfa = 1) && !v.hasSeam (cfaGal cfa) &&
        (List.range 15).any (fun i => decide (leAt d (4 * (0x40 + i)) 4 ≠ 0)))
  | _ => false

/-- The content of a frame of kinds 0, 1 and 3 (R143, R197, R348). -/
def contentOk (cfa : Nat) (d : List Byte) : Bool :=
  match cfaKind cfa with
  | 0 => if cfaIndex cfa < 8 then planeFrameOk (cfaIndex cfa) d else switchFrameOk (cfaIndex cfa - 8) d
  | 3 => tinderFrameOk (cfaBlock cfa) (cfaIndex cfa) d
  | _ => true

/-- Check 2 of R365: the kinds that service accepts, and a defined context (R111). -/
def serviceKind (s : State) (cfa : Nat) : Bool :=
  cfaOk cfa && (match cfaKind cfa with
    | 0 => ((s.gal (cfaGal cfa)).desc (cfaCtx cfa)).defined
    | 1 => true
    | 3 => true
    | _ => false)

/-- The status of a frame written in service (R365). -/
def serviceStatus (s : State) (cfa : Nat) (d : List Byte) : Nat :=
  if needsAbsent s.variant cfa d then stAbsentUnit
  else if !serviceKind s cfa then stRange
  else if !contentOk cfa d then stRange
  else stSuccess

/-- Writes a PLANE or SWITCH frame of context `c` to its slot, and to the plane where it is resident (R111, R174). -/
def writeCtxFrame (c i : Nat) (d : List Byte) (x : Gallery) : Gallery :=
  let a := slotSize * c + 512 * i
  let x := { x with store := tabBlock 0 x.store a 512 (byteAt d), storeBad := tabClear x.storeBad (a / 8) 64 }
  match x.planeOf c with
  | some p => { x with planeCfg := tabBlock 0 x.planeCfg (cfgSize * p + 512 * i) 512 (byteAt d) }
  | none => x

/-- Writes 128 instructions into the program store (Table 6.5). -/
def writeProgram (i : Nat) (d : List Byte) (x : Gallery) : Gallery :=
  { x with seq := { x.seq with prog := tabBlock 0 x.seq.prog (128 * i) 128 (fun n => wd (leAt d (4 * n) 4)) } }

/-- Writes an accepted frame (R364, R352). -/
def writeFrame (cfa : Nat) (d : List Byte) (s : State) : State :=
  match cfaKind cfa with
  | 0 => s.modGal (cfaGal cfa) (writeCtxFrame (cfaCtx cfa) (cfaIndex cfa) d)
  | 1 => s.modGal (cfaGal cfa) (writeProgram (cfaIndex cfa) d)
  | 3 => writeTinder (cfaBlock cfa) (cfaIndex cfa) d s
  | _ => s

end Sys2Proof.Machine
end

