-- ==== Sys2Proof/Machine/ConfigPort.lean ====
section
/-!
DEFINITION. The gallery configuration ports (R363, R389): which waiting writer a port grants, what a granted frame
does, and the copies of service frames that the sweep keeps (R386, R390, R391).  Port 16 is that of the Tinder fabric.
-/

namespace Sys2Proof.Machine

/-- The configuration port of a CFA: its gallery's, or 16 for the Tinder fabric. -/
def cfaPort (cfa : Nat) : Nat := if cfaKind cfa = 3 then 16 else cfaGal cfa

/-- The CFA of golden entry `i`. -/
def State.goldenCfa (s : State) (i : Nat) : Option Nat := (s.img.golden[i]?).map (·.cfa)

/-- A repair that waits for the place of `cfa` is discarded at its grant: another writer has changed the place (R386). -/
def noteChanged (cfa : Nat) (s : State) : State :=
  let hit := match s.sweep.repair with
    | some (i, _, _, _) => decide ((s.goldenCfa i).map cfaNorm = some (cfaNorm cfa))
    | none => false
  { s with sweep := { s.sweep with
      changed := s.sweep.changed || hit
      reported := s.sweep.reported.filter (fun c => !decide (c = cfaNorm cfa)) } }

/-- A fill, a spill's eviction or a loss of plane changes every place of context `c` of gallery g (R386). -/
def noteCtxChanged (g c : Nat) (s : State) : State :=
  (List.range 12).foldl (fun s i => noteChanged (65536 * g + 256 * c + i) s) s

/-- The copy of a service frame in the golden cache: a shadow entry for an image in flash, the stored CRC for a
host-loaded one (R390, R391). -/
def noteShadow (cfa : Nat) (d : List Byte) (s : State) : State :=
  let c := cfaNorm cfa
  if s.img.host then
    { s with sweep := { s.sweep with
        crcs := s.sweep.crcs.map (fun e => if e.1 = c then (c, crc32 d) else e) } }
  else if s.sweep.shadows.any (fun h => decide (h.cfa = c)) then
    { s with sweep := { s.sweep with
        shadows := s.sweep.shadows.map (fun h => if h.cfa = c then { h with data := d } else h) } }
  else if s.sweep.shadows.length < 126 then
    { s with sweep := { s.sweep with shadows := s.sweep.shadows ++ [{ cfa := c, data := d }] } }
  else if s.sweep.unguarded.contains c then s
  else { s with sweep := { s.sweep with unguarded := s.sweep.unguarded ++ [c] } }

/-- Writes a frame in service (R364, R390). -/
def serviceWrite (cfa : Nat) (d : List Byte) (s : State) : State :=
  noteShadow cfa d (noteChanged cfa (writeFrame cfa d s))

/-- Writes the frames held for the gallery's FENCE, in arrival order (R368). -/
def writeHeld (g : Nat) (s : State) : State :=
  ((s.gal g).hold.foldl (fun s f => serviceWrite f.cfa f.data s) s).modGal g (fun x =>
    { x with hold := [], staging := { x.staging with held := false } })

/-- The frame of a lamp CONFIG_WRITE: its CFA and its configuration bytes. -/
def cmdFrame (c : Cmd) : Nat × List Byte := (leAt c.body 0 4, c.body.drop 4)

/-- The frame of a CONFIG packet. -/
def packetFrame (p : Packet) : Nat × List Byte := (p.addr % 2 ^ 32, p.data)

/-- A frame for a context that is being filled waits until the fill completes (R174). -/
def State.fillBlocks (s : State) (cfa : Nat) : Bool :=
  decide (cfaKind cfa = 0) && ((s.gal (cfaGal cfa)).fillingOf (cfaCtx cfa)).isSome

/-- The writer can be granted now. -/
def State.canGrant (s : State) (w : Writer) : Bool :=
  match w with
  | .lamp c => !s.fillBlocks (cmdFrame c).1
  | .icp p => !s.fillBlocks (packetFrame p).1
  | _ => true

/-- The rank of a waiting writer (R389). -/
def writerRank : Writer → Nat
  | .engine => 4
  | .held => 3
  | .lamp _ => 2
  | .icp _ => 1
  | .sweep lost => min 4 lost

/-- The writer is the sweep. -/
def Writer.isSweep : Writer → Bool
  | .sweep _ => true
  | _ => false

/-- The writer that a boundary grants: the highest rank, the sweep on ties, else the first that waited (R389). -/
def pickWriter : List Writer → Option Writer
  | [] => none
  | w :: r =>
    match pickWriter r with
    | none => some w
    | some v =>
      if writerRank w < writerRank v then some v
      else if writerRank w = writerRank v then (if v.isSweep then some v else some w)
      else some w

/-- Grants the port to `w`: a lamp or ICP frame is written and answered, the engine, a FENCE and the sweep go on with
their own commands.  A sweep that waits has lost a round. -/
def grantPort (port : Nat) (w : Writer) (s : State) : State :=
  let s := s.modGal port (fun x =>
    { x with
      portBusy := some w
      portWait := (x.portWait.erase w).map (fun v =>
        match v with | .sweep n => if w.isSweep then v else .sweep (n + 1) | _ => v) })
  match w with
  | .lamp c => respond c stSuccess [] (serviceWrite (cmdFrame c).1 (cmdFrame c).2 s)
  | .icp p => replyData p 0 [] (serviceWrite (packetFrame p).1 (packetFrame p).2 s)
  | _ => s

/-- A free port grants the next waiting writer (R389). -/
def portNext (port : Nat) (s : State) : State :=
  if (s.gal port).portBusy.isSome then s
  else match pickWriter ((s.gal port).portWait.filter s.canGrant) with
    | some w => grantPort port w s
    | none => s

/-- A writer asks for the port: it is granted at once when the port is free, else it waits. -/
def askPort (port : Nat) (w : Writer) (s : State) : State :=
  portNext port (if (s.gal port).portWait.contains w || decide ((s.gal port).portBusy = some w) then s
    else s.modGal port (fun x => { x with portWait := x.portWait ++ [w] }))

/-- The port is free of its present writer, and the next one is granted. -/
def freePort (port : Nat) (s : State) : State :=
  portNext port (s.modGal port (fun x => { x with portBusy := none }))

/-- The port is in the hands of `w`. -/
def State.holdsPort (s : State) (port : Nat) (w : Writer) : Bool := decide ((s.gal port).portBusy = some w)

/-- The waiting writers of a gallery that goes off are answered ASLEEP. -/
def dropWriters (port : Nat) (s : State) : State :=
  let l := (s.gal port).portWait
  let s := s.modGal port (fun x => { x with portWait := [], portBusy := none })
  l.foldl (fun s w =>
    match w with
    | .lamp c => respond c stAsleep [] s
    | .icp p => replyError p stAsleep s
    | _ => s) s

/-- CONFIG_PORT_BOUNDARY (R363, R389): the frame write, or the configuration part of a fill, ends, and the next waiting
writer is granted by rank. -/
def execConfigPortBoundary (g : Nat) (s : State) : Host.Outcome State Fault Refusal :=
  .next (if s.clocked && decide (g ≤ 16) then freePort g s else s)

end Sys2Proof.Machine
end

