-- ==== Sys2Proof/Machine/Engine.lean ====
section
/-!
DEFINITION. The commands of the fill/spill engine (R165): starting a transfer, its completion, and a prefetch fill that
is abandoned (R173).
-/

namespace Sys2Proof.Machine

/-- The plane that work for a context writes next can be filled at once: its victim needs no spill (R165). -/
def Gallery.fillsNext (x : Gallery) : Option Nat :=
  match x.victim with
  | some p => if (x.plane p).mustSpill then none else some p
  | none => none

/-- Work for context `c`: the victim's spill, or the fill once the engine holds the configuration port (R165, R389). -/
def startWork (g c : Nat) (demand : Bool) (s : State) : State :=
  match (s.gal g).fillsNext with
  | none => engineWork g c demand s
  | some p =>
    let s := askPort g .engine s
    if s.holdsPort g .engine then
      let s := match ((s.gal g).plane p).ctx with | some old => noteCtxChanged g old s | none => s
      engineWork g c demand (noteCtxChanged g c s)
    else s

/-- TRANSFER_START (R165): a free engine takes the demand fill, from the cycle after its SWITCH (Table 10.6), else the
oldest prefetch, else a background spill; under a HALT capture it starts none (R413). -/
def execTransferStart (g : Nat) (upsets : List Upset) (s : State) : Host.Outcome State Fault Refusal :=
  .next (
    let x := s.gal g
    if x.engine.isSome || !decide ((s.dom g).st = .on) || !s.clocked || s.halted g || decide (15 < g) then s
    else match x.demand with
      | some c => if x.seq.issued then s else startWork g c true (noteStore g upsets s)
      | none =>
        match x.prefetch with
        | c :: _ => if s.damping g then s else startWork g c false (noteStore g upsets s)
        | [] =>
          match x.victim with
          | some p =>
            match (x.plane p).ctx with
            | some c => if (x.plane p).mustSpill && !s.damping g then startSpill g p c s else s
            | none => s
          | none => s)

/-- The engine gives the configuration port back, and writers that waited for the fill go on (R174, R389). -/
def endFill (g : Nat) (s : State) : State :=
  if s.holdsPort g .engine then freePort g s else portNext g s

/-- Rewrites the uncorrectable words of the register and accumulator region as zero (R173). -/
def mendSlot (c : Nat) (x : Gallery) : Gallery :=
  (slotUpsets x c).foldl (fun x q =>
    if q.2 = .fatal ∧ 0x300 ≤ q.1 - 2048 * c then
      { x with store := memZero x.store (slotSize * c + 8 * (q.1 - 2048 * c)) 8
               storeBad := tabSet .sound x.storeBad q.1 .sound }
    else x) x

/-- FILL_COMPLETE (R165, R166, R173): the plane becomes resident, and active when the sequencer waits for it. -/
def execFillComplete (g : Nat) (s : State) : Host.Outcome State Fault Refusal :=
  .next (if !s.clocked then s else match (s.gal g).engine with
    | none => s
    | some t =>
      if !t.fill then s
      else match t.bad with
        | some off =>
          if t.demand then
            let s := s.modGal g (fun x => mendSlot t.ctx
              { x with engine := none, demand := none
                       planes := tabSet Plane.reset x.planes t.plane Plane.reset
                       seq := match x.seq.st with
                         | .switchStall _ => { x.seq with st := .issuing, pc := x.seq.pc + 1, issued := true }
                         | _ => x.seq })
            endFill g (faultPolicy g 2 (ctxFault g 2 t.ctx off (s.count (galP g 0x75) 1)))
          else s
        | none =>
          let s := s.count (galP g 0x73) 1
          endFill g (noteCtxChanged g t.ctx (s.modGal g (fun x =>
            let x := loadPlane t.plane t.ctx s.clk.cyc (!t.demand) { x with engine := none }
            if t.demand then { x with switchTo := some (t.plane, t.ctx) } else x))))

/-- SPILL_COMPLETE (R162): the plane is clean and keeps its context. -/
def execSpillComplete (g : Nat) (s : State) : Host.Outcome State Fault Refusal :=
  .next (match (s.gal g).engine with
    | none => s
    | some t =>
      if t.fill then s
      else (s.modGal g (fun x => storePlane t.plane t.ctx { x with engine := none })).count (galP g 0x74) 1)

/-- PREFETCH_FILL_ABANDONED (R173): the fill ends at once, the plane is free and so is the engine. -/
def execPrefetchFillAbandoned (g : Nat) (s : State) : Host.Outcome State Fault Refusal :=
  .next (match (s.gal g).engine with
    | none => s
    | some t =>
      if t.fill && !t.demand && t.bad.isSome then
        endFill g
          (s.modGal g (fun x => { x with engine := none, planes := tabSet Plane.reset x.planes t.plane Plane.reset }))
      else s)

end Sys2Proof.Machine
end

