-- ==== Sys2Proof/Machine/Capture.lean ====
section
/-!
DEFINITION. The capture unit (chapter 24): arming, taking, and the bytes of its sections.
-/

namespace Sys2Proof.Machine

/-- RV_REF (pin 3) selects 10 MHz (Table 3.13). -/
def State.ref10M (s : State) : Bool := decide (s.rv 3 = 1 ∨ s.rv 3 = 3)

/-- RV_REF (pin 3) ignores SYNC (Table 3.13). -/
def State.syncIgnored (s : State) : Bool := decide (s.rv 3 = 2 ∨ s.rv 3 = 3)

/-- TB_STATUS (Table 4.1). -/
def State.tbStatus (s : State) : Nat :=
  flag s.clocked 0 + flag s.clk.aligned 1 + flag (!s.syncIgnored) 2 + flag s.ref10M 3 + flag s.clk.marginal 4 +
    flag s.clk.armed 5

/-- TRIG_STATUS (Table 18.7): received TRIG levels, STAR_IN, the driven level of STAR_OUT. -/
def State.trigStatus (s : State) : Nat := bits s.tnd.lines.toNat 8 0 + flag (hasBit s.tnd.driven 8) 9

/-- Arms a capture from the sequencer or the fabric: dropped and counted while one is armed or held (R408). -/
def armCapture (kind source : Nat) (gals : BitVec 16) (tick : Tick) (srcGal : Nat) (s : State) : State :=
  if s.capt.st = 0 then
    { s with capt := { s.capt with st := 1, kind := kind, source := source, gals := gals, armTick := tick,
                                   srcGal := srcGal, perGal := [], shadows := [] } }
  else { s with capt := { s.capt with dropped := min 255 (s.capt.dropped + 1) } }

/-- What the capture does to gallery g (R410): skipped with its reason, captured, or halted. -/
def captGal (s : State) (g : Nat) : CaptGal :=
  if !hasBit s.capt.gals g then CaptGal.reset
  else if !s.galOn g then { CaptGal.reset with st := 3, reason := 2 }
  else if (s.dom g).damper ≠ .openD then { CaptGal.reset with st := 3, reason := 1 }
  else { CaptGal.reset with st := if s.capt.kind = 1 then 2 else 1 }

/-- CAPTURE_TAKEN (R409–R411, R413): in the first cycle at or after the armed tick the shadows load; under HALT the
named galleries stop with the duty they have. -/
def execCaptureTaken (s : State) : Host.Outcome State Fault Refusal :=
  .next (
    if s.capt.st = 1 ∧ s.capt.armTick.toNat ≤ s.clk.tick.toNat ∧ s.clocked = true then
      let per := tabBlock CaptGal.reset [] 0 16 (captGal s)
      let took := (List.range 16).filter (fun g => decide ((captGal s g).st = 1 ∨ (captGal s g).st = 2))
      let frozen := took.foldl (fun t g => tabSet 16 t g (s.duty g)) s.pwr.frozenDuty
      let c := { s.capt with
        st := 2, perGal := per, shadows := took.map (fun g => (g, s.gal g)), tick := s.clk.tick
        tbStatus := wd s.tbStatus, inbus := s.tnd.inbus, mcOut := s.tnd.out, mcQ := s.tnd.q
        trigSt := wd s.trigStatus }
      let s := { s with capt := c, pwr := { s.pwr with frozenDuty := if c.kind = 1 then frozen else s.pwr.frozenDuty } }
      ((s.count 0x3D25 1).putPair 0x3D26 s.clk.tick.toNat).raise 0x15
        ([BitVec.ofNat 8 c.kind, 0] ++ leBytes 2 c.gals.toNat)
    else s)

/-- The byte of a plane in GAL_PLANE_MAP (Table 9.3). -/
def Gallery.planeMapByte (x : Gallery) (p : Nat) : Nat :=
  match (x.plane p).ctx, (x.plane p).filling with
  | some c, _ => c % 64 + 64
  | none, some c => c % 64 + 128
  | none, none => 0

/-- GAL_PLANE_STATE (Table 9.3). -/
def Gallery.planeState (x : Gallery) : Nat :=
  maskOf 8 (fun p => (x.plane p).dirty) + 256 * maskOf 8 (fun p => decide ((x.plane p).accLive ≠ 0)) +
    2 ^ 16 * (x.active % 8) + 2 ^ 24 * (x.activeCtx % 64)

/-- The state code of GAL_SEQ_STATUS (Table 10.5). -/
def Seq.code (q : Seq) (halted : Bool) : Nat :=
  if halted then 9
  else if q.damped then 8
  else match q.st with
    | .held => 0
    | .issuing => 0
    | .switchStall _ => 1
    | .waiting _ => 2
    | .waitt _ _ _ _ => 3
    | .fence => 4
    | .dmaStall => 5
    | .halt => 6
    | .fault => 7

/-- Loop counter k as GAL_SEQ_LOOPS shows it: value and in use (Table 10.5). -/
def Seq.loopField (q : Seq) (k : Nat) : Nat :=
  match tabGet none q.lc k with | some v => v % 4096 + 4096 | none => 0

/-- One byte of a bank section (R417): the label, then registers, ACC and flags as in a slot. -/
def bankByte (x : Gallery) (p o : Nat) : Byte :=
  let q := x.plane p
  let held := q.ctx.isSome
  if o < 16 then
    (if o = 0 then (match q.ctx with | some c => BitVec.ofNat 8 c | none => 0xFF)
     else if o = 1 then BitVec.ofNat 8 p
     else if o = 2 then BitVec.ofNat 8 (flag held 0 + flag (held && q.dirty) 1 + flag (held && decide (q.accLive ≠ 0)) 2)
     else 0)
  else if !held then 0
  else if o < 0x2010 then byteAt (leBytes 4 (tabGet 0 x.regs (p * 2048 + (o - 16) / 4)).toNat) ((o - 16) % 4)
  else
    let h := (o - 0x2010) / 16
    let j := (o - 0x2010) % 16
    if j < 9 then byteAt (leBytes 9 (x.accOf p h).toNat) j else if j = 9 then (x.flagsOf p h).setWidth 8 else 0

/-- Eight bytes of a tagged word: word, then [0] valid and [3:1] tag. -/
def tagBytes (w : Option TWord) : List Byte :=
  match w with
  | some t => leBytes 4 t.word.toNat ++ [BitVec.ofNat 8 (1 + 2 * (t.tag % 8)), 0, 0, 0]
  | none => List.replicate 8 0

/-- The 64 bytes of a hearth in section 0x12: OUT and seven operations in flight. -/
def outSection (x : Gallery) (h : Nat) : List Byte :=
  let es := ((x.pipe.filter (fun e => decide (e.hearth = h))).take 7).flatMap (fun e =>
    leBytes 4 (e.result.getD 0).toNat ++ [BitVec.ofNat 8 e.left, BitVec.ofNat 8 e.plane, 1, 0])
  tagBytes (tabGet none x.outs h) ++ (es ++ List.replicate 56 0).take 56

/-- The 64 bytes of a hearth in section 0x13: its eight switch inputs. -/
def inSection (x : Gallery) (h : Nat) : List Byte :=
  (List.range 8).flatMap (fun i => tagBytes (x.wire (if i < 4 then 4 * h + i else 512 + 4 * h + (i - 4))))

/-- The sequencer section (Table 24.1, code 0x10). -/
def seqSection (x : Gallery) : List Byte :=
  let q := x.seq
  leBytes 2 q.pc ++ [BitVec.ofNat 8 (q.code false), BitVec.ofNat 8 q.stack.length] ++
    (List.range 4).flatMap (fun i => leBytes 2 (q.stack.getD i 0)) ++
    (List.range 4).flatMap (fun k => leBytes 2 (q.loopField k)) ++
    [q.flags, if q.timeout then 1 else 0] ++ leBytes 2 (bits q.latches.toNat 15 0) ++
    [BitVec.ofNat 8 (bits q.latches.toNat 19 16), BitVec.ofNat 8 x.active, BitVec.ofNat 8 x.activeCtx, 0, 0, 0] ++
    leBytes 4 (match q.st with | .waiting n => n | _ => 0) ++
    leBytes 4 (match q.st with | .waitt _ _ n true => n | _ => 0) ++ List.replicate 26 0

/-- The plane-map section with R412 applied: a filling plane shows no context. -/
def planeSection (x : Gallery) : List Byte :=
  (List.range 8).map (fun p => match (x.plane p).ctx with | some c => BitVec.ofNat 8 (c % 64 + 64) | none => 0) ++
    leBytes 4 x.planeState ++ List.replicate 4 0

/-- The device sections (Table 24.1, codes 0x00 and 0x01). -/
def Capture.device (c : Capture) (code : Nat) : List Byte :=
  if code = 0 then
    [BitVec.ofNat 8 c.kind, BitVec.ofNat 8 c.source] ++ leBytes 2 c.gals.toNat ++ List.replicate 4 0 ++
      leBytes 8 c.tick.toNat ++ leBytes 4 c.tbStatus.toNat ++ List.replicate 12 0
  else leBytes 12 c.inbus.toNat ++ leBytes 16 c.mcOut.toNat ++ leBytes 16 c.mcQ.toNat ++ leBytes 4 c.trigSt.toNat

/-- The size of a gallery section, none where Table 24.1 lists no such code. -/
def sectionSize (code : Nat) : Option Nat :=
  if code = 0x10 then some 64 else if code = 0x11 then some 10256 else if code = 0x12 then some 8192
  else if code = 0x13 then some 10752 else if code = 0x14 then some 16
  else if 0x20 ≤ code ∧ code < 0x28 then some 10256
  else if code = 0x30 then some 2097152 else if code = 0x40 then some 1048576 else none

/-- The section exists only under HALT (Table 24.1). -/
def haltOnly (code : Nat) : Bool := decide (0x20 ≤ code)

/-- One byte of a gallery section from the gallery it reads: the shadow, or for HALT sections the live gallery. -/
def sectionByte (x : Gallery) (code o : Nat) : Byte :=
  if code = 0x10 then byteAt (seqSection x) o
  else if code = 0x11 then bankByte x x.active o
  else if code = 0x12 then byteAt (outSection x (o / 64)) (o % 64)
  else if code = 0x13 then
    (if o < 8192 then byteAt (inSection x (o / 64)) (o % 64)
     else byteAt (tagBytes (x.wire (1024 + (o - 8192) / 8))) (o % 8))
  else if code = 0x14 then byteAt (planeSection x) o
  else if code < 0x28 then bankByte x (code - 0x20) o
  else memByte x.store o

end Sys2Proof.Machine
end

