-- ==== Sys2Proof/Machine/Events.lean ====
section
/-!
DEFINITION. The event concentrator and the report queue (chapter 19, R310–R312): taking raises, mask and holdoff, the
queue with its overflow episode, and sending a report.
-/

namespace Sys2Proof.Machine

/-- The class of event `e` as a number. -/
def classOf (e : Nat) : Nat := (eventClass e).getD 0

/-- A raise enters before another: ascending tick, then ascending number (R333). -/
def Latch.before (a b : Latch) : Bool :=
  decide (a.tick.toNat < b.tick.toNat ∨ (a.tick = b.tick ∧ a.event ≤ b.event))

/-- Puts a raise into its place of an ordered batch. -/
def insertLatch (a : Latch) : List Latch → List Latch
  | [] => [a]
  | b :: r => if a.before b then a :: b :: r else b :: insertLatch a r

/-- A batch in the order of R333. -/
def sortLatches : List Latch → List Latch
  | [] => []
  | a :: r => insertLatch a (sortLatches r)

/-- The raise of an event at tick `t` is masked or held off (R335); class 3 is never (R330). -/
def State.suppressed (s : State) (e : Nat) (t : Tick) : Bool :=
  let c := s.par (0x3B00 + e)
  let hold := fld c 23 8 * 1000000
  decide (classOf e ≠ 3) &&
    (c.getLsbD 0 ||
      (match tabGet none s.evt.lastTick e with
       | some l => decide (hold ≠ 0 ∧ t.toNat < l.toNat + hold)
       | none => false))

/-- An event finds the queue full (R311): its episode begins or goes on. -/
def loseReport (e : Nat) (t : Tick) (s : State) : State :=
  let l := s.evt.lost.getD { counts := [0, 0, 0, 0], firstTick := t, lastTick := t, firstEvent := e,
                             behind := s.evt.queue.length }
  let l := { l with counts := l.counts.modify (classOf e) (fun n => min 0xFFFFFFFF (n + 1)), lastTick := t }
  ({ s with evt := { s.evt with lost := some l } } : State).count 0x305 1

/-- A raise that survives is queued, or counted in the overflow episode (R311). -/
def queueReport (e : Nat) (t : Tick) (data : List Byte) (s : State) : State :=
  if 128 ≤ s.evt.queue.length then loseReport e t s
  else
    let q := s.evt.queue ++ [{ event := e, tick := t, data := data }]
    { s with evt := { s.evt with
        queue := q, queueMax := max s.evt.queueMax q.length, lastTick := tabSet none s.evt.lastTick e (some t) } }

/-- The concentrator takes one raise (R332, R334, R335): counted with the raises merged into it, then masked, held off
or queued. -/
def takeLatch (l : Latch) (s : State) : State :=
  let s' := s.count (0x3C00 + l.event) (1 + l.merged)
  if s.suppressed l.event l.tick then s' else queueReport l.event l.tick l.data s'

/-- The concentrator takes every pending raise. -/
def takeAll (s : State) : State :=
  (sortLatches s.evt.latches).foldl (fun s l => takeLatch l s) { s with evt := { s.evt with latches := [] } }

/-- EVENT_TAKE (R332): the concentrator samples every latch. -/
def execEventTake (s : State) : Host.Outcome State Fault Refusal := .next (if s.clocked then takeAll s else s)

/-- The body of a report (R310, R338). -/
def reportBody (r : Report) : List Byte :=
  [BitVec.ofNat 8 r.event, BitVec.ofNat 8 (classOf r.event), 0, 0] ++ leBytes 8 r.tick.toNat ++ padTo 4 r.data

/-- The body of REPORT_LOST (R311). -/
def lostBody (l : Lost) : List Byte :=
  l.counts.flatMap (leBytes 4) ++ leBytes 8 l.firstTick.toNat ++ leBytes 8 l.lastTick.toNat ++
    [BitVec.ofNat 8 l.firstEvent, 0, 0, 0]

/-- The message that leaves next and the concentrator after it. -/
def State.nextReport (s : State) (via : Transport) : Option (List Byte × Events) :=
  match s.evt.lost with
  | some l =>
    if l.behind = 0 then
      some (message 2 0x81 0 0 (s.places via) (lostBody l), { s.evt with lost := none })
    else match s.evt.queue with
      | r :: q => some (message 2 0x80 0 0 (s.places via) (reportBody r),
                        { s.evt with queue := q, lost := some { l with behind := l.behind - 1 } })
      | [] => none
  | none => match s.evt.queue with
    | r :: q => some (message 2 0x80 0 0 (s.places via) (reportBody r), { s.evt with queue := q })
    | [] => none

/-- LAMP_TX has been tristated after a driver fault (Table 25.3), so nothing leaves on the lamp pair. -/
def State.lampTxOff (s : State) : Bool := decide (tabGet 0 s.pins.kinds 12 ≠ 0)

/-- REPORT_SEND (R304, R312): in user mode or the banked state (R95, R96) the next report leaves on the owner's
transport, on PCI Express only through an armed ring with room and after every waiting response. -/
def execReportSend (s : State) : Host.Outcome State Fault Refusal :=
  .next (
    match s.lamp.owner with
    | none => s
    | some via =>
      if !s.clocked || !(s.user || s.banked) then s
      else match s.nextReport via with
        | none => s
        | some (msg, evt) =>
          let t := { s with evt := evt }
          match via with
          | .lampPair =>
            if s.lamp.pairOn && !s.lampTxOff then { t with lamp := { t.lamp with sent := msg :: t.lamp.sent } } else s
          | .pcie => if s.pcie.ringArmed && s.pcie.waiting.isEmpty && s.ringRoom msg then ringPut msg t else s)

end Sys2Proof.Machine
end

