-- ==== Sys2Proof/Machine/Sequencer.lean ====
section
/-!
DEFINITION. The gallery sequencer (chapter 10): issue, conditions and latches, the instructions, DMA, and the gallery
reset (Table 4.6).
-/

namespace Sys2Proof.Machine

/-- The word at an address of the program store. -/
def Seq.word (q : Seq) (a : Nat) : Word := tabGet 0 q.prog a

/-- The opcode of an instruction, 0x10 + sub-opcode for opcode 0 (Table 10.1). -/
def opOf (w : Word) : Nat := if fld w 31 28 = 0 then 0x10 + fld w 27 24 else fld w 31 28

/-- The word's opcode or sub-opcode is reserved (Table 10.1). -/
def reservedOp (w : Word) : Bool := decide (opOf w = 0xE ∨ opOf w = 0xF ∨ 0x14 ≤ opOf w)

/-- The level of a condition source (Table 10.3). -/
def Seq.level (q : Seq) (src : Nat) : Bool :=
  if src < 20 then hasBit q.inputs src
  else if src < 28 then hasBit q.flags (src - 20)
  else if src = 28 then q.timeout
  else if src = 29 then !q.dmas.isEmpty
  else decide (src = 30)

/-- Latched input `i` rises in this cycle (R183). -/
def Seq.rises (q : Seq) (i : Nat) : Bool := hasBit q.inputs i && !hasBit q.prev i

/-- The test of a condition (R182). -/
def Seq.test (q : Seq) (src test : Nat) : Bool :=
  match test with
  | 0 => q.level src
  | 1 => !q.level src
  | _ => if src < 20 then hasBit q.latches src || (q.rises src && !hasBit q.seen src) else q.level src

/-- A true edge test clears the latch of its source (R183); an edge that met a latch set before this cycle keeps it. -/
def Seq.consume (q : Seq) (src test : Nat) : Seq :=
  if test = 2 ∧ src < 20 then
    { q with latches := putBit q.latches src (q.rises src && hasBit q.began src), seen := putBit q.seen src (hasBit q.seen src || q.rises src) }
  else q

/-- The sequencer can issue in this cycle. -/
def State.canIssue (s : State) (g : Nat) : Bool :=
  s.live g && !(s.gal g).seq.damped && !(s.gal g).seq.issued && decide ((s.gal g).seq.st = .issuing)

/-- A sequencer fault (R191): no effect, issue stops, the code and PC are recorded and reported. -/
def seqFault (g code : Nat) (s : State) : State :=
  let pc := (s.gal g).seq.pc
  ((s.putPar (galP g 0x07) (wd (pc % 1024 + 65536 * code))).modSeq g (fun q => { q with st := .fault })).raiseGal g 3
    ([BitVec.ofNat 8 code, 0] ++ leBytes 2 pc)

/-- Marks the issue of an instruction in this cycle: counted, and the watchdog's count returns to 0 (R192). -/
def markIssued (g : Nat) (s : State) : State :=
  (s.modSeq g (fun q => { q with issued := true, wdog := 0 })).tally64 (galP g 0x09) 1

/-- Continues at address `a`. -/
def goTo (g a : Nat) (s : State) : State := s.modSeq g (fun q => { q with pc := a })

/-- The instruction is done and the next address follows. -/
def goNext (g : Nat) (s : State) : State := s.modSeq g (fun q => { q with pc := q.pc + 1 })

/-- Issues the word at PC when it is instruction `op`: a reserved word faults with code 1, an instruction at 1,023 that
does not transfer control with code 4 (R179, R191), `bad` gives an instruction's own fault code, and `act` its
effect. -/
def issue (op : Nat) (transfers : Seq → Word → Bool) (bad : State → Seq → Word → Option Nat)
    (act : Nat → Word → State → State) (g : Nat) (s : State) : State :=
  if s.canIssue g then
    let q := (s.gal g).seq
    let w := q.word q.pc
    if 1023 < q.pc then seqFault g 4 s
    else if reservedOp w then seqFault g 1 s
    else if opOf w = op then
      match bad s q w with
      | some c => seqFault g c s
      | none => if q.pc = 1023 ∧ transfers q w = false then seqFault g 4 s else act g w (markIssued g s)
    else s
  else s

/-- The instruction passes on to the next address. -/
def passes (_ : Seq) (_ : Word) : Bool := false

/-- No fault of its own. -/
def sound (_ : State) (_ : Seq) (_ : Word) : Option Nat := none

/-- NOP (Table 10.2). -/
def execNop (g : Nat) (s : State) : Host.Outcome State Fault Refusal :=
  .next (issue 0x10 passes sound (fun g _ => goNext g) g s)

/-- HALT (Table 10.2): issue stops; only a gallery reset restarts it. -/
def execHalt (g : Nat) (s : State) : Host.Outcome State Fault Refusal :=
  .next (issue 0x11 passes sound (fun g _ s => s.modSeq g (fun q => { q with st := .halt })) g s)

/-- RET (Table 10.2): pops the return address; a fault on an empty stack. -/
def execRet (g : Nat) (s : State) : Host.Outcome State Fault Refusal :=
  .next (issue 0x12 (fun _ _ => true) (fun _ q _ => if q.stack.isEmpty then some 3 else none)
    (fun g _ s => s.modSeq g (fun q => { q with pc := q.stack.getLastD 0, stack := q.stack.dropLast })) g s)

/-- The conditions of FENCE but for the held frames (R186): every tap request granted and its burst completed, no DMA in
flight, no self-targeted frame in transit. -/
def Gallery.fenceMet (x : Gallery) : Bool :=
  x.tapQ.all (fun t => t.2.all (fun q => q.nowrite || (q.granted && decide (q.beats ≤ q.done)))) && x.seq.dmas.isEmpty &&
    decide (x.transit = 0)

/-- The FENCE completes: under a damper request the sequencer is then damped (R190). -/
def fenceDone (g : Nat) (s : State) : State :=
  let damp := s.damping g
  s.modSeq g (fun q => { q with pc := q.pc + 1, st := .issuing, issued := true, damped := damp })

/-- FENCE (R186). -/
def execFence (g : Nat) (s : State) : Host.Outcome State Fault Refusal :=
  .next (issue 0x13 passes sound (fun g _ s =>
    if (s.gal g).fenceMet && (s.gal g).hold.isEmpty then fenceDone g s
    else s.modSeq g (fun q => { q with st := .fence })) g s)

/-- FENCE_COMPLETE (R186, R368): held frames are written, once they hold the configuration port (R363), and issue
continues. -/
def execFenceComplete (g : Nat) (s : State) : Host.Outcome State Fault Refusal :=
  .next (
    if s.live g && decide ((s.gal g).seq.st = .fence) && !(s.gal g).seq.issued && !(s.gal g).seq.damped &&
        (s.gal g).fenceMet then
      (if (s.gal g).hold.isEmpty then fenceDone g s
       else
         let s := askPort g .held s
         if s.holdsPort g .held then fenceDone g (writeHeld g s) else s)
    else s)

/-- SWITCH (R166–R168): the next instruction follows, or the sequencer stalls until the context's fill. -/
def execSwitch (g : Nat) (s : State) : Host.Outcome State Fault Refusal :=
  .next (issue 0x1 passes sound (fun g w s =>
    let s := switchCtx g (fld w 5 0) s
    match (s.gal g).seq.st with
    | .switchStall _ => s
    | _ => goNext g s) g s)

/-- PREP (R170). -/
def execPrep (g : Nat) (s : State) : Host.Outcome State Fault Refusal :=
  .next (issue 0x2 passes sound (fun g w s => goNext g (queuePrefetch g (fld w 5 0) s)) g s)

/-- WAIT (Table 10.2): the next instruction issues n + 1 enabled cycles later. -/
def execWait (g : Nat) (s : State) : Host.Outcome State Fault Refusal :=
  .next (issue 0x3 passes sound (fun g w s =>
    if fld w 27 0 = 0 then goNext g s else s.modSeq g (fun q => { q with st := .waiting (fld w 27 0) })) g s)

/-- WAIT_DONE (R181): the count has expired. -/
def execWaitDone (g : Nat) (s : State) : Host.Outcome State Fault Refusal :=
  .next (
    if s.live g && decide ((s.gal g).seq.st = .waiting 0) && !(s.gal g).seq.damped then
      s.modSeq g (fun q => { q with pc := q.pc + 1, st := .issuing })
    else s)

/-- Source or test of a condition is reserved (R182). -/
def badCond (src test : Nat) : Bool := decide (src = 31 ∨ test = 3)

/-- WAITT (R183). -/
def execWaitt (g : Nat) (s : State) : Host.Outcome State Fault Refusal :=
  .next (issue 0x4 passes (fun _ _ w => if badCond (fld w 4 0) (fld w 6 5) then some 1 else none) (fun g w s =>
    s.modSeq g (fun q =>
      if q.test (fld w 4 0) (fld w 6 5) then
        { (q.consume (fld w 4 0) (fld w 6 5)) with timeout := false, pc := q.pc + 1 }
      else { q with st := .waitt (fld w 4 0) (fld w 6 5) (64 * fld w 27 8) (decide (fld w 27 8 ≠ 0)) })) g s)

/-- WAITT_MET (R183): the condition becomes true, its latch is consumed, TO is 0. -/
def execWaittMet (g : Nat) (s : State) : Host.Outcome State Fault Refusal :=
  .next (match (s.gal g).seq.st with
    | .waitt src test _ _ =>
      if s.live g && !(s.gal g).seq.issued && !(s.gal g).seq.damped && (s.gal g).seq.test src test then
        s.modSeq g (fun q =>
          { (q.consume src test) with timeout := false, pc := q.pc + 1, st := .issuing, issued := true })
      else s
    | _ => s)

/-- WAITT_TIMEOUT (R183): 64 × T enabled cycles have passed without the condition, and TO is 1. -/
def execWaittTimeout (g : Nat) (s : State) : Host.Outcome State Fault Refusal :=
  .next (match (s.gal g).seq.st with
    | .waitt src test left true =>
      if s.live g && !(s.gal g).seq.issued && !(s.gal g).seq.damped && decide (left ≤ 1) && !(s.gal g).seq.test src test then
        s.modSeq g (fun q => { q with timeout := true, pc := q.pc + 1, st := .issuing, issued := true })
      else s
    | _ => s)

/-- BR (Table 10.2). -/
def execBr (g : Nat) (s : State) : Host.Outcome State Fault Refusal :=
  .next (issue 0x5 (fun _ _ => true) sound (fun g w => goTo g (fld w 9 0)) g s)

/-- The words of the predicted path that the hint scan passes over (R184). -/
def passedOver (w : Word) : Bool := [0x10, 0x3, 0x4, 0x9, 0xA, 0xB, 0x2].contains (opOf w)

/-- The context that the hint scan of `n` more words finds from address `a` (R184). -/
def hintScan (q : Seq) : Nat → Nat → Option Nat
  | 0, _ => none
  | n + 1, a =>
    if 1023 < a then none
    else
      let w := q.word a
      if opOf w = 0x1 then some (fld w 5 0) else if passedOver w then hintScan q n (a + 1) else none

/-- BRC (R182, R184): branches on the condition; with H set the predicted path is prefetched. -/
def execBrc (g : Nat) (s : State) : Host.Outcome State Fault Refusal :=
  .next (issue 0x6 (fun q w => q.test (fld w 14 10) (fld w 16 15))
    (fun _ _ w => if badCond (fld w 14 10) (fld w 16 15) then some 1 else none) (fun g w s =>
      let q := (s.gal g).seq
      let taken := q.test (fld w 14 10) (fld w 16 15)
      let from' := if w.getLsbD 18 then fld w 9 0 else q.pc + 1
      let s := if w.getLsbD 17 then
          (match hintScan q 4 from' with | some c => queuePrefetch g c s | none => s) else s
      if taken then s.modSeq g (fun q => { (q.consume (fld w 14 10) (fld w 16 15)) with pc := fld w 9 0 })
      else goNext g s) g s)

/-- What LOOP does with counter `k` and count N (R185): the counter's new value and whether it branches. -/
def loopStep (q : Seq) (w : Word) : Option Nat × Bool :=
  let n := if fld w 23 12 = 0 then 4096 else fld w 23 12
  let v := (tabGet none q.lc (fld w 11 10)).getD (n - 1)
  if v ≠ 0 then (some (v - 1), true) else (none, false)

/-- LOOP (R185). -/
def execLoop (g : Nat) (s : State) : Host.Outcome State Fault Refusal :=
  .next (issue 0x7 (fun q w => (loopStep q w).2) sound (fun g w s =>
    s.modSeq g (fun q =>
      { q with lc := tabSet none q.lc (fld w 11 10) (loopStep q w).1
               pc := if (loopStep q w).2 then fld w 9 0 else q.pc + 1 })) g s)

/-- CALL (Table 10.2): pushes PC + 1; a fault on a full stack. -/
def execCall (g : Nat) (s : State) : Host.Outcome State Fault Refusal :=
  .next (issue 0x8 (fun _ _ => true) (fun _ q _ => if 4 ≤ q.stack.length then some 2 else none)
    (fun g w s => s.modSeq g (fun q => { q with stack := q.stack ++ [q.pc + 1], pc := fld w 9 0 })) g s)

/-- SETF (Table 10.2). -/
def execSetf (g : Nat) (s : State) : Host.Outcome State Fault Refusal :=
  .next (issue 0x9 passes sound (fun g w s =>
    s.modSeq g (fun q => { q with flags := q.flags ||| w.setWidth 8, pc := q.pc + 1 })) g s)

/-- The latches rising in this cycle. -/
def Seq.rising (q : Seq) : BitVec 20 := q.inputs &&& ~~~q.prev

/-- CLRF (Table 10.2): a latch whose edge arrives in the same cycle stays set (R183). -/
def execClrf (g : Nat) (s : State) : Host.Outcome State Fault Refusal :=
  .next (issue 0xA passes sound (fun g w s =>
    s.modSeq g (fun q =>
      let m := BitVec.ofNat 20 (fld w 27 8)
      { q with flags := q.flags &&& ~~~(w.setWidth 8), latches := (q.latches &&& ~~~m) ||| (q.latches &&& q.rising)
               pc := q.pc + 1 })) g s)

/-- EMIT (R188): a pulse on GOUT lines, and GAL_EMIT with its code when bit [4] is set. -/
def execEmit (g : Nat) (s : State) : Host.Outcome State Fault Refusal :=
  .next (issue 0xB passes sound (fun g w s =>
    let s := s.modSeq g (fun q => { q with pulse := q.pulse ||| w.setWidth 4, pc := q.pc + 1 })
    if w.getLsbD 4 then s.raiseGal g 1 [BitVec.ofNat 8 (fld w 12 5)] else s) g s)

/-- CAPT (R189): asks for a capture of this gallery at tick s + 16 + D. -/
def execCapt (g : Nat) (s : State) : Host.Outcome State Fault Refusal :=
  .next (issue 0xC passes (fun _ _ w => if 1 < fld w 1 0 then some 1 else none) (fun g w s =>
    goNext g (armCapture (fld w 1 0) 1 (1#16 <<< g) (s.clk.tick + BitVec.ofNat 64 (16 + fld w 21 2)) g s)) g s)

/-- The words of a DMA descriptor. -/
def Seq.desc (q : Seq) (a : Nat) : List Word := [q.word a, q.word (a + 1), q.word (a + 2), q.word (a + 3)]

/-- The descriptor is not valid (R187). -/
def badDesc (q : Seq) (a : Nat) : Bool :=
  let d := q.word a
  decide (a % 4 ≠ 0 ∨ 1020 < a) || decide (fld d 31 18 = 0) ||
    decide (2 ^ 21 < 16 * (fld d 16 0 + fld d 31 18))

/-- The transfer that a descriptor names (Table 10.4). -/
def dmaOf (id : Nat) (d : List Word) : Dma :=
  let a := d.getD 0 0
  let b := d.getD 2 0
  let c := d.getD 3 0
  { id := id, toMesh := !a.getLsbD 17, addr := 16 * fld a 16 0, units := fld a 31 18,
    remote := (d.getD 1 0).toNat + 2 ^ 32 * fld b 15 0, card := fld b 19 16, dx := fld b 22 20, dy := fld b 25 23,
    port := fld b 26 26, gt := b.getLsbD 27, doneFlag := if c.getLsbD 3 then some (fld c 2 0) else none,
    errFlag := if c.getLsbD 7 then some (fld c 6 4) else none, waiting := 0, failed := false }

/-- The DMA instruction starts its transfer and the next instruction follows. -/
def startDma (g : Nat) (w : Word) (s : State) : State :=
  s.modSeq g (fun q =>
    { q with dmas := q.dmas ++ [dmaOf q.nextDma (q.desc (fld w 9 0))], nextDma := q.nextDma + 1, pc := q.pc + 1
             st := .issuing })

/-- DMA (R187): starts a transfer, or stalls while two are in flight; a stalled DMA issues when a slot has freed. -/
def execDma (g : Nat) (s : State) : Host.Outcome State Fault Refusal :=
  .next (
    let q := (s.gal g).seq
    if decide (q.st = .dmaStall) && s.live g && !q.issued && !q.damped && decide (q.dmas.length < 2) then
      (if badDesc q (fld (q.word q.pc) 9 0) then seqFault g 5 s
       else startDma g (q.word q.pc) (markIssued g s))
    else
      issue 0xD passes (fun _ q w => if q.dmas.length < 2 ∧ badDesc q (fld w 9 0) = true then some 5 else none)
        (fun g w s =>
          if (s.gal g).seq.dmas.length < 2 then startDma g w s
          else s.modSeq g (fun q => { q with st := .dmaStall })) g s)

/-- Sets a flag that a descriptor names. -/
def setFlag (f : Option Nat) (q : Seq) : Seq := match f with | some n => { q with flags := putBit q.flags n true } | none => q

/-- A WRITE of the transfer has not yet been accepted by the gallery's router. -/
def Dma.queued (d : Dma) (s : State) (g : Nat) : Bool :=
  d.toMesh && s.mesh.ready.any (fun p =>
    decide (p.cmd = 0 ∧ 6 * p.sy + p.sx = galNode g ∧ p.sport = 0 ∧ p.scard = s.card ∧ p.dx = d.dx ∧ p.dy = d.dy ∧
      p.dport = d.port ∧ p.dcard = d.card))

/-- DMA_COMPLETE (R187): the transfer has no packet left and no answer outstanding, or ended on an error. -/
def execDmaComplete (g d : Nat) (s : State) : Host.Outcome State Fault Refusal :=
  .next (match (s.gal g).seq.dmas.find? (fun x => decide (x.id = d)) with
    | none => s
    | some x =>
      let drop := fun (q : Seq) => { q with dmas := q.dmas.filter (fun y => !decide (y.id = d)) }
      if x.failed then (s.modSeq g (fun q => setFlag x.errFlag (drop q))).count (galP g 0x08) 1
      else if x.units = 0 ∧ x.waiting = 0 ∧ x.queued s g = false then
        (s.modSeq g (fun q => setFlag x.doneFlag (drop q))).tally (galP g 0x9F) 1
      else s)

/-- Latches one edge (R183): the latch is set and counted, or the edge is lost to a set latch. -/
def latchEdge (g i : Nat) (s : State) : State :=
  let q := (s.gal g).seq
  if q.rises i && !hasBit q.seen i then
    let s := s.modSeq g (fun q => { q with latches := putBit q.latches i true, seen := putBit q.seen i true })
    if hasBit q.latches i then s.count (galP g 0x06) 1
    else if i < 16 then s.tally (galP g (0x10 + i)) 1 else s
  else s

/-- TRIGGER_EDGE (R183): latches are not gated. -/
def execTriggerEdge (g i : Nat) (s : State) : Host.Outcome State Fault Refusal :=
  .next (if s.clocked && !s.kin.gsr && s.galOn g && decide (i < 20) then latchEdge g i s else s)

/-- The tap requests of a gallery end: an open store at its last complete beat (R216). -/
def dropTaps (g : Nat) (s : State) : State :=
  let s := releaseBursts g (fun r => decide (r < 32)) s
  s.modGal g (fun x =>
    { x with tapQ := []
             requests := x.requests.map (fun q =>
               if q.requester < 32 && q.withdrawn.isNone then { q with withdrawn := some s.clk.cyc } else q) })

/-- A gallery reset (Table 4.6, R176, R203): the sequencer to its entry point with stack, flags and latches clear, taps
and bursts ended, queued prefetches discarded, the damper open, so that a DAMPER_CLOSE no longer waits for it; planes,
banks, memories and the hold stay. -/
def galleryReset (g : Nat) (s : State) : State :=
  let s := dropTaps g s
  let s := s.modGal g (fun x =>
    { x with
      prefetch := [], demand := none, resetDue := false
      engine := x.engine.map (fun t => { t with demand := false })
      seq := { x.seq with pc := x.seq.entry, stack := [], flags := 0, timeout := false, latches := 0, began := 0,
                          st := .issuing, damped := false, issued := true, wdog := 0, pulse := 0 } })
  let drains := decide ((s.dom g).damper = .closing)
  let s := s.modDom g (fun d => if d.st = .on then { d with damper := .openD, step := 0, fenced := false } else d)
  let s := if s.halted g then
      { s with capt := { s.capt with
          perGal := tabMod CaptGal.reset s.capt.perGal g (fun c => { c with wasReset := true }) } }
    else s
  if drains then damperDone g false false s else s

/-- A hold condition of the watchdog is present (R192). -/
def State.wdogHolds (s : State) (g : Nat) : Bool :=
  let x := s.gal g
  !x.seq.damped &&
  ((match x.seq.st with | .switchStall _ => true | .fence => true | .dmaStall => true | _ => false) ||
   x.banks.any (fun b => match b.2.burst with | some (r, _, _) => decide (r < 33) | none => false))

/-- WATCHDOG_BITE (R192): a gallery reset, the count, the event, and the isolation that GAL_FAULT_POLICY asks for. -/
def execWatchdogBite (g : Nat) (s : State) : Host.Outcome State Fault Refusal :=
  .next (
    let lim := fld (s.par (galP g 0x04)) 23 0
    let q := (s.gal g).seq
    if lim ≠ 0 ∧ lim ≤ q.wdog then
      let st := q.pc % 1024 + 1024 * q.code (s.halted g) + 2 ^ 14 * q.stack.length + flag q.timeout 17 +
        2 ^ 18 * q.dmas.length
      let s := (galleryReset g s).count (galP g 0x05) 1
      faultPolicy g 0 (s.raiseGal g 0 (leBytes 2 q.pc ++ [0, 0] ++ leBytes 4 st))
    else s)

/-- The next packet of a transfer whose data goes to the mesh (R187): up to 512 bytes from stream memory; an
uncorrectable word ends the transfer. -/
def dmaSend (g : Nat) (d : Dma) (s : State) : State :=
  let n := min 32 d.units
  match readBeats g 32 n d.addr s with
  | (b, bad, s) =>
    if bad then modDma g d.id (fun x => { x with failed := true }) s
    else
      let p := { blankPacket with
        dx := d.dx, dy := d.dy, dport := d.port, dcard := d.card, gt := d.gt, cmd := 0, len := (n + 1) / 2,
        half := decide (n % 2 = 1), addr := d.remote, valid := BitVec.allOnes 128, data := b }
      modDma g d.id (fun x => { x with units := x.units - n, addr := x.addr + 16 * n, remote := x.remote + 16 * n })
        (present (withFlow s (sourced s (.gal g) p)) s)

/-- The next request of a transfer whose data comes from the mesh (R187), up to 64 outstanding (R225). -/
def dmaAsk (g : Nat) (d : Dma) (s : State) : State :=
  if 64 ≤ s.outstanding (galNode g) 0 then s
  else
    let n := min 32 d.units
    let p := { blankPacket with
      dx := d.dx, dy := d.dy, dport := d.port, dcard := d.card, gt := d.gt, cmd := 1, len := (n + 1) / 2,
      half := decide (n % 2 = 1), addr := d.remote, valid := BitVec.allOnes 128 }
    let s := request (.gal g) (withFlow s (sourced s (.gal g) p)) (.dma g d.id d.addr (16 * n)) s
    modDma g d.id (fun x =>
      { x with units := x.units - n, addr := x.addr + 16 * n, remote := x.remote + 16 * n, waiting := x.waiting + 1 }) s

/-- One step of the DMA transfers of gallery g: the oldest that has packets left sends one; a halted gallery's pause
(R413). -/
def dmaCycle (g : Nat) (s : State) : State :=
  if s.halted g then s
  else match (s.gal g).seq.dmas.find? (fun d => decide (0 < d.units) && !d.failed) with
    | some d => if d.toMesh then dmaSend g d s else dmaAsk g d s
    | none => s

/-- The end of a core cycle at the sequencer: unhandled edges are latched; in an enabled cycle counts run and GOUT takes
its next level (R183, R188, R192). -/
def seqCycle (g : Nat) (s : State) : State :=
  let rise := (s.gal g).seq.rising &&& ~~~(s.gal g).seq.seen
  let s := if rise = 0 ∨ s.kin.gsr = true then s else (setBits 20 rise.toNat).foldl (fun s i => latchEdge g i s) s
  let q := (s.gal g).seq
  let live := s.live g
  let s := match q.st with
    | .switchStall _ => if q.issued then s else s.count (galP g 0x75) 1
    | _ => s
  let s := if !live || q.damped then s
    else match q.st with
      | .switchStall _ => s.tally64 (galP g 0x0B) 1
      | .fence => s.tally64 (galP g 0x0B) 1
      | .dmaStall => s.tally64 (galP g 0x0B) 1
      | .waiting _ => s.tally64 (galP g 0x0D) 1
      | .waitt _ _ _ _ => s.tally64 (galP g 0x0D) 1
      | _ => s
  let hold := s.wdogHolds g
  s.modSeq g (fun q =>
    let st := if live && !q.damped then
        (match q.st with
         | .waiting n => if q.issued then .waiting n else .waiting (n - 1)
         | .waitt a b n t => .waitt a b (n - 1) t
         | st => st) else q.st
    { q with st := st, gout := q.flags.setWidth 4 ||| q.pulse, pulse := 0, issued := false, seen := 0
             wdog := if live && hold then q.wdog + 1 else q.wdog
             prev := q.inputs, began := q.latches })

end Sys2Proof.Machine
end

