-- ==== Sys2Proof/Machine/Mesh.lean ====
section
/-!
DEFINITION. Routing (R227, R228), link errors (R237), the arrival of a packet at its destination router (R24, R239–R242),
and the time limit of transactions (R235).
-/

namespace Sys2Proof.Machine

/-- The byte of NOC_CARD_ROUTE for card `c` (Table 13.5). -/
def State.routeOf (s : State) (c : Nat) : Nat := bits (s.parN (0x3004 + c / 4)) (8 * (c % 4) + 7) (8 * (c % 4))

/-- The seam port that leads to card `c`, when there is a valid route through a port in seam-link mode (R228). -/
def State.seamTo (s : State) (c : Nat) : Option Nat :=
  let r := s.routeOf c
  let p := bits r 3 0
  if s.card ≠ 15 ∧ bitOf r 4 = true ∧ s.variant.hasPort p = true ∧ s.protocol p = 2 then some p else none

/-- The seam link at this end is in active replay (R276). -/
def Seam.replaying (q : Seam) : Bool := q.episode.isSome || q.nakPending || q.peerReplay

/-- The seam link of port p is up. -/
def State.seamUp (s : State) (p : Nat) : Bool := decide ((s.port p).seam.state = 5)

/-- The packet came from this card. -/
def State.isOwn (s : State) (p : Packet) : Bool := decide (p.scard = s.card)

/-- READ_RSP and ERROR. -/
def isAnswer (p : Packet) : Bool := decide (p.cmd = 2 ∨ p.cmd = 6)

/-- A packet that cannot be delivered: a request of this card ends at its source, one of another card is answered, a
posted packet or an answer is dropped and counted in `ctr` (R225, R226, R228). -/
def bounce (ctr status : Nat) (p : Packet) (s : State) : State :=
  if awaits p then
    if s.isOwn p then
      (match s.findTrans (6 * p.sy + p.sx) p.sport p.tag with | some t => endTrans t status [] s | none => s)
    else replyError p status s
  else s.count ctr 1

/-- A packet that its target refuses: a request receives ERROR, an answer is for a retired tag (R236), a posted packet
is dropped and counted in `ctr`. -/
def turnAway (ctr status : Nat) (p : Packet) (s : State) : State :=
  if awaits p then replyError p status s
  else if isAnswer p then s.count 0x3021 1
  else s.count ctr 1

/-- Two packets travel in one stream: class, source and destination local ports agree (R221). -/
def sameStream (p q : Packet) : Bool :=
  decide (p.gt = q.gt ∧ p.sx = q.sx ∧ p.sy = q.sy ∧ p.sport = q.sport ∧ p.scard = q.scard ∧
    p.dx = q.dx ∧ p.dy = q.dy ∧ p.dport = q.dport ∧ p.dcard = q.dcard)

/-- The packet at index `i` is the first of its stream. -/
def firstInStream (l : List Packet) (i : Nat) : Bool :=
  match l[i]? with | some p => !(l.take i).any (sameStream p) | none => false

/-- A packet enters the mesh: its units are counted at every output of its path (Table 18.6). -/
def countPath (path : List (Nat × Nat)) (p : Packet) (s : State) : State :=
  path.foldl (fun s o =>
    let s := s.tally (0x3300 + 4 * o.1 + o.2) (unitsOf p)
    if p.gt then s.tally (0x3380 + 4 * o.1 + o.2) (unitsOf p) else s) s

/-- What the links of the path do to the packet (R237): the packet that travels on, if it does. -/
def crossLinks (err : LinkError) (path : List (Nat × Nat)) (p : Packet) (s : State) : Option Packet × State :=
  match err with
  | .none => (some p, countPath path p s)
  | .corrected => (some p, (countPath path p s).count 0x3027 1)
  | .data => (some (if unitsOf p = 1 then p else { p with poison := true }), countPath path p s)
  | .header n d =>
    if path.contains (n, d) then
      (none, (countPath (path.takeWhile (fun o => decide (o ≠ (n, d))) ++ [(n, d)]) p s).raise 0xC9
        [BitVec.ofNat 8 n, BitVec.ofNat 8 d])
    else (some p, countPath path p s)

/-- A COMMIT of a self-targeted frame leaves its gallery's router: from this cycle the frame is in transit for the
gallery's next FENCE (R368). -/
def noteCommit (p : Packet) (s : State) : State :=
  let keeper := decide (p.dx = 0 ∧ p.dy = 4 ∧ p.dport = 0 ∧ p.dcard = s.card) && s.kin.writeEn && s.isOwn p && !p.poison
  match targetAt p.sx p.sy p.sport with
  | .gal g =>
    let cmd := slice p.data (0x200 - p.addr) 16
    let commit := decide (p.cmd = 0 ∧ p.addr ≤ 0x200 ∧ 16 ≤ cmd.length) && bitOf (byteAt cmd 6).toNat 0 &&
      selfTargeted g (leAt cmd 0 4)
    let submit := decide (p.cmd = 5) && selfTargeted g (p.addr % 2 ^ 32)
    if keeper && (commit || submit) then s.modGal g (fun x => { x with transit := x.transit + 1 }) else s
  | _ => s

/-- The class in which a packet leaves its source: a GT packet that crosses a card or does not conform travels as BE and
is counted (R228, R232). -/
def demote (p : Packet) (s : State) : Packet × State :=
  if p.gt && (decide (p.dcard ≠ s.card) || !s.conforms p) then ({ p with gt := false }, s.count 0x3026 1) else (p, s)

/-- The node from which a packet that entered this card over a seam port is routed: the port's own (R268). -/
def State.entry (s : State) (p : Packet) : Packet :=
  if s.isOwn p then p
  else match s.seamTo p.scard with
    | some k => { p with sx := nodeX (portNode k), sy := nodeY (portNode k) }
    | none => p

/-- The source router sends the packet on its way, to the destination or to the seam port of its card. -/
def sendOn (err : LinkError) (p : Packet) (to' : Nat × Nat) (s : State) : State :=
  match demote p s with
  | (p, s) =>
    match crossLinks err (meshPath (s.entry p).sx (s.entry p).sy to'.1 to'.2) p s with
    | (none, s) => s
    | (some q, s) =>
      let s := noteCommit q s
      let f : Flying := { pkt := q, since := s.clk.cyc, late := !q.gt || decide ((s.flowWindows q.flow).length ≤ s.flowWaiting q.flow) }
      if q.gt then { s with mesh := { s.mesh with gtWait := s.mesh.gtWait ++ [f] } }
      else { s with mesh := { s.mesh with flight := s.mesh.flight ++ [f] } }

/-- A dead unit's answer that still leaves: an ERROR with status DEAD comes from its router, and the ERROR with status
ECC of the very read that marked the gallery dead (R217, cause 2 of R238) is sent. -/
def State.leavesDead (s : State) (p : Packet) : Bool :=
  decide (p.cmd = 6) && (decide (p.status = stDead) || (decide (p.status = stEcc) &&
    (match targetAt p.sx p.sy p.sport with
     | .gal g => decide (bits (s.parN (galP g 0xA1)) 7 0 = 2)
     | _ => false)))

/-- What the source router does with a packet presented to it (R224, R226–R228, R239, R277). -/
def routePacket (err : LinkError) (p : Packet) (s : State) : State :=
  if s.isOwn p && s.deadAt p.sx p.sy p.sport && !s.leavesDead p then
    let s := s.count 0x3022 1
    match s.findTrans (6 * p.sy + p.sx) p.sport p.tag with
    | some t => if awaits p then endTrans t stDead [] s else s
    | none => s
  else if p.cmd = 7 then s.count 0x3025 1
  else if 5 < p.dx ∨ 4 < p.dy then bounce 0x3025 stNoTarget p s
  else if p.dcard = s.card then sendOn err p (p.dx, p.dy) s
  else match s.seamTo p.dcard with
    | none => bounce 0x3025 stNoTarget p s
    | some k =>
      if s.seamUp k then sendOn err p (nodeX (portNode k), nodeY (portNode k)) s
      else bounce (portP k 0x4A) stLinkDown p s

/-- PACKET_SEND (R227, R228, R232, R237): the source router takes a packet that a unit has presented, or one that a unit
of this card presents now as a packet of its own; a request opens its transaction, and at 64 outstanding ones the
source stalls (R225). -/
def execPacketSend (p : Packet) (err : LinkError) (s : State) : Host.Outcome State Fault Refusal :=
  .next (
    if !s.clocked then s
    else match firstBelow s.mesh.ready.length (fun i => decide (s.mesh.ready[i]? = some p)) with
      | some i =>
        if firstInStream s.mesh.ready i then
          routePacket err p { s with mesh := { s.mesh with ready := s.mesh.ready.eraseIdx i } }
        else s
      | none =>
        let q := { p with scard := s.card }
        let n := 6 * p.sy + p.sx
        if decide (targetAt p.sx p.sy p.sport = .nothing) || s.absentAt p.sx p.sy p.sport then s
        else if awaits q then
          (if 64 ≤ s.outstanding n p.sport ∨ (s.findTrans n p.sport p.tag).isSome = true then s
           else routePacket err q { s with mesh := { s.mesh with trans := s.mesh.trans ++
             [{ node := n, port := p.sport, tag := p.tag, dcard := p.dcard, dnode := 6 * p.dy + p.dx,
                dport := p.dport, purpose := .message }] } })
        else routePacket err q s)

/-- GT_WINDOW_SEND (R232, R233): a waiting packet leaves in its window; when its flow has lost its slots or the window
is too short, it travels as BE. -/
def execGtWindowSend (i : Nat) (s : State) : Host.Outcome State Fault Refusal :=
  .next (
    match s.mesh.gtWait[i]? with
    | none => s
    | some f =>
      let k := f.pkt.flow
      let rest := { s with mesh := { s.mesh with gtWait := s.mesh.gtWait.eraseIdx i } }
      if !s.clocked || (s.mesh.gtWait.take i).any (fun e => decide (e.pkt.flow = k)) then s
      else if !s.flowOn k then
        ({ rest with mesh := { rest.mesh with flight := rest.mesh.flight ++ [{ f with pkt := { f.pkt with gt := false }, late := true }] } }
          : State).count 0x3026 1
      else match (s.flowWindows k).find? (fun w => decide (s.untilWindow w = 0)) with
        | none => s
        | some w =>
          if unitsOf f.pkt ≤ w.2 then
            ({ rest with mesh := { rest.mesh with flight := rest.mesh.flight ++ [f] } } : State).count (flowP k 3) 1
          else
            ({ rest with mesh := { rest.mesh with flight := rest.mesh.flight ++ [{ f with pkt := { f.pkt with gt := false }, late := true }] } }
              : State).count 0x3026 1)

/-- The power domain of a target. -/
def Target.dom : Target → Option Nat
  | .gal g => some g
  | .port p => some (16 + p / 2)
  | .tinder => some 24
  | _ => none

/-- The bit of a target in NOC_DEAD. -/
def Target.unit : Target → Option Nat
  | .gal g => some g
  | .port p => some (16 + p)
  | _ => none

/-- The target is absent on this variant (R24). -/
def Target.absent (v : Variant) : Target → Bool
  | .gal g => !v.hasGal g
  | .port p => !v.hasPort p
  | _ => false

/-- The domain exists, so that its power state governs the target. -/
def Target.domain (v : Variant) (t : Target) : Option Nat := t.dom.filter v.hasDom

/-- Re-kindling of gallery g can start without a host command: it is off, not held off by a thermal-critical stop (R72),
and the running image is in flash (R377). -/
def State.canRekindle (s : State) (g : Nat) : Bool :=
  decide ((s.dom g).st = .off ∧ (s.dom g).rekindling = false ∧ (s.dom g).critical = false) && !s.img.host && s.user

/-- Re-kindling starts (R376). -/
def startRekindle (g : Nat) (s : State) : State := s.modDom g (fun d => { d with rekindling := true })

/-- A packet reaches a domain that is off or re-kindling (R242). -/
def absorbOff (d : Nat) (p : Packet) (s : State) : State :=
  let first := !(s.dom d).asleepDone
  let wants := decide (d < 16) && (decide (p.cmd = 4) || (first && (s.par (galP d 0x44)).getLsbD 0)) && s.canRekindle d
  let s := if wants then startRekindle d s else s
  let s := if first then
      (s.modDom d (fun x => { x with asleepDone := true })).raise 0xC5 [BitVec.ofNat 8 d, if wants then 1 else 0]
    else s
  if p.cmd = 4 then s else turnAway 0x3024 stAsleep p s

/-- Two packets come from one source local port. -/
def sameSource (p q : Packet) : Bool :=
  decide (p.sx = q.sx ∧ p.sy = q.sy ∧ p.sport = q.sport ∧ p.scard = q.scard)

/-- Two packets go to one local port of this card. -/
def sameDest (p q : Packet) : Bool := decide (p.dx = q.dx ∧ p.dy = q.dy ∧ p.dport = q.dport)

/-- The router holds the packet: the first of its source, up to 32 per local port; the others wait behind them on their
links (R240). -/
def holdPacket (f : Flying) (s : State) : State :=
  let f := { f with late := true }
  let here := s.mesh.held.filter (fun q => sameDest q.pkt f.pkt)
  if here.any (fun q => sameSource q.pkt f.pkt) || decide (32 ≤ here.length) then
    { s with mesh := { s.mesh with pressed := s.mesh.pressed ++ [f] } }
  else { s with mesh := { s.mesh with held := s.mesh.held ++ [f] } }

/-- A packet reaches a sleeping domain (R241): the wake starts, and the packet is held; a WAKE is absorbed. -/
def holdAsleep (d : Nat) (f : Flying) (s : State) : State :=
  let s := if (s.dom d).waking then s
    else (s.modDom d (fun x => { x with waking := true })).raise 0xC4 [BitVec.ofNat 8 d]
  if f.pkt.cmd = 4 then s else holdPacket f s

/-- The router holds inbound packets of a local port in domain `d`: fenced by the damper or by a HALT capture, or,
from the end of damper step 2, all but answers (Table 21.3). -/
def State.holdsAt (s : State) (d : Nat) (p : Packet) : Bool :=
  decide (d ≠ 24) && ((s.dom d).fenced || (decide (d < 16) && s.halted d) ||
    (decide ((s.dom d).damper = .closing ∧ 3 ≤ (s.dom d).step) && !isAnswer p))

/-- What the destination router does with a packet before the local port takes it; none when it hands it over. -/
def gate (t : Target) (f : Flying) (s : State) : Option State :=
  let p := f.pkt
  if t.absent s.variant then some (turnAway 0x3023 stAbsent p s)
  else if (match t.unit with | some u => s.isDead u | none => false) then some (turnAway 0x3022 stDead p s)
  else match t.domain s.variant with
    | none => none
    | some d =>
      if (s.dom d).st = .off ∨ (s.dom d).rekindling = true then some (absorbOff d p s)
      else if (s.dom d).st = .sleep then some (holdAsleep d f s)
      else if s.holdsAt d p then some (holdPacket f s)
      else none

/-- The time of a GT packet from its presentation to its hand-over, where R233 measures it (Table 18.6). -/
def noteWorst (f : Flying) (s : State) : State :=
  if f.pkt.gt && !f.late then
    let n := 0x3080 + f.pkt.flow
    let v := min 0xFFFFFF (s.clk.cyc - f.since)
    if s.parN n < v then s.putPar n (wd v) else s
  else s

/-- The packet at index `i` of the mesh arrives, when it is for this card, carries one of the commands `cmds`, goes to a
target that `at'` takes, and is the first of its stream.  A poisoned WRITE or CONFIG is dropped at its target (R237). -/
def arrive (i : Nat) (cmds : List Nat) (at' : Target → Bool) (act : Target → Packet → State → State) (s : State) : State :=
  match s.mesh.flight[i]? with
  | none => s
  | some f =>
    let p := f.pkt
    let t := targetAt p.dx p.dy p.dport
    if !s.clocked || !cmds.contains p.cmd || decide (p.dcard ≠ s.card) || !at' t ||
        !firstInStream (s.mesh.flight.map (·.pkt)) i then s
    else
      let s := { s with mesh := { s.mesh with flight := s.mesh.flight.eraseIdx i } }
      match gate t f s with
      | some s => s
      | none =>
        let s := noteWorst f s
        if p.poison && decide (p.cmd = 0 ∨ p.cmd = 5) then s.count 0x3028 1 else act t p s

/-- A packet is bound for a local port of domain `d`. -/
def State.boundFor (s : State) (d : Nat) (f : Flying) : Bool :=
  decide (f.pkt.dcard = s.card ∧ (targetAt f.pkt.dx f.pkt.dy f.pkt.dport).dom = some d)

/-- The local ports of domain `d` open: held packets are delivered in arrival order, back-pressured ones follow (R240). -/
def releaseHeld (d : Nat) (s : State) : State :=
  let out := s.mesh.held.filter (s.boundFor d) ++ s.mesh.pressed.filter (s.boundFor d)
  { s with mesh := { s.mesh with
      held := s.mesh.held.filter (fun f => !s.boundFor d f)
      pressed := s.mesh.pressed.filter (fun f => !s.boundFor d f)
      flight := out ++ s.mesh.flight } }

/-- The flows whose packets are held for domain `d`, as a mask of F0–F127 (R241). -/
def State.heldFlows (s : State) (d : Nat) : Nat :=
  maskOf 128 (fun k => (s.mesh.held ++ s.mesh.pressed).any (fun f => s.boundFor d f && f.pkt.gt && decide (f.pkt.flow = k)))

/-- A GT lapse is reported once per wake, with the flows concerned (R241). -/
def reportLapse (d : Nat) (s : State) : State :=
  if s.heldFlows d = 0 then s else s.raise 0xC3 ([BitVec.ofNat 8 d, 0, 0, 0] ++ leBytes 16 (s.heldFlows d))

/-- TRANSACTION_TIMEOUT (R235): the transaction ends with TIMEOUT; its timer stands still while the link on its path is
in active replay (R276). -/
def execTransactionTimeout (node port tag : Nat) (s : State) : Host.Outcome State Fault Refusal :=
  .next (match s.findTrans node port tag with
    | none => s
    | some t =>
      let paused := decide (t.dcard ≠ s.card) &&
        (match s.seamTo t.dcard with | some k => (s.port k).seam.replaying | none => false)
      if paused || !s.clocked then s
      else
        endTrans t stTimeout [] ((s.count 0x3020 1).raise 0xC0
          ([BitVec.ofNat 8 (nodeX node), BitVec.ofNat 8 (nodeY node), BitVec.ofNat 8 port, 0] ++ leBytes 2 tag)))

end Sys2Proof.Machine
end

