-- ==== Sys2Proof/Machine/Icp.lean ====
section
/-!
DEFINITION. The internal configuration port (R366–R368) and CONFIG packets at their targets (R359, R367).
-/

namespace Sys2Proof.Machine

/-- The gallery of this card that sent the packet (R366). -/
def State.writerOf (s : State) (p : Packet) : Option Nat :=
  if s.isOwn p then (match targetAt p.sx p.sy p.sport with | .gal g => some g | _ => none) else none

/-- The bytes that a WRITE stores: the last unit of a HALF packet carries 16. -/
def byteCount (p : Packet) : Nat := 32 * p.len - (if p.half then 16 else 0)

/-- The bytes of a WRITE. -/
def writeData (p : Packet) : List Byte := (p.data ++ List.replicate (byteCount p - p.data.length) 0).take (byteCount p)

/-- The command of a staging area with COMMIT set (Table 21.1). -/
def isCommit (cmd : List Byte) : Bool := bitOf (byteAt cmd 6).toNat 0

/-- A commit that finds the staging area busy is refused: recorded, counted and reported, the frame in progress is not
disturbed (R367). -/
def refuseCommit (g : Nat) (cmd : List Byte) (s : State) : State :=
  let cfa := leAt cmd 0 4
  let s := modStaging g (fun x => { x with seq := leAt cmd 4 2, status := stBusy, cfa := cfa, held := false }) s
  let s := if selfTargeted g cfa then s.modGal g (fun x => { x with transit := x.transit - 1 }) else s
  (s.count (galP g 0x52) 1).raise 0xD8 ([BitVec.ofNat 8 g, BitVec.ofNat 8 stBusy, 0, 0] ++ leBytes 4 cfa)

/-- A write of the command bytes (R367). -/
def stageCommand (g : Nat) (cmd : List Byte) (s : State) : State :=
  if (s.gal g).staging.busy then (if isCommit cmd then refuseCommit g cmd s else s)
  else modStaging g (fun x => { x with command := cmd, busy := isCommit cmd, held := false }) s

/-- A WRITE of writer g to its staging area (Table 21.1): the frame data unless the area is busy, then the command. -/
def stageWrite (g : Nat) (p : Packet) (s : State) : State :=
  let d := writeData p
  let frame := d.take (0x200 - p.addr)
  let s := if (s.gal g).staging.busy then s
    else modStaging g (fun x => { x with data := memWrite x.data p.addr frame }) s
  let cmd := slice d (0x200 - p.addr) 16
  if p.addr ≤ 0x200 ∧ cmd.length = 16 then stageCommand g cmd s else s

/-- A WRITE at the keeper bridge (R366): the staging area of the gallery that sent it, discarded before write enable
(R89); anything else is dropped and counted. -/
def writeAtKeeper (p : Packet) (s : State) : State :=
  match s.writerOf p with
  | some g =>
    if p.addr % 16 = 0 ∧ p.addr + byteCount p ≤ 0x210 then (if s.kin.writeEn then stageWrite g p s else s)
    else s.count 0x3025 1
  | none => s.count 0x3025 1

/-- The status record of a staging area (Table 21.1). -/
def Staging.record (x : Staging) : List Byte :=
  leBytes 2 x.seq ++ [BitVec.ofNat 8 x.status, BitVec.ofNat 8 (flag x.busy 0 + flag x.held 1)] ++ leBytes 4 x.cfa ++
    List.replicate 24 0

/-- A READ_REQ at the keeper bridge: the status record of the gallery that asks (R366). -/
def readAtKeeper (p : Packet) (s : State) : State :=
  match s.writerOf p with
  | some g =>
    if p.addr = 0x210 ∧ p.len = 1 then replyData p 1 (s.gal g).staging.record s else replyError p stNoTarget s
  | none => replyError p stNoTarget s

/-- The target that a frame's CFA names: a gallery, or the Tinder fabric. -/
def frameTarget (cfa : Nat) : Target := if cfaKind cfa = 3 then .tinder else .gal (cfaGal cfa)

/-- The bridge applies checks 1 and 2 of R365 and forwards the frame as a BE CONFIG packet, or ends it with the refusal
(R367).  The packet's CODE carries the writer (note 21, DESIGN CHOICE). -/
def forwardFrame (g seq cfa : Nat) (d : List Byte) (ask : Option Packet) (s : State) : State :=
  if needsAbsent s.variant cfa d then icpOutcome g seq cfa ask stAbsentUnit s
  else if !serviceKind s cfa then icpOutcome g seq cfa ask stRange s
  else
    request .keeper
      (toward s.card (frameTarget cfa)
        { blankPacket with cmd := 5, len := 16, addr := cfa, code := g, valid := BitVec.allOnes 128, data := d })
      (.icp g seq cfa ask) s

/-- The frame that writer g has committed has been forwarded and its outcome is not known yet. -/
def State.forwarded (s : State) (g : Nat) : Bool :=
  s.mesh.trans.any (fun t => match t.purpose with | .icp w _ _ none => decide (w = g) | _ => false)

/-- ICP_COMMIT (R367): the bridge takes the staged frame. -/
def execIcpCommit (g : Nat) (s : State) : Host.Outcome State Fault Refusal :=
  .next (
    let x := (s.gal g).staging
    if !s.clocked || !x.busy || s.forwarded g || decide (64 ≤ s.outstanding 24 0) then s
    else forwardFrame g (leAt x.command 4 2) (leAt x.command 0 4) (memRead x.data 0 512) none s)

/-- A CONFIG packet at the keeper bridge (R366): a submission of a gallery of this card, discarded before write enable
(R89). -/
def submitAtKeeper (p : Packet) (s : State) : State :=
  match s.writerOf p with
  | some g =>
    if !s.kin.writeEn then s
    else forwardFrame g 0 (packetFrame p).1 (packetFrame p).2 (some p) s
  | none => replyError p stNoTarget s

/-- ICP_CONFIG_SUBMIT (R366). -/
def execIcpConfigSubmit (i : Nat) (s : State) : Host.Outcome State Fault Refusal :=
  .next (if 64 ≤ s.outstanding 24 0 then s
    else arrive i [5] (fun t => decide (t = .keeper)) (fun _ p s => submitAtKeeper p s) s)

/-- ICP_STAGE_WRITE (R366). -/
def execIcpStageWrite (i : Nat) (s : State) : Host.Outcome State Fault Refusal :=
  .next (arrive i [0] (fun t => decide (t = .keeper)) (fun _ p s => writeAtKeeper p s) s)

/-- A self-targeted frame at its gallery: held, or refused when the hold is full (R368). -/
def holdFrame (g : Nat) (p : Packet) (s : State) : State :=
  if 4 ≤ (s.gal g).hold.length then replyError p stBusy s
  else
    replyData p 0 [] (s.modGal g (fun x =>
      { x with transit := x.transit - 1, hold := x.hold ++ [{ cfa := (packetFrame p).1, writer := some g, data := (packetFrame p).2 }] }))

/-- A CONFIG packet at a gallery or the Tinder fabric (R367): from this card's keeper bridge only; check 3 of R365; a
self-targeted frame is held, any other is written when the port grants it. -/
def configAt (t : Target) (p : Packet) (s : State) : State :=
  let cfa := (packetFrame p).1
  let bridge := s.isOwn p && decide (p.sx = 0 ∧ p.sy = 4 ∧ p.sport = 0)
  if !bridge || decide (t ≠ frameTarget cfa) then replyError p stNoTarget s
  else if needsAbsent s.variant cfa (packetFrame p).2 then replyError p stAbsentUnit s
  else if !serviceKind s cfa || !contentOk cfa (packetFrame p).2 then replyError p stRange s
  else if selfTargeted p.code cfa then holdFrame (cfaGal cfa) p s
  else askPort (cfaPort cfa) (.icp p) s

/-- MESH_CONFIG (R359, R367, R368): a CONFIG packet at a gallery or Tinder node; elsewhere but the keeper bridge it
receives NO_TARGET (R226). -/
def execMeshConfig (i : Nat) (s : State) : Host.Outcome State Fault Refusal :=
  .next (arrive i [5] (fun t => decide (t ≠ .keeper)) (fun t p s =>
    match t with
    | .gal _ => configAt t p s
    | .tinder => configAt t p s
    | _ => replyError p stNoTarget s) s)

end Sys2Proof.Machine
end

