-- ==== Sys2Proof/Machine/Ports.lean ====
section
/-!
DEFINITION. Stream ports and JESD204C links (chapter 14): link configuration, start and loss, SYSREF, samples and packets,
equalisation, the port reset, and the loss of a seam link (R277).
-/

namespace Sys2Proof.Machine

/-- The configuration word `k` of lead port `l` (0x60 + k: Table 14.5). -/
def State.linkCfg (s : State) (l k : Nat) : Word := s.par (portP l (0x60 + k))

/-- The link of lead `l` is enabled. -/
def State.linkOn (s : State) (l : Nat) : Bool := (s.linkCfg l 0).getLsbD 31

/-- The link of lead `l` transmits. -/
def State.linkTx (s : State) (l : Nat) : Bool := (s.linkCfg l 0).getLsbD 8

/-- The link of lead `l` is of subclass 1. -/
def State.linkSub1 (s : State) (l : Nat) : Bool := (s.linkCfg l 0).getLsbD 9

/-- The members of the link of lead `l`, ascending. -/
def State.members (s : State) (l : Nat) : List Nat :=
  (setBits 8 (fld (s.linkCfg l 0) 7 0)).map (fun i => 8 * (l / 8) + i)

/-- Lanes per converter device. -/
def State.linkL (s : State) (l : Nat) : Nat := fld (s.linkCfg l 1) 3 0 + 1

/-- Extended-multiblock length E. -/
def State.linkE (s : State) (l : Nat) : Nat := fld (s.linkCfg l 1) 26 25 + 1

/-- The members' common PORT_RATE. -/
def State.linkRate (s : State) (l : Nat) : Nat := fld (s.par (portP l 0x02)) 11 0

/-- The LEMC period in cycles, E × 211,200 ÷ PORT_RATE (Table 14.2). -/
def State.lemc (s : State) (l : Nat) : Nat := s.linkE l * 211200 / s.linkRate l

/-- The lead of the enabled link of direction `tx` that port p belongs to (R249). -/
def State.linkOf (s : State) (p : Nat) (tx : Bool) : Option Nat :=
  firstBelow 16 (fun l => s.linkOn l && decide (s.linkTx l = tx) && (s.members l).contains p)

/-- Port p belongs to an enabled link. -/
def State.linked (s : State) (p : Nat) : Bool := (s.linkOf p false).isSome || (s.linkOf p true).isSome

/-- The limits of Table 14.2 for the configuration of lead `l`. -/
def State.limitsOk (s : State) (l : Nat) : Bool :=
  let c := s.linkCfg l 1
  let lanes := s.linkL l
  let m := fld c 8 4 + 1
  let sam := fld c 11 9 + 1
  let f := fld c 17 12 + 1
  let n := fld c 21 18 + 1
  let np := if c.getLsbD 22 then 16 else 8
  decide (lanes ≤ 8 ∧ m ≤ 16 ∧ n ≤ np ∧ fld c 24 23 ≤ np - n ∧ 8 * lanes * f = m * sam * np ∧
    256 * s.linkE l % f = 0) &&
  (!s.linkSub1 l || decide (s.linkE l * 211200 % s.linkRate l = 0))

/-- The checks of a link commit, with the values of the lead's link parameters as written (R248). -/
def State.linkCheck (s : State) (l : Nat) : Nat :=
  let ms := s.members l
  let tx := s.linkTx l
  if ms.head? ≠ some l ∨ ms.any (fun p => (s.linkOf p tx).isSome) = true ∨
      ms.any (fun p => decide (s.protocol p ≠ 1)) = true ∨
      ms.any (fun p => decide (fld (s.par (portP p 0x02)) 11 0 ≠ s.linkRate l)) = true ∨ s.limitsOk l = false ∨
      s.linkE l * 211200 ≤ fld (s.linkCfg l 2) 15 0 * s.linkRate l ∨ fld (s.linkCfg l 0) 13 12 = 3 ∨
      ms.length % s.linkL l ≠ 0 ∨ 4 ≤ countBelow 16 s.linkOn then stRange
  else if ms.any (fun p => !s.variant.hasPort p) then stAbsent
  else stSuccess

/-- The port's module counts as present for a link start: not withheld (R250, R425). -/
def Port.joins (p : Port) : Bool := p.present && decide (p.bind ≠ 2)

/-- The members that a start of the link includes: with PRESENT_ONLY, those of converter devices whose ports all count as
present (R250). -/
def State.starters (s : State) (l : Nat) : List Nat :=
  let ms := s.members l
  if (s.linkCfg l 0).getLsbD 10 then
    ms.filter (fun p => ms.zipIdx.all (fun q =>
      decide (q.2 / s.linkL l ≠ ms.findIdx (fun x => decide (x = p)) / s.linkL l) || (s.port q.1).joins))
  else ms

/-- The members that take part in the link's present start. -/
def State.starting (s : State) (l : Nat) : List Nat :=
  (s.members l).filter (fun p => decide ((s.port p).laneSt ≠ 0 ∧ (s.port p).laneSt ≠ 7))

/-- Puts the lanes `ps` of the link of lead `l` into lane state `k`; a transmit link leaves the state of a receive link's
lane alone, and a lane held after a driver fault stays (R245). -/
def setLanes (l : Nat) (ps : List Nat) (k : Nat) (s : State) : State :=
  ps.foldl (fun t p =>
    if s.linkTx l && ((s.linkOf p false).isSome || (s.port p).txFault) then t
    else t.modPort p (fun q => { q with laneSt := k })) s

/-- The link of lead `l` and its present lanes enter state `k` (Table 14.3). -/
def setLink (l k : Nat) (s : State) : State :=
  setLanes l (s.starting l) k (s.modPort l (fun q => { q with linkSt := k }))

/-- The port pair of p is on and open, so that its lanes run. -/
def State.pairOn (s : State) (p : Nat) : Bool := decide ((s.dom (16 + p / 2)).st = .on)

/-- The link of lead `l` starts (R251): at state 1, or, for a transmit link, whose states 1–4 have nothing to wait for,
at state 5. -/
def startLink (l : Nat) (s : State) : State :=
  if !s.linkOn l then s
  else
    let k := if s.linkTx l then 5 else 1
    let s := setLanes l (s.members l) 0 s
    if (s.members l).all s.pairOn then
      setLanes l (s.starters l) k (s.modPort l (fun q => { q with linkSt := k }))
    else s.modPort l (fun q => { q with linkSt := 0 })

/-- Arms the phase capture of the link of lead `l` (R253). -/
def armSysref (l : Nat) (s : State) : State :=
  s.modPort l (fun q => { q with armed := true, armAbsent := false })

/-- An up link goes down and restarts (R252); its transmit words are dropped. -/
def dropLink (l : Nat) (s : State) : State :=
  let s := if (s.port l).linkSt = 6 then s.count (portP l 0x13) 1 else s
  startLink l s

/-- A write of PORT_LINK_CFG0 (R248): ENABLE 1 commits the link, ENABLE 0 takes its lanes to idle.  The other fields of
an enabled link cannot be written. -/
def writeLinkCfg0 (l : Nat) (v : Word) (s : State) : Nat × State :=
  let v := v &&& 0x800037FF
  let n := portP l 0x60
  if v.getLsbD 31 then
    if s.linkOn l then (stBusy, s)
    else
      let t := s.putPar n (v &&& 0x7FFFFFFF)
      let st := t.linkCheck l
      if st ≠ 0 then (st, s)
      else
        let t := t.putPar n v
        let t := t.modPort l (fun q => { q with phi := none, idSeen := [], armed := false })
        (stSuccess, startLink l (if t.linkSub1 l then armSysref l t else t))
  else if s.linkOn l then
    let t := setLanes l (s.members l) 0 s
    (stSuccess, (t.putPar n v).modPort l (fun q => { q with linkSt := 0, armed := false, phi := none }))
  else (stSuccess, s.putPar n v)

/-- LINK_COMMIT (R248): a host write of PORT_LINK_CFG0 with ENABLE 1. -/
def execLinkCommit (l : Nat) (v : Word) (s : State) : Host.Outcome State Fault Refusal :=
  .next (if v.getLsbD 31 && decide (l < 16) then hostEntry (portP l 0x60) (writeLinkCfg0 l v) s else s)

/-- LINK_DISABLE (R248): a host write of PORT_LINK_CFG0 with ENABLE 0. -/
def execLinkDisable (l : Nat) (v : Word) (s : State) : Host.Outcome State Fault Refusal :=
  .next (if !v.getLsbD 31 && decide (l < 16) then hostEntry (portP l 0x60) (writeLinkCfg0 l v) s else s)

/-- Packets of units still in a replay buffer: one per header unit, and one whose header has gone already. -/
def bufferedPackets (l : List (List Byte)) : Nat :=
  let head := fun (b : List Byte) => bitOf (leAt b 0 8) 29
  (l.filter head).length + (match l with | b :: _ => if head b then 0 else 1 | [] => 0)

/-- A seam link at the start of its training. -/
def Seam.retrain (q : Seam) (reason : Nat) : Seam :=
  { q with state := 1, reason := reason, good := 0, readyRun := 0, reported := [], replay := [], rxHead := none,
           nakPending := false, peerReplay := false, episode := none, passFrom := none, timeSeen := false,
           echoTx := 0, echoRx := 0, lastDiff := none }

/-- The seam link of port p goes down at this end (R275, R277): dependent transactions end with LINK_DOWN, buffers are
emptied, one event is raised, and training starts again. -/
def seamDown (p reason : Nat) (s : State) : State :=
  let q := (s.port p).seam
  if q.state = 5 then
    let s := endTransAll (fun t => decide (t.dcard ≠ s.card ∧ s.seamTo t.dcard = some p)) stLinkDown s
    let lost := bufferedPackets q.replay + (if q.rxHead.isSome then 1 else 0)
    let s := (s.count (portP p 0x49) 1).count (portP p 0x4A) lost
    (s.modSeam p (fun q => q.retrain reason)).raiseLink p 0x11 [BitVec.ofNat 8 reason]
  else if q.state = 0 then s
  else s.modSeam p (fun q => { q.retrain q.reason with reason := q.reason })

/-- The CTLE bounds, clamping a code: floor [3:0], ceiling [11:8] (Table 14.5). -/
def clampCtle (b : Word) (c : Nat) : Nat := max (fld b 3 0) (min (fld b 11 8) c)

/-- A DFE tap clamped to ±DFE_MAX. -/
def clampDfe (b : Word) (c : Int) : Int := max (-(fld b 4 0 : Int)) (min (fld b 4 0 : Int) c)

/-- A port reset (source 7, Table 4.6): serialiser, CDR, adaptation and link state; its links restart. -/
def portReset (p : Nat) (s : State) : State :=
  let s := if s.protocol p = 2 then seamDown p 5 s else s
  let s := (s.count (portP p 0x06) 1).modPort p (fun q =>
    { q with
      rateNow := fld (s.par (portP p 0x02)) 11 0, cdr := false, inverted := false, polDone := false, txFault := false
      phi := none, armed := false, armAbsent := false, idSeen := []
      ctle := clampCtle (s.par (portP p 0x09)) 8, dfe := List.replicate 5 0, txBuf := [], ringK := 0, laneSt := 0
      linkSt := 0, seam := if s.protocol p = 2 then { Seam.reset with state := 1, reason := q.seam.reason } else Seam.reset })
  [false, true].foldl (fun s tx =>
    match s.linkOf p tx with
    | some l => dropLink l (if s.linkSub1 l then armSysref l s else s)
    | none => s) s

/-- A write of PORT_PROTOCOL (R23, R244): refused values, else the protocol and a port reset. -/
def writeProtocol (p : Nat) (v : Word) (s : State) : Nat × State :=
  let k := fld v 1 0
  if k = 3 then (stRange, s)
  else if k = 2 ∧ s.variant.hasSeam p = false then (stAbsentUnit, s)
  else if k ≠ 0 ∧ fld (s.par (portP p 0x02)) 11 0 = 0 then (stRange, s)
  else
    let s := if s.protocol p = 2 then seamDown p 5 s else s
    (stSuccess, portReset p (s.putPar (portP p 0x01) (wd k)))

/-- PORT_PROTOCOL (R244), a host write. -/
def execPortProtocol (p : Nat) (v : Word) (s : State) : Host.Outcome State Fault Refusal :=
  .next (if p < 16 then hostEntry (portP p 0x01) (writeProtocol p v) s else s)

/-- The binding of every present member is decided, and without PRESENT_ONLY every module counts as present (R250,
R421). -/
def State.mayLeaveCdr (s : State) (l : Nat) : Bool :=
  (s.members l).all (fun p =>
    (!(s.port p).present || decide ((s.port p).bind ≠ 0)) && ((s.linkCfg l 0).getLsbD 10 || (s.port p).joins)) &&
  !(s.starting l).isEmpty

/-- The receive link of lead `l` is in start state `k`. -/
def State.rxIn (s : State) (l k : Nat) : Bool :=
  s.clocked && decide (l < 16) && s.linkOn l && !s.linkTx l && decide ((s.port l).linkSt = k)

/-- CDR_LOCK (R251): the link moves to sync-header lock with the devices that take part; a seam port to block lock
(R266). -/
def execCdrLock (l : Nat) (s : State) : Host.Outcome State Fault Refusal :=
  .next (
    if s.rxIn l 1 && s.mayLeaveCdr l then
      let out := (s.starting l).filter (fun p => !(s.starters l).contains p)
      let s := setLink l 2 (setLanes l out 0 s)
      (s.starting l).foldl (fun s p => s.modPort p (fun q => { q with cdr := true, signal := true })) s
    else if s.clocked && decide (s.protocol l = 2 ∧ (s.port l).seam.state = 1) then
      s.modPort l (fun q => { q with cdr := true, signal := true, seam := { q.seam with state := 2 } })
    else s)

/-- SH_LOCK (R251): 64 valid sync headers on every lane. -/
def execShLock (l : Nat) (s : State) : Host.Outcome State Fault Refusal :=
  .next (if s.rxIn l 2 then setLink l 3 s else s)

/-- Corrects the polarity of lane p (R258): the first time after a port reset it is reported. -/
def correctPolarity (p : Nat) (s : State) : State :=
  let first := !(s.port p).polDone
  let s := s.modPort p (fun q => { q with inverted := !q.inverted, polDone := true })
  if first then s.raiseLane p 1 else s

/-- EMB_LOCK (R251, R258): `inverted` names, by port of the edge, the lanes that find only complemented pilots; they are
corrected where AUTO is 1, and never lock where it is 0. -/
def execEmbLock (l : Nat) (inverted : BitVec 8) (s : State) : Host.Outcome State Fault Refusal :=
  .next (
    let bad := (s.starting l).filter (fun p => hasBit inverted (p % 8))
    if s.rxIn l 3 && bad.all (fun p => (s.par (portP p 0x03)).getLsbD 0) then
      setLink l (if fld (s.linkCfg l 0) 13 12 = 0 then 5 else 4) (bad.foldl (fun s p => correctPolarity p s) s)
    else s)

/-- The positions that the lanes of a link carry lie within one converter device each and form a permutation (R259). -/
def State.permOk (s : State) (l : Nat) (carried : List (Option Nat)) : Bool :=
  let ms := s.members l
  let here := ms.zipIdx.filter (fun q => (s.starting l).contains q.1)
  here.all (fun q => match carried.getD q.2 none with
    | some c => decide (c / s.linkL l = q.2 / s.linkL l ∧ c < ms.length)
    | none => false) && decide ((here.map (fun q => carried.getD q.2 none)).Nodup)

/-- The lanes are in correct order. -/
def State.inOrder (s : State) (l : Nat) (carried : List (Option Nat)) : Bool :=
  ((s.members l).zipIdx.filter (fun q => (s.starting l).contains q.1)).all (fun q =>
    decide (carried.getD q.2 none = some q.2))

/-- PORT_LINK_PERM: position carried by member i in [3i + 2 : 3i]. -/
def permWord (carried : List (Option Nat)) : Nat :=
  (List.range 8).foldl (fun a i => a + (match carried.getD i none with | some c => c % 8 | none => i) * 8 ^ i) 0

/-- An identity event, once per distinct result (R259). -/
def reportIdentity (l cause : Nat) (carried : List (Option Nat)) (detail : List Byte) (s : State) : State :=
  if (s.port l).idSeen.contains carried then s
  else (s.modPort l (fun q => { q with idSeen := q.idSeen ++ [carried] })).raiseLink l cause detail

/-- ID_WINDOW_DONE (R259): the lane order is accepted, remapped or held; `carried` gives the position each member carries. -/
def execIdWindowDone (l : Nat) (carried : List (Option Nat)) (s : State) : Host.Outcome State Fault Refusal :=
  .next (
    if !s.rxIn l 4 then s
    else if s.inOrder l carried then setLink l 5 (s.putPar (portP l 0x67) (wd (permWord carried)))
    else if s.permOk l carried && decide (fld (s.linkCfg l 0) 13 12 = 2) then
      let s := s.putPar (portP l 0x67) (wd (permWord carried))
      setLink l 5 (reportIdentity l 3 carried (leBytes 4 (permWord carried)) s)
    else reportIdentity l 2 carried [] (s.count (portP l 0x27) 1))

/-- The buffer window of a subclass-1 link holds (R254): RBD at least 8 cycles beyond the latest write and no more than
64 × Tb − 8 beyond the earliest, Tb = 6,600 ÷ PORT_RATE. -/
def State.windowOk (s : State) (l earliest latest : Nat) : Bool :=
  let rbd := fld (s.linkCfg l 2) 15 0
  decide (latest + 8 ≤ rbd) && decide ((rbd + 8 - earliest) * s.linkRate l ≤ 64 * 6600)

/-- Records the arrival times in PORT_ARRIVAL: the earliest and the latest since it was cleared. -/
def noteArrival (l earliest latest : Nat) (s : State) : State :=
  let v := s.parN (portP l 0x18)
  let e := min 65535 earliest
  let t := min 65535 latest
  s.putPar (portP l 0x18) (wd (if v = 0 then e + 65536 * t else min (bits v 15 0) e + 65536 * max (bits v 31 16) t))

/-- The link of lead `l` is up (R251): counted, stamped and reported. -/
def linkUp (l latency : Nat) (s : State) : State :=
  let s := setLink l 6 (s.modPort l (fun q => { q with idSeen := [] }))
  (((s.count (portP l 0x70) 1).putPair (portP l 0x71) s.clk.tick.toNat).putPar (portP l 0x73)
    (wd (min 65535 latency))).raiseLink l 1 []

/-- RELEASE_WAIT_DONE (R254): the LEMC phase is known and every buffer window holds; a transmit link needs its outputs
released. -/
def execReleaseWaitDone (l earliest latest : Nat) (s : State) : Host.Outcome State Fault Refusal :=
  .next (
    if !(s.clocked && decide (l < 16) && s.linkOn l && decide ((s.port l).linkSt = 5)) then s
    else
      let phased := !s.linkSub1 l || (s.port l).phi.isSome
      if s.linkTx l then (if phased && s.kin.outputs then linkUp l (fld (s.linkCfg l 2) 15 0) s else s)
      else
        let s := noteArrival l earliest latest s
        if !phased then s
        else if !s.linkSub1 l then linkUp l (latest + 8) s
        else if s.windowOk l earliest latest then linkUp l (fld (s.linkCfg l 2) 15 0) s
        else s)

/-- LINK_DOWN (R252): a member lane loses signal, sync headers or its buffer window; the whole link goes down and
restarts. -/
def execLinkDown (l lane : Nat) (why : DownCause) (s : State) : Host.Outcome State Fault Refusal :=
  .next (
    if !(s.clocked && decide (l < 16) && s.linkOn l && !s.linkTx l && (s.starting l).contains lane &&
        decide (1 < (s.port lane).laneSt)) then s
    else match why with
      | .signal =>
        let st := (s.port lane).laneSt
        let s := s.modPort lane (fun q => { q with cdr := false, signal := false })
        let s := s.count (portP lane 0x10) 1
        dropLink l (if (s.port lane).present then s.raisePort lane 0 [BitVec.ofNat 8 st] else s)
      | .syncHeaders => dropLink l (s.count (portP lane 0x11) 16)
      | .bufferWindow => dropLink l (s.raiseLink l 4 []))

/-- What a SYSREF capture at tick `t` does to the link of lead `l` (R253). -/
def sysrefLink (t : Tick) (l : Nat) (s : State) : State :=
  if !(s.linkOn l && s.linkSub1 l) then s
  else
    let c := s.linkCfg l 3
    let phi := (t.toNat + 16 + fld c 4 2) % s.lemc l
    let s := (s.tally (portP l 0x74) 1).putPair (portP l 0x75) t.toNat
    let mode := fld c 1 0
    if mode ≠ 1 ∧ mode ≠ 2 then s
    else if (s.port l).armed then s.modPort l (fun q => { q with phi := some phi, armed := false })
    else if mode = 2 ∧ (s.port l).phi.isSome ∧ (s.port l).phi ≠ some phi then
      (s.count (portP l 0x65) 1).raiseLink l 5 (leBytes 4 phi)
    else s

/-- SYSREF is declared reversed, so its captures are ignored (Table 25.3). -/
def State.sysrefReversed (s : State) : Bool := decide (tabGet 0 s.pins.kinds 11 = 5)

/-- SYSREF_CAPTURE (R253): every subclass-1 link uses the capture, and the fabric's bus shows it for one cycle. -/
def execSysrefCapture (s : State) : Host.Outcome State Fault Refusal :=
  .next (
    if !s.clocked || s.sysrefReversed then s
    else
      let s := { s with tnd := { s.tnd with pulses := s.tnd.pulses ||| 2#2 } }
      (List.range 16).foldl (fun s l => sysrefLink s.clk.tick l s) s)

/-- SYSREF_ABSENT (R253): 10 ms after arming without a capture, cause 7 is raised once. -/
def execSysrefAbsent (l : Nat) (s : State) : Host.Outcome State Fault Refusal :=
  .next (
    if s.clocked && decide (l < 16) && s.linkOn l && s.linkSub1 l && (s.port l).armed && !(s.port l).armAbsent then
      (s.modPort l (fun q => { q with armAbsent := true })).raiseLink l 7 []
    else s)

/-- A write of PORT_SYSREF (R248, R253): MODE and DELAY of an enabled link cannot change; ARM arms, and reads 0. -/
def writeSysref (l : Nat) (v : Word) (s : State) : Nat × State :=
  let n := portP l 0x63
  if s.linkOn l && decide (v &&& 0x1F#32 ≠ s.par n &&& 0x1F#32) then (stBusy, s)
  else
    let s := s.putPar n (v &&& 0x1F)
    (stSuccess, if v.getLsbD 8 then armSysref l s else s)

/-- SYSREF_ARM (R253): a host write of PORT_SYSREF with ARM 1. -/
def execSysrefArm (l : Nat) (v : Word) (s : State) : Host.Outcome State Fault Refusal :=
  .next (if v.getLsbD 8 && decide (l < 16) then hostEntry (portP l 0x63) (writeSysref l v) s else s)

/-- A tick step takes every subclass-1 link down with cause 6 and re-arms it (R253). -/
def stepLinks (s : State) : State :=
  (List.range 16).foldl (fun s l =>
    if s.linkOn l && s.linkSub1 l then
      dropLink l (armSysref l ((s.modPort l (fun q => { q with phi := none })).raiseLink l 6 []))
    else s) s

/-- Port p is the first port of a converter device of an enabled link of direction `tx`; the link's lead (R249). -/
def State.deviceLead (s : State) (p : Nat) (tx : Bool) : Option Nat :=
  match s.linkOf p tx with
  | some l => if (s.members l).findIdx (fun x => decide (x = p)) % s.linkL l = 0 then some l else none
  | none => none

/-- Packets of port p that wait for the mesh (R255). -/
def State.portWaiting (s : State) (p : Nat) : Nat :=
  ((s.mesh.ready ++ s.mesh.gtWait.map (·.pkt)).filter (fun q =>
    decide (6 * q.sy + q.sx = portNode p ∧ q.sport = p % 2 ∧ q.scard = s.card ∧ q.cmd = 0))).length

/-- The WRITE that carries a packet group to PORT_DEST (R255). -/
def groupPacket (s : State) (p : Nat) (bytes : List Byte) : Packet :=
  let d := s.par (portP p 0x20)
  let u := fld d 15 11
  let ring := fld (s.par (portP p 0x22)) 20 0
  { blankPacket with
    dx := fld d 2 0, dy := fld d 5 3, dport := fld d 6 6, dcard := fld d 10 7, gt := d.getLsbD 16, flow := fld d 23 17
    cmd := 0, len := u, valid := BitVec.allOnes 128
    addr := if d.getLsbD 24 then
        fld (s.par (portP p 0x21)) 20 0 + (if ring = 0 then 0 else (s.port p).ringK * u * 32 % ring)
      else 0x000100000000
    data := (bytes ++ List.replicate (32 * u) 0).take (32 * u) }

/-- PACKET_GROUP_RELEASE (R255): a group is released whole at its device lead and packed into a WRITE; with 8 waiting it
is discarded and counted. -/
def execPacketGroupRelease (p : Nat) (bytes : List Byte) (s : State) : Host.Outcome State Fault Refusal :=
  .next (
    match s.deviceLead p false with
    | none => s
    | some l =>
      if !(s.clocked && decide ((s.port l).linkSt = 6 ∧ (s.port p).laneSt = 6 ∧ (s.dom (16 + p / 2)).damper = .openD)) then s
      else
        let s := s.tally64 (portP p 0x28) bytes.length
        if !(s.par (portP p 0x20)).getLsbD 31 then s
        else
          let k := groupPacket s p bytes
          let s' := s.modPort p (fun q => { q with ringK := q.ringK + 1 })
          if 8 ≤ s.portWaiting p then s'.count (portP p 0x14) 1
          else present (sourced s (.port p) k) (s'.tally (portP p 0x23) 1))

/-- The valid words of a WRITE, in order; the last unit of a HALF packet carries four (R223). -/
def validWords (p : Packet) : List Word :=
  (List.range (byteCount p / 4)).filterMap (fun i =>
    if hasBit p.valid i then some (wd (leAt p.data (4 * i) 4)) else none)

/-- Data units of a WRITE with a valid word. -/
def validUnits (p : Packet) : Nat :=
  countBelow p.len (fun u => (List.range 8).any (fun j => decide (4 * (8 * u + j) < byteCount p) && hasBit p.valid (8 * u + j)))

/-- A WRITE at port p (R256, Table 13.3): valid words into the transmit buffer of 64 units of a device lead whose link is
up; the rest are counted in PORT_TX_DROPS. -/
def writeAtPort (p : Nat) (k : Packet) (s : State) : State :=
  if k.addr ≠ 0 then s.count 0x3025 1
  else
    let ws := validWords k
    let up := match s.deviceLead p true with | some l => decide ((s.port l).linkSt = 6) | none => false
    let room := if up then 512 - (s.port p).txBuf.length else 0
    let s := s.modPort p (fun q => { q with txBuf := q.txBuf ++ ws.take room })
    let s := if room = 0 then s else s.tally (portP p 0x24) (validUnits k)
    if ws.length ≤ room then s else s.count (portP p 0x16) (ws.length - room)

/-- TX_STREAM_WRITE (R256): a WRITE arrives at a port's transmit stream. -/
def execTxStreamWrite (i : Nat) (s : State) : Host.Outcome State Fault Refusal :=
  .next (arrive i [0] (fun t => match t with | .port _ => true | _ => false) (fun t k s =>
    match t with | .port p => writeAtPort p k s | _ => s) s)

/-- TX_FRAME_DUE (R256): the next frame position of a device lead takes the oldest word, or zero samples, counted. -/
def execTxFrameDue (p : Nat) (s : State) : Host.Outcome State Fault Refusal :=
  .next (
    match s.deviceLead p true with
    | none => s
    | some l =>
      if !(s.clocked && decide ((s.port l).linkSt = 6)) then s
      else
        let s' := s.tally64 (portP p 0x2A) 4
        match (s.port p).txBuf with
        | [] => s'.count (portP p 0x15) 1
        | _ :: r => s'.modPort p (fun q => { q with txBuf := r }))

/-- One step from `c` toward `w`. -/
def stepTo (c w : Int) : Int := if c < w then c + 1 else if w < c then c - 1 else c

/-- The next CTLE code and whether the wanted code was clipped (R260). -/
def nextCtle (b : Word) (c : Nat) (want : Int) : Nat × Bool :=
  let w := max 0 (min 15 (stepTo c want))
  if b.getLsbD 31 then (clampCtle b (stepTo c (fld b 19 16 : Int)).toNat, decide (w ≠ (fld b 19 16 : Int)))
  else (clampCtle b w.toNat, decide ((clampCtle b w.toNat : Int) ≠ w))

/-- The next value of a DFE tap and whether the wanted value was clipped (R260). -/
def nextDfe (b : Word) (c want : Int) : Int × Bool :=
  let w := max (-32) (min 31 (stepTo c want))
  if b.getLsbD 31 then (c, decide (c ≠ w)) else (clampDfe b w, decide (clampDfe b w ≠ w))

/-- A clipped evaluation of loop `k` (R260): counted, and reported at most once per second. -/
def noteClip (p k : Nat) (s : State) : State :=
  let s := s.count (portP p 0x0C) 1
  let due := match tabGet none (s.port p).clipCyc k with | some c => decide (c + 1000000000 ≤ s.clk.cyc) | none => true
  if due then
    (s.modPort p (fun q => { q with clipCyc := tabSet none q.clipCyc k (some s.clk.cyc) })).raisePort p 3 [BitVec.ofNat 8 k]
  else s

/-- EQ_EVALUATION (R260): `want` holds the wanted CTLE code and the five wanted taps. -/
def execEqEvaluation (p : Nat) (want : List Int) (s : State) : Host.Outcome State Fault Refusal :=
  .next (
    if !(s.clocked && decide (p < 16) && (s.port p).cdr && s.pairOn p) then s
    else
      let q := s.port p
      let c := nextCtle (s.par (portP p 0x09)) q.ctle (want.getD 0 0)
      let d := (List.range 5).map (fun i => nextDfe (s.par (portP p 0x0B)) (q.dfe.getD i 0) (want.getD (i + 1) 0))
      let s := s.modPort p (fun q => { q with ctle := c.1, dfe := d.map (·.1) })
      ((c.2 :: d.map (·.2)).zipIdx.filter (·.1)).foldl (fun s k => noteClip p k.2 s) s)

end Sys2Proof.Machine
end

