-- ==== Sys2Proof/Machine/Receive.lean ====
section
/-!
DEFINITION. Lamp commands on their way in (chapter 17): the frame of the lamp pair, the checks of a received message,
ownership, duplicates, credits, and the restrictions before user mode (R97).
-/

namespace Sys2Proof.Machine

/-- The number of a transport in LAMP_OWNER (Table 17.5). -/
def transportCode : Transport → Nat
  | .lampPair => 1
  | .pcie => 2

/-- The body of a command of this type has its structure (R301 step 2, Tables 17.3 and 7.5). -/
def structured (type : Nat) (body : List Byte) : Bool :=
  let n := body.length
  match type with
  | 0x0001 | 0x0002 | 0x0032 | 0x0051 => decide (n = 0)
  | 0x0003 | 0x0010 | 0x0012 | 0x0022 | 0x0023 | 0x0030 | 0x0041 | 0x0042 | 0x0043 => decide (n = 4)
  | 0x0011 => decide (n % 8 = 0)
  | 0x0020 | 0x0040 => decide (n = 8)
  | 0x0021 => decide (n = 8 + 32 * leAt body 4 2)
  | 0x0031 | 0x0047 => decide (8 ≤ n)
  | 0x0044 => decide (n = 516)
  | 0x0045 => decide (n = 32)
  | 0x0046 | 0x0050 | 0x0052 => decide (n = 12)
  | _ => true

/-- The types of Table 17.3 that a host may send. -/
def knownTypes : List Nat :=
  [0x01, 0x02, 0x03, 0x10, 0x11, 0x12, 0x20, 0x21, 0x22, 0x23, 0x30, 0x31, 0x32, 0x40, 0x41, 0x42, 0x43, 0x44, 0x45,
   0x46, 0x47, 0x50, 0x51, 0x52]

/-- The commands a transport that does not own control may use: PING, GET and GET_PAIR (R303). -/
def freeTypes : List Nat := [0x01, 0x10, 0x12]

/-- Ownership passes to `o` (R303): event 0x1A with the new owner and the reason. -/
def changeOwner (o : Option Transport) (reason : Nat) (s : State) : State :=
  ({ s with lamp := { s.lamp with owner := o } } : State).raise 0x1A
    [BitVec.ofNat 8 (match o with | some t => transportCode t | none => 0), BitVec.ofNat 8 reason]

/-- Sends a stored response again with the free places of the moment (R305, R306). -/
def resend (r : Stored) (s : State) : State :=
  deliver r.via s.pcie.ringArmed (r.rsp.take 9 ++ [BitVec.ofNat 8 (s.places r.via)] ++ r.rsp.drop 10) s

/-- The stored command that this one repeats (R306): transport, TAG, type and body. -/
def State.storedFor (s : State) (c : Cmd) : Option Stored :=
  s.lamp.stored.find? (fun r =>
    decide (r.via = c.via ∧ r.tag = c.tag ∧ leAt r.rsp 2 2 = c.type ∧ r.crc = crc32 c.body))

/-- A command of the same TAG is outstanding on the transport (R306). -/
def State.tagBusy (s : State) (c : Cmd) : Bool :=
  (s.lamp.inbox ++ s.lamp.running).any (fun x => decide (x.via = c.via ∧ x.tag = c.tag))

/-- What becomes of a valid command once its transport may own control (R301, R303, R305, R306: note 33, DEDUCED). -/
def acceptCmd (c : Cmd) (len : Nat) (s : State) : State :=
  if s.tagBusy c then s.count 0x304 1
  else match s.storedFor c with
    | some r => resend r (s.count 0x304 1)
    | none =>
      if len ≠ c.body.length ∨ (knownTypes.contains c.type = true ∧ structured c.type c.body = false) then
        refuse c stBadLength s
      else if !knownTypes.contains c.type then refuse c stBadType s
      else if s.lamp.owner ≠ some c.via ∧ freeTypes.contains c.type = false then refuse c stNotOwner s
      else if s.places c.via = 0 then refuse c stNoCredit s
      else { s with lamp := { s.lamp with inbox := s.lamp.inbox ++ [c] } }

/-- A message arrives at the controller over a transport (R301): VERSION and KIND first, then ownership, then the rest. -/
def receiveMsg (via : Transport) (m : List Byte) (s : State) : State :=
  if byteAt m 0 ≠ 1 ∨ byteAt m 1 ≠ 0 ∨ m.length < 12 then s.count 0x303 1
  else
    let s := if s.lamp.owner = none then changeOwner (some via) 1 s else s
    acceptCmd { via := via, type := leAt m 2 2, tag := leAt m 4 2, body := m.drop 12 } (leAt m 6 2) s

/-- Undoes byte stuffing; none when the frame ends with an escape, which is the abort sequence (R297, R298). -/
def unstuff : List Byte → Option (List Byte)
  | [] => some []
  | [b] => if b = 0x7D then none else some [b]
  | b :: c :: r =>
    if b = 0x7D then (unstuff r).map (fun l => (c ^^^ 0x20) :: l)
    else (unstuff (c :: r)).map (fun l => b :: l)

/-- The message of a lamp-pair frame, when R298 gives no reason to discard it. -/
def frameMessage (bytes : List Byte) : Option (List Byte) :=
  match unstuff bytes with
  | none => none
  | some l =>
    let n := l.length - 6
    let m := slice l 2 n
    if l.length < 18 ∨ 2048 < n ∨ byteAt l 0 ≠ 0xFF ∨ byteAt l 1 ≠ 0x03 ∨
        crc32 (l.take (l.length - 4)) ≠ wd (leAt l (l.length - 4) 4) then none
    else some m

/-- LAMP_FRAME_RX (R297, R298): `bytes` is what the line carried between two flags, with its stuffing. -/
def execLampFrameRx (bytes : List Byte) (s : State) : Host.Outcome State Fault Refusal :=
  .next (
    if !s.clocked || !s.lamp.pairOn || bytes.isEmpty then s
    else match frameMessage bytes with
      | none => s.count 0x302 1
      | some m => receiveMsg .lampPair m s)

/-- Every parameter of the range can be read before user mode (R97). -/
def earlyRange (n k : Nat) : Bool := decide (n + k ≤ 0x400 ∨ (0x3D00 ≤ n ∧ n + k ≤ 0x3E00))

/-- The numbers of a SET body. -/
def setNumbers (body : List Byte) : List Nat := (List.range (body.length / 8)).map (fun i => leAt body (8 * i) 2)

/-- The command may run in the present kindling state (R97). -/
def State.ready (s : State) (c : Cmd) : Bool :=
  s.user ||
  (match c.type with
   | 0x10 => earlyRange (leAt c.body 0 2) (leAt c.body 2 2)
   | 0x12 => earlyRange (leAt c.body 0 2) 2
   | 0x11 => (setNumbers c.body).all (fun n => decide (n = 0x22))
   | t => [0x01, 0x02, 0x03, 0x20, 0x21, 0x22, 0x23, 0x30, 0x31, 0x32].contains t)

/-- The command at the head of the inbox starts (R307), when it came over `via` and has this type: refused with NOT_READY
under R97, else as `act` says. -/
def runCmd (via : Transport) (type : Nat) (act : Cmd → State → State) (s : State) : State :=
  match s.lamp.inbox with
  | [] => s
  | c :: _ =>
    if !s.clocked || decide (c.via ≠ via ∨ c.type ≠ type) then s
    else if s.ready c then act c s else respond c stNotReady [] s

/-- OWNER_TIMEOUT (R303): the owner has been silent for LAMP_OWNER_TIMEOUT, which 0 disables. -/
def execOwnerTimeout (s : State) : Host.Outcome State Fault Refusal :=
  .next (if s.clocked && s.lamp.owner.isSome && decide (fld (s.par 0x301) 23 0 ≠ 0) then changeOwner none 3 s else s)

/-- PING (R308): the tick count and KINDLE_STATUS. -/
def execPing (via : Transport) (s : State) : Host.Outcome State Fault Refusal :=
  .next (runCmd via 0x01 (fun c s => respond c 0 (leBytes 8 s.clk.tick.toNat ++ leBytes 4 s.kindleStatus) s) s)

/-- RELEASE (R303): the owner gives control up. -/
def execRelease (via : Transport) (s : State) : Host.Outcome State Fault Refusal :=
  .next (runCmd via 0x02 (fun c s =>
    let s := respond c 0 [] s
    if s.lamp.owner = some via then changeOwner none 2 s else s) s)

end Sys2Proof.Machine
end

