-- ==== Sys2Proof/Machine/Flash.lean ====
section
/-!
DEFINITION. The keeper flash (chapter 7): code words and what a read of them counts, sectors in use, the swap journal, the
flash messages, and what a power loss leaves (R134, R135).
-/

namespace Sys2Proof.Machine

/-- The state of code word `w` (Table 7.2); its byte address is 32 × w. -/
def State.wordSt (s : State) (w : Nat) : WordSt := tabGet .blank s.flash.words w

/-- The stored data of code word `w`. -/
def State.flashWord (s : State) (w : Nat) : List Byte := flashBytes s.flash.data (32 * w) 32

/-- What the code of word `w` tells a read (R121); a blank word has nothing to correct. -/
def State.wordDecay (s : State) (w : Nat) : Decay :=
  if s.wordSt w = .blank then .sound else tabGet .sound s.flash.decay w

/-- The bit errors that a reading command meets are noted in the flash. -/
def noteFlash (ups : List Upset) (s : State) : State :=
  { s with flash := { s.flash with
      decay := ups.foldl (fun t u => tabSet .sound t u.word (if u.fatal then .fatal else .corrected)) s.flash.decay } }

/-- What one word read counts and reports (R129): event 0xD0 at most once per second. -/
def countWord (w : Nat) (s : State) : State :=
  match s.wordDecay w with
  | .sound => s
  | .corrected =>
    let s := s.count 0x3803 1
    let due := match s.flash.corrCyc with | some c => decide (c + 1000000000 ≤ s.clk.cyc) | none => true
    if due then ({ s with flash := { s.flash with corrCyc := some s.clk.cyc } } : State).raise 0xD0 (leBytes 4 w) else s
  | .fatal => (s.count 0x3804 1).raise 0xD1 (leBytes 4 w)

/-- Reads `n` code words from word `w` on: their bytes, an uncorrectable word as stored, which the model leaves free
(note 4, DESIGN CHOICE). -/
def readWords : Nat → Nat → State → List Byte × State
  | 0, _, s => ([], s)
  | n + 1, w, s =>
    let p := if s.wordDecay w = .fatal then s.freeBytes 32 else (s.flashWord w, s)
    let q := readWords n (w + 1) (countWord w p.2)
    (p.1 ++ q.1, q.2)

/-- The first uncorrectable word of `n` from word `w` on, as an index. -/
def State.firstFatal (s : State) (w n : Nat) : Option Nat := firstBelow n (fun i => decide (s.wordDecay (w + i) = .fatal))

/-- Programs code word `w`, which is sound (R127). -/
def putWord (w : Nat) (d : List Byte) (s : State) : State :=
  { s with flash := { s.flash with
      data := flashPut s.flash.data (32 * w) ((d ++ List.replicate 32 0xFF).take 32)
      words := tabSet .blank s.flash.words w .programmed
      decay := tabSet .sound s.flash.decay w .sound } }

/-- Programs a run of words in ascending order. -/
def putWords : Nat → Nat → List Byte → State → State
  | 0, _, _, s => s
  | n + 1, w, d, s => putWords n (w + 1) (d.drop 32) (putWord w (d.take 32) s)

/-- The erase count of a sector rises; event 0xD3 comes once, at 20,000 (R128). -/
def countErase (sec : Nat) (s : State) : State :=
  let n := tabGet 0 s.flash.erases sec + 1
  let s := { s with flash := { s.flash with erases := tabSet 0 s.flash.erases sec n } }
  if n = 20000 then s.raise 0xD3 (leBytes 2 sec ++ [0, 0] ++ leBytes 4 n) else s

/-- Sets every word of a sector blank (R128). -/
def eraseSector (sec : Nat) (s : State) : State :=
  countErase sec { s with flash := { s.flash with
    data := flashBlank s.flash.data (65536 * sec) 65536
    words := tabClear s.flash.words (2048 * sec) 2048
    decay := tabClear s.flash.decay (2048 * sec) 2048 } }

/-- What an erase that does not run to its end leaves (R134): each word stale, torn, uncorrectable or blank, its 0 bits
turned to 1 in part.  The choices are free (note 4, DESIGN CHOICE). -/
def partErase (sec : Nat) (s : State) : State :=
  let f := s.free
  let kind := fun i => (Config.freeByte (f + i)).toNat % 4
  let old := s.flash
  let wasBlank := fun i => decide (tabGet WordSt.blank old.words (2048 * sec + i) = .blank)
  { s with
    free := f + 2048 + 65536
    flash := { old with
      data := tabBlock 0xFF old.data (65536 * sec) 65536 (fun j =>
        let b := flashByte old.data (65536 * sec + j)
        match kind (j / 32) with
        | 0 => b
        | 3 => 0xFF
        | _ => b ||| Config.freeByte (f + 2048 + j))
      words := tabBlock .blank old.words (2048 * sec) 2048 (fun i =>
        if wasBlank i then .blank
        else match kind i with
          | 1 => .torn
          | 3 => .blank
          | _ => tabGet .blank old.words (2048 * sec + i))
      decay := tabBlock .sound old.decay (2048 * sec) 2048 (fun i =>
        if wasBlank i then .sound
        else match kind i with
          | 0 => tabGet .sound old.decay (2048 * sec + i)
          | 2 => .fatal
          | _ => .sound) } }

/-- An erase that leaves a word non-blank (R128): counted, and reported with event 0xD2. -/
def failErase (sec : Nat) (s : State) : State := (countErase sec (partErase sec s)).raise 0xD2 (leBytes 2 sec)

/-- The bytes of a journal entry (Table 7.6). -/
def journalEntry (block seq : Nat) : List Byte :=
  let l := [0x4A, 0x4E, BitVec.ofNat 8 block, ~~~(BitVec.ofNat 8 block)] ++ leBytes 4 seq ++
    leBytes 4 (2 ^ 32 - 1 - seq) ++ List.replicate 16 0
  l ++ leBytes 4 (crc32 l).toNat

/-- SEQ and BLOCK of the entry in code word `w`, when it is valid (R131). -/
def State.validEntry (s : State) (w : Nat) : Option (Nat × Nat) :=
  let d := s.flashWord w
  let seq := leAt d 4 4
  if s.wordSt w = .programmed ∧ s.wordDecay w ≠ .fatal ∧ byteAt d 0 = 0x4A ∧ byteAt d 1 = 0x4E ∧
      (byteAt d 2).toNat ≤ 1 ∧ byteAt d 3 = ~~~(byteAt d 2) ∧ leAt d 8 4 = 2 ^ 32 - 1 - seq ∧ seq ≠ 0 ∧
      crc32 (d.take 28) = wd (leAt d 28 4) then some (seq, (byteAt d 2).toNat) else none

/-- Words of a journal sector that a scan reads: up to its first blank word (R132). -/
def State.scanned (s : State) (sec : Nat) : Nat :=
  (firstBelow 2048 (fun k => decide (s.wordSt (2048 * sec + k) = .blank))).getD 2048

/-- The selecting entry of the journal: SEQ, BLOCK, sector and word. -/
structure Selection where
  seq   : Nat
  block : Nat
  sec   : Nat
  word  : Nat
  deriving DecidableEq, Repr

/-- The valid entry with the highest SEQ; the lower sector, then the lower word, wins a tie (R132). -/
def State.scanJournal (s : State) : Option Selection :=
  [2, 3].foldl (fun a sec =>
    (List.range (s.scanned sec)).foldl (fun a k =>
      match s.validEntry (2048 * sec + k) with
      | some (seq, b) =>
        (match a with
         | some x => if x.seq < seq then some { seq := seq, block := b, sec := sec, word := k } else a
         | none => some { seq := seq, block := b, sec := sec, word := k })
      | none => a) a) none

/-- The first blank word of a sector after word `w`; 2,048 when there is none (R132). -/
def State.nextFree (s : State) (sec w : Nat) : Nat :=
  (firstBelow 2048 (fun k => decide (w < k ∧ s.wordSt (2048 * sec + k) = .blank))).getD 2048

/-- Records a selection in FLASH_JOURNAL and FLASH_JOURNAL_SEQ (R132, Table 7.8). -/
def recordJournal (x : Option Selection) (s : State) : State :=
  match x with
  | some x =>
    (s.putPar 0x3801 (wd (x.block + 2 * (x.sec - 2) + 4 * s.nextFree x.sec x.word + 2 ^ 14))).putPar 0x3802 (wd x.seq)
  | none => (s.putPar 0x3801 0).putPar 0x3802 0

/-- The journal names a selection (FLASH_JOURNAL bit 14). -/
def State.journalValid (s : State) : Bool := (s.par 0x3801).getLsbD 14

/-- The boot block that the journal selects. -/
def State.journalBlock (s : State) : Nat := fld (s.par 0x3801) 0 0

/-- The current selection: what FLASH_JOURNAL records, with the word that holds it. -/
def State.selection (s : State) : Option Selection :=
  if s.journalValid then
    let sec := 2 + fld (s.par 0x3801) 1 1
    let seq := s.parN 0x3802
    some { seq := seq, block := s.journalBlock, sec := sec,
           word := (firstBelow 2048 (fun k => decide ((s.validEntry (2048 * sec + k)).map (·.1) = some seq))).getD 0 }
  else none

/-- A step of a swap (R133): an erase, a program of an entry, or the moment at which a rollover is reported. -/
inductive JournalStep where
  | erase (sec : Nat)
  | put (sec word seq block : Nat)
  | rolled (sec seq : Nat)
  deriving DecidableEq, Repr

/-- A sector has a word that is not blank. -/
def State.notBlank (s : State) (sec : Nat) : Bool :=
  (List.range 2048).any (fun k => decide (s.wordSt (2048 * sec + k) ≠ .blank))

/-- A rollover (R133) from active sector `sec` with the selection (`seq`, `block`): the copy carries the next SEQ. -/
def rollover (s : State) (sec seq block : Nat) : List JournalStep :=
  let other := 5 - sec
  (if s.notBlank other then [.erase other] else []) ++
    [.put other 0 (seq + 1) block, .rolled other (seq + 1), .erase sec]

/-- The steps of FLASH_SWAP with BLOCK `b` (R133). -/
def swapPlan (s : State) (b : Nat) : List JournalStep :=
  match s.selection with
  | none => (([2, 3] : List Nat).filter s.notBlank).map .erase ++ [.put 2 0 1 b]
  | some x =>
    if x.block = b then []
    else
      let k := s.nextFree x.sec x.word
      if k = 2048 then rollover s x.sec x.seq x.block ++ [.put (5 - x.sec) 1 (x.seq + 2) b]
      else .put x.sec k (x.seq + 1) b ::
        (if s.nextFree x.sec k = 2048 then rollover s x.sec (x.seq + 1) b else [])

/-- Carries out one step: a status other than success ends the swap.  Of the erases of a swap that does not end clean, a
free bit says which one fails. -/
def journalStep (clean : Bool) (j : JournalStep) (s : State) : Nat × State :=
  match j with
  | .erase sec =>
    let f := s.freeBit
    if !clean && f.1 then (stEraseFail, failErase sec f.2) else (stSuccess, eraseSector sec (if clean then s else f.2))
  | .put sec word seq block =>
    if s.wordSt (2048 * sec + word) ≠ .blank then (stDoubleProgram, s)
    else
      let s := putWord (2048 * sec + word) (journalEntry block seq) s
      (stSuccess, recordJournal (some { seq := seq, block := block, sec := sec, word := word }) s)
  | .rolled sec seq => (stSuccess, s.raise 0xD4 ([BitVec.ofNat 8 sec, 0, 0, 0] ++ leBytes 4 seq))

/-- Carries out steps until one fails (R133). -/
def journalSteps (clean : Bool) : List JournalStep → State → Nat × State
  | [], s => (stSuccess, s)
  | j :: r, s =>
    match journalStep clean j s with
    | (0, s) => journalSteps clean r s
    | p => p

/-- The response body of FLASH_SWAP (Table 7.5). -/
def swapBody (rolled : Bool) (s : State) : List Byte :=
  match s.selection with
  | some x => leBytes 4 x.seq ++ leBytes 2 x.sec ++ leBytes 2 x.word ++ [if rolled then 1 else 0, 0, 0, 0]
  | none => leBytes 4 0 ++ leBytes 2 0xFFFF ++ leBytes 2 0xFFFF ++ [if rolled then 1 else 0, 0, 0, 0]

/-- The sectors that the flash write in progress writes. -/
def State.writingSectors (s : State) : List Nat :=
  match s.flash.op with
  | none => []
  | some (.program _ a _) => [a / 65536]
  | some (.erase _ sec) => [sec]
  | some (.swap _ b) => (swapPlan s b).filterMap (fun j => match j with | .erase k => some k | .put k _ _ _ => some k | .rolled _ _ => none)

/-- FLASH_STATE (Table 7.8). -/
def State.flashState (s : State) : Nat :=
  (match s.flash.op with
   | none => 0
   | some (.program _ _ _) => 1
   | some (.erase _ _) => 2
   | some (.swap _ _) => 3) + 65536 * s.writingSectors.headD 0

/-- FLASH_WEAR_MAX (Table 7.8): the highest erase count and the lowest sector that has it. -/
def State.wearMax (s : State) : Nat :=
  let m := s.flash.erases.foldl (fun (a : Nat × Nat) p => if a.2 < p.2 then p else a) (0, 0)
  min 65535 m.2 + 65536 * m.1

/-- The sector lies in the extent of the image in flash that kindling selected. -/
def State.inImage (s : State) (sec : Nat) : Bool :=
  !s.img.host && decide (0 < s.img.extent ∧ s.img.base / 65536 ≤ sec ∧ sec ≤ (s.img.base + s.img.extent - 1) / 65536)

/-- Kindling reads the flash (R85): from the journal scan to the end frame of an image in flash. -/
def State.kindlingReads (s : State) : Bool := decide (1 ≤ s.kin.phase ∧ s.kin.phase ≤ 6) && !s.img.host

/-- The sector is in use (R85, R126). -/
def State.sectorInUse (s : State) (sec : Nat) : Bool :=
  if s.user then (s.journalValid && decide (sec = s.journalBlock)) || s.inImage sec
  else if s.banked then
    (if s.img.blockOk then decide (sec = s.img.block) else s.journalValid && decide (sec = s.journalBlock))
  else if s.kindlingReads then
    (if s.kin.journalOk then s.journalValid && decide (sec = 2 + fld (s.par 0x3801) 1 1) else decide (sec = 2 ∨ sec = 3)) ||
      (s.img.blockOk && decide (sec = s.img.block)) || s.inImage sec
  else false

/-- STRAP_FLASHWP (Table 3.7). -/
def State.flashWp (s : State) : Bool := hasBit s.board.straps 2

/-- A write of the sector is refused with PROTECTED (R125). -/
def State.sectorProtected (s : State) (sec : Nat) : Bool := decide (sec = 2 ∨ sec = 3) || (s.flashWp && decide (sec < 4))

/-- The bits of `n` words from word `w` on that are in state `st`. -/
def State.wordMap (s : State) (w n : Nat) (st : WordSt) : Nat := maskOf n (fun i => decide (s.wordSt (w + i) = st))

/-- ADDR and COUNT name words of one sector of the flash. -/
def wordsOk (addr count limit : Nat) : Bool :=
  decide (addr % 32 = 0 ∧ 1 ≤ count ∧ count ≤ limit ∧ addr < 0x08000000 ∧ addr % 65536 + 32 * count ≤ 65536)

/-- FLASH_READ (R125, R129). -/
def flashRead (c : Cmd) (s : State) : State :=
  let a := leAt c.body 0 4
  let n := leAt c.body 4 2
  let w := a / 32
  if !wordsOk a n 32 then respond c stRange [] s
  else if s.writingSectors.contains (a / 65536) then respond c stBusy [] s
  else
    let bad := s.firstFatal w n
    let corr := countBelow n (fun i => decide (s.wordDecay (w + i) = .corrected))
    let p := readWords n w s
    respond c (if bad.isSome then stFlashEcc else stSuccess)
      (leBytes 2 n ++ leBytes 2 corr ++ leBytes 2 (bad.getD 0xFFFF) ++ [0, 0] ++ leBytes 4 (s.wordMap w n .blank) ++
        leBytes 4 (s.wordMap w n .torn) ++ p.1) p.2

/-- FLASH_READ (R129), a lamp command. -/
def execFlashRead (via : Transport) (upsets : List Upset) (s : State) : Host.Outcome State Fault Refusal :=
  .next (runCmd via 0x20 (fun c s => flashRead c (noteFlash upsets s)) s)

/-- FLASH_PROGRAM (R125, R127). -/
def flashProgram (c : Cmd) (s : State) : State :=
  let a := leAt c.body 0 4
  let n := leAt c.body 4 2
  if !wordsOk a n 16 then respond c stRange [] s
  else if s.flash.op.isSome || s.sectorInUse (a / 65536) then respond c stBusy [] s
  else if s.sectorProtected (a / 65536) then respond c stProtected [] s
  else match firstBelow n (fun i => decide (s.wordSt (a / 32 + i) ≠ .blank)) with
    | some i => respond c stDoubleProgram (leBytes 2 i ++ [0, 0]) s
    | none =>
      let s := startCmd c s
      { s with flash := { s.flash with op := some (.program c a (c.body.drop 8)) } }

/-- FLASH_PROGRAM (R127), a lamp command. -/
def execFlashProgram (via : Transport) (s : State) : Host.Outcome State Fault Refusal :=
  .next (runCmd via 0x21 flashProgram s)

/-- FLASH_PROGRAM_DONE (R127): every named word is programmed and the response follows. -/
def execFlashProgramDone (s : State) : Host.Outcome State Fault Refusal :=
  .next (match s.flash.op with
    | some (.program c a d) =>
      if !s.clocked then s
      else respond c stSuccess [0xFF, 0xFF, 0, 0]
        (putWords (d.length / 32) (a / 32) d { s with flash := { s.flash with op := none } })
    | _ => s)

/-- FLASH_ERASE (R125, R128). -/
def flashErase (c : Cmd) (s : State) : State :=
  let sec := leAt c.body 0 2
  if 2047 < sec then respond c stRange [] s
  else if s.flash.op.isSome || s.sectorInUse sec then respond c stBusy [] s
  else if s.sectorProtected sec then respond c stProtected [] s
  else
    let s := startCmd c s
    { s with flash := { s.flash with op := some (.erase c sec) } }

/-- FLASH_ERASE (R128), a lamp command. -/
def execFlashErase (via : Transport) (s : State) : Host.Outcome State Fault Refusal :=
  .next (runCmd via 0x22 flashErase s)

/-- FLASH_ERASE_DONE (R128): `clean` says that every word reads blank. -/
def execFlashEraseDone (clean : Bool) (s : State) : Host.Outcome State Fault Refusal :=
  .next (match s.flash.op with
    | some (.erase c sec) =>
      if !s.clocked then s
      else
        let s := { s with flash := { s.flash with op := none } }
        let s := if clean then eraseSector sec s else failErase sec s
        respond c (if clean then stSuccess else stEraseFail) (leBytes 4 (tabGet 0 s.flash.erases sec)) s
    | _ => s)

/-- The boot record of a block (Table 7.3): 0 sound, 1 no boot record, 2 a record that fails (R123). -/
def State.bootRecord (s : State) (block : Nat) : Nat :=
  let d := flashBytes s.flash.data (65536 * block) 256
  if d.take 4 ≠ [0x50, 0x59, 0x42, 0x52] then 1
  else if leAt d 4 2 ≠ 0x0100 ∨ crc32 (d.take 252) ≠ wd (leAt d 252 4) then 2
  else 0

/-- FLASH_SWAP (R125, R130, R133): a swap to the selected block writes nothing and is answered at once. -/
def flashSwap (c : Cmd) (s : State) : State :=
  let b := leAt c.body 0 1
  if 1 < b then respond c stRange [] s
  else if s.flash.op.isSome || !s.kin.journalOk then respond c stBusy [] s
  else if s.flashWp then respond c stProtected [] s
  else
    let bad := (s.firstFatal (2048 * b) 8).isSome || decide (s.bootRecord b ≠ 0)
    let s := (readWords 8 (2048 * b) s).2
    if bad then respond c stBadBoot [] s
    else if swapPlan s b = [] then respond c stSuccess (swapBody false s) s
    else
      let s := startCmd c s
      { s with flash := { s.flash with op := some (.swap c b) } }

/-- FLASH_SWAP (R133), a lamp command. -/
def execFlashSwap (via : Transport) (s : State) : Host.Outcome State Fault Refusal :=
  .next (runCmd via 0x23 flashSwap s)

/-- A plan writes a rollover copy before the step at which it stops. -/
def rolledIn (l : List JournalStep) (s : State) : Bool :=
  l.any (fun j => match j with
    | .rolled sec seq => decide ((s.validEntry (2048 * sec)).map (·.1) = some seq)
    | _ => false)

/-- FLASH_SWAP_DONE (R133): the last program or erase of the swap ends; `clean` says that every erase left its sector
blank. -/
def execFlashSwapDone (clean : Bool) (s : State) : Host.Outcome State Fault Refusal :=
  .next (match s.flash.op with
    | some (.swap c b) =>
      if !s.clocked then s
      else
        let s := { s with flash := { s.flash with op := none } }
        let plan := swapPlan s b
        let p := journalSteps clean plan s
        respond c p.1 (swapBody (rolledIn plan p.2) p.2) p.2
    | _ => s)

/-- A program of word `w` that is cut short (R134): the word stays blank or is torn, its bits programmed in part. -/
def partProgram (w : Nat) (d : List Byte) (s : State) : State :=
  let f := s.freeBit
  let g := f.2.freeBytes 32
  if f.1 then
    let s := putWord w ((d.zip g.1).map (fun p => p.1 ||| p.2)) g.2
    { s with flash := { s.flash with words := tabSet .blank s.flash.words w .torn } }
  else g.2

/-- A step of a swap that is cut short. -/
def partStep (j : JournalStep) (s : State) : State :=
  match j with
  | .erase sec => partErase sec s
  | .put sec word seq block =>
    if s.wordSt (2048 * sec + word) = .blank then partProgram (2048 * sec + word) (journalEntry block seq) s else s
  | .rolled _ _ => s

/-- A free number below `n`. -/
def State.freeBelow (s : State) (n : Nat) : Nat × State :=
  let p := s.freeWord
  (p.1.toNat % n, p.2)

/-- What a power loss, and every reset that acts like one (R135), does to the flash write in progress: it stops after a
free number of its steps, the next one cut short, and no response is sent. -/
def cutFlash (s : State) : State :=
  let t := { s with flash := { s.flash with op := none } }
  match s.flash.op with
  | none => s
  | some (.program _ a d) =>
    let n := d.length / 32
    let k := t.freeBelow (n + 1)
    let t := putWords k.1 (a / 32) d k.2
    if k.1 < n then partProgram (a / 32 + k.1) (slice d (32 * k.1) 32) t else t
  | some (.erase _ sec) => partErase sec t
  | some (.swap _ b) =>
    let plan := swapPlan t b
    let k := t.freeBelow (plan.length + 1)
    let t := (journalSteps true (plan.take k.1) k.2).2
    match plan[k.1]? with
    | some j => partStep j t
    | none => t

end Sys2Proof.Machine
end

