-- ==== Sys2Proof/Machine/Sweep.lean ====
section
/-!
DEFINITION. The sweep (chapter 22): passes over the golden table, the check of an entry, its repair and policy, and the
restart of its engine.
-/

namespace Sys2Proof.Machine

/-- The INIT_PLANE byte of a descriptor (Table 6.6). -/
def initPlaneOf (b : Byte) : Option Nat := if b.toNat < 8 then some b.toNat else none

/-- Loads a gallery's context descriptors and header fields from the 512 bytes of a CONTEXT_TABLE frame (R110); ACC_VALID
stays. -/
def loadTable (d : List Byte) (x : Gallery) : Gallery :=
  { x with
    descs := tabBlock CtxDesc.reset [] 0 64 (fun c =>
      let f := byteAt d (8 * c)
      if f.getLsbD 0 then
        { defined := true, accUse := f.getLsbD 1, initPlane := initPlaneOf (byteAt d (8 * c + 1)),
          accValid := (x.desc c).accValid }
      else { CtxDesc.reset with accValid := (x.desc c).accValid })
    initCtx := (byteAt d 6).toNat % 64
    seq := { x.seq with entry := leAt d 4 2 % 1024 } }

/-- One byte of the context table as a gallery holds it; reserved bits, and the fields of a context that is not defined,
read as in `g`. -/
def tableByte (x : Gallery) (g : List Byte) (o : Nat) : Byte :=
  let d := x.desc (o / 8)
  let old := byteAt g o
  match o % 8 with
  | 0 => if d.defined then (old &&& 0xFC#8) ||| 1#8 ||| (if d.accUse then 2#8 else 0#8) else old &&& 0xFE#8
  | 1 => if d.defined then (match d.initPlane with
      | some p => BitVec.ofNat 8 p
      | none => if (initPlaneOf old).isSome then 0xFF else old) else old
  | 4 => if o = 4 then BitVec.ofNat 8 (x.seq.entry % 256) else old
  | 5 => if o = 5 then (old &&& 0xFC#8) ||| BitVec.ofNat 8 (x.seq.entry / 256) else old
  | 6 => if o = 6 then (old &&& 0xC0#8) ||| BitVec.ofNat 8 x.initCtx else old
  | _ => old

/-- The golden configuration data of an entry as it is stored: the service shadow, the image in flash, or the host-loaded
image (R380, R390, R391). -/
def State.goldenData (s : State) (e : Golden) : List Byte :=
  match s.sweep.shadows.find? (fun h => decide (h.cfa = cfaNorm e.cfa)) with
  | some h => h.data
  | none =>
    if s.img.host then (slice s.img.hostBytes (e.frameOff + 16) 512 ++ List.replicate 512 0).take 512
    else flashBytes s.flash.data (s.img.base + e.frameOff + 16) 512

/-- The golden CRC of an entry (R380, R390, R391). -/
def State.goldenCrc (s : State) (e : Golden) : Word :=
  match s.sweep.shadows.find? (fun h => decide (h.cfa = cfaNorm e.cfa)) with
  | some h => crc32 h.data
  | none => match s.sweep.crcs.find? (fun c => decide (c.1 = cfaNorm e.cfa)) with
    | some c => c.2
    | none => e.gcrc

/-- The 512 bytes in the place of an entry (Table 22.1); a port's configuration is told by its differing bits alone. -/
def State.placeData (s : State) (e : Golden) : List Byte :=
  let x := s.gal (cfaGal e.cfa)
  match cfaKind e.cfa with
  | 0 => match x.planeOf (cfaCtx e.cfa) with
    | some p => memRead x.planeCfg (cfgSize * p + 512 * cfaIndex e.cfa) 512
    | none => memRead x.store (slotSize * cfaCtx e.cfa + 512 * cfaIndex e.cfa) 512
  | 1 => (List.range 128).flatMap (fun n => leBytes 4 (x.seq.word (128 * cfaIndex e.cfa + n)).toNat)
  | 2 => (List.range 512).map (tableByte x (s.goldenData e))
  | 3 => memRead s.tnd.cfg (tndAddr (cfaBlock e.cfa) (cfaIndex e.cfa) 0) 512
  | _ => s.goldenData e

/-- Puts 512 bytes into the place of an entry that is checked there (Table 22.1). -/
def putPlace (e : Golden) (d : List Byte) (s : State) : State :=
  match cfaKind e.cfa with
  | 0 => s.modGal (cfaGal e.cfa) (fun x =>
      match x.planeOf (cfaCtx e.cfa) with
      | some p => { x with planeCfg := tabBlock 0 x.planeCfg (cfgSize * p + 512 * cfaIndex e.cfa) 512 (byteAt d) }
      | none => { x with store := tabBlock 0 x.store (slotSize * cfaCtx e.cfa + 512 * cfaIndex e.cfa) 512 (byteAt d) })
  | 2 => s.modGal (cfaGal e.cfa) (loadTable d)
  | _ => writeFrame e.cfa d s

/-- Inverts the named bits of 512 bytes. -/
def flipBits (d : List Byte) (flips : List Nat) : List Byte :=
  (List.range 512).map (fun i =>
    flips.foldl (fun b n => if n / 8 = i then b ^^^ (1#8 <<< (n % 8)) else b) (byteAt d i))

/-- The bits in which two strings of 512 bytes differ. -/
def diffBits (a b : List Byte) : List Nat :=
  (List.range 4096).filter (fun n => (byteAt a (n / 8)).getLsbD (n % 8) != (byteAt b (n / 8)).getLsbD (n % 8))

/-- The entry is skipped: unguarded, or its place is not present or in a domain that is not on (R379, R387, R390, R391,
R392). -/
def State.sweepSkips (s : State) (i : Nat) (e : Golden) : Bool :=
  s.sweep.unguarded.contains (cfaNorm e.cfa) || (s.img.host && decide (8192 ≤ i)) ||
  (match cfaKind e.cfa with
   | 0 => !s.galOn (cfaGal e.cfa) || ((s.gal (cfaGal e.cfa)).fillingOf (cfaCtx e.cfa)).isSome
   | 1 => !s.galOn (cfaGal e.cfa)
   | 2 => !s.galOn (cfaGal e.cfa)
   | 3 => !s.tndOn
   | _ => !decide ((s.dom (16 + cfaGal e.cfa / 2)).st = .on))

/-- The frame was in use since the previous check of the entry (R388). -/
def State.frameInUse (s : State) (i : Nat) (e : Golden) : Bool :=
  let x := s.gal (cfaGal e.cfa)
  match cfaKind e.cfa with
  | 0 => match x.planeOf (cfaCtx e.cfa) with
    | some p => decide (p = x.active ∨ tabGet 0 s.sweep.checked i ≤ (x.plane p).usedCyc)
    | none => false
  | 1 => true
  | 2 => true
  | _ => false

/-- The entry's frame belongs to a gallery (R385). -/
def ofGallery (cfa : Nat) : Bool := decide (cfaKind cfa ≤ 2)

/-- The policy that an essential difference meets: 0 when the frame was not in use or has no gallery (R388). -/
def State.policyFor (s : State) (cfa : Nat) (inUse : Bool) : Nat :=
  if inUse && ofGallery cfa then fld (s.par (galP (cfaGal cfa) 0x30)) 1 0 else 0

/-- Applies a policy (Table 22.2): a reset waits while the gallery's damper is not open. -/
def applyPolicy (pol g : Nat) (s : State) : State :=
  match pol with
  | 1 =>
    let s := s.count (galP g 0x33) 1
    if s.damping g then s.modGal g (fun x => { x with resetDue := true }) else galleryReset g s
  | 2 => markDead g 5 s
  | _ => s

/-- Counts an essential difference (R385, R391). -/
def countEssential (cfa : Nat) (s : State) : State :=
  let s := s.count 0x3A03 1
  if ofGallery cfa then s.count (galP (cfaGal cfa) 0x31) 1 else s

/-- Raises SWEEP_ESSENTIAL (Table 19.7). -/
def raiseEssential (cfa n pol : Nat) (s : State) : State :=
  s.raise 0xE0 (leBytes 4 cfa ++ leBytes 2 n ++ [BitVec.ofNat 8 pol])

/-- Records the outcome of a repair (R385, R388). -/
def recordRepair (cfa n : Nat) (essential inUse : Bool) (s : State) : State :=
  if essential then
    let pol := s.policyFor cfa inUse
    raiseEssential cfa n pol (applyPolicy pol (cfaGal cfa) ((countEssential cfa s).putPar 0x3A06 (wd cfa)))
  else
    let s := s.count 0x3A02 1
    if ofGallery cfa then s.count (galP (cfaGal cfa) 0x32) 1 else s

/-- The next entry, and at the last one the end of the pass, which is late after its time (R381, R382). -/
def nextEntry (s : State) : State :=
  let i := s.sweep.index
  let s := { s with sweep := { s.sweep with index := i + 1, repair := none, changed := false } }
  if i + 1 < s.img.golden.length then s
  else
    let s := s.tally 0x3A04 1
    let late := decide (s.sweep.start + s.sweep.teff < s.clk.cyc)
    let t := { s with sweep := { s.sweep with late := late } }
    if late && !s.sweep.late then t.raise 0xE4 (leBytes 4 ((s.clk.cyc - s.sweep.start + 999999) / 1000000)) else t

/-- The end of the work on an entry that was checked. -/
def endEntry (s : State) : State :=
  nextEntry { s with sweep := { s.sweep with checked := tabSet 0 s.sweep.checked s.sweep.index s.clk.cyc } }

/-- A pass starts: its start and T_eff in core cycles (R381). -/
def startSweepPass (s : State) : State :=
  { s with sweep := { s.sweep with
      running := true, start := s.clk.cyc, index := 0, repair := none, changed := false
      teff := 8 * max (fld (s.par 0x3A00) 13 0 * 125000) (72 * s.img.golden.length) } }

/-- SWEEP_PASS_START (R381): in user mode, when the previous pass has ended. -/
def execSweepPassStart (s : State) : Host.Outcome State Fault Refusal :=
  .next (
    if s.clocked && s.user && !s.sweep.restarting && !s.img.golden.isEmpty &&
        (!s.sweep.running || decide (s.img.golden.length ≤ s.sweep.index)) then startSweepPass s
    else s)

/-- Reads `n` bytes of the flash from address `a` in whole code words. -/
def readFlash (a n : Nat) (s : State) : List Byte × State :=
  let p := readWords ((a + n + 31) / 32 - a / 32) (a / 32) s
  (slice p.1 (a % 32) n, p.2)

/-- A code word of the bytes is uncorrectable. -/
def State.flashBad (s : State) (a n : Nat) : Bool := (s.firstFatal (a / 32) ((a + n + 31) / 32 - a / 32)).isSome

/-- The size of a map record's body as its KIND and COUNT state it (Table 6.8). -/
def mapBody (h : List Byte) : Option Nat :=
  match (byteAt h 4).toNat with
  | 1 => some 512
  | 2 => some ((4 * leAt h 6 2 + 15) / 16 * 16)
  | 3 => some 0
  | _ => none

/-- The essential bits that a map record names, or none when the record is invalid (R115); `room` is what its payload
holds from the record on. -/
def mapBits (room : Nat) (d : List Byte) : Option (Nat → Bool) :=
  match mapBody d with
  | none => none
  | some n =>
    let body := slice d 16 n
    let ranges := (List.range (leAt d 6 2)).map (fun i => (leAt body (4 * i) 2, leAt body (4 * i + 2) 2))
    if room < 16 + n ∨ body.length < n ∨ crc32 (d.take 8 ++ body) ≠ wd (leAt d 8 4) then none
    else match (byteAt d 4).toNat with
      | 1 => some (fun b => (byteAt body (b / 8)).getLsbD (b % 8))
      | 2 =>
        if ranges.any (fun r => decide (4096 < r.1 + r.2)) then none
        else some (fun b => ranges.any (fun r => decide (r.1 ≤ b ∧ b < r.1 + r.2)))
      | _ => some (fun _ => false)

/-- An invalid map record is counted, and reported once (R387). -/
def noteMapBad (off cfa : Nat) (s : State) : State :=
  let s := s.count 0x3A07 1
  if s.sweep.mapBad.contains off then s
  else ({ s with sweep := { s.sweep with mapBad := s.sweep.mapBad ++ [off] } } : State).raise 0xE1 (leBytes 4 cfa)

/-- Some of the differing bits are essential (R384 step 3), with what reading the map record counts. -/
def classify (e : Golden) (diff : List Nat) (s : State) : Bool × State :=
  if e.mapOff = 0 ∨ s.sweep.shadows.any (fun h => decide (h.cfa = cfaNorm e.cfa)) then (true, s)
  else
    let a := s.img.base + e.mapOff
    let room := ((s.img.mapRecs.find? (fun r => decide (r.1 = e.mapOff))).map (fun r => r.2.2)).getD 0
    let n := min (16 + (mapBody (flashBytes s.flash.data a 16)).getD 0) room
    let bad := s.flashBad a n
    let d := readFlash a n s
    match (if bad then none else mapBits room d.1) with
    | some f => (diff.any f, d.2)
    | none => (true, noteMapBad e.mapOff e.cfa d.2)

/-- A difference that the sweep cannot repair (R387): event 0xE3, the policy, and the entry is unguarded from now on. -/
def goldenFails (i : Nat) (e : Golden) (s : State) : State :=
  let pol := s.policyFor e.cfa (s.frameInUse i e)
  applyPolicy pol (cfaGal e.cfa)
    (({ s with sweep := { s.sweep with unguarded := s.sweep.unguarded ++ [cfaNorm e.cfa] } } : State).raise 0xE3
      (leBytes 4 e.cfa))

/-- A difference found by the detect-only sweep of a host-loaded image (R391); the list of CRCs tells no number of
differing bits, so that number is free (note 4, DESIGN CHOICE). -/
def detectOnly (i : Nat) (e : Golden) (s : State) : State :=
  let pol := s.policyFor e.cfa (s.frameInUse i e)
  let s := applyPolicy pol (cfaGal e.cfa) (countEssential e.cfa s)
  if s.sweep.reported.contains (cfaNorm e.cfa) then s
  else
    let n := s.freeWord
    let s := n.2
    raiseEssential e.cfa (n.1.toNat % 65536) pol
      { s with sweep := { s.sweep with reported := s.sweep.reported ++ [cfaNorm e.cfa] } }

/-- A mismatch (R384): classified, and its repair asks for the configuration port; a port's repair is applied at once
(R389). -/
def mismatch (i : Nat) (e : Golden) (flips : List Nat) (s : State) : State :=
  if s.img.host then endEntry (detectOnly i e s)
  else if cfaKind e.cfa = 4 then endEntry (recordRepair e.cfa flips.length true false s)
  else
    let a := s.img.base + e.frameOff + 16
    let shadow := s.sweep.shadows.any (fun h => decide (h.cfa = cfaNorm e.cfa))
    let bad := !shadow && (s.flashBad a 512 || decide (crc32 (s.goldenData e) ≠ e.gcrc))
    let s := if shadow then s else (readFlash a 512 s).2
    if bad then endEntry (goldenFails i e s)
    else
      let diff := diffBits (s.placeData e) (s.goldenData e)
      let c := classify e diff s
      let s := c.2
      askPort (cfaPort e.cfa) (.sweep 0)
        { s with sweep := { s.sweep with repair := some (i, diff.length, c.1, s.frameInUse i e), changed := false } }

/-- SWEEP_ENTRY_DUE (R381, R384): the next entry is checked.  `flips` are the bits that upsets have inverted in its place
and that the model's state does not show yet; `upsets` are those of the flash words read. -/
def execSweepEntryDue (flips : List Nat) (upsets : List Upset) (s : State) : Host.Outcome State Fault Refusal :=
  .next (
    let i := s.sweep.index
    if !s.clocked || !s.user || !s.sweep.running || s.sweep.restarting || s.sweep.repair.isSome then s
    else match s.img.golden[i]? with
      | none => s
      | some e =>
        let s := noteFlash upsets s
        if s.sweepSkips i e then nextEntry s
        else if cfaKind e.cfa = 4 then (if flips.isEmpty then endEntry s else mismatch i e flips s)
        else
          let s := if flips.isEmpty then s else putPlace e (flipBits (s.placeData e) flips) s
          if crc32 (s.placeData e) = s.goldenCrc e then endEntry s else mismatch i e flips s)

/-- The sweep holds the configuration port. -/
def State.sweepHolds (s : State) (port : Nat) : Bool :=
  match (s.gal port).portBusy with
  | some w => w.isSweep
  | none => false

/-- Writes the golden frame of an entry to its place: for kind 0 to the slot and a resident plane (R384). -/
def repairPlace (e : Golden) (s : State) : State :=
  if cfaKind e.cfa = 2 then s.modGal (cfaGal e.cfa) (loadTable (s.goldenData e)) else writeFrame e.cfa (s.goldenData e) s

/-- SWEEP_REPAIR_WRITE (R384–R386, R389): under its grant the waiting repair is written and recorded, or discarded when
its place has changed. -/
def execSweepRepairWrite (s : State) : Host.Outcome State Fault Refusal :=
  .next (match s.sweep.repair with
    | none => s
    | some (i, n, essential, inUse) =>
      match s.img.golden[i]? with
      | none => s
      | some e =>
        if !s.clocked || !s.sweepHolds (cfaPort e.cfa) then s
        else if s.sweep.changed then endEntry s
        else endEntry (recordRepair e.cfa n essential inUse (repairPlace e s)))

/-- The supervisor restarts the engine (R394): counted, reported with its cause, and a waiting repair abandoned. -/
def restartSweep (cause : Nat) (s : State) : State :=
  let s := { s with sweep := { s.sweep with restarting := true, repair := none, changed := false } }
  let s := (List.range 17).foldl (fun s p =>
    s.modGal p (fun x => { x with portWait := x.portWait.filter (fun w => !w.isSweep) })) s
  (s.count 0x3A05 1).raise 0xE2 [BitVec.ofNat 8 cause]

/-- SWEEP_VOTE_FAILURE (R393, R394). -/
def execSweepVoteFailure (s : State) : Host.Outcome State Fault Refusal :=
  .next (if s.clocked && s.user then restartSweep 1 s else s)

/-- SWEEP_HEARTBEAT_TIMEOUT (R394). -/
def execSweepHeartbeatTimeout (s : State) : Host.Outcome State Fault Refusal :=
  .next (if s.clocked && s.user && !s.sweep.restarting then restartSweep 2 s else s)

/-- SWEEP_RESTART_DONE (R394): a new pass starts at entry 0. -/
def execSweepRestartDone (s : State) : Host.Outcome State Fault Refusal :=
  .next (
    if s.clocked && s.sweep.restarting then startSweepPass { s with sweep := { s.sweep with restarting := false } } else s)

end Sys2Proof.Machine
end

