-- ==== Sys2Proof/Machine/Power.lean ====
section
/-!
DEFINITION. Power domains that leave and re-enter the on state (R13, R74, Table 4.4), and the running damper commands
that wait for them (R309).
-/

namespace Sys2Proof.Machine

/-- The domain of a configuration frame: its gallery, port pair or the Tinder fabric. -/
def cfaDomain (cfa : Nat) : Nat :=
  match cfaKind cfa with
  | 3 => 24
  | 4 => 16 + cfaGal cfa / 2
  | _ => cfaGal cfa

/-- A repair of the sweep that waited for a domain that has lost its power is abandoned: its place is not on (R390). -/
def dropRepair (d : Nat) (s : State) : State :=
  match s.sweep.repair with
  | some (i, _) =>
    match s.goldenCfa i with
    | some cfa => if cfaDomain cfa = d then nextEntry s else s
    | none => s
  | none => s

/-- Domain `d` has lost its power (Table 4.4, R365): frames changed in service are lost, writers at its configuration
port end with ASLEEP, and the Tinder registers hold 0. -/
def loseDomain (d : Nat) (s : State) : State :=
  let s := { s with sweep := { s.sweep with shadows := s.sweep.shadows.filter (fun h => decide (cfaDomain h.cfa ≠ d)) } }
  let s := dropRepair d s
  if d < 16 then dropWriters d s
  else if d = 24 then
    let s := dropWriters 16 s
    { s with tnd := { s.tnd with q := 0, out := 0 } }
  else s

/-- The two directions of a port's link. -/
def eachLink (p : Nat) (f : Nat → State → State) (s : State) : State :=
  [false, true].foldl (fun s tx => match s.linkOf p tx with | some l => f l s | none => s) s

/-- Port p leaves the on state: its seam link goes down with reason 6 and is off, its JESD204C links go down (R275,
Table 21.4). -/
def portLeaves (p : Nat) (s : State) : State :=
  eachLink p dropLink ((seamDown p 6 s).modSeam p (fun q => { q with state := 0 }))

/-- Port p is on again: its CDR has parked, from off its adaptation is lost (Table 4.4); its links restart (R251, R266). -/
def portReturns (fresh : Bool) (p : Nat) (s : State) : State :=
  let s := s.modPort p (fun q =>
    let q := { q with cdr := false, phi := none, txBuf := [], ringK := 0 }
    if fresh then
      { q with inverted := false, polDone := false, txFault := false, idSeen := []
               ctle := clampCtle (s.par (portP p 0x09)) 8, dfe := List.replicate 5 0 }
    else q)
  let s := if s.protocol p = 2 then
      s.modSeam p (fun q => { Seam.reset with state := 1, reason := q.reason })
    else s
  eachLink p (fun l s => startLink l (if s.linkSub1 l then armSysref l s else s)) s

/-- The ports of port-pair domain `d`. -/
def State.pairPorts (s : State) (d : Nat) : List Nat := [2 * (d - 16), 2 * (d - 16) + 1].filter s.variant.hasPort

/-- Domain `d` is in state `st`, not on: its links have gone, and a domain that is off has lost its contents. -/
def leaveOn (d : Nat) (st : DomSt) (s : State) : State :=
  let was := (s.dom d).st
  let s := s.modDom d (fun x => { x with st := st, moving := false, waking := false })
  let s := if 16 ≤ d ∧ d < 24 ∧ was = .on then (s.pairPorts d).foldl (fun s p => portLeaves p s) s else s
  if st = .off then loseDomain d s else s

/-- Domain `d` opens (Table 21.4): the clock enable is restored, the router delivers what it held, and a running
DAMPER_OPEN reports it.  A gallery reset that waited for the damper takes place (R203). -/
def openDomain (d : Nat) (s : State) : State :=
  let s := s.modDom d (fun x =>
    { x with st := .on, damper := .openD, step := 0, fenced := false, moving := false, waking := false
             rekindling := false, critical := false, asleepDone := false })
  let s := { s with pwr := { s.pwr with
    critical := (List.range 25).any (fun k => (s.dom k).critical) } }
  let s := if d < 16 then s.modSeq d (fun q => { q with damped := false }) else s
  let s := if d < 16 ∧ (s.gal d).resetDue = true then galleryReset d s else s
  damperDone d true false (releaseHeld d s)

end Sys2Proof.Machine
end

