-- ==== Sys2Proof/Machine/Clock.lean ====
section
/-!
DEFINITION. Clock, reset entry, SYNC, AVS and thermal protection (chapters 3 and 4).
-/

namespace Sys2Proof.Machine

/-- What every reset that starts from PLL lock or COLD_RSTN leaves (Table 4.6): all logic at its reset value.  The
flash keeps its contents, a flash write in progress is cut short (R127, R134, R135); the reference, the junction
temperature, the waiting commands and the model's own counters are outside the logic. -/
def clearAll (mode : ClockMode) (src : Nat) (s : State) : State :=
  let s := cutFlash s
  { State.reset with
    pending := s.pending, variant := s.variant, flash := { s.flash with op := none, corrCyc := none }, free := s.free
    clk := { Clock.reset with mode := mode, resetSrc := src, cyc := s.clk.cyc, refPresent := s.clk.refPresent }
    pwr := { Power.reset with tj := s.pwr.tj } }

/-- COLD_RESET (R75, R65): COLD_RSTN is low; the latches are transparent and AVS_VID drives code 48. -/
def execColdReset (s : State) : Host.Outcome State Fault Refusal := .next (clearAll .coldReset 1 s)

/-- The accepted windows of codes 1–14, in ten-thousandths of the ratio (Table 3.9). -/
def rvWindows : List (Nat × Nat) :=
  [(868, 950), (1225, 1337), (1696, 1842), (2309, 2491), (3059, 3276), (3928, 4169), (4872, 5122), (5827, 6068),
   (6713, 6930), (7501, 7684), (8151, 8297), (8661, 8773), (9048, 9130), (9332, 9392)]

/-- The code of a ratio given in ten-thousandths; none when it lies between two windows (R40). -/
def rvDecode (r : Nat) : Option Nat :=
  if r < 99 then some 0
  else if 9901 < r then some 15
  else (firstBelow 14 (fun i => let w := rvWindows.getD i (1, 0); decide (w.1 ≤ r ∧ r ≤ w.2))).map (· + 1)

/-- The safe code of RV pin `i` (Table 3.10). -/
def rvSafe (i : Nat) : Nat := [15, 0, 15, 15, 15, 10, 1, 8].getD i 0

/-- Code `c` of RV pin `i` is reserved (Tables 3.11 to 3.16). -/
def rvReserved (i c : Nat) : Bool :=
  match i with
  | 2 => decide (8 ≤ c ∧ c ≤ 14)
  | 3 => decide (4 ≤ c ∧ c ≤ 14)
  | 4 => decide (7 ≤ c ∧ c ≤ 14)
  | 5 => decide (11 ≤ c ∧ c ≤ 14)
  | 6 => decide (3 ≤ c ∧ c ≤ 14)
  | 7 => decide (5 ≤ c ∧ c ≤ 7) || decide (c = 13) || decide (c = 14)
  | _ => false

/-- One RV pin: its effective code, and its ambiguous and substitution flags, before the combination rules (R41). -/
def rvPin (i r : Nat) : Nat × Bool × Bool :=
  match rvDecode r with
  | none => (rvSafe i, true, false)
  | some c => if rvReserved i c then (rvSafe i, false, true) else (c, false, false)

/-- The combination rules, in order (R50): the codes and the mask of the pins they change. -/
def rvCombine (l : List Nat) : List Nat × Nat :=
  let pcie := l.getD 4 0
  let one := decide (pcie = 0 ∧ l.getD 6 0 = 0)
  let l := if one then l.set 6 1 else l
  let two := decide ((l.getD 7 0 = 3 ∨ l.getD 7 0 = 11) ∧ pcie = 0)
  let l := if two then l.set 7 8 else l
  let three := decide ((l.getD 7 0 = 4 ∨ l.getD 7 0 = 12) ∧ l.getD 6 0 = 0)
  let l := if three then l.set 7 8 else l
  (l, flag one 6 + flag (two || three) 7)

/-- INV_RV and INV_RV_FLAGS from the eight ratios (R41); a missing ratio is an open pin. -/
def rvCapture (ratios : List Nat) : BitVec 32 × BitVec 32 :=
  let pins := (List.range 8).map (fun i => rvPin i (ratios.getD i 10000))
  let c := rvCombine (pins.map (·.1))
  let amb := maskOf 8 (fun i => (pins.getD i (0, false, false)).2.1)
  let sub := maskOf 8 (fun i => (pins.getD i (0, false, false)).2.2 || bitOf c.2 i)
  (BitVec.ofNat 32 ((List.range 8).foldl (fun a i => a + c.1.getD i 0 * 16 ^ i) 0), BitVec.ofNat 32 (amb + 2 ^ 8 * sub))

/-- The latched straps: a strap that moves within 100 ns of the edge breaks R39, and its latch holds a free bit. -/
def latchStraps (straps moving : BitVec 4) (s : State) : BitVec 4 × State :=
  (List.range 4).foldl (fun (a : BitVec 4 × State) i =>
    if hasBit moving i then
      let b := a.2.freeBit
      (putBit a.1 i b.1, b.2)
    else a) (straps, s)

/-- COLD_RSTN_RISE (R38): the latches close and the PLL starts; with a rail out of range the behaviour is not defined
until the next correct COLD_RSTN (chapter 4, Edges). -/
def execColdRstnRise (straps moving : BitVec 4) (ratios : List Nat) (railsGood : Bool) (s : State) :
    Host.Outcome State Fault Refusal :=
  if s.clk.mode ≠ .coldReset then .next s
  else if !railsGood then .fault .undefinedPowerUp
  else
    let l := latchStraps straps moving s
    let rv := rvCapture ratios
    let s := l.2
    .next { s with
      board := { straps := l.1, rv := rv.1, rvFlags := rv.2, valid := false }, clk := { s.clk with mode := .locking } }

/-- The core clock stops with outputs safe (R55). -/
def stopClock (cause : StopCause) (s : State) : State :=
  { s with clk := { s.clk with mode := .waiting, cause := cause, beacons := 0 }, tnd := { s.tnd with driven := 0 } }

/-- REF_LOST (R55): a running core clock stops; during a stop the wait of R56 stands still until the reference is back. -/
def execRefLost (s : State) : Host.Outcome State Fault Refusal :=
  .next (
    let s := if s.clocked then stopClock .refLost s else s
    { s with clk := { s.clk with refPresent := false } })

/-- PLL_UNLOCK (R55). -/
def execPllUnlock (s : State) : Host.Outcome State Fault Refusal :=
  .next (if s.clocked then stopClock .pllUnlock s else s)

/-- REF_PRESENT (R54): the wait of R56 runs anew. -/
def execRefPresent (s : State) : Host.Outcome State Fault Refusal :=
  .next { s with clk := { s.clk with refPresent := true } }

/-- STOP_WAIT_EXPIRY (R56): the PLL starts to lock again. -/
def execStopWaitExpiry (s : State) : Host.Outcome State Fault Refusal :=
  .next (if s.clk.mode = .waiting ∧ s.clk.refPresent = true then
      { s with clk := { s.clk with mode := .relocking } } else s)

/-- RELOCK_TIMEOUT (R56): the stop goes on with its cause, and a new wait starts. -/
def execRelockTimeout (s : State) : Host.Outcome State Fault Refusal :=
  .next (if s.clk.mode = .relocking then { s with clk := { s.clk with mode := .waiting } } else s)

/-- CLOCK_START_FAIL (R450): from the lock that follows COLD_RSTN, the device enters the stop. -/
def execClockStartFail (missing : Bool) (s : State) : Host.Outcome State Fault Refusal :=
  .next (
    if s.clk.mode = .locking then
      let s := stopClock (if missing then .refLost else .pllUnlock) s
      if missing then { s with clk := { s.clk with refPresent := false } } else s
    else s)

/-- Kindling starts at PLL lock (R57–R59, R76): tick 0 in the first core cycle, keeper cycle 0, alignment armed when
SYNC is used. -/
def startClock (s : State) : State :=
  { s with
    clk := { s.clk with mode := .running, tick := 0, keeperLeft := 8, aligned := false, armed := !s.syncIgnored
                        marginal := false, loadIn := none, absentDone := false
                        deferred := { event := 0x00, data := [BitVec.ofNat 8 s.clk.resetSrc] } ::
                          s.clk.deferred.filter (fun e => decide (e.event ≠ 0)) }
    kin := Kindle.reset }

/-- PLL_LOCK (R56, R76): after COLD_RSTN or a brown-out hold kindling starts; after a stop a clock-loss reset comes first
(Table 4.6), and the stop is reported after the kindling. -/
def execPllLock (periods : Nat) (s : State) : Host.Outcome State Fault Refusal :=
  .next (
    match s.clk.mode with
    | .locking => startClock s
    | .relocking =>
      let t := clearAll .relocking 3 s
      let e := match s.clk.cause with | .refLost => 0x01 | .pllUnlock => 0x02
      startClock { t with
        board := { s.board with valid := false }, pwr := { t.pwr with vid := s.pwr.vid }
        lamp := { t.lamp with owner := s.lamp.owner }
        clk := { t.clk with cause := s.clk.cause
                            deferred := s.clk.deferred ++ [{ event := e, data := leBytes 4 (min periods 0xFFFFFFFF) }] } }
    | _ => s)

/-- BEACON_FRAME (R313): during a stop, when RV_LAMP enables the beacon and LAMP_TX is not off. -/
def execBeaconFrame (s : State) : Host.Outcome State Fault Refusal :=
  .next (
    let on := decide (s.clk.mode = .waiting ∨ s.clk.mode = .relocking) && decide (s.rv 6 = 1 ∨ s.rv 6 = 15) && !s.lampTxOff
    if on then
      let cause := match s.clk.cause with | .refLost => 1 | .pllUnlock => 2
      let body := leBytes 2 s.variant.part ++ leBytes 1 s.card ++ leBytes 1 cause ++ leBytes 4 (min s.clk.beacons 0xFFFFFFFF)
      { s with lamp := { s.lamp with sent := message 3 0x82 0 0 0 body :: s.lamp.sent }
               clk := { s.clk with beacons := s.clk.beacons + 1 } }
    else s)

/-- BROWN_OUT (R66): a sag of VCORE (0) or VKEEP (1) holds the device in reset; straps, RV codes and the AVS code stay.
A sag that goes on does not repeat the reset. -/
def execBrownOut (rail : Nat) (s : State) : Host.Outcome State Fault Refusal :=
  .next (
    if s.clk.mode = .coldReset ∨ s.clk.mode = .brownOut then s
    else
      let t := clearAll .brownOut 2 s
      { t with
        board := { s.board with valid := false }, pwr := { t.pwr with vid := s.pwr.vid }
        clk := { t.clk with deferred := [{ event := 0x07, data := [BitVec.ofNat 8 (min rail 1)] }] } })

/-- RAIL_RECOVERED (R66): the hold ends and the PLL locks again. -/
def execRailRecovered (s : State) : Host.Outcome State Fault Refusal :=
  .next (if s.clk.mode = .brownOut then { s with clk := { s.clk with mode := .locking } } else s)

/-- The check of R61 on an unarmed capture: a slip is counted and reported, and the count does not change. -/
def checkSlip (s : State) : State :=
  let period := s.parN 0x3D03
  let load := s.pair 0x3D04
  let at' := (s.clk.tick.toNat + 16 + fld (s.par 0x3D06) 2 0) % 2 ^ 64
  if s.clk.aligned && decide (period ≠ 0) && decide (at' % period ≠ load % period) then
    let s := s.count 0x3D08 1
    s.raise 0x04 (leBytes 8 s.clk.tick.toNat ++ leBytes 4 (s.parN 0x3D08))
  else s

/-- SYNC_CAPTURE (R58, R61, R62): the capture cycle of a SYNC edge, unless the pair is reversed (Table 25.3).  An armed
capture loads the count 16 + TB_SYNC_DELAY cycles later. -/
def execSyncCapture (marginal : Bool) (s : State) : Host.Outcome State Fault Refusal :=
  .next (
    if !s.clocked || decide (tabGet 0 s.pins.kinds 10 = 5) then s
    else
      let s := { s with tnd := { s.tnd with pulses := s.tnd.pulses ||| 1#2 } }
      let s := if marginal && !s.clk.marginal then s.raise 0x05 (leBytes 8 s.clk.tick.toNat) else s
      let s := { s with clk := { s.clk with marginal := marginal } }
      if s.clk.armed then
        { s with clk := { s.clk with armed := false, loadIn := some (16 + fld (s.par 0x3D06) 2 0) } }
      else checkSlip s)

/-- SYNC_ABSENT (R62): once, 10 ms after PLL lock with SYNC used and no alignment. -/
def execSyncAbsent (s : State) : Host.Outcome State Fault Refusal :=
  .next (
    if s.clocked && !s.syncIgnored && !s.clk.aligned && !s.clk.absentDone then
      ({ s with clk := { s.clk with absentDone := true } } : State).raise 0x06 []
    else s)

/-- The monitors that report: those of galleries with power, and the keeper's (bit 16). -/
def State.monitors (s : State) : List Nat := s.galList.filter (fun g => decide ((s.dom g).st ≠ .off)) ++ [16]

/-- STRAP_AVSFIX holds code 48 (R67). -/
def State.avsFixed (s : State) : Bool := hasBit s.board.straps 3

/-- The output code is at the highest it may take, so low margin is a margin failure (R73). -/
def State.avsAtTop (s : State) : Bool :=
  let pin := s.par 0x102
  s.avsFixed || decide (fld (s.par 0x101) 5 0 ≤ s.pwr.vid) || decide (56 ≤ s.pwr.vid) ||
    (pin.getLsbD 31 && decide (fld pin 5 0 ≤ s.pwr.vid))

/-- Margin gating of one gallery at an evaluation (R73). -/
def marginGate (low top : Bool) (g : Nat) (s : State) : State :=
  let duty := s.marginDuty g
  let ok := tabGet 0 s.pwr.marginOk g
  if low then
    let s := { s with pwr := { s.pwr with marginOk := tabSet 0 s.pwr.marginOk g 0 } }
    if top && decide (1 < duty) then
      let s := if duty = 16 then s.raise 0x0C [BitVec.ofNat 8 g, BitVec.ofNat 8 s.pwr.vid] else s
      { s with pwr := { s.pwr with marginDuty := tabSet 16 s.pwr.marginDuty g (duty - 1) } }
    else s
  else
    { s with pwr := { s.pwr with
        marginOk := tabSet 0 s.pwr.marginOk g (min 10 (ok + 1))
        marginDuty := if 9 ≤ ok then tabSet 16 s.pwr.marginDuty g (min 16 (duty + 1)) else s.pwr.marginDuty } }

/-- One step from code `c` toward code `w` (R67). -/
def codeStep (c w : Nat) : Nat := if c < w then c + 1 else if w < c then c - 1 else c

/-- The AVS code moves; evaluations before a change of the driven code do not count (R68). -/
def moveCode (w : Nat) (s : State) : State :=
  let v := codeStep s.pwr.vid w
  { s with pwr := { s.pwr with vid := v, highRun := if v = s.pwr.vid then s.pwr.highRun else 0 } }

/-- The AVS loop of user mode (R68, R69): the wanted code, limited to 0–56, then to the host bounds or the pin. -/
def avsLoop (low high : BitVec 17) (s : State) : State :=
  let run := if s.monitors.all (fun i => hasBit high i) then s.pwr.highRun + 1 else 0
  let s := { s with pwr := { s.pwr with highRun := min 10 run } }
  let v := s.pwr.vid
  let want := if s.monitors.any (fun i => hasBit low i) then min 56 (v + 1) else if 10 ≤ run then v - 1 else v
  let pin := s.par 0x102
  let out := if pin.getLsbD 31 then fld pin 5 0 else max (fld (s.par 0x100) 5 0) (min (fld (s.par 0x101) 5 0) want)
  let s := moveCode out s
  let due := match s.pwr.clipCyc with | none => true | some c => decide (c + 1000000000 ≤ s.clk.cyc)
  if want ≠ out ∧ due = true then
    ({ s with pwr := { s.pwr with clipCyc := some s.clk.cyc } } : State).raise 0x0B
      [BitVec.ofNat 8 want, BitVec.ofNat 8 s.pwr.vid]
  else s

/-- AVS_EVALUATION (R67, R68, R73, R77, R89): the loop and margin gating run in user mode; before it the code moves to 48
and stays there. -/
def execAvsEvaluation (low high : BitVec 17) (s : State) : Host.Outcome State Fault Refusal :=
  .next (
    if !s.clocked then s
    else if !s.user then (if s.avsFixed then s else moveCode 48 s)
    else
      let top := s.avsAtTop
      let s := (s.monitors.filter (fun g => decide (g < 16))).foldl (fun s g => marginGate (hasBit low g) top g s) s
      if s.avsFixed then s else avsLoop low high s)

/-- The trip level in degrees (R47). -/
def State.tripLevel (s : State) : Nat := if s.rv 5 = 15 then 100 else 105 - 2 * s.rv 5

/-- PWR_TJ is at or above `c` degrees. -/
def State.hotAt (s : State) (c : Nat) : Bool := decide (((16 * c : Nat) : Int) ≤ signed 16 s.pwr.tj.toNat)

/-- PWR_TJ takes a new value; THERM_ALERTN deasserts below its level (R71). -/
def setTj (tj : BitVec 16) (s : State) : State :=
  let s := { s with pwr := { s.pwr with tj := tj } }
  { s with pwr := { s.pwr with alertN := s.pwr.alertN && s.hotAt (s.tripLevel - 10) } }

/-- THERM_ALERTN asserts, with its event, when PWR_TJ has reached its level (R47, R71). -/
def alertAt (sensor : Nat) (s : State) : State :=
  if s.hotAt (s.tripLevel - 10) && !s.pwr.alertN then
    ({ s with pwr := { s.pwr with alertN := true } } : State).raise 0x08
      (leBytes 2 s.pwr.tj.toNat ++ [BitVec.ofNat 8 sensor])
  else s

/-- The gallery that the next thermal step lowers (R71): lowest GAL_GATE_PRIORITY, ties to the higher index. -/
def State.thermPick (s : State) : Option Nat :=
  let ok := s.galList.filter (fun g => s.galOn g && decide (1 < s.thermDuty g))
  let prio := fun g => fld (s.par (galP g 0x41)) 3 0
  ok.foldl (fun a g => match a with
    | none => some g
    | some b => if prio g ≤ prio b then some g else a) none

/-- One thermal step down; the first raises THERM_GATE (R71). -/
def thermDown (s : State) : State :=
  match s.thermPick with
  | none => s
  | some g =>
    let s := if s.pwr.thermActive then s else s.raise 0x09 (leBytes 1 1 ++ leBytes 2 s.pwr.tj.toNat)
    { s with pwr := { s.pwr with thermActive := true, thermSteps := g :: s.pwr.thermSteps } }

/-- One thermal step up, in the reverse order; the last raises THERM_GATE (R71). -/
def thermUp (s : State) : State :=
  match s.pwr.thermSteps with
  | [] => s
  | _ :: l =>
    let s := { s with pwr := { s.pwr with thermSteps := l, thermActive := !l.isEmpty } }
    if l.isEmpty then s.raise 0x09 (leBytes 1 0 ++ leBytes 2 s.pwr.tj.toNat) else s

/-- THERM_ALERT (R71). -/
def execThermAlert (tj : BitVec 16) (sensor : Nat) (s : State) : Host.Outcome State Fault Refusal :=
  .next (if s.clocked then alertAt sensor (setTj tj s) else s)

/-- THERM_TRIP (R71): one step at once. -/
def execThermTrip (tj : BitVec 16) (s : State) : Host.Outcome State Fault Refusal :=
  .next (
    if s.clocked then
      let s := setTj tj s
      if s.hotAt s.tripLevel then thermDown s else s
    else s)

/-- THERM_GATE_STEP (R71): a step down at or above the trip level, a step up from 5 °C below it. -/
def execThermGateStep (tj : BitVec 16) (s : State) : Host.Outcome State Fault Refusal :=
  .next (
    if s.clocked then
      let s := setTj tj s
      if s.hotAt s.tripLevel then thermDown s
      else if decide (signed 16 tj.toNat ≤ ((16 * (s.tripLevel - 5) : Nat) : Int)) then thermUp s
      else s
    else s)

/-- Domain `d` goes off at once (R72): whatever it was doing has ended, packets held for it meet the rule of an off
domain, and a HALT capture of it is lost (R413). -/
def critOff (d : Nat) (s : State) : State :=
  if (s.dom d).st = .off ∧ (s.dom d).rekindling = false then s
  else
    let s := if d < 16 ∧ s.halted d = true then
        { s with capt := { s.capt with
            perGal := tabMod CaptGal.reset s.capt.perGal d (fun c => { c with st := 1, lost := true }) } }
      else s
    let s := leaveOn d .off s
    let s := s.modDom d (fun x =>
      { x with damper := .openD, step := 0, fenced := false, rekindling := false, critical := true })
    damperDone d false false (releaseHeld d s)

/-- THERM_CRITICAL (R72): at 115 °C, whatever the RV_THERM code. -/
def execThermCritical (tj : BitVec 16) (sensor : Nat) (s : State) : Host.Outcome State Fault Refusal :=
  .next (
    if s.clocked then
      let s := alertAt sensor (setTj tj s)
      if s.hotAt 115 then
        let s := s.domOrder.foldl (fun s d => critOff d s) s
        ({ s with pwr := { s.pwr with critical := true } } : State).raise 0x0A
          (leBytes 2 tj.toNat ++ [BitVec.ofNat 8 sensor])
      else s
    else s)

end Sys2Proof.Machine
end

