-- ==== Sys2Proof/Machine/Crypto.lean ====
section
/-!
DEFINITION. SHA-256 (FIPS 180-4) and ECDSA P-384 signature verification (FIPS 186-5), as R118, R119 and R82 use them.
-/

namespace Sys2Proof.Machine

/-- The 64 round constants of SHA-256. -/
def shaK : List Word :=
  [0x428a2f98, 0x71374491, 0xb5c0fbcf, 0xe9b5dba5, 0x3956c25b, 0x59f111f1, 0x923f82a4, 0xab1c5ed5,
   0xd807aa98, 0x12835b01, 0x243185be, 0x550c7dc3, 0x72be5d74, 0x80deb1fe, 0x9bdc06a7, 0xc19bf174,
   0xe49b69c1, 0xefbe4786, 0x0fc19dc6, 0x240ca1cc, 0x2de92c6f, 0x4a7484aa, 0x5cb0a9dc, 0x76f988da,
   0x983e5152, 0xa831c66d, 0xb00327c8, 0xbf597fc7, 0xc6e00bf3, 0xd5a79147, 0x06ca6351, 0x14292967,
   0x27b70a85, 0x2e1b2138, 0x4d2c6dfc, 0x53380d13, 0x650a7354, 0x766a0abb, 0x81c2c92e, 0x92722c85,
   0xa2bfe8a1, 0xa81a664b, 0xc24b8b70, 0xc76c51a3, 0xd192e819, 0xd6990624, 0xf40e3585, 0x106aa070,
   0x19a4c116, 0x1e376c08, 0x2748774c, 0x34b0bcb5, 0x391c0cb3, 0x4ed8aa4a, 0x5b9cca4f, 0x682e6ff3,
   0x748f82ee, 0x78a5636f, 0x84c87814, 0x8cc70208, 0x90befffa, 0xa4506ceb, 0xbef9a3f7, 0xc67178f2]

/-- The initial hash value of SHA-256. -/
def shaInit : List Word :=
  [0x6a09e667, 0xbb67ae85, 0x3c6ef372, 0xa54ff53a, 0x510e527f, 0x9b05688c, 0x1f83d9ab, 0x5be0cd19]

/-- A word rotated right. -/
def rotr (x : Word) (n : Nat) : Word := (x >>> n) ||| (x <<< (32 - n))

/-- The message schedule: 48 more words after the 16 of the block, latest first. -/
def shaSchedule : Nat → List Word → List Word
  | 0, w => w
  | n + 1, w =>
    let a := w.getD 14 0
    let b := w.getD 1 0
    let s0 := rotr a 7 ^^^ rotr a 18 ^^^ (a >>> 3)
    let s1 := rotr b 17 ^^^ rotr b 19 ^^^ (b >>> 10)
    shaSchedule n ((w.getD 15 0 + s0 + w.getD 6 0 + s1) :: w)

/-- One round with constant and schedule word `k`; the working variables are a to h. -/
def shaRound (v : List Word) (k : Word) : List Word :=
  match v with
  | [a, b, c, d, e, f, g, h] =>
    let t1 := h + (rotr e 6 ^^^ rotr e 11 ^^^ rotr e 25) + ((e &&& f) ^^^ (~~~e &&& g)) + k
    let t2 := (rotr a 2 ^^^ rotr a 13 ^^^ rotr a 22) + ((a &&& b) ^^^ (a &&& c) ^^^ (b &&& c))
    [t1 + t2, a, b, c, d + t1, e, f, g]
  | l => l

/-- A word of a message, most significant octet first. -/
def beWord (l : List Byte) (i : Nat) : Word := wd (beNat (slice l (4 * i) 4))

/-- The hash value after one 64-byte block. -/
def shaBlock (hv : List Word) (l : List Byte) : List Word :=
  let w := (shaSchedule 48 ((List.range 16).reverse.map (beWord l))).reverse
  let v := (List.zipWith (· + ·) shaK w).foldl shaRound hv
  List.zipWith (· + ·) hv v

/-- The hash value after `n` blocks. -/
def shaBlocks : Nat → List Word → List Byte → List Word
  | 0, hv, _ => hv
  | n + 1, hv, l => shaBlocks n (shaBlock hv (l.take 64)) (l.drop 64)

/-- SHA-256 of a byte string, as 32 octets. -/
def sha256 (l : List Byte) : List Byte :=
  let m := l ++ [0x80] ++ List.replicate ((119 - l.length % 64) % 64) 0 ++ (leBytes 8 (8 * l.length)).reverse
  (shaBlocks (m.length / 64) shaInit m).flatMap (fun w => (leBytes 4 w.toNat).reverse)

/-- The prime of P-384. -/
def p384 : Nat := 2 ^ 384 - 2 ^ 128 - 2 ^ 96 + 2 ^ 32 - 1

/-- The coefficient b of P-384; the coefficient a is −3. -/
def p384B : Nat := 0xb3312fa7e23ee7e4988e056be3f82d19181d9c6efe8141120314088f5013875ac656398d8a2ed19d2a85c8edd3ec2aef

/-- The order of P-384. -/
def p384N : Nat := 0xffffffffffffffffffffffffffffffffffffffffffffffffc7634d81f4372ddf581a0db248b0a77aecec196accc52973

/-- A point in Jacobian coordinates (X ÷ Z², Y ÷ Z³); Z = 0 is the point at infinity. -/
structure Jac where
  x : Nat
  y : Nat
  z : Nat
  deriving DecidableEq, Repr

/-- The base point of P-384. -/
def p384G : Jac :=
  { x := 0xaa87ca22be8b05378eb1c71ef320ad746e1d3b628ba79b9859f741e082542a385502f25dbf55296c3a545e3872760ab7
    y := 0x3617de4a96262c6f5d9e98bf9292dc29f8f41dbd289a147ce9da3113b5f0b8c00a60b1ce1d7e819d7a431d7c90ea0e5f, z := 1 }

/-- A product modulo the prime. -/
def mulP (a b : Nat) : Nat := a * b % p384

/-- A difference modulo the prime, of values below it. -/
def subP (a b : Nat) : Nat := (a + (p384 - b)) % p384

/-- Twice a point. -/
def Jac.dbl (q : Jac) : Jac :=
  let yy := mulP q.y q.y
  let s := mulP 4 (mulP q.x yy)
  let zz := mulP q.z q.z
  let m := subP (mulP 3 (mulP q.x q.x)) (mulP 3 (mulP zz zz))
  let x := subP (mulP m m) (mulP 2 s)
  { x := x, y := subP (mulP m (subP s x)) (mulP 8 (mulP yy yy)), z := mulP 2 (mulP q.y q.z) }

/-- The sum of two points. -/
def Jac.add (a b : Jac) : Jac :=
  if a.z = 0 then b
  else if b.z = 0 then a
  else
    let az := mulP a.z a.z
    let bz := mulP b.z b.z
    let u1 := mulP a.x bz
    let u2 := mulP b.x az
    let s1 := mulP a.y (mulP bz b.z)
    let s2 := mulP b.y (mulP az a.z)
    if u1 = u2 then (if s1 = s2 then a.dbl else { x := 1, y := 1, z := 0 })
    else
      let h := subP u2 u1
      let r := subP s2 s1
      let hh := mulP h h
      let hhh := mulP hh h
      let v := mulP u1 hh
      let x := subP (subP (mulP r r) hhh) (mulP 2 v)
      { x := x, y := subP (mulP r (subP v x)) (mulP s1 hhh), z := mulP h (mulP a.z b.z) }

/-- The multiple `k` of a point, from the top bit down. -/
def Jac.mul (q : Jac) (k : Nat) : Jac :=
  (List.range 384).reverse.foldl (fun (a : Jac) i => if bitOf k i then a.dbl.add q else a.dbl) { x := 1, y := 1, z := 0 }

/-- b to the power e modulo n, for e below 2 to the power 384. -/
def powMod (n b e : Nat) : Nat :=
  (List.range 384).reverse.foldl (fun a i => let q := a * a % n; if bitOf e i then q * b % n else q) 1

/-- The public key is a point of the curve. -/
def p384Key (x y : Nat) : Bool :=
  decide (x < p384 ∧ y < p384) &&
    decide (mulP y y = (mulP x (mulP x x) + subP p384B (mulP 3 x)) % p384)

/-- ECDSA verification (FIPS 186-5, section 6.4.2) of signature (r, s) over the hash value `e`. -/
def ecdsaVerify (qx qy e r s : Nat) : Bool :=
  if r = 0 ∨ p384N ≤ r ∨ s = 0 ∨ p384N ≤ s ∨ p384Key qx qy = false then false
  else
    let w := powMod p384N s (p384N - 2)
    let a := (p384G.mul (e * w % p384N)).add (({ x := qx, y := qy, z := 1 } : Jac).mul (r * w % p384N))
    if a.z = 0 then false
    else
      let i := powMod p384 a.z (p384 - 2)
      decide (mulP a.x (mulP i i) % p384N = r)

end Sys2Proof.Machine
end

