-- ==== Sys2Proof/Machine/Pcie.lean ====
section
/-!
DEFINITION. The PCI Express endpoint (chapter 16): configuration space, BAR0 with its command slots and doorbells, the
report ring, BAR2, upstream writes and messages, and its resets.
-/

namespace Sys2Proof.Machine

/-- INV_PCI_IDS: the Vendor ID below the Device ID, which is INV_PART (Table 16.1). -/
def State.ids (s : State) : Nat := Config.pciIds.toNat % 65536 + 65536 * s.variant.part

/-- The host reaches the endpoint: the core clock runs and the link is up. -/
def State.hosted (s : State) : Bool := s.clocked && s.pcie.linkUp

/-- The max payload size in bytes (the device control register, dword 0x1E bits [7:5]: note 7, PRESUMED). -/
def State.maxPayload (s : State) : Nat := 128 * 2 ^ min 2 (fld (s.cfgReg 0x1E) 7 5)

/-- A dword of the configuration space (Table 16.1; the places are those of note 7, PRESUMED). -/
def cfgRead (s : State) (n : Nat) : Nat :=
  match n with
  | 0x00 => s.ids
  | 0x01 => (s.cfgReg 1).toNat + 0x00100000
  | 0x02 => 0x11800000 + Config.stepping
  | 0x04 => (s.cfgReg 4).toNat + 0x4
  | 0x05 => (s.cfgReg 5).toNat
  | 0x06 => 0xC
  | 0x07 => (s.cfgReg 7).toNat
  | 0x0B => s.ids
  | 0x0D => 0x40
  | 0x10 => 0x00035001
  | 0x11 => (s.cfgReg 0x11).toNat
  | 0x14 => (s.cfgReg 0x14).toNat + 0x00037011
  | 0x15 => 0x3800
  | 0x16 => 0x3C00
  | 0x1C => 0x00020010
  | 0x1D => 0x10000002
  | 0x1E => (s.cfgReg 0x1E).toNat
  | 0x20 => 65536 * (s.pcie.gen + 16 * s.pcie.width)
  | 0x40 => 0x14820001
  | 0x52 => 0x00010003
  | 0x53 => Config.serial.toNat % 2 ^ 32
  | 0x54 => Config.serial.toNat / 2 ^ 32
  | _ => 0

/-- The bits of a dword that a configuration write changes. -/
def cfgMask (n : Nat) : Word :=
  match n with
  | 0x01 => 0x00000546
  | 0x04 => 0xFFFFC000
  | 0x05 => 0xFFFFFFFF
  | 0x07 => 0xFFFFFFF0
  | 0x11 => 0x3
  | 0x14 => 0xC0000000
  | 0x1E => 0x000000EF
  | _ => 0

/-- Takes a queued or waiting response, in order, to where it goes (R283–R285): the response of the arming write and,
without a ring, the oldest waiting response to DIRECT_RSP; with a ring, waiting responses as far as there is room. -/
def drainRing : Nat → State → State
  | 0, s => s
  | k + 1, s =>
    match s.pcie.waiting with
    | m :: r => if s.pcie.ringArmed && s.ringRoom m then drainRing k (ringPut m { s with pcie := { s.pcie with waiting := r } }) else s
    | [] => s

/-- Fills DIRECT_RSP when it is empty. -/
def fillDirect (s : State) : State :=
  if s.pcie.direct.isSome then s
  else match s.pcie.armRsp, s.pcie.waiting with
    | some m, _ => raiseVector 1 { s with pcie := { s.pcie with direct := some m, armRsp := none } }
    | none, m :: r =>
      if s.pcie.ringArmed then s else raiseVector 1 { s with pcie := { s.pcie with direct := some m, waiting := r } }
    | none, [] => s

/-- RSP_ACK clears the ready bit of DIRECT_RSP (R283). -/
def ackResponse (s : State) : State := fillDirect { s with pcie := { s.pcie with direct := none } }

/-- Counts a refused doorbell (WS_DB_ERRORS, saturating). -/
def doorbellError (s : State) : State :=
  { s with pcie := { s.pcie with dbErrors := min 0xFFFFFFFF (s.pcie.dbErrors + 1) } }

/-- A write of the MSI-X table (Table 16.2): each vector-control dword is held complemented, so that an unlisted one reads
as masked; pending vectors that are unmasked leave. -/
def writeVectors (off : Nat) (l : List Word) (s : State) : State :=
  releaseVectors (l.zipIdx.foldl (fun s w =>
    let n := off / 4 + w.2
    if n < 16 then
      { s with pcie := { s.pcie with
          msixTable := tabSet 0 s.pcie.msixTable n (if n % 4 = 3 then ~~~w.1 &&& 1 else w.1) } }
    else s) s)

/-- CMD_SLOT_WRITE (R281, R282): aligned 32-bit words written to BAR0 offset 0x800·slot + off.  Slots 0–3 are the command
slots, where a busy slot discards them; 7 holds the MSI-X table; the other regions ignore writes or have rows of
their own. -/
def execCmdSlotWrite (slot off : Nat) (bytes : List Byte) (s : State) : Host.Outcome State Fault Refusal :=
  .next (
    if !s.hosted || decide (off % 4 ≠ 0 ∨ bytes.length % 4 ≠ 0 ∨ 2048 < off + bytes.length) then s
    else if slot = 7 then writeVectors off (wordsOf bytes) s
    else if hasBit s.pcie.busy slot ∨ 4 ≤ slot then s
    else
      let old := (tabGet [] s.pcie.slots slot ++ List.replicate 2048 0).take 2048
      let new := old.take off ++ bytes ++ old.drop (off + bytes.length)
      { s with pcie := { s.pcie with slots := tabSet [] s.pcie.slots slot new } })

/-- A write of CMD_DOORBELL (Table 16.2, R282, R283). -/
def doorbell (v : Word) (s : State) : State :=
  let ack := v.getLsbD 31
  let k := fld v 1 0
  let n := fld v 27 16
  let s := if ack then ackResponse s else s
  if ack && decide (n = 0) then s
  else if hasBit s.pcie.busy k ∨ n = 0 ∨ 2048 < n then doorbellError s
  else { s with pcie := { s.pcie with busy := putBit s.pcie.busy k true, queue := s.pcie.queue ++ [(k, n)] } }

/-- CMD_DOORBELL (R282). -/
def execCmdDoorbell (v : Word) (s : State) : Host.Outcome State Fault Refusal :=
  .next (if s.hosted then doorbell v s else s)

/-- RSP_ACK (R283): a doorbell that only acknowledges. -/
def execRspAck (s : State) : Host.Outcome State Fault Refusal := .next (if s.hosted then ackResponse s else s)

/-- The controller takes commands: no response waits, and without a ring DIRECT_RSP is empty (R283, R285). -/
def State.takesCommands (s : State) : Bool :=
  s.pcie.waiting.isEmpty && s.pcie.armRsp.isNone && (s.pcie.ringArmed || s.pcie.direct.isNone)

/-- SLOT_COPY (R282): the oldest queued slot goes into the command stream and is free again. -/
def execSlotCopy (s : State) : Host.Outcome State Fault Refusal :=
  .next (
    match s.pcie.queue with
    | [] => s
    | (k, n) :: r =>
      if !s.clocked || !s.takesCommands then s
      else
        let msg := (tabGet [] s.pcie.slots k ++ List.replicate n 0).take n
        let all := decide (s.pcie.busy = 15#4)
        let s := { s with pcie := { s.pcie with queue := r, busy := putBit s.pcie.busy k false } }
        receiveMsg .pcie msg (if all then raiseVector 1 s else s))

/-- RING_DOORBELL (R285): the host's consumer offset, unless it lies beyond the producer. -/
def execRingDoorbell (v : Word) (s : State) : Host.Outcome State Fault Refusal :=
  .next (
    if !s.hosted then s
    else
      let n := s.ringSize
      let ahead := (v.toNat + n - s.pcie.cons % n) % n
      let filled := (s.pcie.prod + n - s.pcie.cons % n) % n
      if n ≤ v.toNat ∨ filled < ahead then doorbellError s
      else drainRing 64 { s with pcie := { s.pcie with cons := v.toNat } })

/-- A write of PCIE_RING_CTRL (R284, R294): 1 arms the ring after its checks, 0 disarms it. -/
def writeRingCtrl (v : Word) (s : State) : Nat × State :=
  let n := fld (s.par 0x203) 4 0
  if v.getLsbD 0 then
    if n < 16 ∨ 24 < n ∨ s.pair 0x201 % 2 ^ n ≠ 0 then (stRange, s)
    else (stSuccess, drainRing 64 { s with pcie := { s.pcie with ringArmed := true, prod := 0, cons := 0 } })
  else (stSuccess, { s with pcie := { s.pcie with ringArmed := false } })

/-- RING_ARM (R284, R294): a host write of 1 to PCIE_RING_CTRL ARM. -/
def execRingArm (v : Word) (s : State) : Host.Outcome State Fault Refusal :=
  .next (if v.getLsbD 0 then hostEntry 0x206 (writeRingCtrl v) s else s)

/-- MSIX_HOLDOFF_EXPIRY (R284): the interval since vector 0 has passed with a producer update unsignalled. -/
def execMsixHoldoffExpiry (s : State) : Host.Outcome State Fault Refusal :=
  .next (
    let past := match s.pcie.lastVec0 with | some c => decide (c + fld (s.par 0x207) 15 0 * 1000 ≤ s.clk.cyc) | none => true
    if s.clocked && s.pcie.unsignalled && past then signalRing s else s)

/-- The request that a BAR2 offset names (Table 16.3), from the endpoint; none for a reserved SPACE. -/
def bar2Packet (off : Nat) : Option Packet :=
  let x := bits off 31 29
  let y := bits off 28 26
  let p := { blankPacket with dcard := bits off 35 32, dx := x, dy := y, dport := bits off 25 25, valid := BitVec.allOnes 128 }
  match bits off 24 21 with
  | 0 => some { p with addr := bits off 20 0 }
  | 1 => some { p with addr := if (nodeGal x y).isSome then 0x000100000000 else 0 }
  | _ => none

/-- Units of `n` bytes, and whether the last carries only 16 (R287). -/
def unitCount (n : Nat) : Nat := (n + 31) / 32

/-- BAR2_WRITE (R287, R289): one BE WRITE, or dropped and counted. -/
def execBar2Write (off : Nat) (bytes : List Byte) (enables : Bool) (s : State) : Host.Outcome State Fault Refusal :=
  .next (
    let n := bytes.length
    if !s.hosted || s.d3hot then s
    else if !s.user || !enables || decide (off % 16 ≠ 0 ∨ n % 16 ≠ 0 ∨ n = 0 ∨ 512 < n) then s.count 0x208 1
    else match bar2Packet off with
      | none => s.count 0x208 1
      | some p => present (sourced s .pcie { p with cmd := 0, len := unitCount n, half := decide (n % 32 = 16), data := bytes }) s)

/-- The READ_REQs of a read of `n` bytes from beat `a` on, 512 bytes each: part number and bytes. -/
def readParts (n : Nat) : List (Nat × Nat) := (List.range ((n + 511) / 512)).map (fun i => (i, min 512 (n - 512 * i)))

/-- BAR2_READ (R288, R289): READ_REQs for the beats that hold the bytes; at 64 outstanding ones the endpoint withholds
credits, so the read does not arrive. -/
def execBar2Read (off len tag : Nat) (s : State) : Host.Outcome State Fault Refusal :=
  .next (
    let first := off - off % 16
    let parts := readParts (off % 16 + len + (16 - (off + len) % 16) % 16)
    if !s.hosted || s.pcie.bulk.any (fun b => decide (b.tag = tag)) || decide (len = 0) then s
    else if s.d3hot then s
    else if !s.user then
      ({ s with pcie := { s.pcie with complete := (tag, List.replicate len 0xFF) :: s.pcie.complete } } : State).count 0x208 1
    else match bar2Packet first with
      | none => { s with pcie := { s.pcie with bulk := s.pcie.bulk ++
          [{ tag := tag, first := off, len := len, parts := [], waiting := 0, failed := some stRange }] } }
      | some p =>
        if 64 < s.outstanding 25 0 + parts.length then s
        else
          let s := { s with pcie := { s.pcie with bulk := s.pcie.bulk ++
            [{ tag := tag, first := off, len := len, parts := [], waiting := parts.length, failed := none }] } }
          parts.foldl (fun s q => request .pcie
            { p with cmd := 1, addr := p.addr + (if bits off 24 21 = 0 then 512 * q.1 else 0), len := unitCount q.2,
                     half := decide (q.2 % 32 = 16) } (.bulk tag q.1) s) s)

/-- The bytes of a read's parts in address order. -/
def partBytes (parts : List (Nat × List Byte)) : List Byte :=
  (List.range parts.length).flatMap (fun i => match parts.find? (fun x => decide (x.1 = i)) with | some x => x.2 | none => [])

/-- A failed BAR2 read: counted, its status kept, reported at most once per second (R288). -/
def noteBulkError (status off : Nat) (s : State) : State :=
  let s := (s.count 0x208 1).putPar 0x20A (wd status)
  let due := match s.pcie.bulkCyc with | some c => decide (c + 1000000000 ≤ s.clk.cyc) | none => true
  if due then
    ({ s with pcie := { s.pcie with bulkCyc := some s.clk.cyc } } : State).raise 0x19
      ([BitVec.ofNat 8 status, 0, 0, 0] ++ leBytes 8 off)
  else s

/-- BAR2_READ_COMPLETE (R288): every answer has come, so the read completes with its bytes, or with 0xFF bytes. -/
def execBar2ReadComplete (tag : Nat) (s : State) : Host.Outcome State Fault Refusal :=
  .next (
    match s.pcie.bulk.find? (fun b => decide (b.tag = tag)) with
    | none => s
    | some b =>
      if !s.clocked || decide (b.waiting ≠ 0) then s
      else
        let data := match b.failed with
          | some _ => List.replicate b.len 0xFF
          | none => slice (partBytes b.parts) (b.first % 16) b.len
        let s := { s with pcie := { s.pcie with bulk := s.pcie.bulk.erase b, complete := (tag, data) :: s.pcie.complete } }
        match b.failed with
        | some st => noteBulkError st b.first s
        | none => s)

/-- Memory writes of at most the max payload size (R290). -/
def splitWrite (mps : Nat) (a : Nat) (d : List Byte) (s : State) : State :=
  (List.range ((d.length + mps - 1) / mps)).foldl (fun s i => hostWrite (a + i * mps) (slice d (i * mps) mps) s) s

/-- A WRITE at the endpoint (R290): into its host window, or dropped and counted; held in D3hot (R280). -/
def writeAtPcie (p : Packet) (s : State) : State :=
  let w := bits p.addr 47 44
  let off := bits p.addr 43 0
  let size := fld (s.par (0x212 + 4 * w)) 5 0
  if s.d3hot then { s with pcie := { s.pcie with held := s.pcie.held ++ [p] } }
  else if size = 0 ∨ 2 ^ size < off + byteCount p ∨ s.busMaster = false ∨ s.pcie.linkUp = false then s.count 0x209 1
  else splitWrite s.maxPayload (s.pair (0x210 + 4 * w) + off) (writeData p) s

/-- The MESSAGE that a unit of this card sent has been delivered: its transaction ends (note 35, DEDUCED). -/
def endMessage (p : Packet) (s : State) : State :=
  if s.isOwn p then
    match s.findTrans (6 * p.sy + p.sx) p.sport p.tag with | some t => endTrans t 0 [] s | none => s
  else s

/-- A MESSAGE at the endpoint raises vector 2 or 3 by CODE[0] (R291); held in D3hot. -/
def messageAtPcie (p : Packet) (s : State) : State :=
  if s.d3hot then { s with pcie := { s.pcie with held := s.pcie.held ++ [p] } }
  else raiseVector (2 + p.code % 2) s

/-- Upstream packets held in D3hot leave in their order (R280, R292). -/
def releaseUpstream (s : State) : State :=
  s.pcie.held.foldl (fun s p => if p.cmd = 0 then writeAtPcie p s else messageAtPcie p s)
    { s with pcie := { s.pcie with held := [] } }

/-- UPSTREAM_WRITE (R290). -/
def execUpstreamWrite (i : Nat) (s : State) : Host.Outcome State Fault Refusal :=
  .next (arrive i [0] (fun t => decide (t = .pcie)) (fun _ p s => writeAtPcie p s) s)

/-- UPSTREAM_MSIX (R291). -/
def execUpstreamMsix (i : Nat) (s : State) : Host.Outcome State Fault Refusal :=
  .next (arrive i [3] (fun t => decide (t = .pcie)) (fun _ p s => messageAtPcie p (endMessage p s)) s)

/-- A PCI Express reset (R293, Table 4.6): the endpoint's registers, slots, responses and ring; the lamp ownership of
PCI Express; BAR2 transactions are retired, so their answers are discarded (R236); outstanding commands of this
transport end without a response. -/
def pcieClear (s : State) : State :=
  let c := { Pcie.reset with
    started := s.pcie.started, linkUp := s.pcie.linkUp, width := s.pcie.width, gen := s.pcie.gen
    hostWrites := s.pcie.hostWrites, msix := s.pcie.msix, complete := s.pcie.complete, held := s.pcie.held
    bulkCyc := s.pcie.bulkCyc }
  let mine := (s.lamp.inbox ++ s.lamp.running).filter (fun c => decide (c.via = .pcie))
  let s := { s with
    pcie := c
    lamp := { s.lamp with orphans := mine }
    mesh := { s.mesh with trans := s.mesh.trans.filter (fun t => match t.purpose with | .bulk _ _ => false | _ => true) } }
  let s := releaseUpstream s
  if s.lamp.owner = some .pcie then changeOwner none 4 s else s

/-- PCIE_RESET (R293). -/
def execPcieReset (s : State) : Host.Outcome State Fault Refusal :=
  .next (if s.clocked && s.pcie.started then pcieClear s else s)

/-- PCIE_LINK_DOWN (R293): acts as a PCI Express reset and raises event 0x18. -/
def execPcieLinkDown (s : State) : Host.Outcome State Fault Refusal :=
  .next (
    if s.hosted then
      (pcieClear { s with pcie := { s.pcie with linkUp := false, width := 0, gen := 0 } }).raise 0x18 [0, 0, 0]
    else s)

/-- The widest and fastest link of RV_PCIE (Table 3.14, R27). -/
def State.pcieCeiling (s : State) : Nat × Nat :=
  let c := s.rv 4
  let wide := decide (c = 1 ∨ c = 2 ∨ c = 3 ∨ c = 15) && decide (s.variant = .pt1600)
  (if wide then 8 else 4, if c = 2 ∨ c = 5 then 4 else if c = 3 ∨ c = 6 then 3 else 5)

/-- PCIE_LINK_UP (R46, R293): the link trains up at a width and speed that both ends support. -/
def execPcieLinkUp (width gen : Nat) (s : State) : Host.Outcome State Fault Refusal :=
  .next (
    if s.clocked && s.pcie.started && !s.pcie.linkUp &&
        decide (width ≤ s.pcieCeiling.1 ∧ gen ≤ s.pcieCeiling.2 ∧ 1 ≤ width ∧ 1 ≤ gen) then
      ({ s with pcie := { s.pcie with linkUp := true, width := width, gen := gen } } : State).raise 0x18
        [1, BitVec.ofNat 8 width, BitVec.ofNat 8 gen]
    else s)

/-- A configuration write (R279, R280): the writable bits of the dword; leaving D3hot releases what waited, unmasking
releases pending vectors, and bit 15 of the device control register resets the function. -/
def cfgWrite (n : Nat) (v : Word) (s : State) : State :=
  let new := (s.cfgReg n &&& ~~~(cfgMask n)) ||| (v &&& cfgMask n)
  let was := s.d3hot
  let s := { s with pcie := { s.pcie with config := tabSet 0 s.pcie.config n new } }
  if n = 0x1E ∧ v.getLsbD 15 = true then pcieClear s
  else
    let s := if was && !s.d3hot then releaseUpstream s else s
    releaseVectors s

/-- PCIE_CONFIG_REQUEST (R280): answered from link up on. -/
def execPcieConfigRequest (write : Bool) (reg : Nat) (v : Word) (s : State) : Host.Outcome State Fault Refusal :=
  .next (
    if !s.hosted then s
    else if write then cfgWrite reg v s
    else { s with pcie := { s.pcie with complete := (0, leBytes 4 (cfgRead s reg)) :: s.pcie.complete } })

end Sys2Proof.Machine
end

