-- ==== Sys2Proof/Machine/Deliver.lean ====
section
/-!
DEFINITION. What each command of the mesh does at its local target (R224, R226, Table 13.3).
-/

namespace Sys2Proof.Machine

/-- The address names the gallery's stream memory (Table 13.3). -/
def inStream (p : Packet) : Bool := decide (p.addr < 0x200000 ∧ p.addr % 16 = 0)

/-- The units of a WRITE to the edge ingress: eight lanes each, valid bits from VALID. -/
def edgeUnits (p : Packet) : List (List (Option Word)) :=
  (List.range p.len).map (fun u => (List.range 8).map (fun j =>
    let i := 8 * u + j
    if hasBit p.valid i && decide (4 * i < byteCount p) then some (wd (leAt p.data (4 * i) 4)) else none))

/-- A WRITE at gallery g: stream memory, or the edge ingress; anything else is dropped and counted. -/
def writeAtGallery (g : Nat) (p : Packet) (s : State) : State :=
  if inStream p then
    if 0x200000 < p.addr + byteCount p then s.count 0x3025 1
    else writeBeats g (byteCount p / 16) p.addr (writeData p) s
  else if p.addr = 0x000100000000 then s.modGal g (fun x => { x with edgeQ := x.edgeQ ++ edgeUnits p })
  else s.count 0x3025 1

/-- What a WRITE does at its target. -/
def writeAt (t : Target) (p : Packet) (s : State) : State :=
  match t with
  | .gal g => writeAtGallery g p s
  | .port k => writeAtPort k p s
  | .keeper => writeAtKeeper p s
  | .pcie => writeAtPcie p s
  | _ => s.count 0x3025 1

/-- MESH_WRITE (R226): the packet at index `i` is delivered, or dropped and counted. -/
def execMeshWrite (i : Nat) (s : State) : Host.Outcome State Fault Refusal :=
  .next (arrive i [0] (fun _ => true) writeAt s)

/-- A READ_RSP with HALF as the request had it. -/
def replyRead (p : Packet) (data : List Byte) (s : State) : State :=
  present { replyTo p 2 0 p.len data with half := p.half } s

/-- A READ_REQ at gallery g (Table 13.3, R217, R219): a range past the end is refused whole, an uncorrectable word gives
ECC. -/
def readAtGallery (g : Nat) (p : Packet) (s : State) : State :=
  if !inStream p then replyError p stNoTarget s
  else if 0x200000 < p.addr + byteCount p then replyError p stRange s
  else match readBeats g 32 (byteCount p / 16) p.addr s with
    | (b, bad, s) => if bad then replyError p stEcc s else replyRead p b s

/-- The unit that the Tinder and trigger node answers (R359): the input bus, the macrocell outputs and TRIG_STATUS. -/
def triggerUnit (s : State) : List Byte :=
  (if s.variant.hasTinder then leBytes 12 s.tnd.inbus.toNat ++ leBytes 16 s.tnd.out.toNat else List.replicate 28 0) ++
    leBytes 4 s.trigStatus

/-- What a READ_REQ does at its target. -/
def readAt (t : Target) (p : Packet) (s : State) : State :=
  match t with
  | .gal g => readAtGallery g p s
  | .keeper => readAtKeeper p s
  | .tinder => if p.addr = 0 ∧ p.len = 1 then replyRead p (triggerUnit s) s else replyError p stNoTarget s
  | _ => replyError p stNoTarget s

/-- MESH_READ_REQ (R226). -/
def execMeshReadReq (i : Nat) (s : State) : Host.Outcome State Fault Refusal :=
  .next (arrive i [1] (fun _ => true) readAt s)

/-- The transaction that an answer ends: source local port and TAG. -/
def State.answered (s : State) (p : Packet) : Option Trans := s.findTrans (6 * p.dy + p.dx) p.dport p.tag

/-- The data of an answer reaches its place (R187): a transfer from the mesh writes it to stream memory while the transfer
lives. -/
def storeAnswer (p : Purpose) (data : List Byte) (s : State) : State :=
  match p with
  | .dma g id addr n =>
    if (s.gal g).seq.dmas.any (fun d => decide (d.id = id) && !d.failed) then writeBeats g (n / 16) addr data s else s
  | _ => s

/-- A READ_RSP at its source (R224, R236, R237): a retired tag is counted, a poisoned one ends with ECC. -/
def answerAt (p : Packet) (s : State) : State :=
  match s.answered p with
  | none => s.count 0x3021 1
  | some t =>
    if p.poison then endTrans t stEcc [] (s.count 0x3028 1)
    else endTrans t 0 (writeData p) (storeAnswer t.purpose (writeData p) s)

/-- MESH_READ_RSP (R224). -/
def execMeshReadRsp (i : Nat) (s : State) : Host.Outcome State Fault Refusal :=
  .next (arrive i [2] (fun _ => true) (fun _ p s => answerAt p s) s)

/-- MESH_ERROR (R225): the transaction ends with the status. -/
def execMeshError (i : Nat) (s : State) : Host.Outcome State Fault Refusal :=
  .next (arrive i [6] (fun _ => true) (fun _ p s =>
    match s.answered p with
    | none => s.count 0x3021 1
    | some t => endTrans t p.status [] s) s)

/-- MESH_MESSAGE (R224, R226): delivered at the PCI Express endpoint; elsewhere answered with NO_TARGET. -/
def execMeshMessage (i : Nat) (s : State) : Host.Outcome State Fault Refusal :=
  .next (arrive i [3] (fun _ => true) (fun t p s =>
    match t with
    | .pcie => messageAtPcie p (endMessage p s)
    | _ => replyError p stNoTarget s) s)

/-- MESH_WAKE (R242): what a domain that sleeps or is off does with it stands in `gate`; a domain that is on absorbs it,
and a service node takes no WAKE (Table 13.3). -/
def execMeshWake (i : Nat) (s : State) : Host.Outcome State Fault Refusal :=
  .next (arrive i [4] (fun _ => true) (fun t _ s =>
    match t.domain s.variant with
    | some _ => s
    | none => s.count 0x3025 1) s)

end Sys2Proof.Machine
end

