-- ==== Sys2Proof/Machine/Seam.lean ====
section
/-!
DEFINITION. The seam link (chapter 15): blocks, training, tick comparison, carriage with credits, and retry.
-/

namespace Sys2Proof.Machine

/-- A header unit as a number (Table 13.1). -/
def headerNat (p : Packet) : Nat :=
  p.dx % 8 + 2 ^ 3 * (p.dy % 8) + 2 ^ 6 * (p.dport % 2) + 2 ^ 7 * (p.dcard % 16) + 2 ^ 11 * (p.sx % 8) + 2 ^ 14 * (p.sy % 8) +
    2 ^ 17 * (p.sport % 2) + 2 ^ 18 * (p.scard % 16) + flag p.gt 22 + 2 ^ 23 * (p.cmd % 8) + flag p.half 26 +
    flag p.poison 27 + 2 ^ 32 * (p.tag % 4096) + 2 ^ 44 * (p.len % 32) + 2 ^ 49 * (p.flow % 128) +
    2 ^ 56 * (p.status % 256) + 2 ^ 64 * (p.addr % 2 ^ 48) + 2 ^ 112 * (p.code % 256) + 2 ^ 128 * p.valid.toNat

/-- The packet of a header unit (Table 13.1). -/
def headerPacket (n : Nat) : Packet :=
  { dx := bits n 2 0, dy := bits n 5 3, dport := bits n 6 6, dcard := bits n 10 7, sx := bits n 13 11, sy := bits n 16 14,
    sport := bits n 17 17, scard := bits n 21 18, gt := bitOf n 22, cmd := bits n 25 23, half := bitOf n 26,
    poison := bitOf n 27, tag := bits n 43 32, len := bits n 48 44, flow := bits n 55 49, status := bits n 63 56,
    addr := bits n 111 64, code := bits n 119 112, valid := BitVec.ofNat 128 (n / 2 ^ 128), data := [] }

/-- The units of a packet: its header unit and its data units of 32 bytes. -/
def packetUnits (p : Packet) : List (List Byte) :=
  leBytes 32 (headerNat p) ::
    (List.range (unitsOf p - 1)).map (fun i => (slice p.data (32 * i) 32 ++ List.replicate 32 0).take 32)

/-- The control word of a block (Table 15.1). -/
def blockCtl (b : List Byte) : Nat := leAt b 0 8

/-- The kind of a block. -/
def blockKind (b : List Byte) : Nat := bits (blockCtl b) 3 0

/-- The block passes: its CRC holds and its kind is not reserved (R264, Table 15.2). -/
def blockOk (b : List Byte) : Bool :=
  decide (b.length = 40 ∧ crc16 (b.take 6 ++ b.drop 8) = BitVec.ofNat 16 (bits (blockCtl b) 63 48) ∧ blockKind b ≤ 4)

/-- A block with the link's present ACK, REPLAY and freed counts (Table 15.1, R264). -/
def makeBlock (q : Seam) (kind seq : Nat) (vc head : Bool) (payload : List Byte) : List Byte :=
  let ctl := leBytes 6 (kind + 2 ^ 4 * (seq % 4096) + 2 ^ 16 * ((q.expected + 4095) % 4096) + flag vc 28 + flag head 29 +
    flag q.episode.isSome 30 + 2 ^ 32 * (q.reqFreed % 256) + 2 ^ 40 * (q.rspFreed % 256))
  let pay := (payload ++ List.replicate 32 0).take 32
  ctl ++ leBytes 2 (crc16 (ctl ++ pay)).toNat ++ pay

/-- A block leaves. -/
def Seam.put (q : Seam) (b : List Byte) : Seam := { q with sent := b :: q.sent }

/-- A number is ahead of `e` (R264). -/
def seqAhead (n e : Nat) : Bool := decide (1 ≤ (n + 4096 - e) % 4096 ∧ (n + 4096 - e) % 4096 ≤ 2047)

/-- SEAM_RTT + 2 × Tblk cycles have not yet passed since core cycle `c` (Tblk = 33,000 ÷ PORT_RATE). -/
def State.withinTwo (s : State) (p c : Nat) : Bool :=
  let rate := (s.port p).rateNow
  decide ((s.clk.cyc - c) * rate < s.parN (portP p 0x44) * rate + 66000)

/-- Sends a NAK, unless one for the same number is recent (R272). -/
def sendNak (p : Nat) (s : State) : State :=
  let q := (s.port p).seam
  if q.nakPending && s.withinTwo p q.nakCyc then s
  else
    (s.modSeam p (fun q => ({ q with nakPending := true, nakCyc := s.clk.cyc }).put
      (makeBlock q 2 q.nextSeq false false []))).count (portP p 0x47) 1

/-- The record of the longest episode (Table 15.4). -/
def noteEpisode (p attempts cycles : Nat) (s : State) : State :=
  let v := s.parN (portP p 0x4E)
  s.putPar (portP p 0x4E) (wd (max (bits v 3 0) (min 15 attempts) + 2 ^ 16 * max (bits v 27 16) (min 4095 cycles)))

/-- ACK `a` is received (R268, R273): acknowledged blocks leave the replay buffer, and an episode whose blocks are all
covered ends. -/
def takeAck (p a : Nat) (s : State) : State :=
  let q := (s.port p).seam
  let n := (a + 4096 - q.acked) % 4096
  if n = 0 ∨ q.replay.length < n then s
  else
    let s := s.modSeam p (fun q => { q with acked := a, replay := q.replay.drop n })
    match q.episode with
    | some (k, start, last) =>
      if seqAhead last a then s
      else noteEpisode p k (s.clk.cyc - start) (s.modSeam p (fun q => { q with episode := none }))
    | none => s

/-- What every good block carries (Table 15.1): REPLAY, ACK and the freed counts. -/
def takeControl (p : Nat) (b : List Byte) (s : State) : State :=
  let c := blockCtl b
  let s := s.modSeam p (fun q =>
    { q with peerReplay := bitOf c 30, reqPeer := bits c 39 32, rspPeer := bits c 47 40 })
  takeAck p (bits c 27 16) s

/-- A received block fails (R264, R272): counted, and answered with a NAK while the link is up. -/
def badBlock (p : Nat) (s : State) : State :=
  let s := s.count (portP p 0x48) 1
  if s.seamUp p then sendNak p s else s.modSeam p (fun q => { q with good := 0, readyRun := 0 })

/-- A block of kind `k` is received on seam port p: a failing one is counted; a good one acts as `act` says. -/
def receiveBlock (k p : Nat) (b : List Byte) (act : State → State) (s : State) : State :=
  if !(s.clocked && decide (p < 16 ∧ s.protocol p = 2 ∧ 3 ≤ (s.port p).seam.state)) then s
  else if !blockOk b then badBlock p s
  else if blockKind b ≠ k then s
  else act s

/-- A good block other than UNIT on an up link: its SEQ ahead of the expected number asks for a replay (R272). -/
def plainBlock (p : Nat) (b : List Byte) (s : State) : State :=
  let s := takeControl p b s
  if seqAhead (bits (blockCtl b) 15 4) (s.port p).seam.expected then sendNak p s else s

/-- SEAM_BLOCK_LOCK (R266): 64 valid sync headers; the port sends TRAIN blocks, and a standalone card says so once. -/
def execSeamBlockLock (p : Nat) (s : State) : Host.Outcome State Fault Refusal :=
  .next (
    let q := (s.port p).seam
    if s.clocked && decide (p < 16 ∧ s.protocol p = 2 ∧ (q.state = 1 ∨ q.state = 2)) && s.pairOn p then
      let s := s.modPort p (fun x => { x with cdr := true, signal := true, seam := { x.seam with state := 3, good := 0, readyRun := 0 } })
      if s.card = 15 then (s.modSeam p (fun q => { q with reported := [0x12] })).raiseLink p 0x12 [] else s
    else s)

/-- The failing check of a TRAIN payload with what its cause carries (R266, Table 15.5). -/
def trainFault (card : Nat) (d : List Byte) : Option (Nat × Nat) :=
  let v := (byteAt d 2).toNat
  let w := (byteAt d 3).toNat
  if v ≠ 1 then some (0x16, v)
  else if bitOf w 4 then some (0x15, w % 16)
  else if w % 16 = card then some (0x13, w % 16)
  else none

/-- A TRAIN block in state 3 or 4 (R265, R266). -/
def trainBlock (p : Nat) (d : List Byte) (s : State) : State :=
  if byteAt d 0 ≠ 0x53 ∨ byteAt d 1 ≠ 0x4C then s.modSeam p (fun q => { q with good := 0, readyRun := 0 })
  else
    let w := (byteAt d 3).toNat
    let fault := trainFault s.card d
    let s := s.modSeam p (fun q =>
      { q with peerCard := w % 16, peerPort := (byteAt d 4).toNat % 16, peerRefuse := bitOf w 4, good := q.good + 1
               readyRun := if fault.isNone && bitOf w 5 then q.readyRun + 1 else 0 })
    if (s.port p).seam.state ≠ 3 then s
    else match fault with
      | some (c, v) =>
        if (s.port p).seam.reported.contains (c + 256 * v) then s
        else (s.modSeam p (fun q => { q with reported := (c + 256 * v) :: q.reported })).raiseLink p c [BitVec.ofNat 8 v]
      | none =>
        if 16 ≤ (s.port p).seam.readyRun ∧ s.card ≠ 15 then s.modSeam p (fun q => { q with state := 4, timeSeen := false })
        else s

/-- A lane whose TRAIN blocks all arrive complemented is inverted; cause 1 is raised once per port reset (R258, R265). -/
def invertLane (p : Nat) (s : State) : State :=
  let first := !(s.port p).polDone
  let s := s.modPort p (fun x => { x with inverted := !x.inverted, polDone := true })
  if first then s.raiseLane p 1 else s

/-- SEAM_TRAIN_RX (R265, R266, R275): an up link goes down with reason 3. -/
def execSeamTrainRx (p : Nat) (block : List Byte) (inverted : Bool) (s : State) : Host.Outcome State Fault Refusal :=
  .next (
    if inverted && decide (p < 16) && s.clocked && decide (s.protocol p = 2 ∧ (s.port p).seam.state = 3) then invertLane p s
    else receiveBlock 3 p block (fun s =>
      let s := s.modSeam p (fun q => { q with peerReplay := bitOf (blockCtl block) 30 })
      if s.seamUp p then seamDown p 3 s else trainBlock p (block.drop 8) s) s)

/-- Half of a number, to the nearest integer with halves away from zero (R267). -/
def halfAway (n : Int) : Int := if 0 ≤ n then (n + 1) / 2 else -((1 - n) / 2)

/-- The link is up (R266): sequence numbers, credits and buffers start, and cause 0x10 is raised. -/
def seamUpNow (p : Nat) (s : State) : State :=
  let s := s.modSeam p (fun q =>
    { q with state := 5, nextSeq := 0, expected := 0, acked := 4095, reqUsed := 0, rspUsed := 0, reqPeer := 0, rspPeer := 0,
             reqFreed := 0, rspFreed := 0, replay := [], nakPending := false, episode := none, passFrom := none
             rxHead := none, lastDiff := none })
  let q := (s.port p).seam
  s.raiseLink p 0x10 ([BitVec.ofNat 8 q.peerCard, BitVec.ofNat 8 q.peerPort, 0, 0] ++ leBytes 4 (s.parN (portP p 0x44)))

/-- A measurement of the tick difference (R267): recorded; cause 0x14 for the first after up when it is not zero, and for
every change. -/
def noteDiff (p : Nat) (d : Int) (s : State) : State :=
  let v := wrap 64 d
  let was := (s.port p).seam.lastDiff
  let s := s.putPair (portP p 0x42) v
  if s.seamUp p then
    let tell := match was with | none => decide (v ≠ 0) | some w => decide (w.toNat ≠ v)
    let s := s.modSeam p (fun q => { q with lastDiff := some (BitVec.ofNat 64 v) })
    if tell then s.raiseLink p 0x14 (leBytes 8 v) else s
  else s

/-- A TIME payload that arrived at tick `t4` (R267): an echo completes a round trip. -/
def timeBlock (p : Nat) (d : List Byte) (t4 : Nat) (s : State) : State :=
  let t3 := leAt d 0 8
  let t1 := leAt d 8 8
  let t2 := leAt d 16 8
  let s :=
    if t1 = 0 ∧ t2 = 0 then s
    else
      let rtt := signed 64 (wrap 64 ((t4 : Int) - t1)) - signed 64 (wrap 64 ((t3 : Int) - t2))
      let diff := halfAway (signed 64 (wrap 64 ((t1 : Int) - t2)) + signed 64 (wrap 64 ((t4 : Int) - t3)) -
        signed 16 (s.parN (portP p 0x45)))
      let s := noteDiff p diff (s.putPar (portP p 0x44) (wd (wrap 24 rtt)))
      if (s.port p).seam.state = 4 then seamUpNow p s else s
  s.modSeam p (fun q => { q with timeSeen := true, echoTx := BitVec.ofNat 64 t3, echoRx := BitVec.ofNat 64 t4 })

/-- SEAM_TIME_RX (R267). -/
def execSeamTimeRx (p : Nat) (block : List Byte) (arrival : Tick) (s : State) : Host.Outcome State Fault Refusal :=
  .next (receiveBlock 4 p block (fun s =>
    let s := if s.seamUp p then plainBlock p block s else s
    if 4 ≤ (s.port p).seam.state then timeBlock p (block.drop 8) arrival.toNat s else s) s)

/-- SEAM_TIME_SEND (R267): a TIME block leaves in state 4 and on an up link. -/
def execSeamTimeSend (p : Nat) (s : State) : Host.Outcome State Fault Refusal :=
  .next (
    if s.clocked && decide (p < 16 ∧ s.protocol p = 2 ∧ 4 ≤ (s.port p).seam.state) then
      s.modSeam p (fun q => q.put (makeBlock q 4 q.nextSeq false false
        (leBytes 8 s.clk.tick.toNat ++ leBytes 8 q.echoTx.toNat ++ leBytes 8 q.echoRx.toNat)))
    else s)

/-- A packet received whole (R268, R269): it enters the mesh at the port's node, or is refused when it is for another
card. -/
def seamPacket (p : Nat) (k : Packet) (s : State) : State :=
  if k.dcard = s.card then present k s
  else
    let s := s.count (portP p 0x4B) 1
    if awaits k then replyError k stNoTarget s else s

/-- One unit in sequence (R268): a header starts a packet, a data unit continues it. -/
def seamUnit (p : Nat) (head : Bool) (d : List Byte) (s : State) : State :=
  let k? := if head then some (headerPacket (leNat d))
    else (s.port p).seam.rxHead.map (fun k => { k with data := k.data ++ d })
  match k? with
  | none => s
  | some k =>
    if unitsOf k ≤ 1 + k.data.length / 32 then seamPacket p k (s.modSeam p (fun q => { q with rxHead := none }))
    else s.modSeam p (fun q => { q with rxHead := some k })

/-- A UNIT block on an up link (R272). -/
def unitBlock (p : Nat) (b : List Byte) (s : State) : State :=
  let c := blockCtl b
  let e := (s.port p).seam.expected
  let s := takeControl p b s
  if bits c 15 4 = e then
    let rsp := bitOf c 28
    let s := (s.modSeam p (fun q =>
      { q with expected := (e + 1) % 4096, nakPending := false
               reqFreed := if rsp then q.reqFreed else (q.reqFreed + 1) % 256
               rspFreed := if rsp then (q.rspFreed + 1) % 256 else q.rspFreed })).count (portP p 0x4D) 1
    seamUnit p (bitOf c 29) (b.drop 8) s
  else if seqAhead (bits c 15 4) e then sendNak p s
  else s

/-- SEAM_UNIT_RX (R272). -/
def execSeamUnitRx (p : Nat) (block : List Byte) (s : State) : Host.Outcome State Fault Refusal :=
  .next (receiveBlock 1 p block (fun s => if s.seamUp p then unitBlock p block s else s) s)

/-- SEAM_IDLE_RX (R268). -/
def execSeamIdleRx (p : Nat) (block : List Byte) (s : State) : Host.Outcome State Fault Refusal :=
  .next (receiveBlock 0 p block (fun s => if s.seamUp p then plainBlock p block s else s) s)

/-- The block again, with the link's present ACK, REPLAY and freed counts. -/
def refreshBlock (q : Seam) (b : List Byte) : List Byte :=
  let c := blockCtl b
  makeBlock q 1 (bits c 15 4) (bitOf c 28) (bitOf c 29) (b.drop 8)

/-- A pass resends every unacknowledged block (R273); the first begins an episode, a ninth takes the link down (R274). -/
def startPass (p : Nat) (s : State) : State :=
  let q := (s.port p).seam
  match q.episode with
  | some (k, start, last) =>
    if 8 ≤ k then seamDown p 1 (noteEpisode p k (s.clk.cyc - start) s)
    else
      (s.modSeam p (fun q =>
        let q := { q with episode := some (k + 1, start, last), passCyc := s.clk.cyc, passFrom := some ((q.acked + 1) % 4096) }
        q.replay.foldl (fun q b => q.put (refreshBlock q b)) q)).count (portP p 0x46) 1
  | none =>
    (s.modSeam p (fun q =>
      let q := { q with
        episode := some (1, s.clk.cyc, (q.nextSeq + 4095) % 4096), passCyc := s.clk.cyc, passFrom := some ((q.acked + 1) % 4096) }
      q.replay.foldl (fun q b => q.put (refreshBlock q b)) q)).count (portP p 0x46) 1

/-- SEAM_NAK_RX (R273): a pass starts, unless one from the same number is recent. -/
def execSeamNakRx (p : Nat) (block : List Byte) (s : State) : Host.Outcome State Fault Refusal :=
  .next (receiveBlock 2 p block (fun s =>
    if !s.seamUp p then s
    else
      let s := plainBlock p block s
      let q := (s.port p).seam
      let recent := decide (q.passFrom = some ((q.acked + 1) % 4096)) && s.withinTwo p q.passCyc
      if q.replay.isEmpty || recent then s else startPass p s) s)

/-- SEAM_REPLAY_TIMEOUT (R273): the replay timer expires with blocks unacknowledged. -/
def execSeamReplayTimeout (p : Nat) (s : State) : Host.Outcome State Fault Refusal :=
  .next (if s.clocked && decide (p < 16) && s.seamUp p && !(s.port p).seam.replay.isEmpty then startPass p s else s)

/-- SEAM_BUDGET_EXHAUSTED (R274): 4,000 cycles have passed since the episode began. -/
def execSeamBudgetExhausted (p : Nat) (s : State) : Host.Outcome State Fault Refusal :=
  .next (
    match (s.port p).seam.episode with
    | some (k, start, _) =>
      if s.clocked && decide (p < 16) && s.seamUp p && decide (start + 4000 ≤ s.clk.cyc) then
        seamDown p 2 (noteEpisode p k (s.clk.cyc - start) s)
      else s
    | none => s)

/-- SEAM_SIGNAL_LOST (R275): an up link goes down with reason 4; a training port starts again. -/
def execSeamSignalLost (p : Nat) (s : State) : Host.Outcome State Fault Refusal :=
  .next (
    if s.clocked && decide (p < 16 ∧ s.protocol p = 2) then
      (seamDown p 4 s).modPort p (fun x => { x with cdr := false, signal := false })
    else s)

/-- A write of SEAM_CTRL (R275): RETRAIN takes the link down. -/
def writeSeamCtrl (p : Nat) (v : Word) (s : State) : Nat × State :=
  (stSuccess, if v.getLsbD 0 && decide (s.protocol p = 2) then seamDown p 5 s else s)

/-- SEAM_RETRAIN (R275), a host write of SEAM_CTRL. -/
def execSeamRetrain (p : Nat) (v : Word) (s : State) : Host.Outcome State Fault Refusal :=
  .next (if p < 16 then hostEntry (portP p 0x41) (writeSeamCtrl p v) s else s)

/-- Credits left for a virtual channel: 64 less the units the peer has not yet passed on (R266, R268). -/
def Seam.credits (q : Seam) (rsp : Bool) : Nat :=
  if rsp then 64 - (q.rspUsed + 256 - q.rspPeer) % 256 else 64 - (q.reqUsed + 256 - q.reqPeer) % 256

/-- One unit leaves and enters the replay buffer. -/
def Seam.sendUnit (rsp : Bool) (q : Seam) (u : List Byte × Nat) : Seam :=
  let b := makeBlock q 1 q.nextSeq rsp (decide (u.2 = 0)) u.1
  { q.put b with
    nextSeq := (q.nextSeq + 1) % 4096, replay := q.replay ++ [b]
    reqUsed := if rsp then q.reqUsed else (q.reqUsed + 1) % 256
    rspUsed := if rsp then (q.rspUsed + 1) % 256 else q.rspUsed }

/-- A packet for another card reaches seam port k (R268, R277): it starts once credits and replay room are held. -/
def seamSend (k i : Nat) (p : Packet) (s : State) : State :=
  let q := (s.port k).seam
  let n := unitsOf p
  let gone := { s with mesh := { s.mesh with flight := s.mesh.flight.eraseIdx i } }
  if !s.seamUp k then bounce (portP k 0x4A) stLinkDown p gone
  else if q.credits (isAnswer p) < n ∨ 64 < q.replay.length + n then s
  else
    let s := (gone.modSeam k (fun q => (packetUnits p).zipIdx.foldl (Seam.sendUnit (isAnswer p)) q)).count (portP k 0x4C) n
    if p.cmd = 3 then endMessage p s else s

/-- SEAM_PACKET_SEND (R268): the packet at index `i` of the mesh is for another card and the first of its stream. -/
def execSeamPacketSend (i : Nat) (s : State) : Host.Outcome State Fault Refusal :=
  .next (
    match s.mesh.flight[i]? with
    | none => s
    | some f =>
      if !s.clocked || decide (f.pkt.dcard = s.card) || !firstInStream (s.mesh.flight.map (·.pkt)) i then s
      else match s.seamTo f.pkt.dcard with
        | some k => seamSend k i f.pkt s
        | none => bounce 0x3025 stNoTarget f.pkt { s with mesh := { s.mesh with flight := s.mesh.flight.eraseIdx i } })

end Sys2Proof.Machine
end

