-- ==== Sys2Proof/Machine/Tally.lean ====
section
/-!
DEFINITION. Tallies, bindings, module presence and pin faults (chapter 25).
-/

namespace Sys2Proof.Machine

/-- BIND_MODE in force at port p (Table 25.2). -/
def Port.bindMode (q : Port) : Nat := (byteAt q.bindCfg 0).toNat

/-- The port reads its tally: present, and its protocol is JESD204C (R421). -/
def State.readsTally (s : State) (p : Nat) : Bool := decide (s.protocol p = 1) && (s.port p).present

/-- The tally bus of port p is declared faulty (Table 25.3). -/
def State.busFaulty (s : State) (p : Nat) : Bool := decide (tabGet 0 s.pins.kinds (16 + p / 2) ≠ 0)

/-- A tally read of port p starts (R420, R421); `ends` says whether a pass can end a withholding (R425). -/
def startTally (p : Nat) (ends : Bool) (s : State) : State :=
  s.modPort p (fun q => { q with tallySt := 1, tallyTry := 0, tallyEnds := ends })

/-- TALLY_READ_START (R420, R421): a read that is due starts, one at a time on a bus and the even port first; on a faulty
bus it waits (Table 25.3). -/
def execTallyReadStart (p : Nat) (s : State) : Host.Outcome State Fault Refusal :=
  .next (
    let mate := if p % 2 = 0 then p + 1 else p - 1
    let due := fun k => s.readsTally k && decide ((s.port k).bind = 0 ∧ (s.port k).tallySt ≠ 1)
    if s.clocked && decide (p < 16 ∧ 7 ≤ s.kin.phase ∧ s.kin.phase ≤ 9) && due p && !s.busFaulty p &&
        decide ((s.port mate).tallySt ≠ 1) && !(decide (p % 2 = 1) && due mate) then startTally p true s
    else s)

/-- TALLY_RETRY (R420): a read that is not acknowledged is tried again, twice at most. -/
def execTallyRetry (p : Nat) (s : State) : Host.Outcome State Fault Refusal :=
  .next (
    if s.clocked && decide (p < 16 ∧ (s.port p).tallySt = 1 ∧ (s.port p).tallyTry < 2) then
      s.modPort p (fun q => { q with tallyTry := q.tallyTry + 1 })
    else s)

/-- The binding accepts the record (R424, mode 2). -/
def bindMatches (cfg rec' : List Byte) : Bool :=
  decide (leAt rec' 4 2 = leAt cfg 2 2) &&
    (List.range 4).any (fun i => decide (leAt cfg (4 + 2 * i) 2 ≠ 0 ∧ leAt cfg (4 + 2 * i) 2 = leAt rec' 6 2)) &&
    decide ((byteAt cfg 12).toNat ≤ (byteAt rec' 8).toNat)

/-- Checks 2–4 of R423: the reason of the first that fails, 0 when all pass. -/
def recordReason (d : List Byte) : Nat :=
  if byteAt d 0 ≠ 0x54 ∨ byteAt d 1 ≠ 0x4C then 2
  else if crc32 (d.take 28) ≠ wd (leAt d 28 4) then 3
  else if byteAt d 2 ≠ 1 ∨ (byteAt d 3 ≠ 0xA5 ∧ byteAt d 3 ≠ 0x5A) then 4
  else 0

/-- The record says that the module is inserted reversed (R422). -/
def recordReversed (d : List Byte) : Bool := decide (recordReason d = 0 ∧ byteAt d 3 = 0x5A)

/-- The binding after a read that ends with `reason`, 0 for a pass (R424, R425, Table 25.3). -/
def bindAfter (q : Port) (reason : Nat) : Nat :=
  if reason = 0 then
    (if q.bind = 2 ∧ q.tallyEnds = false then 2 else if q.bindMode = 0 then 3 else 1)
  else if q.bind = 2 then 2
  else if reason = 6 ∧ q.bind ≠ 0 then q.bind
  else if q.bindMode = 0 then 3
  else if q.bindMode = 1 ∧ reason = 5 then q.bind
  else 2

/-- A read ends with a reason other than 0: TALLY_INVALID (R423). -/
def tallyFails (p reason : Nat) (s : State) : State :=
  ((s.modPort p (fun q => { q with tallySt := 3, tallyRev := false, reason := reason, bind := bindAfter q reason })).count
    (portP p 0x3C) 1).raise 0xF8 [BitVec.ofNat 8 p, BitVec.ofNat 8 reason]

/-- The record of a completed read is copied to PORT_TALLY_REC (R422) and judged (R423–R425). -/
def tallyRecord (p : Nat) (d : List Byte) (s : State) : State :=
  let d := (d ++ List.replicate 32 0).take 32
  let s := (List.range 8).foldl (fun s i => s.putPar (portP p (0x31 + i)) (wd (leAt d (4 * i) 4))) (s.count (portP p 0x3B) 1)
  let q := s.port p
  let r := recordReason d
  if r ≠ 0 then tallyFails p r s
  else if recordReversed d then
    (s.modPort p (fun q => { q with tallySt := 2, tallyRev := true, bind := 2 })).raise 0xFC [BitVec.ofNat 8 p]
  else if q.bindMode = 2 ∧ bindMatches q.bindCfg d = false then tallyFails p 5 s
  else s.modPort p (fun q => { q with tallySt := 2, tallyRev := false, bind := bindAfter q 0 })

/-- TALLY_READ_DONE (R422–R425): a read that is not acknowledged fails only after its retries. -/
def execTallyReadDone (p : Nat) (answer : TallyAnswer) (s : State) : Host.Outcome State Fault Refusal :=
  .next (
    if !(s.clocked && decide (p < 16 ∧ (s.port p).tallySt = 1)) then s
    else match answer with
      | .record d => tallyRecord p d s
      | .noAck => if 2 ≤ (s.port p).tallyTry then tallyFails p 1 s else s
      | .busFault => tallyFails p 6 s)

/-- A write of PORT_TALLY_CTRL (R421): the tally of a JESD204C port is read again. -/
def writeTallyCtrl (p : Nat) (v : Word) (s : State) : Nat × State :=
  if !v.getLsbD 0 then (stSuccess, s)
  else if (s.port p).tallySt = 1 then (stBusy, s)
  else if !(s.port p).present then (stRange, s)
  else (stSuccess, if s.protocol p = 1 then startTally p true s else s)

/-- TALLY_REREAD (R421): a host write of PORT_TALLY_CTRL. -/
def execTallyReread (p : Nat) (v : Word) (s : State) : Host.Outcome State Fault Refusal :=
  .next (if p < 16 then hostEntry (portP p 0x3F) (writeTallyCtrl p v) s else s)

/-- PRESN_CHANGE (R426): a stable change of MOD_PRESN; a port whose protocol is not JESD204C ignores it (R421). -/
def execPresnChange (p : Nat) (present : Bool) (s : State) : Host.Outcome State Fault Refusal :=
  .next (
    if !(s.clocked && decide (p < 16)) || !s.variant.hasPort p || decide ((s.port p).present = present) then s
    else
      let t := s.modPort p (fun q => { q with present := present })
      if s.protocol p ≠ 1 then t
      else
        let t := t.count (portP p 0x3D) 1
        if present then
          (t.modPort p (fun q => { q with bind := 0, tallySt := 0, tallyTry := 0, tallyRev := false })).raise 0xFA [BitVec.ofNat 8 p]
        else
          (t.modPort p (fun q =>
            { q with bind := 0, tallySt := if q.tallySt = 1 then 0 else q.tallySt, tallyTry := 0, tallyRev := false
                     laneSt := if (s.linkOf p false).isNone && !q.txFault then 0 else q.laneSt })).raise 0xFB [BitVec.ofNat 8 p])

/-- Two probes in a row against the declared state change it (R427): the runs after a probe that sees `kind`, and the new
declared kind when there is one. -/
def probeRun (s : State) (key declared kind : Nat) : Tab (Nat × Nat) × Option Nat :=
  if decide (kind ≠ 0) = decide (declared ≠ 0) then (tabSet (0, 0) s.pins.runs key (0, 0), none)
  else if 1 ≤ (tabGet (0, 0) s.pins.runs key).1 then (tabSet (0, 0) s.pins.runs key (0, 0), some kind)
  else (tabSet (0, 0) s.pins.runs key (1, kind), none)

/-- Declares a kind of pin `key`. -/
def setKind (key kind : Nat) (s : State) : State :=
  { s with pins := { s.pins with kinds := tabSet 0 s.pins.kinds key kind } }

/-- Counts a fault of trigger line `n` (Table 25.4). -/
def countLine (n : Nat) (s : State) : State :=
  { s with pins := { s.pins with counts := tabMod 0 s.pins.counts n (fun c => min 255 (c + 1)) } }

/-- A port, bus or MOD_PRESN fault of port p: the active bit, the kind and the count (R428, Table 25.4). -/
def portFault (p bit kind : Nat) (s : State) : State :=
  (s.modPort p (fun q => { q with faults := putBit q.faults bit true, faultKind := kind })).count (portP p 0x3A) 1

/-- The fault of port p is no longer active. -/
def portFaultEnds (p bit : Nat) (s : State) : State := s.modPort p (fun q => { q with faults := putBit q.faults bit false })

/-- The present ports of tally bus `j`. -/
def State.busPorts (s : State) (j : Nat) : List Nat := [2 * j, 2 * j + 1].filter s.variant.hasPort

/-- A tally bus is declared faulty (Table 25.3): tristated, reported, counted at both ports. -/
def busFault (j line kind : Nat) (s : State) : State :=
  let s := (setKind (16 + j) kind s).raise 0xFD [BitVec.ofNat 8 j, BitVec.ofNat 8 line, BitVec.ofNat 8 kind]
  (s.busPorts j).foldl (fun s p => portFault p 0 kind s) s

/-- The fault of a chassis line clears or is declared by its probe: event 0xF1 or 0xF0 (Table 25.3). -/
def lineProbe (n kind : Nat) (s : State) : State :=
  let s := setKind n kind s
  let s := if n = 8 ∧ kind ≠ 0 then { s with tnd := { s.tnd with lines := putBit s.tnd.lines 8 false } } else s
  if kind = 0 then s.raise 0xF1 [BitVec.ofNat 8 n]
  else (countLine n s).raise 0xF0 [BitVec.ofNat 8 n, BitVec.ofNat 8 kind]

/-- Runs a probe of a pin whose declared kind is `declared`; `act` is the reaction to a change. -/
def probe (key declared kind : Nat) (act : Nat → State → State) (s : State) : State :=
  let r := probeRun s key declared kind
  let s := { s with pins := { s.pins with runs := r.1 } }
  match r.2 with
  | some k => act k s
  | none => s

/-- The kind declared for a pin. -/
def State.kind (s : State) (key : Nat) : Nat := tabGet 0 s.pins.kinds key

/-- PIN_BIAS_PROBE (R427, R428): one probe of an idle receiver or a released pin; `kind` is 0 when it passes.  A tristated
driver and a reversed timing line are not probed, and a faulty tally bus has its own probe. -/
def execPinBiasProbe (pin : Pin) (kind : Nat) (s : State) : Host.Outcome State Fault Refusal :=
  .next (
    if !s.clocked || decide (4 < kind) then s
    else match pin with
      | .trig n =>
        if 8 ≤ n ∨ hasBit s.pins.tristated n ∨ 1 < kind then s else probe n (s.kind n) kind (lineProbe n) s
      | .starIn => probe 8 (s.kind 8) kind (lineProbe 8) s
      | .sync =>
        if s.kind 10 = 5 then s
        else probe 10 (s.kind 10) kind (fun k s =>
          let s := setKind 10 k s
          if k = 0 then s else s.raise 0xF2 [0, BitVec.ofNat 8 k]) s
      | .sysref =>
        if s.kind 11 = 5 then s
        else probe 11 (s.kind 11) kind (fun k s =>
          let s := setKind 11 k s
          if k = 0 then s else s.raise 0xF2 [1, BitVec.ofNat 8 k]) s
      | .lampRx =>
        if 2 < kind then s
        else probe 13 (s.kind 13) kind (fun k s =>
          let s := setKind 13 k s
          if k = 0 then s else s.raise 0xFE [1, BitVec.ofNat 8 k]) s
      | .tally j line =>
        if 8 ≤ j ∨ s.kind (16 + j) ≠ 0 then s else probe (16 + j) 0 kind (fun k s => if k = 0 then s else busFault j line k s) s
      | .presn p =>
        if 16 ≤ p ∨ s.variant.hasPort p = false then s
        else probe (48 + p) (if hasBit (s.port p).faults 1 then 1 else 0) kind (fun k s =>
          if k = 0 then portFaultEnds p 1 s
          else (portFault p 1 k s).raise 0xFF [BitVec.ofNat 8 p, BitVec.ofNat 8 k]) s
      | .rxLane p =>
        if 16 ≤ p ∨ s.protocol p = 0 then s
        else probe (32 + p) (if hasBit (s.port p).faults 2 then 1 else 0) kind (fun k s =>
          if k = 0 then portReset p (portFaultEnds p 2 s) else raiseBias p k s) s
      | .starOut => s
      | .lampTx => s
      | .kindled => s
      | .txLane _ => s)
where
  raiseBias (p k : Nat) (s : State) : State := (portFault p 2 k s).raiseLane p 5

/-- The driver of chassis line `n` (9 is STAR_OUT) drives, so that it is read back (R427). -/
def State.drivesLine (s : State) (n : Nat) : Bool :=
  hasBit s.tnd.driven (if n = 9 then 8 else n) && !hasBit s.pins.tristated n

/-- A short of a chassis-line driver: tristated and reported (Table 25.3). -/
def shortLine (n kind : Nat) (s : State) : State :=
  let s := countLine n (setKind n kind s)
  let s := { s with pins := { s.pins with tristated := putBit s.pins.tristated n true } }
  s.raise 0xF0 [BitVec.ofNat 8 n, BitVec.ofNat 8 kind]

/-- DRIVER_READBACK_FAULT (R427, R428): 16 cycles of mismatch declare a short of kind 2, 3 or 4. -/
def execDriverReadbackFault (pin : Pin) (kind : Nat) (s : State) : Host.Outcome State Fault Refusal :=
  .next (
    if !s.clocked || decide (kind < 2 ∨ 4 < kind) then s
    else match pin with
      | .trig n => if n < 8 && s.drivesLine n then shortLine n kind s else s
      | .starOut => if s.drivesLine 9 then shortLine 9 kind s else s
      | .lampTx => if s.lamp.pairOn && decide (s.kind 12 = 0) then (setKind 12 kind s).raise 0xFE [0, BitVec.ofNat 8 kind] else s
      | .kindled =>
        if s.kin.pullDown && decide (kind = 3 ∧ s.kind 14 = 0) then (setKind 14 3 s).raise 0xFE [2, 3] else s
      | .tally j line => if j < 8 ∧ s.kind (16 + j) = 0 then busFault j line kind s else s
      | .txLane p =>
        if p < 16 ∧ s.protocol p ≠ 0 ∧ s.kin.outputs = true ∧ (s.port p).txFault = false then
          ((portFault p 3 kind s).modPort p (fun q =>
            { q with txFault := true, laneSt := if (s.linkOf p false).isNone then 7 else q.laneSt })).raiseLane p 4
        else s
      | .starIn => s
      | .sync => s
      | .sysref => s
      | .lampRx => s
      | .presn _ => s
      | .rxLane _ => s)

/-- TIMING_LINE_REVERSED (R427): SYNC (0) or SYSREF (1) is declared reversed, and its captures are ignored. -/
def execTimingLineReversed (line : Nat) (s : State) : Host.Outcome State Fault Refusal :=
  .next (
    if s.clocked && decide (line < 2 ∧ s.kind (10 + line) ≠ 5) then
      (setKind (10 + line) 5 s).raise 0xF2 [BitVec.ofNat 8 line, 5]
    else s)

/-- TIMING_REVERSED_CLEARED (R427): the reversed line is used again. -/
def execTimingReversedCleared (line : Nat) (s : State) : Host.Outcome State Fault Refusal :=
  .next (if s.clocked && decide (line < 2 ∧ s.kind (10 + line) = 5) then setKind (10 + line) 0 s else s)

/-- TALLY_BUS_PROBE (R428): a faulty bus that passes is used again, and present modules are re-read. -/
def execTallyBusProbe (bus line kind : Nat) (s : State) : Host.Outcome State Fault Refusal :=
  .next (
    if s.clocked && decide (bus < 8 ∧ line < 2 ∧ kind = 0 ∧ s.kind (16 + bus) ≠ 0) then
      let s := setKind (16 + bus) 0 s
      (s.busPorts bus).foldl (fun s p =>
        let s := portFaultEnds p 0 s
        if s.readsTally p then startTally p (decide ((s.port p).bind = 0)) s else s) s
    else s)

/-- LAMP_TX_READBACK (R428): an idle bit that reads back right ends the fault of LAMP_TX. -/
def execLampTxReadback (kind : Nat) (s : State) : Host.Outcome State Fault Refusal :=
  .next (if s.clocked && decide (kind = 0 ∧ s.kind 12 ≠ 0) then setKind 12 0 s else s)

/-- PRESN_NO_ACK (R428): present with no acknowledge and no lane signal for 1 s. -/
def execPresnNoAck (p : Nat) (s : State) : Host.Outcome State Fault Refusal :=
  .next (
    if s.clocked && decide (p < 16) && (s.port p).present && !hasBit (s.port p).faults 1 then
      (portFault p 1 2 s).raise 0xFF [BitVec.ofNat 8 p, 2]
    else s)

end Sys2Proof.Machine
end

