-- ==== Sys2Proof/Machine/Views.lean ====
section
/-!
DEFINITION. Reading a parameter (chapter 18): the parameters that report the state of a unit, each computed from that
unit, and the others as `State.params` holds them.
-/

namespace Sys2Proof.Machine

/-- A domain's state as PORT_PAIR_STATE and GAL_POWER_STATE show it. -/
def domCode : DomSt → Nat
  | .on => 0
  | .sleep => 1
  | .off => 2

/-- GAL_DAMPER_STATE (Table 18.4). -/
def damperCode : DamperSt → Nat
  | .openD => 0
  | .closing => 1
  | .closed => 2
  | .forced => 3

/-- PWR_GATE_CAUSE (Table 4.3). -/
def State.gateCause (s : State) : Nat :=
  flag s.pwr.thermActive 0 + flag (s.galList.any (fun g => decide (s.marginDuty g < 16))) 1 +
    flag ((List.range 25).any (fun d => (s.dom d).critical)) 2

/-- PCIE_STATUS (Table 16.5). -/
def State.pcieStatus (s : State) : Nat :=
  (if s.pcie.linkUp then s.pcie.width % 16 + 16 * (s.pcie.gen % 16) + 256 else 0) + flag s.busMaster 9 + flag s.d3hot 10

/-- LAMP_QUEUE (Table 17.5). -/
def State.lampQueue (s : State) : Nat :=
  s.evt.queue.length + 256 * s.evt.queueMax + flag s.evt.lost.isSome 16

/-- The parameters of the device block that report a state (Table 18.3). -/
def State.deviceView (s : State) (n : Nat) : Option Nat :=
  match n with
  | 0x10 => some (if s.board.valid then s.variant.units else 0)
  | 0x11 => some (if s.board.valid then s.variant.part else 0)
  | 0x12 => some (if s.board.valid then s.board.straps.toNat else 0)
  | 0x13 => some (if s.board.valid then s.board.rv.toNat else 0)
  | 0x14 => some (if s.board.valid then s.board.rvFlags.toNat else 0)
  | 0x15 => some Config.pciIds.toNat
  | 0x16 => some Config.stepping
  | 0x18 => some (Config.serial.toNat % 2 ^ 32)
  | 0x19 => some (Config.serial.toNat / 2 ^ 32)
  | 0x20 => some s.kindleStatus
  | 0x103 => some s.pwr.vid
  | 0x104 => some s.pwr.tj.toNat
  | 0x105 => some s.gateCause
  | 0x200 => some s.pcieStatus
  | 0x206 => some (flag s.pcie.ringArmed 0)
  | 0x300 => some (match s.lamp.owner with | some t => transportCode t | none => 0)
  | 0x306 => some s.lampQueue
  | _ => none

/-- GAL_SEQ_STATUS (Table 10.5). -/
def State.seqStatus (s : State) (g : Nat) : Nat :=
  let q := (s.gal g).seq
  q.pc % 1024 + 2 ^ 10 * q.code (s.halted g) + 2 ^ 14 * q.stack.length + flag q.timeout 17 + 2 ^ 18 * q.dmas.length

/-- GAL_PRIMED (Table 12.3). -/
def Gallery.primedBanks (x : Gallery) : Nat :=
  maskOf 16 (fun b => (List.range 256).all (fun k => x.primed (256 * b + k)))

/-- GAL_CTX_STATEc (Table 18.4). -/
def Gallery.ctxState (x : Gallery) (c : Nat) : Nat :=
  let d := x.desc c
  flag d.defined 0 + flag d.accUse 1 + flag d.accValid 2 + flag (x.planeOf c).isSome 3 + flag (x.fillingOf c).isSome 4 +
    flag (x.prefetch.contains c) 5 + 2 ^ 8 * ((x.planeOf c).getD ((x.fillingOf c).getD 0))

/-- GAL_ICP_STATUS (Table 21.2). -/
def Staging.view (x : Staging) : Nat := x.seq + 2 ^ 16 * x.status + flag x.busy 24 + flag x.held 25

/-- GAL_ASSAY_STATUS (Table 23.3): the recorded failures, with the march as it stands. -/
def State.assayView (s : State) (g : Nat) : Nat :=
  let m := (s.gal g).march
  bits (s.parN (galP g 0x34)) 1 0 + flag (decide (0 < m.step)) 2 + 2 ^ 8 * bits (s.parN (galP g 0x34)) 19 8 +
    2 ^ 20 * m.bank

/-- The parameters of gallery g that report a state (Table 18.4), by offset. -/
def State.galView (s : State) (g o : Nat) : Option Nat :=
  let x := s.gal g
  let loops := (List.range 4).foldl (fun a k => a + 2 ^ (16 * k) * x.seq.loopField k) 0
  let map := (List.range 8).foldl (fun a p => a + 2 ^ (8 * p) * x.planeMapByte p) 0
  match o with
  | 0x00 => some (s.seqStatus g)
  | 0x01 => some (x.seq.flags.toNat + 2 ^ 8 * x.seq.latches.toNat)
  | 0x02 => some (loops % 2 ^ 32)
  | 0x03 => some (loops / 2 ^ 32)
  | 0x0F => some x.seq.entry
  | 0x34 => some (s.assayView g)
  | 0x40 => some (domCode (s.dom g).st)
  | 0x42 => some (s.duty g)
  | 0x45 => some (damperCode (s.dom g).damper)
  | 0x50 => some x.staging.view
  | 0x53 => some (x.hold.length + x.transit)
  | 0x70 => some (map % 2 ^ 32)
  | 0x71 => some (map / 2 ^ 32)
  | 0x72 => some x.planeState
  | 0x98 => some x.primedBanks
  | _ => if 0xC0 ≤ o ∧ o ≤ 0xFF then some (x.ctxState (o - 0xC0)) else none

/-- PORT_STATUS (Table 14.5). -/
def State.portStatus (s : State) (p : Nat) : Nat :=
  let q := s.port p
  (if q.txFault then 7 else if s.protocol p = 0 then 0 else q.laneSt) + flag q.signal 4 + flag q.cdr 5 + flag q.inverted 6 +
    flag q.present 8 + flag (s.linked p) 9 + flag (s.linkOn p) 10

/-- SEAM_STATUS (Table 15.4). -/
def Seam.status (q : Seam) : Nat :=
  q.state + flag q.replaying 3 + 2 ^ 4 * q.peerCard + 2 ^ 8 * q.peerPort + flag q.peerRefuse 12 + 2 ^ 16 * q.reason

/-- The link offsets 0x60–0x76 of an enabled lead that report a state (Tables 14.5 and 18.5). -/
def State.linkView (s : State) (p o : Nat) : Option Nat :=
  if o = 0x64 then
    some ((s.port p).linkSt +
      2 ^ 4 * maskOf 8 (fun i => (s.members p).contains (8 * (p / 8) + i) && decide ((s.port (8 * (p / 8) + i)).laneSt = 6)) +
      2 ^ 16 * (s.lemc p % 65536))
  else if 0x68 ≤ o ∧ o ≤ 0x6F then
    some (match (s.members p)[o - 0x68]? with
      | some k => k + 2 ^ 4 * (s.port k).laneSt + flag (s.port k).inverted 8
      | none => 0)
  else none

/-- The parameters of port p that report a state (Table 18.5), by offset; link offsets of a port that is not an enabled
lead read 0 (R262). -/
def State.portView (s : State) (p o : Nat) : Option Nat :=
  let q := s.port p
  match o with
  | 0x00 => some (s.portStatus p)
  | 0x05 => some (domCode (s.dom (16 + p / 2)).st)
  | 0x07 => some (flag (q.inverted && q.polDone) 1 + flag q.txFault 4 + flag (hasBit q.faults 2) 5)
  | 0x08 => some q.ctle
  | 0x0A => some ((List.range 5).foldl (fun a t => a + 2 ^ (6 * t) * wrap 6 (q.dfe.getD t 0)) 0)
  | 0x30 => some (q.tallySt + flag q.present 2 + flag q.tallyRev 3 + 2 ^ 8 * q.reason)
  | 0x39 => some (q.faults.toNat + 2 ^ 8 * q.faultKind)
  | 0x3E => some (q.bind + 2 ^ 8 * q.bindMode)
  | 0x40 => some q.seam.status
  | _ => if 0x60 ≤ o ∧ o ≤ 0x76 then (if s.linkOn p then s.linkView p o else some 0) else none

/-- TND_STATUS (R362). -/
def State.tndStatus (s : State) : Nat :=
  flag s.tnd.fromImage 0 + flag s.tnd.default 1 + flag s.tndOn 2 + flag s.tndFenced 3

/-- TRIG_FAULTn, STAR_IN_FAULT and STAR_OUT_FAULT (Table 25.4). -/
def State.lineFault (s : State) (k : Nat) : Nat :=
  tabGet 0 s.pins.kinds k % 8 + flag (hasBit s.pins.tristated k) 3 + 2 ^ 8 * tabGet 0 s.pins.counts k

/-- SWEEP_STATUS (R395). -/
def State.sweepStatus (s : State) : Nat :=
  flag s.sweep.running 0 + flag (s.sweep.running && s.img.host) 1 + flag s.sweep.late 2 + flag s.sweep.restarting 3 +
    2 ^ 8 * s.sweep.shadows.length +
    2 ^ 16 * min 255 (s.sweep.unguarded.length + (if s.img.host then s.img.golden.length - 8192 else 0))

/-- CAPT_STATUS (R419). -/
def State.captStatus (s : State) : Nat :=
  s.capt.st + flag (decide (s.capt.kind = 1)) 2 + 2 ^ 3 * s.capt.source + 2 ^ 8 * s.capt.srcGal + 2 ^ 16 * s.capt.dropped

/-- CAPT_GAL_STATEg (R419). -/
def State.captGalState (s : State) (g : Nat) : Nat :=
  let c := tabGet CaptGal.reset s.capt.perGal g
  c.st + flag (decide (c.st = 2) && (s.gal g).engine.isNone) 2 + flag c.wasReset 3 + 2 ^ 4 * c.reason + flag c.lost 6

/-- The parameters from 0x3000 on that report a state (Tables 18.6 to 18.10). -/
def State.commonView (s : State) (n : Nat) : Option Nat :=
  if n = 0x3010 then some s.mesh.dead.toNat
  else if 0x3400 ≤ n ∧ n ≤ 0x347F then
    some (flag (hasBit s.tnd.out (n - 0x3400)) 0 + flag (hasBit s.tnd.q (n - 0x3400)) 1)
  else if n = 0x3500 then some s.tndStatus
  else if 0x3501 ≤ n ∧ n ≤ 0x3503 then some (bits s.tnd.inbus.toNat (32 * (n - 0x3501) + 31) (32 * (n - 0x3501)))
  else if n = 0x3600 then some s.trigStatus
  else if n = 0x3602 then some s.rvTrig
  else if 0x3620 ≤ n ∧ n ≤ 0x3629 then some (s.lineFault (n - 0x3620))
  else if 0x3630 ≤ n ∧ n ≤ 0x363F then some (bits (s.gal (n - 0x3630)).seq.inputs.toNat 15 0)
  else if n = 0x3800 then some s.flashState
  else if n = 0x3805 then some s.wearMax
  else if n = 0x3A01 then some s.sweepStatus
  else if n = 0x3A81 then
    some (flag s.assay.inCycle 0 + flag s.assay.failed 1 + 2 ^ 8 * (if s.assayOn then min 4095 s.unitsLeft else 0))
  else if 0x3B00 ≤ n ∧ n ≤ 0x3BFF then
    some (match eventClass (n - 0x3B00) with
      | some c => bits (s.parN n) 23 0 + 2 ^ 24 * c
      | none => 0)
  else if n = 0x3D00 then some (s.clk.tick.toNat % 2 ^ 32)
  else if n = 0x3D01 then some (s.clk.tick.toNat / 2 ^ 32)
  else if n = 0x3D02 then some s.tbStatus
  else if n = 0x3D20 then some s.captStatus
  else if n = 0x3D21 then some (s.capt.armTick.toNat % 2 ^ 32)
  else if n = 0x3D22 then some (s.capt.armTick.toNat / 2 ^ 32)
  else if n = 0x3D23 then some s.capt.gals.toNat
  else if 0x3D30 ≤ n ∧ n ≤ 0x3D3F then some (s.captGalState (n - 0x3D30))
  else none

/-- The value of a parameter that reports a state; none for one that `State.params` holds. -/
def State.view (s : State) (n : Nat) : Option Nat :=
  if n ≤ 0x3FF then s.deviceView n
  else if 0x1000 ≤ n ∧ n ≤ 0x1FFF then s.galView ((n - 0x1000) / 0x100) (n % 0x100)
  else if 0x2000 ≤ n ∧ n ≤ 0x27FF then s.portView ((n - 0x2000) / 0x80) (n % 0x80)
  else s.commonView n

/-- The parameter is a measurement whose source the spec places outside the state: PORT_EYE, PORT_CDR_OFFSET of a locked
receiver, the sensors KEEP_TJi and the rails KEEP_RAIL_MVr. -/
def State.measured (s : State) (n : Nat) : Bool :=
  decide (0x3810 ≤ n ∧ n ≤ 0x3820) || decide (0x3830 ≤ n ∧ n ≤ 0x3835) ||
    (decide (0x2000 ≤ n ∧ n ≤ 0x27FF ∧ (n % 0x80 = 0x19 ∨ n % 0x80 = 0x1A)) && (s.port ((n - 0x2000) / 0x80)).cdr)

/-- The current value of a defined parameter of a present unit; a measurement is free in its 16 bits (note 4, DESIGN CHOICE). -/
def State.readParam (s : State) (n : Nat) : Word × State :=
  if s.measured n then (s.freeWord.1 &&& 0xFFFF#32, s.freeWord.2)
  else match s.view n with
    | some v => (wd v, s)
    | none => (s.par n, s)

/-- One GET entry (R309, R316, R317): its status and value. -/
def readEntry (n : Nat) (s : State) : Nat × Word × State :=
  match paramInfo n with
  | none => (stNoParam, 0, s)
  | some i =>
    if paramAbsent s.variant n then (stAbsent, 0, s)
    else if i.access = .wo then (stWriteOnly, 0, s)
    else (stSuccess, s.readParam n)

/-- The entries of a GET, in ascending number order (R308, R319). -/
def readEntries : Nat → Nat → State → List Byte × State
  | 0, _, s => ([], s)
  | k + 1, n, s =>
    let r := readEntry n s
    let q := readEntries k (n + 1) r.2.2
    ([BitVec.ofNat 8 r.1, 0, 0, 0] ++ leBytes 4 r.2.1.toNat ++ q.1, q.2)

end Sys2Proof.Machine
end

