-- ==== Sys2Proof/Machine/Params.lean ====
section
/-!
DEFINITION. Writing a parameter (chapter 18): the checks of R318 in their order, the staged pairs of R322, the writes that
start actions (R323), and the commands that are single host writes of parameters without a command of their own.
-/

namespace Sys2Proof.Machine

/-- The bits that a read-write parameter of the device block holds (R5, Tables 4.3, 5.3, 16.5, 17.5). -/
def deviceMask (n : Nat) : Word :=
  if n = 0x22 then 0x80FFFFFF
  else if n = 0x100 ∨ n = 0x101 then 0x3F
  else if n = 0x102 then 0x8000003F
  else if n = 0x203 then 0x1F
  else if n = 0x207 then 0xFFFF
  else if 0x210 ≤ n ∧ n % 4 = 2 then 0x3F
  else if n = 0x301 then 0xFFFFFF
  else 0xFFFFFFFF

/-- The bits that a read-write parameter of a gallery holds, by offset (Tables 10.5, 12.3, 13.5, 18.4). -/
def galMask (o : Nat) : Word :=
  if o = 0x04 ∨ o = 0x43 then 0xFFFFFF
  else if o = 0x30 then 3
  else if o = 0x41 then 0xF
  else if o = 0x44 then 1
  else if 0x90 ≤ o ∧ o ≤ 0x93 then 0x77777777
  else if o = 0x94 then 0x77
  else if o = 0xA0 then 7
  else if o % 2 = 0 then 0x801FFFFF
  else 0x7FF

/-- The bits that a read-write parameter of a port holds, by offset (Tables 14.5, 15.4). -/
def portMask (o : Nat) : Word :=
  match o with
  | 0x02 => 0xFFF
  | 0x03 => 7
  | 0x04 => 0xFF
  | 0x09 => 0x800F0F0F
  | 0x0B => 0x8000001F
  | 0x20 => 0x81FFFFFF
  | 0x21 => 0x1FFFFF
  | 0x22 => 0x1FFFFF
  | 0x45 => 0xFFFF
  | 0x62 => 0xFFFF
  | 0x66 => 0xFF
  | _ => 0xFFFFFFFF

/-- The bits that the other read-write parameters hold (Tables 4.1, 13.5, 18.7 to 18.9). -/
def commonMask (n : Nat) : Word :=
  if n = 0x3000 then 0xFFFF
  else if 0x3004 ≤ n ∧ n ≤ 0x3007 then 0x1F1F1F1F
  else if 0x3100 ≤ n ∧ n ≤ 0x32FF then (if n % 4 = 0 then 0x7F7F else if n % 4 = 1 then 0x07FF07FF else 0xFFFFFFFF)
  else if n = 0x3601 then 0x1FF
  else if n = 0x3A00 then 0x3FFF
  else if 0x3B00 ≤ n ∧ n ≤ 0x3BFF then (if eventClass (n - 0x3B00) = some 3 then 0x00FFFF00 else 0x00FFFF01)
  else if n = 0x3D06 then 7
  else 0xFFFFFFFF

/-- The bits that a read-write parameter holds; reserved bits are ignored on a write (R5). -/
def rwMask (n : Nat) : Word :=
  if n ≤ 0x3FF then deviceMask n
  else if 0x1000 ≤ n ∧ n ≤ 0x1FFF then galMask (n % 0x100)
  else if 0x2000 ≤ n ∧ n ≤ 0x27FF then portMask (n % 0x80)
  else commonMask n

/-- The pinned code, when the pin is enabled, lies between two bounds (R69). -/
def pinInside (pin : Word) (lo hi : Nat) : Bool := !pin.getLsbD 31 || decide (lo ≤ fld pin 5 0 ∧ fld pin 5 0 ≤ hi)

/-- The value checks of the AVS parameters (R69). -/
def State.avsOk (s : State) (n : Nat) (v : Word) : Bool :=
  let lo := s.parN 0x100
  let hi := s.parN 0x101
  let c := fld v 5 0
  decide (c ≤ 56) &&
    (if n = 0x100 then decide (c ≤ hi) && pinInside (s.par 0x102) c hi
     else if n = 0x101 then decide (lo ≤ c) && pinInside (s.par 0x102) lo c
     else pinInside v lo hi)

/-- The size of a host window in bytes is met by its base (R294). -/
def windowFits (base size : Nat) : Bool := decide (size = 0) || decide (12 ≤ size ∧ size ≤ 44 ∧ base % 2 ^ size = 0)

/-- The value checks of the device block (R69, R294). -/
def State.deviceOk (s : State) (n : Nat) (v : Word) : Bool :=
  if 0x100 ≤ n ∧ n ≤ 0x102 then s.avsOk n v
  else if n = 0x203 then decide (16 ≤ v.toNat ∧ v.toNat ≤ 24)
  else if 0x210 ≤ n ∧ n % 4 = 2 then windowFits (s.pair (n - 2)) v.toNat
  else true

/-- The first word of an egress flow that is enabled: U is 1–16, and no other enabled flow has one of its lanes (R234:
note 41, DEDUCED). -/
def State.egressOk (s : State) (g e : Nat) (v : Word) : Bool :=
  !v.getLsbD 31 ||
    (decide (1 ≤ fld v 12 8 ∧ fld v 12 8 ≤ 16) &&
     (List.range 4).all (fun k => decide (k = e) || !(s.egressSet g k).1.getLsbD 31 ||
       decide ((s.egressSet g k).1 &&& v &&& 0xFF#32 = 0)))

/-- The value checks of a gallery parameter (Table 18.4, R193, R234). -/
def State.galOk (s : State) (g o : Nat) (v : Word) : Bool :=
  if o = 0x04 then decide (v.toNat = 0 ∨ 1024 ≤ v.toNat)
  else if o = 0x30 then decide (v.toNat ≠ 3)
  else if o = 0x43 then decide (v.toNat ≠ 0)
  else if 0xB0 ≤ o ∧ o % 2 = 0 then s.egressOk g ((o - 0xB0) / 2) v
  else true

/-- The value checks of a port parameter (R244, R260, R262, Table 14.5). -/
def State.portOk (s : State) (p o : Nat) (v : Word) : Bool :=
  if o = 0x02 then decide (100 ≤ v.toNat ∧ v.toNat ≤ 3250) || (decide (v.toNat = 0) && decide (s.protocol p = 0))
  else if o = 0x09 then
    decide (fld v 3 0 ≤ fld v 11 8) &&
      (!v.getLsbD 31 || decide (fld v 3 0 ≤ fld v 19 16 ∧ fld v 19 16 ≤ fld v 11 8))
  else if o = 0x20 then !v.getLsbD 31 || decide (1 ≤ fld v 15 11 ∧ fld v 15 11 ≤ 16)
  else if o = 0x66 then decide (1 ≤ v.toNat)
  else true

/-- The value checks of a read-write parameter that is not paired. -/
def State.valueOk (s : State) (n : Nat) (v : Word) : Bool :=
  if n ≤ 0x3FF then s.deviceOk n v
  else if 0x1000 ≤ n ∧ n ≤ 0x1FFF then s.galOk ((n - 0x1000) / 0x100) (n % 0x100) v
  else if 0x2000 ≤ n ∧ n ≤ 0x27FF then s.portOk ((n - 0x2000) / 0x80) (n % 0x80) v
  else if n = 0x3000 then decide (v.toNat ≠ 0)
  else if n = 0x3A00 then decide (3 ≤ v.toNat ∧ v.toNat ≤ 10000)
  else true

/-- RV_TRIG selects listen mode (R44). -/
def State.listen (s : State) : Bool := decide (s.rvTrig = 15)

/-- The write is locked (R321). -/
def State.lockedWrite (s : State) (n : Nat) (v : Word) : Bool :=
  (decide (n = 0x3601) && s.listen && decide (v &&& 0x1FF#32 ≠ 0)) || (decide (n = 0x3D07) && s.syncIgnored)

/-- The parameter is in use: the armed ring (R294), an enabled link and its members' rate (R248), an enabled flow. -/
def State.busyWrite (s : State) (n : Nat) : Bool :=
  if 0x201 ≤ n ∧ n ≤ 0x205 then s.pcie.ringArmed
  else if 0x2000 ≤ n ∧ n ≤ 0x27FF then
    let p := (n - 0x2000) / 0x80
    let o := n % 0x80
    if o = 0x02 then s.linked p else decide (0x60 ≤ o ∧ o ≤ 0x66) && s.linkOn p
  else if 0x3100 ≤ n ∧ n ≤ 0x32FF then decide (n % 4 ≤ 1) && s.flowOn ((n - 0x3100) / 4)
  else false

/-- The restored drivers of R429: a bit of TRIG_DRIVE_EN that goes from 0 to 1 ends the tristate of its driver. -/
def restoreDrivers (old v : Word) (s : State) : State :=
  (List.range 9).foldl (fun s n =>
    let k := if n = 8 then 9 else n
    if v.getLsbD n && !old.getLsbD n && hasBit s.pins.tristated k then
      { s with pins := { s.pins with tristated := putBit s.pins.tristated k false, kinds := tabSet 0 s.pins.kinds k 0 } }
    else s) s

/-- What a value does as it comes into force: new bounds clamp an adapted value (R260), and TRIG_DRIVE_EN restores drivers
(R429). -/
def applyParam (n : Nat) (old v : Word) (s : State) : State :=
  if n = 0x3601 then restoreDrivers old v s
  else if 0x2000 ≤ n ∧ n ≤ 0x27FF then
    let p := (n - 0x2000) / 0x80
    if n % 0x80 = 0x09 then
      s.modPort p (fun q => { q with ctle := if v.getLsbD 31 then fld v 19 16 else clampCtle v q.ctle })
    else if n % 0x80 = 0x0B then
      s.modPort p (fun q => { q with dfe := if v.getLsbD 31 then q.dfe else q.dfe.map (clampDfe v) })
    else s
  else s

/-- Puts a value into a read-write parameter, its reserved bits 0; a reserved event number holds nothing (R330). -/
def storeParam (n : Nat) (v : Word) (s : State) : State :=
  if 0x3B00 ≤ n ∧ n ≤ 0x3BFF ∧ eventClass (n - 0x3B00) = none then s
  else applyParam n (s.par n) v (s.putPar n v)

/-- The checks of a pair's commit (R294). -/
def State.pairOk (s : State) (n : Nat) (lo hi : Word) : Bool :=
  let v := lo.toNat + 2 ^ 32 * hi.toNat
  if n = 0x201 then decide (v % 2 ^ s.parN 0x203 = 0)
  else if n = 0x204 then decide (v % 8 = 0)
  else if 0x210 ≤ n ∧ n ≤ 0x24F then windowFits v (s.parN (n + 2))
  else true

/-- A write of the high word of a pair commits both words (R322); a refusal discards the staged word. -/
def commitPair (n : Nat) (hi : Word) (s : State) : Nat × State :=
  let lo := (tabGet none s.staged n).getD (s.par n)
  let s := { s with staged := tabSet none s.staged n none }
  if s.busyWrite n then (stBusy, s)
  else if s.pairOk n lo hi then (stSuccess, (s.putPar n lo).putPar (n + 1) hi)
  else (stRange, s)

/-- TB_ALIGN (R58–R60): LOCKED, BUSY and RANGE in that order, else alignment is armed. -/
def writeTbAlign (v : Word) (s : State) : Nat × State :=
  if s.syncIgnored then (stLocked, s)
  else if s.capt.st = 1 then (stBusy, s)
  else if v ≠ 1 then (stRange, s)
  else (stSuccess, { s with clk := { s.clk with armed := true } })

/-- A write of a write-only parameter (R323). -/
def writeOnly (n : Nat) (v : Word) (s : State) : Nat × State :=
  if n = 0x3D07 then writeTbAlign v s
  else if n = 0x3011 then writeDeadSet v s
  else if n = 0x3012 then writeDeadClear v s
  else if n % 0x80 = 0x3F then writeTallyCtrl ((n - 0x2000) / 0x80) v s
  else writeSeamCtrl ((n - 0x2000) / 0x80) v s

/-- A read-write parameter whose write starts an action (R323), with that action. -/
def rwAction (n : Nat) : Option (Word → State → Nat × State) :=
  if n = 0x206 then some writeRingCtrl
  else if n = 0x3A80 then some writeAssayCtrl
  else if 0x2000 ≤ n ∧ n ≤ 0x27FF then
    (if n % 0x80 = 0x01 then some (writeProtocol ((n - 0x2000) / 0x80))
     else if n % 0x80 = 0x60 then some (writeLinkCfg0 ((n - 0x2000) / 0x80))
     else if n % 0x80 = 0x63 then some (writeSysref ((n - 0x2000) / 0x80))
     else none)
  else if 0x3100 ≤ n ∧ n ≤ 0x32FF then (if n % 4 = 2 then some (writeFlowCtrl ((n - 0x3100) / 4)) else none)
  else none

/-- A write of a read-write parameter (R318 from step 4 on, R322, R323). -/
def writeRw (i : ParamInfo) (n : Nat) (v : Word) (s : State) : Nat × State :=
  if i.low then (stSuccess, { s with staged := tabSet none s.staged n (some v) })
  else if i.high then commitPair (n - 1) v s
  else match rwAction n with
    | some act => act v s
    | none =>
      let v := v &&& rwMask n
      if s.lockedWrite n v then (stLocked, s)
      else if s.busyWrite n then (stBusy, s)
      else if s.valueOk n v then (stSuccess, storeParam n v s)
      else (stRange, s)

/-- A write of parameter `n` (R317, R318): its status, and the state after it. -/
def writeParam (n : Nat) (v : Word) (s : State) : Nat × State :=
  match paramInfo n with
  | none => (stNoParam, s)
  | some i =>
    if paramAbsent s.variant n then (stAbsent, s)
    else match i.access with
      | .ro => (stReadOnly, s)
      | .running => (stReadOnly, s)
      | .counter => if v = 0 then (stSuccess, s.putPar n 0) else (stRange, s)
      | .w0c => if v = 0 then (stSuccess, s.putPar n 0) else (stRange, s)
      | .wo => writeOnly n v s
      | .rw => writeRw i n v s

/-- A command of its own stands for a write of this parameter. -/
def hasCommand (n : Nat) : Bool :=
  (rwAction n).isSome || decide (n = 0x22 ∨ n = 0x3601) || decide ((paramInfo n).map (·.access) = some .wo)

/-- PARAM_WRITE (R318, R322): a host write of a parameter that has no command of its own. -/
def execParamWrite (n : Nat) (v : Word) (s : State) : Host.Outcome State Fault Refusal :=
  .next (if hasCommand n then s else hostEntry n (writeParam n v) s)

/-- KINDLE_HOLD_TIMEOUT (R99): a host write sets the hold timeout. -/
def execKindleHoldTimeout (v : Word) (s : State) : Host.Outcome State Fault Refusal :=
  .next (hostEntry 0x22 (writeParam 0x22 v) s)

/-- TB_ALIGN (R58–R60), a host write. -/
def execTbAlign (v : Word) (s : State) : Host.Outcome State Fault Refusal :=
  .next (hostEntry 0x3D07 (writeParam 0x3D07 v) s)

/-- TRIG_DRIVE_EN (R44, R321, R429), a host write. -/
def execTrigDriveEn (v : Word) (s : State) : Host.Outcome State Fault Refusal :=
  .next (hostEntry 0x3601 (writeParam 0x3601 v) s)

/-- Applies the entries of a SET in order, up to the first refusal (R309, R320): how many were applied, the status, and the
state after them. -/
def applyEntries (body : List Byte) : Nat → Nat → State → Nat × Nat × State
  | 0, k, s => (k, stSuccess, s)
  | n + 1, k, s =>
    let r := writeParam (leAt body (8 * k) 2) (wd (leAt body (8 * k + 4) 4)) s
    if r.1 = stSuccess then applyEntries body n (k + 1) r.2 else (k, r.1, r.2)

/-- One of the first `n` entries of a SET arms the report ring. -/
def armsRing (body : List Byte) (n : Nat) : Bool :=
  (List.range n).any (fun k => decide (leAt body (8 * k) 2 = 0x206) && bitOf (leAt body (8 * k + 4) 4) 0)

/-- SET (R309, R318–R323): a body without 1–64 entries is out of range; a response to the write that arms the report ring
still goes to DIRECT_RSP (R284). -/
def setCmd (c : Cmd) (s : State) : State :=
  let n := c.body.length / 8
  if n = 0 ∨ 64 < n then respond c stRange [] s
  else
    let r := applyEntries c.body n 0 s
    respondVia (r.2.2.pcie.ringArmed && !armsRing c.body r.1) c r.2.1 (leBytes 2 r.1 ++ [0, 0]) r.2.2

/-- SET, a lamp command. -/
def execSet (via : Transport) (s : State) : Host.Outcome State Fault Refusal := .next (runCmd via 0x11 setCmd s)

/-- GET (R309, R319): 1–64 consecutive numbers that do not pass 0xFFFF. -/
def getCmd (c : Cmd) (s : State) : State :=
  let n := leAt c.body 0 2
  let k := leAt c.body 2 2
  if k = 0 ∨ 64 < k ∨ 0x10000 < n + k then respond c stRange [] s
  else
    let r := readEntries k n s
    respond c stSuccess (leBytes 2 k ++ [0, 0] ++ r.1) r.2

/-- GET, a lamp command. -/
def execGet (via : Transport) (s : State) : Host.Outcome State Fault Refusal := .next (runCmd via 0x10 getCmd s)

/-- GET_PAIR (R309): both words of a pair in one cycle. -/
def getPairCmd (c : Cmd) (s : State) : State :=
  let n := leAt c.body 0 2
  match paramInfo n with
  | none => respond c stNoParam [] s
  | some i =>
    if !i.low then respond c stRange [] s
    else if paramAbsent s.variant n then respond c stAbsent (leBytes 8 0) s
    else
      let a := s.readParam n
      let b := a.2.readParam (n + 1)
      respond c stSuccess (leBytes 4 a.1.toNat ++ leBytes 4 b.1.toNat) b.2

/-- GET_PAIR, a lamp command. -/
def execGetPair (via : Transport) (s : State) : Host.Outcome State Fault Refusal := .next (runCmd via 0x12 getPairCmd s)

end Sys2Proof.Machine
end

