-- ==== Sys2Proof/Machine/Lamp.lean ====
section
/-!
DEFINITION. Lamp commands on galleries, ports, stream memory and captures (R309, chapters 12, 21 and 24).
-/

namespace Sys2Proof.Machine

/-- The galleries or ports of a mask. -/
def maskList (m : Nat) : List Nat := setBits 16 m

/-- The domain is on and not re-kindling. -/
def State.domOn (s : State) (d : Nat) : Bool := decide ((s.dom d).st = .on) && !(s.dom d).rekindling

/-- GAL_RESET (R309): checked whole, then reset source 6 on every named gallery. -/
def galResetCmd (c : Cmd) (s : State) : State :=
  let gs := maskList (leAt c.body 0 2)
  if gs.any (fun g => !s.variant.hasGal g) then respond c stAbsent [] s
  else if gs.any (fun g => !s.domOn g) then respond c stAsleep [] s
  else if gs.any (fun g => decide ((s.dom g).damper ≠ .openD)) then respond c stBusy [] s
  else respond c stSuccess [] (gs.foldl (fun s g => galleryReset g s) s)

/-- GAL_RESET, a lamp command. -/
def execGalReset (via : Transport) (s : State) : Host.Outcome State Fault Refusal := .next (runCmd via 0x42 galResetCmd s)

/-- PORT_RESET (R309): checked whole, then reset source 7 on every named port. -/
def portResetCmd (c : Cmd) (s : State) : State :=
  let ps := maskList (leAt c.body 0 2)
  if ps.any (fun p => !s.variant.hasPort p) then respond c stAbsent [] s
  else if ps.any (fun p => !s.domOn (16 + p / 2)) then respond c stAsleep [] s
  else if ps.any (fun p => decide ((s.dom (16 + p / 2)).damper ≠ .openD)) then respond c stBusy [] s
  else respond c stSuccess [] (ps.foldl (fun s p => portReset p s) s)

/-- PORT_RESET, a lamp command. -/
def execPortReset (via : Transport) (s : State) : Host.Outcome State Fault Refusal := .next (runCmd via 0x43 portResetCmd s)

/-- The domain of a configuration port is off or re-kindling (R370). -/
def State.cfgAsleep (s : State) (cfa : Nat) : Bool :=
  if cfaKind cfa = 3 then !s.tndOn
  else decide ((s.dom (cfaGal cfa)).st = .off) || (s.dom (cfaGal cfa)).rekindling

/-- CONFIG_WRITE (R365, R370): refused with the status of the first check that fails, else the frame waits for its
configuration port (R363, R389). -/
def configWriteCmd (c : Cmd) (s : State) : State :=
  let f := cmdFrame c
  let kind := cfaKind f.1
  let st := if needsAbsent s.variant f.1 f.2 then stAbsentUnit
    else if !cfaOk f.1 || decide (kind = 2 ∨ kind = 4) then stRange
    else if s.cfgAsleep f.1 then stAsleep
    else serviceStatus s f.1 f.2
  if st = stSuccess then askPort (cfaPort f.1) (.lamp c) (startCmd c s) else respond c st [] s

/-- CONFIG_WRITE, a lamp command. -/
def execConfigWrite (via : Transport) (s : State) : Host.Outcome State Fault Refusal :=
  .next (runCmd via 0x44 configWriteCmd s)

/-- The written mask of granule `k` after a fill of `n` bytes from address `a` (R218). -/
def fillMask (a n k : Nat) (old : BitVec 32) : BitVec 32 :=
  old ||| BitVec.ofNat 32 (maskOf 32 (fun b => decide (a ≤ 512 * k + 16 * b ∧ 512 * k + 16 * b < a + n)))

/-- Fills `n` bytes from address `a` with a pattern of 16 bytes; an open element of the march on a beat of the range is
abandoned (R400). -/
def fillMem (a n : Nat) (pat : List Byte) (x : Gallery) : Gallery :=
  let hit := decide (0 < x.march.step ∧ a ≤ x.march.addr ∧ x.march.addr < a + n)
  { x with
    mem := tabBlock 0 x.mem a n (fun i => byteAt pat (i % 16))
    memBad := tabClear x.memBad (a / 8) (n / 8)
    granules := if x.allPrimed then x.granules
      else tabBlock 0 x.granules (a / 512) ((a + n + 511) / 512 - a / 512) (fun i =>
        fillMask a n (a / 512 + i) (tabGet 0 x.granules (a / 512 + i)))
    march := if hit then { x.march with step := 0, retry := false } else x.march }

/-- MEM_FILL (R309, R218): over the management path and the fill engine. -/
def memFillCmd (c : Cmd) (s : State) : State :=
  let g := leAt c.body 0 1
  let a := leAt c.body 4 4
  let n := leAt c.body 8 4
  if g < 16 ∧ s.variant.hasGal g = false then respond c stAbsent [] s
  else if 15 < g ∨ a % 16 ≠ 0 ∨ n % 16 ≠ 0 ∨ n < 16 ∨ 0x200000 < a + n then respond c stRange [] s
  else if !s.domOn g then respond c stAsleep [] s
  else if s.halted g then respond c stBusy [] s
  else respond c stSuccess [] ((s.modGal g (fillMem a n (slice c.body 16 16))).tally (galP g 0x9E) 1)

/-- MEM_FILL, a lamp command. -/
def execMemFill (via : Transport) (s : State) : Host.Outcome State Fault Refusal := .next (runCmd via 0x45 memFillCmd s)

/-- A request or write of `n` bytes at address `a` of gallery g's stream memory, class BE. -/
def lampPacket (s : State) (g cmd a n : Nat) (data : List Byte) : Packet :=
  toward s.card (.gal g)
    { blankPacket with cmd := cmd, len := (n + 31) / 32, half := decide (n % 32 ≠ 0), addr := a,
                       valid := BitVec.allOnes 128, data := data }

/-- The checks of MEM_READ and MEM_WRITE: the status that refuses the command, none when its packets are sent. -/
def memRefusal (g a n : Nat) (s : State) : Option Nat :=
  if g < 16 ∧ s.variant.hasGal g = false then some stAbsent
  else if 15 < g ∨ a % 16 ≠ 0 ∨ n % 16 ≠ 0 ∨ n < 16 ∨ 1024 < n then some stRange
  else none

/-- MEM_READ (R309): READ_REQs of up to 512 bytes from node (2,4); the command ends with the mesh outcome. -/
def memReadCmd (c : Cmd) (s : State) : State :=
  let g := leAt c.body 0 1
  let a := leAt c.body 4 4
  let n := leAt c.body 8 4
  match memRefusal g a n s with
  | some st => respond c st [] s
  | none =>
    let parts := (n + 511) / 512
    let s := startCmd c s
    let s := { s with lamp := { s.lamp with
      reads := s.lamp.reads ++ [{ cmd := c, waiting := parts, parts := [], failed := none }] } }
    (List.range parts).foldl (fun s i =>
      request .lamp (lampPacket s g 1 (a + 512 * i) (min 512 (n - 512 * i)) []) (.lampRead c i) s) s

/-- MEM_READ, a lamp command. -/
def execMemRead (via : Transport) (s : State) : Host.Outcome State Fault Refusal := .next (runCmd via 0x46 memReadCmd s)

/-- MEM_WRITE (R309): WRITEs of up to 512 bytes from node (2,4), answered once the router has them. -/
def memWriteCmd (c : Cmd) (s : State) : State :=
  let g := leAt c.body 0 1
  let a := leAt c.body 4 4
  let d := c.body.drop 8
  match memRefusal g a d.length s with
  | some st => respond c st [] s
  | none =>
    respond c stSuccess [] ((List.range ((d.length + 511) / 512)).foldl (fun s i =>
      let b := slice d (512 * i) 512
      present (sourced s .lamp (lampPacket s g 0 (a + 512 * i) b.length b)) s) s)

/-- MEM_WRITE, a lamp command. -/
def execMemWrite (via : Transport) (s : State) : Host.Outcome State Fault Refusal := .next (runCmd via 0x47 memWriteCmd s)

/-- CAPT_ARM (R408). -/
def captArmCmd (c : Cmd) (s : State) : State :=
  let kind := leAt c.body 0 1
  let gals := leAt c.body 2 2
  let t := leAt c.body 4 8
  if (maskList gals).any (fun g => !s.variant.hasGal g) then respond c stAbsent [] s
  else if gals = 0 ∨ 1 < kind then respond c stRange [] s
  else if t ≤ s.clk.tick.toNat then respond c stLate [] (s.count 0x3D24 1)
  else if s.capt.st ≠ 0 then respond c stBusy [] s
  else respond c stSuccess [] (armCapture kind 0 (BitVec.ofNat 16 gals) (BitVec.ofNat 64 t) 0 s)

/-- CAPT_ARM, a lamp command. -/
def execCaptArm (via : Transport) (s : State) : Host.Outcome State Fault Refusal := .next (runCmd via 0x50 captArmCmd s)

/-- The capture ends (R415): halted galleries run on with the duty that now applies, and their routers open. -/
def releaseCapture (s : State) : State :=
  let gs := (List.range 16).filter s.halted
  let s := { s with capt := Capture.reset, pwr := { s.pwr with frozenDuty := [] } }
  gs.foldl (fun s g => releaseHeld g s) s

/-- CAPT_RELEASE (R415), a lamp command; with nothing armed or held it succeeds with no effect. -/
def execCaptRelease (via : Transport) (s : State) : Host.Outcome State Fault Refusal :=
  .next (runCmd via 0x51 (fun c s => respond c stSuccess [] (releaseCapture s)) s)

/-- The shadow copy of a captured gallery. -/
def State.shadowOf (s : State) (g : Nat) : Gallery :=
  ((s.capt.shadows.find? (fun h => decide (h.1 = g))).map (·.2)).getD Gallery.reset

/-- An open ST burst holds the bank of an address (R418). -/
def Gallery.storeHolds (x : Gallery) (a : Nat) : Bool :=
  match (x.bank (bankOf a)).burst with
  | some (r, _, _) => decide (r < 32) && (x.tap r).any (fun q => q.granted && !q.load)
  | none => false

/-- Stream-memory readback of a halted gallery (R418). -/
def readHalted (c : Cmd) (g a n : Nat) (s : State) : State :=
  if (List.range (n / 16)).any (fun i => (s.gal g).storeHolds (a + 16 * i)) then respond c stBusy [] s
  else match readBeats g 32 (n / 16) a s with
    | (d, bad, s) => if bad then respond c stEcc [] s else respond c stSuccess d s

/-- A section of gallery g (R416, Table 24.1). -/
def readSection (c : Cmd) (g code a n : Nat) (s : State) : State :=
  let q := tabGet CaptGal.reset s.capt.perGal g
  match sectionSize code with
  | none => respond c stRange [] s
  | some size =>
    if q.st = 0 ∨ q.st = 3 ∨ size < a + n then respond c stRange [] s
    else if !haltOnly code then respond c stSuccess ((List.range n).map (fun i => sectionByte (s.shadowOf g) code (a + i))) s
    else if q.lost then respond c stAsleep [] s
    else if q.st ≠ 2 then respond c stRange [] s
    else if (s.gal g).engine.isSome then respond c stBusy [] s
    else if code = 0x30 then readHalted c g a n s
    else respond c stSuccess ((List.range n).map (fun i => sectionByte (s.gal g) code (a + i))) s

/-- CAPT_READ (R25, R309, R416). -/
def captReadCmd (c : Cmd) (s : State) : State :=
  let g := leAt c.body 1 1
  let code := leAt c.body 0 1
  let a := leAt c.body 4 4
  let n := leAt c.body 8 4
  if g < 16 ∧ s.variant.hasGal g = false then respond c stAbsent [] s
  else if a % 16 ≠ 0 ∨ n % 16 ≠ 0 ∨ n < 16 ∨ 1024 < n then respond c stRange [] s
  else if s.capt.st ≠ 2 then respond c stBusy [] s
  else if g = 0xFF then
    (if 1 < code ∨ (s.capt.device code).length < a + n then respond c stRange [] s
     else respond c stSuccess (slice (s.capt.device code) a n) s)
  else if 15 < g then respond c stRange [] s
  else readSection c g code a n s

/-- CAPT_READ, a lamp command. -/
def execCaptRead (via : Transport) (s : State) : Host.Outcome State Fault Refusal := .next (runCmd via 0x52 captReadCmd s)

/-- TRIGGER_LINE_RX (R353, R355, Table 18.7): a level is taken as received; STAR_IN turned off or held safe stays 0. -/
def execTriggerLineRx (line : Nat) (level : Bool) (s : State) : Host.Outcome State Fault Refusal :=
  .next (
    let starOff := decide (s.rvTrig = 0 ∨ s.rvTrig = 3 ∨ s.rvTrig = 4 ∨ s.rvTrig = 7) || decide (s.kind 8 ≠ 0)
    if !s.clocked || decide (8 < line) || (decide (line = 8) && starOff) then s
    else
      let t := { s with tnd := { s.tnd with lines := putBit s.tnd.lines line level } }
      if level && !hasBit s.tnd.lines line then t.tally (0x3610 + line) 1 else t)

/-- TND_CAPTURE_ARM (R358): the capture route has risen in the cycle before; KIND, GALLERIES and DELAY stand in the routes
frame of block 0 from byte 112 on (Table 20.6). -/
def execTndCaptureArm (s : State) : Host.Outcome State Fault Refusal :=
  .next (match s.tnd.captDue with
    | none => s
    | some t =>
      if !s.clocked || !s.variant.hasTinder then s
      else
        let f := memRead s.tnd.cfg (tndAddr 0 7 112) 8
        armCapture (leAt f 0 1) 2 (BitVec.ofNat 16 (leAt f 2 2)) (t + BitVec.ofNat 64 (16 + leAt f 4 4 % 2 ^ 20)) 0
          { s with tnd := { s.tnd with captDue := none } })

end Sys2Proof.Machine
end

