-- ==== Sys2Proof/Machine/Image.lean ====
section
/-!
DEFINITION. Loading an image (chapters 5 to 7): the banked state, the boot block and the image, the header, the signature
and the frames (R79–R84, R100–R119).
-/

namespace Sys2Proof.Machine

/-- Raises, in order, the events that wait for the end of kindling (R56, R66, R75, R95, R96). -/
def raiseDeferred (s : State) : State :=
  s.clk.deferred.foldl (fun s e => s.raise e.event e.data) { s with clk := { s.clk with deferred := [] } }

/-- The bytes that the configuration engine can read: those a host load has sent, or the extent in flash. -/
def State.imgAvail (s : State) : Nat := if s.img.host then s.img.hostBytes.length else s.img.extent

/-- Where the image ends for the engine: IMAGE_LEN, or an extent that ends before it (R123). -/
def State.imgLimit (s : State) : Nat := min s.img.imageLen (if s.img.host then s.img.hostLen else s.img.extent)

/-- Bytes of the image. -/
def State.imgBytes (s : State) (off n : Nat) : List Byte :=
  if s.img.host then slice s.img.hostBytes off n else flashBytes s.flash.data (s.img.base + off) n

/-- The engine moves on over `n` image bytes from `off`: flash words not yet read in this load are read and counted
(R129); the answer is the first uncorrectable one (R80). -/
def streamRead (off n : Nat) (s : State) : Option Nat × State :=
  if s.img.host then (none, s)
  else
    let a := (s.img.base + off + 31) / 32
    let k := (s.img.base + off + n + 31) / 32 - a
    match s.firstFatal a k with
    | some i => (some (a + i), (readWords (i + 1) a s).2)
    | none => (none, (readWords k a s).2)

/-- A frame of the image (Table 6.2) with its offset and its index. -/
structure Fr where
  type : Nat
  cfa  : Nat
  len  : Nat
  aux  : Nat
  data : List Byte
  off  : Nat
  idx  : Nat
  deriving DecidableEq, Repr

/-- What the engine meets next: bytes it still waits for, a failure with its code and detail, or a frame whose CRC
passes. -/
inductive NextFrame where
  | wait
  | bad (code detail : Nat)
  | frame (f : Fr)
  deriving DecidableEq, Repr

/-- The next frame (R83, R105, R107 check 1). -/
def nextFrame (s : State) : NextFrame × State :=
  let off := s.img.off
  if s.imgLimit < off + 16 then (.bad 0x43 s.img.index, s)
  else if s.imgAvail < off + 16 then (.wait, s)
  else
    match streamRead off 16 s with
    | (some w, t) => (.bad 0x15 w, t)
    | (none, t) =>
      let h := s.imgBytes off 16
      let len := leAt h 8 4
      if s.imgLimit < off + len + 24 then (.bad 0x43 s.img.index, t)
      else if s.imgAvail < off + len + 24 then (.wait, s)
      else
        match streamRead (off + 16) (len + 8) t with
        | (some w, t) => (.bad 0x15 w, t)
        | (none, t) =>
          let d := s.imgBytes off (len + 20)
          if crc32 (d.take (16 + len)) ≠ wd (leAt d (16 + len) 4) then (.bad 0x40 s.img.index, t)
          else
            (.frame { type := leAt h 0 1, cfa := leAt h 4 4, len := len, aux := leAt h 12 4, data := slice d 16 len,
                      off := off, idx := s.img.index }, t)

/-- How many bytes of a host load the engine has consumed: all it has when it waits for more. -/
def State.consumed (s : State) : Nat :=
  let n := s.img.hostBytes.length
  match s.kin.phase with
  | 1 => 0
  | 4 => if n < 256 then n else 0
  | 5 => if n < 512 then n else 256
  | 6 => if (nextFrame s).1 = .wait then n else s.img.off
  | _ => n

/-- The IMAGE_DATA commands whose chunks are consumed are answered (R309). -/
def answerChunks (s : State) : State :=
  let n := s.consumed
  (s.lamp.running.filter (fun c => decide (c.type = 0x31 ∧ leAt c.body 0 4 + (c.body.length - 8) ≤ n))).foldl
    (fun s c => respond c stSuccess [] s) s

/-- The scan of the swap journal (R132): every word up to the first blank one is read; event 0xD5 names the first torn or
invalid one. -/
def scanNow (s : State) : State :=
  let sound := fun sec k => (s.validEntry (2048 * sec + k)).isSome
  let torn := [2, 3].findSome? (fun sec =>
    (firstBelow (s.scanned sec) (fun k => !sound sec k)).map (fun k => (sec, k)))
  let x := s.scanJournal
  let s := [2, 3].foldl (fun t sec => (readWords (s.scanned sec) (2048 * sec) t).2) s
  let s := recordJournal x { s with kin := { s.kin with journalOk := true } }
  match torn with
  | some (sec, k) => s.raise 0xD5 ([BitVec.ofNat 8 sec, 0] ++ leBytes 2 k)
  | none => s

/-- The banked state (R96): domains off, GSR asserted, outputs safe, the cause recorded and reported; a journal not yet
scanned is scanned (R79), and a pending chunk of a host load is answered (R309). -/
def bank (code detail : Nat) (s : State) : State :=
  let s := s.domOrder.foldl (fun s d =>
    if (s.dom d).st = .off then s else (leaveOn d .off s).modDom d (fun _ => Dom.reset)) s
  let s := if s.kin.journalOk then s else scanNow s
  let s := { s with kin := { s.kin with
    phase := 10, code := code, failPhase := s.kin.phase, outputs := false, gsr := true, writeEn := false } }
  let s := raiseDeferred (s.putPar 0x21 (wd detail))
  answerChunks (s.raise 0x11 (leBytes 4 s.kindleStatus ++ leBytes 4 (s.parN 0x21)))

/-- Kindling moves to another phase (Table 5.3). -/
def toPhase (n : Nat) (s : State) : State := { s with kin := { s.kin with phase := n } }

/-- A row of Table 5.1 acts in its phase only. -/
def inPhase (n : Nat) (act : State → State) (s : State) : State :=
  if s.clocked && decide (s.kin.phase = n) then act s else s

/-- The boot block that RV_BOOT chooses (R79). -/
def State.chosenBlock (s : State) : Option Nat :=
  match s.rv 7 with
  | 1 | 9 => some 0
  | 2 | 10 => some 1
  | _ => if s.journalValid then some s.journalBlock else none

/-- RV_BOOT selects a host load (R98). -/
def State.hostBoot (s : State) : Bool := decide (s.rv 7 = 3 ∨ s.rv 7 = 4 ∨ s.rv 7 = 11 ∨ s.rv 7 = 12)

/-- RV_BOOT 3 or 4: a host load for which a boot record is optional (R98). -/
def State.lenientBoot (s : State) : Bool := decide (s.rv 7 = 3 ∨ s.rv 7 = 4)

/-- RV_BOOT requires a signature (Table 3.16). -/
def State.mustSign (s : State) : Bool := decide (8 ≤ s.rv 7 ∧ s.rv 7 ≤ 12)

/-- JOURNAL_SCAN (R79, R132): waits for a flash write that a warm reset left in progress (R135). -/
def execJournalScan (upsets : List Upset) (s : State) : Host.Outcome State Fault Refusal :=
  .next (inPhase 2 (fun s =>
    if s.kin.journalOk || s.flash.op.isSome then s
    else
      let s := scanNow (noteFlash upsets s)
      match s.chosenBlock with
      | some b => { s with img := { s.img with block := b, blockOk := true } }
      | none => if s.lenientBoot then s else bank 0x12 0 s) s)

/-- KINDLE_IMAGE (Table 5.3). -/
def recordImage (s : State) : State :=
  s.putPar 0x23 (wd (s.img.entry + 16 * s.img.block + flag s.img.signed 5))

/-- What follows a boot record: service hold, a host load, or the directory (R43, R80, R98). -/
def afterBoot (s : State) : State :=
  let s := recordImage s
  if s.rv 1 = 14 then bank 0x11 0 s
  else if s.hostBoot then toPhase 11 { s with img := { s.img with host := true } }
  else toPhase 3 s

/-- BOOT_RECORD_READ (R79, R98, R122, R123). -/
def execBootRecordRead (upsets : List Upset) (s : State) : Host.Outcome State Fault Refusal :=
  .next (inPhase 2 (fun s =>
    if !s.kin.journalOk then s
    else if !s.img.blockOk then afterBoot s
    else
      let s := noteFlash upsets s
      let w := 2048 * s.img.block
      match s.firstFatal w 8 with
      | some i => bank 0x15 (w + i) (readWords (i + 1) w s).2
      | none =>
        let d := flashBytes s.flash.data (65536 * s.img.block) 256
        let s := (readWords 8 w s).2
        match s.bootRecord s.img.block with
        | 0 =>
          afterBoot { s with img := { s.img with
            defEntry := leAt d 6 1, keyHash := if (byteAt d 7).getLsbD 0 then some (slice d 8 32) else none } }
        | 1 => if s.lenientBoot then afterBoot s else bank 0x12 0 s
        | _ => if s.lenientBoot then afterBoot s else bank 0x13 0 s) s)

/-- IMAGE_SELECT (R80, R122, R123): the directory entry that RV_IMG or the boot record names. -/
def execImageSelect (upsets : List Upset) (s : State) : Host.Outcome State Fault Refusal :=
  .next (inPhase 3 (fun s =>
    let e := if s.rv 1 = 0 ∨ s.rv 1 = 15 then s.img.defEntry else s.rv 1
    if e = 0 ∨ 13 < e then bank 0x14 0 s
    else
      let s := noteFlash upsets s
      let w := 2048 * s.img.block + 8 + e
      let d := s.flashWord w
      let bad := (s.firstFatal w 1).isSome
      let s := (readWords 1 w s).2
      let first := leAt d 2 2
      let count := leAt d 4 2
      if bad then bank 0x15 w s
      else if (byteAt d 0).getLsbD 0 = false ∨ crc32 (d.take 28) ≠ wd (leAt d 28 4) ∨ first < 4 ∨ count = 0 ∨
          2048 < first + count ∨ count * 65536 < leAt d 8 4 then bank 0x14 0 s
      else toPhase 4 (recordImage { s with img := { s.img with
        entry := e, base := 65536 * first, extent := leAt d 8 4 } })) s)

/-- The header's start-up positions form a permutation of 0–3 (R86). -/
def stepsOk (h : List Byte) : Bool :=
  (List.range 4).all (fun k => (List.range 4).any (fun i => decide (leAt h (0x40 + 4 * i) 1 = k)))

/-- R102: the header is well formed. -/
def headerFormatOk (h : List Byte) : Bool :=
  let off := leAt h 0x0C 4
  decide (h.take 4 = [0x50, 0x59, 0x52, 0x31] ∧ leAt h 4 2 = 0x0100 ∧ leAt h 6 2 = 256 ∧
    off = (if bitOf (leAt h 0x10 4) 0 then 512 else 256) ∧ off + 40 ≤ leAt h 8 4 ∧ leAt h 0x50 1 ≤ 4) && stepsOk h

/-- The header checks of R81 in order: the code and the detail of the first that fails. -/
def headerFault (v : Variant) (h : List Byte) : Option (Nat × Nat) :=
  let d := leAt h 0x28 4 ||| leAt h 0x26 2
  let lacking := firstBelow 32 (fun i => bitOf d i && !bitOf v.units i)
  if crc32 (h.take 252) ≠ wd (leAt h 252 4) then some (0x20, 0)
  else if !headerFormatOk h then some (0x21, 0)
  else if leAt h 0x20 2 ≠ 0x5059 then some (0x22, 0)
  else if Config.stepping < leAt h 0x24 1 ∨ leAt h 0x25 1 < Config.stepping then some (0x23, 0)
  else match lacking with
    | some i => some (0x24, i)
    | none =>
      if leAt h 0x22 2 ≠ v.part ∧ leAt h 0x22 2 ≠ 0xFFFF then some (0x24, 0x80000000 + leAt h 0x22 2) else none

/-- A header that passes R81 comes into force: the start-up fields, the hold timeout (R99, R103), the inventory (R326),
and the galleries outside the mask go off (Table 5.1). -/
def takeHeader (h : List Byte) (s : State) : State :=
  let t := leAt h 0x54 4
  let hold := if t % 2 ^ 24 = 0 then t / 2 ^ 31 * 2 ^ 31 + 1000 else t
  let s := { s with img := { s.img with
    imageLen := leAt h 8 4, framesOff := leAt h 0x0C 4, hasSig := bitOf (leAt h 0x10 4) 0
    galMask := BitVec.ofNat 16 (leAt h 0x26 2)
    stepPos := (List.range 4).map (fun i => leAt h (0x40 + 4 * i) 1)
    stepDelay := (List.range 4).map (fun i => leAt h (0x42 + 4 * i) 2)
    hold := leAt h 0x50 1, strict := bitOf (leAt h 0x51 1) 0, lockLimit := leAt h 0x52 2
    off := leAt h 0x0C 4, index := 0, sect := 0 } }
  let s := (s.putPar 0x22 (wd hold &&& 0x80FFFFFF)).putPar 0x1A (wd (leAt h 0x14 4)) |>.putPar 0x1B (wd (leAt h 0x18 4))
  s.galList.foldl (fun s g =>
    if hasBit s.img.galMask g then s else (leaveOn g .off s).modDom g (fun _ => Dom.reset)) s

/-- A part of the image of `n` bytes up to `last` is due: truncated, awaited, or read with its first uncorrectable word
(R80, R83). -/
def readPart (off n : Nat) (s : State) (act : List Byte → State → State) : State :=
  let size := if s.img.host then s.img.hostLen else s.img.extent
  if size < off + n then bank 0x43 0 s
  else if s.imgAvail < off + n then s
  else
    match streamRead off n s with
    | (some w, t) => bank 0x15 w t
    | (none, t) => answerChunks (act (s.imgBytes off n) t)

/-- IMAGE_HEADER_CHECK (R20, R81, R82, R102): a required signature that is absent is found here. -/
def execImageHeaderCheck (upsets : List Upset) (s : State) : Host.Outcome State Fault Refusal :=
  .next (inPhase 4 (fun s => readPart 0 256 (noteFlash upsets s) (fun h s =>
    match headerFault s.variant h with
    | some (c, d) => bank c d s
    | none =>
      let s := takeHeader h s
      if s.img.hasSig then toPhase 5 s
      else if s.mustSign then bank 0x30 0 s
      else toPhase 6 s)) s)

/-- SIGNATURE_CHECK (R82, R118, R119): form, key hash, and signature, in order. -/
def execSignatureCheck (s : State) : Host.Outcome State Fault Refusal :=
  .next (inPhase 5 (fun s => readPart 256 256 s (fun b s =>
    let q := slice b 0x10 96
    let e := slice b 0x70 32
    if b.take 4 ≠ [0x50, 0x59, 0x53, 0x47] ∨ leAt b 4 2 ≠ 256 ∨ leAt b 6 2 ≠ 1 ∨ crc32 (b.take 252) ≠ wd (leAt b 252 4) then
      bank 0x32 0 s
    else if s.img.keyHash ≠ some (sha256 q) then bank 0x31 0 s
    else if !ecdsaVerify (beNat (slice b 0x10 48)) (beNat (slice b 0x40 48)) (beNat e) (beNat (slice b 0x90 48))
        (beNat (slice b 0xC0 48)) then bank 0x32 0 s
    else toPhase 6 (recordImage { s with img := { s.img with digest := some e, signed := true } }))) s)

/-- The section of a frame type (Table 6.3). -/
def frameSection (type : Nat) : Option Nat :=
  match type with
  | 0x01 | 0x02 | 0x03 | 0x04 | 0x08 | 0x09 => some 1
  | 0x05 | 0x06 | 0x07 => some 2
  | 0x0A => some 3
  | 0x0B => some 4
  | 0x0C => some 5
  | 0x0F => some 6
  | _ => none

/-- The kind of a configuration frame's address (Tables 6.3 and 6.4). -/
def frameKind (type : Nat) : Option Nat :=
  match type with
  | 0x01 | 0x02 => some 0
  | 0x03 => some 1
  | 0x04 => some 2
  | 0x08 => some 3
  | 0x09 => some 4
  | _ => none

/-- R21 on a frame of the image: any frame for an absent gallery or port, and what its content needs. -/
def frameAbsent (v : Variant) (f : Fr) : Bool :=
  match f.type with
  | 0x01 => !v.hasGal (cfaGal f.cfa) || (!v.hasDiv && planeDivides f.data)
  | 0x02 | 0x03 | 0x04 | 0x05 | 0x06 | 0x07 => !v.hasGal (cfaGal f.cfa)
  | 0x08 => !v.hasTinder
  | 0x09 => needsAbsent v (f.cfa % 2 ^ 28 + 4 * 2 ^ 28) f.data
  | _ => false

/-- The CFA has been loaded by this image. -/
def State.hasFrame (s : State) (cfa : Nat) : Bool := s.img.loaded.any (fun l => decide (l.1 = cfa))

/-- The gallery lies in GAL_MASK. -/
def State.inMask (s : State) (g : Nat) : Bool := hasBit s.img.galMask g

/-- The range and order rules that every frame of its kind meets (R105, R106, R108). -/
def frameOk (f : Fr) (s : State) : Bool :=
  decide (f.len % 16 = 0 ∧ f.len ≤ 65536 ∧ s.img.sect ≤ (frameSection f.type).getD 0) &&
    (match frameKind f.type with
     | none => true
     | some k =>
       decide (f.len = 512 ∧ cfaKind f.cfa = k) &&
         (decide (k ≠ 0) || (if f.type = 1 then decide (cfaIndex f.cfa ≤ 7)
            else decide (8 ≤ cfaIndex f.cfa ∧ cfaIndex f.cfa ≤ 11))) &&
         (decide (2 < k) || s.inMask (cfaGal f.cfa)) && !s.hasFrame (cfaNorm f.cfa))

/-- The engine goes on behind a frame. -/
def endFrame (f : Fr) (s : State) : State :=
  { s with img := { s.img with
      off := f.off + f.len + 24, index := f.idx + 1, sect := (frameSection f.type).getD 0
      loaded := if (frameKind f.type).isSome then
          s.img.loaded ++ [(cfaNorm f.cfa, { gcrc := crc32 f.data, off := f.off })] else s.img.loaded } }

/-- Every PORT_DEFAULTS frame has been applied: the links that they enable are committed in frame order (R248, R262).
The answer is the lead whose commit is refused. -/
def commitLeads : List Nat → State → Option Nat × State
  | [], s => (none, { s with img := { s.img with linkLeads := [] } })
  | l :: ls, s =>
    if s.linkCheck l = 0 then commitLeads ls (s.putPar (portP l 0x60) (s.par (portP l 0x60) ||| 0x80000000)) else (some l, s)

/-- The frame index of a loaded configuration frame: configuration frames come first in an image (R106). -/
def State.frameIndex (s : State) (cfa : Nat) : Nat := s.img.loaded.findIdx (fun l => decide (l.1 = cfa))

/-- One frame of the image (R83, R107): the row that names its type takes it; a failure, whatever its type, is met by any
frame row.  `act` answers 0 or the code of the check that fails. -/
def loadFrame (type : Nat) (act : Fr → State → Nat × State) : State → State := inPhase 6 (fun s =>
  match nextFrame s with
  | (.wait, _) => s
  | (.bad c d, t) => bank c d t
  | (.frame f, t) =>
    if frameSection f.type = none then bank 0x41 f.idx t
    else if f.type ≠ type then s
    else
      match (if frameKind type = none then commitLeads t.img.linkLeads t else (none, t)) with
      | (some l, t) => bank 0x44 (t.frameIndex (0x40000001 + l * 65536)) t
      | (none, t) =>
        if frameAbsent t.variant f then bank 0x42 f.idx t
        else if !frameOk f t then bank 0x44 f.idx t
        else
          let r := act f t
          if r.1 ≠ 0 then bank r.1 f.idx r.2 else answerChunks (endFrame f r.2))

/-- FRAME_RANGE, or the effect of a frame that passes its checks. -/
def rangeElse (ok : Bool) (s t : State) : Nat × State := if ok then (0, t) else (0x44, s)

/-- The checks of R110 on a CONTEXT_TABLE; an INIT_PLANE of a defined context is a plane or 0xFF (Table 6.6). -/
def tableOk (d : List Byte) : Bool :=
  let defined := fun c => (byteAt d (8 * c)).getLsbD 0
  let plane := fun c => leAt d (8 * c + 1) 1
  let ic := leAt d 6 1
  (List.range 64).all (fun c => !defined c || decide (plane c = 255) ||
    (decide (plane c ≤ 7) && (List.range c).all (fun k => !defined k || decide (plane k ≠ plane c)))) &&
  decide (ic ≤ 63) && defined ic && decide (plane ic ≤ 7) && decide (leAt d 4 2 ≤ 1023)

/-- CONTEXT_TABLE (R110). -/
def execContextTable (s : State) : Host.Outcome State Fault Refusal :=
  .next (loadFrame 0x04 (fun f s => rangeElse (tableOk f.data) s (s.modGal (cfaGal f.cfa) (loadTable f.data))) s)

/-- The gallery's table has come and defines the context (R111). -/
def State.ctxKnown (s : State) (cfa : Nat) : Bool :=
  s.hasFrame (0x20000000 + cfaGal cfa * 65536) && ((s.gal (cfaGal cfa)).desc (cfaCtx cfa)).defined

/-- A PLANE or SWITCH frame (R111, R143, R197). -/
def ctxFrame (f : Fr) (s : State) : Nat × State :=
  rangeElse (s.ctxKnown f.cfa && contentOk f.cfa f.data) s (writeFrame f.cfa f.data s)

/-- PLANE_FRAME (R111). -/
def execPlaneFrame (s : State) : Host.Outcome State Fault Refusal := .next (loadFrame 0x01 ctxFrame s)

/-- SWITCH_FRAME (R111, R197). -/
def execSwitchFrame (s : State) : Host.Outcome State Fault Refusal := .next (loadFrame 0x02 ctxFrame s)

/-- SEQUENCER_FRAME (R109). -/
def execSequencerFrame (s : State) : Host.Outcome State Fault Refusal :=
  .next (loadFrame 0x03 (fun f s => (0, writeFrame f.cfa f.data s)) s)

/-- TINDER_FRAME (R348). -/
def execTinderFrame (s : State) : Host.Outcome State Fault Refusal :=
  .next (loadFrame 0x08 (fun f s => rangeElse (contentOk f.cfa f.data) s (writeFrame f.cfa f.data s)) s)

/-- A port of protocol 1 or 2 carries a rate (R262). -/
def rateOk (protocol rate : Nat) : Bool := decide (protocol = 0 ∨ (100 ≤ rate ∧ rate ≤ 3250))

/-- PORT_DEFAULTS index 0 (R109, R262, R424): protocol, lock flag and binding; with index 1 already loaded its protocol
word and rate are compared here. -/
def portFrame0 (f : Fr) (s : State) : Nat × State :=
  let p := cfaGal f.cfa
  let k := leAt f.data 0 1
  let lock := (byteAt f.data 1).getLsbD 0
  let early := s.hasFrame (0x40000001 + p * 65536)
  let word := s.parN (portP p 0x01)
  let ok := decide (k ≤ 2) && !(lock && decide (k = 0)) && decide (leAt f.data 16 1 ≤ 2) &&
    (!early || (decide (word = 0 ∨ word = k) && rateOk k (s.parN (portP p 0x02))))
  rangeElse ok s ((s.putPar (portP p 0x01) (wd k)).modPort p (fun q =>
    { q with lockAt := lock, configured := true, bindCfg := slice f.data 16 16 }))

/-- One word of a PORT_DEFAULTS index 1 frame passes its check (R262). -/
def State.portWordOk (s : State) (p o v : Nat) : Bool :=
  let n := portP p o
  match paramInfo n with
  | none => true
  | some i =>
    if paramAbsent s.variant n then true
    else if i.access ≠ .rw then decide (v = 0)
    else if o = 0x01 then
      decide (v = 0) || (if s.hasFrame (0x40000000 + p * 65536) then decide (v = s.parN n) else decide (v ≤ 2))
    else decide (wd v = paramReset n) || s.valueOk n (wd v &&& rwMask n)

/-- Stores the words of a PORT_DEFAULTS index 1 frame; a link's ENABLE waits for the checks that relate ports. -/
def storePortWords (p : Nat) (d : List Byte) (s : State) : State :=
  (List.range 128).foldl (fun s o =>
    let n := portP p o
    let v := wd (leAt d (4 * o) 4) &&& rwMask n
    if (paramInfo n).map (·.access) ≠ some .rw ∨ paramAbsent s.variant n = true then s
    else if o = 0x01 then (if s.hasFrame (0x40000000 + p * 65536) then s else s.putPar n v)
    else if o = 0x60 then
      let t := s.putPar n (v &&& 0x37FF)
      if v.getLsbD 31 then { t with img := { t.img with linkLeads := t.img.linkLeads ++ [p] } } else t
    else if o = 0x63 then s.putPar n (v &&& 0x1F)
    else s.putPar n v) s

/-- PORT_DEFAULTS index 1 (R262). -/
def portFrame1 (f : Fr) (s : State) : Nat × State :=
  let p := cfaGal f.cfa
  let known := s.hasFrame (0x40000000 + p * 65536)
  let ok := (List.range 128).all (fun o => s.portWordOk p o (leAt f.data (4 * o) 4)) &&
    (!known || rateOk (s.protocol p) (fld (wd (leAt f.data 8 4)) 11 0))
  rangeElse ok s (storePortWords p f.data s)

/-- PORT_DEFAULTS (R109, R262). -/
def execPortDefaults (s : State) : Host.Outcome State Fault Refusal :=
  .next (loadFrame 0x09 (fun f s => if cfaIndex f.cfa = 0 then portFrame0 f s else portFrame1 f s) s)

/-- Writes a seed into its slot; one that covers any byte of the accumulator region marks it valid (R112, R160). -/
def writeSeed (f : Fr) (x : Gallery) : Gallery :=
  let a := slotSize * cfaCtx f.cfa + f.aux
  let x := { x with store := tabBlock 0 x.store a f.len (byteAt f.data), storeBad := tabClear x.storeBad (a / 8) (f.len / 8 + 1) }
  if 0x3800 < f.aux + f.len ∧ 0 < f.len then x.modDesc (cfaCtx f.cfa) (fun d => { d with accValid := true }) else x

/-- A seed's checks (R111, R112). -/
def State.seedOk (s : State) (f : Fr) : Bool :=
  s.inMask (cfaGal f.cfa) && s.ctxKnown f.cfa && decide (0x1800 ≤ f.aux ∧ f.aux + f.len ≤ 0x4000)

/-- CONTEXT_SEED (R111, R112). -/
def execContextSeed (s : State) : Host.Outcome State Fault Refusal :=
  .next (loadFrame 0x05 (fun f s => rangeElse (s.seedOk f) s (s.modGal (cfaGal f.cfa) (writeSeed f))) s)

/-- The checks of a memory frame that writes `n` bytes (R113). -/
def State.memFrameOk (s : State) (f : Fr) (n : Nat) : Bool :=
  s.inMask (cfaGal f.cfa) && decide (f.aux % 16 = 0 ∧ f.aux + n ≤ 0x200000)

/-- MEM_PRELOAD (R113). -/
def execMemPreload (s : State) : Host.Outcome State Fault Refusal :=
  .next (loadFrame 0x06 (fun f s => rangeElse (s.memFrameOk f f.len) s
    (s.modGal (cfaGal f.cfa) (fun x => { x with mem := tabBlock 0 x.mem f.aux f.len (byteAt f.data)
                                                memBad := tabClear x.memBad (f.aux / 8) (f.len / 8) }))) s)

/-- FILL_RUN (R113). -/
def execFillRun (s : State) : Host.Outcome State Fault Refusal :=
  .next (loadFrame 0x07 (fun f s =>
    let n := leAt f.data 0 4
    rangeElse (decide (f.len = 32 ∧ n % 16 = 0) && s.memFrameOk f n) s
      (s.modGal (cfaGal f.cfa) (fillMem f.aux n (slice f.data 16 16)))) s)

/-- Applies the entries of a PARAM_DEFAULTS payload in order, up to the first that fails (R114). -/
def applyDefaults (d : List Byte) : Nat → Nat → State → Nat × State
  | 0, _, s => (0, s)
  | k + 1, i, s =>
    let n := leAt d (8 * i) 2
    if n = 0xFFFF then applyDefaults d k (i + 1) s
    else match paramInfo n with
      | none => (0x44, s)
      | some x =>
        if paramAbsent s.variant n then (0x42, s)
        else if x.access ≠ .rw ∨ (0x20 ≤ n ∧ n ≤ 0x2F) then (0x44, s)
        else
          let r := writeParam n (wd (leAt d (8 * i + 4) 4)) s
          if r.1 = stSuccess then applyDefaults d k (i + 1) r.2 else (0x44, r.2)

/-- PARAM_DEFAULTS (R114). -/
def execParamDefaults (s : State) : Host.Outcome State Fault Refusal :=
  .next (loadFrame 0x0A (fun f s => applyDefaults f.data (f.len / 8) 0 s) s)

/-- The record starts of an ESSENTIAL_MAP payload from offset `pos` on (R115): image offset, CFA, and bytes to the end of
the payload. -/
def mapWalk (off : Nat) (d : List Byte) : Nat → Nat → List (Nat × Nat × Nat)
  | 0, _ => []
  | k + 1, pos =>
    if d.length ≤ pos then []
    else
      let r := (off + pos, leAt d pos 4, d.length - pos)
      match mapBody (slice d pos 16) with
      | some n => if d.length < pos + 16 + n then [r] else r :: mapWalk off d k (pos + 16 + n)
      | none => [r]

/-- ESSENTIAL_MAP (R115): the records are not checked. -/
def execEssentialMap (s : State) : Host.Outcome State Fault Refusal :=
  .next (loadFrame 0x0B (fun f s =>
    (0, { s with img := { s.img with mapRecs := s.img.mapRecs ++ mapWalk (f.off + 16) f.data (f.len / 16) 0 } })) s)

/-- Entry `i` of a GOLDEN_TABLE payload (Table 6.9). -/
def goldenAt (d : List Byte) (i : Nat) : Golden :=
  { cfa := leAt d (16 * i) 4, gcrc := wd (leAt d (16 * i + 4) 4), frameOff := leAt d (16 * i + 8) 4,
    mapOff := leAt d (16 * i + 12) 4 }

/-- The entry agrees with the frame and the map record it names (R116). -/
def State.goldenOk (s : State) (e : Golden) : Bool :=
  s.img.loaded.any (fun l => decide (l.1 = cfaNorm e.cfa ∧ l.2.gcrc = e.gcrc ∧ l.2.off = e.frameOff)) &&
    (decide (e.mapOff = 0) || s.img.mapRecs.any (fun r => decide (r.1 = e.mapOff ∧ cfaNorm r.2.1 = cfaNorm e.cfa)))

/-- GOLDEN_TABLE (R116): entries in strictly ascending order, each consistent with the image. -/
def execGoldenTable (s : State) : Host.Outcome State Fault Refusal :=
  .next (loadFrame 0x0C (fun f s =>
    let l := s.img.golden ++ (List.range (f.len / 16)).map (goldenAt f.data)
    let asc := (l.zip (l.drop 1)).all (fun e => decide (cfaNorm e.1.cfa < cfaNorm e.2.cfa))
    rangeElse (asc && l.all s.goldenOk) s { s with img := { s.img with golden := l } }) s)

/-- R117 and the end of R116: every frame that the image needs is there, and every configuration frame has an entry. -/
def State.imageComplete (s : State) : Bool :=
  s.galList.all (fun g => !s.inMask g ||
    (s.hasFrame (0x20000000 + g * 65536) && (List.range 8).all (fun i => s.hasFrame (0x10000000 + g * 65536 + i)) &&
     (List.range 64).all (fun c => !((s.gal g).desc c).defined ||
       (List.range 12).all (fun i => s.hasFrame (g * 65536 + c * 256 + i))))) &&
  (let tinder := fun i => s.hasFrame (0x30000000 + i / 8 * 256 + i % 8)
   (List.range 32).all tinder || !(List.range 32).any tinder) &&
  s.portList.all (fun p => s.hasFrame (0x40000000 + p * 65536) == s.hasFrame (0x40000001 + p * 65536)) &&
  s.img.loaded.all (fun l => s.img.golden.any (fun e => decide (cfaNorm e.cfa = l.1)))

/-- Loads every context with an INIT_PLANE into its plane, and makes INIT_CONTEXT active (R176, R178). -/
def loadInitPlanes (cyc : Nat) (x : Gallery) : Gallery :=
  let x := (List.range 64).foldl (fun x c =>
    let d := x.desc c
    match d.initPlane with
    | some p => if d.defined then loadPlane p c cyc false x else x
    | none => x) x
  { x with activeCtx := x.initCtx, active := (x.planeOf x.initCtx).getD 0 }

/-- The end frame's effect (R26, R84, R176): memory primed, initial planes loaded, the default Tinder configuration where
the image has none, and ports at their rates with their links starting. -/
def finishLoad (s : State) : State :=
  let s := s.galList.foldl (fun s g =>
    if s.inMask g then s.modGal g (fun x => loadInitPlanes s.clk.cyc { x with allPrimed := true, granules := [] }) else s) s
  let tinder := s.hasFrame 0x30000000
  let s := { s with tnd := { s.tnd with
    cfg := if tinder then s.tnd.cfg else defaultTinder, fromImage := tinder, default := !tinder && s.variant.hasTinder } }
  s.portList.foldl (fun s p =>
    portReturns true p (s.modPort p (fun q => { q with rateNow := fld (s.par (portP p 0x02)) 11 0 }))) s

/-- The END frame (R82, R84, R106, R116, R117): the digest is taken over the header and the frames up to this one. -/
def loadEnd : State → State :=
  loadFrame 0x0F (fun f s =>
    if f.len ≠ 16 ∨ s.imageComplete = false then (0x44, s)
    else
      let n := f.off + 40 - s.img.framesOff
      let bad := match s.img.digest with
        | some d => decide (sha256 (s.imgBytes 0 256 ++ s.imgBytes s.img.framesOff n) ≠ d)
        | none => false
      if bad then (0x33, s) else (0, toPhase 7 (finishLoad s)))

end Sys2Proof.Machine
end

