-- ==== Sys2Proof/Machine/Damper.lean ====
section
/-!
DEFINITION. The damper handshake (R371–R374), power transitions (R375), and the return of a domain from sleep or off
(R376, R377).
-/

namespace Sys2Proof.Machine

/-- The domains that a damper command names; bits 25–31 are reserved. -/
def cmdDomains (c : Cmd) : List Nat := setBits 25 (leAt c.body 0 4)

/-- A damper command is under way at domain `d`, or a HALT capture holds the gallery (R374, R414). -/
def State.domBusy (s : State) (d : Nat) : Bool :=
  s.lamp.dampers.any (fun x => hasBit x.left d) || (s.dom d).moving || (decide (d < 16) && s.halted d)

/-- A gallery or the Tinder fabric: what lies outside lives in parameters (R377). -/
def reloads (d : Nat) : Bool := decide (d < 16 ∨ d = 24)

/-- The checks of DAMPER_CLOSE (R374, R414): the first that fails. -/
def closeRefusal (ds : List Nat) (action : Nat) (s : State) : Option Nat :=
  if ds.any (fun d => !s.variant.hasDom d) then some stAbsent
  else if 2 < action ∨ (action = 1 ∧ 24 ∈ ds) ∨ (action = 2 ∧ s.img.host = true ∧ ds.any reloads = true) then some stRange
  else if ds.any (fun d => s.domBusy d || (s.dom d).waking || (s.dom d).rekindling) then some stBusy
  else none

/-- Damper step 5 (Table 21.3): the domain is closed or force-isolated, fenced, and takes its action; its bit is set in
CLOSED. -/
def closeDomain (d : Nat) (forced : Bool) (s : State) : State :=
  let x := s.dom d
  let moves := decide (x.action = 1 ∧ x.st = .on) || decide (x.action = 2 ∧ x.st ≠ .off)
  damperDone d true forced (s.modDom d (fun x =>
    { x with damper := if forced || decide (x.damper = .forced) then .forced else .closed
             step := 5, fenced := true, moving := moves }))

/-- DAMPER_CLOSE reaches domain `d`: an off domain is closed already, a closed one takes the new action, the Tinder
fabric fences at once, and any other starts its drain (R371, R373, R374). -/
def startClose (action d : Nat) (s : State) : State :=
  let x := s.dom d
  if x.st = .off then damperDone d true false s
  else
    let s := s.modDom d (fun x => { x with action := action })
    if x.st = .on ∧ x.damper = .openD ∧ d ≠ 24 then
      let s := s.modDom d (fun x => { x with damper := .closing, step := 2, since := s.clk.cyc })
      if d < 16 then s.modGal d (fun x => { x with prefetch := [] }) else s
    else closeDomain d false s

/-- A damper command starts on its domains; with none named it is answered at once. -/
def startDamper (c : Cmd) (act : Nat → State → State) (s : State) : State :=
  let ds := cmdDomains c
  if ds.isEmpty then respond c stSuccess (List.replicate (if c.type = 0x40 then 8 else 4) 0) s
  else
    let s := startCmd c s
    ds.foldl (fun s d => act d s) { s with lamp := { s.lamp with
      dampers := s.lamp.dampers ++ [{ cmd := c, left := BitVec.ofNat 32 (leAt c.body 0 4 % 2 ^ 25), ended := 0, forced := 0 }] } }

/-- DAMPER_CLOSE (R371, R374). -/
def damperCloseCmd (c : Cmd) (s : State) : State :=
  let action := leAt c.body 4 1
  match closeRefusal (cmdDomains c) action s with
  | some st => respond c st [] s
  | none => startDamper c (startClose action) s

/-- DAMPER_CLOSE, a lamp command. -/
def execDamperClose (via : Transport) (s : State) : Host.Outcome State Fault Refusal := .next (runCmd via 0x40 damperCloseCmd s)

/-- The drain of domain `d` stands at step `n`. -/
def State.drainsAt (s : State) (d n : Nat) : Bool :=
  s.clocked && decide ((s.dom d).st = .on ∧ (s.dom d).damper = .closing ∧ (s.dom d).step = n)

/-- DAMPER_SEQUENCER_DAMPED (step 2 of Table 21.3): the sequencer is damped and no fill runs; from here on the router
holds new inbound packets. -/
def execDamperSequencerDamped (g : Nat) (s : State) : Host.Outcome State Fault Refusal :=
  .next (
    if decide (g < 16) && s.drainsAt g 2 && (s.gal g).seq.damped && (s.gal g).engine.all (fun t => !t.fill) then
      s.modDom g (fun x => { x with step := 3 })
    else s)

/-- Nothing remains for step 3 of Table 21.3: no tap request or open burst, no DMA, no outstanding transaction, and every
egress packet accepted by the router. -/
def State.galDrained (s : State) (g : Nat) : Bool :=
  let x := s.gal g
  x.tapQ.all (fun t => t.2.all (fun q => q.nowrite || (q.granted && decide (q.beats ≤ q.done)))) &&
  x.banks.all (fun b => match b.2.burst with | some (r, _, _) => decide (32 ≤ r) | none => true) &&
  x.seq.dmas.isEmpty && decide (s.outstanding (galNode g) 0 = 0) && x.egress.all (fun e => e.2.isEmpty) &&
  !s.mesh.ready.any (fun p => decide (6 * p.sy + p.sx = galNode g ∧ p.sport = 0 ∧ p.scard = s.card))

/-- DAMPER_DRAINED (steps 3 to 5 of Table 21.3): held frames are written, the port is fenced, and the gallery is closed;
GAL_DRAIN_MAX keeps the longest run. -/
def execDamperDrained (g : Nat) (s : State) : Host.Outcome State Fault Refusal :=
  .next (
    if decide (g < 16) && s.drainsAt g 3 && s.galDrained g then
      let n := min 0xFFFFFFFF (s.clk.cyc - (s.dom g).since)
      let s := if s.parN (galP g 0x46) < n then s.putPar (galP g 0x46) (wd n) else s
      closeDomain g false (writeHeld g s)
    else s)

/-- The held frames of a force-isolated gallery are discarded, each counted and reported with DEAD (R372, R367). -/
def discardHeld (g : Nat) (s : State) : State :=
  let l := (s.gal g).hold
  let s := l.foldl (fun s f =>
    (modStaging g (fun x => { x with status := stDead, held := false }) (s.count (galP g 0x52) 1)).raise 0xD8
      ([BitVec.ofNat 8 g, BitVec.ofNat 8 stDead, 0, 0] ++ leBytes 4 f.cfa)) s
  s.modGal g (fun x => { x with hold := [] })

/-- Event 0xD6 and the forced end of a drain (R372, R373). -/
def forceClose (d : Nat) (s : State) : State :=
  closeDomain d true (s.raise 0xD6 [BitVec.ofNat 8 d, BitVec.ofNat 8 (s.dom d).step])

/-- DRAIN_LIMIT_EXPIRY (R372): the gallery is force-isolated and marked dead with cause 6. -/
def execDrainLimitExpiry (g : Nat) (s : State) : Host.Outcome State Fault Refusal :=
  .next (
    if decide (g < 16) && (s.drainsAt g 2 || s.drainsAt g 3) then
      let s := discardHeld g (dropTaps g (markDead g 6 s))
      forceClose g (s.modSeq g (fun q => { q with damped := true }))
    else s)

/-- Packets that port p has presented and the router has not yet accepted. -/
def State.portReady (s : State) (p : Nat) : List Packet :=
  s.mesh.ready.filter (fun q => decide (6 * q.sy + q.sx = portNode p ∧ q.sport = p % 2 ∧ q.scard = s.card))

/-- PORT_PAIR_DRAINED (R373): the pair's packets are accepted and its transmit buffers are empty. -/
def execPortPairDrained (p : Nat) (s : State) : Host.Outcome State Fault Refusal :=
  .next (
    let d := 16 + p
    if decide (p < 8) && s.drainsAt d 2 &&
        (s.pairPorts d).all (fun k => (s.port k).txBuf.isEmpty && (s.portReady k).isEmpty) then
      closeDomain d false s
    else s)

/-- The buffers of port `k` are discarded and counted (R373). -/
def dropBuffers (k : Nat) (s : State) : State :=
  let l := s.portReady k
  let s := (s.count (portP k 0x14) l.length).count (portP k 0x16) (s.port k).txBuf.length
  ({ s with mesh := { s.mesh with ready := s.mesh.ready.filter (fun q => !l.contains q) } } : State).modPort k (fun q =>
    { q with txBuf := [] })

/-- PORT_DRAIN_EXPIRY (R373): buffered data is discarded, and both ports are marked dead with cause 6. -/
def execPortDrainExpiry (p : Nat) (s : State) : Host.Outcome State Fault Refusal :=
  .next (
    let d := 16 + p
    if decide (p < 8) && s.drainsAt d 2 then
      forceClose d ((s.pairPorts d).foldl (fun s k => markDead (16 + k) 6 (dropBuffers k s)) s)
    else s)

/-- POWER_DOWN_COMPLETE (Table 21.4): the closed domain sleeps, or is off; packets held for an off domain meet R242. -/
def execPowerDownComplete (d : Nat) (s : State) : Host.Outcome State Fault Refusal :=
  .next (
    let x := s.dom d
    if !s.clocked || !x.moving then s
    else if x.action = 1 then leaveOn d .sleep s
    else releaseHeld d (leaveOn d .off s))

/-- The checks of DAMPER_OPEN (R374, R377, R414, R72). -/
def openRefusal (ds : List Nat) (s : State) : Option Nat :=
  if ds.any (fun d => !s.variant.hasDom d) then some stAbsent
  else if s.img.host && ds.any (fun d => reloads d && decide ((s.dom d).st = .off)) then some stRange
  else if ds.any (fun d => s.domBusy d || ((s.dom d).critical && s.hotAt s.tripLevel)) then some stBusy
  else none

/-- DAMPER_OPEN reaches domain `d` (R374, R375, R376). -/
def startOpen (d : Nat) (s : State) : State :=
  let x := s.dom d
  match x.st with
  | .on => if x.damper = .openD then damperDone d true false s else openDomain d s
  | .sleep => s.modDom d (fun x => { x with waking := true })
  | .off =>
    if reloads d then s.modDom d (fun x => { x with rekindling := true })
    else s.modDom d (fun x => { x with waking := true })

/-- DAMPER_OPEN (R374, R375). -/
def damperOpenCmd (c : Cmd) (s : State) : State :=
  match openRefusal (cmdDomains c) s with
  | some st => respond c st [] s
  | none => startDamper c startOpen s

/-- DAMPER_OPEN, a lamp command. -/
def execDamperOpen (via : Transport) (s : State) : Host.Outcome State Fault Refusal := .next (runCmd via 0x41 damperOpenCmd s)

/-- The frame header at an image offset; its data are left out. -/
def headAt (s : State) (off : Nat) : Fr :=
  let h := s.imgBytes off 16
  { type := leAt h 0 1, cfa := leAt h 4 4, len := leAt h 8 4, aux := leAt h 12 4, data := [], off := off, idx := 0 }

/-- The headers of the next `n` frames from an image offset on. -/
def walkHeads (s : State) : Nat → Nat → List Fr
  | 0, _ => []
  | n + 1, off => headAt s off :: walkHeads s n (off + (headAt s off).len + 24)

/-- The frame of a header, with its data. -/
def withData (s : State) (f : Fr) : Fr := { f with data := s.imgBytes (f.off + 16) f.len }

/-- The frame fails its FRAME_CRC or R21 (R376). -/
def reloadBad (s : State) (f : Fr) : Bool :=
  decide (crc32 (s.imgBytes f.off (16 + f.len)) ≠ wd (leNat (s.imgBytes (f.off + 16 + f.len) 4))) ||
    frameAbsent s.variant (withData s f)

/-- A part of the image that a reload reads: an offset, a length, and the frame that is checked there. -/
structure Item where
  off   : Nat
  len   : Nat
  frame : Option Fr
  deriving DecidableEq, Repr

/-- The item of a whole frame. -/
def frameItem (f : Fr) : Item := { off := f.off, len := f.len + 24, frame := some f }

/-- Reads the items in order, every code word that each touches (R129, R376): the status of the first failure. -/
def readItems : List Item → State → Nat × State
  | [], s => (stSuccess, s)
  | i :: r, s =>
    let w := (s.img.base + i.off) / 32
    let n := (s.img.base + i.off + i.len + 31) / 32 - w
    match s.firstFatal w n with
    | some k => (stFlashEcc, (readWords (k + 1) w s).2)
    | none =>
      let s := (readWords n w s).2
      if i.frame.any (reloadBad s) then (stRange, s) else readItems r s

/-- The frames of the golden table that `p` picks by CFA. -/
def goldenFrames (s : State) (p : Nat → Bool) : List Fr :=
  (s.img.golden.filter (fun e => p e.cfa)).map (fun e => headAt s e.frameOff)

/-- The configuration frames of gallery g in the running image. -/
def galFrames (s : State) (g : Nat) : List Fr := goldenFrames s (fun c => decide (cfaKind c ≤ 2 ∧ cfaGal c = g))

/-- The CONTEXT_SEED frames of gallery g. -/
def galSeeds (g : Nat) (l : List Fr) : List Fr := l.filter (fun f => decide (f.type = 5 ∧ cfaGal f.cfa = g))

/-- What re-kindling gallery g reads (R376). -/
def rekindleItems (s : State) (g : Nat) (heads : List Fr) : List Item :=
  (heads.filter (fun f => decide (f.type = 0x0C))).map (fun f => { off := f.off + 16, len := f.len, frame := none }) ++
  (galFrames s g).map frameItem ++
  (heads.filter (fun f => decide (frameSection f.type = some 2))).map (fun f => { off := f.off, len := 16, frame := none }) ++
  (galSeeds g heads).map frameItem

/-- Every granule of bank `b` is primed. -/
def Gallery.bankPrimed (x : Gallery) (b : Nat) : Bool := (List.range 256).all (fun k => x.primed (256 * b + k))

/-- The gallery at power-up: contents lost (Table 4.4).  The bridge's staging area is not in the domain, the identities
of DMA transfers go on, and GAL_UNPRIMED stays reported for a bank that was never wholly primed (R219). -/
def freshGallery (x : Gallery) : Gallery :=
  { Gallery.reset with
    seq := { Seq.reset with nextDma := x.seq.nextDma }
    staging := x.staging, transit := x.transit
    unprimedEv := BitVec.ofNat 16 (maskOf 16 (fun b => hasBit x.unprimedEv b && !x.bankPrimed b)) }

/-- Applies a reloaded frame (R376 step 3). -/
def reloadFrame (s : State) (f : Fr) : State :=
  let d := (withData s f).data
  if f.type = 4 then s.modGal (cfaGal f.cfa) (loadTable d)
  else if f.type = 5 then s.modGal (cfaGal f.cfa) (writeSeed (withData s f))
  else writeFrame f.cfa d s

/-- The sequencer starts at its entry point (R178): the first instruction issues in the next cycle. -/
def Seq.start (q : Seq) : Seq :=
  { Seq.reset with prog := q.prog, entry := q.entry, pc := q.entry, st := .issuing, issued := true,
                   inputs := q.inputs, prev := q.prev, nextDma := q.nextDma }

/-- The reloaded gallery runs (R376 steps 3 to 5), memory unprimed. -/
def rebuildGallery (g : Nat) (fs : List Fr) (s : State) : State :=
  let s := fs.foldl reloadFrame (s.modGal g freshGallery)
  s.modGal g (fun x =>
    let x := loadInitPlanes s.clk.cyc x
    { x with allPrimed := false, granules := [], seq := x.seq.start })

/-- REKINDLE_DONE (R376): the gallery opens with its configuration from the running image, or stays off. -/
def execRekindleDone (g : Nat) (s : State) : Host.Outcome State Fault Refusal :=
  .next (
    if s.clocked && decide (g < 16) && (s.dom g).rekindling then
      let heads := walkHeads s s.img.index s.img.framesOff
      match readItems (rekindleItems s g heads) s with
      | (st, s) =>
        let s := if st = stSuccess then openDomain g (rebuildGallery g (galFrames s g ++ galSeeds g heads) s)
          else damperDone g false false (s.modDom g (fun x => { x with rekindling := false }))
        s.raise 0xD7 [BitVec.ofNat 8 g, BitVec.ofNat 8 st]
    else s)

/-- TINDER_RELOAD_DONE (R351, Table 21.4): the frames of the image, or the default configuration, with registers at
INIT; a frame that cannot be read leaves the domain off (note 44, DESIGN CHOICE). -/
def execTinderReloadDone (s : State) : Host.Outcome State Fault Refusal :=
  .next (
    if s.clocked && (s.dom 24).rekindling then
      let fs := goldenFrames s (fun c => decide (cfaKind c = 3))
      match readItems (fs.map frameItem) s with
      | (st, s) =>
        if st = stSuccess then
          let s := fs.foldl reloadFrame { s with tnd := { s.tnd with
            cfg := if s.tnd.fromImage then s.tnd.cfg else defaultTinder, default := !s.tnd.fromImage } }
          let q := s.mcInit
          openDomain 24 { s with tnd := { s.tnd with q := q, out := s.mcOut q } }
        else damperDone 24 false false (s.modDom 24 (fun x => { x with rekindling := false }))
    else s)

/-- WAKE_COMPLETE (R241, R375): a sleeping domain, or a port pair that was off, is open. -/
def execWakeComplete (d : Nat) (s : State) : Host.Outcome State Fault Refusal :=
  .next (
    if s.clocked && (s.dom d).waking then
      let fresh := decide ((s.dom d).st = .off)
      let s := openDomain d (reportLapse d s)
      if 16 ≤ d ∧ d < 24 then (s.pairPorts d).foldl (fun s p => portReturns fresh p s) s else s
    else s)

end Sys2Proof.Machine
end

