-- ==== Sys2Proof/Machine/Kindle.lean ====
section
/-!
DEFINITION. Kindling (chapter 5): bring-up, the start-up steps, the shared KINDLED line, user mode, the warm reset, and the
host-load commands.
-/

namespace Sys2Proof.Machine

/-- The warnings with which a kindling starts: RV_SUBST (Table 5.3). -/
def State.firstWarnings (s : State) : BitVec 4 := if s.board.rvFlags = 0 then 0 else 8

/-- KEEPER_CYCLE_16 (R41, Tables 3.8 and 5.1): the inventory becomes valid, doubtful readings are reported, the lamp pair
and the endpoint start, and STRAP_SCAN banks the device. -/
def execKeeperCycle16 (s : State) : Host.Outcome State Fault Refusal :=
  .next (inPhase 0 (fun s =>
    let s := { s with
      board := { s.board with valid := true }, kin := { s.kin with warnings := s.firstWarnings }
      lamp := { s.lamp with pairOn := decide (s.rv 6 ≠ 0) }, pcie := { s.pcie with started := decide (s.rv 4 ≠ 0) } }
    let s := if s.board.rvFlags = 0 then s else s.raise 0xF9 (leBytes 4 s.board.rvFlags.toNat)
    if hasBit s.board.straps 0 then bank 0x10 0 s else toPhase 1 s) s)

/-- A port at the start of a kindling: what its pins show stays (chapter 25). -/
def Port.atPowerUp (q : Port) : Port :=
  { Port.reset with present := q.present, signal := q.signal, faults := q.faults, faultKind := q.faultKind }

/-- DOMAIN_POWER_UP (R78): the next present domain powers up, or its rail is not good and the device banks.  After the
last one the journal is scanned, or a second host load reads its header (R98). -/
def execDomainPowerUp (good : Bool) (s : State) : Host.Outcome State Fault Refusal :=
  .next (inPhase 1 (fun s =>
    match s.domOrder[s.kin.poweredUp]? with
    | none => s
    | some d =>
      if !good then bank 0x16 d s
      else
        let s := s.modDom d (fun _ => { Dom.reset with st := .on })
        let s := { s with
          kin := { s.kin with poweredUp := s.kin.poweredUp + 1 }
          pwr := { s.pwr with critical := (List.range 25).any (fun k => (s.dom k).critical) } }
        let s := if d < 16 then s.modGal d (fun _ => Gallery.reset)
          else if d < 24 then (s.pairPorts d).foldl (fun s p => s.modPort p Port.atPowerUp) s
          else s
        if s.kin.poweredUp < s.domOrder.length then s
        else if s.img.host then answerChunks (toPhase 4 s)
        else toPhase 2 s) s)

/-- STRAP_KSHARE (Table 3.7). -/
def State.kshare (s : State) : Bool := hasBit s.board.straps 1

/-- User mode (R95, R89, R391): the status, the events held back, and the units that start with it. -/
def enterUser (s : State) : State :=
  let s := { s with kin := { s.kin with phase := 9, code := 1 } }
  let s := if s.img.host then
      { s with sweep := { s.sweep with crcs := (s.img.golden.take 8192).map (fun e => (cfaNorm e.cfa, e.gcrc)) } }
    else s
  let s := if s.assayCtrl 0 then startAssay s else s
  (raiseDeferred s).raise 0x10 (leBytes 4 s.kindleStatus ++ leBytes 8 (s.pair 0x24))

/-- The hold point, when as many steps as it names are complete (R86, R90): alone the device releases KINDLED and goes on
at once; on a shared line it waits in phase HOLD.  With every step complete it enters user mode. -/
def reachHold (s : State) : State :=
  let s := if s.kin.steps = s.img.hold then
      (if s.kshare then { s with kin := { s.kin with phase := 8, holdAt := some s.clk.cyc } }
       else { s with kin := { s.kin with pullDown := false, holdAt := some s.clk.cyc } })
    else s
  if s.kin.steps = 4 ∧ s.kin.phase = 7 then enterUser s else s

/-- Start-up step `i` (0 lock wait, 1 output release, 2 GSR release, 3 write enable) is the next one (R86). -/
def State.nextStep (s : State) (i : Nat) : Bool :=
  s.clocked && decide (s.kin.phase = 7 ∧ s.kin.steps < 4 ∧ s.img.stepPos.getD i 4 = s.kin.steps)

/-- The start tick of the last step is recorded when no line is shared (Table 5.3). -/
def noteLast (t : Tick) (s : State) : State := if s.kshare then s else s.putPair 0x24 t.toNat

/-- Start-up step `i` ends; its successor starts after its own delay, one cycle later when this one takes one (Table 5.2,
R103). -/
def endStep (i : Nat) (s : State) : State :=
  let took := if i = 0 then 0 else 1
  let s := if s.kin.steps = 3 ∧ i ≠ 0 then noteLast s.clk.tick s else s
  let s := { s with kin := { s.kin with steps := s.kin.steps + 1 } }
  let last := (firstBelow 4 (fun k => decide (s.img.stepPos.getD k 4 = 3))).getD 0
  let s := if s.kin.steps = 3 then noteLast (s.clk.tick + BitVec.ofNat 64 (took + s.img.stepDelay.getD last 0)) s else s
  reachHold s

/-- END_FRAME (R82, R84, R86, R117): the steps follow, and the hold point when it comes before all of them. -/
def execEndFrame (s : State) : Host.Outcome State Fault Refusal :=
  .next (
    let t := loadEnd s
    if s.kin.phase = 6 ∧ t.kin.phase = 7 then reachHold t else t)

/-- The port's links are up (R87). -/
def State.portUp (s : State) (p : Nat) : Bool :=
  let ls := [false, true].filterMap (fun tx => s.linkOf p tx)
  if s.protocol p = 2 then s.seamUp p else !ls.isEmpty && ls.all (fun l => decide ((s.port l).linkSt = 6))

/-- The ports marked for lock at kindling whose link is not up (R87). -/
def State.portsNotUp (s : State) : Nat := maskOf 16 (fun p => s.variant.hasPort p && (s.port p).lockAt && !s.portUp p)

/-- The lock conditions (R87). -/
def State.lockMet (s : State) : Bool := (s.clk.aligned || s.syncIgnored) && decide (s.portsNotUp = 0)

/-- LOCK_WAIT (R87). -/
def execLockWait (s : State) : Host.Outcome State Fault Refusal :=
  .next (if s.nextStep 0 && s.lockMet then endStep 0 s else s)

/-- LOCK_LIMIT_EXPIRY (R87). -/
def execLockLimitExpiry (s : State) : Host.Outcome State Fault Refusal :=
  .next (
    if !s.nextStep 0 || s.lockMet then s
    else if s.img.strict then bank 0x50 0 s
    else
      let n := s.portsNotUp
      let s := { s with kin := { s.kin with warnings := s.kin.warnings ||| 1 } }
      endStep 0 (s.raise 0x13 (leBytes 2 n ++ [if s.clk.aligned then 1 else 0])))

/-- OUTPUT_RELEASE (R88). -/
def execOutputRelease (s : State) : Host.Outcome State Fault Refusal :=
  .next (if s.nextStep 1 then endStep 1 { s with kin := { s.kin with outputs := true } } else s)

/-- GSR_RELEASE (R86, R178, R350). -/
def execGsrRelease (s : State) : Host.Outcome State Fault Refusal :=
  .next (
    if s.nextStep 2 then
      let s := { s with kin := { s.kin with gsr := false } }
      let s := s.galList.foldl (fun s g => if s.galOn g then s.modSeq g Seq.start else s) s
      let q := s.mcInit
      endStep 2 { s with tnd := { s.tnd with q := q, out := s.mcOut q } }
    else s)

/-- WRITE_ENABLE (R89). -/
def execWriteEnable (s : State) : Host.Outcome State Fault Refusal :=
  .next (if s.nextStep 3 then endStep 3 { s with kin := { s.kin with writeEn := true } } else s)

/-- KINDLED_RELEASE (R91): on a shared line, in a cycle whose tick count is a multiple of 4,096; alone the release comes
with the hold point itself (R90). -/
def execKindledRelease (s : State) : Host.Outcome State Fault Refusal :=
  .next (inPhase 8 (fun s =>
    if s.clk.tick.toNat % 4096 = 0 then { s with kin := { s.kin with pullDown := false } } else s) s)

/-- The entry tick E is two periods after S (R91). -/
def fixEntry (sTick : Nat) (s : State) : State :=
  let e := BitVec.ofNat 64 (sTick + 8192)
  ({ s with kin := { s.kin with entry := some e } } : State).putPair 0x24 e.toNat

/-- KINDLED_HIGH (R91, R92): d is this tick; a late rise is reported and S is used all the same. -/
def execKindledHigh (s : State) : Host.Outcome State Fault Refusal :=
  .next (inPhase 8 (fun s =>
    if s.kin.pullDown || s.kin.entry.isSome then s
    else
      let d := s.clk.tick.toNat
      let s := if 2048 ≤ d % 4096 then
          ({ s with kin := { s.kin with warnings := s.kin.warnings ||| 4 } } : State).raise 0x14 (leBytes 2 (d % 4096))
        else s
      fixEntry (d - d % 4096) s) s)

/-- KINDLE_ENTRY (R91): the count is E or greater, and the steps behind the hold point start. -/
def execKindleEntry (s : State) : Host.Outcome State Fault Refusal :=
  .next (inPhase 8 (fun s =>
    match s.kin.entry with
    | some e =>
      if e.toNat ≤ s.clk.tick.toNat then
        let s := toPhase 7 s
        if s.kin.steps = 4 then enterUser s else s
      else s
    | none => s) s)

/-- HOLD_TIMEOUT (R93, R99): with KINDLED still low the device banks, or goes on alone; a time of 0 never expires. -/
def execHoldTimeout (s : State) : Host.Outcome State Fault Refusal :=
  .next (inPhase 8 (fun s =>
    let v := s.par 0x22
    if s.kin.entry.isSome || decide (fld v 23 0 = 0) then s
    else
      let s := { s with kin := { s.kin with pullDown := false } }
      if v.getLsbD 31 then
        let t := s.clk.tick.toNat
        let s := { s with kin := { s.kin with warnings := s.kin.warnings ||| 2 } }
        fixEntry ((t + 4095) / 4096 * 4096) (s.raise 0x12 [])
      else bank 0x51 0 s) s)

/-- A parameter that a warm reset keeps (R326; the FLASH parameters and the erase counts belong to the flash). -/
def warmKeeps (n : Nat) : Bool :=
  decide ((0x200 ≤ n ∧ n ≤ 0x24F) ∨ (0x300 ≤ n ∧ n ≤ 0x306) ∨ (0x3D00 ≤ n ∧ n ≤ 0x3D0A) ∨ (0x3800 ≤ n ∧ n ≤ 0x3805))

/-- A target with a state of its own outside the galleries, ports and the Tinder fabric: mesh service nodes. -/
def isService (t : Target) : Bool := match t with | .gal _ => false | .port _ => false | .tinder => false | _ => true

/-- A packet between service nodes only, which a warm reset leaves alone. -/
def servicePacket (p : Packet) : Bool := isService (targetAt p.sx p.sy p.sport) && isService (targetAt p.dx p.dy p.dport)

/-- A warm reset (Table 4.6, R76): galleries, ports, Tinder, reservations, parameters and the report queue are cleared,
and kindling starts at domain power-up.  Flash commands and reads of the service nodes go on (R135). -/
def warmReset (s : State) : State :=
  let keep := fun (l : List Flying) => l.filter (fun f => servicePacket f.pkt)
  { s with
    clk := { s.clk with resetSrc := 4
                        deferred := { event := 0x00, data := [4] } :: s.clk.deferred.filter (fun e => decide (e.event ≠ 0)) }
    pwr := { s.pwr with
      highRun := 0, clipCyc := none, marginDuty := [], marginOk := [], frozenDuty := []
      domains := tabBlock Dom.reset [] 0 25 (fun d => { Dom.reset with critical := (s.dom d).critical }) }
    kin := { Kindle.reset with phase := 1, warnings := s.firstWarnings }
    img := Image.reset
    lamp := { s.lamp with
      dampers := []
      running := s.lamp.running.filter (fun c => decide ((0x20 ≤ c.type ∧ c.type ≤ 0x23) ∨ c.type = 0x46)) }
    evt := { Events.reset with queueMax := s.evt.queueMax }
    params := s.params.filter (fun p => warmKeeps p.1)
    staged := s.staged.filter (fun p => warmKeeps p.1)
    gals := []
    mesh := { s.mesh with
      ready := s.mesh.ready.filter servicePacket, flight := keep s.mesh.flight, gtWait := [], held := keep s.mesh.held
      pressed := keep s.mesh.pressed
      trans := s.mesh.trans.filter (fun t =>
        isService (targetAt (nodeX t.node) (nodeY t.node) t.port) &&
          (match t.purpose with | .icp _ _ _ _ => false | _ => true)) }
    ports := tabBlock Port.reset [] 0 16 (fun p => (s.port p).atPowerUp)
    tnd := { Tinder.reset with lines := s.tnd.lines, lineHist := s.tnd.lineHist }
    sweep := Sweep.reset, assay := Assay.reset, capt := Capture.reset, pins := { s.pins with counts := [] } }

/-- RESET (R309): the response leaves first; only scope 0 is defined. -/
def resetCmd (c : Cmd) (s : State) : State :=
  if byteAt c.body 0 ≠ 0 then respond c stRange [] s else warmReset (respond c stSuccess [] s)

/-- RESET, a lamp command. -/
def execReset (via : Transport) (s : State) : Host.Outcome State Fault Refusal := .next (runCmd via 0x03 resetCmd s)

/-- RV_BOOT takes a host load on this transport (R98). -/
def State.loadsFrom (s : State) (via : Transport) : Bool :=
  match via with
  | .pcie => decide (s.rv 7 = 3 ∨ s.rv 7 = 11)
  | .lampPair => decide (s.rv 7 = 4 ∨ s.rv 7 = 12)

/-- A new host load from the banked state (R96, R98): the domains power up again, and KINDLED is not pulled low again
(R94). -/
def loadAgain (len : Nat) (s : State) : State :=
  let s := { s with
    kin := { Kindle.reset with phase := 1, warnings := s.firstWarnings, journalOk := true, pullDown := s.kin.pullDown }
    img := { Image.reset with host := true, hostLen := len, block := s.img.block, blockOk := s.img.blockOk,
                              keyHash := s.img.keyHash, defEntry := s.img.defEntry } }
  recordImage ((((s.putPar 0x21 0).putPar 0x22 0x3E8).putPar 0x1A 0).putPar 0x1B 0)

/-- IMAGE_BEGIN (R98, R309). -/
def imageBeginCmd (c : Cmd) (s : State) : State :=
  let len := leAt c.body 0 4
  if !s.loadsFrom c.via then respond c stNotReady [] s
  else if s.kin.phase = 11 then
    respond c stSuccess [] (toPhase 4 { s with img := { s.img with hostLen := len, hostBytes := [] } })
  else if s.banked && s.img.host then respond c stSuccess [] (loadAgain len s)
  else respond c stNotReady [] s

/-- IMAGE_BEGIN, a lamp command. -/
def execImageBegin (via : Transport) (s : State) : Host.Outcome State Fault Refusal := .next (runCmd via 0x30 imageBeginCmd s)

/-- A host load is under way. -/
def State.loading (s : State) : Bool := s.img.host && decide (s.kin.phase = 1 ∨ (4 ≤ s.kin.phase ∧ s.kin.phase ≤ 6))

/-- IMAGE_DATA (R309): the next chunk in order; it is answered when the engine has consumed it. -/
def imageDataCmd (c : Cmd) (s : State) : State :=
  let n := c.body.length - 8
  let at' := leAt c.body 0 4
  if !s.loadsFrom c.via || !s.loading then respond c stNotReady [] s
  else if n = 0 ∨ 2016 < n ∨ at' ≠ s.img.hostBytes.length ∨ s.img.hostLen < at' + n then respond c stRange [] s
  else answerChunks (startCmd c { s with img := { s.img with hostBytes := s.img.hostBytes ++ c.body.drop 8 } })

/-- IMAGE_DATA, a lamp command. -/
def execImageData (via : Transport) (s : State) : Host.Outcome State Fault Refusal := .next (runCmd via 0x31 imageDataCmd s)

/-- IMAGE_ABORT (R98, R309): while a host load is awaited or under way. -/
def imageAbortCmd (c : Cmd) (s : State) : State :=
  if s.loadsFrom c.via && (s.loading || decide (s.kin.phase = 11)) then bank 0x52 0 (respond c stSuccess [] s)
  else respond c stNotReady [] s

/-- IMAGE_ABORT, a lamp command. -/
def execImageAbort (via : Transport) (s : State) : Host.Outcome State Fault Refusal := .next (runCmd via 0x32 imageAbortCmd s)

end Sys2Proof.Machine
end

