-- ==== Sys2Proof/Machine/Cycle.lean ====
section
/-!
DEFINITION. One core cycle of the block, which passes when no command waits (note 2, DESIGN CHOICE): the tick count and the keeper phase
(R57, R58, R60), the trigger fabric, and what every gallery does by itself in a cycle.
-/

namespace Sys2Proof.Machine

/-- The tick count of the next cycle: one more, or TB_SYNC_LOAD when an alignment falls due (R58). -/
def State.nextTick (s : State) : Tick :=
  if s.clk.loadIn = some 1 then BitVec.ofNat 64 (s.pair 0x3D04) else s.clk.tick + 1

/-- Core cycles left in a keeper cycle after one more core cycle (R57). -/
def keeperNext (left : Nat) : Nat := if left ≤ 1 then 8 else left - 1

/-- The keeper cycle is stretched, never shortened, to end at a tick count that is a multiple of 8 (R57). -/
def stretch (t : Tick) (left : Nat) : Nat := left + (8 - (t.toNat + left) % 8) % 8

/-- An alignment has loaded the count (R58–R61, R253): a step is recorded and reported, and subclass-1 links go down. -/
def alignAt (old : Tick) (s : State) : State :=
  let step := s.clk.tick - (old + 1)
  let s := ({ s with clk := { s.clk with
      aligned := true, loadIn := none, keeperLeft := stretch s.clk.tick s.clk.keeperLeft } } : State).putPar 0x3D08 0
  if step = 0 then s
  else stepLinks ((s.putPair 0x3D09 step.toNat).raise 0x03 (leBytes 8 step.toNat))

/-- The clock moves on by one core cycle. -/
def tickClock (s : State) : State :=
  let old := s.clk.tick
  let due := decide (s.clk.loadIn = some 1)
  let s := { s with clk := { s.clk with
    tick := s.nextTick, cyc := s.clk.cyc + 1, keeperLeft := keeperNext s.clk.keeperLeft
    loadIn := s.clk.loadIn.map (· - 1) } }
  if due then alignAt old s else s

/-- The sequencer stops in the damped state at once under a damper request when it waits, has halted or has faulted
(R190). -/
def Seq.dampsAtOnce (q : Seq) : Bool :=
  match q.st with
  | .waiting _ => true
  | .waitt _ _ _ _ => true
  | .halt => true
  | .fault => true
  | _ => false

/-- Words move over the wires of a live gallery, and planes drain (R157, R195). -/
def moveWires (x : Gallery) : Gallery :=
  { x with wires := x.nextWires, nextWires := [], edgeIn := [], edgeBusy := false
           planes := (x.planes.map (fun p => (p.1, { p.2 with drain := p.2.drain - 1 }))).filter (fun p =>
             decide (p.2 ≠ Plane.reset)) }

/-- The levels TI0–TI15 and HC0–HC3 of the next cycle (Table 20.7, R182): the route values of the cycle before this one,
and the hearth-flag lines of the cycle before this one. -/
def nextInputs (s : State) (g : Nat) (hc : BitVec 4) : BitVec 20 :=
  let r := s.tnd.routeHist.getD 1 0
  BitVec.ofNat 20 (maskOf 20 (fun i => if i < 16 then hasBit r (16 * g + i) else hasBit hc (i - 16)))

/-- The rising edges of HF0–HF3 are counted (R144). -/
def countHf (g : Nat) (rise : BitVec 4) (s : State) : State :=
  if rise = 0 then s else (setBits 4 rise.toNat).foldl (fun s n => s.tally (galP g (0x61 + n)) 1) s

/-- Cycles with the clock enable high, and cycles gated under R70, are counted. -/
def countDuty (g : Nat) (s : State) : State :=
  if s.enabled g then s.tally64 (galP g 0x67) 1
  else if s.stopped g then s
  else s.tally64 (galP g 0x69) 1

/-- The end of one core cycle at gallery g, after the trigger fabric has moved on. -/
def galCycle (g : Nat) (s : State) : State :=
  let ins := nextInputs s g ((s.gal g).hfHist.getD 0 0)
  if !s.galOn g then
    (if (s.gal g).hf = 0 ∧ (s.gal g).hfHist = [] then s else s.modGal g (fun x => { x with hf := 0, hfHist := [] }))
  else
    let live := s.live g
    let s := countDuty g s
    let s := if live then hearthCycle g s else s
    let s := bankCycle g s
    let s := dmaCycle g s
    let s := seqCycle g s
    let damp := s.damping g
    let s := s.modGal g (fun x =>
      let x := { (if live then moveWires x else x) with edgeOut := [] }
      { x with seq := { x.seq with damped := x.seq.damped || (damp && x.seq.dampsAtOnce), inputs := ins } })
    let s := switchNow g s
    let hf := if s.kin.gsr then 0 else hfLines (s.gal g)
    let rise := hf &&& ~~~(s.gal g).hf
    countHf g rise (s.modGal g (fun x => { x with hf := hf, hfHist := [x.hf] }))

/-- STAR_OUT is off in these modes of RV_TRIG (Table 3.10). -/
def State.starOutOff (s : State) : Bool := decide (s.rvTrig = 0 ∨ s.rvTrig = 1 ∨ s.rvTrig = 4 ∨ s.rvTrig = 5)

/-- The trigger fabric moves on, and the drivers take the route values of three cycles before this one (Table 20.7). -/
def triggerCycle (s : State) : State :=
  let s := tndCycle s.nextTick s
  let d := s.drive (s.tnd.routeHist.getD 3 0) s.listen s.starOutOff
  { s with tnd := { s.tnd with driven := d } }

/-- One core cycle: nothing passes while the core clock does not run. -/
def coreCycle (s : State) : State :=
  if s.clocked then
    let s := triggerCycle s
    let s := s.galList.foldl (fun s g => galCycle g s) s
    let s := tickClock s
    if s.clk.tick.toNat % 64 = 0 then endSlotFrame s else s
  else s

end Sys2Proof.Machine
end

