-- ==== Sys2Proof/Machine/Dispatch.lean ====
section
/-!
DEFINITION. The dispatcher: one arm per command, each a direct call of its meaning.
-/

namespace Sys2Proof.Machine

/-- The effect of a command on everything but the queue. -/
def exec (i : Instr) (s : State) : Host.Outcome State Fault Refusal :=
  match i with
  | .coldReset => Sys2Proof.Machine.execColdReset s
  | .coldRstnRise straps moving ratios railsGood => Sys2Proof.Machine.execColdRstnRise straps moving ratios railsGood s
  | .refLost => Sys2Proof.Machine.execRefLost s
  | .pllUnlock => Sys2Proof.Machine.execPllUnlock s
  | .refPresent => Sys2Proof.Machine.execRefPresent s
  | .stopWaitExpiry => Sys2Proof.Machine.execStopWaitExpiry s
  | .relockTimeout => Sys2Proof.Machine.execRelockTimeout s
  | .clockStartFail missing => Sys2Proof.Machine.execClockStartFail missing s
  | .pllLock periods => Sys2Proof.Machine.execPllLock periods s
  | .beaconFrame => Sys2Proof.Machine.execBeaconFrame s
  | .brownOut rail => Sys2Proof.Machine.execBrownOut rail s
  | .railRecovered => Sys2Proof.Machine.execRailRecovered s
  | .syncCapture marginal => Sys2Proof.Machine.execSyncCapture marginal s
  | .syncAbsent => Sys2Proof.Machine.execSyncAbsent s
  | .tbAlign v => Sys2Proof.Machine.execTbAlign v s
  | .avsEvaluation low high => Sys2Proof.Machine.execAvsEvaluation low high s
  | .thermAlert tj sensor => Sys2Proof.Machine.execThermAlert tj sensor s
  | .thermTrip tj => Sys2Proof.Machine.execThermTrip tj s
  | .thermGateStep tj => Sys2Proof.Machine.execThermGateStep tj s
  | .thermCritical tj sensor => Sys2Proof.Machine.execThermCritical tj sensor s
  | .keeperCycle16 => Sys2Proof.Machine.execKeeperCycle16 s
  | .domainPowerUp good => Sys2Proof.Machine.execDomainPowerUp good s
  | .journalScan upsets => Sys2Proof.Machine.execJournalScan upsets s
  | .bootRecordRead upsets => Sys2Proof.Machine.execBootRecordRead upsets s
  | .imageSelect upsets => Sys2Proof.Machine.execImageSelect upsets s
  | .imageHeaderCheck upsets => Sys2Proof.Machine.execImageHeaderCheck upsets s
  | .signatureCheck => Sys2Proof.Machine.execSignatureCheck s
  | .contextTable => Sys2Proof.Machine.execContextTable s
  | .planeFrame => Sys2Proof.Machine.execPlaneFrame s
  | .switchFrame => Sys2Proof.Machine.execSwitchFrame s
  | .sequencerFrame => Sys2Proof.Machine.execSequencerFrame s
  | .tinderFrame => Sys2Proof.Machine.execTinderFrame s
  | .portDefaults => Sys2Proof.Machine.execPortDefaults s
  | .contextSeed => Sys2Proof.Machine.execContextSeed s
  | .memPreload => Sys2Proof.Machine.execMemPreload s
  | .fillRun => Sys2Proof.Machine.execFillRun s
  | .paramDefaults => Sys2Proof.Machine.execParamDefaults s
  | .essentialMap => Sys2Proof.Machine.execEssentialMap s
  | .goldenTable => Sys2Proof.Machine.execGoldenTable s
  | .endFrame => Sys2Proof.Machine.execEndFrame s
  | .lockWait => Sys2Proof.Machine.execLockWait s
  | .lockLimitExpiry => Sys2Proof.Machine.execLockLimitExpiry s
  | .outputRelease => Sys2Proof.Machine.execOutputRelease s
  | .gsrRelease => Sys2Proof.Machine.execGsrRelease s
  | .writeEnable => Sys2Proof.Machine.execWriteEnable s
  | .kindledRelease => Sys2Proof.Machine.execKindledRelease s
  | .kindledHigh => Sys2Proof.Machine.execKindledHigh s
  | .kindleEntry => Sys2Proof.Machine.execKindleEntry s
  | .holdTimeout => Sys2Proof.Machine.execHoldTimeout s
  | .kindleHoldTimeout v => Sys2Proof.Machine.execKindleHoldTimeout v s
  | .lampFrameRx bytes => Sys2Proof.Machine.execLampFrameRx bytes s
  | .ownerTimeout => Sys2Proof.Machine.execOwnerTimeout s
  | .ping via => Sys2Proof.Machine.execPing via s
  | .release via => Sys2Proof.Machine.execRelease via s
  | .reset via => Sys2Proof.Machine.execReset via s
  | .get via => Sys2Proof.Machine.execGet via s
  | .set via => Sys2Proof.Machine.execSet via s
  | .paramWrite n v => Sys2Proof.Machine.execParamWrite n v s
  | .getPair via => Sys2Proof.Machine.execGetPair via s
  | .flashRead via upsets => Sys2Proof.Machine.execFlashRead via upsets s
  | .flashProgram via => Sys2Proof.Machine.execFlashProgram via s
  | .flashProgramDone => Sys2Proof.Machine.execFlashProgramDone s
  | .flashErase via => Sys2Proof.Machine.execFlashErase via s
  | .flashEraseDone clean => Sys2Proof.Machine.execFlashEraseDone clean s
  | .flashSwap via => Sys2Proof.Machine.execFlashSwap via s
  | .flashSwapDone clean => Sys2Proof.Machine.execFlashSwapDone clean s
  | .imageBegin via => Sys2Proof.Machine.execImageBegin via s
  | .imageData via => Sys2Proof.Machine.execImageData via s
  | .imageAbort via => Sys2Proof.Machine.execImageAbort via s
  | .damperClose via => Sys2Proof.Machine.execDamperClose via s
  | .damperSequencerDamped g => Sys2Proof.Machine.execDamperSequencerDamped g s
  | .damperDrained g => Sys2Proof.Machine.execDamperDrained g s
  | .drainLimitExpiry g => Sys2Proof.Machine.execDrainLimitExpiry g s
  | .portPairDrained p => Sys2Proof.Machine.execPortPairDrained p s
  | .portDrainExpiry p => Sys2Proof.Machine.execPortDrainExpiry p s
  | .powerDownComplete d => Sys2Proof.Machine.execPowerDownComplete d s
  | .damperOpen via => Sys2Proof.Machine.execDamperOpen via s
  | .rekindleDone g => Sys2Proof.Machine.execRekindleDone g s
  | .tinderReloadDone => Sys2Proof.Machine.execTinderReloadDone s
  | .galReset via => Sys2Proof.Machine.execGalReset via s
  | .portReset via => Sys2Proof.Machine.execPortReset via s
  | .configWrite via => Sys2Proof.Machine.execConfigWrite via s
  | .memFill via => Sys2Proof.Machine.execMemFill via s
  | .memRead via => Sys2Proof.Machine.execMemRead via s
  | .memWrite via => Sys2Proof.Machine.execMemWrite via s
  | .captArm via => Sys2Proof.Machine.execCaptArm via s
  | .captRelease via => Sys2Proof.Machine.execCaptRelease via s
  | .captRead via => Sys2Proof.Machine.execCaptRead via s
  | .captureTaken => Sys2Proof.Machine.execCaptureTaken s
  | .eventTake => Sys2Proof.Machine.execEventTake s
  | .reportSend => Sys2Proof.Machine.execReportSend s
  | .cmdSlotWrite slot off bytes => Sys2Proof.Machine.execCmdSlotWrite slot off bytes s
  | .cmdDoorbell v => Sys2Proof.Machine.execCmdDoorbell v s
  | .rspAck => Sys2Proof.Machine.execRspAck s
  | .slotCopy => Sys2Proof.Machine.execSlotCopy s
  | .ringDoorbell v => Sys2Proof.Machine.execRingDoorbell v s
  | .ringArm v => Sys2Proof.Machine.execRingArm v s
  | .bar2Write off bytes enables => Sys2Proof.Machine.execBar2Write off bytes enables s
  | .bar2Read off len tag => Sys2Proof.Machine.execBar2Read off len tag s
  | .bar2ReadComplete tag => Sys2Proof.Machine.execBar2ReadComplete tag s
  | .upstreamWrite k => Sys2Proof.Machine.execUpstreamWrite k s
  | .upstreamMsix k => Sys2Proof.Machine.execUpstreamMsix k s
  | .pcieConfigRequest write reg v => Sys2Proof.Machine.execPcieConfigRequest write reg v s
  | .pcieReset => Sys2Proof.Machine.execPcieReset s
  | .pcieLinkDown => Sys2Proof.Machine.execPcieLinkDown s
  | .pcieLinkUp width gen => Sys2Proof.Machine.execPcieLinkUp width gen s
  | .pass g h => Sys2Proof.Machine.execPass g h s
  | .dly g h => Sys2Proof.Machine.execDly g h s
  | .add g h => Sys2Proof.Machine.execAdd g h s
  | .sub g h => Sys2Proof.Machine.execSub g h s
  | .neg g h => Sys2Proof.Machine.execNeg g h s
  | .abs g h => Sys2Proof.Machine.execAbs g h s
  | .min g h => Sys2Proof.Machine.execMin g h s
  | .max g h => Sys2Proof.Machine.execMax g h s
  | .and g h => Sys2Proof.Machine.execAnd g h s
  | .or g h => Sys2Proof.Machine.execOr g h s
  | .xor g h => Sys2Proof.Machine.execXor g h s
  | .not g h => Sys2Proof.Machine.execNot g h s
  | .shl g h => Sys2Proof.Machine.execShl g h s
  | .shr g h => Sys2Proof.Machine.execShr g h s
  | .shra g h => Sys2Proof.Machine.execShra g h s
  | .rot g h => Sys2Proof.Machine.execRot g h s
  | .clz g h => Sys2Proof.Machine.execClz g h s
  | .popc g h => Sys2Proof.Machine.execPopc g h s
  | .mul g h => Sys2Proof.Machine.execMul g h s
  | .mulh g h => Sys2Proof.Machine.execMulh g h s
  | .mac g h => Sys2Proof.Machine.execMac g h s
  | .msu g h => Sys2Proof.Machine.execMsu g h s
  | .rnd g h => Sys2Proof.Machine.execRnd g h s
  | .cmp g h => Sys2Proof.Machine.execCmp g h s
  | .sel g h => Sys2Proof.Machine.execSel g h s
  | .div g h => Sys2Proof.Machine.execDiv g h s
  | .rem g h => Sys2Proof.Machine.execRem g h s
  | .pack g h => Sys2Proof.Machine.execPack g h s
  | .unpk g h => Sys2Proof.Machine.execUnpk g h s
  | .ld g h => Sys2Proof.Machine.execLd g h s
  | .st g h => Sys2Proof.Machine.execSt g h s
  | .trackWord g => Sys2Proof.Machine.execTrackWord g s
  | .edgeIngress g => Sys2Proof.Machine.execEdgeIngress g s
  | .ingressBufferRelease g => Sys2Proof.Machine.execIngressBufferRelease g s
  | .bankDecision g b upsets => Sys2Proof.Machine.execBankDecision g b upsets s
  | .nop g => Sys2Proof.Machine.execNop g s
  | .halt g => Sys2Proof.Machine.execHalt g s
  | .ret g => Sys2Proof.Machine.execRet g s
  | .fence g => Sys2Proof.Machine.execFence g s
  | .fenceComplete g => Sys2Proof.Machine.execFenceComplete g s
  | .switch g => Sys2Proof.Machine.execSwitch g s
  | .prep g => Sys2Proof.Machine.execPrep g s
  | .wait g => Sys2Proof.Machine.execWait g s
  | .waitDone g => Sys2Proof.Machine.execWaitDone g s
  | .waitt g => Sys2Proof.Machine.execWaitt g s
  | .waittMet g => Sys2Proof.Machine.execWaittMet g s
  | .waittTimeout g => Sys2Proof.Machine.execWaittTimeout g s
  | .br g => Sys2Proof.Machine.execBr g s
  | .brc g => Sys2Proof.Machine.execBrc g s
  | .loop g => Sys2Proof.Machine.execLoop g s
  | .call g => Sys2Proof.Machine.execCall g s
  | .setf g => Sys2Proof.Machine.execSetf g s
  | .clrf g => Sys2Proof.Machine.execClrf g s
  | .emit g => Sys2Proof.Machine.execEmit g s
  | .capt g => Sys2Proof.Machine.execCapt g s
  | .dma g => Sys2Proof.Machine.execDma g s
  | .dmaComplete g d => Sys2Proof.Machine.execDmaComplete g d s
  | .triggerEdge g k => Sys2Proof.Machine.execTriggerEdge g k s
  | .watchdogBite g => Sys2Proof.Machine.execWatchdogBite g s
  | .transferStart g upsets => Sys2Proof.Machine.execTransferStart g upsets s
  | .fillComplete g => Sys2Proof.Machine.execFillComplete g s
  | .spillComplete g => Sys2Proof.Machine.execSpillComplete g s
  | .configPortBoundary g => Sys2Proof.Machine.execConfigPortBoundary g s
  | .packetSend p err => Sys2Proof.Machine.execPacketSend p err s
  | .gtWindowSend k => Sys2Proof.Machine.execGtWindowSend k s
  | .meshWrite k => Sys2Proof.Machine.execMeshWrite k s
  | .meshReadReq k => Sys2Proof.Machine.execMeshReadReq k s
  | .meshReadRsp k => Sys2Proof.Machine.execMeshReadRsp k s
  | .meshError k => Sys2Proof.Machine.execMeshError k s
  | .meshMessage k => Sys2Proof.Machine.execMeshMessage k s
  | .meshWake k => Sys2Proof.Machine.execMeshWake k s
  | .meshConfig k => Sys2Proof.Machine.execMeshConfig k s
  | .transactionTimeout node port tag => Sys2Proof.Machine.execTransactionTimeout node port tag s
  | .wakeComplete d => Sys2Proof.Machine.execWakeComplete d s
  | .egressPacketClose g e => Sys2Proof.Machine.execEgressPacketClose g e s
  | .flowCommit f v => Sys2Proof.Machine.execFlowCommit f v s
  | .flowRelease f v => Sys2Proof.Machine.execFlowRelease f v s
  | .nocDeadSet v => Sys2Proof.Machine.execNocDeadSet v s
  | .nocDeadClear v => Sys2Proof.Machine.execNocDeadClear v s
  | .cdrLock u => Sys2Proof.Machine.execCdrLock u s
  | .shLock u => Sys2Proof.Machine.execShLock u s
  | .embLock u inverted => Sys2Proof.Machine.execEmbLock u inverted s
  | .idWindowDone u carried => Sys2Proof.Machine.execIdWindowDone u carried s
  | .releaseWaitDone u earliest latest => Sys2Proof.Machine.execReleaseWaitDone u earliest latest s
  | .linkDown u lane why => Sys2Proof.Machine.execLinkDown u lane why s
  | .sysrefCapture => Sys2Proof.Machine.execSysrefCapture s
  | .sysrefAbsent u => Sys2Proof.Machine.execSysrefAbsent u s
  | .sysrefArm u v => Sys2Proof.Machine.execSysrefArm u v s
  | .packetGroupRelease u bytes => Sys2Proof.Machine.execPacketGroupRelease u bytes s
  | .txStreamWrite k => Sys2Proof.Machine.execTxStreamWrite k s
  | .txFrameDue u => Sys2Proof.Machine.execTxFrameDue u s
  | .eqEvaluation u want => Sys2Proof.Machine.execEqEvaluation u want s
  | .portProtocol u v => Sys2Proof.Machine.execPortProtocol u v s
  | .linkCommit u v => Sys2Proof.Machine.execLinkCommit u v s
  | .linkDisable u v => Sys2Proof.Machine.execLinkDisable u v s
  | .seamBlockLock u => Sys2Proof.Machine.execSeamBlockLock u s
  | .seamTrainRx u block inverted => Sys2Proof.Machine.execSeamTrainRx u block inverted s
  | .seamTimeRx u block arrival => Sys2Proof.Machine.execSeamTimeRx u block arrival s
  | .seamTimeSend u => Sys2Proof.Machine.execSeamTimeSend u s
  | .seamUnitRx u block => Sys2Proof.Machine.execSeamUnitRx u block s
  | .seamIdleRx u block => Sys2Proof.Machine.execSeamIdleRx u block s
  | .seamNakRx u block => Sys2Proof.Machine.execSeamNakRx u block s
  | .seamReplayTimeout u => Sys2Proof.Machine.execSeamReplayTimeout u s
  | .seamBudgetExhausted u => Sys2Proof.Machine.execSeamBudgetExhausted u s
  | .seamPacketSend k => Sys2Proof.Machine.execSeamPacketSend k s
  | .seamRetrain u v => Sys2Proof.Machine.execSeamRetrain u v s
  | .triggerLineRx line level => Sys2Proof.Machine.execTriggerLineRx line level s
  | .tndCaptureArm => Sys2Proof.Machine.execTndCaptureArm s
  | .trigDriveEn v => Sys2Proof.Machine.execTrigDriveEn v s
  | .icpStageWrite k => Sys2Proof.Machine.execIcpStageWrite k s
  | .icpCommit g => Sys2Proof.Machine.execIcpCommit g s
  | .icpConfigSubmit k => Sys2Proof.Machine.execIcpConfigSubmit k s
  | .sweepPassStart => Sys2Proof.Machine.execSweepPassStart s
  | .sweepEntryDue flips upsets => Sys2Proof.Machine.execSweepEntryDue flips upsets s
  | .sweepRepairWrite => Sys2Proof.Machine.execSweepRepairWrite s
  | .sweepVoteFailure => Sys2Proof.Machine.execSweepVoteFailure s
  | .sweepHeartbeatTimeout => Sys2Proof.Machine.execSweepHeartbeatTimeout s
  | .sweepRestartDone => Sys2Proof.Machine.execSweepRestartDone s
  | .assaySegmentStart g h => Sys2Proof.Machine.execAssaySegmentStart g h s
  | .assaySegmentDone g h matched => Sys2Proof.Machine.execAssaySegmentDone g h matched s
  | .assayLinkUnit n d arrived => Sys2Proof.Machine.execAssayLinkUnit n d arrived s
  | .assayCycleDone => Sys2Proof.Machine.execAssayCycleDone s
  | .assayEnable v => Sys2Proof.Machine.execAssayEnable v s
  | .assayDisable v => Sys2Proof.Machine.execAssayDisable v s
  | .presnChange u present => Sys2Proof.Machine.execPresnChange u present s
  | .tallyReadStart u => Sys2Proof.Machine.execTallyReadStart u s
  | .tallyRetry u => Sys2Proof.Machine.execTallyRetry u s
  | .tallyReadDone u answer => Sys2Proof.Machine.execTallyReadDone u answer s
  | .tallyReread u v => Sys2Proof.Machine.execTallyReread u v s
  | .pinBiasProbe pin kind => Sys2Proof.Machine.execPinBiasProbe pin kind s
  | .driverReadbackFault pin kind => Sys2Proof.Machine.execDriverReadbackFault pin kind s
  | .timingLineReversed line => Sys2Proof.Machine.execTimingLineReversed line s
  | .tallyBusProbe bus line kind => Sys2Proof.Machine.execTallyBusProbe bus line kind s
  | .lampTxReadback kind => Sys2Proof.Machine.execLampTxReadback kind s
  | .presnNoAck u => Sys2Proof.Machine.execPresnNoAck u s
  | .prefetchFillAbandoned g => Sys2Proof.Machine.execPrefetchFillAbandoned g s
  | .timingReversedCleared line => Sys2Proof.Machine.execTimingReversedCleared line s
  | .msixHoldoffExpiry => Sys2Proof.Machine.execMsixHoldoffExpiry s
  | .seamSignalLost u => Sys2Proof.Machine.execSeamSignalLost u s

end Sys2Proof.Machine
end

