-- ==== Sys2Proof/WellFormed.lean ====
section
/-!
DEFINITION. Which commands are well formed: their operands lie in the ranges the spec gives the units they name.
The meanings are total all the same; a command that names no unit changes nothing.
-/

namespace Sys2Proof

/-- Gallery numbers are 0–15 (R14). -/
def okGal (g : Nat) : Bool := decide (g < 16)

/-- Port numbers are 0–15 (R14). -/
def okPort (s : Nat) : Bool := decide (s < 16)

/-- Hearth numbers are col × 8 + row, 0–127 (R112). -/
def okHearth (h : Nat) : Bool := decide (h < 128)

/-- Bank numbers are 0–15 (R205). -/
def okBank (b : Nat) : Bool := decide (b < 16)

/-- Domain numbers are 0–24 (R338). -/
def okDom (d : Nat) : Bool := decide (d < 25)

/-- Parameter numbers are 16 bits wide (chapter 18). -/
def okParam (n : Nat) : Bool := decide (n < 65536)

/-- A seam block holds a control word of 8 bytes and a payload of 32 (R263). -/
def okBlock (b : List Byte) : Bool := decide (b.length = 40)

/-- A packet's fields fit the header unit (Table 13.1) and its data the unit count it states. -/
def Packet.ok (p : Packet) : Bool :=
  decide (p.dx < 8 ∧ p.dy < 8 ∧ p.dport < 2 ∧ p.dcard < 16 ∧ p.sx < 8 ∧ p.sy < 8 ∧ p.sport < 2 ∧ p.scard < 16) &&
  decide (p.cmd < 8 ∧ p.tag < 4096 ∧ p.len ≤ 16 ∧ p.flow < 128 ∧ p.status < 256 ∧ p.addr < 2 ^ 48 ∧ p.code < 256) &&
  decide (p.data.length ≤ 512)

/-- The operands of a command lie in the ranges of the units they name. -/
def Instr.wf : Instr → Bool
  | .coldRstnRise _ _ ratios _ => decide (ratios.length = 8) && ratios.all (fun r => decide (r ≤ 10000))
  | .brownOut rail => decide (rail < 2)
  | .thermAlert _ k => decide (k ≤ 16)
  | .thermCritical _ k => decide (k ≤ 16)
  | .paramWrite n _ => okParam n
  | .damperSequencerDamped g | .damperDrained g | .drainLimitExpiry g | .rekindleDone g | .trackWord g
  | .edgeIngress g | .ingressBufferRelease g | .fillComplete g | .spillComplete g | .prefetchFillAbandoned g
  | .icpCommit g | .watchdogBite g | .transferStart g _ => okGal g
  | .configPortBoundary g => decide (g < 17)
  | .portPairDrained p | .portDrainExpiry p => decide (p < 8)
  | .powerDownComplete d | .wakeComplete d => okDom d
  | .cmdSlotWrite k off b => decide (k < 8 ∧ off + b.length ≤ 2048)
  | .bar2Write off b _ => decide (off < 2 ^ 36 ∧ b.length ≤ 512)
  | .bar2Read off n _ => decide (off < 2 ^ 36 ∧ 1 ≤ n ∧ n ≤ 4096)
  | .pass g h | .dly g h | .add g h | .sub g h | .neg g h | .abs g h | .min g h | .max g h | .and g h | .or g h
  | .xor g h | .not g h | .shl g h | .shr g h | .shra g h | .rot g h | .clz g h | .popc g h | .mul g h | .mulh g h
  | .mac g h | .msu g h | .rnd g h | .cmp g h | .sel g h | .div g h | .rem g h | .pack g h | .unpk g h | .ld g h
  | .st g h | .assaySegmentStart g h | .assaySegmentDone g h _ => okGal g && okHearth h
  | .bankDecision g b _ => okGal g && okBank b
  | .nop g | .halt g | .ret g | .fence g | .fenceComplete g | .switch g | .prep g | .wait g | .waitDone g | .waitt g
  | .waittMet g | .waittTimeout g | .br g | .brc g | .loop g | .call g | .setf g | .clrf g | .emit g | .capt g
  | .dma g | .dmaComplete g _ => okGal g
  | .triggerEdge g i => okGal g && decide (i < 20)
  | .packetSend p _ => p.ok
  | .transactionTimeout n p t => decide (n < 30 ∧ p < 2 ∧ t < 4096)
  | .egressPacketClose g e => okGal g && decide (e < 4)
  | .flowCommit f _ | .flowRelease f _ => decide (f < 128)
  | .cdrLock s | .shLock s | .embLock s _ | .idWindowDone s _ | .releaseWaitDone s _ _ | .sysrefAbsent s
  | .sysrefArm s _ | .packetGroupRelease s _ | .txFrameDue s | .portProtocol s _ | .linkCommit s _
  | .linkDisable s _ | .seamBlockLock s | .seamTimeSend s | .seamReplayTimeout s | .seamBudgetExhausted s
  | .seamRetrain s _ | .seamSignalLost s | .presnChange s _ | .tallyReadStart s | .tallyRetry s
  | .tallyReadDone s _ | .tallyReread s _ | .presnNoAck s => okPort s
  | .linkDown s lane _ => okPort s && okPort lane
  | .eqEvaluation s w => okPort s && decide (w.length = 6)
  | .seamTrainRx s b _ | .seamTimeRx s b _ | .seamUnitRx s b | .seamIdleRx s b | .seamNakRx s b => okPort s && okBlock b
  | .triggerLineRx l _ => decide (l < 9)
  | .sweepEntryDue flips _ => flips.all (fun n => decide (n < 4096))
  | .assayLinkUnit n d _ => decide (n < 30 ∧ d < 4)
  | .timingLineReversed l | .timingReversedCleared l => decide (l < 2)
  | .tallyBusProbe b l _ => decide (b < 8 ∧ l < 2)
  | _ => true

end Sys2Proof
end

