-- ==== Sys2Proof/Safety.lean ====
section
/-!
DEFINITION. The words the claims use: a step that answers, a run that never stops, the canonical form of the memories,
by which equal contents are equal data, and when a hearth fires.
-/

namespace Sys2Proof.Machine

/-- The step of `s` answers a next state. -/
def State.answers (s : State) : Bool :=
  match step s with
  | .next _ => true
  | .fault _ => false
  | .refused _ => false

/-- `k` steps from `s` all answer a next state. -/
def State.runs : Nat → State → Bool
  | 0, _ => true
  | k + 1, s =>
    match step s with
    | .next t => t.runs k
    | .fault _ => false
    | .refused _ => false

/-- The memories of a gallery are in canonical form: the configuration of the planes, the context store, the stream
memory and the staging area. -/
abbrev Gallery.canonical (x : Gallery) : Prop :=
  Memory.wf 0 x.planeCfg ∧ Memory.wf 0 x.store ∧ Memory.wf 0 x.mem ∧ Memory.wf 0 x.staging.data

/-- The parameters, the keeper flash, the Tinder configuration and the memories of every gallery are in canonical
form. -/
structure State.Canonical (s : State) : Prop where
  params : TabWf paramReset s.params
  flash  : Memory.wf 0xFF s.flash.data
  tinder : Memory.wf 0 s.tnd.cfg
  gals   : ∀ g, (s.gal g).canonical

/-- The function record of hearth `h` in the active plane of gallery `g`. -/
def State.recordOf (s : State) (g h : Nat) : Record := (s.gal g).record (s.gal g).active h

/-- The word that a source offers to hearth `h` of gallery `g`. -/
def State.operand (s : State) (g h code : Nat) : Word := (offerOf s (s.gal g) (s.recordOf g h) h code).val

/-- The four conditions of R138 for operation `op` with operand selectors `sel`: the clock enable is high in user logic
(GSR released), the active plane holds the operation, every operand is valid and the interval has elapsed. -/
structure State.CanFire (s : State) (g h op : Nat) (sel : List Nat) : Prop where
  live   : s.live g = true
  hearth : h < 128
  op     : (s.recordOf g h).op = op
  valid  : ∀ c ∈ sel, (offerOf s (s.gal g) (s.recordOf g h) h c).valid = true
  free   : tabGet 0 (s.gal g).busy h = 0

/-- `t` differs from `s` at most in gallery `g` and in the parameters `ps`. -/
structure State.Only (s t : State) (g : Nat) (ps : List Nat) : Prop where
  gals   : ∀ k, k ≠ g → t.gal k = s.gal k
  params : ∀ n, n ∉ ps → t.par n = s.par n
  rest   : t = { s with gals := t.gals, params := t.params }

/-- `t` is `s` after hearth `h` of gallery `g` fired with interval `iv` and turned its gallery into `y`: the interval
starts, a running assay segment of the hearth ends (R397) and one firing is counted (GAL_FIRINGS); nothing else
changes. -/
structure State.Fired (s t : State) (g h iv : Nat) (y : Gallery) : Prop where
  only  : s.Only t g [galP g 0x65, galP g 0x66]
  gal   : t.gal g = { y with
    busy := tabSet 0 (s.gal g).busy h iv
    hearths := tabMod HearthTest.reset (s.gal g).hearths h (fun k => { k with running := false }) }
  count : t.pair (galP g 0x65) = (s.pair (galP g 0x65) + 1) % 2 ^ 64

/-- An effect enters the hearth pipelines of a gallery. -/
def Gallery.push (x : Gallery) (e : InFlight) : Gallery := { x with pipe := x.pipe ++ [e] }

/-- The effect of a firing that places word `w` on OUT after `lat` cycles with Z, N, C, V and D as given. -/
def State.result (s : State) (g h lat : Nat) (w : Word) (z n : Bool) (c : Option Bool) (v d : Bool) : InFlight :=
  { hearth := h, plane := (s.gal g).active, left := lat, result := some w
    wb := if (s.recordOf g h).wb then some (s.recordOf g h).wreg else none
    setZN := some (z, n), setC := c, sticky := (if v then 1 else 0) + (if d then 2 else 0)
    fclr := (s.recordOf g h).fclr, regs := [] }

/-- The signed value of lane `i` of a word in lanes of `w` bits (R146). -/
def sLane (w : Nat) (x : Word) (i : Nat) : Int := signed w (lane w x i)

/-- An exact value lies within a lane of `w` bits (Table 8.9). -/
abbrev fits (w : Nat) (x : Int) : Prop := -(2 ^ (w - 1) : Int) ≤ x ∧ x ≤ 2 ^ (w - 1) - 1

/-- An exact value fitted to a lane of `w` bits: kept when it fits; else the nearest lane value in S mode, and the low
bits in W mode (R158). -/
def fitted (w : Nat) (sat : Bool) (x : Int) : Int :=
  if fits w x then x
  else if sat then (if x < 0 then -(2 ^ (w - 1) : Int) else 2 ^ (w - 1) - 1)
  else x.bmod (2 ^ w)

/-- `x` divided by 2^k, to the nearest integer, halves away from zero (R151). -/
def roundAway (x : Int) (k : Nat) : Int := x.sign * (((2 * x.natAbs + 2 ^ k) / 2 ^ (k + 1) : Nat) : Int)

/-- A hearth command: its gallery, its hearth, its operation code and the selectors of the operands it takes
(Table 8.5). -/
def hearthOp : Instr → Option (Nat × Nat × Nat × (Record → List Nat))
  | .pass g h => some (g, h, 0x01, fun r => [r.srcA])
  | .dly g h => some (g, h, 0x02, fun r => [r.srcA])
  | .add g h => some (g, h, 0x04, fun r => [r.srcA, r.srcB])
  | .sub g h => some (g, h, 0x05, fun r => [r.srcA, r.srcB])
  | .neg g h => some (g, h, 0x06, fun r => [r.srcA])
  | .abs g h => some (g, h, 0x07, fun r => [r.srcA])
  | .min g h => some (g, h, 0x08, fun r => [r.srcA, r.srcB])
  | .max g h => some (g, h, 0x09, fun r => [r.srcA, r.srcB])
  | .and g h => some (g, h, 0x0C, fun r => [r.srcA, r.srcB])
  | .or g h => some (g, h, 0x0D, fun r => [r.srcA, r.srcB])
  | .xor g h => some (g, h, 0x0E, fun r => [r.srcA, r.srcB])
  | .not g h => some (g, h, 0x0F, fun r => [r.srcA])
  | .shl g h => some (g, h, 0x10, fun r => [r.srcA, r.srcB])
  | .shr g h => some (g, h, 0x11, fun r => [r.srcA, r.srcB])
  | .shra g h => some (g, h, 0x12, fun r => [r.srcA, r.srcB])
  | .rot g h => some (g, h, 0x13, fun r => [r.srcA, r.srcB])
  | .clz g h => some (g, h, 0x14, fun r => [r.srcA])
  | .popc g h => some (g, h, 0x15, fun r => [r.srcA])
  | .mul g h => some (g, h, 0x18, fun r => [r.srcA, r.srcB])
  | .mulh g h => some (g, h, 0x19, fun r => [r.srcA, r.srcB])
  | .mac g h => some (g, h, 0x1A, fun r => if r.mout then [r.srcA, r.srcB, r.srcC] else [r.srcA, r.srcB])
  | .msu g h => some (g, h, 0x1B, fun r => if r.mout then [r.srcA, r.srcB, r.srcC] else [r.srcA, r.srcB])
  | .rnd g h => some (g, h, 0x1C, fun r => [r.srcA])
  | .cmp g h => some (g, h, 0x20, fun r => [r.srcA, r.srcB])
  | .sel g h => some (g, h, 0x21, fun r => [r.srcA, r.srcB, r.srcC])
  | .div g h => some (g, h, 0x24, fun r => [r.srcA, r.srcB])
  | .rem g h => some (g, h, 0x25, fun r => [r.srcA, r.srcB])
  | .pack g h => some (g, h, 0x28, fun r => [r.srcA, r.srcB])
  | .unpk g h => some (g, h, 0x29, fun r => [r.srcA])
  | .ld g h => some (g, h, 0x30, fun r => [r.srcA])
  | .st g h => some (g, h, 0x31, fun r => [r.srcA, r.srcB])
  | _ => none

/-- The word at the PC of gallery `g`'s sequencer. -/
def State.issueWord (s : State) (g : Nat) : Word := (s.gal g).seq.word (s.gal g).seq.pc

/-- The sequencer of gallery `g` can issue in this cycle (user logic, clock enable high, not damped, stalled or waiting,
nothing issued yet in the cycle), the word at its PC is instruction `op` (Table 10.1; 0x10 + sub-opcode for opcode 0), and
its PC is at most `last`. -/
structure State.Issues (s : State) (g op last : Nat) : Prop where
  can    : s.canIssue g = true
  here   : opOf (s.issueWord g) = op
  inside : (s.gal g).seq.pc ≤ last

/-- `t` is `s` after the sequencer of gallery `g` issued an instruction that made its state `q`: the issue is counted
(GAL_INSTRUCTIONS) and the watchdog's count is 0 (R192); nothing else changes. -/
structure State.Issued (s t : State) (g : Nat) (q : Seq) : Prop where
  only  : s.Only t g [galP g 0x09, galP g 0x0A]
  gal   : t.gal g = { s.gal g with seq := { q with issued := true, wdog := 0 } }
  count : t.pair (galP g 0x09) = (s.pair (galP g 0x09) + 1) % 2 ^ 64

/-- `t` is `s` after a sequencer fault of gallery `g` (R191): issue stops, GAL_SEQ_FAULT_INFO records the code and the PC,
and event 0x23 + 6g is raised with both; nothing else changes. -/
def State.seqFaulted (s : State) (g code : Nat) : State :=
  ((s.putPar (galP g 0x07) (wd ((s.gal g).seq.pc % 1024 + 65536 * code))).modSeq g (fun q =>
    { q with st := .fault })).raise (0x23 + 6 * g) ([BitVec.ofNat 8 code, 0] ++ leBytes 2 (s.gal g).seq.pc)

/-- An instruction of the sequencer: its gallery and its opcode, 0x10 + sub-opcode for opcode 0 (Table 10.1). -/
def seqOp : Instr → Option (Nat × Nat)
  | .nop g => some (g, 0x10)
  | .halt g => some (g, 0x11)
  | .ret g => some (g, 0x12)
  | .fence g => some (g, 0x13)
  | .switch g => some (g, 0x1)
  | .prep g => some (g, 0x2)
  | .wait g => some (g, 0x3)
  | .waitt g => some (g, 0x4)
  | .br g => some (g, 0x5)
  | .brc g => some (g, 0x6)
  | .loop g => some (g, 0x7)
  | .call g => some (g, 0x8)
  | .setf g => some (g, 0x9)
  | .clrf g => some (g, 0xA)
  | .emit g => some (g, 0xB)
  | .capt g => some (g, 0xC)
  | .dma g => some (g, 0xD)
  | _ => none

/-- A plane that can leave: resident, not active nor about to become active, drained, and not being filled (R159). -/
abbrev Gallery.Leaves (x : Gallery) (p : Nat) : Prop :=
  (x.plane p).ctx ≠ none ∧ (x.plane p).filling = none ∧ p ≠ x.active ∧ (x.plane p).drain = 0 ∧
    x.switchTo.map (·.1) ≠ some p

/-- Plane `p` is the victim of R159: the free plane with the lowest index, else the one with the oldest stamp, ties to the
lower index, among those that can leave. -/
abbrev Gallery.Victim (x : Gallery) (p : Nat) : Prop :=
  p < 8 ∧ (((x.plane p).free = true ∧ ∀ k < p, (x.plane k).free = false) ∨
    ((∀ k < 8, (x.plane k).free = false) ∧ x.Leaves p ∧
      ∀ k < 8, x.Leaves k → (x.plane p).stamp < (x.plane k).stamp ∨ ((x.plane p).stamp = (x.plane k).stamp ∧ p ≤ k)))

/-- The packet at place `i` of the mesh reaches local port `t` of this card: it is the first of its stream, the unit is
present and alive, its domain is on, and its router does not hold packets (R24, R221, R239–R242). -/
structure State.Arrives (s : State) (i : Nat) (f : Flying) (t : Target) : Prop where
  clocked : s.clocked = true
  here    : s.mesh.flight[i]? = some f
  card    : f.pkt.dcard = s.card
  target  : targetAt f.pkt.dx f.pkt.dy f.pkt.dport = t
  first   : ∀ e ∈ s.mesh.flight.take i, sameStream f.pkt e.pkt = false
  present : t.absent s.variant = false
  alive   : ∀ u, t.unit = some u → s.isDead u = false
  open'   : ∀ d, t.domain s.variant = some d →
    (s.dom d).st = .on ∧ (s.dom d).rekindling = false ∧ s.holdsAt d f.pkt = false

/-- The packet at place `i` has left the mesh; for a packet of a GT flow its time is noted (R233). -/
def State.taken (s : State) (i : Nat) (f : Flying) : State :=
  noteWorst f { s with mesh := { s.mesh with flight := s.mesh.flight.eraseIdx i } }

/-- A single host write of parameter `n` is carried out: the core clock runs, user mode is reached, or the write is that
of KINDLE_HOLD_TIMEOUT (0x22), and the number names a parameter of a unit that is present (R97, R318). -/
structure State.Writes (s : State) (n : Nat) : Prop where
  clocked : s.clocked = true
  user    : s.user = true ∨ n = 0x22
  known   : (paramInfo n).isSome = true
  present : paramAbsent s.variant n = false

/-- A single host write has ended with status `st`. -/
def State.ended (s : State) (st : Nat) : State := { s with lamp := { s.lamp with entryStatus := st } }

/-- Lamp command `c` stands at the head of its queue, has this type, and may start in the present kindling state
(R97, R307). -/
structure State.Starts (s : State) (c : Cmd) (type : Nat) : Prop where
  clocked : s.clocked = true
  first   : s.lamp.inbox.head? = some c
  type    : c.type = type
  ready   : s.ready c = true

/-- `t` is `s` after a gallery reset of the galleries `gs` (Table 4.6, R176, R203): each sequencer stands at its entry point
with stack, flags and latches clear, waiting tap work and queued prefetches are gone, the damper of a domain that is on
is open, and a halted gallery notes the reset; planes, banks, memories and configuration are unchanged. -/
structure State.GalReset (s t : State) (gs : List Nat) : Prop where
  rest : t = { s with gals := t.gals, params := t.params, pwr := t.pwr, capt := t.capt }
  pars : ∀ n, (∀ g ∈ gs, n ≠ galP g 0x9B) → t.par n = s.par n
  pwr  : t.pwr = { s.pwr with domains := t.pwr.domains }
  doms : ∀ d, t.dom d = if d ∈ gs ∧ (s.dom d).st = .on then { s.dom d with damper := .openD, step := 0, fenced := false }
    else s.dom d
  capt : t.capt = { s.capt with perGal := t.capt.perGal }
  held : ∀ g, tabGet CaptGal.reset t.capt.perGal g =
    if g ∈ gs ∧ s.halted g = true then { tabGet CaptGal.reset s.capt.perGal g with wasReset := true }
    else tabGet CaptGal.reset s.capt.perGal g
  gals : ∀ g, t.gal g = if g ∈ gs then { s.gal g with
      banks := (t.gal g).banks, requests := (t.gal g).requests, tapQ := [], prefetch := [], demand := none
      resetDue := false, engine := (s.gal g).engine.map (fun e => { e with demand := false })
      seq := { (s.gal g).seq with
        pc := (s.gal g).seq.entry, stack := [], flags := 0, timeout := false, latches := 0, began := 0, st := .issuing
        damped := false, issued := true, wdog := 0, pulse := 0 } }
    else s.gal g

/-- Lane `p` does not follow the transmit link of lead `l`: a receive link shares it, or its driver has failed (R245). -/
def State.keepsLane (s : State) (l p : Nat) : Bool := s.linkTx l && ((s.linkOf p false).isSome || (s.port p).txFault)

/-- `t` is `s` after the link of lead `l` started (R250, R251): with every member's port pair on, the link and the members
that take part stand at state 1, or 5 for a transmit link, and the other members at 0; with a pair not on, all at 0. -/
structure State.LinkStarts (s t : State) (l : Nat) : Prop where
  rest  : t = { s with ports := t.ports }
  ports : ∀ p, t.port p =
    { s.port p with
      linkSt := if p = l ∧ s.linkOn l = true then
          (if (∀ m ∈ s.members l, s.pairOn m = true) then (if s.linkTx l = true then 5 else 1) else 0)
        else (s.port p).linkSt
      laneSt := if s.linkOn l = true ∧ p ∈ s.members l ∧ s.keepsLane l p = false then
          (if (∀ m ∈ s.members l, s.pairOn m = true) ∧ p ∈ s.starters l then (if s.linkTx l = true then 5 else 1) else 0)
        else (s.port p).laneSt }

/-- `t` is `s` after the link of lead `l` and its lanes that take part have moved to state `k` (Table 14.3). -/
structure State.LinkMoves (s t : State) (l k : Nat) : Prop where
  rest  : t = { s with ports := t.ports }
  ports : ∀ p, t.port p =
    { s.port p with
      linkSt := if p = l then k else (s.port p).linkSt
      laneSt := if p ∈ s.starting l ∧ s.keepsLane l p = false then k else (s.port p).laneSt }

/-- `t` differs from `s` at most in port `p`, which is `x`, and in the parameters `ps`. -/
structure State.PortIs (s t : State) (p : Nat) (x : Port) (ps : List Nat) : Prop where
  rest   : t = { s with ports := t.ports, params := t.params }
  others : ∀ j, j ≠ p → t.port j = s.port j
  port   : t.port p = x
  params : ∀ n, n ∉ ps → t.par n = s.par n

/-- A block of kind `k` that passes R264 reaches seam port `p` in state 3 to 5. -/
structure State.Receives (s : State) (p k : Nat) (b : List Byte) : Prop where
  clocked : s.clocked = true
  port    : p < 16
  seam    : s.protocol p = 2
  state   : 3 ≤ (s.port p).seam.state
  good    : blockOk b = true
  kind    : blockKind b = k

/-- ACK `a` covers blocks of the replay buffer that no earlier ACK covered. -/
abbrev Seam.Covers (q : Seam) (a : Nat) : Prop :=
  1 ≤ (a + 4096 - q.acked) % 4096 ∧ (a + 4096 - q.acked) % 4096 ≤ q.replay.length

/-- ACK `a` covers every block that was unacknowledged when the episode began (R273). -/
def Seam.endsEpisode (q : Seam) (a : Nat) : Bool :=
  match q.episode with
  | some (_, _, last) => decide (q.Covers a) && !seqAhead last a
  | none => false

/-- An up link after a good block with control word `c` (Table 15.1): REPLAY, the freed counts and ACK are taken. -/
def Seam.heard (q : Seam) (c : Nat) : Seam :=
  let a := c / 2 ^ 16 % 4096
  { q with
    peerReplay := decide (c / 2 ^ 30 % 2 = 1), reqPeer := c / 2 ^ 32 % 256, rspPeer := c / 2 ^ 40 % 256
    acked := if q.Covers a then a else q.acked
    replay := if q.Covers a then q.replay.drop ((a + 4096 - q.acked) % 4096) else q.replay
    episode := if q.endsEpisode a = true then none else q.episode }

/-- `t` is `s` after the control word `c` of a good block was taken on port `p` and the link became `q`; the longest
episode is recorded when one ends (SEAM_REPLAY_MAX); the parameters `ps` may change as well. -/
structure State.Heard (s t : State) (p c : Nat) (q : Seam) (ps : List Nat) : Prop where
  is : s.PortIs t p { s.port p with seam := q } (portP p 0x4E :: ps)
  longest : ∀ k start last, (s.port p).seam.episode = some (k, start, last) →
    t.par (portP p 0x4E) = if (s.port p).seam.endsEpisode (c / 2 ^ 16 % 4096) = true then
        (wd (Max.max ((s.par (portP p 0x4E)).toNat % 16) (Min.min 15 k) +
          65536 * Max.max ((s.par (portP p 0x4E)).toNat / 65536 % 4096) (Min.min 4095 (s.clk.cyc - start))))
      else s.par (portP p 0x4E)
  same : (s.port p).seam.episode = none → t.par (portP p 0x4E) = s.par (portP p 0x4E)

/-- `t` is `s` after `n` flash code words from word `w` on were read (R129): the corrected and the uncorrectable ones are
counted and may raise events 0xD0 and 0xD1, an uncorrectable one gives free bytes, and nothing else changes. -/
structure State.WordsRead (s t : State) (w n : Nat) : Prop where
  rest : t = { s with
    params := t.params, free := t.free, flash := { s.flash with corrCyc := t.flash.corrCyc }
    evt := { s.evt with latches := t.evt.latches } }
  params : ∀ k, k ≠ 0x3803 → k ≠ 0x3804 → t.par k = s.par k
  corrected : (t.par 0x3803).toNat = Min.min 0xFFFFFFFF ((s.par 0x3803).toNat +
    ((List.range n).filter (fun i => decide (s.wordDecay (w + i) = .corrected))).length)
  fatal : (t.par 0x3804).toNat = Min.min 0xFFFFFFFF ((s.par 0x3804).toNat +
    ((List.range n).filter (fun i => decide (s.wordDecay (w + i) = .fatal))).length)

/-- A lamp command has started: it keeps its place among those that run (R307). -/
def State.begun (s : State) (c : Cmd) : State :=
  { s with lamp := { s.lamp with inbox := s.lamp.inbox.erase c, running := s.lamp.running ++ [c] } }

end Sys2Proof.Machine
end

