-- ==== Sys2Proof/Certificates/Slice0/Obligations.lean ====
section
/-!
DEFINITION. What is claimed of the model, for the provers: each statement formalises rules of spec/, which its words name,
over every state and every operand.  A clause that rests on a choice of the model names the log entry.
-/

open Sys2Proof Sys2Proof.Machine

/-- R145: PASS, AND, OR, XOR and NOT place their word on OUT after one cycle, with Z and N from it; V, C, D and U are
unchanged.
R148: DLY of depth d puts W15 on OUT and shifts the line W(16 − d)–W15 by one register, A entering at W(16 − d). -/
def Obligations.WordOperationsAndDelayLines : Prop :=
  (∀ (s : State) (g h : Nat),
     let r := s.recordOf g h
     let a := s.operand g h r.srcA
     let b := s.operand g h r.srcB
     let places := fun (t : State) (w : Word) =>
       s.Fired t g h 1 ((s.gal g).push (s.result g h 1 w (decide (w = 0)) w.msb none false false))
     (s.CanFire g h 0x01 [r.srcA] → ∃ t, exec (.pass g h) s = .next t ∧ places t a) ∧
     (s.CanFire g h 0x0C [r.srcA, r.srcB] → ∃ t, exec (.and g h) s = .next t ∧ places t (a &&& b)) ∧
     (s.CanFire g h 0x0D [r.srcA, r.srcB] → ∃ t, exec (.or g h) s = .next t ∧ places t (a ||| b)) ∧
     (s.CanFire g h 0x0E [r.srcA, r.srcB] → ∃ t, exec (.xor g h) s = .next t ∧ places t (a ^^^ b)) ∧
     (s.CanFire g h 0x0F [r.srcA] → ∃ t, exec (.not g h) s = .next t ∧ places t (~~~a))) ∧
  (∀ (s : State) (g h : Nat),
     let r := s.recordOf g h
     let x := s.gal g
     let reg := fun j => x.reg x.active h j
     s.CanFire g h 0x02 [r.srcA] →
     ∃ (t : State) (regs : List (Nat × Word)), exec (.dly g h) s = .next t ∧
       s.Fired t g h 1 (x.push
         { hearth := h, plane := x.active, left := 1, result := some (reg 15), wb := none
           setZN := some (decide (reg 15 = 0), (reg 15).msb), setC := none, sticky := 0, fclr := r.fclr, regs := regs }) ∧
       ∀ j, regs.lookup j =
         if j = 15 - r.depth then some (s.operand g h r.srcA)
         else if 15 - r.depth < j ∧ j ≤ 15 then some (reg (j - 1)) else none)

/-- R145, R146, R158: ADD, SUB, NEG, ABS and MUL compute every lane exactly and fit it to its width under the lane's
mode; V is set when a lane does not fit; C comes from the most significant lane of ADD and SUB only; MUL takes 3 cycles
and, in 1×32, an interval of 2. -/
def Obligations.LaneArithmeticIsExactThenFitted : Prop := ∀ (s : State) (g h : Nat),
  let r := s.recordOf g h
  let w := r.width
  let n := 32 / w
  let a := s.operand g h r.srcA
  let b := s.operand g h r.srcB
  let places := fun (t : State) (lat iv : Nat) (c : Option Bool) (z : Nat → Int) => ∃ x : Word,
    s.Fired t g h iv ((s.gal g).push
      (s.result g h lat x (decide (x = 0)) x.msb c (decide (∃ i < n, ¬ fits w (z i))) false)) ∧
    ∀ i < n, sLane w x i = fitted w (r.sat i) (z i)
  (s.CanFire g h 0x04 [r.srcA, r.srcB] → ∃ t, exec (.add g h) s = .next t ∧
    places t 1 1 (some (decide (2 ^ w ≤ lane w a (n - 1) + lane w b (n - 1)))) (fun i => sLane w a i + sLane w b i)) ∧
  (s.CanFire g h 0x05 [r.srcA, r.srcB] → ∃ t, exec (.sub g h) s = .next t ∧
    places t 1 1 (some (decide (lane w b (n - 1) ≤ lane w a (n - 1)))) (fun i => sLane w a i - sLane w b i)) ∧
  (s.CanFire g h 0x06 [r.srcA] → ∃ t, exec (.neg g h) s = .next t ∧ places t 1 1 none (fun i => -sLane w a i)) ∧
  (s.CanFire g h 0x07 [r.srcA] → ∃ t, exec (.abs g h) s = .next t ∧ places t 1 1 none (fun i => |sLane w a i|)) ∧
  (s.CanFire g h 0x18 [r.srcA, r.srcB] → ∃ t, exec (.mul g h) s = .next t ∧
    places t 3 (if w = 32 then 2 else 1) none (fun i => sLane w a i * sLane w b i))

/-- R145, R147: MIN, MAX, SEL and CMP choose per lane; CMP sets Z when every lane is 0 and N when every lane is all
ones.
R145, R158: shifts by the low six bits of each lane of B, with zero or sign fill; ROT rotates by that amount modulo
the lane width; CLZ and POPC count. -/
def Obligations.LaneChoicesShiftsAndCounts : Prop :=
  (∀ (s : State) (g h : Nat),
     let r := s.recordOf g h
     let w := r.width
     let n := 32 / w
     let a := s.operand g h r.srcA
     let b := s.operand g h r.srcB
     let c := s.operand g h r.srcC
     let rel := fun i : Nat =>
       [decide (lane w a i = lane w b i), decide (lane w a i ≠ lane w b i),
        decide (sLane w a i < sLane w b i), decide (sLane w a i ≤ sLane w b i),
        decide (sLane w b i < sLane w a i), decide (sLane w b i ≤ sLane w a i),
        decide (lane w a i < lane w b i), decide (lane w b i ≤ lane w a i)].getD r.cond false
     let places := fun (t : State) (x : Word) =>
       s.Fired t g h 1 ((s.gal g).push (s.result g h 1 x (decide (x = 0)) x.msb none false false))
     (s.CanFire g h 0x08 [r.srcA, r.srcB] → ∃ t x, exec (.min g h) s = .next t ∧ places t x ∧
       ∀ i < n, sLane w x i = Min.min (sLane w a i) (sLane w b i)) ∧
     (s.CanFire g h 0x09 [r.srcA, r.srcB] → ∃ t x, exec (.max g h) s = .next t ∧ places t x ∧
       ∀ i < n, sLane w x i = Max.max (sLane w a i) (sLane w b i)) ∧
     (s.CanFire g h 0x21 [r.srcA, r.srcB, r.srcC] → ∃ t x, exec (.sel g h) s = .next t ∧ places t x ∧
       ∀ i < n, lane w x i = if sLane w c i < 0 then lane w a i else lane w b i) ∧
     (s.CanFire g h 0x20 [r.srcA, r.srcB] → ∃ t x, exec (.cmp g h) s = .next t ∧
       s.Fired t g h 1 ((s.gal g).push
         (s.result g h 1 x (decide (∀ i < n, rel i = false)) (decide (∀ i < n, rel i = true)) none false false)) ∧
       ∀ i < n, lane w x i = if rel i then 2 ^ w - 1 else 0)) ∧
  (∀ (s : State) (g h : Nat),
     let r := s.recordOf g h
     let w := r.width
     let n := 32 / w
     let a := s.operand g h r.srcA
     let b := s.operand g h r.srcB
     let m := fun i => lane w b i % 64
     let places := fun (t : State) (x : Word) =>
       s.Fired t g h 1 ((s.gal g).push (s.result g h 1 x (decide (x = 0)) x.msb none false false))
     (s.CanFire g h 0x10 [r.srcA, r.srcB] → ∃ t x, exec (.shl g h) s = .next t ∧ places t x ∧
       ∀ i < n, lane w x i = lane w a i * 2 ^ m i % 2 ^ w) ∧
     (s.CanFire g h 0x11 [r.srcA, r.srcB] → ∃ t x, exec (.shr g h) s = .next t ∧ places t x ∧
       ∀ i < n, lane w x i = lane w a i / 2 ^ m i) ∧
     (s.CanFire g h 0x12 [r.srcA, r.srcB] → ∃ t x, exec (.shra g h) s = .next t ∧ places t x ∧
       ∀ i < n, sLane w x i = sLane w a i / 2 ^ m i) ∧
     (s.CanFire g h 0x13 [r.srcA, r.srcB] → ∃ t x, exec (.rot g h) s = .next t ∧ places t x ∧
       ∀ i < n, ∀ j < w, (lane w x i).testBit ((j + m i) % w) = (lane w a i).testBit j) ∧
     (s.CanFire g h 0x14 [r.srcA] → ∃ t x, exec (.clz g h) s = .next t ∧ places t x ∧
       ∀ i < n, lane w x i ≤ w ∧ lane w a i < 2 ^ (w - lane w x i) ∧
         (lane w x i < w → 2 ^ (w - 1 - lane w x i) ≤ lane w a i)) ∧
     (s.CanFire g h 0x15 [r.srcA] → ∃ t x, exec (.popc g h) s = .next t ∧ places t x ∧
       ∀ i < n, lane w x i = (List.range w).countP (fun j => (lane w a i).testBit j)))

/-- R145, R151, R153, R158: MULH is the high half of the product, RND divides by 2^SH to nearest with halves away from
zero, DIV truncates toward zero and REM has the sign of A; a divisor 0 sets D and gives MAX, MIN or 0 for DIV and A for
REM; DIV and REM take 12 cycles and an interval of 4.
R152: PACK fits the 2w-bit lanes of A, then of B, to w bits under each result lane's mode and sets V when one does
not fit; UNPK extends the lower or upper half of A's lanes to 2w bits, with sign or zero (LANES 0 is refused by
R143). -/
def Obligations.HighProductRoundingDivisionAndPacking : Prop :=
  (∀ (s : State) (g h : Nat),
     let r := s.recordOf g h
     let w := r.width
     let n := 32 / w
     let a := s.operand g h r.srcA
     let b := s.operand g h r.srcB
     let places := fun (t : State) (lat iv : Nat) (v d : Bool) (z : Nat → Int) => ∃ x : Word,
       s.Fired t g h iv ((s.gal g).push (s.result g h lat x (decide (x = 0)) x.msb none v d)) ∧
       ∀ i < n, sLane w x i = z i
     let byZero := decide (∃ i < n, lane w b i = 0)
     (s.CanFire g h 0x19 [r.srcA, r.srcB] → ∃ t, exec (.mulh g h) s = .next t ∧
       places t 3 (if w = 32 then 2 else 1) false false (fun i => sLane w a i * sLane w b i / 2 ^ w)) ∧
     (s.CanFire g h 0x1C [r.srcA] → ∃ t, exec (.rnd g h) s = .next t ∧
       places t 2 1 false false (fun i => roundAway (sLane w a i) r.sh)) ∧
     (s.CanFire g h 0x24 [r.srcA, r.srcB] → ∃ t, exec (.div g h) s = .next t ∧
       places t 12 4 (decide (∃ i < n, lane w b i ≠ 0 ∧ ¬ fits w ((sLane w a i).tdiv (sLane w b i)))) byZero
         (fun i =>
           if lane w b i ≠ 0 then fitted w (r.sat i) ((sLane w a i).tdiv (sLane w b i))
           else if sLane w a i = 0 then 0
           else if sLane w a i < 0 then -(2 ^ (w - 1) : Int) else 2 ^ (w - 1) - 1)) ∧
     (s.CanFire g h 0x25 [r.srcA, r.srcB] → ∃ t, exec (.rem g h) s = .next t ∧
       places t 12 4 false byZero (fun i =>
         if lane w b i = 0 then sLane w a i else (sLane w a i).tmod (sLane w b i)))) ∧
  (∀ (s : State) (g h : Nat),
     let r := s.recordOf g h
     let w := r.width
     let k := 16 / w
     let a := s.operand g h r.srcA
     let b := s.operand g h r.srcB
     let z := fun i => if i < k then sLane (2 * w) a i else sLane (2 * w) b (i - k)
     (r.lanes = 1 ∨ r.lanes = 2) →
     (s.CanFire g h 0x28 [r.srcA, r.srcB] → ∃ t x, exec (.pack g h) s = .next t ∧
       s.Fired t g h 1 ((s.gal g).push
         (s.result g h 1 x (decide (x = 0)) x.msb none (decide (∃ i < 2 * k, ¬ fits w (z i))) false)) ∧
       ∀ i < 2 * k, sLane w x i = fitted w (r.sat i) (z i)) ∧
     (s.CanFire g h 0x29 [r.srcA] → ∃ t x, exec (.unpk g h) s = .next t ∧
       s.Fired t g h 1 ((s.gal g).push (s.result g h 1 x (decide (x = 0)) x.msb none false false)) ∧
       ∀ i < k,
         let j := if r.xh then i + k else i
         sLane (2 * w) x i = if r.xz then (lane w a j : Int) else sLane w a j))

/-- R149, R150: MAC and MSU add the product of each lane to its ACC lane, or subtract it, exactly and then fitted to the
ACC lane's width.  With MOUT 0, and on every firing that is not a dump, ACC keeps the sum (OUT carries A after one cycle
with MOUT 0, nothing with MOUT 1); on a dump OUT carries each ACC lane rounded by SH and saturated, after 4 cycles, and
ACC is 0 for the next firing. -/
def Obligations.MultiplyAccumulateAndDump : Prop := ∀ (s : State) (g h : Nat) (minus : Bool),
  let r := s.recordOf g h
  let w := r.width
  let n := 32 / w
  let aw := if w = 16 then 36 else if w = 8 then 18 else 72
  let x := s.gal g
  let p := x.active
  let a := s.operand g h r.srcA
  let b := s.operand g h r.srcB
  let i := if minus then Instr.msu g h else Instr.mac g h
  let old := (tabGet 0 x.acc (p * 128 + h)).toNat
  let sum := fun j => signed aw (old / 2 ^ (aw * j)) + (if minus then -1 else 1) * (sLane w a j * sLane w b j)
  let big := decide (∃ j < n, ¬ fits aw (sum j))
  let dump := r.mout && (s.operand g h r.srcC).getLsbD 0
  s.CanFire g h (if minus then 0x1B else 0x1A) (if r.mout then [r.srcA, r.srcB, r.srcC] else [r.srcA, r.srcB]) →
  ∃ (t : State) (acc : BitVec 72) (e : InFlight), exec i s = .next t ∧
    (∀ j < n, signed aw (acc.toNat / 2 ^ (aw * j)) = fitted aw (r.sat j) (sum j)) ∧
    s.Fired t g h (if w = 32 then 2 else 1) { x.push e with
      acc := tabSet 0 x.acc (p * 128 + h) (if dump then 0 else acc)
      planes := tabMod Plane.reset x.planes p (fun q =>
        { q with accLive := putBit q.accLive h (!dump), accKept := false }) } ∧
    e.hearth = h ∧ e.plane = p ∧ e.setC = none ∧ e.regs = [] ∧ e.fclr = r.fclr ∧
    (dump = false → e.left = 1 ∧ e.result = (if r.mout then none else some a) ∧
      e.wb = (if r.wb && !r.mout then some r.wreg else none) ∧ e.setZN = none ∧ e.sticky = if big then 1 else 0) ∧
    (dump = true → ∃ y : Word, e.left = 4 ∧ e.result = some y ∧ e.wb = (if r.wb then some r.wreg else none) ∧
      e.setZN = some (decide (y = 0), y.msb) ∧
      (∀ j < n, sLane w y j = fitted w true (roundAway (signed aw (acc.toNat / 2 ^ (aw * j))) r.sh)) ∧
      e.sticky = if big || decide (∃ j < n, ¬ fits w (roundAway (signed aw (acc.toNat / 2 ^ (aw * j))) r.sh))
        then 1 else 0)

/-- R154, R155: LD takes a place of its tap for a burst of BEATS + 1 beats at A[20:4] × 16; ST opens a burst there with
its first word from B, or gives B to the burst that is open and ignores A; before write enable the burst is one that
writes nothing.  Neither touches memory, registers or flags at once. -/
def Obligations.TapsTakeLoadsAndStores : Prop := ∀ (s : State) (g h : Nat),
  let r := s.recordOf g h
  let x := s.gal g
  let k := if h % 8 = 0 then h / 8 else 16 + h / 8
  let a := s.operand g h r.srcA
  let b := s.operand g h r.srcB
  let q : TapReq :=
    { load := false, addr := a.toNat / 16 % 2 ^ 17 * 16, beats := r.beats + 1, plane := x.active, granted := false
      words := [(b, false)], need := 4 * (r.beats + 1), done := 0, wb := none, fclr := false
      nowrite := !s.kin.writeEn, wait := 0 }
  let queued := fun (l : List TapReq) =>
    { x with tapQ := tabSet [] x.tapQ k l, requests := (raiseTap s.clk.cyc k (x.setTap k l)).requests }
  let cleared := fun (y : Gallery) =>
    if r.fclr then y.push { hearth := h, plane := x.active, left := 1, result := none, wb := none, setZN := none
                            setC := none, sticky := 0, fclr := true, regs := [] } else y
  (s.CanFire g h 0x30 [r.srcA] → (x.tap k).length < 2 → ∃ t, exec (.ld g h) s = .next t ∧
    s.Fired t g h 1 (queued (x.tap k ++
      [{ q with load := true, words := [], nowrite := false, wait := 5, fclr := r.fclr
                wb := if r.wb then some r.wreg else none }]))) ∧
  (s.CanFire g h 0x31 [r.srcA, r.srcB] → (x.tap k).length < 2 → openStore (x.tap k) = none →
    ∃ t, exec (.st g h) s = .next t ∧ s.Fired t g h 1 (cleared (queued (dropNoWrite (x.tap k ++ [q]))))) ∧
  (s.CanFire g h 0x31 [r.srcA, r.srcB] → (openStore (x.tap k)).isSome = true →
    ∃ t, exec (.st g h) s = .next t ∧ s.Fired t g h 1 (cleared (queued (dropNoWrite (feedStore b (x.tap k))))))

/-- R138, R139: where a hearth command does not fire, for want of an operand, of its interval or of a place at the tap,
no gallery changes; each switch word that was presented and is not consumed is counted in GAL_HEARTH_DISCARDS.
R138: a command for a hearth whose active plane holds another operation, or whose gallery is not clocked, changes
nothing.
R156: whatever a hearth command does, it changes no other gallery, no configuration, context, memory, switch state
or sequencer of its own, no register or flag before its latency has passed, no parameter but the counts of firings and
discards, and nothing else of the device. -/
def Obligations.HearthCommandsLeaveTheRestAlone : Prop :=
  (∀ (s : State) (i : Instr) (g h op : Nat) (sel : Record → List Nat),
     hearthOp i = some (g, h, op, sel) →
     let r := s.recordOf g h
     let x := s.gal g
     let offer := offerOf s x r h
     let k := if h % 8 = 0 then h / 8 else 16 + h / 8
     s.live g = true → h < 128 → r.op = op →
     ((∃ c ∈ sel r, (offer c).valid = false) ∨ tabGet 0 x.busy h ≠ 0 ∨
       (2 ≤ (x.tap k).length ∧ (op = 0x30 ∨ (op = 0x31 ∧ openStore (x.tap k) = none)))) →
     ∃ t, exec i s = .next t ∧ t = { s with params := t.params } ∧
       (t.par (galP g 0x60)).toNat =
         Min.min 0xFFFFFFFF ((s.par (galP g 0x60)).toNat +
           ((sel r).eraseDups.filter (fun c => isSwitch c && (offer c).valid)).length) ∧
       ∀ n, n ≠ galP g 0x60 → n ≠ galP g 0x81 → t.par n = s.par n) ∧
  (∀ (s : State) (i : Instr) (g h op : Nat) (sel : Record → List Nat),
     hearthOp i = some (g, h, op, sel) → (s.live g = false ∨ 128 ≤ h ∨ (s.recordOf g h).op ≠ op) → exec i s = .next s) ∧
  (∀ (s t : State) (i : Instr) (g h op : Nat) (sel : Record → List Nat),
     hearthOp i = some (g, h, op, sel) → exec i s = .next t →
     s.Only t g [galP g 0x60, galP g 0x65, galP g 0x66, galP g 0x81] ∧
     t.gal g = { s.gal g with
       busy := (t.gal g).busy, hearths := (t.gal g).hearths, pipe := (t.gal g).pipe, acc := (t.gal g).acc
       planes := (t.gal g).planes, tapQ := (t.gal g).tapQ, requests := (t.gal g).requests } ∧
     (∀ a, memByte (t.gal g).mem a = memByte (s.gal g).mem a))

/-- R181, R183, R185: NOP, HALT, RET, BR, CALL, SETF, CLRF, WAIT and LOOP do what Table 10.2 says to PC, stack, flags,
latches and counters, and nothing else. -/
def Obligations.SequencerStepsAndTransfers : Prop := ∀ (s : State) (g : Nat),
  let q := (s.gal g).seq
  let w := s.issueWord g
  (s.Issues g 0x10 1022 → ∃ t, exec (.nop g) s = .next t ∧ s.Issued t g { q with pc := q.pc + 1 }) ∧
  (s.Issues g 0x11 1022 → ∃ t, exec (.halt g) s = .next t ∧ s.Issued t g { q with st := .halt }) ∧
  (s.Issues g 0x12 1023 → ∀ l a, q.stack = l ++ [a] → ∃ t, exec (.ret g) s = .next t ∧
    s.Issued t g { q with pc := a, stack := l }) ∧
  (s.Issues g 0x5 1023 → ∃ t, exec (.br g) s = .next t ∧ s.Issued t g { q with pc := fld w 9 0 }) ∧
  (s.Issues g 0x8 1023 → q.stack.length < 4 → ∃ t, exec (.call g) s = .next t ∧
    s.Issued t g { q with pc := fld w 9 0, stack := q.stack ++ [q.pc + 1] }) ∧
  (s.Issues g 0x9 1022 → ∃ t, exec (.setf g) s = .next t ∧
    s.Issued t g { q with pc := q.pc + 1, flags := q.flags ||| w.setWidth 8 }) ∧
  (s.Issues g 0xA 1022 → ∃ t l, exec (.clrf g) s = .next t ∧
    s.Issued t g { q with pc := q.pc + 1, flags := q.flags &&& ~~~w.setWidth 8, latches := l } ∧
    ∀ i < 20, hasBit l i = (hasBit q.latches i && (!bitOf (fld w 27 8) i || (hasBit q.inputs i && !hasBit q.prev i)))) ∧
  (s.Issues g 0x3 1022 → ∃ t, exec (.wait g) s = .next t ∧
    s.Issued t g (if fld w 27 0 = 0 then { q with pc := q.pc + 1 } else { q with st := .waiting (fld w 27 0) })) ∧
  (∀ v, v = (tabGet none q.lc (fld w 11 10)).getD ((if fld w 23 12 = 0 then 4096 else fld w 23 12) - 1) →
    (s.Issues g 0x7 1023 → v ≠ 0 → ∃ t, exec (.loop g) s = .next t ∧
      s.Issued t g { q with pc := fld w 9 0, lc := tabSet none q.lc (fld w 11 10) (some (v - 1)) }) ∧
    (s.Issues g 0x7 1022 → v = 0 → ∃ t, exec (.loop g) s = .next t ∧
      s.Issued t g { q with pc := q.pc + 1, lc := tabSet none q.lc (fld w 11 10) none }))

/-- R183: a rising TI or HC input sets its latch, gated or not, and is counted (GAL_TRIG for TI); an edge that finds its
latch set increments GAL_TRIG_OVERRUN.
R182, R183, R184: BRC and WAITT take the level or the edge of their source; a true edge test clears the latch of its
source; WAITT completes on its condition with TO 0 or after 64 × T enabled cycles with TO 1; BRC with H set queues the
prefetch that its hint scan finds. -/
def Obligations.TriggersConditionBranchesAndWaits : Prop :=
  (∀ (s : State) (g i : Nat),
     let q := (s.gal g).seq
     s.clocked = true → s.kin.gsr = false → s.galOn g = true → i < 20 → hasBit q.inputs i = true → hasBit q.prev i = false →
     hasBit q.seen i = false →
     ∃ t, exec (.triggerEdge g i) s = .next t ∧ s.Only t g [galP g 0x06, galP g (0x10 + i)] ∧
       t.gal g = { s.gal g with seq := { q with latches := putBit q.latches i true, seen := putBit q.seen i true } } ∧
       hasBit (t.gal g).seq.latches i = true ∧
       (t.par (galP g 0x06)).toNat = Min.min 0xFFFFFFFF ((s.par (galP g 0x06)).toNat + (if hasBit q.latches i then 1 else 0)) ∧
       (i < 16 → t.par (galP g (0x10 + i)) = s.par (galP g (0x10 + i)) + (if hasBit q.latches i then 0 else 1))) ∧
  (∀ (s : State) (g : Nat),
     let q := (s.gal g).seq
     let w := s.issueWord g
     let level := fun src : Nat =>
       if src < 20 then hasBit q.inputs src else if src < 28 then hasBit q.flags (src - 20)
       else if src = 28 then q.timeout else if src = 29 then decide (0 < q.dmas.length) else decide (src = 30)
     let holds := fun src test : Nat =>
       if test = 0 then level src else if test = 1 then !level src
       else if src < 20 then hasBit q.latches src || (hasBit q.inputs src && !hasBit q.prev src && !hasBit q.seen src)
       else level src
     (s.Issues g 0x6 1023 → w.getLsbD 17 = false → fld w 14 10 ≠ 31 → fld w 16 15 ≠ 3 →
       holds (fld w 14 10) (fld w 16 15) = true → ∃ t, exec (.brc g) s = .next t ∧
         s.Issued t g { q.consume (fld w 14 10) (fld w 16 15) with pc := fld w 9 0 }) ∧
     (s.Issues g 0x6 1022 → w.getLsbD 17 = false → fld w 14 10 ≠ 31 → fld w 16 15 ≠ 3 →
       holds (fld w 14 10) (fld w 16 15) = false → ∃ t, exec (.brc g) s = .next t ∧
         s.Issued t g { q with pc := q.pc + 1 }) ∧
     (∀ c, s.Issues g 0x6 1022 → w.getLsbD 17 = true → fld w 14 10 ≠ 31 → fld w 16 15 ≠ 3 →
       hintScan q 4 (if w.getLsbD 18 then fld w 9 0 else q.pc + 1) = some c → ∃ t, exec (.brc g) s = .next t ∧
         (queuePrefetch g c s).Issued t g (if holds (fld w 14 10) (fld w 16 15)
           then { q.consume (fld w 14 10) (fld w 16 15) with pc := fld w 9 0 } else { q with pc := q.pc + 1 })) ∧
     (s.Issues g 0x4 1022 → fld w 4 0 ≠ 31 → fld w 6 5 ≠ 3 → ∃ t, exec (.waitt g) s = .next t ∧
       s.Issued t g (if holds (fld w 4 0) (fld w 6 5)
         then { q.consume (fld w 4 0) (fld w 6 5) with pc := q.pc + 1, timeout := false }
         else { q with st := .waitt (fld w 4 0) (fld w 6 5) (64 * fld w 27 8) (decide (fld w 27 8 ≠ 0)) })) ∧
     (∀ src test left timed, test < 3 → q.st = .waitt src test left timed → s.live g = true → q.issued = false →
       q.damped = false →
       (holds src test = true → ∃ t, exec (.waittMet g) s = .next t ∧ s.Only t g [] ∧
         t.gal g = { s.gal g with seq := { q.consume src test with
           pc := q.pc + 1, timeout := false, st := .issuing, issued := true } }) ∧
       (holds src test = false → left ≤ 1 → timed = true → ∃ t, exec (.waittTimeout g) s = .next t ∧ s.Only t g [] ∧
         t.gal g = { s.gal g with seq := { q with pc := q.pc + 1, timeout := true, st := .issuing, issued := true } })) ∧
     (q.st = .waiting 0 → s.live g = true → q.damped = false → ∃ t, exec (.waitDone g) s = .next t ∧ s.Only t g [] ∧
       t.gal g = { s.gal g with seq := { q with pc := q.pc + 1, st := .issuing } }) ∧
     (∀ src < 20, hasBit q.latches src = true → hasBit q.inputs src = false →
       hasBit (q.consume src 2).latches src = false))

/-- R166–R168, R170: SWITCH of a resident context makes it active in the next cycle, of the active one does nothing, of
one that is not resident stalls on a demand fill, of an undefined one raises GAL_CTX_FAULT; PREP queues a prefetch, at
most two, and counts what it drops. -/
def Obligations.SwitchAndPrefetch : Prop := ∀ (s : State) (g : Nat),
  let x := s.gal g
  let q := x.seq
  let c := fld (s.issueWord g) 5 0
  let nowhere := ∀ p < 8, (x.plane p).ctx ≠ some c
  (s.Issues g 0x1 1022 →
    ((x.desc c).defined = false → ∃ t, exec (.switch g) s = .next t ∧
      (s.raise (0x22 + 6 * g) [1, BitVec.ofNat 8 c, 0, 0]).Issued t g { q with pc := q.pc + 1 }) ∧
    (∀ p, (x.desc c).defined = true → p < 8 → (x.plane p).ctx = some c → (∀ k < p, (x.plane k).ctx ≠ some c) →
      ∃ t, exec (.switch g) s = .next t ∧
        (if p = x.active then s else s.modGal g (fun x => { x with switchTo := some (p, c) })).Issued t g
          { q with pc := q.pc + 1 }) ∧
    ((x.desc c).defined = true → nowhere → ∃ t, exec (.switch g) s = .next t ∧
      (s.modGal g (fun x => { x with
        demand := some c, prefetch := x.prefetch.filter (fun k => !decide (k = c))
        engine := x.engine.map (fun e => if e.fill && decide (e.ctx = c) then { e with demand := true } else e) })).Issued
          t g { q with st := .switchStall c })) ∧
  (s.Issues g 0x2 1022 →
    let idle := (x.desc c).defined = true ∧ nowhere ∧ (∀ p < 8, (x.plane p).filling ≠ some c) ∧ c ∉ x.prefetch ∧
      x.demand ≠ some c
    (¬ idle → ∃ t, exec (.prep g) s = .next t ∧ s.Issued t g { q with pc := q.pc + 1 }) ∧
    (idle → x.prefetch.length < 2 → ∃ t, exec (.prep g) s = .next t ∧
      (s.modGal g (fun x => { x with prefetch := x.prefetch ++ [c] })).Issued t g { q with pc := q.pc + 1 }) ∧
    (idle → 2 ≤ x.prefetch.length → ∃ t, exec (.prep g) s = .next t ∧
      (s.count (galP g 0x77) 1).Issued t g { q with pc := q.pc + 1 }))

/-- R186, R188, R189, R190: FENCE passes when its conditions hold and else stalls until FENCE_COMPLETE; under a damper
request the sequencer is damped behind it; EMIT pulses GOUT lines and raises GAL_EMIT; CAPT arms a capture of its own
gallery 16 + D ticks ahead, or is dropped and counted.
R187: DMA starts the transfer of a valid descriptor and stalls while two are in flight; a stalled DMA issues once one
has ended.  A transfer without a packet or an answer left sets its done flag; one that failed sets its error flag and is
counted in GAL_DMA_ERRORS. -/
def Obligations.FenceEmitCaptureAndDma : Prop :=
  (∀ (s : State) (g : Nat),
     let x := s.gal g
     let q := x.seq
     let w := s.issueWord g
     let met := (∀ k ∈ x.tapQ, ∀ r ∈ k.2, r.nowrite = true ∨ (r.granted = true ∧ r.beats ≤ r.done)) ∧ q.dmas = [] ∧
       x.transit = 0
     let passed : Seq := { q with pc := q.pc + 1, st := .issuing, damped := decide ((s.dom g).damper ≠ .openD) }
     (s.Issues g 0x13 1022 → met → x.hold = [] → ∃ t, exec (.fence g) s = .next t ∧ s.Issued t g passed) ∧
     (s.Issues g 0x13 1022 → (¬ met ∨ x.hold ≠ []) → ∃ t, exec (.fence g) s = .next t ∧ s.Issued t g { q with st := .fence }) ∧
     (s.live g = true → q.st = .fence → q.issued = false → q.damped = false → met → x.hold = [] →
       ∃ t, exec (.fenceComplete g) s = .next t ∧ s.Only t g [] ∧ t.gal g = { x with seq := { passed with issued := true } }) ∧
     (s.Issues g 0xB 1022 → ∃ t, exec (.emit g) s = .next t ∧
       (if w.getLsbD 4 then s.raise (0x21 + 6 * g) [BitVec.ofNat 8 (fld w 12 5)] else s).Issued t g
         { q with pc := q.pc + 1, pulse := q.pulse ||| w.setWidth 4 }) ∧
     (s.Issues g 0xC 1022 → fld w 1 0 ≤ 1 → ∃ t, exec (.capt g) s = .next t ∧
       ({ s with capt := if s.capt.st = 0
           then { s.capt with
             st := 1, kind := fld w 1 0, source := 1, gals := 1#16 <<< g, srcGal := g
             armTick := s.clk.tick + BitVec.ofNat 64 (16 + fld w 21 2), perGal := [], shadows := [] }
           else { s.capt with dropped := Min.min 255 (s.capt.dropped + 1) } } : State).Issued t g { q with pc := q.pc + 1 })) ∧
  (∀ (s : State) (g : Nat),
     let q := (s.gal g).seq
     let a := fld (s.issueWord g) 9 0
     let d0 := q.word a
     let d2 := q.word (a + 2)
     let d3 := q.word (a + 3)
     let valid := a % 4 = 0 ∧ a ≤ 1020 ∧ fld d0 31 18 ≠ 0 ∧ 16 * (fld d0 16 0 + fld d0 31 18) ≤ 2 ^ 21
     let dma : Dma :=
       { id := q.nextDma, toMesh := !d0.getLsbD 17, addr := 16 * fld d0 16 0, units := fld d0 31 18
         remote := (q.word (a + 1)).toNat + 2 ^ 32 * fld d2 15 0, card := fld d2 19 16, dx := fld d2 22 20, dy := fld d2 25 23
         port := fld d2 26 26, gt := d2.getLsbD 27
         doneFlag := if d3.getLsbD 3 then some (fld d3 2 0) else none
         errFlag := if d3.getLsbD 7 then some (fld d3 6 4) else none, waiting := 0, failed := false }
     let started : Seq := { q with dmas := q.dmas ++ [dma], nextDma := q.nextDma + 1, pc := q.pc + 1, st := .issuing }
     let flagged := fun (f : Option Nat) (l : List Dma) =>
       { q with dmas := l, flags := match f with | some n => putBit q.flags n true | none => q.flags }
     (s.Issues g 0xD 1022 → valid → q.dmas.length < 2 → ∃ t, exec (.dma g) s = .next t ∧ s.Issued t g started) ∧
     (s.Issues g 0xD 1022 → 2 ≤ q.dmas.length → ∃ t, exec (.dma g) s = .next t ∧ s.Issued t g { q with st := .dmaStall }) ∧
     (s.live g = true → q.st = .dmaStall → q.issued = false → q.damped = false → valid → q.dmas.length < 2 →
       ∃ t, exec (.dma g) s = .next t ∧ s.Issued t g started) ∧
     (∀ d x, q.dmas.find? (fun y => decide (y.id = d)) = some x →
       (x.failed = true → ∃ t, exec (.dmaComplete g d) s = .next t ∧ s.Only t g [galP g 0x08] ∧
         t.gal g = { s.gal g with seq := flagged x.errFlag (q.dmas.filter (fun y => !decide (y.id = d))) } ∧
         (t.par (galP g 0x08)).toNat = Min.min 0xFFFFFFFF ((s.par (galP g 0x08)).toNat + 1)) ∧
       (x.failed = false → x.units = 0 → x.waiting = 0 → (x.toMesh = false ∨ s.mesh.ready = []) →
         ∃ t, exec (.dmaComplete g d) s = .next t ∧ s.Only t g [galP g 0x9F] ∧
           t.gal g = { s.gal g with seq := flagged x.doneFlag (q.dmas.filter (fun y => !decide (y.id = d))) } ∧
           t.par (galP g 0x9F) = s.par (galP g 0x9F) + 1)))

/-- R179, R191: a reserved word, a CALL on a full stack, a RET on an empty one, an instruction at 1,023 that does not
transfer control, a PC past the store and an invalid DMA descriptor are sequencer faults with their codes: the
instruction has no effect and issue stops.
Whatever an instruction of the sequencer does, it changes no memory, register, flag, wire or tap of its gallery, no
other gallery, and of the device only parameters, events and the capture unit; and where the sequencer cannot issue, or
its word is another instruction, a command for it changes nothing (a stalled DMA apart). -/
def Obligations.SequencerFaultsAndFrame : Prop :=
  (∀ (s : State) (i : Instr) (g op : Nat),
     seqOp i = some (g, op) → s.canIssue g = true →
     let q := (s.gal g).seq
     let w := s.issueWord g
     let a := fld w 9 0
     (1023 < q.pc → exec i s = .next (s.seqFaulted g 4)) ∧
     (q.pc ≤ 1023 → (opOf w = 0xE ∨ opOf w = 0xF ∨ 0x14 ≤ opOf w) → exec i s = .next (s.seqFaulted g 1)) ∧
     (q.pc ≤ 1023 → opOf w = op →
       (op = 0x8 → 4 ≤ q.stack.length → exec i s = .next (s.seqFaulted g 2)) ∧
       (op = 0x12 → q.stack = [] → exec i s = .next (s.seqFaulted g 3)) ∧
       (op = 0x4 → (fld w 4 0 = 31 ∨ fld w 6 5 = 3) → exec i s = .next (s.seqFaulted g 1)) ∧
       (op = 0x6 → (fld w 14 10 = 31 ∨ fld w 16 15 = 3) → exec i s = .next (s.seqFaulted g 1)) ∧
       (op = 0xC → 2 ≤ fld w 1 0 → exec i s = .next (s.seqFaulted g 1)) ∧
       (op = 0xD → q.dmas.length < 2 →
         (a % 4 ≠ 0 ∨ 1020 < a ∨ fld (q.word a) 31 18 = 0 ∨ 2 ^ 21 < 16 * (fld (q.word a) 16 0 + fld (q.word a) 31 18)) →
         exec i s = .next (s.seqFaulted g 5)) ∧
       (q.pc = 1023 → op ∈ [0x10, 0x11, 0x13, 0x1, 0x2, 0x3, 0x9, 0xA, 0xB] → exec i s = .next (s.seqFaulted g 4)))) ∧
  (∀ (s t : State) (i : Instr) (g op : Nat),
     seqOp i = some (g, op) → exec i s = .next t →
     (∀ k, k ≠ g → t.gal k = s.gal k) ∧
     t.gal g = { s.gal g with
       seq := (t.gal g).seq, prefetch := (t.gal g).prefetch, demand := (t.gal g).demand
       switchTo := (t.gal g).switchTo, engine := (t.gal g).engine } ∧
     (t.gal g).seq.prog = (s.gal g).seq.prog ∧ (t.gal g).seq.entry = (s.gal g).seq.entry ∧
     t = { s with gals := t.gals, params := t.params, evt := t.evt, capt := t.capt } ∧
     (s.canIssue g = false → (s.gal g).seq.st ≠ .dmaStall → t = s) ∧
     (op ≠ opOf (s.issueWord g) → ¬ (opOf (s.issueWord g) = 0xE ∨ opOf (s.issueWord g) = 0xF ∨ 0x14 ≤ opOf (s.issueWord g)) →
       (s.gal g).seq.pc ≤ 1023 → (s.gal g).seq.st ≠ .dmaStall → t = s))

/-- R159, R165, R170, R173: a free engine takes the demand fill of a stalled SWITCH, else the oldest prefetch; the victim
of R159 is spilled first when it must be, else its plane is filled through the configuration port.  With neither it
spills the victim in the background.
R173: an uncorrectable word in the slot ends a demand fill with GAL_CTX_FAULT kind 2, the plane free and the
sequencer on its way, or a prefetch fill silently; either way the engine and the configuration port are free. -/
def Obligations.TransferStartAndBadSlots : Prop :=
  (∀ (s : State) (g p c : Nat) (ups : List Upset),
     let x := s.gal g
     let d := x.demand.isSome
     let bad := ups.foldl (fun t u => tabSet .sound t u.word (if u.fatal then .fatal else .corrected)) x.storeBad
     let slot := bad.filter (fun q => decide (2048 * c ≤ q.1 ∧ q.1 < 2048 * (c + 1)))
     let spill := fun (old : Nat) =>
       some { fill := false, plane := p, ctx := old, demand := false, since := s.clk.cyc, bad := none : Transfer }
     let wanted := (x.demand = some c ∧ x.seq.issued = false) ∨
       (x.demand = none ∧ x.prefetch.head? = some c ∧ (s.dom g).damper = .openD)
     x.engine = none → (s.dom g).st = .on → s.clocked = true → s.halted g = false → g ≤ 15 → x.Victim p →
     (wanted →
       (∀ old, (x.plane p).ctx = some old → (x.plane p).mustSpill = true →
         ∃ t, exec (.transferStart g ups) s = .next t ∧ s.Only t g [galP g 0x78] ∧
           t.gal g = { x with storeBad := bad, engine := spill old } ∧
           (t.par (galP g 0x78)).toNat = Min.min 0xFFFFFFFF ((s.par (galP g 0x78)).toNat +
             (if (x.plane p).accLive ≠ 0 ∧ (x.desc old).accUse = false then 1 else 0))) ∧
       ((x.plane p).mustSpill = false → x.portBusy = none → x.portWait = [] →
         ∃ t, exec (.transferStart g ups) s = .next t ∧
           (∀ k, k ≠ g → t.gal k = s.gal k) ∧
           t = { s with gals := t.gals, params := t.params, sweep := t.sweep } ∧
           t.gal g = { x with
             storeBad := bad, portBusy := some .engine, portWait := []
             planes := tabSet Plane.reset x.planes p { Plane.reset with filling := some c }
             prefetch := if d then x.prefetch else x.prefetch.filter (fun k => !decide (k = c))
             engine := some { fill := true, plane := p, ctx := c, demand := d, since := s.clk.cyc
                              bad := (slot.find? (fun q => decide (q.2 = .fatal))).map (fun q => (q.1 - 2048 * c) * 8) } } ∧
           (t.par (galP g 0x76)).toNat = Min.min 0xFFFFFFFF ((s.par (galP g 0x76)).toNat + (if (x.plane p).unused then 1 else 0)) ∧
           (t.par (galP g 0x7A)).toNat = Min.min 0xFFFFFFFF ((s.par (galP g 0x7A)).toNat +
             (slot.filter (fun q => decide (q.2 = .corrected))).length))) ∧
     (x.demand = none → x.prefetch = [] → (s.dom g).damper = .openD →
       ((x.plane p).ctx = some c → (x.plane p).mustSpill = true →
         ∃ t, exec (.transferStart g ups) s = .next t ∧ s.Only t g [galP g 0x78] ∧ t.gal g = { x with engine := spill c }) ∧
       ((x.plane p).mustSpill = false → exec (.transferStart g ups) s = .next s))) ∧
  (∀ (s : State) (g off : Nat) (e : Transfer),
     let x := s.gal g
     let freed := tabSet Plane.reset x.planes e.plane Plane.reset
     x.engine = some e → e.fill = true → e.bad = some off → x.portBusy = some .engine → x.portWait = [] →
     (s.clocked = true → e.demand = true → (s.par (galP g 0xA0)).getLsbD 2 = false →
       ∃ t, exec (.fillComplete g) s = .next t ∧
         t = { (s.count (galP g 0x75) 1).raise (0x22 + 6 * g) ([2, BitVec.ofNat 8 e.ctx] ++ leBytes 2 off) with gals := t.gals } ∧
         (∀ k, k ≠ g → t.gal k = s.gal k) ∧
         t.gal g = { x with
           engine := none, demand := none, portBusy := none, planes := freed
           store := (t.gal g).store, storeBad := (t.gal g).storeBad
           seq := match x.seq.st with
             | .switchStall _ => { x.seq with st := .issuing, pc := x.seq.pc + 1, issued := true }
             | _ => x.seq } ∧
         ∀ i, (i < 0x4000 * e.ctx + 0x1800 ∨ 0x4000 * (e.ctx + 1) ≤ i) → memByte (t.gal g).store i = memByte x.store i) ∧
     (e.demand = false →
       ∃ t, exec (.prefetchFillAbandoned g) s = .next t ∧ s.Only t g [] ∧
         t.gal g = { x with engine := none, planes := freed, portBusy := none }))

/-- R160–R163, R165, R166: at the end of a fill the plane holds the context: its configuration and registers are those of
the context-store slot, its accumulators those of the slot when the descriptor says so and ACC_VALID is set, else 0; it is
clean, stamped, and becomes active in the next cycle when the sequencer waits for it.
R162, R164: a spill writes the plane's registers and flags when they are dirty, and its accumulators when they are
live and the descriptor says so, into the slot, with sound check bits; ACC_VALID says whether the accumulators went;
the plane stays resident and is clean. -/
def Obligations.FillsAndSpillsCarryTheContext : Prop :=
  (∀ (s : State) (g : Nat) (e : Transfer),
     let x := s.gal g
     let p := e.plane
     let slot := 0x4000 * e.ctx
     let live := (x.desc e.ctx).accUse && (x.desc e.ctx).accValid
     s.clocked = true → x.engine = some e → e.fill = true → e.bad = none → x.portBusy = some .engine → x.portWait = [] →
     ∃ t, exec (.fillComplete g) s = .next t ∧
       (∀ k, k ≠ g → t.gal k = s.gal k) ∧ t = { s with gals := t.gals, params := t.params, sweep := t.sweep } ∧
       (∀ n, n ≠ galP g 0x73 → t.par n = s.par n) ∧
       (t.par (galP g 0x73)).toNat = Min.min 0xFFFFFFFF ((s.par (galP g 0x73)).toNat + 1) ∧
       t.gal g = { x with
         engine := none, portBusy := none, switchTo := if e.demand then some (p, e.ctx) else x.switchTo
         planeCfg := (t.gal g).planeCfg, regs := (t.gal g).regs, acc := (t.gal g).acc, flags := (t.gal g).flags
         planes := tabSet Plane.reset x.planes p
           { Plane.reset with
               ctx := some e.ctx, stamp := s.clk.cyc, accLive := if live then BitVec.allOnes 128 else 0
               unused := !e.demand } } ∧
       (∀ i, memByte (t.gal g).planeCfg i = if 0x1800 * p ≤ i ∧ i < 0x1800 * (p + 1) then memByte x.store (slot + (i - 0x1800 * p))
         else memByte x.planeCfg i) ∧
       (∀ h < 128,
         (∀ j < 16, (t.gal g).reg p h j = memWord x.store (slot + 0x1800 + 64 * h + 4 * j)) ∧
         (t.gal g).accOf p h = (if live then BitVec.ofNat 72 (leNat (memRead x.store (slot + 0x3800 + 16 * h) 9)) else 0) ∧
         (t.gal g).flagsOf p h = (memByte x.store (slot + 0x3809 + 16 * h)).setWidth 6 ∧
         (∀ k, k ≠ p → (t.gal g).accOf k h = x.accOf k h ∧ (t.gal g).flagsOf k h = x.flagsOf k h ∧
           ∀ j < 16, (t.gal g).reg k h j = x.reg k h j))) ∧
  (∀ (s : State) (g : Nat) (e : Transfer),
     let x := s.gal g
     let p := e.plane
     let slot := 0x4000 * e.ctx
     let dirty := (x.plane p).dirty
     let acc := decide ((x.plane p).accLive ≠ 0) && (x.desc e.ctx).accUse
     x.engine = some e → e.fill = false →
     ∃ t, exec (.spillComplete g) s = .next t ∧ s.Only t g [galP g 0x74] ∧
       (t.par (galP g 0x74)).toNat = Min.min 0xFFFFFFFF ((s.par (galP g 0x74)).toNat + 1) ∧
       t.gal g = { x with
         engine := none, store := (t.gal g).store, storeBad := (t.gal g).storeBad
         descs := tabMod CtxDesc.reset x.descs e.ctx (fun d => { d with accValid := acc })
         planes := tabMod Plane.reset x.planes p (fun q => { q with dirty := false, accKept := true }) } ∧
       (∀ h < 128,
         (dirty = true → (∀ j < 16, ∀ b < 4, memByte (t.gal g).store (slot + 0x1800 + 64 * h + 4 * j + b) =
             byteAt (leBytes 4 (x.reg p h j).toNat) b) ∧
           memByte (t.gal g).store (slot + 0x3809 + 16 * h) = (x.flagsOf p h).setWidth 8) ∧
         (acc = true → ∀ b < 9, memByte (t.gal g).store (slot + 0x3800 + 16 * h + b) = byteAt (leBytes 9 (x.accOf p h).toNat) b)) ∧
       (∀ i, (i < slot + 0x1800 ∨ slot + 0x4000 ≤ i ∨
           (dirty = false ∧ (i < slot + 0x3800 ∨ 9 ≤ i % 16)) ∨ (acc = false ∧ slot + 0x3800 ≤ i ∧ i % 16 ≠ 9)) →
         memByte (t.gal g).store i = memByte x.store i) ∧
       (∀ i, tabGet Decay.sound (t.gal g).storeBad i =
         if (dirty = true ∧ slot + 0x1800 ≤ 8 * i ∧ 8 * i < slot + 0x3800) ∨ (acc = true ∧ slot + 0x3800 ≤ 8 * i ∧ 8 * i < slot + 0x4000)
         then .sound else tabGet Decay.sound x.storeBad i))

/-- R194, R195, R198, R200–R202: in an enabled cycle every word moves over its link, segment or joint as the active
plane's switch records say; a neighbour input takes what the neighbouring switch sends towards it, a track input the word
of its segment, a joint the word of the segment on its driven side; what leaves on an edge lane carries the active plane's
tag and is gathered by the egress flows that own its lane; collisions, stale words and words without an owner are counted and lost. -/
def Obligations.WordsMoveOverTheSwitches : Prop := ∀ (s : State) (g : Nat),
  let x := s.gal g
  let lane := fun r : Nat =>
    let e := (x.routing (120 + r)).edge
    if bitOf e 3 then x.rowSeg r (bits e 2 0) 3 else none
  let leaves := fun r : Nat => (lane r).filter (fun w => decide (w.tag = x.active))
  let owned := fun r e : Nat => s.egressOn g e && (s.egressCfg g e).1.getLsbD r
  (s.live g = false → exec (.trackWord g) s = .next s) ∧
  (s.live g = true → ∃ t, exec (.trackWord g) s = .next t ∧ s.Only t g [galP g 0x80, galP g 0x81, galP g 0x82] ∧
    t.gal g = { x with
      nextWires := (t.gal g).nextWires, edgeOut := (t.gal g).edgeOut, egress := (t.gal g).egress
      egressNow := (t.gal g).egressNow } ∧
    (∀ h < 128, let input := fun d : Nat => tabGet none (t.gal g).nextWires (4 * h + d)
      input 0 = (if h % 8 = 0 then none else x.neighbour (h - 1) (x.routing (h - 1)).ssel) ∧
      input 1 = (if h / 8 = 15 then none else x.neighbour (h + 8) (x.routing (h + 8)).wsel) ∧
      input 2 = (if h % 8 = 7 then none else x.neighbour (h + 1) (x.routing (h + 1)).nsel) ∧
      input 3 = (if h / 8 = 0 then none else x.neighbour (h - 8) (x.routing (h - 8)).esel) ∧
      ∀ n < 4, tabGet none (t.gal g).nextWires (512 + 4 * h + n) =
        (let v := (x.routing h).tsel.getD n 0
         if bitOf v 4 = false then none
         else if bits v 3 0 < 8 then x.rowSeg (h % 8) (bits v 3 0) (h / 32) else x.colSeg (h / 8) (bits v 3 0 - 8) (h % 8 / 4))) ∧
    (∀ r < 8, ∀ k < 8, ∀ j < 3, tabGet none (t.gal g).nextWires (1024 + (r * 8 + k) * 3 + j) =
      (let c := bits (x.routing ((4 * j + 3) * 8 + r)).rjoint (2 * k + 1) (2 * k)
       if c = 1 then x.rowSeg r k j else if c = 2 then x.rowSeg r k (j + 1) else none)) ∧
    (∀ c < 16, ∀ k < 8, tabGet none (t.gal g).nextWires (1216 + c * 8 + k) =
      (let d := bits (x.routing (c * 8 + 3)).cjoint (2 * k + 1) (2 * k)
       if d = 1 then x.colSeg c k 0 else if d = 2 then x.colSeg c k 1 else none)) ∧
    (∀ r < 8, tabGet none (t.gal g).edgeOut r = leaves r) ∧
    (∀ e < 4, tabGet none (t.gal g).egressNow e = some (s.egressCfg g e) ∧
      tabGet [] (t.gal g).egress e = tabGet [] x.egress e ++
        (let u := (List.range 8).map (fun r => if owned r e then (leaves r).map (·.word) else none)
         if u.any (·.isSome) then [u] else [])) ∧
    (t.par (galP g 0x80)).toNat = Min.min 0xFFFFFFFF ((s.par (galP g 0x80)).toNat + x.collisions) ∧
    (t.par (galP g 0x81)).toNat = Min.min 0xFFFFFFFF ((s.par (galP g 0x81)).toNat +
      ((List.range 8).filter (fun r => (lane r).isSome && (leaves r).isNone)).length) ∧
    (t.par (galP g 0x82)).toNat = Min.min 0xFFFFFFFF ((s.par (galP g 0x82)).toNat +
      ((List.range 8).filter (fun r => (leaves r).isSome && !(List.range 4).any (owned r))).length))

/-- R198, R199: a data unit that the router hands over enters the lanes whose EDGE is enabled, its words on other rows lost
and counted; while the gallery is not live, or the buffer holds units, or a unit has entered in this cycle, it waits in
the 32-unit buffer, and is lost when the buffer is full.  A live gallery takes one buffered unit a cycle.
R234, R322: an egress flow closes its packet when it holds its number of units or when its lanes carry no word; the
packet is a WRITE with those units and their valid bits, to the destination of GAL_EGRESS, presented to the router. -/
def Obligations.EdgesTakeAndSendUnits : Prop :=
  (∀ (s : State) (g : Nat) (u : List (Option Word)) (l : List (List (Option Word))),
     let x := s.gal g
     let open' := fun r : Nat => bitOf (x.routing r).edge 3
     let entered := fun (y : Gallery) (t : State) =>
       s.Only t g [galP g 0x82] ∧ t.gal g = { y with edgeBusy := true, edgeIn := (t.gal g).edgeIn } ∧
       (∀ r < 8, tabGet none (t.gal g).edgeIn r = if open' r then u.getD r none else none) ∧
       (t.par (galP g 0x82)).toNat = Min.min 0xFFFFFFFF ((s.par (galP g 0x82)).toNat +
         ((List.range 8).filter (fun r => (u.getD r none).isSome && !open' r)).length)
     (x.edgeQ = u :: l →
       (s.live g = true → x.ingress = [] → x.edgeBusy = false → ∃ t, exec (.edgeIngress g) s = .next t ∧
         entered { x with edgeQ := l } t) ∧
       ((s.live g = false ∨ x.ingress ≠ [] ∨ x.edgeBusy = true) →
         (x.ingress.length < 32 → ∃ t, exec (.edgeIngress g) s = .next t ∧ s.Only t g [] ∧
           t.gal g = { x with edgeQ := l, ingress := x.ingress ++ [u] }) ∧
         (32 ≤ x.ingress.length → ∃ t, exec (.edgeIngress g) s = .next t ∧ s.Only t g [galP g 0x82] ∧
           t.gal g = { x with edgeQ := l } ∧
           (t.par (galP g 0x82)).toNat = Min.min 0xFFFFFFFF ((s.par (galP g 0x82)).toNat + (u.filter (·.isSome)).length)))) ∧
     (x.ingress = u :: l → s.live g = true → x.edgeBusy = false → ∃ t, exec (.ingressBufferRelease g) s = .next t ∧
       entered { x with ingress := l } t) ∧
     ((x.ingress = [] ∨ s.live g = false ∨ x.edgeBusy = true) → exec (.ingressBufferRelease g) s = .next s)) ∧
  (∀ (s : State) (g e : Nat),
     let x := s.gal g
     let l := tabGet [] x.egress e
     let c := (s.egressCfg g e).1
     let d := (s.egressCfg g e).2
     let n := fld c 12 8
     let more := s.egressOn g e && (List.range 8).any (fun r => c.getLsbD r && (tabGet none x.edgeOut r).isSome)
     let now := l.take (max 1 (min 16 n))
     e < 4 → l ≠ [] →
     (l.length < n → more = true → exec (.egressPacketClose g e) s = .next s) ∧
     ((n ≤ l.length ∨ more = false) → ∃ t p, exec (.egressPacketClose g e) s = .next t ∧
       t = { s with gals := t.gals, mesh := { s.mesh with ready := s.mesh.ready ++ [p] } } ∧
       (∀ k, k ≠ g → t.gal k = s.gal k) ∧
       t.gal g = { x with
         egress := tabSet [] x.egress e (l.drop now.length)
         egressNow := tabSet none x.egressNow e (some (s.par (galP g (0xB0 + 2 * e)), s.par (galP g (0xB1 + 2 * e)))) } ∧
       p.cmd = 0 ∧ p.len = now.length ∧ p.dx = fld d 2 0 ∧ p.dy = fld d 5 3 ∧ p.dport = fld d 6 6 ∧ p.dcard = fld d 10 7 ∧
       p.gt = c.getLsbD 13 ∧ p.flow = fld c 20 14 ∧ 6 * p.sy + p.sx = 6 * (g / 4) + g % 4 + 1 ∧ p.sport = 0 ∧ p.scard = s.card ∧
       (∀ i < 8 * now.length, p.valid.getLsbD i = ((now.getD (i / 8) []).getD (i % 8) none).isSome) ∧
       ∀ i < 8 * now.length, leAt p.data (4 * i) 4 = (((now.getD (i / 8) []).getD (i % 8) none).getD 0).toNat))

/-- R209–R213: a bank that is idle or in its last beat takes the visible request of highest effective priority, ties to
the lower requester, assay only when alone; the winner's burst holds the bank from the next cycle and every other visible
request counts a loss; a withdrawn winner is a stale grant, counted; with no visible request the park owner's request of
this cycle is granted at once. -/
def Obligations.BankDecisionPicksTheOwner : Prop := ∀ (s : State) (g b : Nat) (ups : List Upset) (w : BankReq),
  let x := s.gal g
  let k := x.bank b
  let bad := ups.foldl (fun t u => tabSet .sound t (b * 16384 + u.word % 16384) (if u.fatal then .fatal else .corrected)) x.memBad
  let seen := fun q : BankReq => q.bank = b ∧ q.raised < s.clk.cyc ∧ (∀ c, q.withdrawn = some c → s.clk.cyc ≤ c)
  let base := fun r : Nat =>
    if r < 32 then fld (s.par (galP g (0x90 + r / 8))) (4 * (r % 8) + 2) (4 * (r % 8))
    else if r = 32 then fld (s.par (galP g 0x94)) 2 0 else if r = 33 then fld (s.par (galP g 0x94)) 6 4 else 0
  let prio := fun q : BankReq => min 7 (base q.requester + q.losses)
  let below := fun q : BankReq => w.requester ≠ 34 ∧
    (q.requester = 34 ∨ prio q < prio w ∨ (prio q = prio w ∧ w.requester < q.requester))
  let granted := fun (t : State) (left : List BankReq) =>
    s.Only t g [galP g 0x9A] ∧
    t.gal g = { x with
      memBad := bad, requests := left, tapQ := (t.gal g).tapQ
      banks := tabSet Bank.reset x.banks b
        { burst := some (w.requester, s.clk.cyc + 1, w.beats), park := if w.requester = 34 then k.park else some w.requester } } ∧
    (∀ n, n ≠ w.requester → (t.gal g).tap n = x.tap n) ∧
    (∀ q l l', w.requester < 32 → x.tap w.requester = l ++ q :: l' → q.granted = false → (∀ r ∈ l, r.granted = true) →
      (t.gal g).tap w.requester = l ++ { q with granted := true } :: l')
  s.clocked = true → (s.dom g).st = .on →
  (k.burst = none ∨ ∃ r first, k.burst = some (r, first, 1) ∧ first ≤ s.clk.cyc ∧
    (32 ≤ r ∨ ∀ q ∈ x.tap r, q.granted = true → q.load = true)) →
  (w ∈ x.requests → seen w → (∀ q ∈ x.requests, seen q → q ≠ w → below q) →
    let lost := x.requests.map (fun q => if seen q ∧ q ≠ w then { q with losses := q.losses + 1 } else q)
    (w.withdrawn = none → ∃ t, exec (.bankDecision g b ups) s = .next t ∧ granted t (lost.erase w)) ∧
    (w.withdrawn ≠ none → ∃ t, exec (.bankDecision g b ups) s = .next t ∧ s.Only t g [galP g 0x99] ∧
      t.gal g = { x with memBad := bad, requests := lost.erase w } ∧
      (t.par (galP g 0x99)).toNat = Min.min 0xFFFFFFFF ((s.par (galP g 0x99)).toNat + 1))) ∧
  ((∀ q ∈ x.requests, ¬ seen q) →
    (k.park = some w.requester → x.requests.find? (fun q => decide (q.bank = b ∧ q.requester = w.requester ∧
        q.raised = s.clk.cyc) && q.withdrawn.isNone) = some w →
      ∃ t, exec (.bankDecision g b ups) s = .next t ∧ granted t (x.requests.erase w)) ∧
    (k.park = none → ∃ t, exec (.bankDecision g b ups) s = .next t ∧ s.Only t g [] ∧ t.gal g = { x with memBad := bad }))

/-- R227, R232, R237, R238: a router takes the first packet of its stream: one for this card from a living source joins
the mesh over the path first in X, then in Y, its units counted at every output of the path; a GT packet that does not
conform travels as BE and is counted, one that conforms waits for its window; a corrected link error is counted, one in
the data poisons the packet, one in the header at a router of its path discards it with event 0xC9.  A packet of a dead
source, to no node, or of a card without a route is not sent and is counted. -/
def Obligations.RoutersSendTheFirstOfAStream : Prop := ∀ (s : State) (k : Nat) (p : Packet) (err : LinkError),
  let path := meshPath p.sx p.sy p.dx p.dy
  let base := { s with mesh := { s.mesh with ready := s.mesh.ready.eraseIdx k } }
  let joins := fun (t : State) (q : Packet) (gt : Bool) =>
    t = { s with gals := t.gals, params := t.params, mesh := { base.mesh with
      flight := if gt then s.mesh.flight else s.mesh.flight ++ [{ pkt := q, since := s.clk.cyc, late := true }]
      gtWait := if gt then s.mesh.gtWait ++ [{ pkt := q, since := s.clk.cyc, late := decide ((s.flowWindows q.flow).length ≤ s.flowWaiting q.flow) }]
        else s.mesh.gtWait } } ∧
    (∀ n < 29, ∀ d < 4, t.par (0x3300 + 4 * n + d) = s.par (0x3300 + 4 * n + d) + wd (unitsOf p * path.count (n, d)))
  s.clocked = true → s.mesh.ready[k]? = some p → (∀ q ∈ s.mesh.ready.take k, sameStream p q = false) →
  (p.scard = s.card → p.dcard = s.card → s.deadAt p.sx p.sy p.sport = false → p.cmd ≠ 7 → p.dx ≤ 5 → p.dy ≤ 4 →
    p.sx ≤ 5 → p.sy ≤ 4 →
    (p.gt = false →
      (err = .none → ∃ t, exec (.packetSend p err) s = .next t ∧ joins t p false) ∧
      (err = .corrected → ∃ t, exec (.packetSend p err) s = .next t ∧ joins t p false ∧
        (t.par 0x3027).toNat = Min.min 0xFFFFFFFF ((s.par 0x3027).toNat + 1)) ∧
      (err = .data → ∃ t, exec (.packetSend p err) s = .next t ∧
        joins t (if unitsOf p = 1 then p else { p with poison := true }) false) ∧
      (∀ n d, err = .header n d → (n, d) ∈ path → ∃ t, exec (.packetSend p err) s = .next t ∧
        t = { base.raise 0xC9 [BitVec.ofNat 8 n, BitVec.ofNat 8 d] with params := t.params })) ∧
    (p.gt = true → err = .none → p.flow < 128 → s.conforms p = true → ∃ t, exec (.packetSend p err) s = .next t ∧ joins t p true) ∧
    (p.gt = true → err = .none → s.conforms p = false → ∃ t, exec (.packetSend p err) s = .next t ∧
      joins t { p with gt := false } false ∧ (t.par 0x3026).toNat = Min.min 0xFFFFFFFF ((s.par 0x3026).toNat + 1))) ∧
  (p.scard = s.card → s.deadAt p.sx p.sy p.sport = true → s.leavesDead p = false → awaits p = false →
    exec (.packetSend p err) s = .next (base.count 0x3022 1)) ∧
  ((p.scard ≠ s.card ∨ s.deadAt p.sx p.sy p.sport = false) → awaits p = false →
    (p.cmd = 7 ∨ 5 < p.dx ∨ 4 < p.dy ∨ (p.dcard ≠ s.card ∧ s.seamTo p.dcard = none)) →
    exec (.packetSend p err) s = .next (base.count 0x3025 1)) ∧
  ((p.scard ≠ s.card ∨ s.deadAt p.sx p.sy p.sport = false) → awaits p = false → p.cmd ≠ 7 → p.dx ≤ 5 → p.dy ≤ 4 →
    p.dcard ≠ s.card → ∀ l, s.seamTo p.dcard = some l → s.seamUp l = false →
    exec (.packetSend p err) s = .next (base.count (portP l 0x4A) 1))

/-- R226, R228, R239: a request of this card that cannot be delivered ends at once at its source, with NO_TARGET, with
LINK_DOWN over a seam link that is down, or with DEAD from a dead unit; one of another card is answered with ERROR.
R225, R235, R236, R276: the answer that names an outstanding transaction ends it, a READ_RSP with its data and status
0, an ERROR with its status; an answer to a retired tag is counted; a transaction that times out ends with TIMEOUT, is
counted and raises event 0xC0, while no active replay stops its timer. -/
def Obligations.TransactionsEnd : Prop :=
  (∀ (s : State) (k : Nat) (p : Packet) (err : LinkError) (t : Trans),
     let base := { s with mesh := { s.mesh with ready := s.mesh.ready.eraseIdx k } }
     let node := 6 * p.sy + p.sx
     let ends := fun (u : State) (st : Nat) => exec (.packetSend p err) s = .next
       (t.purpose.close st [] { u with mesh := { u.mesh with trans := u.mesh.trans.erase t } })
     s.clocked = true → s.mesh.ready[k]? = some p → (∀ q ∈ s.mesh.ready.take k, sameStream p q = false) → awaits p = true →
     (p.scard = s.card → s.mesh.trans.find? (fun x => decide (x.node = node ∧ x.port = p.sport ∧ x.tag = p.tag)) = some t →
       (s.deadAt p.sx p.sy p.sport = true → ends (base.count 0x3022 1) 0x20) ∧
       (s.deadAt p.sx p.sy p.sport = false →
         ((5 < p.dx ∨ 4 < p.dy ∨ (p.dcard ≠ s.card ∧ s.seamTo p.dcard = none)) → ends base 0x24) ∧
         (p.dx ≤ 5 → p.dy ≤ 4 → p.dcard ≠ s.card → ∀ l, s.seamTo p.dcard = some l → s.seamUp l = false → ends base 0x23))) ∧
     (p.scard ≠ s.card → (5 < p.dx ∨ 4 < p.dy) → ∃ u a, exec (.packetSend p err) s = .next u ∧
       u = { base with mesh := { base.mesh with ready := base.mesh.ready ++ [a] } } ∧ a.cmd = 6 ∧ a.status = 0x24 ∧
       a.tag = p.tag ∧ a.dx = p.sx ∧ a.dy = p.sy ∧ a.dport = p.sport ∧ a.dcard = p.scard)) ∧
  (∀ (s : State) (i : Nat) (f : Flying) (x : Target) (t : Trans),
     let p := f.pkt
     let base := s.taken i f
     let named := fun (u : Trans) => decide (u.node = 6 * p.dy + p.dx ∧ u.port = p.dport ∧ u.tag = p.tag)
     let closed := fun (u : State) (st : Nat) (d : List Byte) =>
       t.purpose.close st d { u with mesh := { u.mesh with trans := s.mesh.trans.erase t } }
     (s.Arrives i f x →
       (s.mesh.trans.find? named = none → (p.cmd = 2 → exec (.meshReadRsp i) s = .next (base.count 0x3021 1)) ∧
         (p.cmd = 6 → exec (.meshError i) s = .next (base.count 0x3021 1))) ∧
       (s.mesh.trans.find? named = some t →
         (p.cmd = 6 → exec (.meshError i) s = .next (closed base p.status [])) ∧
         (p.cmd = 2 → p.poison = true → exec (.meshReadRsp i) s = .next (closed (base.count 0x3028 1) 0x25 [])) ∧
         (p.cmd = 2 → p.poison = false → (∀ g id a n, t.purpose ≠ .dma g id a n) →
           exec (.meshReadRsp i) s = .next (closed base 0 (writeData p))) ∧
         (∀ g id a n, p.cmd = 2 → p.poison = false → t.purpose = .dma g id a n → s.kin.writeEn = true →
           n = 16 * (n / 16) → p.data.length = n → byteCount p = n →
           (∃ d ∈ (s.gal g).seq.dmas, d.id = id ∧ d.failed = false) →
           ∃ u, exec (.meshReadRsp i) s = .next u ∧ u = { base with gals := u.gals, mesh := { base.mesh with trans := s.mesh.trans.erase t } } ∧
             (∀ k, k ≠ g → u.gal k = s.gal k) ∧
             (∀ b, memByte (u.gal g).mem b = if a ≤ b ∧ b < a + n then byteAt p.data (b - a) else memByte (s.gal g).mem b) ∧
             (u.gal g).seq = { (s.gal g).seq with dmas := (s.gal g).seq.dmas.map (fun d =>
               if d.id = id then { d with waiting := d.waiting - 1 } else d) }))) ∧
     (∀ node port tag, s.mesh.trans.find? (fun u => decide (u.node = node ∧ u.port = port ∧ u.tag = tag)) = some t →
       let paused := t.dcard ≠ s.card ∧ ∃ l, s.seamTo t.dcard = some l ∧ (s.port l).seam.replaying = true
       (s.clocked = true → ¬ paused → exec (.transactionTimeout node port tag) s = .next
         (closed ((s.count 0x3020 1).raise 0xC0
           ([BitVec.ofNat 8 (node % 6), BitVec.ofNat 8 (node / 6), BitVec.ofNat 8 port, 0] ++ leBytes 2 tag)) 0x22 [])) ∧
       (paused → exec (.transactionTimeout node port tag) s = .next s)))

/-- R24, R217, R219, R226, R237, Table 13.3: a WRITE at a gallery stores its bytes in stream memory, or gives its units to
the edge ingress with their valid bits, and is counted when it lies outside both; a READ_REQ is answered with the bytes,
with RANGE past the end, with ECC when a word is uncorrectable; a poisoned WRITE is dropped and counted.
R226, R291: a MESSAGE at the PCI Express endpoint ends its sender's transaction when the sender is of this card, and
raises vector 2 + CODE[0] unless the endpoint is in D3hot, where it waits; at any other target it receives NO_TARGET. -/
def Obligations.PacketsReachMemoryEdgeAndHost : Prop :=
  (∀ (s : State) (i g : Nat) (f : Flying),
     let p := f.pkt
     let base := s.taken i f
     let x := s.gal g
     let n := byteCount p
     let answers := fun (u v : State) (a : Packet) =>
       v = { u with mesh := { u.mesh with ready := s.mesh.ready ++ [a] } } ∧ a.tag = p.tag ∧ a.dx = p.sx ∧ a.dy = p.sy ∧
       a.dport = p.sport ∧ a.dcard = p.scard
     s.Arrives i f (.gal g) →
     (p.cmd = 0 → p.poison = true → exec (.meshWrite i) s = .next (base.count 0x3028 1)) ∧
     (p.cmd = 0 → p.poison = false →
       (p.addr < 0x200000 → p.addr % 16 = 0 → p.addr + n ≤ 0x200000 →
         (s.kin.writeEn = false → exec (.meshWrite i) s = .next base) ∧
         (s.kin.writeEn = true → ∃ u, exec (.meshWrite i) s = .next u ∧ u = { base with gals := u.gals } ∧
           (∀ k, k ≠ g → u.gal k = s.gal k) ∧
           ∀ a, memByte (u.gal g).mem a = if p.addr ≤ a ∧ a < p.addr + n then byteAt (writeData p) (a - p.addr) else memByte x.mem a)) ∧
       (p.addr = 0x100000000 → ∃ u l, exec (.meshWrite i) s = .next u ∧ u = { base with gals := u.gals } ∧
         (∀ k, k ≠ g → u.gal k = s.gal k) ∧ u.gal g = { x with edgeQ := x.edgeQ ++ l } ∧ l.length = p.len ∧
         ∀ j < 8 * p.len, (l.getD (j / 8) []).getD (j % 8) none =
           if p.valid.getLsbD j ∧ 4 * j < n then some (wd (leAt p.data (4 * j) 4)) else none) ∧
       ((p.addr ≠ 0x100000000 ∧ (0x200000 ≤ p.addr ∨ p.addr % 16 ≠ 0) ∨ (p.addr < 0x200000 ∧ 0x200000 < p.addr + n)) →
         exec (.meshWrite i) s = .next (base.count 0x3025 1))) ∧
     (p.cmd = 1 →
       ((0x200000 ≤ p.addr ∨ p.addr % 16 ≠ 0) → ∃ u a, exec (.meshReadReq i) s = .next u ∧ answers base u a ∧
         a.cmd = 6 ∧ a.status = 0x24) ∧
       (p.addr < 0x200000 → p.addr % 16 = 0 → 0x200000 < p.addr + n → ∃ u a, exec (.meshReadReq i) s = .next u ∧
         answers base u a ∧ a.cmd = 6 ∧ a.status = 0x09) ∧
       (p.addr < 0x200000 → p.addr % 16 = 0 → p.addr + n ≤ 0x200000 → x.allPrimed = true → x.march.step = 0 →
         ((∀ k, 8 * k < n → tabGet .sound x.memBad (p.addr / 8 + k) = .sound) → ∃ u a, exec (.meshReadReq i) s = .next u ∧
           answers base u a ∧ a.cmd = 2 ∧ a.len = p.len ∧ a.half = p.half ∧ a.data = memRead x.mem p.addr n) ∧
         (∀ k, 8 * k < n → tabGet .sound x.memBad (p.addr / 8 + k) = .fatal → (s.par (galP g 0xA0)).getLsbD 1 = false →
           ∃ u a, exec (.meshReadReq i) s = .next u ∧
             answers { base with params := u.params, evt := u.evt } u a ∧ a.cmd = 6 ∧ a.status = 0x25)))) ∧
  (∀ (s : State) (i : Nat) (f : Flying) (t : Target) (c : Instr),
     let p := f.pkt
     let base := s.taken i f
     let ended := match s.mesh.trans.find? (fun u => decide (u.node = 6 * p.sy + p.sx ∧ u.port = p.sport ∧ u.tag = p.tag)) with
       | some u => if p.scard = s.card then u.purpose.close 0 [] { base with mesh := { base.mesh with trans := s.mesh.trans.erase u } } else base
       | none => base
     s.Arrives i f t → p.cmd = 3 → p.poison = false →
     (t = .pcie → (c = .meshMessage i ∨ c = .upstreamMsix i) →
       (ended.d3hot = false → exec c s = .next (raiseVector (2 + p.code % 2) ended)) ∧
       (ended.d3hot = true → exec c s = .next { ended with pcie := { ended.pcie with held := ended.pcie.held ++ [p] } })) ∧
     (t ≠ .pcie → ∃ u a, exec (.meshMessage i) s = .next u ∧
       u = { base with mesh := { base.mesh with ready := base.mesh.ready ++ [a] } } ∧ a.cmd = 6 ∧ a.status = 0x24 ∧
       a.tag = p.tag ∧ a.dx = p.sx ∧ a.dy = p.sy ∧ a.dport = p.sport ∧ a.dcard = p.scard))

/-- R24, R237–R242: at an absent, dead, off or re-kindling unit a posted packet is dropped and counted in the counter of its
cause, a request receives ERROR with that status, an answer counts as one to a retired tag; a WAKE, or AUTOWAKE at the
first packet, starts the re-kindling of a gallery that can; a sleeping domain wakes and its router holds the packet; a
fenced port holds it too, the others of its source behind it; a WAKE of a domain that is on is absorbed, and one at a
service node is dropped and counted. -/
def Obligations.RoutersGuardTheirTargets : Prop := ∀ (s : State) (i : Nat) (f : Flying) (t : Target) (c : Instr),
  let p := f.pkt
  let base := { s with mesh := { s.mesh with flight := s.mesh.flight.eraseIdx i } }
  let turned := fun (u : State) (ctr status : Nat) =>
    if p.cmd = 1 ∨ p.cmd = 3 ∨ p.cmd = 5 then
      { u with mesh := { u.mesh with ready := u.mesh.ready ++
        [{ blankPacket with
            dx := p.sx, dy := p.sy, dport := p.sport, dcard := p.scard, sx := p.dx, sy := p.dy, sport := p.dport, scard := p.dcard
            cmd := 6, tag := p.tag, status := status, valid := BitVec.allOnes 128 }] } }
    else if p.cmd = 2 ∨ p.cmd = 6 then u.count 0x3021 1 else u.count ctr 1
  let held := fun (u : State) =>
    let here := s.mesh.held.filter (fun q => decide (q.pkt.dx = p.dx ∧ q.pkt.dy = p.dy ∧ q.pkt.dport = p.dport))
    let behind := here.any (fun q => decide (q.pkt.sx = p.sx ∧ q.pkt.sy = p.sy ∧ q.pkt.sport = p.sport ∧ q.pkt.scard = p.scard))
    if behind = true ∨ 32 ≤ here.length then { u with mesh := { u.mesh with pressed := u.mesh.pressed ++ [{ f with late := true }] } }
    else { u with mesh := { u.mesh with held := u.mesh.held ++ [{ f with late := true }] } }
  s.clocked = true → s.mesh.flight[i]? = some f → p.dcard = s.card → targetAt p.dx p.dy p.dport = t →
  (∀ e ∈ s.mesh.flight.take i, sameStream p e.pkt = false) →
  [.meshWrite i, .meshReadReq i, .meshReadRsp i, .meshMessage i, .meshWake i, .meshConfig i, .meshError i][p.cmd]? = some c →
  (p.cmd = 5 → t ≠ .keeper) →
  (t.absent s.variant = true → exec c s = .next (turned base 0x3023 0x0C)) ∧
  (t.absent s.variant = false →
    (∀ u, t.unit = some u → s.isDead u = true → exec c s = .next (turned base 0x3022 0x20)) ∧
    (∀ d, t.dom = some d → s.variant.hasDom d = true → (∀ u, t.unit = some u → s.isDead u = false) →
      (((s.dom d).st = .off ∨ (s.dom d).rekindling = true) →
        let first := (s.dom d).asleepDone = false
        let wants := d < 16 ∧ (p.cmd = 4 ∨ (first ∧ (s.par (galP d 0x44)).getLsbD 0 = true)) ∧ s.canRekindle d = true
        let started := if wants then base.modDom d (fun x => { x with rekindling := true }) else base
        let noted := if first then
            (started.modDom d (fun x => { x with asleepDone := true })).raise 0xC5 [BitVec.ofNat 8 d, if wants then 1 else 0]
          else started
        exec c s = .next (if p.cmd = 4 then noted else turned noted 0x3024 0x21)) ∧
      ((s.dom d).rekindling = false →
        ((s.dom d).st = .sleep →
          let woken := if (s.dom d).waking = true then base
            else (base.modDom d (fun x => { x with waking := true })).raise 0xC4 [BitVec.ofNat 8 d]
          exec c s = .next (if p.cmd = 4 then woken else held woken)) ∧
        ((s.dom d).st = .on → s.holdsAt d p = true → exec c s = .next (held base)) ∧
        ((s.dom d).st = .on → s.holdsAt d p = false → p.cmd = 4 → exec c s = .next (s.taken i f))))) ∧
  ((∀ d, t.dom = some d → s.variant.hasDom d = false) → t.unit = none → p.cmd = 4 → exec c s = .next ((s.taken i f).count 0x3025 1))

/-- R89, R365–R368: a WRITE of a gallery of this card to the keeper bridge fills its staging area, the frame bytes below
0x200 and the 16 command bytes above, unless a commit is in progress, when a new commit is refused with BUSY; before write
enable nothing is kept; any other WRITE is counted as undeliverable.  A commit is taken: checks 1 and 2 of R365 refuse it,
recorded, counted and reported, or the frame leaves as one CONFIG packet to its target.  A CONFIG packet to the bridge is
one commit of its own. -/
def Obligations.BridgeTakesStagedFrames : Prop := ∀ (s : State) (i g : Nat) (f : Flying),
  let p := f.pkt
  let base := s.taken i f
  let x := s.gal g
  let n := byteCount p
  let cmd := slice (writeData p) (0x200 - p.addr) 16
  let own := p.scard = s.card ∧ targetAt p.sx p.sy p.sport = .gal g
  let self := fun (cfa : Nat) => cfaGal cfa = g ∧ cfaKind cfa ≤ 1
  let refused := fun (u v : State) (seq cfa st : Nat) (busy : Bool) =>
    v = { (u.count (galP g 0x52) 1).raise 0xD8 ([BitVec.ofNat 8 g, BitVec.ofNat 8 st, 0, 0] ++ leBytes 4 cfa) with
      gals := v.gals, mesh := v.mesh } ∧
    (∀ k, k ≠ g → v.gal k = s.gal k) ∧
    v.gal g = { x with
      staging := { x.staging with seq := seq, status := st, cfa := cfa, busy := busy, held := false }
      transit := if self cfa then x.transit - 1 else x.transit }
  let sent := fun (u v : State) (cfa seq : Nat) (d : List Byte) (ask : Option Packet) => ∃ q : Packet,
    v = { u with mesh := { u.mesh with
      ready := u.mesh.ready ++ [q], nextTag := (q.tag + 1) % 4096
      trans := u.mesh.trans ++ [{ node := 24, port := 0, tag := q.tag, dcard := s.card, dnode := 6 * q.dy + q.dx,
                                  dport := q.dport, purpose := .icp g seq cfa ask }] } } ∧
    q.cmd = 5 ∧ q.len = 16 ∧ q.addr = cfa ∧ q.data = d ∧ q.dcard = s.card ∧ q.scard = s.card ∧ q.sx = 0 ∧ q.sy = 4 ∧ q.sport = 0 ∧
    q.poison = false ∧ q.gt = false ∧
    (if cfaKind cfa = 3 then q.dx = 3 ∧ q.dy = 4 else 6 * q.dy + q.dx = galNode (cfaGal cfa)) ∧ q.dport = 0
  (s.Arrives i f .keeper → p.cmd = 0 → p.poison = false →
    (own → 0 < n → p.addr % 16 = 0 → p.addr + n ≤ 0x210 →
      (s.kin.writeEn = false → exec (.icpStageWrite i) s = .next base) ∧
      (s.kin.writeEn = true → x.staging.busy = false → ∃ u, exec (.icpStageWrite i) s = .next u ∧
        u = { base with gals := u.gals } ∧ (∀ k, k ≠ g → u.gal k = s.gal k) ∧
        u.gal g = { x with staging := { x.staging with
          data := (u.gal g).staging.data
          command := if p.addr + n = 0x210 then cmd else x.staging.command
          busy := decide (p.addr + n = 0x210) && (byteAt cmd 6).getLsbD 0
          held := if p.addr + n = 0x210 then false else x.staging.held } } ∧
        ∀ a, memByte (u.gal g).staging.data a =
          if p.addr ≤ a ∧ a < p.addr + n ∧ a < 0x200 then byteAt (writeData p) (a - p.addr) else memByte x.staging.data a) ∧
      (s.kin.writeEn = true → x.staging.busy = true →
        ((p.addr + n = 0x210 ∧ (byteAt cmd 6).getLsbD 0 = true) → ∃ u, exec (.icpStageWrite i) s = .next u ∧
          refused base u (leAt cmd 4 2) (leAt cmd 0 4) 0x0A true ∧ u.mesh = base.mesh) ∧
        (¬ (p.addr + n = 0x210 ∧ (byteAt cmd 6).getLsbD 0 = true) → exec (.icpStageWrite i) s = .next base))) ∧
    ((¬ (∃ g, p.scard = s.card ∧ targetAt p.sx p.sy p.sport = .gal g) ∨ (own ∧ (p.addr % 16 ≠ 0 ∨ 0x210 < p.addr + n))) →
      exec (.icpStageWrite i) s = .next (base.count 0x3025 1))) ∧
  (let cfa := leAt x.staging.command 0 4
   let seq := leAt x.staging.command 4 2
   let d := memRead x.staging.data 0 512
   s.clocked = true → x.staging.busy = true → s.forwarded g = false → s.outstanding 24 0 < 64 →
    (needsAbsent s.variant cfa d = true → ∃ u, exec (.icpCommit g) s = .next u ∧ refused s u seq cfa 0x0D false ∧ u.mesh = s.mesh) ∧
    (needsAbsent s.variant cfa d = false → serviceKind s cfa = false →
      ∃ u, exec (.icpCommit g) s = .next u ∧ refused s u seq cfa 0x09 false ∧ u.mesh = s.mesh) ∧
    (needsAbsent s.variant cfa d = false → serviceKind s cfa = true →
      ∃ u, exec (.icpCommit g) s = .next u ∧ sent s u cfa seq d none)) ∧
  (let cfa := p.addr % 2 ^ 32
   s.Arrives i f .keeper → p.cmd = 5 → p.poison = false → s.outstanding 24 0 < 64 →
    (own → s.kin.writeEn = false → exec (.icpConfigSubmit i) s = .next base) ∧
    (own → s.kin.writeEn = true →
      (∀ st, (needsAbsent s.variant cfa p.data = true ∧ st = 0x0D) ∨
          (needsAbsent s.variant cfa p.data = false ∧ serviceKind s cfa = false ∧ st = 0x09) →
        ∃ u a, exec (.icpConfigSubmit i) s = .next u ∧ refused base u 0 cfa st x.staging.busy ∧
          u.mesh = { base.mesh with ready := base.mesh.ready ++ [a] } ∧ a.cmd = 6 ∧ a.status = st ∧ a.tag = p.tag ∧
          a.dx = p.sx ∧ a.dy = p.sy ∧ a.dport = p.sport ∧ a.dcard = p.scard) ∧
      (needsAbsent s.variant cfa p.data = false → serviceKind s cfa = true →
        ∃ u, exec (.icpConfigSubmit i) s = .next u ∧ sent base u cfa 0 p.data (some p))))

/-- R359, R365, R367, R368, R389: a CONFIG packet of this card's bridge at the target its address names: a unit that is
absent and a frame out of range are refused; the frame of a gallery for itself is held for its FENCE, up to four; any
other is written and answered at once when the configuration port is free and waits for it otherwise.  From anywhere else
it receives NO_TARGET.
R174, R363, R370, R389: at a boundary the configuration port goes to the waiting writer of the highest rank, the sweep
on ties, else the one that waited first, and a sweep that loses gains a rank; a lamp or mesh frame is written and answered
at its grant.  CONFIG_WRITE asks for its frame's port, or is refused with the status of the first check that fails. -/
def Obligations.ConfigurationFramesReachTheirPlace : Prop :=
  (∀ (s : State) (i g : Nat) (f : Flying) (t : Target),
     let p := f.pkt
     let base := s.taken i f
     let cfa := p.addr % 2 ^ 32
     let port := if cfaKind cfa = 3 then 16 else cfaGal cfa
     let bridge := p.scard = s.card ∧ p.sx = 0 ∧ p.sy = 4 ∧ p.sport = 0
     let mine := bridge ∧ t = (if cfaKind cfa = 3 then .tinder else .gal (cfaGal cfa))
     let self := cfaGal cfa = p.code ∧ cfaKind cfa ≤ 1
     let grant := fun (k : Nat) (w : Writer) (u : State) => u.modGal k (fun x => { x with
       portBusy := some w
       portWait := (x.portWait.erase w).map (fun v =>
         match v with | .sweep n => if w.isSweep = true then v else .sweep (n + 1) | _ => v) })
     let asks := fun (k : Nat) (w : Writer) (u : State) => u.modGal k (fun x => { x with portWait := x.portWait ++ [w] })
     let answer := fun (u v : State) (cmd st : Nat) => ∃ a : Packet,
       v = { u with mesh := { u.mesh with ready := u.mesh.ready ++ [a] } } ∧ a.cmd = cmd ∧ a.status = st ∧ a.len = 0 ∧ a.tag = p.tag ∧
       a.dx = p.sx ∧ a.dy = p.sy ∧ a.dport = p.sport ∧ a.dcard = p.scard
     s.Arrives i f t → p.cmd = 5 → p.poison = false → t ≠ .keeper →
     (¬ mine → ∃ u, exec (.meshConfig i) s = .next u ∧ answer base u 6 0x24) ∧
     (mine →
       (needsAbsent s.variant cfa p.data = true → ∃ u, exec (.meshConfig i) s = .next u ∧ answer base u 6 0x0D) ∧
       (needsAbsent s.variant cfa p.data = false → (serviceKind s cfa = false ∨ contentOk cfa p.data = false) →
         ∃ u, exec (.meshConfig i) s = .next u ∧ answer base u 6 0x09) ∧
       (serviceStatus s cfa p.data = 0 →
         (self → 4 ≤ (s.gal (cfaGal cfa)).hold.length → ∃ u, exec (.meshConfig i) s = .next u ∧ answer base u 6 0x0A) ∧
         (self → (s.gal (cfaGal cfa)).hold.length < 4 → ∃ u, exec (.meshConfig i) s = .next u ∧
           answer (base.modGal (cfaGal cfa) (fun x => { x with
             transit := x.transit - 1, hold := x.hold ++ [{ cfa := cfa, writer := some (cfaGal cfa), data := p.data }] })) u 2 0) ∧
         (¬ self → (s.gal port).portBusy = none → (s.gal port).portWait = [] → base.fillBlocks cfa = false →
           ∃ u, exec (.meshConfig i) s = .next u ∧
             answer (serviceWrite cfa p.data (grant port (.icp p) (asks port (.icp p) base))) u 2 0) ∧
         (¬ self → (s.gal port).portBusy.isSome = true → .icp p ∉ (s.gal port).portWait → (s.gal port).portBusy ≠ some (.icp p) →
           exec (.meshConfig i) s = .next (asks port (.icp p) base))))) ∧
  (∀ (s : State) (g : Nat) (w : Writer) (pre post : List Writer) (c : Cmd),
     let x := s.gal g
     let grant := fun (k : Nat) (w : Writer) (u : State) => u.modGal k (fun x => { x with
       portBusy := some w
       portWait := (x.portWait.erase w).map (fun v =>
         match v with | .sweep n => if w.isSweep = true then v else .sweep (n + 1) | _ => v) })
     let asks := fun (k : Nat) (w : Writer) (u : State) => u.modGal k (fun x => { x with portWait := x.portWait ++ [w] })
     let granted := grant g w (s.modGal g (fun x => { x with portBusy := none }))
     (s.clocked = true → g ≤ 16 →
       ((∀ v ∈ x.portWait, s.canGrant v = false) →
         exec (.configPortBoundary g) s = .next (s.modGal g (fun x => { x with portBusy := none }))) ∧
       (x.portWait = pre ++ w :: post → s.canGrant w = true →
         (∀ v ∈ pre, s.canGrant v = true → writerRank v < writerRank w ∨ (writerRank v = writerRank w ∧ w.isSweep = true)) →
         (∀ v ∈ post, s.canGrant v = true → writerRank v < writerRank w ∨ (writerRank v = writerRank w ∧ v.isSweep = false)) →
         exec (.configPortBoundary g) s = .next (match w with
           | .lamp c => respond c 0 [] (serviceWrite (leAt c.body 0 4) (c.body.drop 4) granted)
           | .icp p => replyData p 0 [] (serviceWrite (p.addr % 2 ^ 32) p.data granted)
           | _ => granted))) ∧
     (let cfa := leAt c.body 0 4
      let d := c.body.drop 4
      let port := if cfaKind cfa = 3 then 16 else cfaGal cfa
      let sleeps := if cfaKind cfa = 3 then (s.dom 24).st ≠ .on ∨ (s.dom 24).rekindling = true
        else (s.dom (cfaGal cfa)).st = .off ∨ (s.dom (cfaGal cfa)).rekindling = true
      s.Starts c 0x44 →
       (needsAbsent s.variant cfa d = true → exec (.configWrite c.via) s = .next (respond c 0x0D [] s)) ∧
       (needsAbsent s.variant cfa d = false →
         ((cfaOk cfa = false ∨ cfaKind cfa = 2 ∨ cfaKind cfa = 4) → exec (.configWrite c.via) s = .next (respond c 0x09 [] s)) ∧
         (cfaOk cfa = true → cfaKind cfa ≠ 2 → cfaKind cfa ≠ 4 →
           (sleeps → exec (.configWrite c.via) s = .next (respond c 0x21 [] s)) ∧
           (¬ sleeps → (serviceKind s cfa = false ∨ contentOk cfa d = false) → exec (.configWrite c.via) s = .next (respond c 0x09 [] s)) ∧
           (¬ sleeps → serviceKind s cfa = true → contentOk cfa d = true → s.fillBlocks cfa = false →
             (s.gal port).portBusy = none → (s.gal port).portWait = [] →
             exec (.configWrite c.via) s = .next (respond c 0 [] (serviceWrite cfa d
               (grant port (.lamp c) (asks port (.lamp c) (startCmd c s))))))))))

/-- R97, R230–R233: a write of 1 to a flow's ENABLE checks its ends and windows, absent units, dead units and conflicts
with other flows' slots, in this order; a refusal leaves the flow disabled with its status recorded, success reserves the
slots; a write of 0 disables it and its slots stay reserved until the slot frame.  At output k of its path window slot i
of a window starting at s is slot (s + 3k + i) mod 64.
R232, R233: the oldest packet of a flow leaves at the start of a window that holds it, and is counted; it leaves as
best effort, and is counted as not conforming, when the window is too short for it or its flow is disabled. -/
def Obligations.FlowsReserveSlotsAndSendInWindows : Prop :=
  (∀ (s : State) (f : Nat) (v : Word),
     let a := s.flowSrc f
     let b := s.flowDst f
     let ws := s.flowWindows f
     let port := fun (e : Nat × Nat × Nat) => targetAt e.1 e.2.1 e.2.2
     let absent := fun (e : Nat × Nat × Nat) => (∃ g, port e = .gal g ∧ s.variant.hasGal g = false) ∨ (∃ p, port e = .port p ∧ s.variant.hasPort p = false)
     let dead := fun (e : Nat × Nat × Nat) => (∃ g, port e = .gal g ∧ s.isDead g = true) ∨ (∃ p, port e = .port p ∧ s.isDead (16 + p) = true)
     let wrong := port a = .nothing ∨ port b = .nothing ∨ a = b ∨ (∃ w ∈ ws, w.2 = 0 ∨ 17 < w.2) ∨
       (∃ w w', ws = [w, w'] ∧ ∃ i < w.2, ∃ j < w'.2, (w.1 + i) % 64 = (w'.1 + j) % 64)
     let clash := ∃ e < 128, e ≠ f ∧ s.flowActive e = true ∧ ∃ k l o, (s.flowOutputs e)[k]? = some o ∧ (s.flowOutputs f)[l]? = some o ∧
       ∃ w ∈ s.flowWindows e, ∃ i < w.2, ∃ w' ∈ ws, ∃ j < w'.2, (w.1 + 3 * k + i) % 64 = (w'.1 + 3 * l + j) % 64
     let refuse := fun (st : Nat) => exec (.flowCommit f v) s =
       .next ((s.putPar (0x3102 + 4 * f) (wd ((if s.flowActive f = true then 2 else 0) + 256 * st))).ended st)
     f < 128 → s.Writes (0x3102 + 4 * f) →
     (v.getLsbD 0 = true →
       (s.flowOn f = true → exec (.flowCommit f v) s = .next (s.ended 0)) ∧
       (s.flowOn f = false →
         (wrong → refuse 0x09) ∧
         (¬ wrong → (absent a ∨ absent b) → refuse 0x0C) ∧
         (¬ wrong → ¬ absent a → ¬ absent b → (dead a ∨ dead b) → refuse 0x20) ∧
         (¬ wrong → ¬ absent a → ¬ absent b → ¬ dead a → ¬ dead b →
           (clash → refuse 0x0F) ∧
           (¬ clash → exec (.flowCommit f v) s = .next ((s.putPar (0x3102 + 4 * f) 3).ended 0))))) ∧
     (v.getLsbD 0 = false →
       (s.flowOn f = true → exec (.flowRelease f v) s = .next ((s.putPar (0x3102 + 4 * f) (s.par (0x3102 + 4 * f) &&& ~~~1#32)).ended 0)) ∧
       (s.flowOn f = false → exec (.flowRelease f v) s = .next (s.ended 0)))) ∧
  (∀ (s : State) (i : Nat) (f : Flying) (w : Nat × Nat),
     let rest := { s.mesh with gtWait := s.mesh.gtWait.eraseIdx i }
     let units := if f.pkt.cmd = 1 then 1 else 1 + f.pkt.len
     let demoted := ({ s with mesh := { rest with flight := s.mesh.flight ++ [{ f with pkt := { f.pkt with gt := false }, late := true }] } } : State).count 0x3026 1
     s.clocked = true → s.mesh.gtWait[i]? = some f → (∀ e ∈ s.mesh.gtWait.take i, e.pkt.flow ≠ f.pkt.flow) →
     (s.flowOn f.pkt.flow = false → exec (.gtWindowSend i) s = .next demoted) ∧
     (s.flowOn f.pkt.flow = true →
       ((s.flowWindows f.pkt.flow).find? (fun x => decide (x.1 = s.clk.tick.toNat % 64)) = some w →
         (units ≤ w.2 → exec (.gtWindowSend i) s = .next
           (({ s with mesh := { rest with flight := s.mesh.flight ++ [f] } } : State).count (0x3103 + 4 * f.pkt.flow) 1)) ∧
         (w.2 < units → exec (.gtWindowSend i) s = .next demoted)) ∧
       ((∀ x ∈ s.flowWindows f.pkt.flow, x.1 ≠ s.clk.tick.toNat % 64) → exec (.gtWindowSend i) s = .next s)))

/-- R97, R238, R239: a host write marks the present units it names dead with cause 7, each reported with event 0xC1 and
recorded for a gallery, its transactions ending with DEAD; another write releases dead units, each reported with
event 0xC2.
R240, R241, R375: a wake ends with the domain on and open, the packets held for it delivered in their order before
those that arrive later, and GT packets among them reported once with their flows. -/
def Obligations.DeadUnitsAndWakes : Prop :=
  (∀ (s : State) (v : Word),
     (s.Writes 0x3011 →
       (∃ t, exec (.nocDeadSet v) s = .next t ∧ ∀ u < 32, t.isDead u =
         (s.isDead u || (v.getLsbD u && (if u < 16 then s.variant.hasGal u else s.variant.hasPort (u - 16))))) ∧
       (∀ u < 32, v = 1#32 <<< u →
         let place := if u < 16 then (galNode u, 0) else (portNode (u - 16), (u - 16) % 2)
         let noted := if u < 16 then s.putPar (galP u 0xA1) 7 else s
         let marked := ({ noted with mesh := { s.mesh with dead := s.mesh.dead ||| v } } : State).raise 0xC1 [BitVec.ofNat 8 u, 7]
         ((if u < 16 then s.variant.hasGal u else s.variant.hasPort (u - 16)) = true → s.isDead u = false →
           exec (.nocDeadSet v) s = .next (((s.mesh.trans.filter (fun x => decide (x.node = place.1 ∧ x.port = place.2))).foldl
             (fun r x => endTrans x 0x20 [] r) marked).ended 0)) ∧
         (((if u < 16 then s.variant.hasGal u else s.variant.hasPort (u - 16)) = false ∨ s.isDead u = true) →
           exec (.nocDeadSet v) s = .next (s.ended 0)))) ∧
     (s.Writes 0x3012 →
       (∃ t, exec (.nocDeadClear v) s = .next t ∧ (∀ u < 32, t.isDead u = (s.isDead u && !v.getLsbD u)) ∧
         t = { s with mesh := { s.mesh with dead := t.mesh.dead }, evt := { s.evt with latches := t.evt.latches }, lamp := { s.lamp with entryStatus := 0 } }) ∧
       (∀ u < 32, v = 1#32 <<< u → s.isDead u = true → exec (.nocDeadClear v) s = .next
         ((({ s with mesh := { s.mesh with dead := s.mesh.dead &&& ~~~v } } : State).raise 0xC2 [BitVec.ofNat 8 u]).ended 0)))) ∧
  (∀ (s : State) (d : Nat),
     let mine := fun (f : Flying) => decide (f.pkt.dcard = s.card ∧ (targetAt f.pkt.dx f.pkt.dy f.pkt.dport).dom = some d)
     let gt := fun (k : Nat) => (s.mesh.held ++ s.mesh.pressed).any (fun f => mine f && f.pkt.gt && decide (f.pkt.flow = k))
     let noted := if (List.range 128).filter gt = [] then s
       else s.raise 0xC3 ([BitVec.ofNat 8 d, 0, 0, 0] ++ leBytes 16 (((List.range 128).filter gt).foldl (fun n k => n + 2 ^ k) 0))
     s.clocked = true → (s.dom d).waking = true →
     ∃ r t, exec (.wakeComplete d) s = .next ((if 16 ≤ d ∧ d < 24 then (s.pairPorts d).foldl (fun u p => portReturns (decide ((s.dom d).st = .off)) p u)
         else id) (damperDone d true false t)) ∧
       (if d < 16 ∧ (s.gal d).resetDue = true then r.GalReset t [d] else t = r) ∧
       r = { noted with pwr := r.pwr, gals := r.gals, mesh := r.mesh } ∧
       r.pwr = { s.pwr with domains := r.pwr.domains, critical := r.pwr.critical } ∧
       (r.pwr.critical = true ↔ ∃ k < 25, k ≠ d ∧ (s.dom k).critical = true) ∧
       (∀ k, r.dom k = if k = d then { s.dom d with
           st := .on, damper := .openD, step := 0, fenced := false, moving := false, waking := false, rekindling := false
           critical := false, asleepDone := false } else s.dom k) ∧
       (∀ k, r.gal k = if k = d ∧ d < 16 then { s.gal k with seq := { (s.gal k).seq with damped := false } } else s.gal k) ∧
       r.mesh = { s.mesh with
         held := s.mesh.held.filter (fun f => !mine f), pressed := s.mesh.pressed.filter (fun f => !mine f)
         flight := s.mesh.held.filter mine ++ s.mesh.pressed.filter mine ++ s.mesh.flight })

/-- R192, R309, Table 4.6: GAL_RESET, checked whole, resets the galleries it names; the watchdog at its limit resets its
gallery, counts the bite, raises event 0x20 + 6g with the sequencer's state, and marks the gallery dead when
GAL_FAULT_POLICY says so. -/
def Obligations.GalleriesAreReset : Prop := ∀ (s : State) (g : Nat) (c : Cmd),
  let gs := (List.range 16).filter (fun k => (leAt c.body 0 2).testBit k)
  let q := (s.gal g).seq
  (s.Starts c 0x42 →
    ((∃ k ∈ gs, s.variant.hasGal k = false) → exec (.galReset c.via) s = .next (respond c 0x0C [] s)) ∧
    ((∀ k ∈ gs, s.variant.hasGal k = true) →
      ((∃ k ∈ gs, (s.dom k).st ≠ .on ∨ (s.dom k).rekindling = true) → exec (.galReset c.via) s = .next (respond c 0x21 [] s)) ∧
      ((∀ k ∈ gs, (s.dom k).st = .on ∧ (s.dom k).rekindling = false) →
        ((∃ k ∈ gs, (s.dom k).damper ≠ .openD) → exec (.galReset c.via) s = .next (respond c 0x0A [] s)) ∧
        ((∀ k ∈ gs, (s.dom k).damper = .openD) → ∃ t, exec (.galReset c.via) s = .next (respond c 0 [] t) ∧ s.GalReset t gs)))) ∧
  (let limit := (s.par (galP g 0x04)).toNat % 2 ^ 24
   let status := q.pc % 1024 + 1024 * q.code (s.halted g) + 2 ^ 14 * q.stack.length + (if q.timeout then 2 ^ 17 else 0) + 2 ^ 18 * q.dmas.length
   limit ≠ 0 → limit ≤ q.wdog → ∃ t, s.GalReset t [g] ∧
    (let bitten := (if (s.dom g).damper = .closing then damperDone g false false t else t).count (galP g 0x05) 1
     let told := bitten.raise (0x20 + 6 * g) (leBytes 2 q.pc ++ [0, 0] ++ leBytes 4 status)
     exec (.watchdogBite g) s = .next (if (told.par (galP g 0xA0)).getLsbD 0 = true then markDead g 1 told else told)))

/-- R23, R97, R244, R248, R253, R309, Table 4.6: a write of ENABLE 1 commits a link when its values keep the rules, every
member is present and the link is not enabled already, and the link starts; ENABLE 0 takes its lanes to idle; ARM arms the
phase capture; a protocol is refused or set with a port reset; PORT_RESET, checked whole, resets the ports it names. -/
def Obligations.LinksAreCommittedAndPortsReset : Prop := ∀ (s : State) (l : Nat) (v : Word) (c : Cmd),
  let kept := v &&& 0x800037FF
  let u := s.putPar (portP l 0x60) (kept &&& 0x7FFFFFFF)
  let ms := u.members l
  let wrong := ms.head? ≠ some l ∨ (∃ p ∈ ms, (u.linkOf p (kept.getLsbD 8)).isSome = true) ∨ (∃ p ∈ ms, s.protocol p ≠ 1) ∨
    (∃ p ∈ ms, (s.par (portP p 0x02)).toNat % 4096 ≠ s.linkRate l) ∨ u.limitsOk l = false ∨
    s.linkE l * 211200 ≤ (s.linkCfg l 2).toNat % 65536 * s.linkRate l ∨ fld kept 13 12 = 3 ∨ ms.length % s.linkL l ≠ 0 ∨
    4 ≤ ((List.range 16).filter u.linkOn).length
  let ps := (List.range 16).filter (fun k => (leAt c.body 0 2).testBit k)
  (l < 16 → s.Writes (portP l 0x60) →
    (v.getLsbD 31 = true →
      (s.linkOn l = true → exec (.linkCommit l v) s = .next (s.ended 0x0A)) ∧
      (s.linkOn l = false →
        (wrong → exec (.linkCommit l v) s = .next (s.ended 0x09)) ∧
        (¬ wrong → (∃ p ∈ ms, s.variant.hasPort p = false) → exec (.linkCommit l v) s = .next (s.ended 0x0C)) ∧
        (¬ wrong → (∀ p ∈ ms, s.variant.hasPort p = true) → ∃ t : State,
          (let w := (u.putPar (portP l 0x60) kept).modPort l (fun q => { q with phi := none, idSeen := [], armed := false })
           (if kept.getLsbD 9 = true then w.modPort l (fun q => { q with armed := true, armAbsent := false }) else w).LinkStarts t l) ∧
          exec (.linkCommit l v) s = .next (t.ended 0)))) ∧
    (v.getLsbD 31 = false →
      (s.linkOn l = false → exec (.linkDisable l v) s = .next ((s.putPar (portP l 0x60) kept).ended 0)) ∧
      (s.linkOn l = true → ∃ t : State, exec (.linkDisable l v) s = .next (t.ended 0) ∧ t = { s.putPar (portP l 0x60) kept with ports := t.ports } ∧
        ∀ p, t.port p =
          if p = l then
            { s.port p with
                linkSt := 0, armed := false, phi := none
                laneSt := if p ∈ s.members l ∧ s.keepsLane l p = false then 0 else (s.port p).laneSt }
          else { s.port p with laneSt := if p ∈ s.members l ∧ s.keepsLane l p = false then 0 else (s.port p).laneSt }))) ∧
  (l < 16 → v.getLsbD 8 = true → s.Writes (portP l 0x63) →
    (s.linkOn l = true → v &&& 0x1F ≠ s.par (portP l 0x63) &&& 0x1F → exec (.sysrefArm l v) s = .next (s.ended 0x0A)) ∧
    ((s.linkOn l = false ∨ v &&& 0x1F = s.par (portP l 0x63) &&& 0x1F) → exec (.sysrefArm l v) s = .next
      (((s.putPar (portP l 0x63) (v &&& 0x1F)).modPort l (fun q => { q with armed := true, armAbsent := false })).ended 0))) ∧
  (let k := v.toNat % 4
   l < 16 → s.Writes (portP l 0x01) →
    ((k = 3 ∨ (k = 1 ∨ (k = 2 ∧ s.variant.hasSeam l = true)) ∧ (s.par (portP l 0x02)).toNat % 4096 = 0) →
      exec (.portProtocol l v) s = .next (s.ended 0x09)) ∧
    (k = 2 → s.variant.hasSeam l = false → exec (.portProtocol l v) s = .next (s.ended 0x0D)) ∧
    ((k = 0 ∨ ((k = 1 ∨ (k = 2 ∧ s.variant.hasSeam l = true)) ∧ (s.par (portP l 0x02)).toNat % 4096 ≠ 0)) →
      exec (.portProtocol l v) s = .next ((portReset l ((if s.protocol l = 2 then seamDown l 5 s else s).putPar (portP l 0x01) (wd k))).ended 0))) ∧
  (s.Starts c 0x43 →
    ((∃ k ∈ ps, s.variant.hasPort k = false) → exec (.portReset c.via) s = .next (respond c 0x0C [] s)) ∧
    ((∀ k ∈ ps, s.variant.hasPort k = true) →
      ((∃ k ∈ ps, (s.dom (16 + k / 2)).st ≠ .on ∨ (s.dom (16 + k / 2)).rekindling = true) →
        exec (.portReset c.via) s = .next (respond c 0x21 [] s)) ∧
      ((∀ k ∈ ps, (s.dom (16 + k / 2)).st = .on ∧ (s.dom (16 + k / 2)).rekindling = false) →
        ((∃ k ∈ ps, (s.dom (16 + k / 2)).damper ≠ .openD) → exec (.portReset c.via) s = .next (respond c 0x0A [] s)) ∧
        ((∀ k ∈ ps, (s.dom (16 + k / 2)).damper = .openD) →
          exec (.portReset c.via) s = .next (respond c 0 [] (ps.foldl (fun r p => portReset p r) s)))))) ∧
  (let reset := (s.count (portP l 0x06) 1).modPort l (fun q =>
      { q with
        rateNow := (s.par (portP l 0x02)).toNat % 4096, cdr := false, inverted := false, polDone := false, txFault := false
        phi := none, armed := false, armAbsent := false, idSeen := [], txBuf := [], ringK := 0, laneSt := 0, linkSt := 0
        ctle := Max.max ((s.par (portP l 0x09)).toNat % 16) (Min.min ((s.par (portP l 0x09)).toNat / 256 % 16) 8)
        dfe := [0, 0, 0, 0, 0], seam := Seam.reset })
   let armed := fun (k : Nat) => if s.linkSub1 k = true then reset.modPort k (fun q => { q with armed := true, armAbsent := false }) else reset
   l < 16 → s.protocol l ≠ 2 →
    (s.linkOf l false = none → s.linkOf l true = none → portReset l s = reset) ∧
    (∀ k tx, s.linkOf l tx = some k → s.linkOf l (!tx) = none →
      (if (reset.port k).linkSt = 6 then (armed k).count (portP k 0x13) 1 else armed k).LinkStarts (portReset l s) k))

/-- R250–R254, R258, R259: a receive link whose members' modules are decided leaves CDR lock with the devices that take
part; it goes on through sync headers, pilots with polarity corrected where allowed, and lane identity, accepted or
remapped as the link says and held otherwise, each new result reported once; it is up when its phase is known and its
buffer window holds; a member lane that loses signal, headers or window takes the whole link down, which starts again. -/
def Obligations.LinksLockAndGoDown : Prop := ∀ (s : State) (l : Nat),
  let rx := fun (k : Nat) => s.clocked = true ∧ l < 16 ∧ s.linkOn l = true ∧ s.linkTx l = false ∧ (s.port l).linkSt = k
  let idMode := (s.linkCfg l 0).toNat / 4096 % 4
  let rbd := (s.linkCfg l 2).toNat % 65536
  let up := fun (u t : State) (latency : Nat) => ∃ w, (u.modPort l (fun q => { q with idSeen := [] })).LinkMoves w l 6 ∧
    t = (((w.count (portP l 0x70) 1).putPair (portP l 0x71) s.clk.tick.toNat).putPar (portP l 0x73)
      (wd (Min.min 65535 latency))).raiseLink l 1 []
  (rx 1 → s.starting l ≠ [] →
    (∀ p ∈ s.members l, ((s.port p).present = true → (s.port p).bind ≠ 0) ∧ ((s.linkCfg l 0).getLsbD 10 = true ∨ (s.port p).joins = true)) →
    ∃ t, exec (.cdrLock l) s = .next t ∧ t = { s with ports := t.ports } ∧ ∀ p, t.port p =
      { s.port p with
          linkSt := if p = l then 2 else (s.port p).linkSt
          laneSt := if p ∈ s.starting l then (if p ∈ s.starters l then 2 else 0) else (s.port p).laneSt
          cdr := (s.port p).cdr || decide (p ∈ s.starting l ∧ p ∈ s.starters l)
          signal := (s.port p).signal || decide (p ∈ s.starting l ∧ p ∈ s.starters l) }) ∧
  (s.clocked = true → s.linkOn l = false → s.protocol l = 2 → (s.port l).seam.state = 1 → exec (.cdrLock l) s = .next
    (s.modPort l (fun q => { q with cdr := true, signal := true, seam := { q.seam with state := 2 } }))) ∧
  (rx 2 → ∃ t, exec (.shLock l) s = .next t ∧ s.LinkMoves t l 3) ∧
  (∀ inverted : BitVec 8, let bad := (s.starting l).filter (fun p => inverted.getLsbD (p % 8))
    rx 3 →
    ((∀ p ∈ bad, (s.par (portP p 0x03)).getLsbD 0 = true) → ∃ t, exec (.embLock l inverted) s = .next t ∧
      (bad.foldl (fun r p =>
        let w := r.modPort p (fun q => { q with inverted := !q.inverted, polDone := true })
        if (r.port p).polDone = true then w else w.raiseLane p 1) s).LinkMoves t l (if idMode = 0 then 5 else 4)) ∧
    ((∃ p ∈ bad, (s.par (portP p 0x03)).getLsbD 0 = false) → exec (.embLock l inverted) s = .next s)) ∧
  (∀ carried : List (Option Nat),
    let mine := (s.members l).zipIdx.filter (fun q => (s.starting l).contains q.1)
    let straight := ∀ q ∈ mine, carried.getD q.2 none = some q.2
    let proper := (∀ q ∈ mine, ∃ k, carried.getD q.2 none = some k ∧ k / s.linkL l = q.2 / s.linkL l ∧ k < (s.members l).length) ∧
      (mine.map (fun q => carried.getD q.2 none)).Nodup
    let told := fun (u : State) (cause : Nat) (d : List Byte) => if (s.port l).idSeen.contains carried = true then u
      else (u.modPort l (fun q => { q with idSeen := q.idSeen ++ [carried] })).raiseLink l cause d
    let word := wd ((List.range 8).foldl (fun a i => a + (match carried.getD i none with | some k => k % 8 | none => i) * 8 ^ i) 0)
    rx 4 →
    (straight → ∃ t, exec (.idWindowDone l carried) s = .next t ∧ (s.putPar (portP l 0x67) word).LinkMoves t l 5) ∧
    (¬ straight → proper → idMode = 2 → ∃ t, exec (.idWindowDone l carried) s = .next t ∧
      (told (s.putPar (portP l 0x67) word) 3 (leBytes 4 word.toNat)).LinkMoves t l 5) ∧
    (¬ straight → (¬ proper ∨ idMode ≠ 2) → exec (.idWindowDone l carried) s = .next (told (s.count (portP l 0x27) 1) 2 []))) ∧
  (∀ earliest latest : Nat,
    let old := (s.par (portP l 0x18)).toNat
    let e := Min.min 65535 earliest
    let t := Min.min 65535 latest
    let noted := s.putPar (portP l 0x18) (wd (if old = 0 then e + 65536 * t else Min.min (old % 65536) e + 65536 * Max.max (old / 65536) t))
    let fits := latest + 8 ≤ rbd ∧ (rbd + 8 - earliest) * s.linkRate l ≤ 64 * 6600
    s.clocked = true → l < 16 → s.linkOn l = true → (s.port l).linkSt = 5 →
    (s.linkTx l = true →
      ((s.linkSub1 l = false ∨ (s.port l).phi ≠ none) → s.kin.outputs = true →
        ∃ u, exec (.releaseWaitDone l earliest latest) s = .next u ∧ up s u rbd) ∧
      (((s.linkSub1 l = true ∧ (s.port l).phi = none) ∨ s.kin.outputs = false) → exec (.releaseWaitDone l earliest latest) s = .next s)) ∧
    (s.linkTx l = false →
      (s.linkSub1 l = false → ∃ u, exec (.releaseWaitDone l earliest latest) s = .next u ∧ up noted u (latest + 8)) ∧
      (s.linkSub1 l = true → (s.port l).phi ≠ none → fits → ∃ u, exec (.releaseWaitDone l earliest latest) s = .next u ∧ up noted u rbd) ∧
      (s.linkSub1 l = true → ((s.port l).phi = none ∨ ¬ fits) → exec (.releaseWaitDone l earliest latest) s = .next noted))) ∧
  (∀ (lane : Nat) (why : DownCause),
    let q := s.port lane
    let lostSignal := (s.modPort lane (fun q => { q with cdr := false, signal := false })).count (portP lane 0x10) 1
    let told := match why with
      | .signal => if q.present = true then lostSignal.raise (0x80 + 4 * lane) [BitVec.ofNat 8 q.laneSt] else lostSignal
      | .syncHeaders => s.count (portP lane 0x11) 16
      | .bufferWindow => s.raiseLink l 4 []
    s.clocked = true → l < 16 → s.linkOn l = true → s.linkTx l = false → lane ∈ s.starting l → 1 < q.laneSt →
    ∃ t, exec (.linkDown l lane why) s = .next t ∧
      (if (s.port l).linkSt = 6 then told.count (portP l 0x13) 1 else told).LinkStarts t l)

/-- R253: a SYSREF capture gives every armed subclass-1 link its phase, or counts and reports a slip in checking mode, and
shows on the fabric's bus; 10 ms without one is reported once.
R255, R256, R260: a group of a device lead whose link is up leaves as one WRITE to PORT_DEST, its address moving
through the ring, or is discarded and counted with eight waiting; the valid words of a WRITE enter the transmit buffer as
far as it has room, the rest counted; a due frame takes the oldest word, or zero samples, counted; every equaliser loop
takes at most one step toward its wanted value within its bounds, a clipped one counted. -/
def Obligations.SysrefAndSamples : Prop :=
  (∀ (s : State) (l : Nat),
     let c := s.linkCfg l 3
     let phi := (s.clk.tick.toNat + 16 + c.toNat / 4 % 8) % s.lemc l
     let q := s.port l
     (s.clocked = true → (tabGet 0 s.pins.kinds 11 ≠ 5) → ∃ t, exec .sysrefCapture s = .next t ∧
       t = { s with params := t.params, ports := t.ports, evt := { s.evt with latches := t.evt.latches }, tnd := { s.tnd with pulses := s.tnd.pulses ||| 2#2 } } ∧
       (l < 16 →
         ((s.linkOn l = false ∨ s.linkSub1 l = false) → t.port l = q ∧ t.par (portP l 0x74) = s.par (portP l 0x74)) ∧
         (s.linkOn l = true → s.linkSub1 l = true →
           t.par (portP l 0x74) = s.par (portP l 0x74) + 1 ∧ t.pair (portP l 0x75) = s.clk.tick.toNat ∧
           (t.par (portP l 0x65)).toNat = Min.min 0xFFFFFFFF ((s.par (portP l 0x65)).toNat +
             (if c.toNat % 4 = 2 ∧ q.armed = false ∧ q.phi ≠ none ∧ q.phi ≠ some phi then 1 else 0)) ∧
           t.port l = if (c.toNat % 4 = 1 ∨ c.toNat % 4 = 2) ∧ q.armed = true then { q with phi := some phi, armed := false } else q))) ∧
     ((s.clocked = false ∨ tabGet 0 s.pins.kinds 11 = 5) → exec .sysrefCapture s = .next s) ∧
     (s.clocked = true → l < 16 → s.linkOn l = true → s.linkSub1 l = true → q.armed = true → q.armAbsent = false →
       exec (.sysrefAbsent l) s = .next ((s.modPort l (fun q => { q with armAbsent := true })).raiseLink l 7 []))) ∧
  (∀ (s : State) (p : Nat),
     let q := s.port p
     (∀ (l : Nat) (bytes : List Byte),
       let d := s.par (portP p 0x20)
       let size := (s.par (portP p 0x22)).toNat % 2 ^ 21
       let start := (s.par (portP p 0x21)).toNat % 2 ^ 21
       let units := d.toNat / 2 ^ 11 % 32
       let counted := s.tally64 (portP p 0x28) bytes.length
       let passed := counted.modPort p (fun x => { x with ringK := q.ringK + 1 })
       s.deviceLead p false = some l → s.clocked = true → (s.port l).linkSt = 6 → q.laneSt = 6 → (s.dom (16 + p / 2)).damper = .openD →
       (d.getLsbD 31 = false → exec (.packetGroupRelease p bytes) s = .next counted) ∧
       (d.getLsbD 31 = true → 8 ≤ s.portWaiting p → exec (.packetGroupRelease p bytes) s = .next (passed.count (portP p 0x14) 1)) ∧
       (d.getLsbD 31 = true → s.portWaiting p < 8 → ∃ k : Packet,
         exec (.packetGroupRelease p bytes) s = .next
           (let t := passed.tally (portP p 0x23) 1
            { t with mesh := { t.mesh with ready := s.mesh.ready ++ [k] } }) ∧
         k.cmd = 0 ∧ k.len = units ∧ k.half = false ∧ k.dx = d.toNat % 8 ∧ k.dy = d.toNat / 8 % 8 ∧ k.dport = d.toNat / 64 % 2 ∧
         k.dcard = d.toNat / 128 % 16 ∧ k.gt = d.getLsbD 16 ∧ k.flow = d.toNat / 2 ^ 17 % 128 ∧
         6 * k.sy + k.sx = portNode p ∧ k.sport = p % 2 ∧ k.scard = s.card ∧ k.poison = false ∧
         k.addr = (if d.getLsbD 24 = false then 0x100000000 else if size = 0 then start else start + q.ringK * units * 32 % size) ∧
         k.data.length = 32 * units ∧ (∀ i < 32 * units, byteAt k.data i = byteAt bytes i) ∧ ∀ i < 128, k.valid.getLsbD i = true)) ∧
     (∀ (i : Nat) (f : Flying), let k := f.pkt
       let base := s.taken i f
       let words := (List.range (byteCount k / 4)).filterMap (fun j => if k.valid.getLsbD j = true then some (wd (leAt k.data (4 * j) 4)) else none)
       let busy := ((List.range k.len).filter (fun u => (List.range 8).any (fun j => decide (32 * u + 4 * j < byteCount k) && k.valid.getLsbD (8 * u + j)))).length
       let room := match s.deviceLead p true with
         | some l => if (s.port l).linkSt = 6 then 512 - q.txBuf.length else 0
         | none => 0
       s.Arrives i f (.port p) → k.cmd = 0 → k.poison = false →
       (k.addr ≠ 0 → exec (.txStreamWrite i) s = .next (base.count 0x3025 1)) ∧
       (k.addr = 0 → ∃ t, exec (.txStreamWrite i) s = .next t ∧ t = { base with params := t.params, ports := t.ports } ∧
         (∀ j, j ≠ p → t.port j = s.port j) ∧ t.port p = { q with txBuf := q.txBuf ++ words.take room } ∧
         t.par (portP p 0x24) = s.par (portP p 0x24) + (if room = 0 then 0 else wd busy) ∧
         (t.par (portP p 0x16)).toNat = Min.min 0xFFFFFFFF ((s.par (portP p 0x16)).toNat + (words.length - room)) ∧
         ∀ n, n ≠ portP p 0x24 → n ≠ portP p 0x16 → t.par n = base.par n)) ∧
     (∀ l, s.deviceLead p true = some l → s.clocked = true → (s.port l).linkSt = 6 →
       (q.txBuf = [] → exec (.txFrameDue p) s = .next ((s.tally64 (portP p 0x2A) 4).count (portP p 0x15) 1)) ∧
       (∀ w r, q.txBuf = w :: r → exec (.txFrameDue p) s = .next ((s.tally64 (portP p 0x2A) 4).modPort p (fun x => { x with txBuf := r })))) ∧
     (∀ want : List Int,
       let b := s.par (portP p 0x09)
       let e := s.par (portP p 0x0B)
       let lo : Nat := b.toNat % 16
       let hi : Nat := b.toNat / 256 % 16
       let bound : Int := (e.toNat % 32 : Nat)
       let wish := Max.max 0 (Min.min 15 (stepTo q.ctle (want.getD 0 0)))
       let fixed : Int := (b.toNat / 65536 % 16 : Nat)
       let goal := if b.getLsbD 31 = true then (stepTo q.ctle fixed).toNat else wish.toNat
       let tap := fun (i : Nat) => Max.max (-32) (Min.min 31 (stepTo (q.dfe.getD i 0) (want.getD (i + 1) 0)))
       s.clocked = true → p < 16 → q.cdr = true → (s.dom (16 + p / 2)).st = .on →
       ∃ t, exec (.eqEvaluation p want) s = .next t ∧
         t = { s with ports := t.ports, params := t.params, evt := { s.evt with latches := t.evt.latches } } ∧
         (∀ k, k ≠ p → t.port k = s.port k) ∧ (∀ n, n ≠ portP p 0x0C → t.par n = s.par n) ∧
         t.port p = { q with
           clipCyc := (t.port p).clipCyc
           ctle := Max.max lo (Min.min hi goal)
           dfe := (List.range 5).map (fun i => if e.getLsbD 31 = true then q.dfe.getD i 0 else Max.max (-bound) (Min.min bound (tap i))) } ∧
         (t.par (portP p 0x0C)).toNat = Min.min 0xFFFFFFFF ((s.par (portP p 0x0C)).toNat +
           (if (if b.getLsbD 31 = true then decide (wish ≠ fixed) else decide (((Max.max lo (Min.min hi wish.toNat) : Nat) : Int) ≠ wish)) = true then 1 else 0) +
           ((List.range 5).filter (fun i => if e.getLsbD 31 = true then decide (q.dfe.getD i 0 ≠ tap i)
             else decide (Max.max (-bound) (Min.min bound (tap i)) ≠ tap i))).length)))

/-- R264, R268, Table 13.1, Table 15.1: a block that a port makes passes the check of R264 and carries the fields it was
made with, and a header unit read back is its packet without the data.
R258, R264–R267, R275, R278: block lock starts the exchange; a TRAIN block is checked and each failing check reported
once; 16 good ones open the tick comparison, one round trip of which brings the link up with new numbers and full credits;
a TRAIN block, a lost signal or RETRAIN takes an up link down; complemented blocks invert the lane; a bad block is
counted. -/
def Obligations.SeamBlocksAndTraining : Prop :=
  ((∀ (q : Seam) (kind seq : Nat) (vc head : Bool) (pay : List Byte), kind ≤ 4 → pay.length = 32 →
       let b := makeBlock q kind seq vc head pay
       let c := blockCtl b
       blockOk b = true ∧ blockKind b = kind ∧ b.drop 8 = pay ∧ c / 2 ^ 4 % 4096 = seq % 4096 ∧
         c / 2 ^ 16 % 4096 = (q.expected + 4095) % 4096 ∧ (c / 2 ^ 28 % 2 = 1 ↔ vc = true) ∧ (c / 2 ^ 29 % 2 = 1 ↔ head = true) ∧
         (c / 2 ^ 30 % 2 = 1 ↔ q.episode ≠ none) ∧ c / 2 ^ 32 % 256 = q.reqFreed % 256 ∧ c / 2 ^ 40 % 256 = q.rspFreed % 256) ∧
     (∀ k : Packet, k.dx < 8 → k.dy < 8 → k.dport < 2 → k.dcard < 16 → k.sx < 8 → k.sy < 8 → k.sport < 2 → k.scard < 16 →
       k.cmd < 8 → k.tag < 4096 → k.len < 32 → k.flow < 128 → k.status < 256 → k.addr < 2 ^ 48 → k.code < 256 →
       headerPacket (headerNat k) = { k with data := [] })) ∧
  (∀ (s : State) (p : Nat) (b : List Byte),
     let x := s.port p
     let q := x.seam
     let on := s.clocked = true ∧ p < 16 ∧ s.protocol p = 2
     let body := fun (i : Nat) => (byteAt b (8 + i)).toNat
     (on → (q.state = 1 ∨ q.state = 2) → s.pairOn p = true → ∃ t,
       s.PortIs t p { x with cdr := true, signal := true, seam := { q with
         state := 3, good := 0, readyRun := 0, reported := if s.card = 15 then [0x12] else q.reported } } [] ∧
       exec (.seamBlockLock p) s = .next (if s.card = 15 then t.raiseLink p 0x12 [] else t)) ∧
     (on → q.state = 3 → exec (.seamTrainRx p b true) s = .next
       (let t := s.modPort p (fun x => { x with inverted := !x.inverted, polDone := true })
        if x.polDone = true then t else t.raiseLane p 1)) ∧
     (on → 3 ≤ q.state → blockOk b = false → ∀ c ∈ [Instr.seamTrainRx p b false, .seamTimeRx p b 0, .seamUnitRx p b, .seamIdleRx p b, .seamNakRx p b],
       (q.state = 5 → exec c s = .next (sendNak p (s.count (portP p 0x48) 1))) ∧
       (q.state ≠ 5 → exec c s = .next ((s.count (portP p 0x48) 1).modSeam p (fun q => { q with good := 0, readyRun := 0 })))) ∧
     (s.Receives p 3 b →
       let rep := decide (blockCtl b / 2 ^ 30 % 2 = 1)
       let w := body 3
       let fault : Option (Nat × Nat) :=
         if body 2 ≠ 1 then some (0x16, body 2)
         else if w / 16 % 2 = 1 then some (0x15, w % 16)
         else if w % 16 = s.card then some (0x13, w % 16) else none
       let heard : Seam := { q with
         peerReplay := rep, peerCard := w % 16, peerPort := body 4 % 16, peerRefuse := decide (w / 16 % 2 = 1), good := q.good + 1
         readyRun := if fault = none ∧ w / 32 % 2 = 1 then q.readyRun + 1 else 0 }
       (q.state = 5 → exec (.seamTrainRx p b false) s = .next (seamDown p 3 (s.modSeam p (fun q => { q with peerReplay := rep })))) ∧
       (q.state ≠ 5 → (body 0 ≠ 0x53 ∨ body 1 ≠ 0x4C) → ∃ t, exec (.seamTrainRx p b false) s = .next t ∧
         s.PortIs t p { x with seam := { q with peerReplay := rep, good := 0, readyRun := 0 } } []) ∧
       (q.state ≠ 5 → body 0 = 0x53 → body 1 = 0x4C →
         (q.state = 4 → ∃ t, exec (.seamTrainRx p b false) s = .next t ∧ s.PortIs t p { x with seam := heard } []) ∧
         (q.state = 3 →
           (∀ c v, fault = some (c, v) → ∃ t,
             (c + 256 * v ∈ q.reported → exec (.seamTrainRx p b false) s = .next t ∧ s.PortIs t p { x with seam := heard } []) ∧
             (c + 256 * v ∉ q.reported → exec (.seamTrainRx p b false) s = .next (t.raiseLink p c [BitVec.ofNat 8 v]) ∧
               s.PortIs t p { x with seam := { heard with reported := (c + 256 * v) :: q.reported } } [])) ∧
           (fault = none → ∃ t, exec (.seamTrainRx p b false) s = .next t ∧
             s.PortIs t p { x with seam := if 16 ≤ heard.readyRun ∧ s.card ≠ 15 then { heard with state := 4, timeSeen := false }
               else heard } [])))) ∧
     (∀ t4 : Tick, s.Receives p 4 b → q.state = 4 →
       let t3 := leAt b 8 8
       let t1 := leAt b 16 8
       let t2 := leAt b 24 8
       let rtt : Int := ((t4.toNat : Int) - t1).bmod (2 ^ 64) - ((t3 : Int) - t2).bmod (2 ^ 64)
       let sum : Int := ((t1 : Int) - t2).bmod (2 ^ 64) + ((t4.toNat : Int) - t3).bmod (2 ^ 64) -
         ((s.par (portP p 0x45)).toNat : Int).bmod (2 ^ 16)
       let echo : Seam := { q with timeSeen := true, echoTx := BitVec.ofNat 64 t3, echoRx := t4 }
       (t1 = 0 ∧ t2 = 0 → ∃ t, exec (.seamTimeRx p b t4) s = .next t ∧ s.PortIs t p { x with seam := echo } []) ∧
       (¬ (t1 = 0 ∧ t2 = 0) → ∃ t,
         s.PortIs t p { x with seam := { echo with
           state := 5, nextSeq := 0, expected := 0, acked := 4095, reqUsed := 0, rspUsed := 0, reqPeer := 0, rspPeer := 0
           reqFreed := 0, rspFreed := 0, replay := [], nakPending := false, episode := none, passFrom := none, rxHead := none
           lastDiff := none } } [portP p 0x42, portP p 0x43, portP p 0x44] ∧
         ((t.par (portP p 0x44)).toNat : Int) = rtt % 2 ^ 24 ∧
         (t.pair (portP p 0x42) : Int) = (sum.sign * ((sum.natAbs + 1) / 2 : Nat)) % 2 ^ 64 ∧
         exec (.seamTimeRx p b t4) s = .next (t.raiseLink p 0x10
           ([BitVec.ofNat 8 q.peerCard, BitVec.ofNat 8 q.peerPort, 0, 0] ++ leBytes 4 (t.par (portP p 0x44)).toNat)))) ∧
     (∀ t4 : Tick, s.Receives p 4 b → q.state = 5 →
       let c := blockCtl b
       let ahead := (c / 16 % 4096 + 4096 - q.expected) % 4096
       let t3 := leAt b 8 8
       let t1 := leAt b 16 8
       let t2 := leAt b 24 8
       let rtt : Int := ((t4.toNat : Int) - t1).bmod (2 ^ 64) - ((t3 : Int) - t2).bmod (2 ^ 64)
       let sum : Int := ((t1 : Int) - t2).bmod (2 ^ 64) + ((t4.toNat : Int) - t3).bmod (2 ^ 64) -
         ((s.par (portP p 0x45)).toNat : Int).bmod (2 ^ 16)
       let v : Nat := ((sum.sign * ((sum.natAbs + 1) / 2 : Nat)) % 2 ^ 64).toNat
       let echo := fun (u : State) => u.modSeam p (fun q => { q with timeSeen := true, echoTx := BitVec.ofNat 64 t3, echoRx := t4 })
       ∃ t, s.Heard t p c (q.heard c) [] ∧
         let u := if 1 ≤ ahead ∧ ahead ≤ 2047 then sendNak p t else t
         let w := ((u.putPar (portP p 0x44) (wd (rtt % 2 ^ 24).toNat)).putPair (portP p 0x42) v).modSeam p (fun q => { q with
           lastDiff := some (BitVec.ofNat 64 v) })
         (t1 = 0 ∧ t2 = 0 → exec (.seamTimeRx p b t4) s = .next (echo u)) ∧
         (¬ (t1 = 0 ∧ t2 = 0) →
           ((q.lastDiff = none ∧ v ≠ 0) ∨ (∃ o, q.lastDiff = some o ∧ o.toNat ≠ v) →
             exec (.seamTimeRx p b t4) s = .next (echo (w.raiseLink p 0x14 (leBytes 8 v)))) ∧
           (¬ ((q.lastDiff = none ∧ v ≠ 0) ∨ (∃ o, q.lastDiff = some o ∧ o.toNat ≠ v)) →
             exec (.seamTimeRx p b t4) s = .next (echo w)))) ∧
     (on → 4 ≤ q.state → exec (.seamTimeSend p) s = .next (s.modSeam p (fun q => { q with
       sent := makeBlock q 4 q.nextSeq false false (leBytes 8 s.clk.tick.toNat ++ leBytes 8 q.echoTx.toNat ++ leBytes 8 q.echoRx.toNat) :: q.sent }))) ∧
     (on → exec (.seamSignalLost p) s = .next ((seamDown p 4 s).modPort p (fun x => { x with cdr := false, signal := false }))) ∧
     (∀ v : Word, p < 16 → s.protocol p = 2 → s.Writes (portP p 0x41) →
       exec (.seamRetrain p v) s = .next ((if v.getLsbD 0 = true then seamDown p 5 s else s).ended 0)))

/-- R268, R269, R272–R274: a UNIT in sequence is taken and a complete packet enters the mesh or is refused; one behind is
acknowledged only, one ahead asks for a replay, once in the time R272 names; IDLE, TIME and NAK blocks carry the same
control; a NAK or the replay timer starts a pass, which resends every unacknowledged block; the ninth pass and 4,000
cycles take the link down. -/
def Obligations.SeamLinksCarryAndReplay : Prop := ∀ (s : State) (p : Nat) (b : List Byte),
  let q := (s.port p).seam
  let c := blockCtl b
  let seq := c / 16 % 4096
  let recent := fun (cyc : Nat) => (s.clk.cyc - cyc) * (s.port p).rateNow < (s.par (portP p 0x44)).toNat * (s.port p).rateNow + 66000
  (q.nakPending = true → recent q.nakCyc → sendNak p s = s) ∧
  (¬ (q.nakPending = true ∧ recent q.nakCyc) → ∃ t, sendNak p s = t.count (portP p 0x47) 1 ∧
    s.PortIs t p { s.port p with seam := { q with
      nakPending := true, nakCyc := s.clk.cyc
      sent := makeBlock { q with nakPending := true, nakCyc := s.clk.cyc } 2 q.nextSeq false false [] :: q.sent } } []) ∧
  (s.Receives p 1 b → q.state = 5 →
    let whole : Option Packet := if c / 2 ^ 29 % 2 = 1 then some (headerPacket (leNat (b.drop 8)))
      else q.rxHead.map (fun k => { k with data := k.data ++ b.drop 8 })
    let rsp := c / 2 ^ 28 % 2
    let heard := q.heard c
    let taken : Seam := { heard with
      expected := (q.expected + 1) % 4096, nakPending := false, reqFreed := if rsp = 1 then q.reqFreed else (q.reqFreed + 1) % 256
      rspFreed := if rsp = 1 then (q.rspFreed + 1) % 256 else q.rspFreed }
    (seq ≠ q.expected → ∃ t, s.Heard t p c heard [] ∧
      exec (.seamUnitRx p b) s = .next (if 1 ≤ (seq + 4096 - q.expected) % 4096 ∧ (seq + 4096 - q.expected) % 4096 ≤ 2047 then sendNak p t else t)) ∧
    (seq = q.expected → ∃ t,
      t.par (portP p 0x4D) = wd (Min.min 0xFFFFFFFF ((s.par (portP p 0x4D)).toNat + 1)) ∧
      (whole = none → exec (.seamUnitRx p b) s = .next t ∧ s.Heard t p c taken [portP p 0x4D]) ∧
      (∀ k, whole = some k →
        (1 + k.data.length / 32 < unitsOf k → exec (.seamUnitRx p b) s = .next t ∧ s.Heard t p c { taken with rxHead := some k } [portP p 0x4D]) ∧
        (unitsOf k ≤ 1 + k.data.length / 32 → s.Heard t p c { taken with rxHead := none } [portP p 0x4D] ∧
          (k.dcard = s.card → exec (.seamUnitRx p b) s = .next (present k t)) ∧
          (k.dcard ≠ s.card → exec (.seamUnitRx p b) s = .next
            (if k.cmd = 1 ∨ k.cmd = 3 ∨ k.cmd = 5 then replyError k 0x24 (t.count (portP p 0x4B) 1) else t.count (portP p 0x4B) 1)))))) ∧
  (s.Receives p 0 b → q.state = 5 → ∃ t, s.Heard t p c (q.heard c) [] ∧
    exec (.seamIdleRx p b) s = .next (if 1 ≤ (seq + 4096 - q.expected) % 4096 ∧ (seq + 4096 - q.expected) % 4096 ≤ 2047 then sendNak p t else t)) ∧
  (s.Receives p 2 b → q.state = 5 → ∃ t, s.Heard t p c (q.heard c) [] ∧
    let u := if 1 ≤ (seq + 4096 - q.expected) % 4096 ∧ (seq + 4096 - q.expected) % 4096 ≤ 2047 then sendNak p t else t
    let from' := ((q.heard c).acked + 1) % 4096
    (((q.heard c).replay = [] ∨ (q.passFrom = some from' ∧ recent q.passCyc)) → exec (.seamNakRx p b) s = .next u) ∧
    ((q.heard c).replay ≠ [] → ¬ (q.passFrom = some from' ∧ recent q.passCyc) → exec (.seamNakRx p b) s = .next (startPass p u))) ∧
  (s.clocked = true → p < 16 → q.state = 5 → q.replay ≠ [] → exec (.seamReplayTimeout p) s = .next (startPass p s)) ∧
  (let pass := fun (e : Nat × Nat × Nat) (t : State) =>
      let r : Seam := { q with episode := some e, passCyc := s.clk.cyc, passFrom := some ((q.acked + 1) % 4096) }
      s.PortIs t p { s.port p with seam := { r with
        sent := (q.replay.map (fun b => makeBlock r 1 (blockCtl b / 16 % 4096) (decide (blockCtl b / 2 ^ 28 % 2 = 1))
          (decide (blockCtl b / 2 ^ 29 % 2 = 1)) (b.drop 8))).reverse ++ q.sent } } []
   let longest := fun (k start : Nat) => s.putPar (portP p 0x4E)
      (wd (Max.max ((s.par (portP p 0x4E)).toNat % 16) (Min.min 15 k) +
        65536 * Max.max ((s.par (portP p 0x4E)).toNat / 65536 % 4096) (Min.min 4095 (s.clk.cyc - start))))
   (q.episode = none → ∃ t, startPass p s = t.count (portP p 0x46) 1 ∧ pass (1, s.clk.cyc, (q.nextSeq + 4095) % 4096) t) ∧
   (∀ k start last, q.episode = some (k, start, last) →
    (k < 8 → ∃ t, startPass p s = t.count (portP p 0x46) 1 ∧ pass (k + 1, start, last) t) ∧
    (8 ≤ k → startPass p s = seamDown p 1 (longest k start)) ∧
    (s.clocked = true → p < 16 → q.state = 5 → start + 4000 ≤ s.clk.cyc →
      exec (.seamBudgetExhausted p) s = .next (seamDown p 2 (longest k start)))))

/-- R268, R269, R275–R277, Table 15.4: the first packet of a stream for another card leaves over its seam port once it
holds credits and replay room for all its units, waits otherwise, and meets a down link with LINK_DOWN or a drop; an up
link that goes down ends exactly the transactions that depend on it, empties its buffers, counts what it discards and
raises one event. -/
def Obligations.SeamLinksSendAndFall : Prop := ∀ (s : State) (p i : Nat) (f : Flying) (reason : Nat),
  let q := (s.port p).seam
  let k := f.pkt
  let n := unitsOf k
  let rsp := decide (k.cmd = 2 ∨ k.cmd = 6)
  let gone : State := { s with mesh := { s.mesh with flight := s.mesh.flight.eraseIdx i } }
  let held := if rsp = true then 64 - (q.rspUsed + 256 - q.rspPeer) % 256 else 64 - (q.reqUsed + 256 - q.reqPeer) % 256
  (s.clocked = true → s.mesh.flight[i]? = some f → k.dcard ≠ s.card → (∀ e ∈ s.mesh.flight.take i, sameStream k e.pkt = false) →
    (s.seamTo k.dcard = none → exec (.seamPacketSend i) s = .next (bounce 0x3025 0x24 k gone)) ∧
    (s.seamTo k.dcard = some p →
      (q.state ≠ 5 → exec (.seamPacketSend i) s = .next (bounce (portP p 0x4A) 0x23 k gone)) ∧
      (q.state = 5 → (held < n ∨ 64 < q.replay.length + n) → exec (.seamPacketSend i) s = .next s) ∧
      (q.state = 5 → n ≤ held → q.replay.length + n ≤ 64 → ∃ (t : State) (bs : List (List Byte)),
        bs.length = n ∧
        (∀ j, j < n → ∃ u, bs[j]? = some (makeBlock q 1 (if j = 0 then q.nextSeq else (q.nextSeq + j) % 4096) rsp (decide (j = 0)) u) ∧
          u.length = 32 ∧ (j = 0 → u = leBytes 32 (headerNat k)) ∧
          ∀ m < 32, 0 < j → byteAt u m = byteAt k.data (32 * (j - 1) + m)) ∧
        gone.PortIs t p { s.port p with seam := { q with
          sent := bs.reverse ++ q.sent, replay := q.replay ++ bs
          nextSeq := (q.nextSeq + n) % 4096
          reqUsed := if rsp = true then q.reqUsed else (q.reqUsed + n) % 256
          rspUsed := if rsp = true then (q.rspUsed + n) % 256 else q.rspUsed } } [portP p 0x4C] ∧
        t.par (portP p 0x4C) = wd (Min.min 0xFFFFFFFF ((s.par (portP p 0x4C)).toNat + n)) ∧
        exec (.seamPacketSend i) s = .next (if k.cmd = 3 then endMessage k t else t)))) ∧
  (q.state = 5 → ∃ t : State,
    let ended := (s.mesh.trans.filter (fun x => decide (x.dcard ≠ s.card ∧ s.seamTo x.dcard = some p))).foldl
      (fun r x => endTrans x 0x23 [] r) s
    let headers := (q.replay.filter (fun b => decide (leAt b 0 8 / 2 ^ 29 % 2 = 1))).length
    let cut := match q.replay with | b :: _ => if leAt b 0 8 / 2 ^ 29 % 2 = 1 then 0 else 1 | [] => 0
    t.port p = { s.port p with seam := { q with
      state := 1, reason := reason, good := 0, readyRun := 0, reported := [], replay := [], rxHead := none, nakPending := false
      peerReplay := false, episode := none, passFrom := none, timeSeen := false, echoTx := 0, echoRx := 0, lastDiff := none } } ∧
    (∀ j, j ≠ p → t.port j = s.port j) ∧
    t = { (ended.count (portP p 0x49) 1).count (portP p 0x4A) (headers + cut + (if q.rxHead = none then 0 else 1)) with ports := t.ports } ∧
    seamDown p reason s = t.raiseLink p 0x11 [BitVec.ofNat 8 reason]) ∧
  (q.state ≠ 5 → q.state ≠ 0 → ∃ t, seamDown p reason s = t ∧ t = { s with ports := t.ports } ∧ (∀ j, j ≠ p → t.port j = s.port j) ∧
    t.port p = { s.port p with seam := { q with
      state := 1, good := 0, readyRun := 0, reported := [], replay := [], rxHead := none, nakPending := false
      peerReplay := false, episode := none, passFrom := none, timeSeen := false, echoTx := 0, echoRx := 0, lastDiff := none } })

/-- R5, R317, R318, R321–R323: a host write of a parameter is checked in the order of R318: read-only numbers refuse it,
counters take only 0, the low word of a pair is staged and the high word commits both, a locked, busy or refused value
changes nothing, and any other is held without its reserved bits; KINDLE_HOLD_TIMEOUT and TRIG_DRIVE_EN follow it, the
latter freeing the drivers it switches on; TB_ALIGN arms the alignment.
R309, R316–R320: GET answers each of its numbers with its own status and value and changes nothing but the model's
count of free values, which a measurement takes; GET_PAIR reads both words of a pair at once; SET applies its entries in
order up to the first that is refused, and answers how many it applied and that status. -/
def Obligations.ParametersAreReadAndWritten : Prop :=
  (∀ (s : State) (n : Nat) (v : Word) (i : ParamInfo),
     let w := v &&& rwMask n
     let lo := (tabGet none s.staged (n - 1)).getD (s.par (n - 1))
     let unstaged : State := { s with staged := tabSet none s.staged (n - 1) none }
     (s.Writes n → hasCommand n = false → paramInfo n = some i →
       ((i.access = .ro ∨ i.access = .running) → exec (.paramWrite n v) s = .next (s.ended 7)) ∧
       ((i.access = .counter ∨ i.access = .w0c) →
         (v = 0 → exec (.paramWrite n v) s = .next ((s.putPar n 0).ended 0)) ∧
         (v ≠ 0 → exec (.paramWrite n v) s = .next (s.ended 9))) ∧
       (i.access = .rw →
         (i.low = true → exec (.paramWrite n v) s = .next (({ s with staged := tabSet none s.staged n (some v) } : State).ended 0)) ∧
         (i.low = false → i.high = true →
           (s.busyWrite (n - 1) = true → exec (.paramWrite n v) s = .next (unstaged.ended 0x0A)) ∧
           (s.busyWrite (n - 1) = false → s.pairOk (n - 1) lo v = false → exec (.paramWrite n v) s = .next (unstaged.ended 9)) ∧
           (s.busyWrite (n - 1) = false → s.pairOk (n - 1) lo v = true →
             exec (.paramWrite n v) s = .next (((unstaged.putPar (n - 1) lo).putPar (n - 1 + 1) v).ended 0))) ∧
         (i.low = false → i.high = false →
           (s.busyWrite n = true → exec (.paramWrite n v) s = .next (s.ended 0x0A)) ∧
           (s.busyWrite n = false → s.valueOk n w = false → exec (.paramWrite n v) s = .next (s.ended 9)) ∧
           (s.busyWrite n = false → s.valueOk n w = true →
             ((∀ p < 16, n ≠ portP p 0x09 ∧ n ≠ portP p 0x0B) → (∀ e, n = 0x3B00 + e → e < 256 → eventClass e ≠ none) →
               exec (.paramWrite n v) s = .next ((s.putPar n w).ended 0)) ∧
             (∀ e, n = 0x3B00 + e → e < 256 → eventClass e = none → exec (.paramWrite n v) s = .next (s.ended 0)) ∧
             (∀ p, p < 16 → n = portP p 0x0B → exec (.paramWrite n v) s = .next (((s.putPar n w).modPort p (fun q => { q with
               dfe := if w.getLsbD 31 = true then q.dfe
                 else q.dfe.map (fun c => Max.max (-((w.toNat % 32 : Nat) : Int)) (Min.min ((w.toNat % 32 : Nat) : Int) c)) })).ended 0)) ∧
             (∀ p, p < 16 → n = portP p 0x09 → exec (.paramWrite n v) s = .next (((s.putPar n w).modPort p (fun q => { q with
               ctle := if w.getLsbD 31 = true then w.toNat / 65536 % 16
                 else Max.max (w.toNat % 16) (Min.min (w.toNat / 256 % 16) q.ctle) })).ended 0)))))) ∧
     (s.Writes 0x22 → exec (.kindleHoldTimeout v) s = .next ((s.putPar 0x22 (v &&& 0x80FFFFFF)).ended 0)) ∧
     (s.Writes 0x3D07 →
       (s.syncIgnored = true → exec (.tbAlign v) s = .next (s.ended 0x0B)) ∧
       (s.syncIgnored = false → s.capt.st = 1 → exec (.tbAlign v) s = .next (s.ended 0x0A)) ∧
       (s.syncIgnored = false → s.capt.st ≠ 1 → v ≠ 1 → exec (.tbAlign v) s = .next (s.ended 9)) ∧
       (s.syncIgnored = false → s.capt.st ≠ 1 → v = 1 →
         exec (.tbAlign v) s = .next (({ s with clk := { s.clk with armed := true } } : State).ended 0))) ∧
     (let u := v &&& 0x1FF
      let rises := fun (k : Nat) => (k < 8 ∧ u.getLsbD k = true ∧ (s.par 0x3601).getLsbD k = false) ∨
         (k = 9 ∧ u.getLsbD 8 = true ∧ (s.par 0x3601).getLsbD 8 = false)
      s.Writes 0x3601 →
       (s.rvTrig = 15 → u ≠ 0 → exec (.trigDriveEn v) s = .next (s.ended 0x0B)) ∧
       (¬ (s.rvTrig = 15 ∧ u ≠ 0) → ∃ t : State, exec (.trigDriveEn v) s = .next (t.ended 0) ∧
         t = { s.putPar 0x3601 u with pins := { s.pins with tristated := t.pins.tristated, kinds := t.pins.kinds } } ∧
         (∀ k, rises k → t.pins.tristated.getLsbD k = false) ∧
         (∀ k, ¬ rises k → t.pins.tristated.getLsbD k = s.pins.tristated.getLsbD k) ∧
         (∀ k, tabGet 0 t.pins.kinds k = if rises k ∧ s.pins.tristated.getLsbD k = true then 0 else tabGet 0 s.pins.kinds k))) ∧
     (∀ p < 16, s.valueOk (portP p 0x02) v = true ↔ (100 ≤ v.toNat ∧ v.toNat ≤ 3250) ∨ (v = 0 ∧ s.protocol p = 0)) ∧
     (s.valueOk 0x3000 v = true ↔ v ≠ 0) ∧ (s.valueOk 0x3A00 v = true ↔ 3 ≤ v.toNat ∧ v.toNat ≤ 10000) ∧
     (s.valueOk 0x203 v = true ↔ 16 ≤ v.toNat ∧ v.toNat ≤ 24) ∧
     (∀ g < 16, s.valueOk (galP g 0x04) v = true ↔ v = 0 ∨ 1024 ≤ v.toNat)) ∧
  (∀ (s : State) (c : Cmd),
     let n := leAt c.body 0 2
     let k := leAt c.body 2 2
     let m := c.body.length / 8
     let entry := fun (x : Nat) (b : List Byte) =>
       (paramInfo x = none → b = leBytes 8 6) ∧
       (∀ i, paramInfo x = some i →
         (paramAbsent s.variant x = true → b = leBytes 8 0x0C) ∧
         (paramAbsent s.variant x = false → i.access = .wo → b = leBytes 8 8) ∧
         (paramAbsent s.variant x = false → i.access ≠ .wo →
           (s.measured x = false → s.view x = none → b = [0, 0, 0, 0] ++ leBytes 4 (s.par x).toNat) ∧
           (s.measured x = false → ∀ v, s.view x = some v → b = [0, 0, 0, 0] ++ leBytes 4 v) ∧
           (s.measured x = true → ∃ f, b = [0, 0, 0, 0] ++ leBytes 4 ((Config.freeWord f).toNat % 65536))))
     (s.Starts c 0x10 →
       ((k = 0 ∨ 64 < k ∨ 0x10000 < n + k) → exec (.get c.via) s = .next (respond c 9 [] s)) ∧
       (1 ≤ k → k ≤ 64 → n + k ≤ 0x10000 → ∃ (d : List (List Byte)) (f : Nat),
         exec (.get c.via) s = .next (respond c 0 (leBytes 2 k ++ [0, 0] ++ d.flatten) { s with free := f }) ∧
         d.length = k ∧ ∀ j b, d[j]? = some b → b.length = 8 ∧ entry (n + j) b)) ∧
     (s.Starts c 0x12 →
       (paramInfo n = none → exec (.getPair c.via) s = .next (respond c 6 [] s)) ∧
       (∀ i, paramInfo n = some i →
         (i.low = false → exec (.getPair c.via) s = .next (respond c 9 [] s)) ∧
         (i.low = true → paramAbsent s.variant n = true → exec (.getPair c.via) s = .next (respond c 0x0C (List.replicate 8 0) s)) ∧
         (i.low = true → paramAbsent s.variant n = false → s.measured n = false → s.measured (n + 1) = false →
           exec (.getPair c.via) s = .next (respond c 0
             (leBytes 4 (match s.view n with | some v => v | none => (s.par n).toNat) ++
               leBytes 4 (match s.view (n + 1) with | some v => v | none => (s.par (n + 1)).toNat)) s)))) ∧
     (s.Starts c 0x11 →
       ((m = 0 ∨ 64 < m) → exec (.set c.via) s = .next (respond c 9 [] s)) ∧
       (1 ≤ m → m ≤ 64 → ∃ (j st : Nat) (chain : Nat → State) (t : State),
         let write := fun (e : Nat) => writeParam (leAt c.body (8 * e) 2) (BitVec.ofNat 32 (leAt c.body (8 * e + 4) 4)) (chain e)
         j ≤ m ∧ chain 0 = s ∧ (∀ e < j, write e = (0, chain (e + 1))) ∧
         ((j = m ∧ st = 0 ∧ t = chain m) ∨ (j < m ∧ st ≠ 0 ∧ write j = (st, t))) ∧
         exec (.set c.via) s = .next (respondVia (t.pcie.ringArmed && !((List.range j).any (fun e =>
           decide (leAt c.body (8 * e) 2 = 0x206) && (leAt c.body (8 * e + 4) 4).testBit 0)))
           c st (leBytes 2 j ++ [0, 0]) t))))

/-- R297–R299, R301, R303–R308, Table 17.1: a good frame between two flags is unstuffed and checked; its message takes free
control, and is then found a repeat, refused, or given a place, in the order of the log's note 33, DEDUCED; a silent owner loses
control; an answer frees the command's place, is kept for a repeat and is sent with the free places; PING and RELEASE do
what their rows say, and a command that user mode must precede is refused. -/
def Obligations.LampMessagesAreAdmitted : Prop := ∀ (s : State) (bytes m : List Byte) (c : Cmd) (st : Nat) (body : List Byte),
  let own := if s.lamp.owner = none then
      ({ s with lamp := { s.lamp with owner := some .lampPair } } : State).raise 0x1A [1, 1] else s
  let cmd : Cmd := { via := .lampPair, type := leAt m 2 2, tag := leAt m 4 2, body := m.drop 12 }
  let busy := ∃ x ∈ s.lamp.inbox ++ s.lamp.running, x.via = .lampPair ∧ x.tag = cmd.tag
  let badLength := leAt m 6 2 ≠ (m.drop 12).length ∨ (cmd.type ∈ knownTypes ∧ structured cmd.type cmd.body = false)
  let foreign := own.lamp.owner ≠ some .lampPair ∧ cmd.type ∉ [0x01, 0x10, 0x12]
  let sum := fun (l : List Byte) => leBytes 4 (crc32 l).toNat
  let stuff := fun (l : List Byte) => l.flatMap (fun b => if b = 0x7E ∨ b = 0x7D then [0x7D, b ^^^ 0x20] else [b])
  (12 ≤ m.length → m.length ≤ 2048 → frameMessage (stuff ([0xFF, 0x03] ++ m ++ sum ([0xFF, 0x03] ++ m))) = some m) ∧
  (s.clocked = true → s.lamp.pairOn = true → bytes ≠ [] →
    (frameMessage bytes = none → exec (.lampFrameRx bytes) s = .next (s.count 0x302 1)) ∧
    (frameMessage bytes = some m →
      ((byteAt m 0 ≠ 1 ∨ byteAt m 1 ≠ 0) → exec (.lampFrameRx bytes) s = .next (s.count 0x303 1)) ∧
      (byteAt m 0 = 1 → byteAt m 1 = 0 → 12 ≤ m.length →
        (busy → exec (.lampFrameRx bytes) s = .next (own.count 0x304 1)) ∧
        (¬ busy → ∀ r, own.storedFor cmd = some r → ∃ t, exec (.lampFrameRx bytes) s = .next t ∧
          let u := own.count 0x304 1
          t = { u with lamp := { u.lamp with sent := t.lamp.sent } } ∧
          t.lamp.sent = if tabGet 0 s.pins.kinds 12 = 0 then
              (r.rsp.take 9 ++ [BitVec.ofNat 8 (s.places .lampPair)] ++ r.rsp.drop 10) :: s.lamp.sent else s.lamp.sent) ∧
        (¬ busy → own.storedFor cmd = none →
          (badLength → exec (.lampFrameRx bytes) s = .next (refuse cmd 5 own)) ∧
          (¬ badLength → cmd.type ∉ knownTypes → exec (.lampFrameRx bytes) s = .next (refuse cmd 4 own)) ∧
          (¬ badLength → cmd.type ∈ knownTypes → foreign → exec (.lampFrameRx bytes) s = .next (refuse cmd 2 own)) ∧
          (¬ badLength → cmd.type ∈ knownTypes → ¬ foreign →
            (s.places .lampPair = 0 → exec (.lampFrameRx bytes) s = .next (refuse cmd 3 own)) ∧
            (s.places .lampPair ≠ 0 →
              exec (.lampFrameRx bytes) s = .next { own with lamp := { own.lamp with inbox := own.lamp.inbox ++ [cmd] } })))))) ∧
  (s.clocked = true → (s.par 0x301).toNat % 2 ^ 24 ≠ 0 →
    (s.lamp.owner = none → exec .ownerTimeout s = .next s) ∧
    (∀ o, s.lamp.owner = some o → exec .ownerTimeout s = .next
      (({ s with lamp := { s.lamp with owner := none } } : State).raise 0x1A [0, 3]))) ∧
  (s.Starts c 0x01 → exec (.ping c.via) s = .next (respond c 0 (leBytes 8 s.clk.tick.toNat ++ leBytes 4 s.kindleStatus) s)) ∧
  (s.Starts c 0x02 → exec (.release c.via) s = .next
    (let t := respond c 0 [] s
     if t.lamp.owner = some c.via then ({ t with lamp := { t.lamp with owner := none } } : State).raise 0x1A [0, 2] else t)) ∧
  (c.via = .lampPair →
    let free : Nat := 4 - ((s.lamp.inbox.erase c ++ s.lamp.running.erase c).filter (fun x => decide (x.via = .lampPair))).length
    let msg : List Byte := [1, 1] ++ leBytes 2 c.type ++ leBytes 2 c.tag ++ leBytes 2 body.length ++
      [BitVec.ofNat 8 st, BitVec.ofNat 8 free, 0, 0] ++ body
    respond c st body s = { s with lamp := { s.lamp with
      inbox := s.lamp.inbox.erase c, running := s.lamp.running.erase c, orphans := s.lamp.orphans.erase c
      stored := { via := c.via, tag := c.tag, crc := crc32 c.body, rsp := msg } ::
        (s.lamp.stored.filter (fun x => decide (x.via = c.via))).take 7 ++ s.lamp.stored.filter (fun x => !decide (x.via = c.via))
      sent := if c ∉ s.lamp.orphans ∧ tabGet 0 s.pins.kinds 12 = 0 then msg :: s.lamp.sent else s.lamp.sent } }) ∧
  (∀ r ∈ [(Instr.getPair c.via, 0x12), (.get c.via, 0x10), (.set c.via, 0x11), (.damperClose c.via, 0x40), (.damperOpen c.via, 0x41),
      (.galReset c.via, 0x42), (.portReset c.via, 0x43), (.configWrite c.via, 0x44), (.memFill c.via, 0x45), (.memRead c.via, 0x46),
      (.memWrite c.via, 0x47), (.captArm c.via, 0x50), (.captRelease c.via, 0x51), (.captRead c.via, 0x52)],
    s.clocked = true → s.lamp.inbox.head? = some c → c.type = r.2 → s.ready c = false → exec r.1 s = .next (respond c 1 [] s))

/-- R120, R124–R129: a flash message is refused at the first failing check and then changes nothing; FLASH_READ returns
every word with its counts and maps; FLASH_PROGRAM writes its words only when all are blank, FLASH_ERASE blanks its sector
and counts, an erase that fails turns bits only from 0 to 1; nothing outside the named words changes. -/
def Obligations.FlashIsReadProgrammedAndErased : Prop := ∀ (s : State) (c : Cmd) (ups : List Upset),
  let a := leAt c.body 0 4
  let n := leAt c.body 4 2
  let w := a / 32
  let sec := leAt c.body 0 2
  let named := fun (limit : Nat) => a % 32 = 0 ∧ 1 ≤ n ∧ n ≤ limit ∧ a < 0x08000000 ∧ a % 65536 + 32 * n ≤ 65536
  let u : State := { s with flash := { s.flash with
    decay := ups.foldl (fun t x => tabSet .sound t x.word (if x.fatal = true then .fatal else .corrected)) s.flash.decay } }
  let guarded := fun (sec : Nat) => sec = 2 ∨ sec = 3 ∨ (s.board.straps.getLsbD 2 = true ∧ sec < 4)
  (s.Starts c 0x20 →
    (¬ named 32 → exec (.flashRead c.via ups) s = .next (respond c 9 [] u)) ∧
    (named 32 → a / 65536 ∈ u.writingSectors → exec (.flashRead c.via ups) s = .next (respond c 0x0A [] u)) ∧
    (named 32 → a / 65536 ∉ u.writingSectors → ∃ (t : State) (d : List Byte) (first blank torn : Nat),
      u.WordsRead t w n ∧ d.length = 32 * n ∧ (∀ i < n, u.wordDecay (w + i) ≠ .fatal → slice d (32 * i) 32 = s.flashWord (w + i)) ∧
      (∀ i < n, u.wordDecay (w + i) = .fatal → (∀ j < i, u.wordDecay (w + j) ≠ .fatal) → first = i) ∧
      ((∀ i < n, u.wordDecay (w + i) ≠ .fatal) → first = 0xFFFF) ∧
      (∀ i, blank.testBit i = decide (i < n ∧ s.wordSt (w + i) = .blank)) ∧ (∀ i, torn.testBit i = decide (i < n ∧ s.wordSt (w + i) = .torn)) ∧
      exec (.flashRead c.via ups) s = .next (respond c (if first = 0xFFFF then 0 else 0x14)
        (leBytes 2 n ++ leBytes 2 ((List.range n).filter (fun i => decide (u.wordDecay (w + i) = .corrected))).length ++
          leBytes 2 first ++ [0, 0] ++ leBytes 4 blank ++ leBytes 4 torn ++ d) t))) ∧
  (s.Starts c 0x21 →
    (¬ named 16 → exec (.flashProgram c.via) s = .next (respond c 9 [] s)) ∧
    (named 16 →
      ((s.flash.op ≠ none ∨ s.sectorInUse (a / 65536) = true) → exec (.flashProgram c.via) s = .next (respond c 0x0A [] s)) ∧
      (s.flash.op = none → s.sectorInUse (a / 65536) = false →
        (guarded (a / 65536) → exec (.flashProgram c.via) s = .next (respond c 0x10 [] s)) ∧
        (¬ guarded (a / 65536) →
          (∀ i < n, s.wordSt (w + i) ≠ .blank → (∀ j < i, s.wordSt (w + j) = .blank) →
            exec (.flashProgram c.via) s = .next (respond c 0x11 (leBytes 2 i ++ [0, 0]) s)) ∧
          ((∀ i < n, s.wordSt (w + i) = .blank) → exec (.flashProgram c.via) s = .next
            { s.begun c with flash := { s.flash with op := some (.program c a (c.body.drop 8)) } }))))) ∧
  (∀ (k : Cmd) (x : Nat) (d : List Byte), s.clocked = true → s.flash.op = some (.program k x d) → ∃ t : State,
    exec .flashProgramDone s = .next (respond k 0 [0xFF, 0xFF, 0, 0] t) ∧
    t = { s with flash := { s.flash with op := none, data := t.flash.data, words := t.flash.words, decay := t.flash.decay } } ∧
    (∀ i, t.wordSt i = if x / 32 ≤ i ∧ i < x / 32 + d.length / 32 then .programmed else s.wordSt i) ∧
    (∀ i, tabGet .sound t.flash.decay i = if x / 32 ≤ i ∧ i < x / 32 + d.length / 32 then .sound else tabGet .sound s.flash.decay i) ∧
    ∀ y, flashByte t.flash.data y = if x / 32 * 32 ≤ y ∧ y < (x / 32 + d.length / 32) * 32 then byteAt d (y - x / 32 * 32)
      else flashByte s.flash.data y) ∧
  (s.Starts c 0x22 →
    (2047 < sec → exec (.flashErase c.via) s = .next (respond c 9 [] s)) ∧
    (sec ≤ 2047 →
      ((s.flash.op ≠ none ∨ s.sectorInUse sec = true) → exec (.flashErase c.via) s = .next (respond c 0x0A [] s)) ∧
      (s.flash.op = none → s.sectorInUse sec = false →
        (guarded sec → exec (.flashErase c.via) s = .next (respond c 0x10 [] s)) ∧
        (¬ guarded sec → exec (.flashErase c.via) s = .next { s.begun c with flash := { s.flash with op := some (.erase c sec) } })))) ∧
  (∀ (k : Cmd) (x : Nat) (clean : Bool), s.clocked = true → s.flash.op = some (.erase k x) → ∃ t : State,
    let times := tabGet 0 s.flash.erases x + 1
    let worn := if times = 20000 then t.raise 0xD3 (leBytes 2 x ++ [0, 0] ++ leBytes 4 times) else t
    exec (.flashEraseDone clean) s = .next (respond k (if clean = true then 0 else 0x13) (leBytes 4 times)
      (if clean = true then worn else worn.raise 0xD2 (leBytes 2 x))) ∧
    t = { s with
      free := t.free
      flash := { s.flash with
        op := none, data := t.flash.data, words := t.flash.words, decay := t.flash.decay, erases := tabSet 0 s.flash.erases x times } } ∧
    (∀ i, (i < 2048 * x ∨ 2048 * x + 2048 ≤ i) → t.wordSt i = s.wordSt i) ∧
    (∀ y, (y < 65536 * x ∨ 65536 * x + 65536 ≤ y) → flashByte t.flash.data y = flashByte s.flash.data y) ∧
    (clean = true → (∀ i < 2048, t.wordSt (2048 * x + i) = .blank) ∧ ∀ y < 65536, flashByte t.flash.data (65536 * x + y) = 0xFF) ∧
    ∀ y, flashByte s.flash.data y &&& flashByte t.flash.data y = flashByte s.flash.data y) ∧
  (s.user = true → ∀ x, (s.sectorInUse x = true ↔ (s.journalValid = true ∧ x = s.journalBlock) ∨ s.inImage x = true))

/-- R125, R130, R131, R133, Table 7.6: FLASH_SWAP is refused at its first failing check, answers at once when the journal
selects its block already, and otherwise follows the plan of R133, step by step until one fails; an entry it programs is
valid, is the selection from then on, and is recorded in FLASH_JOURNAL and FLASH_JOURNAL_SEQ. -/
def Obligations.FlashSwapsFollowTheJournal : Prop := ∀ (s : State) (c : Cmd) (b : Nat),
  (let b := leAt c.body 0 1
   s.Starts c 0x23 →
    (1 < b → exec (.flashSwap c.via) s = .next (respond c 9 [] s)) ∧
    (b ≤ 1 →
      ((s.flash.op ≠ none ∨ s.kin.journalOk = false) → exec (.flashSwap c.via) s = .next (respond c 0x0A [] s)) ∧
      (s.flash.op = none → s.kin.journalOk = true →
        (s.board.straps.getLsbD 2 = true → exec (.flashSwap c.via) s = .next (respond c 0x10 [] s)) ∧
        (s.board.straps.getLsbD 2 = false → ∃ t : State, s.WordsRead t (2048 * b) 8 ∧
          let bad := (∃ i < 8, s.wordDecay (2048 * b + i) = .fatal) ∨ s.bootRecord b ≠ 0
          (bad → exec (.flashSwap c.via) s = .next (respond c 0x12 [] t)) ∧
          (¬ bad → swapPlan t b = [] → exec (.flashSwap c.via) s = .next (respond c 0 (swapBody false t) t)) ∧
          (¬ bad → swapPlan t b ≠ [] → exec (.flashSwap c.via) s = .next
            { t.begun c with flash := { t.flash with op := some (.swap c b) } }))))) ∧
  (∀ (k : Cmd) (clean : Bool), s.clocked = true → s.flash.op = some (.swap k b) →
    let idle : State := { s with flash := { s.flash with op := none } }
    let r := journalSteps clean (swapPlan idle b) idle
    exec (.flashSwapDone clean) s = .next (respond k r.1 (swapBody (rolledIn (swapPlan idle b) r.2) r.2) r.2)) ∧
  (s.selection = none → swapPlan s b = (if s.notBlank 2 = true then [.erase 2] else []) ++ (if s.notBlank 3 = true then [.erase 3] else []) ++ [.put 2 0 1 b]) ∧
  (∀ x, s.selection = some x →
    let other := 5 - x.sec
    let k := s.nextFree x.sec x.word
    let rolls := fun (seq block : Nat) => (if s.notBlank other = true then [JournalStep.erase other] else []) ++
      [.put other 0 (seq + 1) block, .rolled other (seq + 1), .erase x.sec]
    (x.block = b → swapPlan s b = []) ∧
    (x.block ≠ b → k = 2048 → swapPlan s b = rolls x.seq x.block ++ [.put other 1 (x.seq + 2) b]) ∧
    (x.block ≠ b → k ≠ 2048 → s.nextFree x.sec k ≠ 2048 → swapPlan s b = [.put x.sec k (x.seq + 1) b]) ∧
    (x.block ≠ b → k ≠ 2048 → s.nextFree x.sec k = 2048 → swapPlan s b = .put x.sec k (x.seq + 1) b :: rolls (x.seq + 1) b)) ∧
  (∀ (clean : Bool) (j : JournalStep) (r : List JournalStep),
    journalSteps clean [] s = (0, s) ∧
    ((journalStep clean j s).1 = 0 → journalSteps clean (j :: r) s = journalSteps clean r (journalStep clean j s).2) ∧
    ((journalStep clean j s).1 ≠ 0 → journalSteps clean (j :: r) s = journalStep clean j s) ∧
    ∀ sec word seq, let i := 2048 * sec + word
      (s.wordSt i ≠ .blank → journalStep clean (.put sec word seq b) s = (0x11, s)) ∧
      (s.wordSt i = .blank → b ≤ 1 → 1 ≤ seq → seq < 2 ^ 32 → 2 ≤ sec → sec ≤ 3 → word < 2048 → ∃ t, journalStep clean (.put sec word seq b) s = (0, t) ∧
        t.validEntry i = some (seq, b) ∧ (∀ k, k ≠ i → t.wordSt k = s.wordSt k ∧ t.flashWord k = s.flashWord k) ∧
        (t.par 0x3802).toNat = seq ∧ (t.par 0x3801).toNat = b + 2 * (sec - 2) + 4 * t.nextFree sec word + 2 ^ 14 ∧
        (∀ n, n ≠ 0x3801 → n ≠ 0x3802 → t.par n = s.par n) ∧
        t = { s with params := t.params, flash := { s.flash with data := t.flash.data, words := t.flash.words, decay := t.flash.decay } }) ∧
      journalStep clean (.rolled sec seq) s = (0, s.raise 0xD4 ([BitVec.ofNat 8 sec, 0, 0, 0] ++ leBytes 4 seq)) ∧
      (clean = true → journalStep clean (.erase sec) s = (0, eraseSector sec s)) ∧
      ((journalStep clean (.erase sec) s).1 = 0 ∨ (journalStep clean (.erase sec) s).1 = 0x13))

/-- R20, R41, R78–R82, R96, R98, R99, R118, R119, R122, R123, R132, Tables 5.1, 6.1, 7.3 and 7.4: bring-up and the domains
in their order, the journal scan and the block it chooses, the boot record, the directory entry, the header and the
signature block; each check that fails banks the device with the code of its rule, and each that passes goes on to the
next phase. -/
def Obligations.KindlingFindsItsImage : Prop := ∀ (s : State) (ups : List Upset) (good : Bool),
  let at' := fun (n : Nat) => s.clocked = true ∧ s.kin.phase = n
  let phase := fun (n : Nat) (u : State) => ({ u with kin := { u.kin with phase := n } } : State)
  let noted := noteFlash ups s
  let host := s.rv 7 = 3 ∨ s.rv 7 = 4 ∨ s.rv 7 = 11 ∨ s.rv 7 = 12
  let lenient := s.rv 7 = 3 ∨ s.rv 7 = 4
  let booted := fun (u : State) =>
    let v := u.putPar 0x23 (wd (u.img.entry + 16 * u.img.block + (if u.img.signed = true then 32 else 0)))
    if s.rv 1 = 14 then bank 0x11 0 v
    else if host then phase 11 { v with img := { v.img with host := true } } else phase 3 v
  (at' 0 →
    let up : State := { s with
      board := { s.board with valid := true }, kin := { s.kin with warnings := if s.board.rvFlags = 0 then 0 else 8 }
      lamp := { s.lamp with pairOn := decide (s.rv 6 ≠ 0) }, pcie := { s.pcie with started := decide (s.rv 4 ≠ 0) } }
    let told := if s.board.rvFlags = 0 then up else up.raise 0xF9 (leBytes 4 s.board.rvFlags.toNat)
    exec .keeperCycle16 s = .next (if s.board.straps.getLsbD 0 = true then bank 0x10 0 told else phase 1 told)) ∧
  (∀ d, at' 1 → s.domOrder[s.kin.poweredUp]? = some d →
    (good = false → exec (.domainPowerUp good) s = .next (bank 0x16 d s)) ∧
    (good = true → ∃ t : State, (∀ k, t.dom k = if k = d then { Dom.reset with st := .on } else s.dom k) ∧
      (∀ g, t.gal g = if g = d ∧ d < 16 then Gallery.reset else s.gal g) ∧
      t = { s with kin := { s.kin with poweredUp := s.kin.poweredUp + 1 }, pwr := t.pwr, gals := t.gals, ports := t.ports } ∧
      exec (.domainPowerUp good) s = .next (if s.kin.poweredUp + 1 < s.domOrder.length then t
        else if s.img.host = true then answerChunks (phase 4 t) else phase 2 t))) ∧
  (at' 2 → s.kin.journalOk = false → s.flash.op = none → ∃ t : State,
    t = { noted with
      kin := { s.kin with journalOk := true }, params := t.params, free := t.free
      flash := { noted.flash with corrCyc := t.flash.corrCyc }, evt := { s.evt with latches := t.evt.latches } } ∧
    (∀ x, noted.scanJournal = some x → (t.par 0x3802).toNat = x.seq % 2 ^ 32 ∧
      t.par 0x3801 = wd (x.block + 2 * (x.sec - 2) + 4 * noted.nextFree x.sec x.word + 2 ^ 14)) ∧
    (noted.scanJournal = none → t.par 0x3801 = 0 ∧ t.par 0x3802 = 0) ∧
    exec (.journalScan ups) s = .next
      (if s.rv 7 = 1 ∨ s.rv 7 = 9 then { t with img := { s.img with block := 0, blockOk := true } }
       else if s.rv 7 = 2 ∨ s.rv 7 = 10 then { t with img := { s.img with block := 1, blockOk := true } }
       else if (t.par 0x3801).getLsbD 14 = true then { t with img := { s.img with block := (t.par 0x3801).toNat % 2, blockOk := true } }
       else if lenient then t else bank 0x12 0 t)) ∧
  (∀ x : Selection, s.scanJournal = some x → s.validEntry (2048 * x.sec + x.word) = some (x.seq, x.block) ∧
    ∀ sec ∈ [2, 3], ∀ k, (∀ j ≤ k, j < 2048 ∧ s.wordSt (2048 * sec + j) ≠ .blank) → ∀ q b, s.validEntry (2048 * sec + k) = some (q, b) →
      q < x.seq ∨ (q = x.seq ∧ (x.sec < sec ∨ (x.sec = sec ∧ x.word ≤ k)))) ∧
  (at' 2 → s.kin.journalOk = true →
    (s.img.blockOk = false → exec (.bootRecordRead ups) s = .next (booted s)) ∧
    (s.img.blockOk = true →
      let w := 2048 * s.img.block
      let d := flashBytes s.flash.data (65536 * s.img.block) 256
      let sound := leAt d 4 2 = 0x0100 ∧ crc32 (d.take 252) = wd (leAt d 252 4)
      (∀ i < 8, noted.wordDecay (w + i) = .fatal → (∀ j < i, noted.wordDecay (w + j) ≠ .fatal) → ∃ t, noted.WordsRead t w (i + 1) ∧
        exec (.bootRecordRead ups) s = .next (bank 0x15 (w + i) t)) ∧
      ((∀ i < 8, noted.wordDecay (w + i) ≠ .fatal) → ∃ t, noted.WordsRead t w 8 ∧
        (d.take 4 = [0x50, 0x59, 0x42, 0x52] → sound → exec (.bootRecordRead ups) s = .next (booted { t with img := { s.img with
          defEntry := (byteAt d 6).toNat, keyHash := if (byteAt d 7).getLsbD 0 = true then some (slice d 8 32) else none } })) ∧
        (d.take 4 ≠ [0x50, 0x59, 0x42, 0x52] → exec (.bootRecordRead ups) s = .next (if lenient then booted t else bank 0x12 0 t)) ∧
        (d.take 4 = [0x50, 0x59, 0x42, 0x52] → ¬ sound →
          exec (.bootRecordRead ups) s = .next (if lenient then booted t else bank 0x13 0 t))))) ∧
  (at' 3 →
    let e := if s.rv 1 = 0 ∨ s.rv 1 = 15 then s.img.defEntry else s.rv 1
    let w := 2048 * s.img.block + 8 + e
    let d := s.flashWord w
    let first := leAt d 2 2
    let count := leAt d 4 2
    let good := (byteAt d 0).getLsbD 0 = true ∧ crc32 (d.take 28) = wd (leAt d 28 4) ∧ 4 ≤ first ∧ count ≠ 0 ∧ first + count ≤ 2048 ∧
      leAt d 8 4 ≤ count * 65536
    ((e = 0 ∨ 13 < e) → exec (.imageSelect ups) s = .next (bank 0x14 0 s)) ∧
    (1 ≤ e → e ≤ 13 → ∃ t, noted.WordsRead t w 1 ∧
      (noted.wordDecay w = .fatal → exec (.imageSelect ups) s = .next (bank 0x15 w t)) ∧
      (noted.wordDecay w ≠ .fatal → ¬ good → exec (.imageSelect ups) s = .next (bank 0x14 0 t)) ∧
      (noted.wordDecay w ≠ .fatal → good → exec (.imageSelect ups) s = .next (phase 4
        { t.putPar 0x23 (wd (e + 16 * s.img.block + (if s.img.signed = true then 32 else 0))) with
          img := { s.img with entry := e, base := 65536 * first, extent := leAt d 8 4 } })))) ∧
  (∀ (t : State) (h : List Byte), at' 4 → h = s.imgBytes 0 256 → streamRead 0 256 noted = (none, t) →
    let whole := if s.img.host = true then s.img.hostLen else s.img.extent
    let here := if s.img.host = true then s.img.hostBytes.length else s.img.extent
    let devices := leAt h 0x28 4 ||| leAt h 0x26 2
    let absent := fun (i : Nat) => i < 32 ∧ devices.testBit i = true ∧ s.variant.units.testBit i = false
    let e := fun (r : State) => exec (.imageHeaderCheck ups) s = .next (answerChunks r)
    (whole < 256 → exec (.imageHeaderCheck ups) s = .next (bank 0x43 0 noted)) ∧
    (256 ≤ whole → here < 256 → exec (.imageHeaderCheck ups) s = .next noted) ∧
    (256 ≤ whole → 256 ≤ here →
      (crc32 (h.take 252) ≠ wd (leAt h 252 4) → e (bank 0x20 0 t)) ∧
      (crc32 (h.take 252) = wd (leAt h 252 4) →
        (headerFormatOk h = false → e (bank 0x21 0 t)) ∧
        (headerFormatOk h = true → leAt h 0x20 2 ≠ 0x5059 → e (bank 0x22 0 t)) ∧
        (headerFormatOk h = true → leAt h 0x20 2 = 0x5059 →
          ((Config.stepping < leAt h 0x24 1 ∨ leAt h 0x25 1 < Config.stepping) → e (bank 0x23 0 t)) ∧
          (leAt h 0x24 1 ≤ Config.stepping → Config.stepping ≤ leAt h 0x25 1 →
            (∀ i, absent i → (∀ j < i, ¬ absent j) → e (bank 0x24 i t)) ∧
            ((∀ i, ¬ absent i) → leAt h 0x22 2 ≠ s.variant.part → leAt h 0x22 2 ≠ 0xFFFF → e (bank 0x24 (0x80000000 + leAt h 0x22 2) t)) ∧
            ((∀ i, ¬ absent i) → (leAt h 0x22 2 = s.variant.part ∨ leAt h 0x22 2 = 0xFFFF) → ∃ u : State,
              (bitOf (leAt h 0x10 4) 0 = true → e (phase 5 u)) ∧
              (bitOf (leAt h 0x10 4) 0 = false → 8 ≤ s.rv 7 → s.rv 7 ≤ 12 → e (bank 0x30 0 u)) ∧
              (bitOf (leAt h 0x10 4) 0 = false → (s.rv 7 < 8 ∨ 12 < s.rv 7) → e (phase 6 u)) ∧
              u.img = { s.img with
                imageLen := leAt h 8 4, framesOff := leAt h 0x0C 4, hasSig := bitOf (leAt h 0x10 4) 0
                galMask := BitVec.ofNat 16 (leAt h 0x26 2)
                stepPos := [leAt h 0x40 1, leAt h 0x44 1, leAt h 0x48 1, leAt h 0x4C 1]
                stepDelay := [leAt h 0x42 2, leAt h 0x46 2, leAt h 0x4A 2, leAt h 0x4E 2]
                hold := leAt h 0x50 1, strict := bitOf (leAt h 0x51 1) 0, lockLimit := leAt h 0x52 2
                off := leAt h 0x0C 4, index := 0, sect := 0 } ∧
              u.par 0x22 = (let v := leAt h 0x54 4
                wd (if v % 2 ^ 24 = 0 then v / 2 ^ 31 * 2 ^ 31 + 1000 else v) &&& 0x80FFFFFF) ∧
              u.par 0x1A = wd (leAt h 0x14 4) ∧ u.par 0x1B = wd (leAt h 0x18 4) ∧
              ∀ g ∈ s.galList, (leAt h 0x26 2).testBit g = false → u.dom g = Dom.reset)))))) ∧
  (∀ (t : State) (b : List Byte), at' 5 → b = s.imgBytes 256 256 → streamRead 256 256 s = (none, t) →
    512 ≤ (if s.img.host = true then s.img.hostLen else s.img.extent) → 512 ≤ (if s.img.host = true then s.img.hostBytes.length else s.img.extent) →
    let q := slice b 0x10 96
    let e := slice b 0x70 32
    let formed := b.take 4 = [0x50, 0x59, 0x53, 0x47] ∧ leAt b 4 2 = 256 ∧ leAt b 6 2 = 1 ∧ crc32 (b.take 252) = wd (leAt b 252 4)
    let valid := ecdsaVerify (beNat (slice b 0x10 48)) (beNat (slice b 0x40 48)) (beNat e) (beNat (slice b 0x90 48)) (beNat (slice b 0xC0 48)) = true
    (¬ formed → exec .signatureCheck s = .next (answerChunks (bank 0x32 0 t))) ∧
    (formed → s.img.keyHash ≠ some (sha256 q) → exec .signatureCheck s = .next (answerChunks (bank 0x31 0 t))) ∧
    (formed → s.img.keyHash = some (sha256 q) → ¬ valid → exec .signatureCheck s = .next (answerChunks (bank 0x32 0 t))) ∧
    (formed → s.img.keyHash = some (sha256 q) → valid → exec .signatureCheck s = .next (answerChunks (phase 6
      { t.putPar 0x23 (wd (s.img.entry + 16 * s.img.block + 32)) with img := { s.img with digest := some e, signed := true } }))))

/-- R83, R84, R96, R105–R117, R262, Table 6.3: a frame that is truncated, fails its CRC, has no known type, names an absent
unit or breaks a range or order rule banks the device with its code and index, whichever row meets it; a sound frame has
its type's effect and the engine goes on behind it; END needs everything the image must hold, checks the digest, primes
the galleries and starts the start-up steps. -/
def Obligations.FramesAreCheckedAndLoaded : Prop := ∀ (s t u : State) (f : Fr) (type : Nat) (c : Instr),
  let rows := [(Instr.planeFrame, 0x01), (.switchFrame, 0x02), (.sequencerFrame, 0x03), (.contextTable, 0x04), (.contextSeed, 0x05),
    (.memPreload, 0x06), (.fillRun, 0x07), (.tinderFrame, 0x08), (.portDefaults, 0x09), (.paramDefaults, 0x0A), (.essentialMap, 0x0B),
    (.goldenTable, 0x0C), (.endFrame, 0x0F)]
  let g := cfaGal f.cfa
  let d := f.data
  let partOf := if type ≤ 4 ∨ type = 8 ∨ type = 9 then 1 else if type ≤ 7 then 2 else if type = 0x0F then 6 else type - 7
  let behind := fun (r : State) => exec c s = .next (answerChunks { r with img := { r.img with
    off := f.off + f.len + 24, index := f.idx + 1, sect := partOf
    loaded := if type ≤ 4 ∨ type = 8 ∨ type = 9 then r.img.loaded ++ [(cfaNorm f.cfa, { gcrc := crc32 d, off := f.off })] else r.img.loaded } })
  let range := exec c s = .next (bank 0x44 f.idx u)
  s.clocked = true → s.kin.phase = 6 → (c, type) ∈ rows →
  (∀ code detail, nextFrame s = (.bad code detail, t) → exec c s = .next (bank code detail t)) ∧
  (nextFrame s = (.wait, t) → exec c s = .next s) ∧
  (nextFrame s = (.frame f, t) → frameSection f.type = none → exec c s = .next (bank 0x41 f.idx t)) ∧
  (∀ l, nextFrame s = (.frame f, t) → f.type = type → frameKind type = none → commitLeads t.img.linkLeads t = (some l, u) →
    exec c s = .next (bank 0x44 (u.img.loaded.findIdx (fun x => decide (x.1 = 0x40000001 + l * 65536))) u)) ∧
  (nextFrame s = (.frame f, t) → f.type = type → (if frameKind type = none then commitLeads t.img.linkLeads t else (none, t)) = (none, u) →
    (frameAbsent u.variant f = true → exec c s = .next (bank 0x42 f.idx u)) ∧
    (frameAbsent u.variant f = false → frameOk f u = false → range) ∧
    (frameAbsent u.variant f = false → frameOk f u = true →
      let known := u.hasFrame (0x20000000 + g * 65536) = true ∧ ((u.gal g).desc (cfaCtx f.cfa)).defined = true
      (type = 0x04 → (tableOk d = false → range) ∧ (tableOk d = true → behind (u.modGal g (loadTable d)))) ∧
      ((type = 0x01 ∨ type = 0x02) → (¬ (known ∧ contentOk f.cfa d = true) → range) ∧
        (known → contentOk f.cfa d = true → behind (writeFrame f.cfa d u))) ∧
      (type = 0x03 → behind (writeFrame f.cfa d u)) ∧
      (type = 0x08 → (contentOk f.cfa d = false → range) ∧ (contentOk f.cfa d = true → behind (writeFrame f.cfa d u))) ∧
      (type = 0x09 → cfaIndex f.cfa = 0 → ∃ r : Nat × State, r = portFrame0 f u ∧
        (r.1 ≠ 0 → range) ∧
        (r.1 = 0 → (byteAt d 0).toNat ≤ 2 ∧ behind ((u.putPar (portP g 0x01) (wd (byteAt d 0).toNat)).modPort g (fun q => { q with
          lockAt := (byteAt d 1).getLsbD 0, configured := true, bindCfg := slice d 16 16 })))) ∧
      (type = 0x09 → cfaIndex f.cfa ≠ 0 → ∃ r : Nat × State, r = portFrame1 f u ∧
        (r.1 ≠ 0 → range) ∧ (r.1 = 0 → behind r.2 ∧ (∀ o < 128, u.portWordOk g o (leAt d (4 * o) 4) = true))) ∧
      (type = 0x05 → let a := 0x4000 * cfaCtx f.cfa + f.aux
        let ok := (u.img.galMask.getLsbD g = true) ∧ known ∧ 0x1800 ≤ f.aux ∧ f.aux + f.len ≤ 0x4000
        (¬ ok → range) ∧ (ok → ∃ r : State, behind r ∧ (∀ k, k ≠ g → r.gal k = u.gal k) ∧ r = { u with gals := r.gals } ∧
          (∀ x, memByte (r.gal g).store x = if a ≤ x ∧ x < a + f.len then byteAt d (x - a) else memByte (u.gal g).store x) ∧
          ((r.gal g).desc (cfaCtx f.cfa)).accValid = (((u.gal g).desc (cfaCtx f.cfa)).accValid || decide (0x3800 < f.aux + f.len ∧ 0 < f.len)))) ∧
      (type = 0x06 → let ok := (u.img.galMask.getLsbD g = true) ∧ f.aux % 16 = 0 ∧ f.aux + f.len ≤ 0x200000
        (¬ ok → range) ∧ (ok → ∃ r : State, behind r ∧ (∀ k, k ≠ g → r.gal k = u.gal k) ∧ r = { u with gals := r.gals } ∧
          ∀ x, memByte (r.gal g).mem x = if f.aux ≤ x ∧ x < f.aux + f.len then byteAt d (x - f.aux) else memByte (u.gal g).mem x)) ∧
      (type = 0x07 → let n := leAt d 0 4
        let ok := f.len = 32 ∧ n % 16 = 0 ∧ (u.img.galMask.getLsbD g = true) ∧ f.aux % 16 = 0 ∧ f.aux + n ≤ 0x200000
        (¬ ok → range) ∧ (ok → ∃ r : State, behind r ∧ (∀ k, k ≠ g → r.gal k = u.gal k) ∧ r = { u with gals := r.gals } ∧
          ∀ x, memByte (r.gal g).mem x = if f.aux ≤ x ∧ x < f.aux + n then byteAt d (16 + (x - f.aux) % 16) else memByte (u.gal g).mem x)) ∧
      (type = 0x0A → ∀ code r, applyDefaults d (f.len / 8) 0 u = (code, r) →
        (code = 0 → behind r) ∧ (code ≠ 0 → exec c s = .next (bank code f.idx r))) ∧
      (type = 0x0B → ∃ l, behind { u with img := { u.img with mapRecs := u.img.mapRecs ++ l } } ∧ l = mapWalk (f.off + 16) d (f.len / 16) 0) ∧
      (type = 0x0C →
        let l := u.img.golden ++ (List.range (f.len / 16)).map (fun i => Golden.mk (leAt d (16 * i) 4) (wd (leAt d (16 * i + 4) 4)) (leAt d (16 * i + 8) 4) (leAt d (16 * i + 12) 4))
        let ok := (∀ p ∈ l.zip (l.drop 1), cfaNorm p.1.cfa < cfaNorm p.2.cfa) ∧ ∀ x ∈ l, u.goldenOk x = true
        (¬ ok → range) ∧ (ok → behind { u with img := { u.img with golden := l } })) ∧
      (type = 0x0F →
        let told := sha256 (u.imgBytes 0 256 ++ u.imgBytes u.img.framesOff (f.off + 40 - u.img.framesOff))
        ((f.len ≠ 16 ∨ u.imageComplete = false) → range) ∧
        (f.len = 16 → u.imageComplete = true →
          (∀ e, u.img.digest = some e → told ≠ e → exec c s = .next (bank 0x33 f.idx u)) ∧
          ((u.img.digest = none ∨ u.img.digest = some told) → ∃ r : State, exec c s = .next (reachHold (answerChunks r)) ∧ r.kin = { u.kin with phase := 7 } ∧
            r.img = { u.img with off := f.off + 40, index := f.idx + 1, sect := 6 } ∧
            ∀ k ∈ u.galList, u.img.galMask.getLsbD k = true → (r.gal k).allPrimed = true ∧ (r.gal k).activeCtx = (u.gal k).initCtx)))))

/-- R41, R86–R95, R99, R103, R178, R350, Tables 5.2 and 5.3: each start-up step ends when its condition holds and its
position has come; a shared hold point waits for KINDLED, which is released on a multiple of 4,096 ticks, rises late or in
time, and fixes the entry tick; the steps behind it start there, a silent line banks the device or lets it go on alone, and
the last step opens user mode. -/
def Obligations.StartUpStepsReachUserMode : Prop := ∀ s : State,
  let n := s.kin.steps + 1
  let next := fun (i : Nat) => s.clocked = true ∧ s.kin.phase = 7 ∧ s.kin.steps < 4 ∧ s.img.stepPos.getD i 4 = s.kin.steps
  let up := fun (p : Nat) => (s.protocol p = 2 ∧ (s.port p).seam.state = 5) ∨ (s.protocol p ≠ 2 ∧
    ((s.linkOf p false).isSome = true ∨ (s.linkOf p true).isSome = true) ∧ ∀ tx l, s.linkOf p tx = some l → (s.port l).linkSt = 6)
  let locked := (s.clk.aligned = true ∨ s.syncIgnored = true) ∧ ∀ p < 16, s.variant.hasPort p = true → (s.port p).lockAt = true → up p
  let shared := s.board.straps.getLsbD 1 = true
  let waits := s.clocked = true ∧ s.kin.phase = 8
  let d := s.clk.tick.toNat
  let fixed := fun (at' : Nat) (u : State) => ({ u with kin := { u.kin with entry := some (BitVec.ofNat 64 (at' + 8192)) } } : State).putPair 0x24
    ((at' + 8192) % 2 ^ 64)
  (next 0 → locked → exec .lockWait s = .next (endStep 0 s)) ∧
  (next 0 → ¬ locked →
    exec .lockWait s = .next s ∧
    (s.img.strict = true → exec .lockLimitExpiry s = .next (bank 0x50 0 s)) ∧
    (s.img.strict = false → ∃ ports : Nat, (∀ p, ports.testBit p = true ↔
        p < 16 ∧ s.variant.hasPort p = true ∧ (s.port p).lockAt = true ∧ ¬ up p) ∧
      exec .lockLimitExpiry s = .next (endStep 0 (({ s with kin := { s.kin with warnings := s.kin.warnings ||| 1 } } : State).raise 0x13
        (leBytes 2 ports ++ [if s.clk.aligned = true then 1 else 0]))))) ∧
  (next 1 → exec .outputRelease s = .next (endStep 1 { s with kin := { s.kin with outputs := true } })) ∧
  (next 2 → ∃ t : State, exec .gsrRelease s = .next (endStep 2 t) ∧
    t = { s with kin := { s.kin with gsr := false }, gals := t.gals, tnd := { s.tnd with q := t.tnd.q, out := t.tnd.out } } ∧
    ∀ g, t.gal g = if g ∈ s.galList ∧ s.galOn g = true then { s.gal g with seq := { Seq.reset with
        prog := (s.gal g).seq.prog, entry := (s.gal g).seq.entry, pc := (s.gal g).seq.entry, st := .issuing, issued := true
        inputs := (s.gal g).seq.inputs, prev := (s.gal g).seq.prev, nextDma := (s.gal g).seq.nextDma } } else s.gal g) ∧
  (next 3 → exec .writeEnable s = .next (endStep 3 { s with kin := { s.kin with writeEn := true } })) ∧
  (∀ i, s.kin.phase = 7 → (n = s.img.hold ∧ shared → ∃ t : State, endStep i s = t ∧
      t = { s with kin := { s.kin with steps := n, phase := 8, holdAt := some s.clk.cyc }, params := s.params }) ∧
    (¬ (n = s.img.hold ∧ shared) → ∃ t : State, (∀ k, k ≠ 0x24 → k ≠ 0x25 → t.par k = s.par k) ∧ (shared → t.params = s.params) ∧
      t = { s with params := t.params
                   kin := { s.kin with
                     steps := n, holdAt := if n = s.img.hold then some s.clk.cyc else s.kin.holdAt
                     pullDown := if n = s.img.hold then false else s.kin.pullDown } } ∧
      endStep i s = if n = 4 then enterUser t else t)) ∧
  (∃ t : State, enterUser s = t.raise 0x10 (leBytes 4 t.kindleStatus ++ leBytes 8 (s.pair 0x24)) ∧
    t.kin = { s.kin with phase := 9, code := 1 } ∧ t.clk = { s.clk with deferred := [] } ∧ t.params = s.params ∧
    (t.assay.inCycle = true ↔ s.assay.inCycle = true ∨ (s.par 0x3A80).getLsbD 0 = true)) ∧
  (waits → d % 4096 = 0 → exec .kindledRelease s = .next { s with kin := { s.kin with pullDown := false } }) ∧
  (waits → d % 4096 ≠ 0 → exec .kindledRelease s = .next s) ∧
  (waits → s.kin.pullDown = false → s.kin.entry = none →
    (d % 4096 < 2048 → exec .kindledHigh s = .next (fixed (d - d % 4096) s)) ∧
    (2048 ≤ d % 4096 → exec .kindledHigh s = .next (fixed (d - d % 4096)
      (({ s with kin := { s.kin with warnings := s.kin.warnings ||| 4 } } : State).raise 0x14 (leBytes 2 (d % 4096)))))) ∧
  (waits → ∀ e, s.kin.entry = some e →
    (d < e.toNat → exec .kindleEntry s = .next s) ∧
    (e.toNat ≤ d → exec .kindleEntry s = .next (let t : State := { s with kin := { s.kin with phase := 7 } }
      if s.kin.steps = 4 then enterUser t else t))) ∧
  (waits → s.kin.entry = none → (s.par 0x22).toNat % 2 ^ 24 ≠ 0 →
    ((s.par 0x22).getLsbD 31 = false → exec .holdTimeout s = .next (bank 0x51 0 { s with kin := { s.kin with pullDown := false } })) ∧
    ((s.par 0x22).getLsbD 31 = true → exec .holdTimeout s = .next (fixed ((d + 4095) / 4096 * 4096)
      (({ s with kin := { s.kin with pullDown := false, warnings := s.kin.warnings ||| 2 } } : State).raise 0x12 [])))) ∧
  (waits → (s.kin.entry ≠ none ∨ (s.par 0x22).toNat % 2 ^ 24 = 0) → exec .holdTimeout s = .next s)

/-- R76, R94, R96, R98, R135, R309, R326, Table 4.6: a host load starts while the device awaits one, or again from the banked
state, takes its chunks in order and can be aborted; banking powers every domain down, asserts GSR, makes the outputs
safe and records its cause; RESET answers first and then returns galleries, ports, Tinder, the mesh's reservations and
the parameters of their units to reset, and kindling starts at domain power-up. -/
def Obligations.HostLoadsBankingAndWarmReset : Prop := ∀ (s : State) (c : Cmd) (code detail : Nat),
  let len := leAt c.body 0 4
  let n := c.body.length - 8
  let here := match c.via with | .pcie => s.rv 7 = 3 ∨ s.rv 7 = 11 | .lampPair => s.rv 7 = 4 ∨ s.rv 7 = 12
  let loading := s.img.host = true ∧ (s.kin.phase = 1 ∨ (4 ≤ s.kin.phase ∧ s.kin.phase ≤ 6))
  (s.Starts c 0x30 →
    ((¬ here ∨ (s.kin.phase ≠ 11 ∧ ¬ (s.kin.phase = 10 ∧ s.img.host = true))) → exec (.imageBegin c.via) s = .next (respond c 1 [] s)) ∧
    (here → s.kin.phase = 11 → exec (.imageBegin c.via) s = .next (respond c 0 []
      { s with kin := { s.kin with phase := 4 }, img := { s.img with hostLen := len, hostBytes := [] } })) ∧
    (here → s.kin.phase = 10 → s.img.host = true → ∃ t : State, exec (.imageBegin c.via) s = .next (respond c 0 [] t) ∧
      t = { s with
        params := t.params
        kin := { Kindle.reset with phase := 1, warnings := if s.board.rvFlags = 0 then 0 else 8, journalOk := true, pullDown := s.kin.pullDown }
        img := { Image.reset with host := true, hostLen := len, block := s.img.block, blockOk := s.img.blockOk, keyHash := s.img.keyHash, defEntry := s.img.defEntry } } ∧
      t.par 0x21 = 0 ∧ t.par 0x22 = 1000 ∧ ∀ k, k ∉ [0x1A, 0x1B, 0x21, 0x22, 0x23] → t.par k = s.par k)) ∧
  (s.Starts c 0x31 →
    ((¬ here ∨ ¬ loading) → exec (.imageData c.via) s = .next (respond c 1 [] s)) ∧
    (here → loading → (n = 0 ∨ 2016 < n ∨ len ≠ s.img.hostBytes.length ∨ s.img.hostLen < len + n) →
      exec (.imageData c.via) s = .next (respond c 9 [] s)) ∧
    (here → loading → 1 ≤ n → n ≤ 2016 → len = s.img.hostBytes.length → len + n ≤ s.img.hostLen →
      exec (.imageData c.via) s = .next (answerChunks
        (({ s with img := { s.img with hostBytes := s.img.hostBytes ++ c.body.drop 8 } } : State).begun c)))) ∧
  (s.Starts c 0x32 →
    (here → (loading ∨ s.kin.phase = 11) → exec (.imageAbort c.via) s = .next (bank 0x52 0 (respond c 0 [] s))) ∧
    (¬ (here ∧ (loading ∨ s.kin.phase = 11)) → exec (.imageAbort c.via) s = .next (respond c 1 [] s))) ∧
  (∃ t : State, bank code detail s = t ∧
    t.kin = { s.kin with journalOk := true, phase := 10, code := code, failPhase := s.kin.phase, outputs := false, gsr := true, writeEn := false } ∧
    t.par 0x21 = wd detail ∧ (∀ d ∈ s.domOrder, (t.dom d).st = .off) ∧ t.flash.data = s.flash.data ∧ t.flash.words = s.flash.words ∧
    t.img = s.img ∧ t.board = s.board ∧ t.clk = { s.clk with deferred := [] }) ∧
  (s.Starts c 0x03 →
    (byteAt c.body 0 ≠ 0 → exec (.reset c.via) s = .next (respond c 9 [] s)) ∧
    (byteAt c.body 0 = 0 → ∃ t : State, exec (.reset c.via) s = .next t ∧
      let u := respond c 0 [] s
      let kept := fun (k : Nat) => (0x200 ≤ k ∧ k ≤ 0x24F) ∨ (0x300 ≤ k ∧ k ≤ 0x306) ∨ (0x3D00 ≤ k ∧ k ≤ 0x3D0A) ∨ (0x3800 ≤ k ∧ k ≤ 0x3805)
      t.kin = { Kindle.reset with phase := 1, warnings := if s.board.rvFlags = 0 then 0 else 8 } ∧ t.img = Image.reset ∧
      (∀ g, t.gal g = Gallery.reset) ∧ (∀ k, t.par k = if kept k then u.par k else paramReset k) ∧
      (∀ p < 16, t.port p = { Port.reset with
        present := (s.port p).present, signal := (s.port p).signal, faults := (s.port p).faults, faultKind := (s.port p).faultKind }) ∧
      (∀ d < 25, t.dom d = { Dom.reset with critical := (s.dom d).critical }) ∧ t.evt = { Events.reset with queueMax := u.evt.queueMax } ∧
      t.tnd = { Tinder.reset with lines := s.tnd.lines, lineHist := s.tnd.lineHist } ∧ t.capt = Capture.reset ∧ t.sweep = Sweep.reset ∧
      t.assay = Assay.reset ∧ t.flash = s.flash ∧ t.pcie = u.pcie ∧ t.mesh.dead = s.mesh.dead ∧ t.mesh.gtWait = [] ∧
      t.lamp.inbox = u.lamp.inbox ∧ t.lamp.owner = u.lamp.owner ∧ t.lamp.dampers = [] ∧ t.clk.resetSrc = 4 ∧ t.clk.tick = s.clk.tick))

/-- R371–R375, R414, Tables 21.3 and 21.4: DAMPER_CLOSE is refused whole or starts each domain it names; a gallery goes from
the damped sequencer over the drain to a closed, fenced port, a drain that runs out is forced and marks the unit dead, a
port pair drains its buffers or loses them, counted; a closed domain then sleeps or goes off; the command is answered when
no domain is left. -/
def Obligations.DampersCloseTheirDomains : Prop := ∀ (s : State) (c : Cmd) (d p : Nat) (forced : Bool),
  let ds := (List.range 25).filter (fun k => (leAt c.body 0 4).testBit k)
  let action := leAt c.body 4 1
  let x := s.dom d
  let busy := fun (k : Nat) => (∃ m ∈ s.lamp.dampers, m.left.getLsbD k = true) ∨ (s.dom k).moving = true ∨ (k < 16 ∧ s.halted k = true) ∨
    (s.dom k).waking = true ∨ (s.dom k).rekindling = true
  let wrong := 2 < action ∨ (action = 1 ∧ 24 ∈ ds) ∨ (action = 2 ∧ s.img.host = true ∧ ∃ k ∈ ds, k < 16 ∨ k = 24)
  let drains := fun (k n : Nat) => s.clocked = true ∧ (s.dom k).st = .on ∧ (s.dom k).damper = .closing ∧ (s.dom k).step = n
  (s.Starts c 0x40 →
    ((∃ k ∈ ds, s.variant.hasDom k = false) → exec (.damperClose c.via) s = .next (respond c 0x0C [] s)) ∧
    ((∀ k ∈ ds, s.variant.hasDom k = true) →
      (wrong → exec (.damperClose c.via) s = .next (respond c 9 [] s)) ∧
      (¬ wrong → (∃ k ∈ ds, busy k) → exec (.damperClose c.via) s = .next (respond c 0x0A [] s)) ∧
      (¬ wrong → (∀ k ∈ ds, ¬ busy k) →
        (ds = [] → exec (.damperClose c.via) s = .next (respond c 0 (List.replicate 8 0) s)) ∧
        (ds ≠ [] → exec (.damperClose c.via) s = .next (ds.foldl (fun r k => startClose action k r)
          (let t := s.begun c
           { t with lamp := { t.lamp with dampers := s.lamp.dampers ++
              [{ cmd := c, left := BitVec.ofNat 32 (leAt c.body 0 4 % 2 ^ 25), ended := 0, forced := 0 }] } })))))) ∧
  (x.st = .off → startClose action d s = damperDone d true false s) ∧
  (x.st ≠ .off → (x.st ≠ .on ∨ x.damper ≠ .openD ∨ d = 24) →
    startClose action d s = closeDomain d false (s.modDom d (fun x => { x with action := action }))) ∧
  (x.st = .on → x.damper = .openD → d ≠ 24 → ∃ t : State, startClose action d s = t ∧ t = { s with pwr := t.pwr, gals := t.gals } ∧
    (∀ k, t.dom k = if k = d then { x with action := action, damper := .closing, step := 2, since := s.clk.cyc } else s.dom k) ∧
    ∀ g, t.gal g = if g = d ∧ d < 16 then { s.gal g with prefetch := [] } else s.gal g) ∧
  (closeDomain d forced s = damperDone d true forced (s.modDom d (fun y => { x with
    damper := if forced = true ∨ x.damper = .forced then .forced else .closed, step := 5, fenced := true
    moving := decide ((x.action = 1 ∧ x.st = .on) ∨ (x.action = 2 ∧ x.st ≠ .off)) }))) ∧
  (∀ (m : DamperCmd) (ended : Bool), s.lamp.dampers = [m] → m.left.getLsbD d = true → d < 25 →
    let e := if ended = true then m.ended ||| (1#32 <<< d) else m.ended
    let f := if forced = true then m.forced ||| (1#32 <<< d) else m.forced
    let left := m.left &&& ~~~(1#32 <<< d)
    (left ≠ 0 → damperDone d ended forced s = { s with lamp := { s.lamp with dampers := [{ m with left := left, ended := e, forced := f }] } }) ∧
    (left = 0 → damperDone d ended forced s = respond m.cmd 0
      (leBytes 4 e.toNat ++ (if m.cmd.type = 0x40 then leBytes 4 f.toNat else [])) { s with lamp := { s.lamp with dampers := [] } })) ∧
  (d < 16 → drains d 2 →
    ((s.gal d).seq.damped = true → (∀ e, (s.gal d).engine = some e → e.fill = false) →
      exec (.damperSequencerDamped d) s = .next (s.modDom d (fun x => { x with step := 3 }))) ∧
    (((s.gal d).seq.damped = false ∨ ∃ e, (s.gal d).engine = some e ∧ e.fill = true) → exec (.damperSequencerDamped d) s = .next s)) ∧
  (d < 16 → drains d 3 →
    let n := Min.min 0xFFFFFFFF (s.clk.cyc - x.since)
    (s.galDrained d = false → exec (.damperDrained d) s = .next s) ∧
    (s.galDrained d = true → exec (.damperDrained d) s = .next (closeDomain d false (writeHeld d
      (if (s.par (galP d 0x46)).toNat < n then s.putPar (galP d 0x46) (wd n) else s))))) ∧
  (d < 16 → (drains d 2 ∨ drains d 3) → ∃ t : State, exec (.drainLimitExpiry d) s = .next (closeDomain d true
      (t.raise 0xD6 [BitVec.ofNat 8 d, BitVec.ofNat 8 (t.dom d).step])) ∧
    (t.gal d).hold = [] ∧ (t.gal d).tapQ = [] ∧ (t.gal d).seq.damped = true ∧ t.isDead d = true ∧
    Min.min 0xFFFFFFFF ((s.par (galP d 0x52)).toNat + (s.gal d).hold.length) ≤ (t.par (galP d 0x52)).toNat) ∧
  (p < 8 → drains (16 + p) 2 →
    let ports := [2 * p, 2 * p + 1].filter s.variant.hasPort
    let waiting := fun (k : Nat) => s.mesh.ready.filter (fun q => decide (6 * q.sy + q.sx = portNode k ∧ q.sport = k % 2 ∧ q.scard = s.card))
    ((∀ k ∈ ports, (s.port k).txBuf = [] ∧ waiting k = []) → exec (.portPairDrained p) s = .next (closeDomain (16 + p) false s)) ∧
    ((∃ k ∈ ports, (s.port k).txBuf ≠ [] ∨ waiting k ≠ []) → exec (.portPairDrained p) s = .next s) ∧
    ∃ t : State, exec (.portDrainExpiry p) s = .next (closeDomain (16 + p) true
        (t.raise 0xD6 [BitVec.ofNat 8 (16 + p), BitVec.ofNat 8 (t.dom (16 + p)).step])) ∧
      ∀ k ∈ ports, t.isDead (16 + k) = true ∧ (t.port k).txBuf = []) ∧
  (s.clocked = true → x.moving = true →
    (x.action = 1 → exec (.powerDownComplete d) s = .next (leaveOn d .sleep s)) ∧
    (x.action ≠ 1 → exec (.powerDownComplete d) s = .next (releaseHeld d (leaveOn d .off s)))) ∧
  (s.clocked = true → x.moving = false → exec (.powerDownComplete d) s = .next s)

/-- R72, R351, R374–R377, R414, Table 21.4: DAMPER_OPEN is refused whole or opens, wakes or re-kindles each domain it names;
a gallery that re-kindles takes its configuration and seeds from the running image, its memory unprimed and its sequencer
at the entry point, or stays off with the status of the first frame that cannot be read; the Tinder fabric likewise, its
registers at INIT. -/
def Obligations.DampersOpenAndRekindle : Prop := ∀ (s : State) (c : Cmd) (d : Nat),
  let ds := (List.range 25).filter (fun k => (leAt c.body 0 4).testBit k)
  let hot : Prop := (16 * s.tripLevel : Nat) ≤ s.pwr.tj.toInt
  let busy := fun (k : Nat) => (∃ m ∈ s.lamp.dampers, m.left.getLsbD k = true) ∨ (s.dom k).moving = true ∨ (k < 16 ∧ s.halted k = true) ∨
    ((s.dom k).critical = true ∧ hot)
  (s.Starts c 0x41 →
    ((∃ k ∈ ds, s.variant.hasDom k = false) → exec (.damperOpen c.via) s = .next (respond c 0x0C [] s)) ∧
    ((∀ k ∈ ds, s.variant.hasDom k = true) →
      (s.img.host = true → (∃ k ∈ ds, (k < 16 ∨ k = 24) ∧ (s.dom k).st = .off) → exec (.damperOpen c.via) s = .next (respond c 9 [] s)) ∧
      (¬ (s.img.host = true ∧ ∃ k ∈ ds, (k < 16 ∨ k = 24) ∧ (s.dom k).st = .off) →
        ((∃ k ∈ ds, busy k) → exec (.damperOpen c.via) s = .next (respond c 0x0A [] s)) ∧
        ((∀ k ∈ ds, ¬ busy k) →
          (ds = [] → exec (.damperOpen c.via) s = .next (respond c 0 [0, 0, 0, 0] s)) ∧
          (ds ≠ [] → exec (.damperOpen c.via) s = .next (ds.foldl (fun r k => startOpen k r)
            (let t := s.begun c
             { t with lamp := { t.lamp with dampers := s.lamp.dampers ++
              [{ cmd := c, left := BitVec.ofNat 32 (leAt c.body 0 4 % 2 ^ 25), ended := 0, forced := 0 }] } }))))))) ∧
  ((s.dom d).st = .on → startOpen d s = if (s.dom d).damper = .openD then damperDone d true false s else openDomain d s) ∧
  (((s.dom d).st = .sleep ∨ ((s.dom d).st = .off ∧ 16 ≤ d ∧ d ≠ 24)) → startOpen d s = s.modDom d (fun x => { x with waking := true })) ∧
  ((s.dom d).st = .off → (d < 16 ∨ d = 24) → startOpen d s = s.modDom d (fun x => { x with rekindling := true })) ∧
  (s.clocked = true → d < 16 → (s.dom d).rekindling = true →
    let heads := walkHeads s s.img.index s.img.framesOff
    ∀ (st : Nat) (u : State), readItems (rekindleItems s d heads) s = (st, u) →
      (st ≠ 0 → exec (.rekindleDone d) s = .next ((damperDone d false false (u.modDom d (fun x => { x with rekindling := false }))).raise 0xD7
        [BitVec.ofNat 8 d, BitVec.ofNat 8 st])) ∧
      (st = 0 → ∃ t : State, exec (.rekindleDone d) s = .next ((openDomain d t).raise 0xD7 [BitVec.ofNat 8 d, 0]) ∧
        t = { u with gals := t.gals, tnd := t.tnd } ∧ (t.gal d).allPrimed = false ∧ (t.gal d).granules = [] ∧
        (t.gal d).seq.st = .issuing ∧ (t.gal d).seq.pc = (t.gal d).seq.entry ∧ (t.gal d).seq.stack = [] ∧
        (t.gal d).activeCtx = (t.gal d).initCtx)) ∧
  (∀ (i : Item) (r : List Item),
    let w := (s.img.base + i.off) / 32
    let n := (s.img.base + i.off + i.len + 31) / 32 - w
    readItems [] s = (0, s) ∧
    (∀ k < n, s.wordDecay (w + k) = .fatal → (∀ j < k, s.wordDecay (w + j) ≠ .fatal) → ∃ t, s.WordsRead t w (k + 1) ∧ readItems (i :: r) s = (0x14, t)) ∧
    ((∀ k < n, s.wordDecay (w + k) ≠ .fatal) → ∃ t, s.WordsRead t w n ∧
      ((∃ f, i.frame = some f ∧ reloadBad t f = true) → readItems (i :: r) s = (9, t)) ∧
      ((∀ f, i.frame = some f → reloadBad t f = false) → readItems (i :: r) s = readItems r t))) ∧
  (s.clocked = true → (s.dom 24).rekindling = true →
    let fs := goldenFrames s (fun k => decide (cfaKind k = 3))
    ∀ (st : Nat) (u : State), readItems (fs.map frameItem) s = (st, u) →
      (st ≠ 0 → exec .tinderReloadDone s = .next (damperDone 24 false false (u.modDom 24 (fun x => { x with rekindling := false })))) ∧
      (st = 0 → ∃ t : State, exec .tinderReloadDone s = .next (openDomain 24 t) ∧
        t.tnd.q = t.mcInit ∧ t.tnd.out = t.mcOut t.mcInit ∧ t.tnd.default = !s.tnd.fromImage ∧
        (s.tnd.fromImage = false → fs = [] → t.tnd.cfg = defaultTinder)))

/-- R218, R309: MEM_FILL writes its pattern over its range of a gallery that is on and not halted, and changes no other
byte; MEM_READ sends one READ_REQ of up to 512 bytes for each part, MEM_WRITE one WRITE, all from the lamp's place in the
mesh; a range that is misaligned, empty or too long is refused. -/
def Obligations.LampReachesStreamMemory : Prop := ∀ (s : State) (c : Cmd),
  let g := leAt c.body 0 1
  let a := leAt c.body 4 4
  let n := leAt c.body 8 4
  let d := c.body.drop 8
  let on := (s.dom g).st = .on ∧ (s.dom g).rekindling = false
  let absent := g < 16 ∧ s.variant.hasGal g = false
  let wrong := fun (n limit : Nat) => 15 < g ∨ a % 16 ≠ 0 ∨ n % 16 ≠ 0 ∨ n < 16 ∨ limit < n
  let addressed := fun (k : Packet) (cmd i size : Nat) => k.cmd = cmd ∧ k.addr = a + 512 * i ∧ k.gt = false ∧ k.len = (size + 31) / 32 ∧
    k.half = decide (size % 32 ≠ 0) ∧ 6 * k.dy + k.dx = galNode g ∧ k.dport = 0 ∧ k.dcard = s.card ∧
    k.sx = 2 ∧ k.sy = 4 ∧ k.scard = s.card ∧ ∀ b < 128, k.valid.getLsbD b = true
  (s.Starts c 0x45 →
    (absent → exec (.memFill c.via) s = .next (respond c 0x0C [] s)) ∧
    (¬ absent → (15 < g ∨ a % 16 ≠ 0 ∨ n % 16 ≠ 0 ∨ n < 16 ∨ 0x200000 < a + n) → exec (.memFill c.via) s = .next (respond c 9 [] s)) ∧
    (¬ absent → g ≤ 15 → a % 16 = 0 → n % 16 = 0 → 16 ≤ n → a + n ≤ 0x200000 →
      (¬ on → exec (.memFill c.via) s = .next (respond c 0x21 [] s)) ∧
      (on → s.halted g = true → exec (.memFill c.via) s = .next (respond c 0x0A [] s)) ∧
      (on → s.halted g = false → ∃ t : State, exec (.memFill c.via) s = .next (respond c 0 [] t) ∧
        t = { s with params := t.params, gals := t.gals } ∧ (∀ k, k ≠ g → t.gal k = s.gal k) ∧
        (∀ k, k ≠ galP g 0x9E → t.par k = s.par k) ∧ t.par (galP g 0x9E) = s.par (galP g 0x9E) + 1 ∧
        (∀ x, memByte (t.gal g).mem x = if a ≤ x ∧ x < a + n then byteAt c.body (16 + (x - a) % 16) else memByte (s.gal g).mem x) ∧
        (∀ w, tabGet .sound (t.gal g).memBad w = if a ≤ 8 * w ∧ 8 * w < a + n then .sound else tabGet .sound (s.gal g).memBad w) ∧
        (∀ k, (∀ b, b < 512 → a ≤ 512 * k + b ∧ 512 * k + b < a + n) → (t.gal g).primed k = true) ∧
        t.gal g = { s.gal g with
          mem := (t.gal g).mem, memBad := (t.gal g).memBad, granules := (t.gal g).granules, march := (t.gal g).march }))) ∧
  (s.Starts c 0x46 →
    (absent → exec (.memRead c.via) s = .next (respond c 0x0C [] s)) ∧
    (¬ absent → wrong n 1024 → exec (.memRead c.via) s = .next (respond c 9 [] s)) ∧
    (¬ absent → ¬ wrong n 1024 → ∃ (ks : List Packet) (ts : List Trans) (tag : Nat),
      let parts := (n + 511) / 512
      exec (.memRead c.via) s = .next
        (let t := s.begun c
         { t with
            lamp := { t.lamp with reads := s.lamp.reads ++ [{ cmd := c, waiting := parts, parts := [], failed := none }] }
            mesh := { s.mesh with ready := s.mesh.ready ++ ks, trans := s.mesh.trans ++ ts, nextTag := tag } }) ∧
      ks.length = parts ∧ ts.length = parts ∧ ∀ i k x, ks[i]? = some k → ts[i]? = some x →
        addressed k 1 i (Min.min 512 (n - 512 * i)) ∧ x.tag = k.tag ∧ x.node = 6 * k.sy + k.sx ∧ x.port = k.sport ∧ x.dcard = k.dcard ∧
          x.purpose = .lampRead c i)) ∧
  (s.Starts c 0x47 →
    (absent → exec (.memWrite c.via) s = .next (respond c 0x0C [] s)) ∧
    (¬ absent → wrong d.length 1024 → exec (.memWrite c.via) s = .next (respond c 9 [] s)) ∧
    (¬ absent → ¬ wrong d.length 1024 → ∃ ks : List Packet,
      exec (.memWrite c.via) s = .next (respond c 0 [] { s with mesh := { s.mesh with ready := s.mesh.ready ++ ks } }) ∧
      ks.length = (d.length + 511) / 512 ∧ ∀ i k, ks[i]? = some k →
        addressed k 0 i (Min.min 512 (d.length - 512 * i)) ∧ k.data = (d.drop (512 * i)).take 512))

/-- R25, R353, R355, R358, R408–R419, Tables 18.7, 24.1: a capture is armed once, for galleries that are present and a tick
still to come; at its tick every named gallery that is on with its damper open is recorded, a HALT capture stopping it
with the duty it has; its sections are read whole and in range; a release lets the halted galleries run on; trigger lines
are taken as received, their rises counted, and the fabric arms with its own delay. -/
def Obligations.CapturesAreArmedTakenAndRead : Prop := ∀ (s : State) (c : Cmd) (line : Nat) (level : Bool),
  let kind := leAt c.body 0 1
  let gals := leAt c.body 2 2
  let at' := leAt c.body 4 8
  let named := fun (g : Nat) => g < 16 ∧ gals.testBit g = true
  let g := leAt c.body 1 1
  let code := leAt c.body 0 1
  let a := leAt c.body 4 4
  let n := leAt c.body 8 4
  let taken := fun (k : Nat) => s.capt.gals.getLsbD k = true ∧ s.galOn k = true ∧ (s.dom k).damper = .openD
  (s.Starts c 0x50 →
    ((∃ k, named k ∧ s.variant.hasGal k = false) → exec (.captArm c.via) s = .next (respond c 0x0C [] s)) ∧
    ((∀ k, named k → s.variant.hasGal k = true) →
      ((gals = 0 ∨ 1 < kind) → exec (.captArm c.via) s = .next (respond c 9 [] s)) ∧
      (gals ≠ 0 → kind ≤ 1 →
        (at' ≤ s.clk.tick.toNat → exec (.captArm c.via) s = .next (respond c 0x0E [] (s.count 0x3D24 1))) ∧
        (s.clk.tick.toNat < at' → s.capt.st ≠ 0 → exec (.captArm c.via) s = .next (respond c 0x0A [] s)) ∧
        (s.clk.tick.toNat < at' → s.capt.st = 0 → exec (.captArm c.via) s = .next (respond c 0 [] { s with capt := { s.capt with
          st := 1, kind := kind, source := 0, gals := BitVec.ofNat 16 gals, armTick := BitVec.ofNat 64 at', srcGal := 0
          perGal := [], shadows := [] } }))))) ∧
  (s.clocked = true → s.capt.st = 1 →
    (s.clk.tick.toNat < s.capt.armTick.toNat → exec .captureTaken s = .next s) ∧
    (s.capt.armTick.toNat ≤ s.clk.tick.toNat → ∃ t : State, exec .captureTaken s = .next (t.raise 0x15
        ([BitVec.ofNat 8 s.capt.kind, 0] ++ leBytes 2 s.capt.gals.toNat)) ∧
      t = { s with capt := t.capt, params := t.params, pwr := { s.pwr with frozenDuty := t.pwr.frozenDuty } } ∧
      t.capt.st = 2 ∧ t.capt.tick = s.clk.tick ∧ t.capt.inbus = s.tnd.inbus ∧ t.capt.mcOut = s.tnd.out ∧ t.capt.mcQ = s.tnd.q ∧
      (t.par 0x3D25).toNat = Min.min 0xFFFFFFFF ((s.par 0x3D25).toNat + 1) ∧ t.pair 0x3D26 = s.clk.tick.toNat ∧
      ∀ k < 16,
        (taken k → tabGet CaptGal.reset t.capt.perGal k = { CaptGal.reset with st := if s.capt.kind = 1 then 2 else 1 } ∧
          t.shadowOf k = s.gal k ∧ (s.capt.kind = 1 → tabGet 16 t.pwr.frozenDuty k = s.duty k)) ∧
        (s.capt.gals.getLsbD k = true → ¬ taken k →
          tabGet CaptGal.reset t.capt.perGal k = { CaptGal.reset with st := 3, reason := if s.galOn k = true then 1 else 2 }) ∧
        (s.capt.gals.getLsbD k = false → tabGet CaptGal.reset t.capt.perGal k = CaptGal.reset))) ∧
  (s.Starts c 0x51 → ∃ t : State, exec (.captRelease c.via) s = .next (respond c 0 [] t) ∧
    t.capt = Capture.reset ∧ t.pwr = { s.pwr with frozenDuty := [] } ∧ t = { s with capt := t.capt, pwr := t.pwr, mesh := t.mesh } ∧
    ∀ k, t.halted k = false) ∧
  (s.Starts c 0x52 →
    let absent := g < 16 ∧ s.variant.hasGal g = false
    let wrong := a % 16 ≠ 0 ∨ n % 16 ≠ 0 ∨ n < 16 ∨ 1024 < n
    let q := tabGet CaptGal.reset s.capt.perGal g
    (absent → exec (.captRead c.via) s = .next (respond c 0x0C [] s)) ∧
    (¬ absent → wrong → exec (.captRead c.via) s = .next (respond c 9 [] s)) ∧
    (¬ absent → ¬ wrong → s.capt.st ≠ 2 → exec (.captRead c.via) s = .next (respond c 0x0A [] s)) ∧
    (¬ wrong → s.capt.st = 2 → g = 0xFF →
      ((1 < code ∨ (s.capt.device code).length < a + n) → exec (.captRead c.via) s = .next (respond c 9 [] s)) ∧
      (code ≤ 1 → a + n ≤ (s.capt.device code).length →
        exec (.captRead c.via) s = .next (respond c 0 ((s.capt.device code).drop a |>.take n) s))) ∧
    (¬ absent → ¬ wrong → s.capt.st = 2 → g ≠ 0xFF → (15 < g ∨ sectionSize code = none ∨ (∃ z, sectionSize code = some z ∧ z < a + n)) →
      exec (.captRead c.via) s = .next (respond c 9 [] s)) ∧
    (∀ z, ¬ absent → ¬ wrong → s.capt.st = 2 → g ≤ 15 → sectionSize code = some z → a + n ≤ z →
      ((q.st = 0 ∨ q.st = 3) → exec (.captRead c.via) s = .next (respond c 9 [] s)) ∧
      (q.st ≠ 0 → q.st ≠ 3 → code < 0x20 →
        exec (.captRead c.via) s = .next (respond c 0 ((List.range n).map (fun i => sectionByte (s.shadowOf g) code (a + i))) s)) ∧
      (q.st ≠ 0 → q.st ≠ 3 → 0x20 ≤ code →
        (q.lost = true → exec (.captRead c.via) s = .next (respond c 0x21 [] s)) ∧
        (q.lost = false → q.st ≠ 2 → exec (.captRead c.via) s = .next (respond c 9 [] s)) ∧
        (q.lost = false → q.st = 2 → (s.gal g).engine ≠ none → exec (.captRead c.via) s = .next (respond c 0x0A [] s)) ∧
        (q.lost = false → q.st = 2 → (s.gal g).engine = none → code ≠ 0x30 →
          exec (.captRead c.via) s = .next (respond c 0 ((List.range n).map (fun i => sectionByte (s.gal g) code (a + i))) s)) ∧
        (q.lost = false → q.st = 2 → (s.gal g).engine = none → code = 0x30 →
          ((∃ i < n / 16, (s.gal g).storeHolds (a + 16 * i) = true) → exec (.captRead c.via) s = .next (respond c 0x0A [] s)) ∧
          ((∀ i < n / 16, (s.gal g).storeHolds (a + 16 * i) = false) → ∀ d bad t, readBeats g 32 (n / 16) a s = (d, bad, t) →
            exec (.captRead c.via) s = .next (if bad = true then respond c 0x25 [] t else respond c 0 d t)))))) ∧
  (s.clocked = true → s.variant.hasTinder = true → ∀ t, s.tnd.captDue = some t →
    let f := memRead s.tnd.cfg (tndAddr 0 7 112) 8
    let due := t + BitVec.ofNat 64 (16 + leAt f 4 4 % 2 ^ 20)
    (s.capt.st = 0 → exec .tndCaptureArm s = .next { s with tnd := { s.tnd with captDue := none }, capt := { s.capt with
      st := 1, kind := leAt f 0 1, source := 2, gals := BitVec.ofNat 16 (leAt f 2 2), armTick := due, srcGal := 0
      perGal := [], shadows := [] } }) ∧
    (s.capt.st ≠ 0 → exec .tndCaptureArm s = .next { s with tnd := { s.tnd with captDue := none }, capt := { s.capt with
      dropped := Min.min 255 (s.capt.dropped + 1) } })) ∧
  (s.clocked = true → line ≤ 8 → (line = 8 → s.rvTrig ∉ [0, 3, 4, 7] ∧ s.kind 8 = 0) → ∃ t : State,
    exec (.triggerLineRx line level) s = .next
      (if level = true ∧ s.tnd.lines.getLsbD line = false then t.putPar (0x3610 + line) (s.par (0x3610 + line) + 1) else t) ∧
    t = { s with tnd := { s.tnd with lines := t.tnd.lines } } ∧
    ∀ k, t.tnd.lines.getLsbD k = if k = line then level else s.tnd.lines.getLsbD k)

/-- R311, R312, R332–R335, Table 19.1: the concentrator takes every pending raise, in ascending tick and then ascending
number; each is counted with the raises merged into it; one that its mask or its holdoff suppresses, which class 3 knows
neither of, ends there; a survivor is queued, or counted in the overflow episode when 128 reports wait; and in user mode or
the banked state one report or REPORT_LOST leaves for the owner, on PCI Express only through an armed ring. -/
def Obligations.EventsAreTakenAndReported : Prop := ∀ (s : State) (r : Latch),
  let ctrl := s.par (0x3B00 + r.event)
  let cls := (eventClass r.event).getD 0
  let muted := cls ≠ 3 ∧ (ctrl.getLsbD 0 = true ∨
    ∃ l, tabGet none s.evt.lastTick r.event = some l ∧ ctrl.toNat / 2 ^ 8 % 2 ^ 16 ≠ 0 ∧
      r.tick.toNat < l.toNat + ctrl.toNat / 2 ^ 8 % 2 ^ 16 * 1000000)
  let c := s.count (0x3C00 + r.event) (1 + r.merged)
  let fresh : Lost := { counts := [0, 0, 0, 0], firstTick := r.tick, lastTick := r.tick, firstEvent := r.event,
                        behind := s.evt.queue.length }
  let lost := s.evt.lost.getD fresh
  let free := fun (v : Transport) => 4 - ((s.lamp.inbox ++ s.lamp.running).filter (fun c => decide (c.via = v))).length
  let headed := fun (v : Transport) (type : Nat) (body : List Byte) =>
    ([1, 2] ++ leBytes 2 type ++ [0, 0] ++ leBytes 2 body.length ++ [0, BitVec.ofNat 8 (free v), 0, 0] ++ body : List Byte)
  (s.clocked = false → exec .eventTake s = .next s) ∧
  (s.clocked = true → ∃ l : List Latch, l.Perm s.evt.latches ∧
    l.Pairwise (fun a b => a.tick.toNat < b.tick.toNat ∨ (a.tick = b.tick ∧ a.event ≤ b.event)) ∧
    exec .eventTake s = .next (l.foldl (fun s a => takeLatch a s) { s with evt := { s.evt with latches := [] } })) ∧
  (muted → takeLatch r s = c) ∧
  (¬ muted → s.evt.queue.length < 128 → takeLatch r s = { c with evt := { s.evt with
    queue := s.evt.queue ++ [{ event := r.event, tick := r.tick, data := r.data }]
    queueMax := Max.max s.evt.queueMax (s.evt.queue.length + 1), lastTick := tabSet none s.evt.lastTick r.event (some r.tick) } }) ∧
  (¬ muted → 128 ≤ s.evt.queue.length → takeLatch r s =
    ({ c with evt := { s.evt with lost := some { lost with
        counts := lost.counts.modify cls (fun n => Min.min 0xFFFFFFFF (n + 1)), lastTick := r.tick } } } : State).count 0x305 1) ∧
  (s.lamp.owner = none → exec .reportSend s = .next s) ∧
  (s.user = false → s.banked = false → exec .reportSend s = .next s) ∧
  (s.evt.queue = [] → s.evt.lost = none → exec .reportSend s = .next s) ∧
  (∀ v m e, s.clocked = true → (s.user = true ∨ s.banked = true) → s.lamp.owner = some v →
    ((s.evt.lost = none ∧ ∃ a q, s.evt.queue = a :: q ∧ e = { s.evt with queue := q } ∧
        m = headed v 0x80 ([BitVec.ofNat 8 a.event, BitVec.ofNat 8 ((eventClass a.event).getD 0), 0, 0] ++ leBytes 8 a.tick.toNat ++
          padTo 4 a.data)) ∨
     (∃ k a q, s.evt.lost = some k ∧ k.behind ≠ 0 ∧ s.evt.queue = a :: q ∧
        e = { s.evt with queue := q, lost := some { k with behind := k.behind - 1 } } ∧
        m = headed v 0x80 ([BitVec.ofNat 8 a.event, BitVec.ofNat 8 ((eventClass a.event).getD 0), 0, 0] ++ leBytes 8 a.tick.toNat ++
          padTo 4 a.data)) ∨
     (∃ k, s.evt.lost = some k ∧ k.behind = 0 ∧ e = { s.evt with lost := none } ∧
        m = headed v 0x81 (k.counts.flatMap (leBytes 4) ++ leBytes 8 k.firstTick.toNat ++ leBytes 8 k.lastTick.toNat ++
          [BitVec.ofNat 8 k.firstEvent, 0, 0, 0]))) →
    (v = .lampPair → exec .reportSend s = .next
      (if s.lamp.pairOn = true ∧ tabGet 0 s.pins.kinds 12 = 0 then
        { s with evt := e, lamp := { s.lamp with sent := m :: s.lamp.sent } } else s)) ∧
    (v = .pcie → exec .reportSend s = .next
      (if s.pcie.ringArmed = true ∧ s.pcie.waiting = [] ∧ s.ringRoom m = true then ringPut m { s with evt := e } else s)))

/-- R279–R285, R293, R294, Table 16.2: a write into a free command slot changes its bytes and nothing else, and a busy slot
keeps them; an accepted doorbell makes its slot busy and queues it, a bad one is counted; RSP_ACK empties DIRECT_RSP, which
takes the next waiting response; the oldest queued slot is copied into the command stream while the controller takes
commands; the ring is armed only over a legal base and size, takes one padded record per message followed by the producer
offset, and holds what waits as far as there is room; vectors leave when they can be sent and else stay pending; a reset
frees every slot, empties the responses and disarms the ring.  (The places of the configuration fields are those of note
7, PRESUMED.) -/
def Obligations.HostReachesTheLampOverPcie : Prop := ∀ (s : State) (v : Word) (slot off : Nat) (b : List Byte),
  let host := s.clocked = true ∧ s.pcie.linkUp = true
  let dbError := fun (u : State) => { u with pcie := { u.pcie with dbErrors := Min.min 0xFFFFFFFF (u.pcie.dbErrors + 1) } }
  let can := fun (u : State) (k : Nat) => u.pcie.linkUp = true ∧ u.busMaster = true ∧ u.msixOn = true ∧ u.vectorMasked k = false ∧ u.d3hot = false
  let k := v.toNat % 4
  let n := v.toNat / 2 ^ 16 % 2 ^ 12
  let size := 2 ^ ((s.par 0x203).toNat % 32)
  (¬ host → exec (.cmdSlotWrite slot off b) s = .next s ∧ exec (.cmdDoorbell v) s = .next s ∧ exec .rspAck s = .next s ∧
    exec (.ringDoorbell v) s = .next s ∧ exec .pcieLinkDown s = .next s ∧
    ∀ w r, exec (.pcieConfigRequest w r v) s = .next s) ∧
  (host →
    ((off % 4 ≠ 0 ∨ b.length % 4 ≠ 0 ∨ 2048 < off + b.length ∨ (4 ≤ slot ∧ slot ≠ 7) ∨ (slot < 4 ∧ s.pcie.busy.getLsbD slot = true)) →
      exec (.cmdSlotWrite slot off b) s = .next s) ∧
    (off % 4 = 0 → b.length % 4 = 0 → off + b.length ≤ 2048 →
      (slot < 4 → s.pcie.busy.getLsbD slot = false → ∃ t : State, exec (.cmdSlotWrite slot off b) s = .next t ∧
        t = { s with pcie := { s.pcie with slots := t.pcie.slots } } ∧
        (∀ j, j ≠ slot → tabGet [] t.pcie.slots j = tabGet [] s.pcie.slots j) ∧
        ∀ i < 2048, byteAt (tabGet [] t.pcie.slots slot) i =
          if off ≤ i ∧ i < off + b.length then byteAt b (i - off) else byteAt (tabGet [] s.pcie.slots slot) i) ∧
      (slot = 7 → ∃ t : State, exec (.cmdSlotWrite slot off b) s = .next (releaseVectors t) ∧
        t = { s with pcie := { s.pcie with msixTable := t.pcie.msixTable } } ∧
        ∀ i, tabGet 0 t.pcie.msixTable i = if off / 4 ≤ i ∧ i < off / 4 + b.length / 4 ∧ i < 16 then
            (if i % 4 = 3 then ~~~(wd (leAt b (4 * (i - off / 4)) 4)) &&& 1 else wd (leAt b (4 * (i - off / 4)) 4))
          else tabGet 0 s.pcie.msixTable i)) ∧
    (let a := if v.getLsbD 31 = true then ackResponse s else s
     (v.getLsbD 31 = true → n = 0 → exec (.cmdDoorbell v) s = .next a) ∧
     ((n = 0 ∧ v.getLsbD 31 = false) ∨ (n ≠ 0 ∧ (s.pcie.busy.getLsbD k = true ∨ 2048 < n)) → exec (.cmdDoorbell v) s = .next (dbError a)) ∧
     (n ≠ 0 → n ≤ 2048 → s.pcie.busy.getLsbD k = false → ∃ t : State, exec (.cmdDoorbell v) s = .next t ∧
        t = { a with pcie := { a.pcie with busy := t.pcie.busy, queue := s.pcie.queue ++ [(k, n)] } } ∧
        ∀ j < 4, t.pcie.busy.getLsbD j = (decide (j = k) || s.pcie.busy.getLsbD j))) ∧
    exec .rspAck s = .next (ackResponse s) ∧
    (let ahead := (v.toNat + size - s.pcie.cons % size) % size
     let filled := (s.pcie.prod + size - s.pcie.cons % size) % size
     exec (.ringDoorbell v) s = .next (if size ≤ v.toNat ∨ filled < ahead then dbError s
       else drainRing 64 { s with pcie := { s.pcie with cons := v.toNat } })) ∧
    (∀ r, exec (.pcieConfigRequest false r v) s = .next
      { s with pcie := { s.pcie with complete := (0, leBytes 4 (cfgRead s r)) :: s.pcie.complete } }) ∧
    (∀ r, let t : State := { s with pcie := { s.pcie with
            config := tabSet 0 s.pcie.config r ((s.cfgReg r &&& ~~~(cfgMask r)) ||| (v &&& cfgMask r)) } }
      exec (.pcieConfigRequest true r v) s = .next
        (if r = 0x1E ∧ v.getLsbD 15 = true then pcieClear t
         else releaseVectors (if s.d3hot = true ∧ t.d3hot = false then releaseUpstream t else t))) ∧
    exec .pcieLinkDown s = .next
      ((pcieClear { s with pcie := { s.pcie with linkUp := false, width := 0, gen := 0 } }).raise 0x18 [0, 0, 0])) ∧
  (let e := { s with pcie := { s.pcie with direct := none } }
   (∀ m, s.pcie.armRsp = some m → ackResponse s = raiseVector 1 { e with pcie := { e.pcie with direct := some m, armRsp := none } }) ∧
   (∀ m r, s.pcie.armRsp = none → s.pcie.waiting = m :: r → s.pcie.ringArmed = false →
      ackResponse s = raiseVector 1 { e with pcie := { e.pcie with direct := some m, waiting := r } }) ∧
   (s.pcie.armRsp = none → (s.pcie.waiting = [] ∨ s.pcie.ringArmed = true) → ackResponse s = e)) ∧
  (∀ j < 4, (can s j → raiseVector j s = { s with pcie := { s.pcie with msix := j :: s.pcie.msix } }) ∧
    (¬ can s j → ∃ t : State, raiseVector j s = t ∧ t = { s with pcie := { s.pcie with pba := t.pcie.pba } } ∧
      ∀ i < 4, t.pcie.pba.getLsbD i = (decide (i = j) || s.pcie.pba.getLsbD i))) ∧
  (∃ t : State, releaseVectors s = t ∧ t = { s with pcie := { s.pcie with pba := t.pcie.pba, msix := t.pcie.msix } } ∧
    ∀ j < 4, (can s j → t.pcie.pba.getLsbD j = false ∧ (s.pcie.pba.getLsbD j = true → j ∈ t.pcie.msix)) ∧
      (¬ can s j → t.pcie.pba.getLsbD j = s.pcie.pba.getLsbD j)) ∧
  (s.pcie.queue = [] → exec .slotCopy s = .next s) ∧
  (∀ j l r, s.clocked = true → s.pcie.queue = (j, l) :: r →
    let takes := s.pcie.waiting = [] ∧ s.pcie.armRsp = none ∧ (s.pcie.ringArmed = true ∨ s.pcie.direct = none)
    (¬ takes → exec .slotCopy s = .next s) ∧
    (takes → ∃ t : State, t = { s with pcie := { s.pcie with queue := r, busy := t.pcie.busy } } ∧
      (∀ i < 4, t.pcie.busy.getLsbD i = (!decide (i = j) && s.pcie.busy.getLsbD i)) ∧
      exec .slotCopy s = .next (receiveMsg .pcie ((List.range l).map (byteAt (tabGet [] s.pcie.slots j)))
        (if s.pcie.busy = 15#4 then raiseVector 1 t else t)))) ∧
  (v.getLsbD 0 = true → s.Writes 0x206 → exec (.ringArm v) s = .next
    (if (s.par 0x203).toNat % 32 < 16 ∨ 24 < (s.par 0x203).toNat % 32 ∨ s.pair 0x201 % size ≠ 0 then s.ended 9
     else (drainRing 64 { s with pcie := { s.pcie with ringArmed := true, prod := 0, cons := 0 } }).ended 0)) ∧
  (∀ c, drainRing 0 s = s ∧ (s.pcie.waiting = [] → drainRing c s = s) ∧
    ∀ m r, s.pcie.waiting = m :: r → drainRing (c + 1) s =
      if s.pcie.ringArmed = true ∧ s.ringRoom m = true then
        drainRing c (ringPut m { s with pcie := { s.pcie with waiting := r } }) else s) ∧
  (∀ m : List Byte, let r := padTo 64 (leBytes 2 m.length ++ [0, 0] ++ m)
    let base := s.pair 0x201
    let free := size - (s.pcie.prod + size - s.pcie.cons % size) % size
    (s.ringRoom m = true ↔
      (if size < s.pcie.prod + r.length then size - s.pcie.prod else 0) + r.length + 64 ≤ free) ∧
    (s.pcie.prod + r.length ≤ size → let p := (s.pcie.prod + r.length) % size
      ringPut m s = signalRing { s with pcie := { s.pcie with
        prod := p, hostWrites := (s.pair 0x204, leBytes 8 p) :: (base + s.pcie.prod, r) :: s.pcie.hostWrites } }) ∧
    (size < s.pcie.prod + r.length → let p := r.length % size
      ringPut m s = signalRing { s with pcie := { s.pcie with
        prod := p, hostWrites := (s.pair 0x204, leBytes 8 p) :: (base, r) ::
          (base + s.pcie.prod, padTo 64 [0xFF, 0xFF, 0, 0]) :: s.pcie.hostWrites } })) ∧
  (let past := ∀ c, s.pcie.lastVec0 = some c → c + (s.par 0x207).toNat % 65536 * 1000 ≤ s.clk.cyc
   (¬ past → signalRing s = { s with pcie := { s.pcie with unsignalled := true } }) ∧
   (past → signalRing s = raiseVector 0 { s with pcie := { s.pcie with lastVec0 := some s.clk.cyc, unsignalled := false } }) ∧
   exec .msixHoldoffExpiry s = .next (if s.clocked = true ∧ s.pcie.unsignalled = true ∧ past then signalRing s else s)) ∧
  (let gone := { Pcie.reset with
      started := s.pcie.started, linkUp := s.pcie.linkUp, width := s.pcie.width, gen := s.pcie.gen
      hostWrites := s.pcie.hostWrites, msix := s.pcie.msix, complete := s.pcie.complete, bulkCyc := s.pcie.bulkCyc }
   let mine := (s.lamp.inbox ++ s.lamp.running).filter (fun c => decide (c.via = .pcie))
   let kept := s.mesh.trans.filter (fun t => match t.purpose with | .bulk _ _ => false | _ => true)
   exec .pcieReset s = .next (if s.clocked = true ∧ s.pcie.started = true then pcieClear s else s) ∧
   (s.pcie.held = [] → pcieClear s =
     let u : State := { s with pcie := gone, lamp := { s.lamp with orphans := mine }, mesh := { s.mesh with trans := kept } }
     if s.lamp.owner = some .pcie then ({ u with lamp := { u.lamp with owner := none } } : State).raise 0x1A [0, 4] else u)) ∧
  (∀ w g, let c := s.rv 4
    let most := if (c = 1 ∨ c = 2 ∨ c = 3 ∨ c = 15) ∧ s.variant = .pt1600 then 8 else 4
    let fast := if c = 2 ∨ c = 5 then 4 else if c = 3 ∨ c = 6 then 3 else 5
    exec (.pcieLinkUp w g) s = .next (if s.clocked = true ∧ s.pcie.started = true ∧ s.pcie.linkUp = false ∧ 1 ≤ w ∧ w ≤ most ∧
        1 ≤ g ∧ g ≤ fast then
      ({ s with pcie := { s.pcie with linkUp := true, width := w, gen := g } } : State).raise 0x18
        [1, BitVec.ofNat 8 w, BitVec.ofNat 8 g]
      else s))

/-- R280, R286–R290, Table 16.3: an aligned BAR2 write becomes one mesh WRITE and a BAR2 read becomes READ_REQs of up to 512
bytes for the beats it touches, all from the endpoint's place; other writes, and accesses before user mode, are dropped
and counted, reads then return 0xFF bytes; a failed read completes with 0xFF bytes, is counted, keeps its status and
raises event 0x19 at most once per second; a WRITE at the endpoint becomes memory writes of at most the payload size in
its host window, or is dropped and counted. -/
def Obligations.BulkTrafficCrossesTheEndpoint : Prop := ∀ (s : State) (off len tag : Nat) (b : List Byte) (en : Bool),
  let host := s.clocked = true ∧ s.pcie.linkUp = true
  let space := off / 2 ^ 21 % 16
  let from' := fun (k : Packet) => k.sx = 1 ∧ k.sy = 4 ∧ k.sport = 0 ∧ k.scard = s.card ∧ k.gt = false ∧
    k.dcard = off / 2 ^ 32 % 16 ∧ k.dx = off / 2 ^ 29 % 8 ∧ k.dy = off / 2 ^ 26 % 8 ∧ k.dport = off / 2 ^ 25 % 2 ∧
    ∀ j < 128, k.valid.getLsbD j = true
  let stream := if (nodeGal (off / 2 ^ 29 % 8) (off / 2 ^ 26 % 8)).isSome = true then 0x100000000 else 0
  (¬ host → exec (.bar2Write off b en) s = .next s ∧ exec (.bar2Read off len tag) s = .next s) ∧
  (s.d3hot = true → exec (.bar2Write off b en) s = .next s ∧ exec (.bar2Read off len tag) s = .next s) ∧
  (host → s.d3hot = false →
    ((s.user = false ∨ en = false ∨ off % 16 ≠ 0 ∨ b.length % 16 ≠ 0 ∨ b.length = 0 ∨ 512 < b.length ∨ 2 ≤ space) →
      exec (.bar2Write off b en) s = .next (s.count 0x208 1)) ∧
    (s.user = true → en = true → off % 16 = 0 → b.length % 16 = 0 → b.length ≠ 0 → b.length ≤ 512 → space ≤ 1 →
      ∃ k : Packet, exec (.bar2Write off b en) s = .next { s with mesh := { s.mesh with ready := s.mesh.ready ++ [k] } } ∧
        from' k ∧ k.cmd = 0 ∧ k.addr = (if space = 0 then off % 2 ^ 21 else stream) ∧ k.len = (b.length + 31) / 32 ∧
        k.half = decide (b.length % 32 = 16) ∧ k.data = b) ∧
    ((∀ x ∈ s.pcie.bulk, x.tag ≠ tag) → len ≠ 0 →
      (s.user = false → exec (.bar2Read off len tag) s = .next
        (({ s with pcie := { s.pcie with complete := (tag, List.replicate len 0xFF) :: s.pcie.complete } } : State).count 0x208 1)) ∧
      (s.user = true → 2 ≤ space → exec (.bar2Read off len tag) s = .next { s with pcie := { s.pcie with
        bulk := s.pcie.bulk ++ [{ tag := tag, first := off, len := len, parts := [], waiting := 0, failed := some 9 }] } }) ∧
      (s.user = true → space ≤ 1 →
        let total := off % 16 + len + (16 - (off + len) % 16) % 16
        let parts := (total + 511) / 512
        let open' := (s.mesh.trans.filter (fun t => decide (t.node = 25 ∧ t.port = 0))).length
        (64 < open' + parts → exec (.bar2Read off len tag) s = .next s) ∧
        (open' + parts ≤ 64 → ∃ (ks : List Packet) (ts : List Trans) (next : Nat),
          exec (.bar2Read off len tag) s = .next { s with
            pcie := { s.pcie with
              bulk := s.pcie.bulk ++ [{ tag := tag, first := off, len := len, parts := [], waiting := parts, failed := none }] }
            mesh := { s.mesh with ready := s.mesh.ready ++ ks, trans := s.mesh.trans ++ ts, nextTag := next } } ∧
          ks.length = parts ∧ ts.length = parts ∧ ∀ i k x, ks[i]? = some k → ts[i]? = some x →
            from' k ∧ k.cmd = 1 ∧ k.addr = (if space = 0 then (off - off % 16) % 2 ^ 21 + 512 * i else stream) ∧
            k.len = (Min.min 512 (total - 512 * i) + 31) / 32 ∧ k.half = decide (Min.min 512 (total - 512 * i) % 32 = 16) ∧
            x.tag = k.tag ∧ x.node = 25 ∧ x.port = 0 ∧ x.dcard = k.dcard ∧ x.purpose = .bulk tag i)))) ∧
  ((∀ x ∈ s.pcie.bulk, x.tag ≠ tag) → exec (.bar2ReadComplete tag) s = .next s) ∧
  (∀ x : Bulk, s.clocked = true → s.pcie.bulk.find? (fun y => decide (y.tag = tag)) = some x →
    (x.waiting ≠ 0 → exec (.bar2ReadComplete tag) s = .next s) ∧
    (x.waiting = 0 →
      let ended := fun (d : List Byte) => { s with pcie := { s.pcie with bulk := s.pcie.bulk.erase x, complete := (tag, d) :: s.pcie.complete } }
      (x.failed = none → ∀ ds : List (List Byte), ds.length = x.parts.length →
        (∀ i d, ds[i]? = some d → x.parts.find? (fun y => decide (y.1 = i)) = some (i, d)) →
        exec (.bar2ReadComplete tag) s = .next (ended ((ds.flatten.drop (x.first % 16)).take x.len))) ∧
      (∀ st, x.failed = some st →
        let u := ((ended (List.replicate x.len 0xFF)).count 0x208 1).putPar 0x20A (wd st)
        exec (.bar2ReadComplete tag) s = .next
          (if ∀ c, s.pcie.bulkCyc = some c → c + 1000000000 ≤ s.clk.cyc then
            ({ u with pcie := { u.pcie with bulkCyc := some s.clk.cyc } } : State).raise 0x19
              ([BitVec.ofNat 8 st, 0, 0, 0] ++ leBytes 8 x.first)
          else u)))) ∧
  (∀ i f, s.Arrives i f .pcie → f.pkt.cmd = 0 → f.pkt.poison = false →
    let p := f.pkt
    let t := s.taken i f
    let w := p.addr / 2 ^ 44 % 16
    let o := p.addr % 2 ^ 44
    let size := (t.par (0x212 + 4 * w)).toNat % 64
    let d := writeData p
    (t.d3hot = true → exec (.upstreamWrite i) s = .next { t with pcie := { t.pcie with held := t.pcie.held ++ [p] } }) ∧
    (t.d3hot = false → (size = 0 ∨ 2 ^ size < o + byteCount p ∨ t.busMaster = false ∨ t.pcie.linkUp = false) →
      exec (.upstreamWrite i) s = .next (t.count 0x209 1)) ∧
    (t.d3hot = false → size ≠ 0 → o + byteCount p ≤ 2 ^ size → t.busMaster = true → t.pcie.linkUp = true →
      exec (.upstreamWrite i) s = .next { t with pcie := { t.pcie with hostWrites :=
        ((List.range ((d.length + t.maxPayload - 1) / t.maxPayload)).map (fun j =>
          (t.pair (0x210 + 4 * w) + o + j * t.maxPayload, (d.drop (j * t.maxPayload)).take t.maxPayload))).reverse ++
          t.pcie.hostWrites } }))

/-- R379–R382, R384–R388, R390–R392, R394, Tables 22.1, 22.2: a pass starts at entry 0 with its T_eff; an entry whose place
is not present is skipped; a matching CRC ends the entry; a mismatch is repaired under a grant of the configuration port,
at once for a port, and not at all in detect-only operation or with a damaged golden copy; a benign repair is only counted,
an essential one is counted, noted, reported and meets the gallery's policy when the frame was in use; a repair whose
place has changed is discarded; a late pass is reported once in a row; and a supervisor restart abandons the repair and
starts a new pass.  (The operand names the bits that upsets have inverted: note 5, DESIGN CHOICE.) -/
def Obligations.SweepChecksRepairsAndRestarts : Prop := ∀ (s : State) (i : Nat) (e : Golden) (flips : List Nat) (ups : List Upset),
  let g := cfaGal e.cfa
  let kind := cfaKind e.cfa
  let hearths := kind ≤ 2
  let total := s.img.golden.length
  let teff := 8 * Max.max ((s.par 0x3A00).toNat % 2 ^ 14 * 125000) (72 * total)
  let begun := fun (u : State) => { u with sweep := { u.sweep with
    running := true, start := s.clk.cyc, index := 0, repair := none, changed := false, teff := teff } }
  let busy := s.clocked = true ∧ s.user = true ∧ s.sweep.running = true ∧ s.sweep.restarting = false ∧ s.sweep.repair = none
  let u := noteFlash ups s
  let skips := cfaNorm e.cfa ∈ u.sweep.unguarded ∨ (u.img.host = true ∧ 8192 ≤ i) ∨
    (kind = 0 ∧ (u.galOn g = false ∨ ((u.gal g).fillingOf (cfaCtx e.cfa)).isSome = true)) ∨ ((kind = 1 ∨ kind = 2) ∧ u.galOn g = false) ∨
    (kind = 3 ∧ u.tndOn = false) ∨ (3 < kind ∧ (u.dom (16 + g / 2)).st ≠ .on)
  let inUse := fun (v : State) => (kind = 0 ∧ ∃ p, (v.gal g).planeOf (cfaCtx e.cfa) = some p ∧
      (p = (v.gal g).active ∨ tabGet 0 v.sweep.checked i ≤ ((v.gal g).plane p).usedCyc)) ∨ kind = 1 ∨ kind = 2
  let shadowed := fun (v : State) => ∃ h ∈ v.sweep.shadows, h.cfa = cfaNorm e.cfa
  (exec .sweepPassStart s = .next
    (if s.clocked = true ∧ s.user = true ∧ s.sweep.restarting = false ∧ total ≠ 0 ∧ (s.sweep.running = false ∨ total ≤ s.sweep.index) then
      begun s else s)) ∧
  (exec .sweepVoteFailure s = .next (if s.clocked = true ∧ s.user = true then restartSweep 1 s else s)) ∧
  (exec .sweepHeartbeatTimeout s = .next
    (if s.clocked = true ∧ s.user = true ∧ s.sweep.restarting = false then restartSweep 2 s else s)) ∧
  (exec .sweepRestartDone s = .next (if s.clocked = true ∧ s.sweep.restarting = true then
      (let v := begun s; { v with sweep := { v.sweep with restarting := false } }) else s)) ∧
  (∀ cause, ∃ t : State, restartSweep cause s = (t.count 0x3A05 1).raise 0xE2 [BitVec.ofNat 8 cause] ∧
    t = { s with gals := t.gals, sweep := { s.sweep with restarting := true, repair := none, changed := false } } ∧
    ∀ p, t.gal p = if p < 17 then { s.gal p with portWait := (s.gal p).portWait.filter (fun w => !w.isSweep) } else s.gal p) ∧
  (¬ busy → exec (.sweepEntryDue flips ups) s = .next s) ∧
  (s.sweep.index = i → s.img.golden[i]? = some e → busy →
    (skips → exec (.sweepEntryDue flips ups) s = .next (nextEntry u)) ∧
    (¬ skips → kind = 4 →
      (flips = [] → exec (.sweepEntryDue flips ups) s = .next (endEntry u)) ∧
      (flips ≠ [] → exec (.sweepEntryDue flips ups) s = .next
        (endEntry (if u.img.host = true then detectOnly i e u else recordRepair e.cfa flips.length true false u)))) ∧
    (¬ skips → kind ≠ 4 →
      let w := if flips = [] then u else putPlace e (flipBits (u.placeData e) flips) u
      let golden := w.goldenData e
      (crc32 (w.placeData e) = w.goldenCrc e → exec (.sweepEntryDue flips ups) s = .next (endEntry w)) ∧
      (crc32 (w.placeData e) ≠ w.goldenCrc e →
        (w.img.host = true → exec (.sweepEntryDue flips ups) s = .next (endEntry (detectOnly i e w))) ∧
        (w.img.host = false →
          let a := w.img.base + e.frameOff + 16
          let bad := ¬ shadowed w ∧ (w.flashBad a 512 = true ∨ crc32 golden ≠ e.gcrc)
          let v := if shadowed w then w else (readFlash a 512 w).2
          (bad → exec (.sweepEntryDue flips ups) s = .next (endEntry (goldenFails i e v))) ∧
          (¬ bad →
            let c := classify e (diffBits (w.placeData e) golden) v
            exec (.sweepEntryDue flips ups) s = .next (askPort (cfaPort e.cfa) (.sweep 0)
              { c.2 with sweep := { c.2.sweep with
                  repair := some (i, (diffBits (w.placeData e) golden).length, c.1, decide (inUse c.2)), changed := false } }) ∧
            ((e.mapOff = 0 ∨ shadowed v) → c = (true, v))))))) ∧
  (s.sweep.repair = none → exec .sweepRepairWrite s = .next s) ∧
  (∀ n ess used, s.sweep.repair = some (i, n, ess, used) → s.img.golden[i]? = some e →
    ((s.clocked = false ∨ s.sweepHolds (cfaPort e.cfa) = false) → exec .sweepRepairWrite s = .next s) ∧
    (s.clocked = true → s.sweepHolds (cfaPort e.cfa) = true →
      (s.sweep.changed = true → exec .sweepRepairWrite s = .next (endEntry s)) ∧
      (s.sweep.changed = false → exec .sweepRepairWrite s = .next (endEntry (recordRepair e.cfa n ess used
        (if kind = 2 then s.modGal g (loadTable (s.goldenData e)) else writeFrame e.cfa (s.goldenData e) s)))))) ∧
  (let b := s.count 0x3A02 1
   ∀ n used, recordRepair e.cfa n false used s = if hearths then b.count (galP g 0x32) 1 else b) ∧
  (let b := (if hearths then (s.count 0x3A03 1).count (galP g 0x31) 1 else s.count 0x3A03 1).putPar 0x3A06 (wd e.cfa)
   ∀ n used k, (used = true → hearths → k = (s.par (galP g 0x30)).toNat % 4) → (used = false ∨ ¬ hearths → k = 0) →
     recordRepair e.cfa n true used s = (applyPolicy k g b).raise 0xE0 (leBytes 4 e.cfa ++ leBytes 2 n ++ [BitVec.ofNat 8 k])) ∧
  (∀ k, (inUse s → hearths → k = (s.par (galP g 0x30)).toNat % 4) → (¬ (inUse s ∧ hearths) → k = 0) →
    goldenFails i e s = applyPolicy k g
      (({ s with sweep := { s.sweep with unguarded := s.sweep.unguarded ++ [cfaNorm e.cfa] } } : State).raise 0xE3 (leBytes 4 e.cfa)) ∧
    (let d := applyPolicy k g (if hearths then (s.count 0x3A03 1).count (galP g 0x31) 1 else s.count 0x3A03 1)
     (cfaNorm e.cfa ∈ d.sweep.reported → detectOnly i e s = d) ∧
     (cfaNorm e.cfa ∉ d.sweep.reported → ∃ n, detectOnly i e s =
       ({ d with free := d.free + 1, sweep := { d.sweep with reported := d.sweep.reported ++ [cfaNorm e.cfa] } } : State).raise 0xE0
         (leBytes 4 e.cfa ++ leBytes 2 n ++ [BitVec.ofNat 8 k])))) ∧
  (applyPolicy 1 g s = (let c := s.count (galP g 0x33) 1
      if s.damping g = true then c.modGal g (fun x => { x with resetDue := true }) else galleryReset g c) ∧
    applyPolicy 2 g s = markDead g 5 s ∧ ∀ k, k ≠ 1 → k ≠ 2 → applyPolicy k g s = s) ∧
  (endEntry s = nextEntry { s with sweep := { s.sweep with checked := tabSet 0 s.sweep.checked s.sweep.index s.clk.cyc } }) ∧
  (let n := { s with sweep := { s.sweep with index := s.sweep.index + 1, repair := none, changed := false } }
   let late := decide (s.sweep.start + s.sweep.teff < s.clk.cyc)
   let m := n.tally 0x3A04 1
   let l : State := { m with sweep := { m.sweep with late := late } }
   (s.sweep.index + 1 < total → nextEntry s = n) ∧
   (total ≤ s.sweep.index + 1 → nextEntry s = if late = true ∧ s.sweep.late = false then
     l.raise 0xE4 (leBytes 4 ((s.clk.cyc - s.sweep.start + 999999) / 1000000)) else l))

/-- R396–R398, R403, R406, R407: a segment starts in a window of a hearth that is still to be tested; a match counts
towards the hearth's test, a first mismatch is retried, a second excludes the hearth and raises event 0xE8; a link unit
counts in a slot that no flow owns, with one retry before event 0xEA; when nothing is left to test the cycle ends, its
time is kept, event 0xEB is raised and the next cycle begins; ENABLE starts a cycle in user mode, and clearing it ends
every segment without effect. -/
def Obligations.AssayTestsHearthsAndLinks : Prop := ∀ (s : State) (g h n d : Nat) (v : Word),
  let x := s.gal g
  let q := tabGet HearthTest.reset x.hearths h
  let off := fun (k : Nat) => (s.par 0x3A80).getLsbD k = false
  let on := s.user = true ∧ s.assay.inCycle = true ∧ (s.par 0x3A80).getLsbD 0 = true
  let segs := if s.variant.hasDiv = true ∧ h / 8 % 4 = 3 then 42 else 38
  let wanted := off 2 ∧ s.galOn g = true ∧ q.excluded = false ∧ q.done < segs
  let window := (x.record x.active h).op = 0 ∨ ∃ k, x.seq.st = .waiting k ∧ 16 ≤ k ∧ x.seq.damped = false
  let k := 4 * n + d
  let link := n < 30 ∧ ((d = 0 ∧ 6 ≤ n) ∨ (d = 1 ∧ n % 6 < 5) ∨ (d = 2 ∧ n / 6 < 4) ∨ (d = 3 ∧ 0 < n % 6))
  let free := ∀ f < 128, s.flowOn f = true → ((n, d), s.clk.tick.toNat % 64) ∉ s.flowSlots f
  let open' := s.clocked = true ∧ on ∧ off 4 ∧ link ∧ k ∉ s.assay.linkFail ∧ tabGet 0 s.assay.links k < 578 ∧ free
  let noRetry := s.assay.linkRetry.filter (fun y => !decide (y = k))
  let ends := fun (w : State) (c : HearthTest) => w.gals = (s.modGal g (fun y => { y with hearths := tabMod HearthTest.reset y.hearths h (fun _ => c) })).gals
  (on → s.live g = true → h < 128 → wanted → q.running = false → window → exec (.assaySegmentStart g h) s = .next
    (s.modGal g (fun y => { y with hearths := tabMod HearthTest.reset y.hearths h (fun _ => { q with running := true, plane := x.active }) }))) ∧
  (¬ (on ∧ s.live g = true ∧ h < 128 ∧ wanted ∧ q.running = false ∧ window) → exec (.assaySegmentStart g h) s = .next s) ∧
  ((s.clocked = false ∨ q.running = false) → ∀ b, exec (.assaySegmentDone g h b) s = .next s) ∧
  (s.clocked = true → q.running = true →
    (∃ t : State, exec (.assaySegmentDone g h true) s = .next (if q.done + 1 = segs then t.tally 0x3A84 1 else t) ∧
      t = { s with gals := t.gals } ∧ ends t { q with running := false, retry := false, done := q.done + 1 }) ∧
    (q.retry = false → ∃ t : State, exec (.assaySegmentDone g h false) s = .next t ∧ t = { s with gals := t.gals } ∧
      ends t { q with running := false, retry := true }) ∧
    (q.retry = true → ∃ t : State, exec (.assaySegmentDone g h false) s =
        .next (assayFail 1 g h [BitVec.ofNat 8 g, BitVec.ofNat 8 h, BitVec.ofNat 8 q.plane] t) ∧ t = { s with gals := t.gals } ∧
      ends t { q with running := false, retry := false, excluded := true })) ∧
  (¬ open' → ∀ b, exec (.assayLinkUnit n d b) s = .next s) ∧
  (open' →
    (let t : State := { s with assay := { s.assay with links := tabMod 0 s.assay.links k (· + 1), linkRetry := noRetry } }
     exec (.assayLinkUnit n d true) s = .next (if tabGet 0 s.assay.links k = 577 then t.tally 0x3A86 1 else t)) ∧
    (k ∈ s.assay.linkRetry → exec (.assayLinkUnit n d false) s = .next (assayFail 3 n d [BitVec.ofNat 8 n, BitVec.ofNat 8 d]
      { s with assay := { s.assay with linkFail := s.assay.linkFail ++ [k], linkRetry := noRetry } })) ∧
    (k ∉ s.assay.linkRetry → exec (.assayLinkUnit n d false) s = .next
      { s with assay := { s.assay with linkRetry := s.assay.linkRetry ++ [k] } })) ∧
  (let time := s.clk.cyc - s.assay.start
   exec .assayCycleDone s = .next (if s.clocked = true ∧ on ∧ s.unitsLeft = 0 then
     startAssay ((s.putPar 0x3A82 (wd (time / 1000))).raise 0xEB (leBytes 4 ((time + 999999) / 1000000))) else s)) ∧
  (s.Writes 0x3A80 →
    let w := s.putPar 0x3A80 (v &&& 0x1F#32)
    (v.getLsbD 0 = true → exec (.assayEnable v) s = .next ((if s.user = true then startAssay w else w).ended 0) ∧
      exec (.assayDisable v) s = .next s) ∧
    (v.getLsbD 0 = false → exec (.assayDisable v) s = .next ((if s.user = true then stopAssay w else w).ended 0) ∧
      exec (.assayEnable v) s = .next s)) ∧
  (∃ t : State, startAssay s = t ∧
    t = { s with gals := t.gals, assay := { s.assay with inCycle := true, start := s.clk.cyc, links := [], linkRetry := [] } } ∧
    ∀ j, (j ∉ s.galList → t.gal j = s.gal j) ∧ (j ∈ s.galList → (t.gal j).march = March.reset ∧
      (∀ i < 128, tabGet HearthTest.reset (t.gal j).hearths i =
        { HearthTest.reset with excluded := (tabGet HearthTest.reset (s.gal j).hearths i).excluded }) ∧
      (t.gal j).mem = (if 2 ≤ (s.gal j).march.step then memWrite (s.gal j).mem (s.gal j).march.addr (s.gal j).march.buffer else (s.gal j).mem) ∧
      (t.gal j).requests = (s.gal j).requests.filter (fun r => !decide (r.requester = 34)))) ∧
  (∃ t : State, stopAssay s = t ∧ t = { s with gals := t.gals, assay := { s.assay with inCycle := false } } ∧
    ∀ j, (j ∉ s.galList → t.gal j = s.gal j) ∧ (j ∈ s.galList → t.gal j = cancelSegments (s.gal j)))

/-- R420–R426, R430, Tables 25.1, 25.2: a read starts for a present module of a JESD204C port when the end frame of kindling
or an insertion leaves it undecided, one at a time on a bus with the even port first, and not on a faulty bus; a missing
acknowledge is retried twice; a completed read keeps its record and is judged by the first check that fails, MOD_REVERSED
standing before the binding; the binding of the port follows its mode, and a withholding ends only by a pass; a stable
change of MOD_PRESN is counted, reported and leaves the binding undecided.  (Which passes can end a withholding is the
model's reading of R425: note 9, DEDUCED.) -/
def Obligations.TalliesDecideTheBinding : Prop := ∀ (s : State) (p : Nat) (d : List Byte) (present : Bool) (v : Word) (a : TallyAnswer),
  p < 16 → s.clocked = true →
  let q := s.port p
  let jesd := s.protocol p = 1
  let mate := if p % 2 = 0 then p + 1 else p - 1
  let reads := fun (k : Nat) => s.protocol k = 1 ∧ (s.port k).present = true ∧ (s.port k).bind = 0 ∧ (s.port k).tallySt ≠ 1
  let starts := 7 ≤ s.kin.phase ∧ s.kin.phase ≤ 9 ∧ reads p ∧ tabGet 0 s.pins.kinds (16 + p / 2) = 0 ∧ (s.port mate).tallySt ≠ 1 ∧
    ¬ (p % 2 = 1 ∧ reads mate)
  let rec' := fun (i : Nat) => byteAt d i
  let valid := rec' 0 = 0x54 ∧ rec' 1 = 0x4C ∧
    crc32 ((List.range 28).map rec') = wd ((rec' 28).toNat + 256 * (rec' 29).toNat + 65536 * (rec' 30).toNat + 16777216 * (rec' 31).toNat) ∧
    rec' 2 = 1 ∧ (rec' 3 = 0xA5 ∨ rec' 3 = 0x5A)
  let why := if rec' 0 ≠ 0x54 ∨ rec' 1 ≠ 0x4C then 2
    else if crc32 ((List.range 28).map rec') ≠ wd ((rec' 28).toNat + 256 * (rec' 29).toNat + 65536 * (rec' 30).toNat + 16777216 * (rec' 31).toNat)
    then 3 else 4
  let mode := (byteAt q.bindCfg 0).toNat
  let listed := (rec' 4 = byteAt q.bindCfg 2 ∧ rec' 5 = byteAt q.bindCfg 3) ∧ (byteAt q.bindCfg 12).toNat ≤ (rec' 8).toNat ∧
    ∃ i < 4, (byteAt q.bindCfg (4 + 2 * i) ≠ 0 ∨ byteAt q.bindCfg (5 + 2 * i) ≠ 0) ∧
      rec' 6 = byteAt q.bindCfg (4 + 2 * i) ∧ rec' 7 = byteAt q.bindCfg (5 + 2 * i)
  let fails := fun (u : State) (reason : Nat) => ((u.modPort p (fun x => { x with
      tallySt := 3, tallyRev := false, reason := reason
      bind := if q.bind = 2 then 2 else if reason = 6 ∧ q.bind ≠ 0 then q.bind else if mode = 0 then 3
        else if mode = 1 ∧ reason = 5 then q.bind else 2 })).count (portP p 0x3C) 1).raise 0xF8 [BitVec.ofNat 8 p, BitVec.ofNat 8 reason]
  let kept := fun (u : State) => u = { s with params := u.params } ∧
    (u.par (portP p 0x3B)).toNat = Min.min 0xFFFFFFFF ((s.par (portP p 0x3B)).toNat + 1) ∧
    (∀ i < 8, (u.par (portP p (0x31 + i))).toNat =
      (rec' (4 * i)).toNat + 256 * (rec' (4 * i + 1)).toNat + 65536 * (rec' (4 * i + 2)).toNat + 16777216 * (rec' (4 * i + 3)).toNat) ∧
    ∀ n, n ≠ portP p 0x3B → (∀ i < 8, n ≠ portP p (0x31 + i)) → u.par n = s.par n
  let done := exec (.tallyReadDone p (.record d)) s
  (starts → exec (.tallyReadStart p) s = .next (s.modPort p (fun x => { x with tallySt := 1, tallyTry := 0, tallyEnds := true }))) ∧
  (¬ starts → exec (.tallyReadStart p) s = .next s) ∧
  (exec (.tallyRetry p) s = .next (if q.tallySt = 1 ∧ q.tallyTry < 2 then s.modPort p (fun x => { x with tallyTry := q.tallyTry + 1 }) else s)) ∧
  (q.tallySt ≠ 1 → exec (.tallyReadDone p a) s = .next s) ∧
  (q.tallySt = 1 →
    exec (.tallyReadDone p .noAck) s = .next (if 2 ≤ q.tallyTry then fails s 1 else s) ∧
    exec (.tallyReadDone p .busFault) s = .next (fails s 6) ∧
    (¬ valid → ∃ u, kept u ∧ done = .next (fails u why)) ∧
    (valid → rec' 3 = 0x5A → ∃ u, kept u ∧ done =
      .next ((u.modPort p (fun x => { x with tallySt := 2, tallyRev := true, bind := 2 })).raise 0xFC [BitVec.ofNat 8 p])) ∧
    (valid → rec' 3 = 0xA5 → mode = 2 → ¬ listed → ∃ u, kept u ∧ done = .next (fails u 5)) ∧
    (valid → rec' 3 = 0xA5 → (mode = 2 → listed) → ∃ u, kept u ∧ done = .next (u.modPort p (fun x => { x with
      tallySt := 2, tallyRev := false, bind := if q.bind = 2 ∧ q.tallyEnds = false then 2 else if mode = 0 then 3 else 1 })))) ∧
  (s.Writes (portP p 0x3F) → exec (.tallyReread p v) s = .next
    (if v.getLsbD 0 = false then s.ended 0 else if q.tallySt = 1 then s.ended 0x0A else if q.present = false then s.ended 9
     else if jesd then (s.modPort p (fun x => { x with tallySt := 1, tallyTry := 0, tallyEnds := true })).ended 0 else s.ended 0)) ∧
  ((s.variant.hasPort p = false ∨ q.present = present) → exec (.presnChange p present) s = .next s) ∧
  (s.variant.hasPort p = true → q.present ≠ present →
    let t := s.modPort p (fun x => { x with present := present })
    (¬ jesd → exec (.presnChange p present) s = .next t) ∧
    (jesd → present = true → exec (.presnChange p present) s = .next (((t.count (portP p 0x3D) 1).modPort p (fun x => { x with
        bind := 0, tallySt := 0, tallyTry := 0, tallyRev := false })).raise 0xFA [BitVec.ofNat 8 p])) ∧
    (jesd → present = false → exec (.presnChange p present) s = .next (((t.count (portP p 0x3D) 1).modPort p (fun x => { x with
        bind := 0, tallySt := if q.tallySt = 1 then 0 else q.tallySt, tallyTry := 0, tallyRev := false
        laneSt := if s.linkOf p false = none ∧ q.txFault = false then 0 else q.laneSt })).raise 0xFB [BitVec.ofNat 8 p])))

/-- R427–R430, Tables 25.3, 25.4: two probes in a row against the declared state change it; every group has its reaction and
its event: a trigger or STAR_OUT short tristates the driver, an open or a STAR_IN fault is reported and clears itself, a
faulty tally bus is reported at both ports and its modules are read again when it passes, a receive bias fault ends with a
port reset, a transmit short idles the lane, a reversed timing line is ignored until it clears, and LAMP_TX, LAMP_RX,
KINDLED and MOD_PRESN faults raise their event; a tristated driver and a reversed line are not probed. -/
def Obligations.PinFaultsAreDeclaredAndCleared : Prop := ∀ (s : State) (pin : Pin) (kind n p : Nat),
  let at' := fun (k : Nat) => tabGet 0 s.pins.kinds k
  let ran := fun (key : Nat) (r : Nat × Nat) => { s with pins := { s.pins with runs := tabSet (0, 0) s.pins.runs key r } }
  let declared := fun (key k : Nat) (u : State) => { u with pins := { u.pins with kinds := tabSet 0 u.pins.kinds key k } }
  let counted := fun (k : Nat) (u : State) =>
    { u with pins := { u.pins with counts := tabMod 0 u.pins.counts k (fun c => Min.min 255 (c + 1)) } }
  let faulty := fun (bit k : Nat) (u : State) =>
    (u.modPort p (fun x => { x with faults := putBit x.faults bit true, faultKind := k })).count (portP p 0x3A) 1
  let ended := fun (bit : Nat) (u : State) => u.modPort p (fun x => { x with faults := putBit x.faults bit false })
  -- what a probe of pin `key` with declared state `was` answers when its reaction to a change is `act`
  let probed := fun (key was : Nat) (act : State → State) =>
    (((kind = 0 ↔ was = 0) → exec (.pinBiasProbe pin kind) s = .next (ran key (0, 0))) ∧
     (¬ (kind = 0 ↔ was = 0) → (tabGet (0, 0) s.pins.runs key).1 = 0 → exec (.pinBiasProbe pin kind) s = .next (ran key (1, kind))) ∧
     (¬ (kind = 0 ↔ was = 0) → (tabGet (0, 0) s.pins.runs key).1 ≠ 0 → exec (.pinBiasProbe pin kind) s = .next (act (ran key (0, 0)))))
  let line := fun (k : Nat) (u : State) =>
    let u := declared k kind u
    let u := if k = 8 ∧ kind ≠ 0 then { u with tnd := { u.tnd with lines := putBit u.tnd.lines 8 false } } else u
    if kind = 0 then u.raise 0xF1 [BitVec.ofNat 8 k] else (counted k u).raise 0xF0 [BitVec.ofNat 8 k, BitVec.ofNat 8 kind]
  let bus := fun (j l : Nat) (u : State) =>
    ((declared (16 + j) kind u).raise 0xFD [BitVec.ofNat 8 j, BitVec.ofNat 8 l, BitVec.ofNat 8 kind])
  let short := fun (k : Nat) =>
    let u := counted k (declared k kind s)
    ({ u with pins := { u.pins with tristated := putBit u.pins.tristated k true } } : State).raise 0xF0 [BitVec.ofNat 8 k, BitVec.ofNat 8 kind]
  (s.clocked = false → exec (.pinBiasProbe pin kind) s = .next s ∧ exec (.driverReadbackFault pin kind) s = .next s) ∧
  (s.clocked = true → kind ≤ 4 →
    (pin = .trig n → n < 8 → s.pins.tristated.getLsbD n = false → kind ≤ 1 → probed n (at' n) (line n)) ∧
    (pin = .trig n → (8 ≤ n ∨ s.pins.tristated.getLsbD n = true ∨ 1 < kind) → exec (.pinBiasProbe pin kind) s = .next s) ∧
    (pin = .starIn → probed 8 (at' 8) (line 8)) ∧
    (∀ l : Bool, pin = (if l = true then Pin.sysref else Pin.sync) →
      let key := if l = true then 11 else 10
      (at' key = 5 → exec (.pinBiasProbe pin kind) s = .next s) ∧
      (at' key ≠ 5 → probed key (at' key) (fun u => if kind = 0 then declared key 0 u
        else (declared key kind u).raise 0xF2 [if l = true then 1 else 0, BitVec.ofNat 8 kind]))) ∧
    (pin = .lampRx → kind ≤ 2 → probed 13 (at' 13) (fun u =>
      if kind = 0 then declared 13 0 u else (declared 13 kind u).raise 0xFE [1, BitVec.ofNat 8 kind])) ∧
    (∀ j l, pin = .tally j l → (8 ≤ j ∨ at' (16 + j) ≠ 0) → exec (.pinBiasProbe pin kind) s = .next s) ∧
    (∀ j l, pin = .tally j l → j < 8 → at' (16 + j) = 0 → probed (16 + j) 0 (fun u =>
      ([2 * j, 2 * j + 1].filter s.variant.hasPort).foldl (fun u p => (u.modPort p (fun x => { x with
        faults := putBit x.faults 0 true, faultKind := kind })).count (portP p 0x3A) 1) (bus j l u))) ∧
    (pin = .presn p → p < 16 → s.variant.hasPort p = true →
      probed (48 + p) (if (s.port p).faults.getLsbD 1 = true then 1 else 0) (fun u =>
        if kind = 0 then ended 1 u else (faulty 1 kind u).raise 0xFF [BitVec.ofNat 8 p, BitVec.ofNat 8 kind])) ∧
    (pin = .rxLane p → p < 16 → s.protocol p ≠ 0 →
      probed (32 + p) (if (s.port p).faults.getLsbD 2 = true then 1 else 0) (fun u =>
        if kind = 0 then portReset p (ended 2 u) else (faulty 2 kind u).raiseLane p 5))) ∧
  (s.clocked = true → 2 ≤ kind → kind ≤ 4 →
    let driven := fun (k bit : Nat) => s.tnd.driven.getLsbD bit = true ∧ s.pins.tristated.getLsbD k = false
    (pin = .trig n → n < 8 → exec (.driverReadbackFault pin kind) s = .next (if driven n n then short n else s)) ∧
    (pin = .starOut → exec (.driverReadbackFault pin kind) s = .next (if driven 9 8 then short 9 else s)) ∧
    (pin = .lampTx → exec (.driverReadbackFault pin kind) s = .next
      (if s.lamp.pairOn = true ∧ at' 12 = 0 then (declared 12 kind s).raise 0xFE [0, BitVec.ofNat 8 kind] else s)) ∧
    (pin = .kindled → exec (.driverReadbackFault pin kind) s = .next
      (if s.kin.pullDown = true ∧ kind = 3 ∧ at' 14 = 0 then (declared 14 3 s).raise 0xFE [2, 3] else s)) ∧
    (∀ j l, pin = .tally j l → exec (.driverReadbackFault pin kind) s = .next
      (if j < 8 ∧ at' (16 + j) = 0 then
        ([2 * j, 2 * j + 1].filter s.variant.hasPort).foldl (fun u p => (u.modPort p (fun x => { x with
          faults := putBit x.faults 0 true, faultKind := kind })).count (portP p 0x3A) 1) (bus j l s) else s)) ∧
    (pin = .txLane p → exec (.driverReadbackFault pin kind) s = .next
      (if p < 16 ∧ s.protocol p ≠ 0 ∧ s.kin.outputs = true ∧ (s.port p).txFault = false then
        ((faulty 3 kind s).modPort p (fun x => { x with
          txFault := true, laneSt := if s.linkOf p false = none then 7 else x.laneSt })).raiseLane p 4 else s))) ∧
  ((kind < 2 ∨ 4 < kind) → exec (.driverReadbackFault pin kind) s = .next s) ∧
  (exec (.timingLineReversed n) s = .next (if s.clocked = true ∧ n < 2 ∧ at' (10 + n) ≠ 5 then
    (declared (10 + n) 5 s).raise 0xF2 [BitVec.ofNat 8 n, 5] else s)) ∧
  (exec (.timingReversedCleared n) s = .next (if s.clocked = true ∧ n < 2 ∧ at' (10 + n) = 5 then declared (10 + n) 0 s else s)) ∧
  (∀ l, ((s.clocked = false ∨ 8 ≤ n ∨ 2 ≤ l ∨ kind ≠ 0 ∨ at' (16 + n) = 0) → exec (.tallyBusProbe n l kind) s = .next s) ∧
    (s.clocked = true → n < 8 → l < 2 → kind = 0 → at' (16 + n) ≠ 0 → ∃ t : State, exec (.tallyBusProbe n l kind) s = .next t ∧
      t = { declared (16 + n) 0 s with ports := t.ports } ∧ ∀ k, t.port k =
        if (k = 2 * n ∨ k = 2 * n + 1) ∧ s.variant.hasPort k = true then
          (if s.protocol k = 1 ∧ (s.port k).present = true then
            { s.port k with faults := putBit (s.port k).faults 0 false, tallySt := 1, tallyTry := 0, tallyEnds := decide ((s.port k).bind = 0) }
           else { s.port k with faults := putBit (s.port k).faults 0 false })
        else s.port k)) ∧
  (exec (.lampTxReadback kind) s = .next (if s.clocked = true ∧ kind = 0 ∧ at' 12 ≠ 0 then declared 12 0 s else s)) ∧
  (exec (.presnNoAck p) s = .next (if s.clocked = true ∧ p < 16 ∧ (s.port p).present = true ∧ (s.port p).faults.getLsbD 1 = false then
    (faulty 1 2 s).raise 0xFF [BitVec.ofNat 8 p, 2] else s))

/-- R38–R41, R50, R54–R57, R59, R66, R75, R76, R313, R450, Tables 3.9, 3.10, 4.5, 4.6: a cold and a brown-out reset clear
everything but the flash, whose write in progress is cut short; at the rise of COLD_RSTN the straps and the RV codes are
latched, an ambiguous or reserved code giving the safe one; a stop keeps its cause, makes the trigger outputs safe and
sends beacons; the wait, the relocking and the start of kindling follow each other, and a clock-loss reset keeps straps,
RV codes, flash and lamp ownership.  (Straps that move in the guard band of R39 latch a free bit: note 4, DESIGN CHOICE.) -/
def Obligations.ClockStopsAndResetsClear : Prop := ∀ (s : State) (straps moving : BitVec 4) (ratios : List Nat) (rail periods : Nat) (miss : Bool),
  let cleared := fun (t : State) (mode : ClockMode) (src : Nat) (more : List Deferred) =>
    t = { State.reset with
      pending := s.pending, variant := s.variant, free := t.free, flash := t.flash, board := t.board, lamp := t.lamp, kin := t.kin
      clk := { t.clk with cyc := s.clk.cyc }, pwr := { Power.reset with tj := s.pwr.tj, vid := t.pwr.vid } } ∧
    t.clk.mode = mode ∧ t.clk.resetSrc = src ∧ t.clk.tick = 0 ∧ t.clk.aligned = false ∧ t.clk.loadIn = none ∧
    t.clk.refPresent = s.clk.refPresent ∧ t.clk.deferred = more ∧ t.clk.cyc = s.clk.cyc ∧
    t.flash = { (cutFlash s).flash with op := none, corrCyc := none } ∧
    (s.flash.op = none → t.flash = { s.flash with corrCyc := none } ∧ t.free = s.free)
  let stopped := fun (u : State) (c : StopCause) =>
    { u with clk := { u.clk with mode := .waiting, cause := c, beacons := 0 }, tnd := { u.tnd with driven := 0 } }
  let windows : List (Nat × Nat) := [(868, 950), (1225, 1337), (1696, 1842), (2309, 2491), (3059, 3276), (3928, 4169), (4872, 5122),
    (5827, 6068), (6713, 6930), (7501, 7684), (8151, 8297), (8661, 8773), (9048, 9130), (9332, 9392)]
  let r := fun (i : Nat) => ratios.getD i 10000
  let inside := fun (i k : Nat) => k < 14 ∧ (windows.getD k (1, 0)).1 ≤ r i ∧ r i ≤ (windows.getD k (1, 0)).2
  let reserved := fun (i c : Nat) => (i = 2 ∧ 8 ≤ c ∧ c ≤ 14) ∨ (i = 3 ∧ 4 ≤ c ∧ c ≤ 14) ∨ (i = 4 ∧ 7 ≤ c ∧ c ≤ 14) ∨
    (i = 5 ∧ 11 ≤ c ∧ c ≤ 14) ∨ (i = 6 ∧ 3 ≤ c ∧ c ≤ 14) ∨ (i = 7 ∧ (5 ≤ c ∧ c ≤ 7 ∨ c = 13 ∨ c = 14))
  let raw := fun (i c : Nat) => (r i < 99 ∧ c = 0) ∨ (9901 < r i ∧ c = 15) ∨ (99 ≤ r i ∧ r i ≤ 9901 ∧ ∃ k, inside i k ∧ c = k + 1)
  let unclear := fun (i : Nat) => 99 ≤ r i ∧ r i ≤ 9901 ∧ ∀ k, ¬ inside i k
  (∃ t, exec .coldReset s = .next t ∧ cleared t .coldReset 1 [] ∧ t.board = State.reset.board ∧ t.lamp = State.reset.lamp ∧
    t.kin = State.reset.kin ∧ t.pwr.vid = 48) ∧
  (s.clk.mode ≠ .coldReset → exec (.coldRstnRise straps moving ratios true) s = .next s) ∧
  (s.clk.mode = .coldReset → ∃ t, exec (.coldRstnRise straps moving ratios true) s = .next t ∧
    t = { s with board := t.board, free := t.free, clk := { s.clk with mode := .locking } } ∧ t.board.valid = false ∧
    (∀ i < 4, moving.getLsbD i = false → t.board.straps.getLsbD i = straps.getLsbD i) ∧
    ∀ code : Nat → Nat,
      (∀ i < 8, (unclear i → code i = [15, 0, 15, 15, 15, 10, 1, 8].getD i 0) ∧
        ∀ c, raw i c → code i = if reserved i c then [15, 0, 15, 15, 15, 10, 1, 8].getD i 0 else c) →
      let six := code 4 = 0 ∧ code 6 = 0
      let pair := (code 7 = 3 ∨ code 7 = 11) ∧ code 4 = 0
      let lamp := (code 7 = 4 ∨ code 7 = 12) ∧ code 6 = 0 ∧ ¬ six
      (∀ i < 6, t.rv i = code i) ∧ t.rv 6 = (if six then 1 else code 6) ∧ t.rv 7 = (if pair ∨ lamp then 8 else code 7) ∧
      ∀ i < 8, (t.board.rvFlags.getLsbD i = true ↔ unclear i) ∧
        (t.board.rvFlags.getLsbD (8 + i) = true ↔ (∃ c, raw i c ∧ reserved i c) ∨ (i = 6 ∧ six) ∨ (i = 7 ∧ (pair ∨ lamp)))) ∧
  (exec .refLost s = .next (let u := if s.clocked = true then stopped s .refLost else s
    { u with clk := { u.clk with refPresent := false } })) ∧
  (exec .pllUnlock s = .next (if s.clocked = true then stopped s .pllUnlock else s)) ∧
  (exec .refPresent s = .next { s with clk := { s.clk with refPresent := true } }) ∧
  (exec .stopWaitExpiry s = .next (if s.clk.mode = .waiting ∧ s.clk.refPresent = true then
    { s with clk := { s.clk with mode := .relocking } } else s)) ∧
  (exec .relockTimeout s = .next (if s.clk.mode = .relocking then { s with clk := { s.clk with mode := .waiting } } else s)) ∧
  (exec (.clockStartFail miss) s = .next (if s.clk.mode = .locking then
    (if miss = true then (let u := stopped s .refLost; { u with clk := { u.clk with refPresent := false } }) else stopped s .pllUnlock) else s)) ∧
  (let started := fun (u : State) => { u with
     kin := Kindle.reset
     clk := { u.clk with
       mode := .running, tick := 0, keeperLeft := 8, aligned := false, armed := !s.syncIgnored, marginal := false, loadIn := none
       absentDone := false
       deferred := { event := 0x00, data := [BitVec.ofNat 8 u.clk.resetSrc] } :: u.clk.deferred.filter (fun e => decide (e.event ≠ 0)) } }
   (s.clk.mode = .locking → exec (.pllLock periods) s = .next (started s)) ∧
   (s.clk.mode = .relocking → ∃ u, exec (.pllLock periods) s = .next (started u) ∧
     cleared u .relocking 3 (s.clk.deferred ++ [{ event := (match s.clk.cause with | .refLost => 1 | .pllUnlock => 2), data := leBytes 4 (Min.min periods 0xFFFFFFFF) }]) ∧
     u.board = { s.board with valid := false } ∧ u.lamp = { State.reset.lamp with owner := s.lamp.owner } ∧
     u.kin = State.reset.kin ∧ u.pwr.vid = s.pwr.vid ∧ u.clk.cause = s.clk.cause) ∧
   (s.clk.mode ≠ .locking → s.clk.mode ≠ .relocking → exec (.pllLock periods) s = .next s)) ∧
  (let shown := (s.clk.mode = .waiting ∨ s.clk.mode = .relocking) ∧ (s.rv 6 = 1 ∨ s.rv 6 = 15) ∧ tabGet 0 s.pins.kinds 12 = 0
   (¬ shown → exec .beaconFrame s = .next s) ∧
   (shown → exec .beaconFrame s = .next { s with
     clk := { s.clk with beacons := s.clk.beacons + 1 }
     lamp := { s.lamp with sent :=
       ([1, 3, 0x82, 0, 0, 0, 8, 0, 0, 0, 0, 0] ++ leBytes 2 s.variant.part ++ [BitVec.ofNat 8 s.card] ++
         [match s.clk.cause with | .refLost => 1 | .pllUnlock => 2] ++ leBytes 4 (Min.min s.clk.beacons 0xFFFFFFFF)) :: s.lamp.sent } })) ∧
  ((s.clk.mode = .coldReset ∨ s.clk.mode = .brownOut) → exec (.brownOut rail) s = .next s) ∧
  (s.clk.mode ≠ .coldReset → s.clk.mode ≠ .brownOut → ∃ t, exec (.brownOut rail) s = .next t ∧
    cleared t .brownOut 2 [{ event := 0x07, data := [BitVec.ofNat 8 (Min.min rail 1)] }] ∧ t.board = { s.board with valid := false } ∧
    t.lamp = State.reset.lamp ∧ t.kin = State.reset.kin ∧ t.pwr.vid = s.pwr.vid) ∧
  (exec .railRecovered s = .next (if s.clk.mode = .brownOut then { s with clk := { s.clk with mode := .locking } } else s))

/-- R58, R61, R62, R67–R73: a SYNC capture arms the load of the tick count or is checked for a slip, and tells whether it was
marginal; the absence of SYNC is reported once; the AVS code moves one step toward the wanted code within the host bounds or
the pin, a clipped evaluation being reported once per second; margin gating lowers a gallery whose margin fails at the top
and raises it after ten good evaluations; THERM_ALERTN, the thermal steps and the thermal-critical stop follow PWR_TJ and
the level of RV_THERM. -/
def Obligations.SyncVoltageAndHeatAreWatched : Prop := ∀ (s : State) (marginal : Bool) (low high : BitVec 17) (tj : BitVec 16) (sensor g : Nat),
  let tick := s.clk.tick.toNat
  let delay := (s.par 0x3D06).toNat % 8
  let period := (s.par 0x3D03).toNat
  let pulsed := { s with tnd := { s.tnd with pulses := s.tnd.pulses ||| 2 } }
  let told := if marginal = true ∧ s.clk.marginal = false then pulsed.raise 0x05 (leBytes 8 tick) else pulsed
  let noted := { told with clk := { told.clk with marginal := marginal } }
  let slip := s.clk.aligned = true ∧ period ≠ 0 ∧ (tick + 16 + delay) % 2 ^ 64 % period ≠ s.pair 0x3D04 % period
  let powered := (List.range 16).filter (fun k => s.variant.hasGal k && decide ((s.dom k).st ≠ .off))
  let mons := powered ++ [16]
  let fixed := s.board.straps.getLsbD 3 = true
  let pin := s.par 0x102
  let v := s.pwr.vid
  let toward := fun (c w : Nat) => if c < w then c + 1 else if w < c then c - 1 else c
  let moved := fun (w : Nat) (u : State) => { u with pwr := { u.pwr with
    vid := toward v w, highRun := if toward v w = v then u.pwr.highRun else 0 } }
  let top := fixed ∨ (s.par 0x101).toNat % 64 ≤ v ∨ 56 ≤ v ∨ (pin.getLsbD 31 = true ∧ pin.toNat % 64 ≤ v)
  let duty := tabGet 16 s.pwr.marginDuty g
  let ok := tabGet 0 s.pwr.marginOk g
  let level := if s.rv 5 = 15 then 100 else 105 - 2 * s.rv 5
  let deg := fun (c : Nat) => ((16 * c : Nat) : Int) ≤ signed 16 tj.toNat
  let hot := deg (level - 10)
  let cooled := { s with pwr := { s.pwr with tj := tj, alertN := s.pwr.alertN && decide hot } }
  let alerted := if hot ∧ s.pwr.alertN = false then
    ({ cooled with pwr := { cooled.pwr with alertN := true } } : State).raise 0x08 (leBytes 2 tj.toNat ++ [BitVec.ofNat 8 sensor]) else cooled
  let can := fun (k : Nat) => k ∈ s.galList ∧ (s.dom k).st = .on ∧ (s.dom k).rekindling = false ∧ s.pwr.thermSteps.count k < 15
  let prio := fun (k : Nat) => (s.par (galP k 0x41)).toNat % 16
  ((s.clocked = false ∨ tabGet 0 s.pins.kinds 10 = 5) → exec (.syncCapture marginal) s = .next s) ∧
  (s.clocked = true → tabGet 0 s.pins.kinds 10 ≠ 5 →
    (s.clk.armed = true → exec (.syncCapture marginal) s = .next
      { noted with clk := { noted.clk with armed := false, loadIn := some (16 + delay) } }) ∧
    (s.clk.armed = false → exec (.syncCapture marginal) s = .next (if slip then
      (let u := noted.count 0x3D08 1; u.raise 0x04 (leBytes 8 tick ++ leBytes 4 (u.par 0x3D08).toNat)) else noted))) ∧
  (exec .syncAbsent s = .next (if s.clocked = true ∧ s.syncIgnored = false ∧ s.clk.aligned = false ∧ s.clk.absentDone = false then
    ({ s with clk := { s.clk with absentDone := true } } : State).raise 0x06 [] else s)) ∧
  (s.clocked = false → exec (.avsEvaluation low high) s = .next s ∧ exec (.thermAlert tj sensor) s = .next s ∧
    exec (.thermTrip tj) s = .next s ∧ exec (.thermGateStep tj) s = .next s ∧ exec (.thermCritical tj sensor) s = .next s) ∧
  (s.clocked = true → s.user = false → exec (.avsEvaluation low high) s = .next (if fixed then s else moved 48 s)) ∧
  (s.clocked = true → s.user = true → ∃ b : Bool, (b = true ↔ top) ∧ exec (.avsEvaluation low high) s = .next
    (let u := powered.foldl (fun u k => marginGate (low.getLsbD k) b k u) s
     if fixed then u else avsLoop low high u)) ∧
  (∀ b, marginGate true b g s =
      (let u : State := { s with pwr := { s.pwr with marginOk := tabSet 0 s.pwr.marginOk g 0 } }
       if b = true ∧ 1 < duty then
         (let w := if duty = 16 then u.raise 0x0C [BitVec.ofNat 8 g, BitVec.ofNat 8 v] else u
          { w with pwr := { w.pwr with marginDuty := tabSet 16 s.pwr.marginDuty g (duty - 1) } })
       else u) ∧
    marginGate false b g s = { s with pwr := { s.pwr with
      marginOk := tabSet 0 s.pwr.marginOk g (Min.min 10 (ok + 1))
      marginDuty := if 9 ≤ ok then tabSet 16 s.pwr.marginDuty g (Min.min 16 (duty + 1)) else s.pwr.marginDuty } }) ∧
  (let run := if ∀ k ∈ mons, high.getLsbD k = true then s.pwr.highRun + 1 else 0
   let want := if ∃ k ∈ mons, low.getLsbD k = true then Min.min 56 (v + 1) else if 10 ≤ run then v - 1 else v
   let out := if pin.getLsbD 31 = true then pin.toNat % 64
     else Max.max ((s.par 0x100).toNat % 64) (Min.min ((s.par 0x101).toNat % 64) want)
   let u := moved out { s with pwr := { s.pwr with highRun := Min.min 10 run } }
   let due := ∀ c, s.pwr.clipCyc = some c → c + 1000000000 ≤ s.clk.cyc
   avsLoop low high s = if want ≠ out ∧ due then
     ({ u with pwr := { u.pwr with clipCyc := some s.clk.cyc } } : State).raise 0x0B
       [BitVec.ofNat 8 want, BitVec.ofNat 8 (toward v out)] else u) ∧
  (s.clocked = true →
    exec (.thermAlert tj sensor) s = .next alerted ∧
    exec (.thermTrip tj) s = .next (if deg level then thermDown cooled else cooled) ∧
    exec (.thermGateStep tj) s = .next (if deg level then thermDown cooled
      else if signed 16 tj.toNat ≤ ((16 * (level - 5) : Nat) : Int) then thermUp cooled else cooled) ∧
    exec (.thermCritical tj sensor) s = .next (if deg 115 then
      (let u := s.domOrder.foldl (fun u d => critOff d u) alerted
       ({ u with pwr := { u.pwr with critical := true } } : State).raise 0x0A (leBytes 2 tj.toNat ++ [BitVec.ofNat 8 sensor]))
      else alerted)) ∧
  ((∀ k, ¬ can k) → thermDown s = s) ∧
  (can g → (∀ k, can k → prio g < prio k ∨ (prio g = prio k ∧ k ≤ g)) →
    thermDown s = (let u := if s.pwr.thermActive = true then s else s.raise 0x09 ([1] ++ leBytes 2 s.pwr.tj.toNat)
      { u with pwr := { u.pwr with thermActive := true, thermSteps := g :: s.pwr.thermSteps } })) ∧
  (s.pwr.thermSteps = [] → thermUp s = s) ∧
  (∀ k l, s.pwr.thermSteps = k :: l →
    let u : State := { s with pwr := { s.pwr with thermSteps := l, thermActive := !l.isEmpty } }
    thermUp s = if l = [] then u.raise 0x09 ([0] ++ leBytes 2 s.pwr.tj.toNat) else u) ∧
  (((s.dom g).st = .off → (s.dom g).rekindling = false → critOff g s = s) ∧
    (¬ ((s.dom g).st = .off ∧ (s.dom g).rekindling = false) →
      let u : State := if g < 16 ∧ s.halted g = true then { s with capt := { s.capt with
        perGal := tabMod CaptGal.reset s.capt.perGal g (fun c => { c with st := 1, lost := true }) } } else s
      critOff g s = damperDone g false false (releaseHeld g ((leaveOn g .off u).modDom g (fun x =>
        { x with damper := .openD, step := 0, fenced := false, rekindling := false, critical := true })))))

/-- Chapter 4, Edges (COLD_RSTN with a rail out of range), and R38: with a rail out of range the rise of COLD_RSTN stops the
model by name, and that is the only command that stops. -/
def Obligations.OnlyAnUndefinedPowerUpStops : Prop := ∀ (s : State) (c : Instr),
  (∀ straps moving ratios, s.clk.mode = .coldReset →
    exec (.coldRstnRise straps moving ratios false) s = .fault .undefinedPowerUp) ∧
  ((∃ t, exec c s = .next t) ∨
    (∃ straps moving ratios, c = .coldRstnRise straps moving ratios false ∧ s.clk.mode = .coldReset ∧ exec c s = .fault .undefinedPowerUp))

/-- The step takes the command at the front of the queue and runs it with the queue's rest. -/
def Obligations.StepRunsTheFrontCommand : Prop := ∀ (s : State) (c : Instr) (r : List Instr),
  s.pending = c :: r → step s = exec c { s with pending := r }

/-- R12, R57, R58, R60: with no command waiting one core cycle passes (the model's choice, note 2, DESIGN CHOICE), and none while the core
clock does not run; in it the trigger fabric, every present gallery and the clock move on: the tick count goes up by one or
takes TB_SYNC_LOAD when an alignment falls due, keeper cycles last 8 core cycles, and an alignment stretches the keeper
cycle in progress to end at a tick that is a multiple of 8 and reports a step. -/
def Obligations.AnEmptyQueuePassesOneCycle : Prop := ∀ (s : State),
  let due := s.clk.loadIn = some 1
  let moved := { s with clk := { s.clk with
    tick := if due then BitVec.ofNat 64 (s.pair 0x3D04) else s.clk.tick + 1, cyc := s.clk.cyc + 1
    keeperLeft := if s.clk.keeperLeft ≤ 1 then 8 else s.clk.keeperLeft - 1, loadIn := s.clk.loadIn.map (· - 1) } }
  let diff := moved.clk.tick - (s.clk.tick + 1)
  let left := moved.clk.keeperLeft
  (s.pending = [] → s.clocked = false → step s = .next s) ∧
  (s.pending = [] → s.clocked = true → step s = .next
    (let u := tickClock (s.galList.foldl (fun u g => galCycle g u) (triggerCycle s))
     if u.clk.tick.toNat % 64 = 0 then endSlotFrame u else u)) ∧
  (¬ due → tickClock s = moved) ∧
  (due → ∃ t : State, tickClock s = (if diff = 0 then t
      else stepLinks ((t.putPair 0x3D09 diff.toNat).raise 0x03 (leBytes 8 diff.toNat))) ∧
    t = { moved with
      params := t.params, clk := { moved.clk with aligned := true, loadIn := none, keeperLeft := t.clk.keeperLeft } } ∧
    t.par 0x3D08 = 0 ∧ (∀ n, n ≠ 0x3D08 → t.par n = s.par n) ∧
    left ≤ t.clk.keeperLeft ∧ t.clk.keeperLeft < left + 8 ∧ (moved.clk.tick.toNat + t.clk.keeperLeft) % 8 = 0)

/-- R59, R65, R75, R77, R218, R260, R294, R326, Tables 4.1, 4.3, 5.3, 14.4: the state after reset: COLD_RSTN low, tick count 0 and not
aligned, AVS code 48 between bounds 0 and 56, every gallery at duty 16, every domain off and every memory unwritten,
kindling at its start with outputs safe, no owner, no report and no event, no ring, every CTLE code 8, and the parameters
at the reset values of Table 18. -/
def Obligations.ResetLeavesTheStatedValues : Prop :=
  let s := State.reset
  s.clk.mode = .coldReset ∧ s.clk.tick = 0 ∧ s.clk.aligned = false ∧ s.clk.armed = false ∧ s.pwr.vid = 48 ∧
  (s.par 0x100 = 0 ∧ s.par 0x101 = 56 ∧ s.par 0x102 = 0) ∧ s.pwr.critical = false ∧
  (∀ g < 16, s.duty g = 16 ∧ (s.dom g).st = .off ∧ (∀ k < 4096, (s.gal g).primed k = false) ∧ (s.gal g).seq.pc = 0 ∧
    s.par (galP g 0x04) = 65536 ∧ s.par (galP g 0x43) = 100000 ∧ s.par (galP g 0x41) = 0 ∧ s.par (galP g 0x30) = 0) ∧
  (∀ p < 16, (s.port p).ctle = 8 ∧ (s.port p).laneSt = 0 ∧ (s.port p).linkSt = 0 ∧ (s.port p).seam.state = 0 ∧ (s.port p).bind = 0) ∧
  s.kin.phase = 0 ∧ s.kin.gsr = true ∧ s.kin.outputs = false ∧ s.kin.pullDown = true ∧ s.lamp.owner = none ∧ s.lamp.inbox = [] ∧
  s.evt.queue = [] ∧ s.evt.lost = none ∧ s.pcie.ringArmed = false ∧ s.pcie.busy = 0 ∧ s.par 0x203 = 0 ∧ s.mesh.dead = 0 ∧ s.capt.st = 0 ∧
  s.tnd.driven = 0 ∧ s.par 0x22 = 1000 ∧ s.par 0x301 = 10000 ∧ s.par 0x3000 = 20 ∧ s.par 0x3A00 = 10 ∧ s.par 0x3A80 = 1

/-- From every state, a step that answers takes exactly the command at the front of the queue, whatever the command, keeps
every later one, and leaves the variant; and no step is refused. -/
def Obligations.EveryStepTakesOneCommand : Prop := ∀ (s : State),
  (∀ t, step s = .next t → t.pending = s.pending.tail ∧ t.variant = s.variant) ∧ ∀ r, step s ≠ .refused r

/-- The memories of the state after reset are in canonical form. -/
def Obligations.ResetMemoriesAreCanonical : Prop := State.reset.Canonical

/-- Every step keeps the canonical form of the parameters, the flash, the Tinder configuration and every gallery's
configuration, context store, stream memory and staging area: equal contents stay equal data. -/
def Obligations.EveryStepKeepsMemoriesCanonical : Prop := ∀ (s t : State), s.Canonical → step s = .next t → t.Canonical
end

