-- ==== Sys2Proof/Laws/Tables.lean ====
section
/-!
SUPPORT. The laws of sparse tables and byte memories: reading what was written, every other key untouched, and every
operation keeps the canonical form.
-/

namespace Sys2Proof.Machine

variable {α : Type}

theorem tabGet_filter_ne (d : α) (t : Tab α) (n m : Nat) (h : m ≠ n) :
    tabGet d (t.filter (fun p => decide (p.1 ≠ n))) m = tabGet d t m := by
  induction t with
  | nil => rfl
  | cons p r ih =>
    obtain ⟨k, v⟩ := p
    rw [List.filter_cons]
    by_cases hk : k = n
    · rw [if_neg (by simp [hk]), ih, tabGet, if_neg (by rw [hk]; exact Ne.symm h)]
    · rw [if_pos (by simp [hk]), tabGet, tabGet, ih]

theorem tabGet_filter_eq (d : α) (t : Tab α) (n : Nat) :
    tabGet d (t.filter (fun p => decide (p.1 ≠ n))) n = d := by
  induction t with
  | nil => rfl
  | cons p r ih =>
    obtain ⟨k, v⟩ := p
    rw [List.filter_cons]
    by_cases hk : k = n
    · rw [if_neg (by simp [hk]), ih]
    · rw [if_pos (by simp [hk]), tabGet, if_neg hk, ih]

/-- A key that was written reads as what was written. -/
@[simp] theorem tabGet_tabSet_same [DecidableEq α] (d : α) (t : Tab α) (n : Nat) (x : α) : tabGet d (tabSet d t n x) n = x := by
  induction t with
  | nil => by_cases h : x = d <;> simp [tabSet, tabGet, h]
  | cons p r ih =>
    obtain ⟨k, v⟩ := p
    by_cases h1 : k < n
    · simp [tabSet, tabGet, h1, ih, Nat.ne_of_lt h1]
    · by_cases hx : x = d
      · simp only [tabSet, h1, hx, if_true, if_false]; exact tabGet_filter_eq d _ n
      · by_cases hk : k = n <;> simp [tabSet, tabGet, h1, hx, hk]

/-- Every other key reads as before. -/
theorem tabGet_tabSet_ne [DecidableEq α] (d : α) (t : Tab α) (n m : Nat) (x : α) (h : m ≠ n) :
    tabGet d (tabSet d t n x) m = tabGet d t m := by
  induction t with
  | nil => by_cases hx : x = d <;> simp [tabSet, tabGet, hx, Ne.symm h]
  | cons p r ih =>
    obtain ⟨k, v⟩ := p
    by_cases h1 : k < n
    · simp [tabSet, tabGet, h1, ih]
    · by_cases hx : x = d
      · simp only [tabSet, h1, hx, if_true, if_false]; exact tabGet_filter_ne d _ n m h
      · by_cases hk : k = n
        · subst hk; simp [tabSet, tabGet, hx, Ne.symm h]
        · simp [tabSet, tabGet, h1, hx, hk, Ne.symm h]

/-- Every other key reads as before, whatever its own default. -/
theorem tabGet_tabSet_other [DecidableEq α] (c d : α) (t : Tab α) (n m : Nat) (x : α) (h : m ≠ n) :
    tabGet c (tabSet d t n x) m = tabGet c t m := by
  induction t with
  | nil => by_cases hx : x = d <;> simp [tabSet, tabGet, hx, Ne.symm h]
  | cons p r ih =>
    obtain ⟨k, v⟩ := p
    by_cases h1 : k < n
    · simp [tabSet, tabGet, h1, ih]
    · by_cases hx : x = d
      · simp only [tabSet, h1, hx, if_true, if_false]; exact tabGet_filter_ne c _ n m h
      · by_cases hk : k = n
        · subst hk; simp [tabSet, tabGet, hx, Ne.symm h]
        · simp [tabSet, tabGet, h1, hx, hk, Ne.symm h]

/-- Reading any key after a write. -/
theorem tabGet_tabSet [DecidableEq α] (d : α) (t : Tab α) (n m : Nat) (x : α) :
    tabGet d (tabSet d t n x) m = if m = n then x else tabGet d t m := by
  by_cases h : m = n
  · subst h; simp
  · simp [h, tabGet_tabSet_ne d t n m x h]

@[simp] theorem tabGet_tabMod_same [DecidableEq α] (d : α) (t : Tab α) (n : Nat) (f : α → α) :
    tabGet d (tabMod d t n f) n = f (tabGet d t n) := by simp [tabMod]

theorem tabGet_tabMod_ne [DecidableEq α] (d : α) (t : Tab α) (n m : Nat) (f : α → α) (h : m ≠ n) :
    tabGet d (tabMod d t n f) m = tabGet d t m := by simp [tabMod, tabGet_tabSet_ne d t n m _ h]

/-- A table on which nothing is listed reads as its default. -/
@[simp] theorem tabGet_nil (d : α) (n : Nat) : tabGet d ([] : Tab α) n = d := rfl

/-- Dropping entries keeps the canonical form. -/
theorem TabWf.filter {d : Nat → α} {t : Tab α} (h : TabWf d t) (p : Nat × α → Bool) : TabWf d (t.filter p) :=
  ⟨h.1.filter p, fun q hq => h.2 q (List.mem_filter.1 hq).1⟩

theorem mem_tabSet [DecidableEq α] {d : α} {t : Tab α} {n : Nat} {x : α} {q : Nat × α} (h : q ∈ tabSet d t n x) :
    (q = (n, x) ∧ x ≠ d) ∨ q ∈ t := by
  induction t with
  | nil =>
    by_cases hx : x = d
    · simp [tabSet, hx] at h
    · simp [tabSet, hx] at h; exact .inl ⟨h, hx⟩
  | cons p r ih =>
    obtain ⟨k, v⟩ := p
    by_cases h1 : k < n
    · simp [tabSet, h1] at h
      rcases h with h | h
      · exact .inr (by simp [h])
      · rcases ih h with h | h
        · exact .inl h
        · exact .inr (by simp [h])
    · by_cases hx : x = d
      · simp only [tabSet, h1, hx, if_true, if_false] at h
        exact .inr (List.mem_filter.1 h).1
      · by_cases hk : k = n <;> simp [tabSet, h1, hx, hk] at h
        · rcases h with h | h
          · exact .inl ⟨h, hx⟩
          · exact .inr (by simp [h])
        · rcases h with h | h | h
          · exact .inl ⟨h, hx⟩
          · exact .inr (by simp [h])
          · exact .inr (by simp [h])

/-- A write keeps the canonical form. -/
theorem TabWf.tabSet [DecidableEq α] {d : Nat → α} {t : Tab α} (h : TabWf d t) (n : Nat) (x : α) :
    TabWf d (Machine.tabSet (d n) t n x) := by
  refine ⟨?_, ?_⟩
  · induction t with
    | nil => by_cases hx : x = d n <;> simp [Machine.tabSet, hx]
    | cons p r ih =>
      obtain ⟨k, v⟩ := p
      have hr : TabWf d r := ⟨(List.pairwise_cons.1 h.1).2, fun q hq => h.2 q (List.mem_cons_of_mem _ hq)⟩
      have hk := (List.pairwise_cons.1 h.1).1
      by_cases h1 : k < n
      · simp only [Machine.tabSet, h1, if_true]
        refine List.pairwise_cons.2 ⟨fun q hq => ?_, ih hr⟩
        rcases mem_tabSet hq with hq | hq
        · simpa [hq.1] using h1
        · exact hk q hq
      · by_cases hx : x = d n
        · simp only [Machine.tabSet, h1, hx, if_true, if_false]
          exact h.1.filter _
        · by_cases hkn : k = n
          · subst hkn
            simp only [Machine.tabSet, h1, hx, if_true, if_false]
            exact List.pairwise_cons.2 ⟨hk, hr.1⟩
          · simp only [Machine.tabSet, h1, hx, hkn, if_false]
            refine List.pairwise_cons.2 ⟨fun q hq => ?_, h.1⟩
            rcases List.mem_cons.1 hq with hq | hq
            · subst hq; show n < k; omega
            · have := hk q hq; show n < q.1; simp at this; omega
  · intro q hq
    rcases mem_tabSet hq with hq | hq
    · rw [hq.1]; exact hq.2
    · exact h.2 q hq

/-- A change of one key keeps the canonical form. -/
theorem TabWf.tabMod [DecidableEq α] {d : Nat → α} {t : Tab α} (h : TabWf d t) (n : Nat) (f : α → α) :
    TabWf d (Machine.tabMod (d n) t n f) := h.tabSet n _

/-- Clearing keys keeps the canonical form. -/
theorem TabWf.tabClear {d : Nat → α} {t : Tab α} (h : TabWf d t) (lo n : Nat) : TabWf d (Machine.tabClear t lo n) :=
  h.filter _

/-- The empty table is canonical. -/
theorem TabWf.nil (d : Nat → α) : TabWf d ([] : Tab α) := ⟨List.Pairwise.nil, fun _ h => nomatch h⟩

/-- Replacing a run of keys keeps the canonical form. -/
theorem TabWf.tabBlock [DecidableEq α] {d : α} {t : Tab α} (h : TabWf (fun _ => d) t) (lo n : Nat) (f : Nat → α) :
    TabWf (fun _ => d) (Machine.tabBlock d t lo n f) := by
  have hb : ∀ q ∈ (List.range n).filterMap (fun i => if f i = d then none else some (lo + i, f i)),
      ∃ i, i < n ∧ q = (lo + i, f i) ∧ f i ≠ d := by
    intro q hq
    obtain ⟨i, hi, he⟩ := List.mem_filterMap.1 hq
    by_cases hd : f i = d
    · simp [hd] at he
    · simp [hd] at he; exact ⟨i, List.mem_range.1 hi, he.symm, hd⟩
  refine ⟨?_, ?_⟩
  · refine List.pairwise_append.2 ⟨h.1.filter _, List.pairwise_append.2 ⟨?_, h.1.filter _, ?_⟩, ?_⟩
    · rw [List.pairwise_filterMap]
      refine List.pairwise_lt_range.imp ?_
      intro i j hij a ha b hb'
      by_cases h1 : f i = d
      · simp [h1] at ha
      · by_cases h2 : f j = d
        · simp [h2] at hb'
        · simp [h1] at ha; simp [h2] at hb'; subst ha; subst hb'; simpa using hij
    · intro a ha b hb'
      obtain ⟨i, hi, rfl, _⟩ := hb a ha
      have := (List.mem_filter.1 hb').2
      simp at this; show lo + i < b.1; omega
    · intro a ha b hb'
      have h1 := (List.mem_filter.1 ha).2
      simp at h1
      rcases List.mem_append.1 hb' with hb' | hb'
      · obtain ⟨i, hi, rfl, _⟩ := hb b hb'
        show a.1 < lo + i; omega
      · have := (List.mem_filter.1 hb').2
        simp at this; omega
  · intro q hq
    rcases List.mem_append.1 hq with hq | hq
    · exact h.2 q (List.mem_filter.1 hq).1
    · rcases List.mem_append.1 hq with hq | hq
      · obtain ⟨i, _, rfl, hne⟩ := hb q hq; exact hne
      · exact h.2 q (List.mem_filter.1 hq).1

/-- Writing one byte keeps the canonical form. -/
theorem wf_memPut {m : Memory} (h : Memory.wf 0 m) (a : Nat) (b : Byte) : Memory.wf 0 (memPut m a b) :=
  TabWf.tabSet (d := fun _ => (0 : Byte)) h a b

/-- Writing bytes keeps the canonical form. -/
theorem wf_memWrite {m : Memory} (h : Memory.wf 0 m) (a : Nat) (l : List Byte) : Memory.wf 0 (memWrite m a l) := by
  induction l generalizing m a with
  | nil => exact h
  | cons b r ih => exact ih (wf_memPut h a b) (a + 1)

/-- Writing zero bytes keeps the canonical form. -/
theorem wf_memZero {m : Memory} (h : Memory.wf 0 m) (a n : Nat) : Memory.wf 0 (memZero m a n) := TabWf.filter h _

/-- Programming flash bytes keeps the canonical form. -/
theorem wf_flashPut {m : Memory} (h : Memory.wf 0xFF m) (a : Nat) (l : List Byte) : Memory.wf 0xFF (flashPut m a l) := by
  induction l generalizing m a with
  | nil => exact h
  | cons b r ih => exact ih (TabWf.tabSet (d := fun _ => (0xFF : Byte)) h a b) (a + 1)

/-- Erasing flash bytes keeps the canonical form. -/
theorem wf_flashBlank {m : Memory} (h : Memory.wf 0xFF m) (a n : Nat) : Memory.wf 0xFF (flashBlank m a n) :=
  TabWf.filter h _

@[simp] theorem memByte_memPut_same (m : Memory) (a : Nat) (b : Byte) : memByte (memPut m a b) a = b := by
  simp [memByte, memPut]

theorem memByte_memPut_ne (m : Memory) (a c : Nat) (b : Byte) (h : c ≠ a) : memByte (memPut m a b) c = memByte m c :=
  tabGet_tabSet_ne 0 m a c b h

/-- A byte outside what was written reads as before. -/
theorem memByte_memWrite_out (m : Memory) (a c : Nat) (l : List Byte) (h : c < a ∨ a + l.length ≤ c) :
    memByte (memWrite m a l) c = memByte m c := by
  induction l generalizing m a with
  | nil => rfl
  | cons b r ih =>
    simp only [List.length_cons] at h
    rw [memWrite, ih _ _ (by omega), memByte_memPut_ne _ _ _ _ (by omega)]

/-- A byte that was written reads as written. -/
theorem memByte_memWrite_in (m : Memory) (a i : Nat) (l : List Byte) (h : i < l.length) :
    memByte (memWrite m a l) (a + i) = l.getD i 0 := by
  induction l generalizing m a i with
  | nil => simp at h
  | cons b r ih =>
    cases i with
    | zero => rw [memWrite, memByte_memWrite_out _ _ _ _ (by omega)]; simp
    | succ j =>
      have := ih (memPut m a b) (a + 1) j (by simpa using h)
      rw [memWrite, show a + (j + 1) = a + 1 + j by omega, this]; rfl

/-- What was written reads back whole. -/
theorem memRead_memWrite (m : Memory) (a : Nat) (l : List Byte) : memRead (memWrite m a l) a l.length = l := by
  apply List.ext_getElem
  · simp [memRead]
  · intro i h1 h2
    simp only [memRead, List.getElem_map, List.getElem_range]
    rw [memByte_memWrite_in m a i l (by simpa [memRead] using h1)]
    simp [List.getD, h2]

end Sys2Proof.Machine
end

