-- ==== Sys2Proof/Laws/State.lean ====
section
/-!
SUPPORT. The small laws of the shared operations over the state: what each leaves alone, one field a lemma, and what
reading answers after a write.
-/

namespace Sys2Proof.Machine

@[simp] theorem State.putPar_pending (s : State) (n : Nat) (v : Word) : (s.putPar n v).pending = s.pending := rfl
@[simp] theorem State.putPar_variant (s : State) (n : Nat) (v : Word) : (s.putPar n v).variant = s.variant := rfl
@[simp] theorem State.putPar_board (s : State) (n : Nat) (v : Word) : (s.putPar n v).board = s.board := rfl
@[simp] theorem State.putPar_clk (s : State) (n : Nat) (v : Word) : (s.putPar n v).clk = s.clk := rfl
@[simp] theorem State.putPar_pwr (s : State) (n : Nat) (v : Word) : (s.putPar n v).pwr = s.pwr := rfl
@[simp] theorem State.putPar_kin (s : State) (n : Nat) (v : Word) : (s.putPar n v).kin = s.kin := rfl
@[simp] theorem State.putPar_img (s : State) (n : Nat) (v : Word) : (s.putPar n v).img = s.img := rfl
@[simp] theorem State.putPar_flash (s : State) (n : Nat) (v : Word) : (s.putPar n v).flash = s.flash := rfl
@[simp] theorem State.putPar_lamp (s : State) (n : Nat) (v : Word) : (s.putPar n v).lamp = s.lamp := rfl
@[simp] theorem State.putPar_evt (s : State) (n : Nat) (v : Word) : (s.putPar n v).evt = s.evt := rfl
@[simp] theorem State.putPar_staged (s : State) (n : Nat) (v : Word) : (s.putPar n v).staged = s.staged := rfl
@[simp] theorem State.putPar_pcie (s : State) (n : Nat) (v : Word) : (s.putPar n v).pcie = s.pcie := rfl
@[simp] theorem State.putPar_gals (s : State) (n : Nat) (v : Word) : (s.putPar n v).gals = s.gals := rfl
@[simp] theorem State.putPar_mesh (s : State) (n : Nat) (v : Word) : (s.putPar n v).mesh = s.mesh := rfl
@[simp] theorem State.putPar_ports (s : State) (n : Nat) (v : Word) : (s.putPar n v).ports = s.ports := rfl
@[simp] theorem State.putPar_tnd (s : State) (n : Nat) (v : Word) : (s.putPar n v).tnd = s.tnd := rfl
@[simp] theorem State.putPar_sweep (s : State) (n : Nat) (v : Word) : (s.putPar n v).sweep = s.sweep := rfl
@[simp] theorem State.putPar_assay (s : State) (n : Nat) (v : Word) : (s.putPar n v).assay = s.assay := rfl
@[simp] theorem State.putPar_capt (s : State) (n : Nat) (v : Word) : (s.putPar n v).capt = s.capt := rfl
@[simp] theorem State.putPar_pins (s : State) (n : Nat) (v : Word) : (s.putPar n v).pins = s.pins := rfl
@[simp] theorem State.putPar_free (s : State) (n : Nat) (v : Word) : (s.putPar n v).free = s.free := rfl

@[simp] theorem State.count_pending (s : State) (n k : Nat) : (s.count n k).pending = s.pending := rfl
@[simp] theorem State.count_variant (s : State) (n k : Nat) : (s.count n k).variant = s.variant := rfl
@[simp] theorem State.count_board (s : State) (n k : Nat) : (s.count n k).board = s.board := rfl
@[simp] theorem State.count_clk (s : State) (n k : Nat) : (s.count n k).clk = s.clk := rfl
@[simp] theorem State.count_pwr (s : State) (n k : Nat) : (s.count n k).pwr = s.pwr := rfl
@[simp] theorem State.count_kin (s : State) (n k : Nat) : (s.count n k).kin = s.kin := rfl
@[simp] theorem State.count_img (s : State) (n k : Nat) : (s.count n k).img = s.img := rfl
@[simp] theorem State.count_flash (s : State) (n k : Nat) : (s.count n k).flash = s.flash := rfl
@[simp] theorem State.count_lamp (s : State) (n k : Nat) : (s.count n k).lamp = s.lamp := rfl
@[simp] theorem State.count_evt (s : State) (n k : Nat) : (s.count n k).evt = s.evt := rfl
@[simp] theorem State.count_staged (s : State) (n k : Nat) : (s.count n k).staged = s.staged := rfl
@[simp] theorem State.count_pcie (s : State) (n k : Nat) : (s.count n k).pcie = s.pcie := rfl
@[simp] theorem State.count_gals (s : State) (n k : Nat) : (s.count n k).gals = s.gals := rfl
@[simp] theorem State.count_mesh (s : State) (n k : Nat) : (s.count n k).mesh = s.mesh := rfl
@[simp] theorem State.count_ports (s : State) (n k : Nat) : (s.count n k).ports = s.ports := rfl
@[simp] theorem State.count_tnd (s : State) (n k : Nat) : (s.count n k).tnd = s.tnd := rfl
@[simp] theorem State.count_sweep (s : State) (n k : Nat) : (s.count n k).sweep = s.sweep := rfl
@[simp] theorem State.count_assay (s : State) (n k : Nat) : (s.count n k).assay = s.assay := rfl
@[simp] theorem State.count_capt (s : State) (n k : Nat) : (s.count n k).capt = s.capt := rfl
@[simp] theorem State.count_pins (s : State) (n k : Nat) : (s.count n k).pins = s.pins := rfl
@[simp] theorem State.count_free (s : State) (n k : Nat) : (s.count n k).free = s.free := rfl

@[simp] theorem State.tally_pending (s : State) (n k : Nat) : (s.tally n k).pending = s.pending := rfl
@[simp] theorem State.tally_variant (s : State) (n k : Nat) : (s.tally n k).variant = s.variant := rfl
@[simp] theorem State.tally_board (s : State) (n k : Nat) : (s.tally n k).board = s.board := rfl
@[simp] theorem State.tally_clk (s : State) (n k : Nat) : (s.tally n k).clk = s.clk := rfl
@[simp] theorem State.tally_pwr (s : State) (n k : Nat) : (s.tally n k).pwr = s.pwr := rfl
@[simp] theorem State.tally_kin (s : State) (n k : Nat) : (s.tally n k).kin = s.kin := rfl
@[simp] theorem State.tally_img (s : State) (n k : Nat) : (s.tally n k).img = s.img := rfl
@[simp] theorem State.tally_flash (s : State) (n k : Nat) : (s.tally n k).flash = s.flash := rfl
@[simp] theorem State.tally_lamp (s : State) (n k : Nat) : (s.tally n k).lamp = s.lamp := rfl
@[simp] theorem State.tally_evt (s : State) (n k : Nat) : (s.tally n k).evt = s.evt := rfl
@[simp] theorem State.tally_staged (s : State) (n k : Nat) : (s.tally n k).staged = s.staged := rfl
@[simp] theorem State.tally_pcie (s : State) (n k : Nat) : (s.tally n k).pcie = s.pcie := rfl
@[simp] theorem State.tally_gals (s : State) (n k : Nat) : (s.tally n k).gals = s.gals := rfl
@[simp] theorem State.tally_mesh (s : State) (n k : Nat) : (s.tally n k).mesh = s.mesh := rfl
@[simp] theorem State.tally_ports (s : State) (n k : Nat) : (s.tally n k).ports = s.ports := rfl
@[simp] theorem State.tally_tnd (s : State) (n k : Nat) : (s.tally n k).tnd = s.tnd := rfl
@[simp] theorem State.tally_sweep (s : State) (n k : Nat) : (s.tally n k).sweep = s.sweep := rfl
@[simp] theorem State.tally_assay (s : State) (n k : Nat) : (s.tally n k).assay = s.assay := rfl
@[simp] theorem State.tally_capt (s : State) (n k : Nat) : (s.tally n k).capt = s.capt := rfl
@[simp] theorem State.tally_pins (s : State) (n k : Nat) : (s.tally n k).pins = s.pins := rfl
@[simp] theorem State.tally_free (s : State) (n k : Nat) : (s.tally n k).free = s.free := rfl

@[simp] theorem State.putPair_pending (s : State) (n v : Nat) : (s.putPair n v).pending = s.pending := rfl
@[simp] theorem State.putPair_variant (s : State) (n v : Nat) : (s.putPair n v).variant = s.variant := rfl
@[simp] theorem State.putPair_board (s : State) (n v : Nat) : (s.putPair n v).board = s.board := rfl
@[simp] theorem State.putPair_clk (s : State) (n v : Nat) : (s.putPair n v).clk = s.clk := rfl
@[simp] theorem State.putPair_pwr (s : State) (n v : Nat) : (s.putPair n v).pwr = s.pwr := rfl
@[simp] theorem State.putPair_kin (s : State) (n v : Nat) : (s.putPair n v).kin = s.kin := rfl
@[simp] theorem State.putPair_img (s : State) (n v : Nat) : (s.putPair n v).img = s.img := rfl
@[simp] theorem State.putPair_flash (s : State) (n v : Nat) : (s.putPair n v).flash = s.flash := rfl
@[simp] theorem State.putPair_lamp (s : State) (n v : Nat) : (s.putPair n v).lamp = s.lamp := rfl
@[simp] theorem State.putPair_evt (s : State) (n v : Nat) : (s.putPair n v).evt = s.evt := rfl
@[simp] theorem State.putPair_staged (s : State) (n v : Nat) : (s.putPair n v).staged = s.staged := rfl
@[simp] theorem State.putPair_pcie (s : State) (n v : Nat) : (s.putPair n v).pcie = s.pcie := rfl
@[simp] theorem State.putPair_gals (s : State) (n v : Nat) : (s.putPair n v).gals = s.gals := rfl
@[simp] theorem State.putPair_mesh (s : State) (n v : Nat) : (s.putPair n v).mesh = s.mesh := rfl
@[simp] theorem State.putPair_ports (s : State) (n v : Nat) : (s.putPair n v).ports = s.ports := rfl
@[simp] theorem State.putPair_tnd (s : State) (n v : Nat) : (s.putPair n v).tnd = s.tnd := rfl
@[simp] theorem State.putPair_sweep (s : State) (n v : Nat) : (s.putPair n v).sweep = s.sweep := rfl
@[simp] theorem State.putPair_assay (s : State) (n v : Nat) : (s.putPair n v).assay = s.assay := rfl
@[simp] theorem State.putPair_capt (s : State) (n v : Nat) : (s.putPair n v).capt = s.capt := rfl
@[simp] theorem State.putPair_pins (s : State) (n v : Nat) : (s.putPair n v).pins = s.pins := rfl
@[simp] theorem State.putPair_free (s : State) (n v : Nat) : (s.putPair n v).free = s.free := rfl

@[simp] theorem State.tally64_pending (s : State) (n k : Nat) : (s.tally64 n k).pending = s.pending := rfl
@[simp] theorem State.tally64_variant (s : State) (n k : Nat) : (s.tally64 n k).variant = s.variant := rfl
@[simp] theorem State.tally64_board (s : State) (n k : Nat) : (s.tally64 n k).board = s.board := rfl
@[simp] theorem State.tally64_clk (s : State) (n k : Nat) : (s.tally64 n k).clk = s.clk := rfl
@[simp] theorem State.tally64_pwr (s : State) (n k : Nat) : (s.tally64 n k).pwr = s.pwr := rfl
@[simp] theorem State.tally64_kin (s : State) (n k : Nat) : (s.tally64 n k).kin = s.kin := rfl
@[simp] theorem State.tally64_img (s : State) (n k : Nat) : (s.tally64 n k).img = s.img := rfl
@[simp] theorem State.tally64_flash (s : State) (n k : Nat) : (s.tally64 n k).flash = s.flash := rfl
@[simp] theorem State.tally64_lamp (s : State) (n k : Nat) : (s.tally64 n k).lamp = s.lamp := rfl
@[simp] theorem State.tally64_evt (s : State) (n k : Nat) : (s.tally64 n k).evt = s.evt := rfl
@[simp] theorem State.tally64_staged (s : State) (n k : Nat) : (s.tally64 n k).staged = s.staged := rfl
@[simp] theorem State.tally64_pcie (s : State) (n k : Nat) : (s.tally64 n k).pcie = s.pcie := rfl
@[simp] theorem State.tally64_gals (s : State) (n k : Nat) : (s.tally64 n k).gals = s.gals := rfl
@[simp] theorem State.tally64_mesh (s : State) (n k : Nat) : (s.tally64 n k).mesh = s.mesh := rfl
@[simp] theorem State.tally64_ports (s : State) (n k : Nat) : (s.tally64 n k).ports = s.ports := rfl
@[simp] theorem State.tally64_tnd (s : State) (n k : Nat) : (s.tally64 n k).tnd = s.tnd := rfl
@[simp] theorem State.tally64_sweep (s : State) (n k : Nat) : (s.tally64 n k).sweep = s.sweep := rfl
@[simp] theorem State.tally64_assay (s : State) (n k : Nat) : (s.tally64 n k).assay = s.assay := rfl
@[simp] theorem State.tally64_capt (s : State) (n k : Nat) : (s.tally64 n k).capt = s.capt := rfl
@[simp] theorem State.tally64_pins (s : State) (n k : Nat) : (s.tally64 n k).pins = s.pins := rfl
@[simp] theorem State.tally64_free (s : State) (n k : Nat) : (s.tally64 n k).free = s.free := rfl

@[simp] theorem State.modGal_pending (s : State) (g : Nat) (f : Gallery → Gallery) : (s.modGal g f).pending = s.pending := rfl
@[simp] theorem State.modGal_variant (s : State) (g : Nat) (f : Gallery → Gallery) : (s.modGal g f).variant = s.variant := rfl
@[simp] theorem State.modGal_board (s : State) (g : Nat) (f : Gallery → Gallery) : (s.modGal g f).board = s.board := rfl
@[simp] theorem State.modGal_clk (s : State) (g : Nat) (f : Gallery → Gallery) : (s.modGal g f).clk = s.clk := rfl
@[simp] theorem State.modGal_pwr (s : State) (g : Nat) (f : Gallery → Gallery) : (s.modGal g f).pwr = s.pwr := rfl
@[simp] theorem State.modGal_kin (s : State) (g : Nat) (f : Gallery → Gallery) : (s.modGal g f).kin = s.kin := rfl
@[simp] theorem State.modGal_img (s : State) (g : Nat) (f : Gallery → Gallery) : (s.modGal g f).img = s.img := rfl
@[simp] theorem State.modGal_flash (s : State) (g : Nat) (f : Gallery → Gallery) : (s.modGal g f).flash = s.flash := rfl
@[simp] theorem State.modGal_lamp (s : State) (g : Nat) (f : Gallery → Gallery) : (s.modGal g f).lamp = s.lamp := rfl
@[simp] theorem State.modGal_evt (s : State) (g : Nat) (f : Gallery → Gallery) : (s.modGal g f).evt = s.evt := rfl
@[simp] theorem State.modGal_params (s : State) (g : Nat) (f : Gallery → Gallery) : (s.modGal g f).params = s.params := rfl
@[simp] theorem State.modGal_staged (s : State) (g : Nat) (f : Gallery → Gallery) : (s.modGal g f).staged = s.staged := rfl
@[simp] theorem State.modGal_pcie (s : State) (g : Nat) (f : Gallery → Gallery) : (s.modGal g f).pcie = s.pcie := rfl
@[simp] theorem State.modGal_mesh (s : State) (g : Nat) (f : Gallery → Gallery) : (s.modGal g f).mesh = s.mesh := rfl
@[simp] theorem State.modGal_ports (s : State) (g : Nat) (f : Gallery → Gallery) : (s.modGal g f).ports = s.ports := rfl
@[simp] theorem State.modGal_tnd (s : State) (g : Nat) (f : Gallery → Gallery) : (s.modGal g f).tnd = s.tnd := rfl
@[simp] theorem State.modGal_sweep (s : State) (g : Nat) (f : Gallery → Gallery) : (s.modGal g f).sweep = s.sweep := rfl
@[simp] theorem State.modGal_assay (s : State) (g : Nat) (f : Gallery → Gallery) : (s.modGal g f).assay = s.assay := rfl
@[simp] theorem State.modGal_capt (s : State) (g : Nat) (f : Gallery → Gallery) : (s.modGal g f).capt = s.capt := rfl
@[simp] theorem State.modGal_pins (s : State) (g : Nat) (f : Gallery → Gallery) : (s.modGal g f).pins = s.pins := rfl
@[simp] theorem State.modGal_free (s : State) (g : Nat) (f : Gallery → Gallery) : (s.modGal g f).free = s.free := rfl

@[simp] theorem State.modSeq_pending (s : State) (g : Nat) (f : Seq → Seq) : (s.modSeq g f).pending = s.pending := rfl
@[simp] theorem State.modSeq_variant (s : State) (g : Nat) (f : Seq → Seq) : (s.modSeq g f).variant = s.variant := rfl
@[simp] theorem State.modSeq_board (s : State) (g : Nat) (f : Seq → Seq) : (s.modSeq g f).board = s.board := rfl
@[simp] theorem State.modSeq_clk (s : State) (g : Nat) (f : Seq → Seq) : (s.modSeq g f).clk = s.clk := rfl
@[simp] theorem State.modSeq_pwr (s : State) (g : Nat) (f : Seq → Seq) : (s.modSeq g f).pwr = s.pwr := rfl
@[simp] theorem State.modSeq_kin (s : State) (g : Nat) (f : Seq → Seq) : (s.modSeq g f).kin = s.kin := rfl
@[simp] theorem State.modSeq_img (s : State) (g : Nat) (f : Seq → Seq) : (s.modSeq g f).img = s.img := rfl
@[simp] theorem State.modSeq_flash (s : State) (g : Nat) (f : Seq → Seq) : (s.modSeq g f).flash = s.flash := rfl
@[simp] theorem State.modSeq_lamp (s : State) (g : Nat) (f : Seq → Seq) : (s.modSeq g f).lamp = s.lamp := rfl
@[simp] theorem State.modSeq_evt (s : State) (g : Nat) (f : Seq → Seq) : (s.modSeq g f).evt = s.evt := rfl
@[simp] theorem State.modSeq_params (s : State) (g : Nat) (f : Seq → Seq) : (s.modSeq g f).params = s.params := rfl
@[simp] theorem State.modSeq_staged (s : State) (g : Nat) (f : Seq → Seq) : (s.modSeq g f).staged = s.staged := rfl
@[simp] theorem State.modSeq_pcie (s : State) (g : Nat) (f : Seq → Seq) : (s.modSeq g f).pcie = s.pcie := rfl
@[simp] theorem State.modSeq_mesh (s : State) (g : Nat) (f : Seq → Seq) : (s.modSeq g f).mesh = s.mesh := rfl
@[simp] theorem State.modSeq_ports (s : State) (g : Nat) (f : Seq → Seq) : (s.modSeq g f).ports = s.ports := rfl
@[simp] theorem State.modSeq_tnd (s : State) (g : Nat) (f : Seq → Seq) : (s.modSeq g f).tnd = s.tnd := rfl
@[simp] theorem State.modSeq_sweep (s : State) (g : Nat) (f : Seq → Seq) : (s.modSeq g f).sweep = s.sweep := rfl
@[simp] theorem State.modSeq_assay (s : State) (g : Nat) (f : Seq → Seq) : (s.modSeq g f).assay = s.assay := rfl
@[simp] theorem State.modSeq_capt (s : State) (g : Nat) (f : Seq → Seq) : (s.modSeq g f).capt = s.capt := rfl
@[simp] theorem State.modSeq_pins (s : State) (g : Nat) (f : Seq → Seq) : (s.modSeq g f).pins = s.pins := rfl
@[simp] theorem State.modSeq_free (s : State) (g : Nat) (f : Seq → Seq) : (s.modSeq g f).free = s.free := rfl

@[simp] theorem State.modPort_pending (s : State) (p : Nat) (f : Port → Port) : (s.modPort p f).pending = s.pending := rfl
@[simp] theorem State.modPort_variant (s : State) (p : Nat) (f : Port → Port) : (s.modPort p f).variant = s.variant := rfl
@[simp] theorem State.modPort_board (s : State) (p : Nat) (f : Port → Port) : (s.modPort p f).board = s.board := rfl
@[simp] theorem State.modPort_clk (s : State) (p : Nat) (f : Port → Port) : (s.modPort p f).clk = s.clk := rfl
@[simp] theorem State.modPort_pwr (s : State) (p : Nat) (f : Port → Port) : (s.modPort p f).pwr = s.pwr := rfl
@[simp] theorem State.modPort_kin (s : State) (p : Nat) (f : Port → Port) : (s.modPort p f).kin = s.kin := rfl
@[simp] theorem State.modPort_img (s : State) (p : Nat) (f : Port → Port) : (s.modPort p f).img = s.img := rfl
@[simp] theorem State.modPort_flash (s : State) (p : Nat) (f : Port → Port) : (s.modPort p f).flash = s.flash := rfl
@[simp] theorem State.modPort_lamp (s : State) (p : Nat) (f : Port → Port) : (s.modPort p f).lamp = s.lamp := rfl
@[simp] theorem State.modPort_evt (s : State) (p : Nat) (f : Port → Port) : (s.modPort p f).evt = s.evt := rfl
@[simp] theorem State.modPort_params (s : State) (p : Nat) (f : Port → Port) : (s.modPort p f).params = s.params := rfl
@[simp] theorem State.modPort_staged (s : State) (p : Nat) (f : Port → Port) : (s.modPort p f).staged = s.staged := rfl
@[simp] theorem State.modPort_pcie (s : State) (p : Nat) (f : Port → Port) : (s.modPort p f).pcie = s.pcie := rfl
@[simp] theorem State.modPort_gals (s : State) (p : Nat) (f : Port → Port) : (s.modPort p f).gals = s.gals := rfl
@[simp] theorem State.modPort_mesh (s : State) (p : Nat) (f : Port → Port) : (s.modPort p f).mesh = s.mesh := rfl
@[simp] theorem State.modPort_tnd (s : State) (p : Nat) (f : Port → Port) : (s.modPort p f).tnd = s.tnd := rfl
@[simp] theorem State.modPort_sweep (s : State) (p : Nat) (f : Port → Port) : (s.modPort p f).sweep = s.sweep := rfl
@[simp] theorem State.modPort_assay (s : State) (p : Nat) (f : Port → Port) : (s.modPort p f).assay = s.assay := rfl
@[simp] theorem State.modPort_capt (s : State) (p : Nat) (f : Port → Port) : (s.modPort p f).capt = s.capt := rfl
@[simp] theorem State.modPort_pins (s : State) (p : Nat) (f : Port → Port) : (s.modPort p f).pins = s.pins := rfl
@[simp] theorem State.modPort_free (s : State) (p : Nat) (f : Port → Port) : (s.modPort p f).free = s.free := rfl

@[simp] theorem State.modSeam_pending (s : State) (p : Nat) (f : Seam → Seam) : (s.modSeam p f).pending = s.pending := rfl
@[simp] theorem State.modSeam_variant (s : State) (p : Nat) (f : Seam → Seam) : (s.modSeam p f).variant = s.variant := rfl
@[simp] theorem State.modSeam_board (s : State) (p : Nat) (f : Seam → Seam) : (s.modSeam p f).board = s.board := rfl
@[simp] theorem State.modSeam_clk (s : State) (p : Nat) (f : Seam → Seam) : (s.modSeam p f).clk = s.clk := rfl
@[simp] theorem State.modSeam_pwr (s : State) (p : Nat) (f : Seam → Seam) : (s.modSeam p f).pwr = s.pwr := rfl
@[simp] theorem State.modSeam_kin (s : State) (p : Nat) (f : Seam → Seam) : (s.modSeam p f).kin = s.kin := rfl
@[simp] theorem State.modSeam_img (s : State) (p : Nat) (f : Seam → Seam) : (s.modSeam p f).img = s.img := rfl
@[simp] theorem State.modSeam_flash (s : State) (p : Nat) (f : Seam → Seam) : (s.modSeam p f).flash = s.flash := rfl
@[simp] theorem State.modSeam_lamp (s : State) (p : Nat) (f : Seam → Seam) : (s.modSeam p f).lamp = s.lamp := rfl
@[simp] theorem State.modSeam_evt (s : State) (p : Nat) (f : Seam → Seam) : (s.modSeam p f).evt = s.evt := rfl
@[simp] theorem State.modSeam_params (s : State) (p : Nat) (f : Seam → Seam) : (s.modSeam p f).params = s.params := rfl
@[simp] theorem State.modSeam_staged (s : State) (p : Nat) (f : Seam → Seam) : (s.modSeam p f).staged = s.staged := rfl
@[simp] theorem State.modSeam_pcie (s : State) (p : Nat) (f : Seam → Seam) : (s.modSeam p f).pcie = s.pcie := rfl
@[simp] theorem State.modSeam_gals (s : State) (p : Nat) (f : Seam → Seam) : (s.modSeam p f).gals = s.gals := rfl
@[simp] theorem State.modSeam_mesh (s : State) (p : Nat) (f : Seam → Seam) : (s.modSeam p f).mesh = s.mesh := rfl
@[simp] theorem State.modSeam_tnd (s : State) (p : Nat) (f : Seam → Seam) : (s.modSeam p f).tnd = s.tnd := rfl
@[simp] theorem State.modSeam_sweep (s : State) (p : Nat) (f : Seam → Seam) : (s.modSeam p f).sweep = s.sweep := rfl
@[simp] theorem State.modSeam_assay (s : State) (p : Nat) (f : Seam → Seam) : (s.modSeam p f).assay = s.assay := rfl
@[simp] theorem State.modSeam_capt (s : State) (p : Nat) (f : Seam → Seam) : (s.modSeam p f).capt = s.capt := rfl
@[simp] theorem State.modSeam_pins (s : State) (p : Nat) (f : Seam → Seam) : (s.modSeam p f).pins = s.pins := rfl
@[simp] theorem State.modSeam_free (s : State) (p : Nat) (f : Seam → Seam) : (s.modSeam p f).free = s.free := rfl

@[simp] theorem State.modDom_pending (s : State) (d : Nat) (f : Dom → Dom) : (s.modDom d f).pending = s.pending := rfl
@[simp] theorem State.modDom_variant (s : State) (d : Nat) (f : Dom → Dom) : (s.modDom d f).variant = s.variant := rfl
@[simp] theorem State.modDom_board (s : State) (d : Nat) (f : Dom → Dom) : (s.modDom d f).board = s.board := rfl
@[simp] theorem State.modDom_clk (s : State) (d : Nat) (f : Dom → Dom) : (s.modDom d f).clk = s.clk := rfl
@[simp] theorem State.modDom_kin (s : State) (d : Nat) (f : Dom → Dom) : (s.modDom d f).kin = s.kin := rfl
@[simp] theorem State.modDom_img (s : State) (d : Nat) (f : Dom → Dom) : (s.modDom d f).img = s.img := rfl
@[simp] theorem State.modDom_flash (s : State) (d : Nat) (f : Dom → Dom) : (s.modDom d f).flash = s.flash := rfl
@[simp] theorem State.modDom_lamp (s : State) (d : Nat) (f : Dom → Dom) : (s.modDom d f).lamp = s.lamp := rfl
@[simp] theorem State.modDom_evt (s : State) (d : Nat) (f : Dom → Dom) : (s.modDom d f).evt = s.evt := rfl
@[simp] theorem State.modDom_params (s : State) (d : Nat) (f : Dom → Dom) : (s.modDom d f).params = s.params := rfl
@[simp] theorem State.modDom_staged (s : State) (d : Nat) (f : Dom → Dom) : (s.modDom d f).staged = s.staged := rfl
@[simp] theorem State.modDom_pcie (s : State) (d : Nat) (f : Dom → Dom) : (s.modDom d f).pcie = s.pcie := rfl
@[simp] theorem State.modDom_gals (s : State) (d : Nat) (f : Dom → Dom) : (s.modDom d f).gals = s.gals := rfl
@[simp] theorem State.modDom_mesh (s : State) (d : Nat) (f : Dom → Dom) : (s.modDom d f).mesh = s.mesh := rfl
@[simp] theorem State.modDom_ports (s : State) (d : Nat) (f : Dom → Dom) : (s.modDom d f).ports = s.ports := rfl
@[simp] theorem State.modDom_tnd (s : State) (d : Nat) (f : Dom → Dom) : (s.modDom d f).tnd = s.tnd := rfl
@[simp] theorem State.modDom_sweep (s : State) (d : Nat) (f : Dom → Dom) : (s.modDom d f).sweep = s.sweep := rfl
@[simp] theorem State.modDom_assay (s : State) (d : Nat) (f : Dom → Dom) : (s.modDom d f).assay = s.assay := rfl
@[simp] theorem State.modDom_capt (s : State) (d : Nat) (f : Dom → Dom) : (s.modDom d f).capt = s.capt := rfl
@[simp] theorem State.modDom_pins (s : State) (d : Nat) (f : Dom → Dom) : (s.modDom d f).pins = s.pins := rfl
@[simp] theorem State.modDom_free (s : State) (d : Nat) (f : Dom → Dom) : (s.modDom d f).free = s.free := rfl

@[simp] theorem State.raise_pending (s : State) (e : Nat) (l : List Byte) : (s.raise e l).pending = s.pending := by unfold State.raise; split <;> rfl
@[simp] theorem State.raise_variant (s : State) (e : Nat) (l : List Byte) : (s.raise e l).variant = s.variant := by unfold State.raise; split <;> rfl
@[simp] theorem State.raise_board (s : State) (e : Nat) (l : List Byte) : (s.raise e l).board = s.board := by unfold State.raise; split <;> rfl
@[simp] theorem State.raise_clk (s : State) (e : Nat) (l : List Byte) : (s.raise e l).clk = s.clk := by unfold State.raise; split <;> rfl
@[simp] theorem State.raise_pwr (s : State) (e : Nat) (l : List Byte) : (s.raise e l).pwr = s.pwr := by unfold State.raise; split <;> rfl
@[simp] theorem State.raise_kin (s : State) (e : Nat) (l : List Byte) : (s.raise e l).kin = s.kin := by unfold State.raise; split <;> rfl
@[simp] theorem State.raise_img (s : State) (e : Nat) (l : List Byte) : (s.raise e l).img = s.img := by unfold State.raise; split <;> rfl
@[simp] theorem State.raise_flash (s : State) (e : Nat) (l : List Byte) : (s.raise e l).flash = s.flash := by unfold State.raise; split <;> rfl
@[simp] theorem State.raise_lamp (s : State) (e : Nat) (l : List Byte) : (s.raise e l).lamp = s.lamp := by unfold State.raise; split <;> rfl
@[simp] theorem State.raise_params (s : State) (e : Nat) (l : List Byte) : (s.raise e l).params = s.params := by unfold State.raise; split <;> rfl
@[simp] theorem State.raise_staged (s : State) (e : Nat) (l : List Byte) : (s.raise e l).staged = s.staged := by unfold State.raise; split <;> rfl
@[simp] theorem State.raise_pcie (s : State) (e : Nat) (l : List Byte) : (s.raise e l).pcie = s.pcie := by unfold State.raise; split <;> rfl
@[simp] theorem State.raise_gals (s : State) (e : Nat) (l : List Byte) : (s.raise e l).gals = s.gals := by unfold State.raise; split <;> rfl
@[simp] theorem State.raise_mesh (s : State) (e : Nat) (l : List Byte) : (s.raise e l).mesh = s.mesh := by unfold State.raise; split <;> rfl
@[simp] theorem State.raise_ports (s : State) (e : Nat) (l : List Byte) : (s.raise e l).ports = s.ports := by unfold State.raise; split <;> rfl
@[simp] theorem State.raise_tnd (s : State) (e : Nat) (l : List Byte) : (s.raise e l).tnd = s.tnd := by unfold State.raise; split <;> rfl
@[simp] theorem State.raise_sweep (s : State) (e : Nat) (l : List Byte) : (s.raise e l).sweep = s.sweep := by unfold State.raise; split <;> rfl
@[simp] theorem State.raise_assay (s : State) (e : Nat) (l : List Byte) : (s.raise e l).assay = s.assay := by unfold State.raise; split <;> rfl
@[simp] theorem State.raise_capt (s : State) (e : Nat) (l : List Byte) : (s.raise e l).capt = s.capt := by unfold State.raise; split <;> rfl
@[simp] theorem State.raise_pins (s : State) (e : Nat) (l : List Byte) : (s.raise e l).pins = s.pins := by unfold State.raise; split <;> rfl
@[simp] theorem State.raise_free (s : State) (e : Nat) (l : List Byte) : (s.raise e l).free = s.free := by unfold State.raise; split <;> rfl

@[simp] theorem State.raiseGal_pending (s : State) (g k : Nat) (l : List Byte) : (s.raiseGal g k l).pending = s.pending := s.raise_pending _ _
@[simp] theorem State.raiseGal_variant (s : State) (g k : Nat) (l : List Byte) : (s.raiseGal g k l).variant = s.variant := s.raise_variant _ _
@[simp] theorem State.raiseGal_board (s : State) (g k : Nat) (l : List Byte) : (s.raiseGal g k l).board = s.board := s.raise_board _ _
@[simp] theorem State.raiseGal_clk (s : State) (g k : Nat) (l : List Byte) : (s.raiseGal g k l).clk = s.clk := s.raise_clk _ _
@[simp] theorem State.raiseGal_pwr (s : State) (g k : Nat) (l : List Byte) : (s.raiseGal g k l).pwr = s.pwr := s.raise_pwr _ _
@[simp] theorem State.raiseGal_kin (s : State) (g k : Nat) (l : List Byte) : (s.raiseGal g k l).kin = s.kin := s.raise_kin _ _
@[simp] theorem State.raiseGal_img (s : State) (g k : Nat) (l : List Byte) : (s.raiseGal g k l).img = s.img := s.raise_img _ _
@[simp] theorem State.raiseGal_flash (s : State) (g k : Nat) (l : List Byte) : (s.raiseGal g k l).flash = s.flash := s.raise_flash _ _
@[simp] theorem State.raiseGal_lamp (s : State) (g k : Nat) (l : List Byte) : (s.raiseGal g k l).lamp = s.lamp := s.raise_lamp _ _
@[simp] theorem State.raiseGal_params (s : State) (g k : Nat) (l : List Byte) : (s.raiseGal g k l).params = s.params := s.raise_params _ _
@[simp] theorem State.raiseGal_staged (s : State) (g k : Nat) (l : List Byte) : (s.raiseGal g k l).staged = s.staged := s.raise_staged _ _
@[simp] theorem State.raiseGal_pcie (s : State) (g k : Nat) (l : List Byte) : (s.raiseGal g k l).pcie = s.pcie := s.raise_pcie _ _
@[simp] theorem State.raiseGal_gals (s : State) (g k : Nat) (l : List Byte) : (s.raiseGal g k l).gals = s.gals := s.raise_gals _ _
@[simp] theorem State.raiseGal_mesh (s : State) (g k : Nat) (l : List Byte) : (s.raiseGal g k l).mesh = s.mesh := s.raise_mesh _ _
@[simp] theorem State.raiseGal_ports (s : State) (g k : Nat) (l : List Byte) : (s.raiseGal g k l).ports = s.ports := s.raise_ports _ _
@[simp] theorem State.raiseGal_tnd (s : State) (g k : Nat) (l : List Byte) : (s.raiseGal g k l).tnd = s.tnd := s.raise_tnd _ _
@[simp] theorem State.raiseGal_sweep (s : State) (g k : Nat) (l : List Byte) : (s.raiseGal g k l).sweep = s.sweep := s.raise_sweep _ _
@[simp] theorem State.raiseGal_assay (s : State) (g k : Nat) (l : List Byte) : (s.raiseGal g k l).assay = s.assay := s.raise_assay _ _
@[simp] theorem State.raiseGal_capt (s : State) (g k : Nat) (l : List Byte) : (s.raiseGal g k l).capt = s.capt := s.raise_capt _ _
@[simp] theorem State.raiseGal_pins (s : State) (g k : Nat) (l : List Byte) : (s.raiseGal g k l).pins = s.pins := s.raise_pins _ _
@[simp] theorem State.raiseGal_free (s : State) (g k : Nat) (l : List Byte) : (s.raiseGal g k l).free = s.free := s.raise_free _ _

@[simp] theorem State.raisePort_pending (s : State) (p k : Nat) (l : List Byte) : (s.raisePort p k l).pending = s.pending := s.raise_pending _ _
@[simp] theorem State.raisePort_variant (s : State) (p k : Nat) (l : List Byte) : (s.raisePort p k l).variant = s.variant := s.raise_variant _ _
@[simp] theorem State.raisePort_board (s : State) (p k : Nat) (l : List Byte) : (s.raisePort p k l).board = s.board := s.raise_board _ _
@[simp] theorem State.raisePort_clk (s : State) (p k : Nat) (l : List Byte) : (s.raisePort p k l).clk = s.clk := s.raise_clk _ _
@[simp] theorem State.raisePort_pwr (s : State) (p k : Nat) (l : List Byte) : (s.raisePort p k l).pwr = s.pwr := s.raise_pwr _ _
@[simp] theorem State.raisePort_kin (s : State) (p k : Nat) (l : List Byte) : (s.raisePort p k l).kin = s.kin := s.raise_kin _ _
@[simp] theorem State.raisePort_img (s : State) (p k : Nat) (l : List Byte) : (s.raisePort p k l).img = s.img := s.raise_img _ _
@[simp] theorem State.raisePort_flash (s : State) (p k : Nat) (l : List Byte) : (s.raisePort p k l).flash = s.flash := s.raise_flash _ _
@[simp] theorem State.raisePort_lamp (s : State) (p k : Nat) (l : List Byte) : (s.raisePort p k l).lamp = s.lamp := s.raise_lamp _ _
@[simp] theorem State.raisePort_params (s : State) (p k : Nat) (l : List Byte) : (s.raisePort p k l).params = s.params := s.raise_params _ _
@[simp] theorem State.raisePort_staged (s : State) (p k : Nat) (l : List Byte) : (s.raisePort p k l).staged = s.staged := s.raise_staged _ _
@[simp] theorem State.raisePort_pcie (s : State) (p k : Nat) (l : List Byte) : (s.raisePort p k l).pcie = s.pcie := s.raise_pcie _ _
@[simp] theorem State.raisePort_gals (s : State) (p k : Nat) (l : List Byte) : (s.raisePort p k l).gals = s.gals := s.raise_gals _ _
@[simp] theorem State.raisePort_mesh (s : State) (p k : Nat) (l : List Byte) : (s.raisePort p k l).mesh = s.mesh := s.raise_mesh _ _
@[simp] theorem State.raisePort_ports (s : State) (p k : Nat) (l : List Byte) : (s.raisePort p k l).ports = s.ports := s.raise_ports _ _
@[simp] theorem State.raisePort_tnd (s : State) (p k : Nat) (l : List Byte) : (s.raisePort p k l).tnd = s.tnd := s.raise_tnd _ _
@[simp] theorem State.raisePort_sweep (s : State) (p k : Nat) (l : List Byte) : (s.raisePort p k l).sweep = s.sweep := s.raise_sweep _ _
@[simp] theorem State.raisePort_assay (s : State) (p k : Nat) (l : List Byte) : (s.raisePort p k l).assay = s.assay := s.raise_assay _ _
@[simp] theorem State.raisePort_capt (s : State) (p k : Nat) (l : List Byte) : (s.raisePort p k l).capt = s.capt := s.raise_capt _ _
@[simp] theorem State.raisePort_pins (s : State) (p k : Nat) (l : List Byte) : (s.raisePort p k l).pins = s.pins := s.raise_pins _ _
@[simp] theorem State.raisePort_free (s : State) (p k : Nat) (l : List Byte) : (s.raisePort p k l).free = s.free := s.raise_free _ _

@[simp] theorem State.raiseLink_pending (s : State) (p c : Nat) (l : List Byte) : (s.raiseLink p c l).pending = s.pending := State.raisePort_pending _ _ _ _
@[simp] theorem State.raiseLink_variant (s : State) (p c : Nat) (l : List Byte) : (s.raiseLink p c l).variant = s.variant := State.raisePort_variant _ _ _ _
@[simp] theorem State.raiseLink_board (s : State) (p c : Nat) (l : List Byte) : (s.raiseLink p c l).board = s.board := State.raisePort_board _ _ _ _
@[simp] theorem State.raiseLink_clk (s : State) (p c : Nat) (l : List Byte) : (s.raiseLink p c l).clk = s.clk := State.raisePort_clk _ _ _ _
@[simp] theorem State.raiseLink_pwr (s : State) (p c : Nat) (l : List Byte) : (s.raiseLink p c l).pwr = s.pwr := State.raisePort_pwr _ _ _ _
@[simp] theorem State.raiseLink_kin (s : State) (p c : Nat) (l : List Byte) : (s.raiseLink p c l).kin = s.kin := State.raisePort_kin _ _ _ _
@[simp] theorem State.raiseLink_img (s : State) (p c : Nat) (l : List Byte) : (s.raiseLink p c l).img = s.img := State.raisePort_img _ _ _ _
@[simp] theorem State.raiseLink_flash (s : State) (p c : Nat) (l : List Byte) : (s.raiseLink p c l).flash = s.flash := State.raisePort_flash _ _ _ _
@[simp] theorem State.raiseLink_lamp (s : State) (p c : Nat) (l : List Byte) : (s.raiseLink p c l).lamp = s.lamp := State.raisePort_lamp _ _ _ _
@[simp] theorem State.raiseLink_staged (s : State) (p c : Nat) (l : List Byte) : (s.raiseLink p c l).staged = s.staged := State.raisePort_staged _ _ _ _
@[simp] theorem State.raiseLink_pcie (s : State) (p c : Nat) (l : List Byte) : (s.raiseLink p c l).pcie = s.pcie := State.raisePort_pcie _ _ _ _
@[simp] theorem State.raiseLink_gals (s : State) (p c : Nat) (l : List Byte) : (s.raiseLink p c l).gals = s.gals := State.raisePort_gals _ _ _ _
@[simp] theorem State.raiseLink_mesh (s : State) (p c : Nat) (l : List Byte) : (s.raiseLink p c l).mesh = s.mesh := State.raisePort_mesh _ _ _ _
@[simp] theorem State.raiseLink_ports (s : State) (p c : Nat) (l : List Byte) : (s.raiseLink p c l).ports = s.ports := State.raisePort_ports _ _ _ _
@[simp] theorem State.raiseLink_tnd (s : State) (p c : Nat) (l : List Byte) : (s.raiseLink p c l).tnd = s.tnd := State.raisePort_tnd _ _ _ _
@[simp] theorem State.raiseLink_sweep (s : State) (p c : Nat) (l : List Byte) : (s.raiseLink p c l).sweep = s.sweep := State.raisePort_sweep _ _ _ _
@[simp] theorem State.raiseLink_assay (s : State) (p c : Nat) (l : List Byte) : (s.raiseLink p c l).assay = s.assay := State.raisePort_assay _ _ _ _
@[simp] theorem State.raiseLink_capt (s : State) (p c : Nat) (l : List Byte) : (s.raiseLink p c l).capt = s.capt := State.raisePort_capt _ _ _ _
@[simp] theorem State.raiseLink_pins (s : State) (p c : Nat) (l : List Byte) : (s.raiseLink p c l).pins = s.pins := State.raisePort_pins _ _ _ _
@[simp] theorem State.raiseLink_free (s : State) (p c : Nat) (l : List Byte) : (s.raiseLink p c l).free = s.free := State.raisePort_free _ _ _ _

@[simp] theorem State.raiseLane_pending (s : State) (p c : Nat) : (s.raiseLane p c).pending = s.pending := State.raisePort_pending _ _ _ _
@[simp] theorem State.raiseLane_variant (s : State) (p c : Nat) : (s.raiseLane p c).variant = s.variant := State.raisePort_variant _ _ _ _
@[simp] theorem State.raiseLane_board (s : State) (p c : Nat) : (s.raiseLane p c).board = s.board := State.raisePort_board _ _ _ _
@[simp] theorem State.raiseLane_clk (s : State) (p c : Nat) : (s.raiseLane p c).clk = s.clk := State.raisePort_clk _ _ _ _
@[simp] theorem State.raiseLane_pwr (s : State) (p c : Nat) : (s.raiseLane p c).pwr = s.pwr := State.raisePort_pwr _ _ _ _
@[simp] theorem State.raiseLane_kin (s : State) (p c : Nat) : (s.raiseLane p c).kin = s.kin := State.raisePort_kin _ _ _ _
@[simp] theorem State.raiseLane_img (s : State) (p c : Nat) : (s.raiseLane p c).img = s.img := State.raisePort_img _ _ _ _
@[simp] theorem State.raiseLane_flash (s : State) (p c : Nat) : (s.raiseLane p c).flash = s.flash := State.raisePort_flash _ _ _ _
@[simp] theorem State.raiseLane_lamp (s : State) (p c : Nat) : (s.raiseLane p c).lamp = s.lamp := State.raisePort_lamp _ _ _ _
@[simp] theorem State.raiseLane_staged (s : State) (p c : Nat) : (s.raiseLane p c).staged = s.staged := State.raisePort_staged _ _ _ _
@[simp] theorem State.raiseLane_pcie (s : State) (p c : Nat) : (s.raiseLane p c).pcie = s.pcie := State.raisePort_pcie _ _ _ _
@[simp] theorem State.raiseLane_gals (s : State) (p c : Nat) : (s.raiseLane p c).gals = s.gals := State.raisePort_gals _ _ _ _
@[simp] theorem State.raiseLane_mesh (s : State) (p c : Nat) : (s.raiseLane p c).mesh = s.mesh := State.raisePort_mesh _ _ _ _
@[simp] theorem State.raiseLane_ports (s : State) (p c : Nat) : (s.raiseLane p c).ports = s.ports := State.raisePort_ports _ _ _ _
@[simp] theorem State.raiseLane_tnd (s : State) (p c : Nat) : (s.raiseLane p c).tnd = s.tnd := State.raisePort_tnd _ _ _ _
@[simp] theorem State.raiseLane_sweep (s : State) (p c : Nat) : (s.raiseLane p c).sweep = s.sweep := State.raisePort_sweep _ _ _ _
@[simp] theorem State.raiseLane_assay (s : State) (p c : Nat) : (s.raiseLane p c).assay = s.assay := State.raisePort_assay _ _ _ _
@[simp] theorem State.raiseLane_capt (s : State) (p c : Nat) : (s.raiseLane p c).capt = s.capt := State.raisePort_capt _ _ _ _
@[simp] theorem State.raiseLane_pins (s : State) (p c : Nat) : (s.raiseLane p c).pins = s.pins := State.raisePort_pins _ _ _ _
@[simp] theorem State.raiseLane_free (s : State) (p c : Nat) : (s.raiseLane p c).free = s.free := State.raisePort_free _ _ _ _

@[simp] theorem State.freeWord_pending (s : State) : (s.freeWord).2.pending = s.pending := rfl
@[simp] theorem State.freeWord_variant (s : State) : (s.freeWord).2.variant = s.variant := rfl
@[simp] theorem State.freeWord_board (s : State) : (s.freeWord).2.board = s.board := rfl
@[simp] theorem State.freeWord_clk (s : State) : (s.freeWord).2.clk = s.clk := rfl
@[simp] theorem State.freeWord_pwr (s : State) : (s.freeWord).2.pwr = s.pwr := rfl
@[simp] theorem State.freeWord_kin (s : State) : (s.freeWord).2.kin = s.kin := rfl
@[simp] theorem State.freeWord_img (s : State) : (s.freeWord).2.img = s.img := rfl
@[simp] theorem State.freeWord_flash (s : State) : (s.freeWord).2.flash = s.flash := rfl
@[simp] theorem State.freeWord_lamp (s : State) : (s.freeWord).2.lamp = s.lamp := rfl
@[simp] theorem State.freeWord_evt (s : State) : (s.freeWord).2.evt = s.evt := rfl
@[simp] theorem State.freeWord_params (s : State) : (s.freeWord).2.params = s.params := rfl
@[simp] theorem State.freeWord_staged (s : State) : (s.freeWord).2.staged = s.staged := rfl
@[simp] theorem State.freeWord_pcie (s : State) : (s.freeWord).2.pcie = s.pcie := rfl
@[simp] theorem State.freeWord_gals (s : State) : (s.freeWord).2.gals = s.gals := rfl
@[simp] theorem State.freeWord_mesh (s : State) : (s.freeWord).2.mesh = s.mesh := rfl
@[simp] theorem State.freeWord_ports (s : State) : (s.freeWord).2.ports = s.ports := rfl
@[simp] theorem State.freeWord_tnd (s : State) : (s.freeWord).2.tnd = s.tnd := rfl
@[simp] theorem State.freeWord_sweep (s : State) : (s.freeWord).2.sweep = s.sweep := rfl
@[simp] theorem State.freeWord_assay (s : State) : (s.freeWord).2.assay = s.assay := rfl
@[simp] theorem State.freeWord_capt (s : State) : (s.freeWord).2.capt = s.capt := rfl
@[simp] theorem State.freeWord_pins (s : State) : (s.freeWord).2.pins = s.pins := rfl

@[simp] theorem State.freeBit_pending (s : State) : (s.freeBit).2.pending = s.pending := rfl
@[simp] theorem State.freeBit_variant (s : State) : (s.freeBit).2.variant = s.variant := rfl
@[simp] theorem State.freeBit_board (s : State) : (s.freeBit).2.board = s.board := rfl
@[simp] theorem State.freeBit_clk (s : State) : (s.freeBit).2.clk = s.clk := rfl
@[simp] theorem State.freeBit_pwr (s : State) : (s.freeBit).2.pwr = s.pwr := rfl
@[simp] theorem State.freeBit_kin (s : State) : (s.freeBit).2.kin = s.kin := rfl
@[simp] theorem State.freeBit_img (s : State) : (s.freeBit).2.img = s.img := rfl
@[simp] theorem State.freeBit_flash (s : State) : (s.freeBit).2.flash = s.flash := rfl
@[simp] theorem State.freeBit_lamp (s : State) : (s.freeBit).2.lamp = s.lamp := rfl
@[simp] theorem State.freeBit_evt (s : State) : (s.freeBit).2.evt = s.evt := rfl
@[simp] theorem State.freeBit_params (s : State) : (s.freeBit).2.params = s.params := rfl
@[simp] theorem State.freeBit_staged (s : State) : (s.freeBit).2.staged = s.staged := rfl
@[simp] theorem State.freeBit_pcie (s : State) : (s.freeBit).2.pcie = s.pcie := rfl
@[simp] theorem State.freeBit_gals (s : State) : (s.freeBit).2.gals = s.gals := rfl
@[simp] theorem State.freeBit_mesh (s : State) : (s.freeBit).2.mesh = s.mesh := rfl
@[simp] theorem State.freeBit_ports (s : State) : (s.freeBit).2.ports = s.ports := rfl
@[simp] theorem State.freeBit_tnd (s : State) : (s.freeBit).2.tnd = s.tnd := rfl
@[simp] theorem State.freeBit_sweep (s : State) : (s.freeBit).2.sweep = s.sweep := rfl
@[simp] theorem State.freeBit_assay (s : State) : (s.freeBit).2.assay = s.assay := rfl
@[simp] theorem State.freeBit_capt (s : State) : (s.freeBit).2.capt = s.capt := rfl
@[simp] theorem State.freeBit_pins (s : State) : (s.freeBit).2.pins = s.pins := rfl

@[simp] theorem State.freeBytes_pending (s : State) (n : Nat) : (s.freeBytes n).2.pending = s.pending := rfl
@[simp] theorem State.freeBytes_variant (s : State) (n : Nat) : (s.freeBytes n).2.variant = s.variant := rfl
@[simp] theorem State.freeBytes_board (s : State) (n : Nat) : (s.freeBytes n).2.board = s.board := rfl
@[simp] theorem State.freeBytes_clk (s : State) (n : Nat) : (s.freeBytes n).2.clk = s.clk := rfl
@[simp] theorem State.freeBytes_pwr (s : State) (n : Nat) : (s.freeBytes n).2.pwr = s.pwr := rfl
@[simp] theorem State.freeBytes_kin (s : State) (n : Nat) : (s.freeBytes n).2.kin = s.kin := rfl
@[simp] theorem State.freeBytes_img (s : State) (n : Nat) : (s.freeBytes n).2.img = s.img := rfl
@[simp] theorem State.freeBytes_flash (s : State) (n : Nat) : (s.freeBytes n).2.flash = s.flash := rfl
@[simp] theorem State.freeBytes_lamp (s : State) (n : Nat) : (s.freeBytes n).2.lamp = s.lamp := rfl
@[simp] theorem State.freeBytes_evt (s : State) (n : Nat) : (s.freeBytes n).2.evt = s.evt := rfl
@[simp] theorem State.freeBytes_params (s : State) (n : Nat) : (s.freeBytes n).2.params = s.params := rfl
@[simp] theorem State.freeBytes_staged (s : State) (n : Nat) : (s.freeBytes n).2.staged = s.staged := rfl
@[simp] theorem State.freeBytes_pcie (s : State) (n : Nat) : (s.freeBytes n).2.pcie = s.pcie := rfl
@[simp] theorem State.freeBytes_gals (s : State) (n : Nat) : (s.freeBytes n).2.gals = s.gals := rfl
@[simp] theorem State.freeBytes_mesh (s : State) (n : Nat) : (s.freeBytes n).2.mesh = s.mesh := rfl
@[simp] theorem State.freeBytes_ports (s : State) (n : Nat) : (s.freeBytes n).2.ports = s.ports := rfl
@[simp] theorem State.freeBytes_tnd (s : State) (n : Nat) : (s.freeBytes n).2.tnd = s.tnd := rfl
@[simp] theorem State.freeBytes_sweep (s : State) (n : Nat) : (s.freeBytes n).2.sweep = s.sweep := rfl
@[simp] theorem State.freeBytes_assay (s : State) (n : Nat) : (s.freeBytes n).2.assay = s.assay := rfl
@[simp] theorem State.freeBytes_capt (s : State) (n : Nat) : (s.freeBytes n).2.capt = s.capt := rfl
@[simp] theorem State.freeBytes_pins (s : State) (n : Nat) : (s.freeBytes n).2.pins = s.pins := rfl

/-- A parameter reads as what was put into it. -/
@[simp] theorem State.par_putPar_same (s : State) (n : Nat) (v : Word) : (s.putPar n v).par n = v :=
  tabGet_tabSet_same _ _ _ _

/-- Every other parameter reads as before. -/
theorem State.par_putPar_ne (s : State) (n m : Nat) (v : Word) (h : m ≠ n) : (s.putPar n v).par m = s.par m := by
  have : ∀ d : Word, tabGet d (tabSet (paramReset n) s.params n v) m = tabGet d s.params m := by
    intro d; exact tabGet_tabSet_other d (paramReset n) s.params n m v h
  exact this _

/-- A saturating counter after a count (Table 18.2). -/
@[simp] theorem State.par_count_same (s : State) (n k : Nat) :
    (s.count n k).par n = wd (min 0xFFFFFFFF ((s.par n).toNat + k)) := State.par_putPar_same _ _ _

theorem State.par_count_ne (s : State) (n m k : Nat) (h : m ≠ n) : (s.count n k).par m = s.par m :=
  State.par_putPar_ne _ _ _ _ h

/-- A running count after a tally (Table 18.2). -/
@[simp] theorem State.par_tally_same (s : State) (n k : Nat) : (s.tally n k).par n = s.par n + wd k :=
  State.par_putPar_same _ _ _

theorem State.par_tally_ne (s : State) (n m k : Nat) (h : m ≠ n) : (s.tally n k).par m = s.par m :=
  State.par_putPar_ne _ _ _ _ h

theorem State.par_putPair_ne (s : State) (n m v : Nat) (h : m ≠ n) (h' : m ≠ n + 1) : (s.putPair n v).par m = s.par m := by
  rw [State.putPair, State.par_putPar_ne _ _ _ _ h', State.par_putPar_ne _ _ _ _ h]

@[simp] theorem State.par_putPair_low (s : State) (n v : Nat) : (s.putPair n v).par n = wd v := by
  rw [State.putPair, State.par_putPar_ne _ _ _ _ (by omega), State.par_putPar_same]

@[simp] theorem State.par_putPair_high (s : State) (n v : Nat) : (s.putPair n v).par (n + 1) = wd (v / 2 ^ 32) :=
  State.par_putPar_same _ _ _

theorem State.par_tally64_ne (s : State) (n m k : Nat) (h : m ≠ n) (h' : m ≠ n + 1) :
    (s.tally64 n k).par m = s.par m := State.par_putPair_ne _ _ _ _ h h'

/-- A gallery reads as it was changed. -/
@[simp] theorem State.gal_modGal_same (s : State) (g : Nat) (f : Gallery → Gallery) : (s.modGal g f).gal g = f (s.gal g) :=
  tabGet_tabMod_same _ _ _ _

/-- Every other gallery reads as before. -/
theorem State.gal_modGal_ne (s : State) (g k : Nat) (f : Gallery → Gallery) (h : k ≠ g) :
    (s.modGal g f).gal k = s.gal k := tabGet_tabMod_ne _ _ _ _ _ h

@[simp] theorem State.gal_modSeq_same (s : State) (g : Nat) (f : Seq → Seq) :
    (s.modSeq g f).gal g = { s.gal g with seq := f (s.gal g).seq } := State.gal_modGal_same _ _ _

theorem State.gal_modSeq_ne (s : State) (g k : Nat) (f : Seq → Seq) (h : k ≠ g) : (s.modSeq g f).gal k = s.gal k :=
  State.gal_modGal_ne _ _ _ _ h

@[simp] theorem State.port_modPort_same (s : State) (p : Nat) (f : Port → Port) : (s.modPort p f).port p = f (s.port p) :=
  tabGet_tabMod_same _ _ _ _

theorem State.port_modPort_ne (s : State) (p k : Nat) (f : Port → Port) (h : k ≠ p) :
    (s.modPort p f).port k = s.port k := tabGet_tabMod_ne _ _ _ _ _ h

@[simp] theorem State.dom_modDom_same (s : State) (d : Nat) (f : Dom → Dom) : (s.modDom d f).dom d = f (s.dom d) :=
  tabGet_tabMod_same _ _ _ _

theorem State.dom_modDom_ne (s : State) (d k : Nat) (f : Dom → Dom) (h : k ≠ d) : (s.modDom d f).dom k = s.dom k :=
  tabGet_tabMod_ne _ _ _ _ _ h

@[simp] theorem State.par_modGal (s : State) (g : Nat) (f : Gallery → Gallery) (q : Nat) : (s.modGal g f).par q = s.par q := by
  simp [State.par]
@[simp] theorem State.par_modSeq (s : State) (g : Nat) (f : Seq → Seq) (q : Nat) : (s.modSeq g f).par q = s.par q := by
  simp [State.par]
@[simp] theorem State.par_modPort (s : State) (p : Nat) (f : Port → Port) (q : Nat) : (s.modPort p f).par q = s.par q := by
  simp [State.par]
@[simp] theorem State.par_modSeam (s : State) (p : Nat) (f : Seam → Seam) (q : Nat) : (s.modSeam p f).par q = s.par q := by
  simp [State.par]
@[simp] theorem State.par_modDom (s : State) (d : Nat) (f : Dom → Dom) (q : Nat) : (s.modDom d f).par q = s.par q := by
  simp [State.par]
@[simp] theorem State.par_raise (s : State) (e : Nat) (l : List Byte) (q : Nat) : (s.raise e l).par q = s.par q := by
  simp [State.par]
@[simp] theorem State.par_raiseGal (s : State) (g k : Nat) (l : List Byte) (q : Nat) : (s.raiseGal g k l).par q = s.par q := by
  simp [State.par]
@[simp] theorem State.par_raisePort (s : State) (p k : Nat) (l : List Byte) (q : Nat) : (s.raisePort p k l).par q = s.par q := by
  simp [State.par]
@[simp] theorem State.gal_putPar (s : State) (n : Nat) (v : Word) (q : Nat) : (s.putPar n v).gal q = s.gal q := by
  simp [State.gal]
@[simp] theorem State.gal_count (s : State) (n k : Nat) (q : Nat) : (s.count n k).gal q = s.gal q := by
  simp [State.gal]
@[simp] theorem State.gal_tally (s : State) (n k : Nat) (q : Nat) : (s.tally n k).gal q = s.gal q := by
  simp [State.gal]
@[simp] theorem State.gal_putPair (s : State) (n v : Nat) (q : Nat) : (s.putPair n v).gal q = s.gal q := by
  simp [State.gal]
@[simp] theorem State.gal_tally64 (s : State) (n k : Nat) (q : Nat) : (s.tally64 n k).gal q = s.gal q := by
  simp [State.gal]
@[simp] theorem State.gal_modPort (s : State) (p : Nat) (f : Port → Port) (q : Nat) : (s.modPort p f).gal q = s.gal q := by
  simp [State.gal]
@[simp] theorem State.gal_modSeam (s : State) (p : Nat) (f : Seam → Seam) (q : Nat) : (s.modSeam p f).gal q = s.gal q := by
  simp [State.gal]
@[simp] theorem State.gal_modDom (s : State) (d : Nat) (f : Dom → Dom) (q : Nat) : (s.modDom d f).gal q = s.gal q := by
  simp [State.gal]
@[simp] theorem State.gal_raise (s : State) (e : Nat) (l : List Byte) (q : Nat) : (s.raise e l).gal q = s.gal q := by
  simp [State.gal]
@[simp] theorem State.gal_raiseGal (s : State) (g k : Nat) (l : List Byte) (q : Nat) : (s.raiseGal g k l).gal q = s.gal q := by
  simp [State.gal]
@[simp] theorem State.gal_raisePort (s : State) (p k : Nat) (l : List Byte) (q : Nat) : (s.raisePort p k l).gal q = s.gal q := by
  simp [State.gal]
@[simp] theorem State.gal_raiseLink (s : State) (p c : Nat) (l : List Byte) (q : Nat) : (s.raiseLink p c l).gal q = s.gal q := by
  simp [State.gal]
@[simp] theorem State.gal_raiseLane (s : State) (p c : Nat) (q : Nat) : (s.raiseLane p c).gal q = s.gal q := by
  simp [State.gal]
@[simp] theorem State.port_putPar (s : State) (n : Nat) (v : Word) (q : Nat) : (s.putPar n v).port q = s.port q := by
  simp [State.port]
@[simp] theorem State.port_count (s : State) (n k : Nat) (q : Nat) : (s.count n k).port q = s.port q := by
  simp [State.port]
@[simp] theorem State.port_tally (s : State) (n k : Nat) (q : Nat) : (s.tally n k).port q = s.port q := by
  simp [State.port]
@[simp] theorem State.port_putPair (s : State) (n v : Nat) (q : Nat) : (s.putPair n v).port q = s.port q := by
  simp [State.port]
@[simp] theorem State.port_tally64 (s : State) (n k : Nat) (q : Nat) : (s.tally64 n k).port q = s.port q := by
  simp [State.port]
@[simp] theorem State.port_modGal (s : State) (g : Nat) (f : Gallery → Gallery) (q : Nat) : (s.modGal g f).port q = s.port q := by
  simp [State.port]
@[simp] theorem State.port_modSeq (s : State) (g : Nat) (f : Seq → Seq) (q : Nat) : (s.modSeq g f).port q = s.port q := by
  simp [State.port]
@[simp] theorem State.port_modDom (s : State) (d : Nat) (f : Dom → Dom) (q : Nat) : (s.modDom d f).port q = s.port q := by
  simp [State.port]
@[simp] theorem State.port_raise (s : State) (e : Nat) (l : List Byte) (q : Nat) : (s.raise e l).port q = s.port q := by
  simp [State.port]
@[simp] theorem State.port_raiseGal (s : State) (g k : Nat) (l : List Byte) (q : Nat) : (s.raiseGal g k l).port q = s.port q := by
  simp [State.port]
@[simp] theorem State.port_raisePort (s : State) (p k : Nat) (l : List Byte) (q : Nat) : (s.raisePort p k l).port q = s.port q := by
  simp [State.port]
@[simp] theorem State.port_raiseLink (s : State) (p c : Nat) (l : List Byte) (q : Nat) : (s.raiseLink p c l).port q = s.port q := by
  simp [State.port]
@[simp] theorem State.port_raiseLane (s : State) (p c : Nat) (q : Nat) : (s.raiseLane p c).port q = s.port q := by
  simp [State.port]
@[simp] theorem State.dom_putPar (s : State) (n : Nat) (v : Word) (q : Nat) : (s.putPar n v).dom q = s.dom q := by
  simp [State.dom]
@[simp] theorem State.dom_count (s : State) (n k : Nat) (q : Nat) : (s.count n k).dom q = s.dom q := by
  simp [State.dom]
@[simp] theorem State.dom_tally (s : State) (n k : Nat) (q : Nat) : (s.tally n k).dom q = s.dom q := by
  simp [State.dom]
@[simp] theorem State.dom_putPair (s : State) (n v : Nat) (q : Nat) : (s.putPair n v).dom q = s.dom q := by
  simp [State.dom]
@[simp] theorem State.dom_tally64 (s : State) (n k : Nat) (q : Nat) : (s.tally64 n k).dom q = s.dom q := by
  simp [State.dom]
@[simp] theorem State.dom_modGal (s : State) (g : Nat) (f : Gallery → Gallery) (q : Nat) : (s.modGal g f).dom q = s.dom q := by
  simp [State.dom]
@[simp] theorem State.dom_modSeq (s : State) (g : Nat) (f : Seq → Seq) (q : Nat) : (s.modSeq g f).dom q = s.dom q := by
  simp [State.dom]
@[simp] theorem State.dom_modPort (s : State) (p : Nat) (f : Port → Port) (q : Nat) : (s.modPort p f).dom q = s.dom q := by
  simp [State.dom]
@[simp] theorem State.dom_modSeam (s : State) (p : Nat) (f : Seam → Seam) (q : Nat) : (s.modSeam p f).dom q = s.dom q := by
  simp [State.dom]
@[simp] theorem State.dom_raise (s : State) (e : Nat) (l : List Byte) (q : Nat) : (s.raise e l).dom q = s.dom q := by
  simp [State.dom]
@[simp] theorem State.dom_raiseGal (s : State) (g k : Nat) (l : List Byte) (q : Nat) : (s.raiseGal g k l).dom q = s.dom q := by
  simp [State.dom]
@[simp] theorem State.dom_raisePort (s : State) (p k : Nat) (l : List Byte) (q : Nat) : (s.raisePort p k l).dom q = s.dom q := by
  simp [State.dom]
@[simp] theorem State.dom_raiseLink (s : State) (p c : Nat) (l : List Byte) (q : Nat) : (s.raiseLink p c l).dom q = s.dom q := by
  simp [State.dom]
@[simp] theorem State.dom_raiseLane (s : State) (p c : Nat) (q : Nat) : (s.raiseLane p c).dom q = s.dom q := by
  simp [State.dom]

/-- A raise of an event that can be raised puts it into its latch (R331, R332). -/
theorem State.raise_evt (s : State) (e : Nat) (l : List Byte) (h : s.canRaise e = true) :
    (s.raise e l).evt = { s.evt with latches := latchRaise e s.clk.tick l s.evt.latches } := by
  simp [State.raise, h]

/-- The table of parameters keeps its canonical form. -/
theorem State.putPar_wf (s : State) (n : Nat) (v : Word) (h : TabWf paramReset s.params) :
    TabWf paramReset (s.putPar n v).params := h.tabSet n v

end Sys2Proof.Machine
end

