-- ==== Sys2Proof/Laws/Hearth.lean ====
section
/-!
SUPPORT. What the firing of a hearth does, said once: its state when R138 holds, its counts when it does not, and the
laws of lanes that every lane operation rests on.
-/

namespace Sys2Proof.Machine

theorem switchCount_stale_of_valid {s : State} {x : Gallery} {r : Record} {h : Nat} {sel : List Nat}
    (hv : ∀ c ∈ sel, (offerOf s x r h c).valid = true) : switchCount s x r h sel Offer.isStale = 0 := by
  simp only [switchCount, List.length_eq_zero_iff, List.filter_eq_nil_iff]
  intro c hc
  have := hv c (List.mem_eraseDups.1 hc)
  cases hx : offerOf s x r h c <;> simp_all [Offer.valid, Offer.isStale]

/-- The state in which a firing's effect starts: the interval runs and the firing is counted. -/
def State.firing (s : State) (g h iv : Nat) : State :=
  (s.modGal g (fun y =>
    { y with busy := tabSet 0 y.busy h iv
             hearths := tabMod HearthTest.reset y.hearths h (fun t => { t with running := false }) })).tally64
    (galP g 0x65) 1

/-- A firing that R138 allows runs its effect on its operands. -/
theorem fire_eq {op : Nat} {sel : Record → List Nat} {iv : Record → Nat} {room : Gallery → Bool}
    {act : Record → Word → Word → Word → State → State} {g h : Nat} {s : State}
    (hf : s.CanFire g h op (sel (s.recordOf g h))) (hr : room (s.gal g) = true) :
    fire op sel iv room act g h s =
      act (s.recordOf g h) (s.operand g h (s.recordOf g h).srcA) (s.operand g h (s.recordOf g h).srcB)
        (s.operand g h (s.recordOf g h).srcC) (s.firing g h (iv (s.recordOf g h))) := by
  have hop := hf.op
  have hv := hf.valid
  have hst := switchCount_stale_of_valid hv
  have hall : (sel (s.recordOf g h)).all (fun c => (offerOf s (s.gal g) (s.recordOf g h) h c).valid) = true :=
    List.all_eq_true.2 hv
  simp only [fire, State.operand, State.firing]
  unfold State.recordOf at *
  simp [hf.live, hf.hearth, hop, hst, hall, hf.free, hr]

theorem pair_tally64 (s : State) (n k : Nat) : (s.tally64 n k).pair n = (s.pair n + k) % 2 ^ 64 := by
  have h1 : (s.tally64 n k).par n = wd (s.pair n + k) := by
    simp [State.tally64, State.putPair, State.par_putPar_ne]
  have h2 : (s.tally64 n k).par (n + 1) = wd ((s.pair n + k) / 2 ^ 32) := by
    simp [State.tally64, State.putPair]
  rw [State.pair, h1, h2]
  simp only [wd, BitVec.toNat_ofNat]
  omega

theorem par_tally64_ne (s : State) (n k q : Nat) (h : q ≠ n) (h' : q ≠ n + 1) : (s.tally64 n k).par q = s.par q := by
  simp [State.tally64, State.putPair, State.par_putPar_ne _ _ _ _ h, State.par_putPar_ne _ _ _ _ h']

/-- A change of the firing hearth's gallery after the firing is one Fired step. -/
theorem fired_modGal (s : State) (g h iv : Nat) (f : Gallery → Gallery)
    (hb : ∀ x b k, f { x with busy := b, hearths := k } = { f x with busy := b, hearths := k }) :
    s.Fired ((s.firing g h iv).modGal g f) g h iv (f (s.gal g)) where
  only := by
    refine ⟨fun k hk => ?_, fun n hn => ?_, rfl⟩
    · simp [State.firing, State.gal_modGal_ne _ _ _ _ hk]
    · simp only [List.mem_cons, List.not_mem_nil, or_false, not_or] at hn
      simp only [State.firing, State.par_modGal]
      rw [par_tally64_ne _ _ _ _ hn.1 (by simpa [galP] using hn.2)]
      simp
  gal := by
    simp only [State.firing, State.gal_modGal_same, State.gal_tally64]
    exact hb _ _ _
  count := by
    have : ((s.firing g h iv).modGal g f).pair (galP g 0x65) = (s.firing g h iv).pair (galP g 0x65) := by
      simp [State.pair]
    rw [this, State.firing, pair_tally64]
    simp [State.pair]

theorem pushPipe_eq (g : Nat) (e : InFlight) (s : State) : pushPipe g e s = s.modGal g (fun x => x.push e) := rfl

/-- A result word enters the pipeline of a firing hearth. -/
theorem fired_pushRes {s : State} {g h iv lat : Nat} {e : WordRes} {z n : Bool} (hz : e.zn = some (z, n)) :
    s.Fired (pushRes lat g h (s.recordOf g h) e (s.firing g h iv)) g h iv
      ((s.gal g).push (s.result g h lat e.word z n e.c e.v e.d)) := by
  have hp : ((s.firing g h iv).gal g).active = (s.gal g).active := by simp [State.firing]
  have he : ({ hearth := h, plane := ((s.firing g h iv).gal g).active, left := lat, result := some e.word,
               wb := (s.recordOf g h).wbReg, setZN := e.zn, setC := e.c,
               sticky := putBit (putBit 0#3 0 e.v) 1 e.d, fclr := (s.recordOf g h).fclr, regs := [] } : InFlight) =
      s.result g h lat e.word z n e.c e.v e.d := by
    simp only [State.result, hp, hz, Record.wbReg, InFlight.mk.injEq, true_and, and_true]
    cases e.v <;> cases e.d <;> rfl
  simp only [pushRes, pushPipe_eq, he]
  exact fired_modGal s g h iv (fun x => x.push _) (fun _ _ _ => rfl)

/-- An operation on A alone whose R138 holds. -/
theorem fireA_eq {op lat : Nat} {f : Record → Word → WordRes} {g h : Nat} {s : State}
    (hf : s.CanFire g h op [(s.recordOf g h).srcA]) :
    fireA op lat f g h s = pushRes lat g h (s.recordOf g h)
      (f (s.recordOf g h) (s.operand g h (s.recordOf g h).srcA)) (s.firing g h 1) := by
  rw [fireA, fire_eq hf rfl]

/-- An operation on A and B whose R138 holds. -/
theorem fireAB_eq {op lat : Nat} {iv : Record → Nat} {f : Record → Word → Word → WordRes} {g h : Nat} {s : State}
    (hf : s.CanFire g h op [(s.recordOf g h).srcA, (s.recordOf g h).srcB]) :
    fireAB op lat iv f g h s = pushRes lat g h (s.recordOf g h)
      (f (s.recordOf g h) (s.operand g h (s.recordOf g h).srcA) (s.operand g h (s.recordOf g h).srcB))
      (s.firing g h (iv (s.recordOf g h))) := by
  rw [fireAB, fire_eq hf rfl]

/-- What an operation on A alone does when R138 holds and its result is known. -/
theorem fired_A {op lat : Nat} {f : Record → Word → WordRes} {g h : Nat} {s : State} {x : Word} {z n v d : Bool}
    {c : Option Bool} (hf : s.CanFire g h op [(s.recordOf g h).srcA])
    (he : f (s.recordOf g h) (s.operand g h (s.recordOf g h).srcA) =
      { word := x, v := v, d := d, c := c, zn := some (z, n) }) :
    s.Fired (fireA op lat f g h s) g h 1 ((s.gal g).push (s.result g h lat x z n c v d)) := by
  rw [fireA_eq hf, he]
  exact fired_pushRes rfl

/-- What an operation on A and B does when R138 holds and its result is known. -/
theorem fired_AB {op lat : Nat} {iv : Record → Nat} {f : Record → Word → Word → WordRes} {g h : Nat} {s : State}
    {x : Word} {z n v d : Bool} {c : Option Bool}
    (hf : s.CanFire g h op [(s.recordOf g h).srcA, (s.recordOf g h).srcB])
    (he : f (s.recordOf g h) (s.operand g h (s.recordOf g h).srcA) (s.operand g h (s.recordOf g h).srcB) =
      { word := x, v := v, d := d, c := c, zn := some (z, n) }) :
    s.Fired (fireAB op lat iv f g h s) g h (iv (s.recordOf g h))
      ((s.gal g).push (s.result g h lat x z n c v d)) := by
  rw [fireAB_eq hf, he]
  exact fired_pushRes rfl

/-- What SEL does when R138 holds and its result is known. -/
theorem fired_sel {g h : Nat} {s : State} {x : Word} {z n v d : Bool} {c : Option Bool}
    (hf : s.CanFire g h 0x21 [(s.recordOf g h).srcA, (s.recordOf g h).srcB, (s.recordOf g h).srcC])
    (he : selRes (s.recordOf g h) (s.operand g h (s.recordOf g h).srcA) (s.operand g h (s.recordOf g h).srcB)
        (s.operand g h (s.recordOf g h).srcC) = { word := x, v := v, d := d, c := c, zn := some (z, n) }) :
    ∃ t, execSel g h s = .next t ∧ s.Fired t g h 1 ((s.gal g).push (s.result g h 1 x z n c v d)) := by
  refine ⟨_, rfl, ?_⟩
  rw [fire_eq (sel := fun r => [r.srcA, r.srcB, r.srcC]) hf rfl, he]
  exact fired_pushRes rfl

/-! ### Lanes -/

theorem Record.width_cases (r : Record) : r.width = 32 ∨ r.width = 16 ∨ r.width = 8 := by
  unfold Record.width; split <;> [simp; split <;> simp]

theorem lane_lt (w : Nat) (x : Word) (i : Nat) : lane w x i < 2 ^ w := Nat.mod_lt _ (Nat.two_pow_pos _)

theorem toNat_wd (n : Nat) : (wd n).toNat = n % 4294967296 := by
  rw [wd, BitVec.toNat_ofNat]

theorem joinLanes_sum (w : Nat) (f : Nat → Nat) :
    ∃ g : Nat → Nat, joinLanes w f = wd ((List.range (32 / w)).foldl (fun a i => a + g i) 0) ∧
      ∀ i, g i = 2 ^ (w * i) * (f i % 2 ^ w) :=
  ⟨fun i => f i % 2 ^ w * 2 ^ (w * i), rfl, fun _ => Nat.mul_comm _ _⟩

theorem joinLanes_32 (f : Nat → Nat) : joinLanes 32 f = wd (f 0 % 4294967296) := by
  obtain ⟨g, h, hg⟩ := joinLanes_sum 32 f
  have hr : List.range (32 / 32) = [0] := by decide
  have h0 := hg 0
  rw [h, hr]
  simp only [List.foldl_cons, List.foldl_nil]
  exact congrArg wd (by omega)

theorem joinLanes_16 (f : Nat → Nat) : joinLanes 16 f = wd (f 0 % 65536 + 65536 * (f 1 % 65536)) := by
  obtain ⟨g, h, hg⟩ := joinLanes_sum 16 f
  have hr : List.range (32 / 16) = [0, 1] := by decide
  have h0 := hg 0
  have h1 := hg 1
  rw [h, hr]
  simp only [List.foldl_cons, List.foldl_nil]
  exact congrArg wd (by omega)

theorem joinLanes_8 (f : Nat → Nat) :
    joinLanes 8 f = wd (f 0 % 256 + 256 * (f 1 % 256) + 65536 * (f 2 % 256) + 16777216 * (f 3 % 256)) := by
  obtain ⟨g, h, hg⟩ := joinLanes_sum 8 f
  have hr : List.range (32 / 8) = [0, 1, 2, 3] := by decide
  have h0 := hg 0
  have h1 := hg 1
  have h2 := hg 2
  have h3 := hg 3
  rw [h, hr]
  simp only [List.foldl_cons, List.foldl_nil]
  exact congrArg wd (by omega)

theorem lane_32 (x : Word) : lane 32 x 0 = x.toNat % 4294967296 := by simp only [lane]; norm_num

theorem lane_16 (x : Word) : lane 16 x 0 = x.toNat % 65536 ∧ lane 16 x 1 = x.toNat / 65536 % 65536 := by
  constructor <;> simp only [lane] <;> norm_num

theorem lane_8 (x : Word) : lane 8 x 0 = x.toNat % 256 ∧ lane 8 x 1 = x.toNat / 256 % 256 ∧
    lane 8 x 2 = x.toNat / 65536 % 256 ∧ lane 8 x 3 = x.toNat / 16777216 % 256 := by
  refine ⟨?_, ?_, ?_, ?_⟩ <;> simp only [lane] <;> norm_num

/-- A lane of a joined word is the value put into it. -/
theorem lane_joinLanes {w i : Nat} (hw : w = 32 ∨ w = 16 ∨ w = 8) (f : Nat → Nat) (hi : i < 32 / w) :
    lane w (joinLanes w f) i = f i % 2 ^ w := by
  obtain rfl | rfl | rfl := hw
  · obtain rfl : i = 0 := by omega
    rw [joinLanes_32, lane_32, toNat_wd]; omega
  · have h := lane_16 (joinLanes 16 f)
    rw [joinLanes_16, toNat_wd] at h
    rw [joinLanes_16]
    obtain rfl | rfl : i = 0 ∨ i = 1 := by omega
    · rw [h.1]; omega
    · rw [h.2]; omega
  · have h := lane_8 (joinLanes 8 f)
    rw [joinLanes_8, toNat_wd] at h
    rw [joinLanes_8]
    obtain rfl | rfl | rfl | rfl : i = 0 ∨ i = 1 ∨ i = 2 ∨ i = 3 := by omega
    · rw [h.1]; omega
    · rw [h.2.1]; omega
    · rw [h.2.2.1]; omega
    · rw [h.2.2.2]; omega

/-- The signed value of the low `w` bits of an integer is its balanced remainder. -/
theorem signed_wrap {w : Nat} (hw : 0 < w) (x : Int) : signed w (wrap w x) = x.bmod (2 ^ w) := by
  have h2 : (2 : Nat) ^ w = 2 * 2 ^ (w - 1) := by
    rw [← Nat.pow_succ']; congr 1; omega
  have hp : 0 < 2 ^ (w - 1) := Nat.two_pow_pos _
  have hc : (((2 ^ w : Nat) : Nat) : Int) = (2 : Int) ^ w := by push_cast; rfl
  have hr0 : 0 ≤ x % ((2 ^ w : Nat) : Int) := Int.emod_nonneg _ (by positivity)
  have hr1 : x % ((2 ^ w : Nat) : Int) < ((2 ^ w : Nat) : Int) := Int.emod_lt_of_pos _ (by positivity)
  have hb : x.bmod (2 ^ w) = if x % ((2 ^ w : Nat) : Int) < (((2 ^ w : Nat) : Int) + 1) / 2
      then x % ((2 ^ w : Nat) : Int) else x % ((2 ^ w : Nat) : Int) - ((2 ^ w : Nat) : Int) := rfl
  have hs : signed w (wrap w x) =
      if wrap w x % 2 ^ w < 2 ^ (w - 1) then ((wrap w x % 2 ^ w : Nat) : Int)
      else ((wrap w x % 2 ^ w : Nat) : Int) - ((2 ^ w : Nat) : Int) := rfl
  have hm : ((wrap w x % 2 ^ w : Nat) : Int) = x % ((2 ^ w : Nat) : Int) := by
    have : wrap w x % 2 ^ w = wrap w x := Nat.mod_eq_of_lt (by unfold wrap; omega)
    rw [this]; unfold wrap; omega
  rw [hb, hs]
  generalize wrap w x % 2 ^ w = m at *
  generalize x % ((2 ^ w : Nat) : Int) = y at *
  generalize 2 ^ (w - 1) = u at *
  generalize 2 ^ w = v at *
  split <;> split <;> omega

theorem signed_mod (w v : Nat) : signed w (v % 2 ^ w) = signed w v := by
  simp only [signed, Nat.mod_mod]

/-- The signed value of a lane of a joined word. -/
theorem sLane_joinLanes {w i : Nat} (hw : w = 32 ∨ w = 16 ∨ w = 8) (f : Nat → Nat) (hi : i < 32 / w) :
    sLane w (joinLanes w f) i = signed w (f i) := by
  rw [sLane, lane_joinLanes hw f hi, signed_mod]

/-- A value that fits its lane is its own balanced remainder. -/
theorem bmod_of_fits {w : Nat} (hw : 0 < w) {x : Int} (h : fits w x) : x.bmod (2 ^ w) = x := by
  have h2 : (2 : Nat) ^ w = 2 * 2 ^ (w - 1) := by
    rw [← Nat.pow_succ']; congr 1; omega
  have h1 : (2 : Int) ^ (w - 1) = ((2 ^ (w - 1) : Nat) : Int) := by push_cast; rfl
  obtain ⟨ha, hb⟩ := h
  rw [h1] at ha hb
  have hp : 0 < 2 ^ (w - 1) := Nat.two_pow_pos _
  generalize 2 ^ (w - 1) = u at *
  rw [h2]
  apply Int.bmod_eq_of_le <;> omega

theorem fits_lo {w : Nat} : fits w (-(2 ^ (w - 1) : Int)) := by
  have : (0 : Int) < 2 ^ (w - 1) := by positivity
  exact ⟨le_refl _, by omega⟩

theorem fits_hi {w : Nat} : fits w ((2 : Int) ^ (w - 1) - 1) := by
  have : (0 : Int) < 2 ^ (w - 1) := by positivity
  exact ⟨by omega, le_refl _⟩

theorem inLane_iff {w : Nat} {x : Int} : inLane w x = true ↔ fits w x := by
  simp [inLane, laneMin, laneMax, fits]

/-- A fitted value read back is the fitted exact value. -/
theorem signed_fit {w : Nat} (hw : 0 < w) (sat : Bool) (x : Int) : signed w (fit w sat x).val = fitted w sat x := by
  unfold fit fitted
  by_cases h : fits w x
  · rw [if_pos (inLane_iff.2 h), if_pos h]
    show signed w (wrap w x) = x
    rw [signed_wrap hw, bmod_of_fits hw h]
  · rw [if_neg (by rw [inLane_iff]; exact h), if_neg h]
    cases sat
    · simpa using signed_wrap hw x
    · simp only [if_true]
      rw [signed_wrap hw]
      by_cases hx : x < 0
      · rw [if_pos hx, if_pos hx]
        have e : laneMin w = -(2 ^ (w - 1) : Int) := by simp [laneMin]
        rw [e, bmod_of_fits hw fits_lo]
      · rw [if_neg hx, if_neg hx]
        have e : laneMax w = (2 : Int) ^ (w - 1) - 1 := by simp [laneMax]
        rw [e, bmod_of_fits hw fits_hi]

theorem fit_v (w : Nat) (sat : Bool) (x : Int) : (fit w sat x).v = decide (¬ fits w x) := by
  unfold fit
  by_cases h : fits w x
  · rw [if_pos (inLane_iff.2 h)]; simp [h]
  · rw [if_neg (by rw [inLane_iff]; exact h)]; cases sat <;> simp [h]

theorem fit_d (w : Nat) (sat : Bool) (x : Int) : (fit w sat x).d = false := by
  unfold fit; split <;> [rfl; split <;> rfl]

/-- A value that needs no fitting, read back. -/
theorem signed_plain {w : Nat} (hw : 0 < w) {x : Int} (h : fits w x) : signed w (plain w x).val = x := by
  show signed w (wrap w x) = x
  rw [signed_wrap hw, bmod_of_fits hw h]

/-- The signed value of any pattern fits its width. -/
theorem fits_signed {w : Nat} (hw : 0 < w) (v : Nat) : fits w (signed w v) := by
  have h2 : (2 : Nat) ^ w = 2 * 2 ^ (w - 1) := by
    rw [← Nat.pow_succ']; congr 1; omega
  have h1 : (2 : Int) ^ (w - 1) = ((2 ^ (w - 1) : Nat) : Int) := by push_cast; rfl
  have hv := Nat.mod_lt v (Nat.two_pow_pos w)
  unfold fits
  rw [h1]
  simp only [signed]
  generalize v % 2 ^ w = m at *
  generalize 2 ^ (w - 1) = u at *
  generalize 2 ^ w = q at *
  split <;> constructor <;> omega

theorem any_range {n : Nat} {p : Nat → Bool} {q : Nat → Prop} [∀ i, Decidable (q i)] (h : ∀ i < n, p i = decide (q i)) :
    (List.range n).any p = decide (∃ i < n, q i) := by
  rw [Bool.eq_iff_iff, List.any_eq_true, decide_eq_true_iff]
  constructor
  · rintro ⟨i, hi, hp⟩
    have hi := List.mem_range.1 hi
    exact ⟨i, hi, by simpa [h i hi] using hp⟩
  · rintro ⟨i, hi, hq⟩
    exact ⟨i, List.mem_range.2 hi, by simpa [h i hi] using hq⟩

theorem Record.width_pos (r : Record) : 0 < r.width := by
  obtain h | h | h := r.width_cases <;> omega

theorem znOf_eq (x : Word) : znOf x = (decide (x = 0), x.msb) := by
  simp [znOf, BitVec.msb_eq_getLsbD_last]

/-- A whole-word result. -/
theorem ofWord_eq (x : Word) :
    ofWord x = { word := x, v := false, d := false, c := none, zn := some (decide (x = 0), x.msb) } := by
  rw [ofWord, znOf_eq]

/-- Lane results put together. -/
theorem ofLanes_eq (w : Nat) (f : Nat → LaneRes) (p q : Nat → Prop) [∀ i, Decidable (p i)] [∀ i, Decidable (q i)]
    (hv : ∀ i < 32 / w, (f i).v = decide (p i)) (hd : ∀ i < 32 / w, (f i).d = decide (q i)) :
    ofLanes w f =
      { word := joinLanes w (fun i => (f i).val), v := decide (∃ i < 32 / w, p i), d := decide (∃ i < 32 / w, q i),
        c := none
        zn := some (decide (joinLanes w (fun i => (f i).val) = 0), (joinLanes w (fun i => (f i).val)).msb) } := by
  unfold ofLanes
  rw [any_range hv, any_range hd]
  simp only [znOf_eq]

/-- Lane results without a flag. -/
theorem ofLanes_plain (w : Nat) (f : Nat → LaneRes) (hv : ∀ i < 32 / w, (f i).v = false)
    (hd : ∀ i < 32 / w, (f i).d = false) :
    ofLanes w f =
      { word := joinLanes w (fun i => (f i).val), v := false, d := false, c := none
        zn := some (decide (joinLanes w (fun i => (f i).val) = 0), (joinLanes w (fun i => (f i).val)).msb) } := by
  rw [ofLanes_eq w f (fun _ => False) (fun _ => False) (by simpa using hv) (by simpa using hd)]
  simp

/-- Lane results of which only D can be set. -/
theorem ofLanes_d (w : Nat) (f : Nat → LaneRes) (q : Nat → Prop) [∀ i, Decidable (q i)]
    (hv : ∀ i < 32 / w, (f i).v = false) (hd : ∀ i < 32 / w, (f i).d = decide (q i)) :
    ofLanes w f =
      { word := joinLanes w (fun i => (f i).val), v := false, d := decide (∃ i < 32 / w, q i), c := none
        zn := some (decide (joinLanes w (fun i => (f i).val) = 0), (joinLanes w (fun i => (f i).val)).msb) } := by
  rw [ofLanes_eq w f (fun _ => False) q (by simpa using hv) hd]
  simp

/-- Lanes that are fitted exact values. -/
theorem ofLanes_fitted {r : Record} (z : Nat → Int) :
    ∃ x : Word, ofLanes r.width (fun i => fit r.width (r.sat i) (z i)) =
      { word := x, v := decide (∃ i < 32 / r.width, ¬ fits r.width (z i)), d := false, c := none,
        zn := some (decide (x = 0), x.msb) } ∧
      ∀ i < 32 / r.width, sLane r.width x i = fitted r.width (r.sat i) (z i) := by
  refine ⟨joinLanes r.width (fun i => (fit r.width (r.sat i) (z i)).val), ?_, fun i hi => ?_⟩
  · rw [ofLanes_eq _ _ (fun i => ¬ fits r.width (z i)) (fun _ => False) (fun i _ => fit_v _ _ _)
      (fun i _ => by simp [fit_d])]
    simp
  · rw [sLane_joinLanes r.width_cases _ hi, signed_fit r.width_pos]

theorem bitOf_eq_testBit (v i : Nat) : bitOf v i = v.testBit i := by
  rw [bitOf, Nat.testBit_eq_decide_div_mod_eq]

theorem popc_eq (w x : Nat) : popc w x = (List.range w).countP (fun j => x.testBit j) := by
  rw [popc, countBelow, List.countP_eq_length_filter]
  congr 1
  exact List.filter_congr (fun i _ => bitOf_eq_testBit x i)

/-- The leading zeros of a lane: what lies above them is clear, and the bit below them is set. -/
theorem clz_spec (w x : Nat) (hx : x < 2 ^ w) :
    clz w x ≤ w ∧ x < 2 ^ (w - clz w x) ∧ (clz w x < w → 2 ^ (w - 1 - clz w x) ≤ x) := by
  induction w with
  | zero => simpa [clz] using hx
  | succ w ih =>
    have hp : 0 < 2 ^ w := Nat.two_pow_pos w
    have hb : bitOf x w = decide (2 ^ w ≤ x) := by
      unfold bitOf
      by_cases h : 2 ^ w ≤ x
      · have : x / 2 ^ w = 1 := by
          rw [Nat.div_eq_iff hp]; rw [Nat.pow_succ] at hx; omega
        simp [this, h]
      · have : x / 2 ^ w = 0 := Nat.div_eq_of_lt (by omega)
        simp [this, h]
    have hc : clz (w + 1) x = if 2 ^ w ≤ x then 0 else 1 + clz w x := by
      unfold clz
      rw [List.range_succ, List.reverse_append, List.reverse_singleton, List.singleton_append, List.takeWhile_cons, hb]
      by_cases h : 2 ^ w ≤ x
      · simp [h]
      · simp [h]; omega
    rw [hc]
    by_cases h : 2 ^ w ≤ x
    · simp only [h, if_true]
      exact ⟨by omega, by simpa using hx, fun _ => by simpa using h⟩
    · obtain ⟨h1, h2, h3⟩ := ih (by omega)
      simp only [h, if_false]
      refine ⟨by omega, ?_, fun hlt => ?_⟩
      · rw [show w + 1 - (1 + clz w x) = w - clz w x by omega]; exact h2
      · rw [show w + 1 - 1 - (1 + clz w x) = w - 1 - clz w x by omega]; exact h3 (by omega)

/-- A rotated lane: bit j goes to bit j + m, modulo the width. -/
theorem rot_spec {w a : Nat} (hw : 0 < w) (ha : a < 2 ^ w) (b j : Nat) (hj : j < w) :
    ((laneRot w a b).val % 2 ^ w).testBit ((j + b % 64) % w) = a.testBit j := by
  have hm : b % 64 % w < w := Nat.mod_lt _ hw
  have hjm : (j + b % 64) % w = (j + b % 64 % w) % w := by
    rw [Nat.add_mod, Nat.add_mod j (b % 64 % w), Nat.mod_mod]
  rw [hjm]
  show ((a * 2 ^ (b % 64 % w) % 2 ^ w + a / 2 ^ (w - b % 64 % w)) % 2 ^ w).testBit _ = _
  generalize b % 64 % w = m at *
  have hsplit : 2 ^ w = 2 ^ m * 2 ^ (w - m) := by rw [← Nat.pow_add]; congr 1; omega
  have h1 : a * 2 ^ m % 2 ^ w = 2 ^ m * (a % 2 ^ (w - m)) := by
    rw [hsplit, Nat.mul_comm a, Nat.mul_mod_mul_left]
  have h2 : a / 2 ^ (w - m) < 2 ^ m := by
    rw [Nat.div_lt_iff_lt_mul (Nat.two_pow_pos _)]
    rw [hsplit] at ha; exact ha
  rw [h1, Nat.testBit_mod_two_pow]
  rw [Nat.testBit_two_pow_mul_add _ h2]
  by_cases h : j + m < w
  · rw [Nat.mod_eq_of_lt h]
    have : ¬ j + m < m := by omega
    simp only [h, decide_true, Bool.true_and, this, if_false, Nat.add_sub_cancel, Nat.testBit_mod_two_pow]
    have : j < w - m := by omega
    simp [this]
  · have e : (j + m) % w = j + m - w := by
      rw [Nat.mod_eq_sub_mod (by omega), Nat.mod_eq_of_lt (by omega)]
    rw [e]
    have h3 : j + m - w < w := by omega
    have h4 : j + m - w < m := by omega
    simp only [h3, decide_true, Bool.true_and, h4, if_true, Nat.testBit_div_two_pow]
    congr 1; omega

/-- The rounded quotient of the model and the one of R151 agree. -/
theorem rnd_eq (x : Int) (k w : Nat) : rnd x k w = fit w true (roundAway x k) := by
  have hm : (if k = 0 then x.natAbs else (x.natAbs + 2 ^ (k - 1)) / 2 ^ k) = (2 * x.natAbs + 2 ^ k) / 2 ^ (k + 1) := by
    split
    · next h => subst h; omega
    · next h =>
      have e : (2 : Nat) ^ k = 2 * 2 ^ (k - 1) := by rw [← Nat.pow_succ']; congr 1; omega
      rw [Nat.pow_succ, Nat.mul_comm (2 ^ k) 2, ← Nat.div_div_eq_div_mul]
      congr 1; omega
  unfold rnd roundAway
  rw [hm]
  simp only
  congr 1
  obtain h | h | h := lt_trichotomy x 0
  · rw [if_pos h, Int.sign_eq_neg_one_of_neg h]; simp
  · rw [h]
    have : (2 * (0 : Int).natAbs + 2 ^ k) / 2 ^ (k + 1) = 0 := by
      apply Nat.div_eq_of_lt
      have := Nat.two_pow_pos k
      rw [Nat.pow_succ, Int.natAbs_zero]; omega
    rw [this]; simp
  · rw [if_neg (by omega), Int.sign_eq_one_of_pos h]; simp

/-- A word lane shifted right stays in its own range (R151). -/
theorem fits_roundAway {w : Nat} {x : Int} (hx : fits w x) (k : Nat) : fits w (roundAway x k) := by
  have hn : (2 * x.natAbs + 2 ^ k) / 2 ^ (k + 1) ≤ x.natAbs := by
    have hp := Nat.two_pow_pos k
    rw [Nat.div_le_iff_le_mul_add_pred (Nat.two_pow_pos _), Nat.pow_succ]
    have : 2 * x.natAbs ≤ 2 ^ k * 2 * x.natAbs := Nat.mul_le_mul_right _ (by omega)
    rcases Nat.eq_zero_or_pos x.natAbs with h | h
    · rw [h]; omega
    · omega
  obtain ⟨ha, hb⟩ := hx
  unfold roundAway
  generalize (2 * x.natAbs + 2 ^ k) / 2 ^ (k + 1) = q at *
  have hpos : (1 : Int) ≤ 2 ^ (w - 1) := one_le_pow₀ (by decide)
  obtain h | h | h := lt_trichotomy x 0
  · rw [Int.sign_eq_neg_one_of_neg h]; constructor <;> omega
  · subst h
    constructor <;> (simp only [Int.sign_zero, Int.zero_mul]; omega)
  · rw [Int.sign_eq_one_of_pos h]; constructor <;> omega

/-- ACC put together from its lanes, low lane first. -/
theorem joinAcc_sum (w : Nat) (f : Nat → Nat) :
    ∃ g : Nat → Nat, joinAcc w f = BitVec.ofNat 72 ((List.range (32 / w)).foldl (fun a i => a + g i) 0) ∧
      ∀ i, g i = 2 ^ (accWidth w * i) * (f i % 2 ^ accWidth w) :=
  ⟨fun i => f i % 2 ^ accWidth w * 2 ^ (accWidth w * i), rfl, fun _ => Nat.mul_comm _ _⟩

/-- A lane of ACC is the value put into it (Table 8.7). -/
theorem accLane_joinAcc {w i : Nat} (hw : w = 32 ∨ w = 16 ∨ w = 8) (f : Nat → Nat) (hi : i < 32 / w) :
    accLane w (joinAcc w f) i = signed (accWidth w) (f i) := by
  obtain ⟨g, h, hg⟩ := joinAcc_sum w f
  have key : (joinAcc w f).toNat / 2 ^ (accWidth w * i) % 2 ^ accWidth w = f i % 2 ^ accWidth w := by
    have h72 : (2 : Nat) ^ 72 = 4722366482869645213696 := by norm_num
    rw [h, BitVec.toNat_ofNat, h72]
    obtain rfl | rfl | rfl := hw
    · have hr : List.range (32 / 32) = [0] := by decide
      have ha : accWidth 32 = 72 := rfl
      obtain rfl : i = 0 := by omega
      have h0 := hg 0
      have p0 : (2 : Nat) ^ (72 * 0) = 1 := by norm_num
      rw [ha, h72, p0] at h0
      rw [hr, ha, h72, p0]
      simp only [List.foldl_cons, List.foldl_nil]
      omega
    · have hr : List.range (32 / 16) = [0, 1] := by decide
      have ha : accWidth 16 = 36 := rfl
      have h0 := hg 0
      have h1 := hg 1
      have p0 : (2 : Nat) ^ (36 * 0) = 1 := by norm_num
      have p1 : (2 : Nat) ^ (36 * 1) = 68719476736 := by norm_num
      have pw : (2 : Nat) ^ 36 = 68719476736 := by norm_num
      rw [ha, pw, p0] at h0
      simp only [ha, pw] at h1
      rw [hr, ha, pw]
      simp only [List.foldl_cons, List.foldl_nil]
      obtain rfl | rfl : i = 0 ∨ i = 1 := by omega
      · rw [p0]; omega
      · simp only [p1]; omega
    · have hr : List.range (32 / 8) = [0, 1, 2, 3] := by decide
      have ha : accWidth 8 = 18 := rfl
      have h0 := hg 0
      have h1 := hg 1
      have h2 := hg 2
      have h3 := hg 3
      have p0 : (2 : Nat) ^ (18 * 0) = 1 := by norm_num
      have p1 : (2 : Nat) ^ (18 * 1) = 262144 := by norm_num
      have p2 : (2 : Nat) ^ (18 * 2) = 68719476736 := by norm_num
      have p3 : (2 : Nat) ^ (18 * 3) = 18014398509481984 := by norm_num
      have pw : (2 : Nat) ^ 18 = 262144 := by norm_num
      rw [ha, pw, p0] at h0
      simp only [ha, pw] at h1
      rw [ha, pw, p2] at h2
      rw [ha, pw, p3] at h3
      rw [hr, ha, pw]
      simp only [List.foldl_cons, List.foldl_nil]
      obtain rfl | rfl | rfl | rfl : i = 0 ∨ i = 1 ∨ i = 2 ∨ i = 3 := by omega
      · rw [p0]; omega
      · simp only [p1]; omega
      · rw [p2]; omega
      · rw [p3]; omega
  unfold accLane
  rw [← signed_mod, key, signed_mod]

/-- The effect that a MAC or MSU firing puts into the pipeline: `acc` is the new ACC and `v` its overflow. -/
def macEffect (h p : Nat) (r : Record) (a : Word) (dump : Bool) (acc : BitVec 72) (v : Bool) : InFlight :=
  { hearth := h, plane := p, left := if dump then 4 else 1,
    result := if dump then some (dumpRes r acc).word else if r.mout then none else some a,
    wb := if dump || !r.mout then r.wbReg else none,
    setZN := if dump then (dumpRes r acc).zn else none, setC := none,
    sticky := putBit 0#3 0 (v || (dump && (dumpRes r acc).v)), fclr := r.fclr, regs := [] }

/-- What a MAC or MSU firing does to its gallery. -/
theorem macAct_eq {minus : Bool} {g h p : Nat} {r : Record} {a b c : Word} {s : State} {acc : BitVec 72} {v : Bool}
    (hp : (s.gal g).active = p) (hn : accumulate r minus a b ((s.gal g).accOf p h) = (acc, v)) :
    macAct minus g h r a b c s =
      (s.modGal g (fun y => y.push (macEffect h p r a (r.mout && c.getLsbD 0) acc v))).modGal g (fun y => { y with
        acc := tabSet 0 y.acc (p * 128 + h) (if r.mout && c.getLsbD 0 then 0 else acc)
        planes := tabMod Plane.reset y.planes p (fun q =>
          { q with accLive := putBit q.accLive h (!(r.mout && c.getLsbD 0)), accKept := false }) }) := by
  subst hp
  unfold macAct macEffect
  simp only [hn]
  rfl

end Sys2Proof.Machine
end

