-- ==== Sys2Proof/Laws/Sequencer.lean ====
section
/-!
SUPPORT. What the issue of a sequencer instruction does, said once.
-/

namespace Sys2Proof.Machine

theorem reservedOp_iff (w : Word) : reservedOp w = true ↔ (opOf w = 0xE ∨ opOf w = 0xF ∨ 0x14 ≤ opOf w) := by
  simp [reservedOp]

/-- An instruction that can issue, is not faulty and does not run off the store runs its effect. -/
theorem issue_eq {op last : Nat} {transfers : Seq → Word → Bool} {bad : State → Seq → Word → Option Nat}
    {act : Nat → Word → State → State} {g : Nat} {s : State} (hi : s.Issues g op last)
    (hop : ¬ (op = 0xE ∨ op = 0xF ∨ 0x14 ≤ op)) (hl : last ≤ 1023) (hb : bad s (s.gal g).seq (s.issueWord g) = none)
    (ht : last ≤ 1022 ∨ transfers (s.gal g).seq (s.issueWord g) = true) :
    issue op transfers bad act g s = act g (s.issueWord g) (markIssued g s) := by
  have h1 : ¬ 1023 < (s.gal g).seq.pc := by have := hi.inside; omega
  have h2 : reservedOp (s.issueWord g) = false := by
    rw [Bool.eq_false_iff, Ne, reservedOp_iff, hi.here]; exact hop
  have h3 : opOf (s.issueWord g) = op := hi.here
  have h4 : ¬ ((s.gal g).seq.pc = 1023 ∧ transfers (s.gal g).seq (s.issueWord g) = false) := by
    rintro ⟨h5, h6⟩
    rcases ht with h | h
    · have := hi.inside; omega
    · rw [h] at h6; exact absurd h6 (by decide)
  unfold issue
  unfold State.issueWord at *
  simp only [hi.can, if_true, h1, if_false, h2, h3, hb, h4, Bool.false_eq_true]

theorem canIssue_issuing {s : State} {g : Nat} (h : s.canIssue g = true) :
    s.live g = true ∧ (s.gal g).seq.damped = false ∧ (s.gal g).seq.issued = false ∧ (s.gal g).seq.st = .issuing := by
  simp only [State.canIssue, Bool.and_eq_true, Bool.not_eq_true', decide_eq_true_eq] at h
  exact ⟨h.1.1.1, h.1.1.2, h.1.2, h.2⟩

theorem gal_markIssued (s : State) (g : Nat) :
    (markIssued g s).gal g = { s.gal g with seq := { (s.gal g).seq with issued := true, wdog := 0 } } := by
  simp [markIssued]

theorem gal_markIssued_ne (s : State) (g k : Nat) (h : k ≠ g) : (markIssued g s).gal k = s.gal k := by
  simp [markIssued, State.gal_modSeq_ne _ _ _ _ h]

theorem par_markIssued (s : State) (g n : Nat) (h : n ∉ [galP g 0x09, galP g 0x0A]) : (markIssued g s).par n = s.par n := by
  simp only [List.mem_cons, List.not_mem_nil, or_false, not_or] at h
  rw [markIssued, par_tally64_ne _ _ _ _ h.1 (by simpa [galP] using h.2)]
  simp

theorem pair_markIssued (s : State) (g : Nat) :
    (markIssued g s).pair (galP g 0x09) = (s.pair (galP g 0x09) + 1) % 2 ^ 64 := by
  rw [markIssued, pair_tally64]
  simp [State.pair]

/-- A change of the sequencer's state after its issue is counted is one Issued step. -/
theorem issued_modSeq {s : State} {g : Nat} {f : Seq → Seq} {q : Seq}
    (h : f { (s.gal g).seq with issued := true, wdog := 0 } = { q with issued := true, wdog := 0 }) :
    s.Issued ((markIssued g s).modSeq g f) g q where
  only := by
    refine ⟨fun k hk => ?_, fun n hn => ?_, rfl⟩
    · rw [State.gal_modSeq_ne _ _ _ _ hk, gal_markIssued_ne _ _ _ hk]
    · rw [State.par_modSeq, par_markIssued _ _ _ hn]
  gal := by rw [State.gal_modSeq_same, gal_markIssued]; simp only [h]
  count := by
    have : ((markIssued g s).modSeq g f).pair (galP g 0x09) = (markIssued g s).pair (galP g 0x09) := by simp [State.pair]
    rw [this, pair_markIssued]

theorem issued_markIssued (s : State) (g : Nat) : s.Issued (markIssued g s) g (s.gal g).seq where
  only := ⟨fun _ hk => gal_markIssued_ne _ _ _ hk, fun _ hn => par_markIssued _ _ _ hn, rfl⟩
  gal := gal_markIssued s g
  count := pair_markIssued s g

/-- The sequencer changes on after its issue. -/
theorem State.Issued.modSeq {s t : State} {g : Nat} {q q' : Seq} {f : Seq → Seq} (h : s.Issued t g q)
    (hf : f { q with issued := true, wdog := 0 } = { q' with issued := true, wdog := 0 }) :
    s.Issued (t.modSeq g f) g q' where
  only := by
    refine ⟨fun k hk => ?_, fun n hn => ?_, ?_⟩
    · rw [State.gal_modSeq_ne _ _ _ _ hk, h.only.gals k hk]
    · rw [State.par_modSeq, h.only.params n hn]
    · have := h.only.rest
      rw [this]; rfl
  gal := by rw [State.gal_modSeq_same, h.gal]; simp only [hf]
  count := by
    have : (t.modSeq g f).pair (galP g 0x09) = t.pair (galP g 0x09) := by simp [State.pair]
    rw [this, h.count]

/-- A change of the gallery that leaves the sequencer alone commutes with an issue. -/
theorem State.Issued.modGal {s t : State} {g : Nat} {q : Seq} {f : Gallery → Gallery} (h : s.Issued t g q)
    (hf : ∀ x k, f { x with seq := k } = { f x with seq := k }) : (s.modGal g f).Issued (t.modGal g f) g q where
  only := by
    refine ⟨fun k hk => ?_, fun n hn => ?_, ?_⟩
    · rw [State.gal_modGal_ne _ _ _ _ hk, State.gal_modGal_ne _ _ _ _ hk, h.only.gals k hk]
    · rw [State.par_modGal, State.par_modGal, h.only.params n hn]
    · have := h.only.rest
      rw [this]; rfl
  gal := by rw [State.gal_modGal_same, State.gal_modGal_same, h.gal, hf]
  count := by
    have e1 : (t.modGal g f).pair (galP g 0x09) = t.pair (galP g 0x09) := by simp [State.pair]
    have e2 : (s.modGal g f).pair (galP g 0x09) = s.pair (galP g 0x09) := by simp [State.pair]
    rw [e1, e2, h.count]

theorem rest_count {s t : State} (h : t = { s with gals := t.gals, params := t.params }) (n k : Nat) :
    t.count n k = { s.count n k with gals := (t.count n k).gals, params := (t.count n k).params } := by
  rw [h]; rfl

/-- A count of another parameter commutes with an issue. -/
theorem State.Issued.counted {s t : State} {g n k : Nat} {q : Seq} (h : s.Issued t g q)
    (hn : n ∉ [galP g 0x09, galP g 0x0A]) : (s.count n k).Issued (t.count n k) g q where
  only := by
    refine ⟨fun j hj => ?_, fun m hm => ?_, rest_count h.only.rest n k⟩
    · simp only [State.gal_count, h.only.gals j hj]
    · by_cases e : m = n
      · subst e
        have e1 : ∀ u : State, (u.count m k).par m = wd (Min.min 0xFFFFFFFF ((u.par m).toNat + k)) := fun u => by simp
        rw [e1, e1, h.only.params m hm]
      · rw [State.par_count_ne _ _ _ _ e, State.par_count_ne _ _ _ _ e, h.only.params m hm]
  gal := by simp only [State.gal_count, h.gal]
  count := by
    simp only [List.mem_cons, List.not_mem_nil, or_false, not_or] at hn
    have e : ∀ u : State, (u.count n k).pair (galP g 0x09) = u.pair (galP g 0x09) := by
      intro u
      have h1 : galP g 0x09 ≠ n := fun h => hn.1 h.symm
      have h2 : galP g 0x09 + 1 ≠ n := fun h => hn.2 (by rw [← h]; simp [galP])
      simp only [State.pair, State.par_count_ne _ _ _ _ h1, State.par_count_ne _ _ _ _ h2]
    rw [e, e, h.count]

/-- A raise commutes with an issue. -/
theorem State.Issued.raised {s t : State} {g e : Nat} {l : List Byte} {q : Seq} (h : s.Issued t g q) :
    (s.raise e l).Issued (t.raise e l) g q where
  only := by
    refine ⟨fun j hj => ?_, fun m hm => ?_, ?_⟩
    · simp only [State.gal_raise, h.only.gals j hj]
    · simp only [State.par_raise, h.only.params m hm]
    · have := h.only.rest
      rw [this]
      unfold State.raise State.canRaise
      simp only
      split <;> rfl
  gal := by simp only [State.gal_raise, h.gal]
  count := by
    have e : ∀ u : State, (u.raise e l).pair (galP g 0x09) = u.pair (galP g 0x09) := by intro u; simp [State.pair]
    rw [e, e, h.count]

/-- A prefetch queued at an issue. -/
theorem State.Issued.prefetched {s t : State} {g c : Nat} {q : Seq} (h : s.Issued t g q) :
    (queuePrefetch g c s).Issued (queuePrefetch g c t) g q := by
  have e : t.gal g = { s.gal g with seq := { q with issued := true, wdog := 0 } } := h.gal
  have e1 : (!((t.gal g).desc c).defined || ((t.gal g).planeOf c).isSome || ((t.gal g).fillingOf c).isSome ||
      (t.gal g).prefetch.contains c || decide ((t.gal g).demand = some c)) =
    (!((s.gal g).desc c).defined || ((s.gal g).planeOf c).isSome || ((s.gal g).fillingOf c).isSome ||
      (s.gal g).prefetch.contains c || decide ((s.gal g).demand = some c)) := by rw [e]; rfl
  have e2 : (t.gal g).prefetch = (s.gal g).prefetch := by rw [e]
  have h7 : galP g 0x77 ∉ [galP g 0x09, galP g 0x0A] := by
    simp only [galP, List.mem_cons, List.not_mem_nil, or_false, not_or]; omega
  unfold queuePrefetch
  simp only [e1]
  split
  · exact h
  · rw [e2]
    split
    · exact h.counted h7
    · exact h.modGal (fun _ _ => rfl)

end Sys2Proof.Machine
end

