-- ==== Sys2Proof/Laws/Blocks.lean ====
section
/-!
SUPPORT. What a key of a sparse table reads as after a block of keys was replaced or put back.
-/
namespace Sys2Proof.Machine

theorem tabGet_append (d : α) (t u : Tab α) (n : Nat) :
    tabGet d (t ++ u) n = if n ∈ t.map (·.1) then tabGet d t n else tabGet d u n := by
  induction t with
  | nil => simp
  | cons p r ih =>
    obtain ⟨k, v⟩ := p
    simp only [List.cons_append, tabGet, List.map_cons, List.mem_cons]
    by_cases h : k = n
    · simp [h]
    · rw [if_neg h, ih]
      simp only [show ¬ n = k from fun e => h e.symm, false_or, if_neg h]

theorem tabGet_filter (d : α) (t : Tab α) (p : Nat → Bool) (n : Nat) :
    tabGet d (t.filter (fun q => p q.1)) n = if p n then tabGet d t n else d := by
  induction t with
  | nil => simp [tabGet]
  | cons q r ih =>
    obtain ⟨k, v⟩ := q
    by_cases hk : p k = true
    · rw [List.filter_cons_of_pos (by simpa using hk)]
      simp only [tabGet, ih]
      by_cases h : k = n
      · subst h; simp [hk]
      · simp [h]
    · rw [List.filter_cons_of_neg (by simpa using hk), ih]
      by_cases h : k = n
      · subst h; simp [hk]
      · simp [tabGet, h]

theorem tabGet_not_mem (d : α) (t : Tab α) (n : Nat) (h : n ∉ t.map (·.1)) : tabGet d t n = d := by
  induction t with
  | nil => rfl
  | cons q r ih =>
    obtain ⟨k, v⟩ := q
    simp only [List.map_cons, List.mem_cons, not_or] at h
    simp only [tabGet, if_neg (fun e : k = n => h.1 e.symm), ih h.2]

theorem tabGet_range [DecidableEq α] (d : α) (lo : Nat) (f : Nat → α) (n k : Nat) :
    tabGet d ((List.range n).filterMap (fun i => if f i = d then none else some (lo + i, f i))) k =
      if lo ≤ k ∧ k < lo + n then f (k - lo) else d := by
  induction n with
  | zero => simp
  | succ n ih =>
    rw [List.range_succ, List.filterMap_append, tabGet_append, ih]
    have hm : k ∈ ((List.range n).filterMap (fun i => if f i = d then none else some (lo + i, f i))).map (·.1) ↔
        (lo ≤ k ∧ k < lo + n ∧ f (k - lo) ≠ d) := by
      simp only [List.mem_map, List.mem_filterMap, List.mem_range]
      constructor
      · rintro ⟨⟨a, b⟩, ⟨i, hi, h⟩, rfl⟩
        split at h
        · cases h
        · cases h
          exact ⟨by omega, by simp; omega, by simpa using ‹_›⟩
      · rintro ⟨h1, h2, h3⟩
        refine ⟨(k, f (k - lo)), ⟨k - lo, by omega, ?_⟩, rfl⟩
        rw [if_neg h3, Nat.add_sub_cancel' h1]
    by_cases h : k ∈ ((List.range n).filterMap (fun i => if f i = d then none else some (lo + i, f i))).map (·.1)
    · rw [if_pos h]
      obtain ⟨h1, h2, h3⟩ := hm.1 h
      rw [if_pos ⟨h1, h2⟩, if_pos ⟨h1, by omega⟩]
    · rw [if_neg h]
      have h' := fun c => h (hm.2 c)
      by_cases e : k = lo + n
      · subst e
        rw [if_pos ⟨by omega, by omega⟩]
        have : lo + n - lo = n := by omega
        rw [this]
        by_cases hf : f n = d
        · simp [List.filterMap, hf]
        · simp [List.filterMap, hf, tabGet]
      · have e1 : tabGet d (List.filterMap (fun i => if f i = d then none else some (lo + i, f i)) [n]) k = d := by
          by_cases hf : f n = d
          · simp [List.filterMap, hf]
          · simp only [List.filterMap, hf, tabGet, if_false]
            rw [if_neg (fun h => e h.symm)]
        rw [e1]
        by_cases hr : lo ≤ k ∧ k < lo + (n + 1)
        · rw [if_pos hr]
          by_contra hne
          exact h' ⟨hr.1, by omega, fun hh => hne hh.symm⟩
        · rw [if_neg hr]

/-- What a key reads as after a block of keys was replaced. -/
theorem tabGet_tabBlock [DecidableEq α] (d : α) (t : Tab α) (lo n : Nat) (f : Nat → α) (k : Nat) :
    tabGet d (tabBlock d t lo n f) k = if lo ≤ k ∧ k < lo + n then f (k - lo) else tabGet d t k := by
  unfold tabBlock
  have e1 := tabGet_filter d t (fun a => decide (a < lo)) k
  have e2 := tabGet_filter d t (fun a => decide (lo + n ≤ a)) k
  simp only [decide_eq_true_eq] at e1 e2
  rw [tabGet_append, tabGet_append, tabGet_range, e1, e2]
  by_cases h1 : k ∈ (t.filter (fun p => decide (p.1 < lo))).map (·.1)
  · have : k < lo := by
      simp only [List.mem_map, List.mem_filter, decide_eq_true_eq] at h1
      obtain ⟨a, ⟨-, h⟩, rfl⟩ := h1
      exact h
    rw [if_pos h1, if_pos this, if_neg (by omega)]
  · rw [if_neg h1]
    have h1' : k < lo → tabGet d t k = d := by
      intro hk
      have := tabGet_not_mem d _ k h1
      rw [e1, if_pos hk] at this
      exact this
    by_cases h2 : k ∈ ((List.range n).filterMap (fun i => if f i = d then none else some (lo + i, f i))).map (·.1)
    · rw [if_pos h2]
      simp only [List.mem_map, List.mem_filterMap, List.mem_range] at h2
      obtain ⟨⟨a, b⟩, ⟨i, hi, h⟩, rfl⟩ := h2
      split at h
      · cases h
      · cases h
        rw [if_pos (by simp; omega), if_pos (by simp; omega)]
    · rw [if_neg h2]
      have h2' := tabGet_not_mem d _ k h2
      rw [tabGet_range] at h2'
      by_cases hr : lo ≤ k ∧ k < lo + n
      · rw [if_pos hr] at h2' ⊢
        rw [if_neg (by omega), h2']
      · rw [if_neg hr]
        by_cases hh : lo + n ≤ k
        · rw [if_pos hh]
        · rw [if_neg hh, h1' (by omega)]

/-- What a key reads as after a block of keys was put back. -/
theorem tabGet_tabClear (d : α) (t : Tab α) (lo n k : Nat) :
    tabGet d (tabClear t lo n) k = if lo ≤ k ∧ k < lo + n then d else tabGet d t k := by
  unfold tabClear
  rw [tabGet_filter d t (fun a => decide (a < lo ∨ lo + n ≤ a)) k]
  simp only [decide_eq_true_eq]
  by_cases h : lo ≤ k ∧ k < lo + n
  · rw [if_pos h, if_neg (by omega)]
  · rw [if_neg h, if_pos (by omega)]

end Sys2Proof.Machine
end

