-- ==== Sys2Proof/Laws/KeepGallery.lean ====
section
/-!
SUPPORT. What no command does: no operation of the model touches the queue of waiting commands or the variant.  Here:
the commands of a gallery: hearths, taps, banks, switches, contexts and sequencer.
-/

namespace Sys2Proof.Machine

@[simp] theorem foldl_keeps {α : Type} (f : State → α → State)
    (h : ∀ s a, (f s a).pending = s.pending ∧ (f s a).variant = s.variant) (l : List α) (s : State) :
    (l.foldl f s).pending = s.pending ∧ (l.foldl f s).variant = s.variant := by
  induction l generalizing s with
  | nil => exact ⟨rfl, rfl⟩
  | cons a r ih => simp only [List.foldl_cons]; rw [(ih _).1, (ih _).2]; exact h s a

theorem foldl_keeps' {α : Type} (f : State → α → State)
    (h : ∀ s a, (f s a).pending = s.pending ∧ (f s a).variant = s.variant) (l : List α) (s u : State)
    (hs : s.pending = u.pending ∧ s.variant = u.variant) :
    (l.foldl f s).pending = u.pending ∧ (l.foldl f s).variant = u.variant := by
  rw [(foldl_keeps f h l s).1, (foldl_keeps f h l s).2]; exact hs

theorem foldl_keeps_snd {α β : Type} (f : β × State → α → β × State)
    (h : ∀ p a, (f p a).2.pending = p.2.pending ∧ (f p a).2.variant = p.2.variant) (l : List α) (p : β × State)
    (u : State) (hs : p.2.pending = u.pending ∧ p.2.variant = u.variant) :
    (l.foldl f p).2.pending = u.pending ∧ (l.foldl f p).2.variant = u.variant := by
  induction l generalizing p with
  | nil => exact hs
  | cons a r ih => exact ih _ ⟨(h p a).1.trans hs.1, (h p a).2.trans hs.2⟩

@[simp] theorem ite_pending (c : Prop) [Decidable c] (a b : State) :
    (if c then a else b).pending = if c then a.pending else b.pending := by split <;> rfl

@[simp] theorem ite_variant (c : Prop) [Decidable c] (a b : State) :
    (if c then a else b).variant = if c then a.variant else b.variant := by split <;> rfl

@[simp] theorem discard_keeps (g n : Nat) (s : State) :
    (discard g n s).pending = s.pending ∧ (discard g n s).variant = s.variant := by
  simp [discard]

@[simp] theorem fire_keeps (op : Nat) (sel : Record → List Nat) (iv : Record → Nat) (room : Gallery → Bool) (act :
    Record → Word → Word → Word → State → State) (g h : Nat) (s : State) (hact : ∀ x0 x1 x2 x3 x4, (act x0 x1 x2 x3
    x4).pending = x4.pending ∧ (act x0 x1 x2 x3 x4).variant = x4.variant) :
    (fire op sel iv room act g h s).pending = s.pending ∧ (fire op sel iv room act g h s).variant = s.variant := by
  unfold fire
  (repeat' split) <;> simp_all

@[simp] theorem pushPipe_keeps (g : Nat) (e : InFlight) (s : State) :
    (pushPipe g e s).pending = s.pending ∧ (pushPipe g e s).variant = s.variant := ⟨rfl, rfl⟩

@[simp] theorem pushRes_keeps (lat g h : Nat) (r : Record) (e : WordRes) (s : State) :
    (pushRes lat g h r e s).pending = s.pending ∧ (pushRes lat g h r e s).variant = s.variant := ⟨rfl, rfl⟩

@[simp] theorem fireA_keeps (op lat : Nat) (f : Record → Word → WordRes) (g h : Nat) (s : State) :
    (fireA op lat f g h s).pending = s.pending ∧ (fireA op lat f g h s).variant = s.variant := by
  simp [fireA]

@[simp] theorem fireAB_keeps (op lat : Nat) (iv : Record → Nat) (f : Record → Word → Word → WordRes) (g h : Nat) (s
    : State) :
    (fireAB op lat iv f g h s).pending = s.pending ∧ (fireAB op lat iv f g h s).variant = s.variant := by
  simp [fireAB]

theorem execPass_keeps (g h : Nat) (s : State) (u : State) (e : execPass g h s = .next u) :
    u.pending = s.pending ∧ u.variant = s.variant := by
  unfold execPass at e
  injection e with e; subst e; simp

theorem execDly_keeps (g h : Nat) (s : State) (u : State) (e : execDly g h s = .next u) :
    u.pending = s.pending ∧ u.variant = s.variant := by
  unfold execDly at e
  injection e with e; subst e; simp

theorem execAdd_keeps (g h : Nat) (s : State) (u : State) (e : execAdd g h s = .next u) :
    u.pending = s.pending ∧ u.variant = s.variant := by
  unfold execAdd at e
  injection e with e; subst e; simp

theorem execSub_keeps (g h : Nat) (s : State) (u : State) (e : execSub g h s = .next u) :
    u.pending = s.pending ∧ u.variant = s.variant := by
  unfold execSub at e
  injection e with e; subst e; simp

theorem execNeg_keeps (g h : Nat) (s : State) (u : State) (e : execNeg g h s = .next u) :
    u.pending = s.pending ∧ u.variant = s.variant := by
  unfold execNeg at e
  injection e with e; subst e; simp

theorem execAbs_keeps (g h : Nat) (s : State) (u : State) (e : execAbs g h s = .next u) :
    u.pending = s.pending ∧ u.variant = s.variant := by
  unfold execAbs at e
  injection e with e; subst e; simp

theorem execMin_keeps (g h : Nat) (s : State) (u : State) (e : execMin g h s = .next u) :
    u.pending = s.pending ∧ u.variant = s.variant := by
  unfold execMin at e
  injection e with e; subst e; simp

theorem execMax_keeps (g h : Nat) (s : State) (u : State) (e : execMax g h s = .next u) :
    u.pending = s.pending ∧ u.variant = s.variant := by
  unfold execMax at e
  injection e with e; subst e; simp

theorem execAnd_keeps (g h : Nat) (s : State) (u : State) (e : execAnd g h s = .next u) :
    u.pending = s.pending ∧ u.variant = s.variant := by
  unfold execAnd at e
  injection e with e; subst e; simp

theorem execOr_keeps (g h : Nat) (s : State) (u : State) (e : execOr g h s = .next u) :
    u.pending = s.pending ∧ u.variant = s.variant := by
  unfold execOr at e
  injection e with e; subst e; simp

theorem execXor_keeps (g h : Nat) (s : State) (u : State) (e : execXor g h s = .next u) :
    u.pending = s.pending ∧ u.variant = s.variant := by
  unfold execXor at e
  injection e with e; subst e; simp

theorem execNot_keeps (g h : Nat) (s : State) (u : State) (e : execNot g h s = .next u) :
    u.pending = s.pending ∧ u.variant = s.variant := by
  unfold execNot at e
  injection e with e; subst e; simp

theorem execShl_keeps (g h : Nat) (s : State) (u : State) (e : execShl g h s = .next u) :
    u.pending = s.pending ∧ u.variant = s.variant := by
  unfold execShl at e
  injection e with e; subst e; simp

theorem execShr_keeps (g h : Nat) (s : State) (u : State) (e : execShr g h s = .next u) :
    u.pending = s.pending ∧ u.variant = s.variant := by
  unfold execShr at e
  injection e with e; subst e; simp

theorem execShra_keeps (g h : Nat) (s : State) (u : State) (e : execShra g h s = .next u) :
    u.pending = s.pending ∧ u.variant = s.variant := by
  unfold execShra at e
  injection e with e; subst e; simp

theorem execRot_keeps (g h : Nat) (s : State) (u : State) (e : execRot g h s = .next u) :
    u.pending = s.pending ∧ u.variant = s.variant := by
  unfold execRot at e
  injection e with e; subst e; simp

theorem execClz_keeps (g h : Nat) (s : State) (u : State) (e : execClz g h s = .next u) :
    u.pending = s.pending ∧ u.variant = s.variant := by
  unfold execClz at e
  injection e with e; subst e; simp

theorem execPopc_keeps (g h : Nat) (s : State) (u : State) (e : execPopc g h s = .next u) :
    u.pending = s.pending ∧ u.variant = s.variant := by
  unfold execPopc at e
  injection e with e; subst e; simp

theorem execMul_keeps (g h : Nat) (s : State) (u : State) (e : execMul g h s = .next u) :
    u.pending = s.pending ∧ u.variant = s.variant := by
  unfold execMul at e
  injection e with e; subst e; simp

theorem execMulh_keeps (g h : Nat) (s : State) (u : State) (e : execMulh g h s = .next u) :
    u.pending = s.pending ∧ u.variant = s.variant := by
  unfold execMulh at e
  injection e with e; subst e; simp

@[simp] theorem macAct_keeps (minus : Bool) (g h : Nat) (r : Record) (a b c : Word) (s : State) :
    (macAct minus g h r a b c s).pending = s.pending ∧ (macAct minus g h r a b c s).variant = s.variant := ⟨rfl, rfl⟩

theorem execMac_keeps (g h : Nat) (s : State) (u : State) (e : execMac g h s = .next u) :
    u.pending = s.pending ∧ u.variant = s.variant := by
  unfold execMac at e
  injection e with e; subst e; simp

theorem execMsu_keeps (g h : Nat) (s : State) (u : State) (e : execMsu g h s = .next u) :
    u.pending = s.pending ∧ u.variant = s.variant := by
  unfold execMsu at e
  injection e with e; subst e; simp

theorem execRnd_keeps (g h : Nat) (s : State) (u : State) (e : execRnd g h s = .next u) :
    u.pending = s.pending ∧ u.variant = s.variant := by
  unfold execRnd at e
  injection e with e; subst e; simp

theorem execCmp_keeps (g h : Nat) (s : State) (u : State) (e : execCmp g h s = .next u) :
    u.pending = s.pending ∧ u.variant = s.variant := by
  unfold execCmp at e
  injection e with e; subst e; simp

theorem execSel_keeps (g h : Nat) (s : State) (u : State) (e : execSel g h s = .next u) :
    u.pending = s.pending ∧ u.variant = s.variant := by
  unfold execSel at e
  injection e with e; subst e; simp

theorem execDiv_keeps (g h : Nat) (s : State) (u : State) (e : execDiv g h s = .next u) :
    u.pending = s.pending ∧ u.variant = s.variant := by
  unfold execDiv at e
  injection e with e; subst e; simp

theorem execRem_keeps (g h : Nat) (s : State) (u : State) (e : execRem g h s = .next u) :
    u.pending = s.pending ∧ u.variant = s.variant := by
  unfold execRem at e
  injection e with e; subst e; simp

theorem execPack_keeps (g h : Nat) (s : State) (u : State) (e : execPack g h s = .next u) :
    u.pending = s.pending ∧ u.variant = s.variant := by
  unfold execPack at e
  injection e with e; subst e; simp

theorem execUnpk_keeps (g h : Nat) (s : State) (u : State) (e : execUnpk g h s = .next u) :
    u.pending = s.pending ∧ u.variant = s.variant := by
  unfold execUnpk at e
  injection e with e; subst e; simp

theorem execLd_keeps (g h : Nat) (s : State) (u : State) (e : execLd g h s = .next u) :
    u.pending = s.pending ∧ u.variant = s.variant := by
  unfold execLd at e
  injection e with e; subst e; simp

@[simp] theorem fclrOnly_keeps (g h : Nat) (r : Record) (s : State) :
    (fclrOnly g h r s).pending = s.pending ∧ (fclrOnly g h r s).variant = s.variant := by
  simp [fclrOnly]

theorem execSt_keeps (g h : Nat) (s : State) (u : State) (e : execSt g h s = .next u) :
    u.pending = s.pending ∧ u.variant = s.variant := by
  unfold execSt at e
  injection e with e; subst e; simp

@[simp] theorem outWinner_keeps (active : Nat) (l : List InFlight) (s : State) :
    (outWinner active l s).2.pending = s.pending ∧ (outWinner active l s).2.variant = s.variant := by
  induction l generalizing s with
  | nil => exact ⟨rfl, rfl⟩
  | cons e r ih =>
    have h := ih s
    unfold outWinner
    generalize outWinner active r s = q at *
    obtain ⟨a, t⟩ := q
    cases a with
    | none => exact h
    | some w =>
      simp only []
      split
      · exact h
      · split
        · exact h
        · simpa [State.freeBit] using h

@[simp] theorem landEffect_keeps (g : Nat) (e : InFlight) (placed : Bool) (s : State) :
    (landEffect g e placed s).pending = s.pending ∧ (landEffect g e placed s).variant = s.variant := ⟨rfl, rfl⟩

@[simp] theorem landHearth_keeps (g : Nat) (h : Nat) (due : List InFlight) (s : State) :
    (landHearth g h due s).pending = s.pending ∧ (landHearth g h due s).variant = s.variant := by
  simp [landHearth]

@[simp] theorem hearthCycle_keeps (g : Nat) (s : State) :
    (hearthCycle g s).pending = s.pending ∧ (hearthCycle g s).variant = s.variant := by
  simp [hearthCycle]

@[simp] theorem raiseVector_keeps (v : Nat) (s : State) :
    (raiseVector v s).pending = s.pending ∧ (raiseVector v s).variant = s.variant := by
  simp [raiseVector]

@[simp] theorem releaseVectors_keeps (s : State) :
    (releaseVectors s).pending = s.pending ∧ (releaseVectors s).variant = s.variant := by
  simp [releaseVectors]

@[simp] theorem hostWrite_keeps (a : Nat) (b : List Byte) (s : State) :
    (hostWrite a b s).pending = s.pending ∧ (hostWrite a b s).variant = s.variant := ⟨rfl, rfl⟩

@[simp] theorem signalRing_keeps (s : State) :
    (signalRing s).pending = s.pending ∧ (signalRing s).variant = s.variant := by
  simp [signalRing]

@[simp] theorem ringPut_keeps (msg : List Byte) (s : State) :
    (ringPut msg s).pending = s.pending ∧ (ringPut msg s).variant = s.variant := by
  simp [ringPut]

@[simp] theorem deliver_keeps (via : Transport) (ring : Bool) (msg : List Byte) (s : State) :
    (deliver via ring msg s).pending = s.pending ∧ (deliver via ring msg s).variant = s.variant := by
  unfold deliver
  (repeat' split) <;> simp

@[simp] theorem dropCmd_keeps (c : Cmd) (s : State) :
    (dropCmd c s).pending = s.pending ∧ (dropCmd c s).variant = s.variant := ⟨rfl, rfl⟩

@[simp] theorem refuse_keeps (c : Cmd) (status : Nat) (s : State) :
    (refuse c status s).pending = s.pending ∧ (refuse c status s).variant = s.variant := by
  simp [refuse]

@[simp] theorem respondVia_keeps (ring : Bool) (c : Cmd) (status : Nat) (body : List Byte) (s : State) :
    (respondVia ring c status body s).pending = s.pending ∧ (respondVia ring c status body s).variant = s.variant := by
  simp [respondVia]

@[simp] theorem respond_keeps (c : Cmd) (status : Nat) (body : List Byte) (s : State) :
    (respond c status body s).pending = s.pending ∧ (respond c status body s).variant = s.variant := by
  simp [respond]

@[simp] theorem startCmd_keeps (c : Cmd) (s : State) :
    (startCmd c s).pending = s.pending ∧ (startCmd c s).variant = s.variant := ⟨rfl, rfl⟩

@[simp] theorem damperDone_keeps (d : Nat) (ended forced : Bool) (s : State) :
    (damperDone d ended forced s).pending = s.pending ∧ (damperDone d ended forced s).variant = s.variant := by
  simp [damperDone]

@[simp] theorem present_keeps (p : Packet) (s : State) :
    (present p s).pending = s.pending ∧ (present p s).variant = s.variant := ⟨rfl, rfl⟩

@[simp] theorem replyError_keeps (p : Packet) (status : Nat) (s : State) :
    (replyError p status s).pending = s.pending ∧ (replyError p status s).variant = s.variant := ⟨rfl, rfl⟩

@[simp] theorem replyData_keeps (p : Packet) (len : Nat) (data : List Byte) (s : State) :
    (replyData p len data s).pending = s.pending ∧ (replyData p len data s).variant = s.variant := ⟨rfl, rfl⟩

@[simp] theorem request_keeps (src : Target) (p : Packet) (purpose : Purpose) (s : State) :
    (request src p purpose s).pending = s.pending ∧ (request src p purpose s).variant = s.variant := ⟨rfl, rfl⟩

@[simp] theorem modDma_keeps (g id : Nat) (f : Dma → Dma) (s : State) :
    (modDma g id f s).pending = s.pending ∧ (modDma g id f s).variant = s.variant := ⟨rfl, rfl⟩

@[simp] theorem endMemRead_keeps (c : Cmd) (part status : Nat) (data : List Byte) (s : State) :
    (endMemRead c part status data s).pending = s.pending ∧ (endMemRead c part status data s).variant = s.variant := by
  unfold endMemRead
  repeat' (first
    | exact ⟨rfl, rfl⟩
    | (simp; done)
    | (simp_all; done)
    | split
    | (refine foldl_keeps' _ (fun _ _ => ?_) _ _ _ ?_)
    | (refine foldl_keeps_snd _ (fun _ _ => ?_) _ _ _ ?_)
    | (simp only []; split))

@[simp] theorem modStaging_keeps (g : Nat) (f : Staging → Staging) (s : State) :
    (modStaging g f s).pending = s.pending ∧ (modStaging g f s).variant = s.variant := ⟨rfl, rfl⟩

@[simp] theorem icpOutcome_keeps (g seq cfa : Nat) (ask : Option Packet) (status : Nat) (s : State) :
    (icpOutcome g seq cfa ask status s).pending = s.pending ∧ (icpOutcome g seq cfa ask status s).variant = s.variant := by
  unfold icpOutcome
  (repeat' split) <;> simp

@[simp] theorem Purpose.close_keeps (p : Purpose) (status : Nat) (data : List Byte) (s : State) :
    (Purpose.close p status data s).pending = s.pending ∧ (Purpose.close p status data s).variant = s.variant := by
  unfold Purpose.close
  (repeat' split) <;> simp

@[simp] theorem endTrans_keeps (t : Trans) (status : Nat) (data : List Byte) (s : State) :
    (endTrans t status data s).pending = s.pending ∧ (endTrans t status data s).variant = s.variant := by
  simp [endTrans]

@[simp] theorem endTransAll_keeps (p : Trans → Bool) (status : Nat) (s : State) :
    (endTransAll p status s).pending = s.pending ∧ (endTransAll p status s).variant = s.variant := by
  simp [endTransAll]

@[simp] theorem markDead_keeps (t cause : Nat) (s : State) :
    (markDead t cause s).pending = s.pending ∧ (markDead t cause s).variant = s.variant := by
  simp [markDead]

@[simp] theorem faultPolicy_keeps (g b : Nat) (s : State) :
    (faultPolicy g b s).pending = s.pending ∧ (faultPolicy g b s).variant = s.variant := by
  simp [faultPolicy]

@[simp] theorem evictFor_keeps (g p c : Nat) (s : State) :
    (evictFor g p c s).pending = s.pending ∧ (evictFor g p c s).variant = s.variant := by
  simp [evictFor]

@[simp] theorem queuePrefetch_keeps (g c : Nat) (s : State) :
    (queuePrefetch g c s).pending = s.pending ∧ (queuePrefetch g c s).variant = s.variant := by
  simp [queuePrefetch]

@[simp] theorem ctxFault_keeps (g kind c off : Nat) (s : State) :
    (ctxFault g kind c off s).pending = s.pending ∧ (ctxFault g kind c off s).variant = s.variant := by
  simp [ctxFault]

@[simp] theorem noteMax_keeps (n v req : Nat) (s : State) :
    (noteMax n v req s).pending = s.pending ∧ (noteMax n v req s).variant = s.variant := by
  simp [noteMax]

@[simp] theorem releaseBursts_keeps (g : Nat) (p : Nat → Bool) (s : State) :
    (releaseBursts g p s).pending = s.pending ∧ (releaseBursts g p s).variant = s.variant := by
  unfold releaseBursts
  repeat' (first
    | exact ⟨rfl, rfl⟩
    | (simp; done)
    | (simp_all; done)
    | split
    | (refine foldl_keeps' _ (fun _ _ => ?_) _ _ _ ?_)
    | (refine foldl_keeps_snd _ (fun _ _ => ?_) _ _ _ ?_)
    | (simp only []; split))

@[simp] theorem cutTaps_keeps (g : Nat) (s : State) :
    (cutTaps g s).pending = s.pending ∧ (cutTaps g s).variant = s.variant := by
  simp [cutTaps]

@[simp] theorem switchNow_keeps (g : Nat) (s : State) :
    (switchNow g s).pending = s.pending ∧ (switchNow g s).variant = s.variant := by
  unfold switchNow
  (repeat' split) <;> simp

@[simp] theorem switchCtx_keeps (g c : Nat) (s : State) :
    (switchCtx g c s).pending = s.pending ∧ (switchCtx g c s).variant = s.variant := by
  unfold switchCtx
  repeat' (first
    | exact ⟨rfl, rfl⟩
    | (simp; done)
    | (simp_all; done)
    | split
    | (refine foldl_keeps' _ (fun _ _ => ?_) _ _ _ ?_)
    | (refine foldl_keeps_snd _ (fun _ _ => ?_) _ _ _ ?_)
    | (simp only []; split))

@[simp] theorem startFill_keeps (g p c : Nat) (demand : Bool) (s : State) :
    (startFill g p c demand s).pending = s.pending ∧ (startFill g p c demand s).variant = s.variant := by
  simp [startFill]

@[simp] theorem startSpill_keeps (g p c : Nat) (s : State) :
    (startSpill g p c s).pending = s.pending ∧ (startSpill g p c s).variant = s.variant := by
  simp [startSpill]

@[simp] theorem engineWork_keeps (g c : Nat) (demand : Bool) (s : State) :
    (engineWork g c demand s).pending = s.pending ∧ (engineWork g c demand s).variant = s.variant := by
  unfold engineWork
  repeat' (first
    | exact ⟨rfl, rfl⟩
    | (simp; done)
    | (simp_all; done)
    | split
    | (refine foldl_keeps' _ (fun _ _ => ?_) _ _ _ ?_)
    | (refine foldl_keeps_snd _ (fun _ _ => ?_) _ _ _ ?_)
    | (simp only []; split))

@[simp] theorem noteStore_keeps (g : Nat) (ups : List Upset) (s : State) :
    (noteStore g ups s).pending = s.pending ∧ (noteStore g ups s).variant = s.variant := ⟨rfl, rfl⟩

@[simp] theorem countBankEcc_keeps (g b corr fatal : Nat) (s : State) :
    (countBankEcc g b corr fatal s).pending = s.pending ∧ (countBankEcc g b corr fatal s).variant = s.variant := ⟨rfl, rfl⟩

@[simp] theorem eccFatal_keeps (g a req : Nat) (s : State) :
    (eccFatal g a req s).pending = s.pending ∧ (eccFatal g a req s).variant = s.variant := by
  simp [eccFatal]

@[simp] theorem beatEffects_keeps (g a req : Nat) (s : State) :
    (beatEffects g a req s).pending = s.pending ∧ (beatEffects g a req s).variant = s.variant := by
  simp [beatEffects]

@[simp] theorem readBeat_keeps (g a req : Nat) (s : State) :
    (readBeat g a req s).2.pending = s.pending ∧ (readBeat g a req s).2.variant = s.variant := by
  simp [readBeat]

@[simp] theorem writeBeat_keeps (g a : Nat) (b : List Byte) (s : State) :
    (writeBeat g a b s).pending = s.pending ∧ (writeBeat g a b s).variant = s.variant := by
  simp [writeBeat]

@[simp] theorem readBeats_keeps (g req y0 y1 : Nat) (y2 : State) :
    (readBeats g req y0 y1 y2).2.2.pending = y2.pending ∧ (readBeats g req y0 y1 y2).2.2.variant = y2.variant := by
  induction y0 generalizing y1 y2 with
  | zero => exact ⟨rfl, rfl⟩
  | succ n ih =>
    have h1 := readBeat_keeps g y1 req y2
    have h2 := ih (y1 + 16) (readBeat g y1 req y2).2
    rw [readBeats]
    generalize readBeat g y1 req y2 = q at *
    obtain ⟨r, t⟩ := q
    simp only [] at *
    generalize readBeats g req n (y1 + 16) t = w at *
    obtain ⟨d, f, u⟩ := w
    exact ⟨h2.1.trans h1.1, h2.2.trans h1.2⟩

@[simp] theorem writeBeats_keeps (g : Nat) (y0 : Nat) (y1 : Nat) (y2 : List Byte) (y3 : State) :
    (writeBeats g y0 y1 y2 y3).pending = y3.pending ∧ (writeBeats g y0 y1 y2 y3).variant = y3.variant := by
  fun_induction writeBeats g y0 y1 y2 y3 <;> simp_all

@[simp] theorem grantReq_keeps (g b : Nat) (q : BankReq) (s : State) :
    (grantReq g b q s).pending = s.pending ∧ (grantReq g b q s).variant = s.variant := by
  simp [grantReq]

@[simp] theorem noteMem_keeps (g b : Nat) (ups : List Upset) (s : State) :
    (noteMem g b ups s).pending = s.pending ∧ (noteMem g b ups s).variant = s.variant := ⟨rfl, rfl⟩

theorem execBankDecision_keeps (g b : Nat) (upsets : List Upset) (s : State) (u : State) (e : execBankDecision g b
    upsets s = .next u) :
    u.pending = s.pending ∧ u.variant = s.variant := by
  unfold execBankDecision at e
  injection e with e; subst e
  repeat' (first
    | exact ⟨rfl, rfl⟩
    | (simp; done)
    | (simp_all; done)
    | split
    | (refine foldl_keeps' _ (fun _ _ => ?_) _ _ _ ?_)
    | (refine foldl_keeps_snd _ (fun _ _ => ?_) _ _ _ ?_)
    | (simp only []; split))

@[simp] theorem marchNext_keeps (g : Nat) (s : State) :
    (marchNext g s).pending = s.pending ∧ (marchNext g s).variant = s.variant := by
  simp [marchNext]

@[simp] theorem marchSkip_keeps (g : Nat) (s : State) :
    (marchSkip g s).pending = s.pending ∧ (marchSkip g s).variant = s.variant := ⟨rfl, rfl⟩

@[simp] theorem assayFail_keeps (kind g u : Nat) (data : List Byte) (s : State) :
    (assayFail kind g u data s).pending = s.pending ∧ (assayFail kind g u data s).variant = s.variant := by
  simp [assayFail]

@[simp] theorem marchBeat_keeps (g : Nat) (s : State) :
    (marchBeat g s).pending = s.pending ∧ (marchBeat g s).variant = s.variant := by
  unfold marchBeat
  repeat' (first
    | exact ⟨rfl, rfl⟩
    | (simp; done)
    | (simp_all; done)
    | split
    | (refine foldl_keeps' _ (fun _ _ => ?_) _ _ _ ?_)
    | (refine foldl_keeps_snd _ (fun _ _ => ?_) _ _ _ ?_)
    | (simp only []; split))

@[simp] theorem marchCycle_keeps (g : Nat) (s : State) :
    (marchCycle g s).pending = s.pending ∧ (marchCycle g s).variant = s.variant := by
  simp [marchCycle]

@[simp] theorem tapBeat_keeps (g t : Nat) (s : State) :
    (tapBeat g t s).2.pending = s.pending ∧ (tapBeat g t s).2.variant = s.variant := by
  unfold tapBeat
  repeat' (first
    | exact ⟨rfl, rfl⟩
    | (simp; done)
    | (simp_all; done)
    | split
    | (refine foldl_keeps' _ (fun _ _ => ?_) _ _ _ ?_)
    | (refine foldl_keeps_snd _ (fun _ _ => ?_) _ _ _ ?_)
    | (simp only []; split))

@[simp] theorem bankBeat_keeps (g b : Nat) (s : State) :
    (bankBeat g b s).pending = s.pending ∧ (bankBeat g b s).variant = s.variant := by
  unfold bankBeat
  (repeat' split) <;> simp

@[simp] theorem bankCycle_keeps (g : Nat) (s : State) :
    (bankCycle g s).pending = s.pending ∧ (bankCycle g s).variant = s.variant := by
  simp [bankCycle]

@[simp] theorem hostEntry_keeps (n : Nat) (act : State → Nat × State) (s : State) (hact : ∀ x0, (act x0).2.pending
    = x0.pending ∧ (act x0).2.variant = x0.variant) :
    (hostEntry n act s).pending = s.pending ∧ (hostEntry n act s).variant = s.variant := by
  unfold hostEntry
  (repeat' split) <;> simp_all

@[simp] theorem writeFlowCtrl_keeps (f : Nat) (v : Word) (s : State) :
    (writeFlowCtrl f v s).2.pending = s.pending ∧ (writeFlowCtrl f v s).2.variant = s.variant := by
  unfold writeFlowCtrl
  (repeat' split) <;> simp

@[simp] theorem endSlotFrame_keeps (s : State) :
    (endSlotFrame s).pending = s.pending ∧ (endSlotFrame s).variant = s.variant := by
  simp [endSlotFrame]

theorem execFlowCommit_keeps (f : Nat) (v : Word) (s : State) (u : State) (e : execFlowCommit f v s = .next u) :
    u.pending = s.pending ∧ u.variant = s.variant := by
  unfold execFlowCommit at e
  injection e with e; subst e; simp

theorem execFlowRelease_keeps (f : Nat) (v : Word) (s : State) (u : State) (e : execFlowRelease f v s = .next u) :
    u.pending = s.pending ∧ u.variant = s.variant := by
  unfold execFlowRelease at e
  injection e with e; subst e; simp

@[simp] theorem writeDeadSet_keeps (v : Word) (s : State) :
    (writeDeadSet v s).2.pending = s.pending ∧ (writeDeadSet v s).2.variant = s.variant := by
  simp [writeDeadSet]

@[simp] theorem writeDeadClear_keeps (v : Word) (s : State) :
    (writeDeadClear v s).2.pending = s.pending ∧ (writeDeadClear v s).2.variant = s.variant := by
  simp [writeDeadClear]

theorem execNocDeadSet_keeps (v : Word) (s : State) (u : State) (e : execNocDeadSet v s = .next u) :
    u.pending = s.pending ∧ u.variant = s.variant := by
  unfold execNocDeadSet at e
  injection e with e; subst e; simp

theorem execNocDeadClear_keeps (v : Word) (s : State) (u : State) (e : execNocDeadClear v s = .next u) :
    u.pending = s.pending ∧ u.variant = s.variant := by
  unfold execNocDeadClear at e
  injection e with e; subst e; simp

@[simp] theorem modHearth_keeps (g h : Nat) (f : HearthTest → HearthTest) (s : State) :
    (modHearth g h f s).pending = s.pending ∧ (modHearth g h f s).variant = s.variant := ⟨rfl, rfl⟩

theorem execAssaySegmentStart_keeps (g h : Nat) (s : State) (u : State) (e : execAssaySegmentStart g h s = .next u) :
    u.pending = s.pending ∧ u.variant = s.variant := by
  unfold execAssaySegmentStart at e
  injection e with e; subst e; simp

theorem execAssaySegmentDone_keeps (g h : Nat) (matched : Bool) (s : State) (u : State) (e : execAssaySegmentDone g
    h matched s = .next u) :
    u.pending = s.pending ∧ u.variant = s.variant := by
  unfold execAssaySegmentDone at e
  injection e with e; subst e; simp

theorem execAssayLinkUnit_keeps (n d : Nat) (arrived : Bool) (s : State) (u : State) (e : execAssayLinkUnit n d
    arrived s = .next u) :
    u.pending = s.pending ∧ u.variant = s.variant := by
  unfold execAssayLinkUnit at e
  injection e with e; subst e; simp

@[simp] theorem startAssay_keeps (s : State) :
    (startAssay s).pending = s.pending ∧ (startAssay s).variant = s.variant := by
  simp [startAssay]

@[simp] theorem stopAssay_keeps (s : State) :
    (stopAssay s).pending = s.pending ∧ (stopAssay s).variant = s.variant := by
  simp [stopAssay]

@[simp] theorem writeAssayCtrl_keeps (v : Word) (s : State) :
    (writeAssayCtrl v s).2.pending = s.pending ∧ (writeAssayCtrl v s).2.variant = s.variant := by
  simp [writeAssayCtrl]

theorem execAssayCycleDone_keeps (s : State) (u : State) (e : execAssayCycleDone s = .next u) :
    u.pending = s.pending ∧ u.variant = s.variant := by
  unfold execAssayCycleDone at e
  injection e with e; subst e; simp

theorem execAssayEnable_keeps (v : Word) (s : State) (u : State) (e : execAssayEnable v s = .next u) :
    u.pending = s.pending ∧ u.variant = s.variant := by
  unfold execAssayEnable at e
  injection e with e; subst e; simp

theorem execAssayDisable_keeps (v : Word) (s : State) (u : State) (e : execAssayDisable v s = .next u) :
    u.pending = s.pending ∧ u.variant = s.variant := by
  unfold execAssayDisable at e
  injection e with e; subst e; simp

theorem execTrackWord_keeps (g : Nat) (s : State) (u : State) (e : execTrackWord g s = .next u) :
    u.pending = s.pending ∧ u.variant = s.variant := by
  unfold execTrackWord at e
  injection e with e; subst e; simp

@[simp] theorem enterEdge_keeps (g : Nat) (u : List (Option Word)) (s : State) :
    (enterEdge g u s).pending = s.pending ∧ (enterEdge g u s).variant = s.variant := by
  simp [enterEdge]

theorem execEdgeIngress_keeps (g : Nat) (s : State) (u : State) (e : execEdgeIngress g s = .next u) :
    u.pending = s.pending ∧ u.variant = s.variant := by
  unfold execEdgeIngress at e
  split at e <;> (injection e with e; subst e; simp)

theorem execIngressBufferRelease_keeps (g : Nat) (s : State) (u : State) (e : execIngressBufferRelease g s = .next
    u) :
    u.pending = s.pending ∧ u.variant = s.variant := by
  unfold execIngressBufferRelease at e
  split at e <;> (injection e with e; subst e; simp)

theorem execEgressPacketClose_keeps (g e : Nat) (s : State) (u : State) (e : execEgressPacketClose g e s = .next u) :
    u.pending = s.pending ∧ u.variant = s.variant := by
  unfold execEgressPacketClose at e
  injection e with e; subst e; simp

@[simp] theorem tndCycle_keeps (t : Tick) (s : State) :
    (tndCycle t s).pending = s.pending ∧ (tndCycle t s).variant = s.variant := by
  simp [tndCycle]

@[simp] theorem writeTinder_keeps (b x : Nat) (d : List Byte) (s : State) :
    (writeTinder b x d s).pending = s.pending ∧ (writeTinder b x d s).variant = s.variant := ⟨rfl, rfl⟩

@[simp] theorem writeFrame_keeps (cfa : Nat) (d : List Byte) (s : State) :
    (writeFrame cfa d s).pending = s.pending ∧ (writeFrame cfa d s).variant = s.variant := by
  unfold writeFrame
  (repeat' split) <;> simp

@[simp] theorem noteChanged_keeps (cfa : Nat) (s : State) :
    (noteChanged cfa s).pending = s.pending ∧ (noteChanged cfa s).variant = s.variant := ⟨rfl, rfl⟩

@[simp] theorem noteCtxChanged_keeps (g c : Nat) (s : State) :
    (noteCtxChanged g c s).pending = s.pending ∧ (noteCtxChanged g c s).variant = s.variant := by
  unfold noteCtxChanged; exact foldl_keeps _ (fun _ _ => by simp) _ _

@[simp] theorem noteShadow_keeps (cfa : Nat) (d : List Byte) (s : State) :
    (noteShadow cfa d s).pending = s.pending ∧ (noteShadow cfa d s).variant = s.variant := by
  simp [noteShadow]

@[simp] theorem serviceWrite_keeps (cfa : Nat) (d : List Byte) (s : State) :
    (serviceWrite cfa d s).pending = s.pending ∧ (serviceWrite cfa d s).variant = s.variant := by
  simp [serviceWrite]

@[simp] theorem writeHeld_keeps (g : Nat) (s : State) :
    (writeHeld g s).pending = s.pending ∧ (writeHeld g s).variant = s.variant := by
  simp [writeHeld]

@[simp] theorem grantPort_keeps (port : Nat) (w : Writer) (s : State) :
    (grantPort port w s).pending = s.pending ∧ (grantPort port w s).variant = s.variant := by
  unfold grantPort
  (repeat' split) <;> simp

@[simp] theorem portNext_keeps (port : Nat) (s : State) :
    (portNext port s).pending = s.pending ∧ (portNext port s).variant = s.variant := by
  unfold portNext
  (repeat' split) <;> simp

@[simp] theorem askPort_keeps (port : Nat) (w : Writer) (s : State) :
    (askPort port w s).pending = s.pending ∧ (askPort port w s).variant = s.variant := by
  simp [askPort]

@[simp] theorem freePort_keeps (port : Nat) (s : State) :
    (freePort port s).pending = s.pending ∧ (freePort port s).variant = s.variant := by
  simp [freePort]

@[simp] theorem dropWriters_keeps (port : Nat) (s : State) :
    (dropWriters port s).pending = s.pending ∧ (dropWriters port s).variant = s.variant := by
  unfold dropWriters
  repeat' (first
    | exact ⟨rfl, rfl⟩
    | (simp; done)
    | (simp_all; done)
    | split
    | (refine foldl_keeps' _ (fun _ _ => ?_) _ _ _ ?_)
    | (refine foldl_keeps_snd _ (fun _ _ => ?_) _ _ _ ?_)
    | (simp only []; split))

theorem execConfigPortBoundary_keeps (g : Nat) (s : State) (u : State) (e : execConfigPortBoundary g s = .next u) :
    u.pending = s.pending ∧ u.variant = s.variant := by
  unfold execConfigPortBoundary at e
  injection e with e; subst e; simp

@[simp] theorem startWork_keeps (g c : Nat) (demand : Bool) (s : State) :
    (startWork g c demand s).pending = s.pending ∧ (startWork g c demand s).variant = s.variant := by
  unfold startWork
  repeat' (first
    | exact ⟨rfl, rfl⟩
    | (simp; done)
    | (simp_all; done)
    | split
    | (refine foldl_keeps' _ (fun _ _ => ?_) _ _ _ ?_)
    | (refine foldl_keeps_snd _ (fun _ _ => ?_) _ _ _ ?_)
    | (simp only []; split))

theorem execTransferStart_keeps (g : Nat) (upsets : List Upset) (s : State) (u : State) (e : execTransferStart g
    upsets s = .next u) :
    u.pending = s.pending ∧ u.variant = s.variant := by
  unfold execTransferStart at e
  injection e with e; subst e
  repeat' (first
    | exact ⟨rfl, rfl⟩
    | (simp; done)
    | (simp_all; done)
    | split
    | (refine foldl_keeps' _ (fun _ _ => ?_) _ _ _ ?_)
    | (refine foldl_keeps_snd _ (fun _ _ => ?_) _ _ _ ?_)
    | (simp only []; split))

@[simp] theorem endFill_keeps (g : Nat) (s : State) :
    (endFill g s).pending = s.pending ∧ (endFill g s).variant = s.variant := by
  simp [endFill]

theorem execFillComplete_keeps (g : Nat) (s : State) (u : State) (e : execFillComplete g s = .next u) :
    u.pending = s.pending ∧ u.variant = s.variant := by
  unfold execFillComplete at e
  injection e with e; subst e
  (repeat' split) <;> simp

theorem execSpillComplete_keeps (g : Nat) (s : State) (u : State) (e : execSpillComplete g s = .next u) :
    u.pending = s.pending ∧ u.variant = s.variant := by
  unfold execSpillComplete at e
  split at e <;> (injection e with e; subst e; simp)

theorem execPrefetchFillAbandoned_keeps (g : Nat) (s : State) (u : State) (e : execPrefetchFillAbandoned g s =
    .next u) :
    u.pending = s.pending ∧ u.variant = s.variant := by
  unfold execPrefetchFillAbandoned at e
  split at e <;> (injection e with e; subst e; simp)

@[simp] theorem armCapture_keeps (kind source : Nat) (gals : BitVec 16) (tick : Tick) (srcGal : Nat) (s : State) :
    (armCapture kind source gals tick srcGal s).pending = s.pending ∧ (armCapture kind source gals tick srcGal
    s).variant = s.variant := by
  simp [armCapture]

theorem execCaptureTaken_keeps (s : State) (u : State) (e : execCaptureTaken s = .next u) :
    u.pending = s.pending ∧ u.variant = s.variant := by
  unfold execCaptureTaken at e
  injection e with e; subst e; simp

@[simp] theorem seqFault_keeps (g code : Nat) (s : State) :
    (seqFault g code s).pending = s.pending ∧ (seqFault g code s).variant = s.variant := by
  simp [seqFault]

@[simp] theorem markIssued_keeps (g : Nat) (s : State) :
    (markIssued g s).pending = s.pending ∧ (markIssued g s).variant = s.variant := ⟨rfl, rfl⟩

@[simp] theorem goTo_keeps (g a : Nat) (s : State) :
    (goTo g a s).pending = s.pending ∧ (goTo g a s).variant = s.variant := ⟨rfl, rfl⟩

@[simp] theorem goNext_keeps (g : Nat) (s : State) :
    (goNext g s).pending = s.pending ∧ (goNext g s).variant = s.variant := ⟨rfl, rfl⟩

@[simp] theorem issue_keeps (op : Nat) (transfers : Seq → Word → Bool) (bad : State → Seq → Word → Option Nat) (act
    : Nat → Word → State → State) (g : Nat) (s : State) (hact : ∀ x0 x1 x2, (act x0 x1 x2).pending = x2.pending ∧
    (act x0 x1 x2).variant = x2.variant) :
    (issue op transfers bad act g s).pending = s.pending ∧ (issue op transfers bad act g s).variant = s.variant := by
  unfold issue
  repeat' (first
    | exact ⟨rfl, rfl⟩
    | (simp; done)
    | (simp_all; done)
    | split
    | (refine foldl_keeps' _ (fun _ _ => ?_) _ _ _ ?_)
    | (refine foldl_keeps_snd _ (fun _ _ => ?_) _ _ _ ?_)
    | (simp only []; split))

theorem execNop_keeps (g : Nat) (s : State) (u : State) (e : execNop g s = .next u) :
    u.pending = s.pending ∧ u.variant = s.variant := by
  unfold execNop at e
  injection e with e; subst e; simp

theorem execHalt_keeps (g : Nat) (s : State) (u : State) (e : execHalt g s = .next u) :
    u.pending = s.pending ∧ u.variant = s.variant := by
  unfold execHalt at e
  injection e with e; subst e; simp

theorem execRet_keeps (g : Nat) (s : State) (u : State) (e : execRet g s = .next u) :
    u.pending = s.pending ∧ u.variant = s.variant := by
  unfold execRet at e
  injection e with e; subst e; simp

@[simp] theorem fenceDone_keeps (g : Nat) (s : State) :
    (fenceDone g s).pending = s.pending ∧ (fenceDone g s).variant = s.variant := ⟨rfl, rfl⟩

theorem execFence_keeps (g : Nat) (s : State) (u : State) (e : execFence g s = .next u) :
    u.pending = s.pending ∧ u.variant = s.variant := by
  unfold execFence at e
  injection e with e; subst e; simp

theorem execFenceComplete_keeps (g : Nat) (s : State) (u : State) (e : execFenceComplete g s = .next u) :
    u.pending = s.pending ∧ u.variant = s.variant := by
  unfold execFenceComplete at e
  injection e with e; subst e; simp

theorem execSwitch_keeps (g : Nat) (s : State) (u : State) (e : execSwitch g s = .next u) :
    u.pending = s.pending ∧ u.variant = s.variant := by
  unfold execSwitch at e; injection e with e; subst e
  exact issue_keeps _ _ _ _ _ _ (fun g w t => by simp only []; split <;> simp)

theorem execPrep_keeps (g : Nat) (s : State) (u : State) (e : execPrep g s = .next u) :
    u.pending = s.pending ∧ u.variant = s.variant := by
  unfold execPrep at e
  injection e with e; subst e; simp

theorem execWait_keeps (g : Nat) (s : State) (u : State) (e : execWait g s = .next u) :
    u.pending = s.pending ∧ u.variant = s.variant := by
  unfold execWait at e
  injection e with e; subst e; simp

theorem execWaitDone_keeps (g : Nat) (s : State) (u : State) (e : execWaitDone g s = .next u) :
    u.pending = s.pending ∧ u.variant = s.variant := by
  unfold execWaitDone at e
  injection e with e; subst e; simp

theorem execWaitt_keeps (g : Nat) (s : State) (u : State) (e : execWaitt g s = .next u) :
    u.pending = s.pending ∧ u.variant = s.variant := by
  unfold execWaitt at e
  injection e with e; subst e; simp

theorem execWaittMet_keeps (g : Nat) (s : State) (u : State) (e : execWaittMet g s = .next u) :
    u.pending = s.pending ∧ u.variant = s.variant := by
  unfold execWaittMet at e
  split at e <;> (injection e with e; subst e; simp)

theorem execWaittTimeout_keeps (g : Nat) (s : State) (u : State) (e : execWaittTimeout g s = .next u) :
    u.pending = s.pending ∧ u.variant = s.variant := by
  unfold execWaittTimeout at e
  split at e <;> (injection e with e; subst e; simp)

theorem execBr_keeps (g : Nat) (s : State) (u : State) (e : execBr g s = .next u) :
    u.pending = s.pending ∧ u.variant = s.variant := by
  unfold execBr at e
  injection e with e; subst e; simp

theorem execBrc_keeps (g : Nat) (s : State) (u : State) (e : execBrc g s = .next u) :
    u.pending = s.pending ∧ u.variant = s.variant := by
  unfold execBrc at e; injection e with e; subst e
  exact issue_keeps _ _ _ _ _ _ (fun g w t => by simp only []; repeat' (first | (simp; done) | split))

theorem execLoop_keeps (g : Nat) (s : State) (u : State) (e : execLoop g s = .next u) :
    u.pending = s.pending ∧ u.variant = s.variant := by
  unfold execLoop at e
  injection e with e; subst e; simp

theorem execCall_keeps (g : Nat) (s : State) (u : State) (e : execCall g s = .next u) :
    u.pending = s.pending ∧ u.variant = s.variant := by
  unfold execCall at e
  injection e with e; subst e; simp

theorem execSetf_keeps (g : Nat) (s : State) (u : State) (e : execSetf g s = .next u) :
    u.pending = s.pending ∧ u.variant = s.variant := by
  unfold execSetf at e
  injection e with e; subst e; simp

theorem execClrf_keeps (g : Nat) (s : State) (u : State) (e : execClrf g s = .next u) :
    u.pending = s.pending ∧ u.variant = s.variant := by
  unfold execClrf at e
  injection e with e; subst e; simp

theorem execEmit_keeps (g : Nat) (s : State) (u : State) (e : execEmit g s = .next u) :
    u.pending = s.pending ∧ u.variant = s.variant := by
  unfold execEmit at e
  injection e with e; subst e; simp

theorem execCapt_keeps (g : Nat) (s : State) (u : State) (e : execCapt g s = .next u) :
    u.pending = s.pending ∧ u.variant = s.variant := by
  unfold execCapt at e
  injection e with e; subst e; simp

@[simp] theorem startDma_keeps (g : Nat) (w : Word) (s : State) :
    (startDma g w s).pending = s.pending ∧ (startDma g w s).variant = s.variant := ⟨rfl, rfl⟩

theorem execDma_keeps (g : Nat) (s : State) (u : State) (e : execDma g s = .next u) :
    u.pending = s.pending ∧ u.variant = s.variant := by
  unfold execDma at e
  injection e with e; subst e; simp

theorem execDmaComplete_keeps (g d : Nat) (s : State) (u : State) (e : execDmaComplete g d s = .next u) :
    u.pending = s.pending ∧ u.variant = s.variant := by
  unfold execDmaComplete at e
  split at e <;> (injection e with e; subst e; simp)

@[simp] theorem latchEdge_keeps (g i : Nat) (s : State) :
    (latchEdge g i s).pending = s.pending ∧ (latchEdge g i s).variant = s.variant := by
  simp [latchEdge]

theorem execTriggerEdge_keeps (g i : Nat) (s : State) (u : State) (e : execTriggerEdge g i s = .next u) :
    u.pending = s.pending ∧ u.variant = s.variant := by
  unfold execTriggerEdge at e
  injection e with e; subst e; simp

@[simp] theorem dropTaps_keeps (g : Nat) (s : State) :
    (dropTaps g s).pending = s.pending ∧ (dropTaps g s).variant = s.variant := by
  simp [dropTaps]

@[simp] theorem galleryReset_keeps (g : Nat) (s : State) :
    (galleryReset g s).pending = s.pending ∧ (galleryReset g s).variant = s.variant := by
  simp [galleryReset]

theorem execWatchdogBite_keeps (g : Nat) (s : State) (u : State) (e : execWatchdogBite g s = .next u) :
    u.pending = s.pending ∧ u.variant = s.variant := by
  unfold execWatchdogBite at e
  injection e with e; subst e; simp

@[simp] theorem dmaSend_keeps (g : Nat) (d : Dma) (s : State) :
    (dmaSend g d s).pending = s.pending ∧ (dmaSend g d s).variant = s.variant := by
  simp [dmaSend]

@[simp] theorem dmaAsk_keeps (g : Nat) (d : Dma) (s : State) :
    (dmaAsk g d s).pending = s.pending ∧ (dmaAsk g d s).variant = s.variant := by
  simp [dmaAsk]

@[simp] theorem dmaCycle_keeps (g : Nat) (s : State) :
    (dmaCycle g s).pending = s.pending ∧ (dmaCycle g s).variant = s.variant := by
  unfold dmaCycle
  (repeat' split) <;> simp

@[simp] theorem seqCycle_keeps (g : Nat) (s : State) :
    (seqCycle g s).pending = s.pending ∧ (seqCycle g s).variant = s.variant := by
  have h (l : List Nat) (u : State) := foldl_keeps (fun s i => latchEdge g i s) (fun _ _ => by simp) l u
  unfold seqCycle
  simp only []
  repeat' (first | (simp [h]; done) | split)

end Sys2Proof.Machine
end

