-- ==== Sys2Proof/Laws/KeepDevice.lean ====
section
/-!
SUPPORT. What no command does: no operation of the model touches the queue of waiting commands or the variant.  Here:
the mesh, the ports, the flash, the sweep, power, clock and tally.
-/

namespace Sys2Proof.Machine

@[simp] theorem bounce_keeps (ctr status : Nat) (p : Packet) (s : State) :
    (bounce ctr status p s).pending = s.pending ∧ (bounce ctr status p s).variant = s.variant := by
  unfold bounce
  (repeat' split) <;> simp

@[simp] theorem turnAway_keeps (ctr status : Nat) (p : Packet) (s : State) :
    (turnAway ctr status p s).pending = s.pending ∧ (turnAway ctr status p s).variant = s.variant := by
  simp [turnAway]

@[simp] theorem countPath_keeps (path : List (Nat × Nat)) (p : Packet) (s : State) :
    (countPath path p s).pending = s.pending ∧ (countPath path p s).variant = s.variant := by
  simp [countPath]

@[simp] theorem crossLinks_keeps (err : LinkError) (path : List (Nat × Nat)) (p : Packet) (s : State) :
    (crossLinks err path p s).2.pending = s.pending ∧ (crossLinks err path p s).2.variant = s.variant := by
  unfold crossLinks
  (repeat' split) <;> simp

@[simp] theorem noteCommit_keeps (p : Packet) (s : State) :
    (noteCommit p s).pending = s.pending ∧ (noteCommit p s).variant = s.variant := by
  unfold noteCommit
  (repeat' split) <;> simp

@[simp] theorem demote_keeps (p : Packet) (s : State) :
    (demote p s).2.pending = s.pending ∧ (demote p s).2.variant = s.variant := by
  unfold demote
  (repeat' split) <;> simp

@[simp] theorem sendOn_keeps (err : LinkError) (p : Packet) (to' : Nat × Nat) (s : State) :
    (sendOn err p to' s).pending = s.pending ∧ (sendOn err p to' s).variant = s.variant := by
  have h1 := demote_keeps p s
  unfold sendOn
  generalize demote p s = q at *
  obtain ⟨p1, t⟩ := q
  simp only [] at *
  have h2 := crossLinks_keeps err (meshPath (t.entry p1).sx (t.entry p1).sy to'.1 to'.2) p1 t
  generalize crossLinks err (meshPath (t.entry p1).sx (t.entry p1).sy to'.1 to'.2) p1 t = w at *
  obtain ⟨a, v⟩ := w
  cases a with
  | none => exact ⟨h2.1.trans h1.1, h2.2.trans h1.2⟩
  | some r =>
    have h3 := noteCommit_keeps r v
    simp only [] at *
    split <;> exact ⟨h3.1.trans (h2.1.trans h1.1), h3.2.trans (h2.2.trans h1.2)⟩

@[simp] theorem routePacket_keeps (err : LinkError) (p : Packet) (s : State) :
    (routePacket err p s).pending = s.pending ∧ (routePacket err p s).variant = s.variant := by
  unfold routePacket
  repeat' (first
    | exact ⟨rfl, rfl⟩
    | (simp; done)
    | (simp_all; done)
    | split
    | (refine foldl_keeps' _ (fun _ _ => ?_) _ _ _ ?_)
    | (refine foldl_keeps_snd _ (fun _ _ => ?_) _ _ _ ?_)
    | (simp only []; split))

theorem execPacketSend_keeps (p : Packet) (err : LinkError) (s : State) (u : State) (e : execPacketSend p err s =
    .next u) :
    u.pending = s.pending ∧ u.variant = s.variant := by
  unfold execPacketSend at e
  injection e with e; subst e
  (repeat' split) <;> simp

theorem execGtWindowSend_keeps (i : Nat) (s : State) (u : State) (e : execGtWindowSend i s = .next u) :
    u.pending = s.pending ∧ u.variant = s.variant := by
  unfold execGtWindowSend at e
  injection e with e; subst e
  repeat' (first
    | exact ⟨rfl, rfl⟩
    | (simp; done)
    | (simp_all; done)
    | split
    | (refine foldl_keeps' _ (fun _ _ => ?_) _ _ _ ?_)
    | (refine foldl_keeps_snd _ (fun _ _ => ?_) _ _ _ ?_)
    | (simp only []; split))

@[simp] theorem startRekindle_keeps (g : Nat) (s : State) :
    (startRekindle g s).pending = s.pending ∧ (startRekindle g s).variant = s.variant := ⟨rfl, rfl⟩

@[simp] theorem absorbOff_keeps (d : Nat) (p : Packet) (s : State) :
    (absorbOff d p s).pending = s.pending ∧ (absorbOff d p s).variant = s.variant := by
  simp [absorbOff]

@[simp] theorem holdPacket_keeps (f : Flying) (s : State) :
    (holdPacket f s).pending = s.pending ∧ (holdPacket f s).variant = s.variant := by
  simp [holdPacket]

@[simp] theorem holdAsleep_keeps (d : Nat) (f : Flying) (s : State) :
    (holdAsleep d f s).pending = s.pending ∧ (holdAsleep d f s).variant = s.variant := by
  simp [holdAsleep]

theorem gate_keeps (t : Target) (f : Flying) (s u : State) (e : gate t f s = some u) :
    u.pending = s.pending ∧ u.variant = s.variant := by
  unfold gate at e
  simp only [] at e
  repeat' (first | contradiction | (injection e with e; subst e; simp; done) | split at e)

@[simp] theorem noteWorst_keeps (f : Flying) (s : State) :
    (noteWorst f s).pending = s.pending ∧ (noteWorst f s).variant = s.variant := by
  simp [noteWorst]

@[simp] theorem arrive_keeps (i : Nat) (cmds : List Nat) (at' : Target → Bool)
    (act : Target → Packet → State → State) (s : State)
    (h : ∀ t p s, (act t p s).pending = s.pending ∧ (act t p s).variant = s.variant) :
    (arrive i cmds at' act s).pending = s.pending ∧ (arrive i cmds at' act s).variant = s.variant := by
  unfold arrive
  split
  · exact ⟨rfl, rfl⟩
  · simp only []
    rename_i f _
    split
    · exact ⟨rfl, rfl⟩
    · split
      · rename_i e
        have k := gate_keeps _ _ _ _ e
        exact k
      · split <;> simp [h]

@[simp] theorem releaseHeld_keeps (d : Nat) (s : State) :
    (releaseHeld d s).pending = s.pending ∧ (releaseHeld d s).variant = s.variant := ⟨rfl, rfl⟩

@[simp] theorem reportLapse_keeps (d : Nat) (s : State) :
    (reportLapse d s).pending = s.pending ∧ (reportLapse d s).variant = s.variant := by
  simp [reportLapse]

theorem execTransactionTimeout_keeps (node port tag : Nat) (s : State) (u : State) (e : execTransactionTimeout node
    port tag s = .next u) :
    u.pending = s.pending ∧ u.variant = s.variant := by
  unfold execTransactionTimeout at e
  split at e <;> (injection e with e; subst e; simp)

@[simp] theorem refuseCommit_keeps (g : Nat) (cmd : List Byte) (s : State) :
    (refuseCommit g cmd s).pending = s.pending ∧ (refuseCommit g cmd s).variant = s.variant := by
  simp [refuseCommit]

@[simp] theorem stageCommand_keeps (g : Nat) (cmd : List Byte) (s : State) :
    (stageCommand g cmd s).pending = s.pending ∧ (stageCommand g cmd s).variant = s.variant := by
  simp [stageCommand]

@[simp] theorem stageWrite_keeps (g : Nat) (p : Packet) (s : State) :
    (stageWrite g p s).pending = s.pending ∧ (stageWrite g p s).variant = s.variant := by
  simp [stageWrite]

@[simp] theorem writeAtKeeper_keeps (p : Packet) (s : State) :
    (writeAtKeeper p s).pending = s.pending ∧ (writeAtKeeper p s).variant = s.variant := by
  unfold writeAtKeeper
  (repeat' split) <;> simp

@[simp] theorem readAtKeeper_keeps (p : Packet) (s : State) :
    (readAtKeeper p s).pending = s.pending ∧ (readAtKeeper p s).variant = s.variant := by
  unfold readAtKeeper
  (repeat' split) <;> simp

@[simp] theorem forwardFrame_keeps (g seq cfa : Nat) (d : List Byte) (ask : Option Packet) (s : State) :
    (forwardFrame g seq cfa d ask s).pending = s.pending ∧ (forwardFrame g seq cfa d ask s).variant = s.variant := by
  simp [forwardFrame]

theorem execIcpCommit_keeps (g : Nat) (s : State) (u : State) (e : execIcpCommit g s = .next u) :
    u.pending = s.pending ∧ u.variant = s.variant := by
  unfold execIcpCommit at e
  injection e with e; subst e; simp

@[simp] theorem submitAtKeeper_keeps (p : Packet) (s : State) :
    (submitAtKeeper p s).pending = s.pending ∧ (submitAtKeeper p s).variant = s.variant := by
  unfold submitAtKeeper
  (repeat' split) <;> simp

theorem execIcpConfigSubmit_keeps (i : Nat) (s : State) (u : State) (e : execIcpConfigSubmit i s = .next u) :
    u.pending = s.pending ∧ u.variant = s.variant := by
  unfold execIcpConfigSubmit at e
  injection e with e; subst e; simp

theorem execIcpStageWrite_keeps (i : Nat) (s : State) (u : State) (e : execIcpStageWrite i s = .next u) :
    u.pending = s.pending ∧ u.variant = s.variant := by
  unfold execIcpStageWrite at e
  injection e with e; subst e; simp

@[simp] theorem holdFrame_keeps (g : Nat) (p : Packet) (s : State) :
    (holdFrame g p s).pending = s.pending ∧ (holdFrame g p s).variant = s.variant := by
  simp [holdFrame]

@[simp] theorem configAt_keeps (t : Target) (p : Packet) (s : State) :
    (configAt t p s).pending = s.pending ∧ (configAt t p s).variant = s.variant := by
  simp [configAt]

theorem execMeshConfig_keeps (i : Nat) (s : State) (u : State) (e : execMeshConfig i s = .next u) :
    u.pending = s.pending ∧ u.variant = s.variant := by
  unfold execMeshConfig at e; injection e with e; subst e
  refine arrive_keeps _ _ _ _ _ (fun t p v => ?_)
  try simp only []
  repeat' (first | (simp; done) | split)

@[simp] theorem setLanes_keeps (l : Nat) (ps : List Nat) (k : Nat) (s : State) :
    (setLanes l ps k s).pending = s.pending ∧ (setLanes l ps k s).variant = s.variant := by
  simp [setLanes]

@[simp] theorem setLink_keeps (l k : Nat) (s : State) :
    (setLink l k s).pending = s.pending ∧ (setLink l k s).variant = s.variant := by
  simp [setLink]

@[simp] theorem startLink_keeps (l : Nat) (s : State) :
    (startLink l s).pending = s.pending ∧ (startLink l s).variant = s.variant := by
  simp [startLink]

@[simp] theorem armSysref_keeps (l : Nat) (s : State) :
    (armSysref l s).pending = s.pending ∧ (armSysref l s).variant = s.variant := ⟨rfl, rfl⟩

@[simp] theorem dropLink_keeps (l : Nat) (s : State) :
    (dropLink l s).pending = s.pending ∧ (dropLink l s).variant = s.variant := by
  simp [dropLink]

@[simp] theorem writeLinkCfg0_keeps (l : Nat) (v : Word) (s : State) :
    (writeLinkCfg0 l v s).2.pending = s.pending ∧ (writeLinkCfg0 l v s).2.variant = s.variant := by
  unfold writeLinkCfg0
  repeat' (first
    | exact ⟨rfl, rfl⟩
    | (simp; done)
    | (simp_all; done)
    | split
    | (refine foldl_keeps' _ (fun _ _ => ?_) _ _ _ ?_)
    | (refine foldl_keeps_snd _ (fun _ _ => ?_) _ _ _ ?_)
    | (simp only []; split))

theorem execLinkCommit_keeps (l : Nat) (v : Word) (s : State) (u : State) (e : execLinkCommit l v s = .next u) :
    u.pending = s.pending ∧ u.variant = s.variant := by
  unfold execLinkCommit at e
  injection e with e; subst e; simp

theorem execLinkDisable_keeps (l : Nat) (v : Word) (s : State) (u : State) (e : execLinkDisable l v s = .next u) :
    u.pending = s.pending ∧ u.variant = s.variant := by
  unfold execLinkDisable at e
  injection e with e; subst e; simp

@[simp] theorem seamDown_keeps (p reason : Nat) (s : State) :
    (seamDown p reason s).pending = s.pending ∧ (seamDown p reason s).variant = s.variant := by
  simp [seamDown]

@[simp] theorem portReset_keeps (p : Nat) (s : State) :
    (portReset p s).pending = s.pending ∧ (portReset p s).variant = s.variant := by
  unfold portReset
  repeat' (first
    | exact ⟨rfl, rfl⟩
    | (simp; done)
    | (simp_all; done)
    | split
    | (refine foldl_keeps' _ (fun _ _ => ?_) _ _ _ ?_)
    | (refine foldl_keeps_snd _ (fun _ _ => ?_) _ _ _ ?_)
    | (simp only []; split))

@[simp] theorem writeProtocol_keeps (p : Nat) (v : Word) (s : State) :
    (writeProtocol p v s).2.pending = s.pending ∧ (writeProtocol p v s).2.variant = s.variant := by
  unfold writeProtocol
  repeat' (first
    | exact ⟨rfl, rfl⟩
    | (simp; done)
    | (simp_all; done)
    | split
    | (refine foldl_keeps' _ (fun _ _ => ?_) _ _ _ ?_)
    | (refine foldl_keeps_snd _ (fun _ _ => ?_) _ _ _ ?_)
    | (simp only []; split))

theorem execPortProtocol_keeps (p : Nat) (v : Word) (s : State) (u : State) (e : execPortProtocol p v s = .next u) :
    u.pending = s.pending ∧ u.variant = s.variant := by
  unfold execPortProtocol at e
  injection e with e; subst e; simp

theorem execCdrLock_keeps (l : Nat) (s : State) (u : State) (e : execCdrLock l s = .next u) :
    u.pending = s.pending ∧ u.variant = s.variant := by
  unfold execCdrLock at e
  injection e with e; subst e; simp

theorem execShLock_keeps (l : Nat) (s : State) (u : State) (e : execShLock l s = .next u) :
    u.pending = s.pending ∧ u.variant = s.variant := by
  unfold execShLock at e
  injection e with e; subst e; simp

@[simp] theorem correctPolarity_keeps (p : Nat) (s : State) :
    (correctPolarity p s).pending = s.pending ∧ (correctPolarity p s).variant = s.variant := by
  simp [correctPolarity]

theorem execEmbLock_keeps (l : Nat) (inverted : BitVec 8) (s : State) (u : State) (e : execEmbLock l inverted s =
    .next u) :
    u.pending = s.pending ∧ u.variant = s.variant := by
  unfold execEmbLock at e
  injection e with e; subst e; simp

@[simp] theorem reportIdentity_keeps (l cause : Nat) (carried : List (Option Nat)) (detail : List Byte) (s : State) :
    (reportIdentity l cause carried detail s).pending = s.pending ∧ (reportIdentity l cause carried detail
    s).variant = s.variant := by
  simp [reportIdentity]

theorem execIdWindowDone_keeps (l : Nat) (carried : List (Option Nat)) (s : State) (u : State) (e :
    execIdWindowDone l carried s = .next u) :
    u.pending = s.pending ∧ u.variant = s.variant := by
  unfold execIdWindowDone at e
  injection e with e; subst e; simp

@[simp] theorem noteArrival_keeps (l earliest latest : Nat) (s : State) :
    (noteArrival l earliest latest s).pending = s.pending ∧ (noteArrival l earliest latest s).variant = s.variant := ⟨rfl, rfl⟩

@[simp] theorem linkUp_keeps (l latency : Nat) (s : State) :
    (linkUp l latency s).pending = s.pending ∧ (linkUp l latency s).variant = s.variant := by
  simp [linkUp]

theorem execReleaseWaitDone_keeps (l earliest latest : Nat) (s : State) (u : State) (e : execReleaseWaitDone l
    earliest latest s = .next u) :
    u.pending = s.pending ∧ u.variant = s.variant := by
  unfold execReleaseWaitDone at e
  injection e with e; subst e; simp

theorem execLinkDown_keeps (l lane : Nat) (why : DownCause) (s : State) (u : State) (e : execLinkDown l lane why s
    = .next u) :
    u.pending = s.pending ∧ u.variant = s.variant := by
  unfold execLinkDown at e
  injection e with e; subst e
  (repeat' split) <;> simp

@[simp] theorem sysrefLink_keeps (t : Tick) (l : Nat) (s : State) :
    (sysrefLink t l s).pending = s.pending ∧ (sysrefLink t l s).variant = s.variant := by
  simp [sysrefLink]

theorem execSysrefCapture_keeps (s : State) (u : State) (e : execSysrefCapture s = .next u) :
    u.pending = s.pending ∧ u.variant = s.variant := by
  unfold execSysrefCapture at e
  injection e with e; subst e; simp

theorem execSysrefAbsent_keeps (l : Nat) (s : State) (u : State) (e : execSysrefAbsent l s = .next u) :
    u.pending = s.pending ∧ u.variant = s.variant := by
  unfold execSysrefAbsent at e
  injection e with e; subst e; simp

@[simp] theorem writeSysref_keeps (l : Nat) (v : Word) (s : State) :
    (writeSysref l v s).2.pending = s.pending ∧ (writeSysref l v s).2.variant = s.variant := by
  unfold writeSysref
  repeat' (first
    | exact ⟨rfl, rfl⟩
    | (simp; done)
    | (simp_all; done)
    | split
    | (refine foldl_keeps' _ (fun _ _ => ?_) _ _ _ ?_)
    | (refine foldl_keeps_snd _ (fun _ _ => ?_) _ _ _ ?_)
    | (simp only []; split))

theorem execSysrefArm_keeps (l : Nat) (v : Word) (s : State) (u : State) (e : execSysrefArm l v s = .next u) :
    u.pending = s.pending ∧ u.variant = s.variant := by
  unfold execSysrefArm at e
  injection e with e; subst e; simp

@[simp] theorem stepLinks_keeps (s : State) :
    (stepLinks s).pending = s.pending ∧ (stepLinks s).variant = s.variant := by
  simp [stepLinks]

theorem execPacketGroupRelease_keeps (p : Nat) (bytes : List Byte) (s : State) (u : State) (e :
    execPacketGroupRelease p bytes s = .next u) :
    u.pending = s.pending ∧ u.variant = s.variant := by
  unfold execPacketGroupRelease at e
  split at e <;> (injection e with e; subst e; simp)

@[simp] theorem writeAtPort_keeps (p : Nat) (k : Packet) (s : State) :
    (writeAtPort p k s).pending = s.pending ∧ (writeAtPort p k s).variant = s.variant := by
  simp [writeAtPort]

theorem execTxStreamWrite_keeps (i : Nat) (s : State) (u : State) (e : execTxStreamWrite i s = .next u) :
    u.pending = s.pending ∧ u.variant = s.variant := by
  unfold execTxStreamWrite at e; injection e with e; subst e
  refine arrive_keeps _ _ _ _ _ (fun t p v => ?_)
  try simp only []
  repeat' (first | (simp; done) | split)

theorem execTxFrameDue_keeps (p : Nat) (s : State) (u : State) (e : execTxFrameDue p s = .next u) :
    u.pending = s.pending ∧ u.variant = s.variant := by
  unfold execTxFrameDue at e
  injection e with e; subst e
  (repeat' split) <;> simp

@[simp] theorem noteClip_keeps (p k : Nat) (s : State) :
    (noteClip p k s).pending = s.pending ∧ (noteClip p k s).variant = s.variant := by
  simp [noteClip]

theorem execEqEvaluation_keeps (p : Nat) (want : List Int) (s : State) (u : State) (e : execEqEvaluation p want s =
    .next u) :
    u.pending = s.pending ∧ u.variant = s.variant := by
  unfold execEqEvaluation at e
  injection e with e; subst e; simp

@[simp] theorem changeOwner_keeps (o : Option Transport) (reason : Nat) (s : State) :
    (changeOwner o reason s).pending = s.pending ∧ (changeOwner o reason s).variant = s.variant := ⟨rfl, rfl⟩

@[simp] theorem resend_keeps (r : Stored) (s : State) :
    (resend r s).pending = s.pending ∧ (resend r s).variant = s.variant := by
  simp [resend]

@[simp] theorem acceptCmd_keeps (c : Cmd) (len : Nat) (s : State) :
    (acceptCmd c len s).pending = s.pending ∧ (acceptCmd c len s).variant = s.variant := by
  unfold acceptCmd
  (repeat' split) <;> simp

@[simp] theorem receiveMsg_keeps (via : Transport) (m : List Byte) (s : State) :
    (receiveMsg via m s).pending = s.pending ∧ (receiveMsg via m s).variant = s.variant := by
  simp [receiveMsg]

theorem execLampFrameRx_keeps (bytes : List Byte) (s : State) (u : State) (e : execLampFrameRx bytes s = .next u) :
    u.pending = s.pending ∧ u.variant = s.variant := by
  unfold execLampFrameRx at e
  injection e with e; subst e
  (repeat' split) <;> simp

@[simp] theorem runCmd_keeps (via : Transport) (type : Nat) (act : Cmd → State → State) (s : State) (hact : ∀ x0
    x1, (act x0 x1).pending = x1.pending ∧ (act x0 x1).variant = x1.variant) :
    (runCmd via type act s).pending = s.pending ∧ (runCmd via type act s).variant = s.variant := by
  unfold runCmd
  (repeat' split) <;> simp_all

theorem execOwnerTimeout_keeps (s : State) (u : State) (e : execOwnerTimeout s = .next u) :
    u.pending = s.pending ∧ u.variant = s.variant := by
  unfold execOwnerTimeout at e
  injection e with e; subst e; simp

theorem execPing_keeps (via : Transport) (s : State) (u : State) (e : execPing via s = .next u) :
    u.pending = s.pending ∧ u.variant = s.variant := by
  unfold execPing at e
  injection e with e; subst e; simp

theorem execRelease_keeps (via : Transport) (s : State) (u : State) (e : execRelease via s = .next u) :
    u.pending = s.pending ∧ u.variant = s.variant := by
  unfold execRelease at e
  injection e with e; subst e; simp

@[simp] theorem noteFlash_keeps (ups : List Upset) (s : State) :
    (noteFlash ups s).pending = s.pending ∧ (noteFlash ups s).variant = s.variant := ⟨rfl, rfl⟩

@[simp] theorem countWord_keeps (w : Nat) (s : State) :
    (countWord w s).pending = s.pending ∧ (countWord w s).variant = s.variant := by
  unfold countWord
  repeat' (first
    | exact ⟨rfl, rfl⟩
    | (simp; done)
    | (simp_all; done)
    | split
    | (refine foldl_keeps' _ (fun _ _ => ?_) _ _ _ ?_)
    | (refine foldl_keeps_snd _ (fun _ _ => ?_) _ _ _ ?_)
    | (simp only []; split))

@[simp] theorem readWords_keeps (n w : Nat) (s : State) :
    (readWords n w s).2.pending = s.pending ∧ (readWords n w s).2.variant = s.variant := by
  induction n generalizing w s with
  | zero => exact ⟨rfl, rfl⟩
  | succ n ih => rw [readWords]; simp only [ih]; split <;> simp

@[simp] theorem putWord_keeps (w : Nat) (d : List Byte) (s : State) :
    (putWord w d s).pending = s.pending ∧ (putWord w d s).variant = s.variant := ⟨rfl, rfl⟩

@[simp] theorem putWords_keeps (y0 : Nat) (y1 : Nat) (y2 : List Byte) (y3 : State) :
    (putWords y0 y1 y2 y3).pending = y3.pending ∧ (putWords y0 y1 y2 y3).variant = y3.variant := by
  fun_induction putWords y0 y1 y2 y3 <;> simp_all

@[simp] theorem countErase_keeps (sec : Nat) (s : State) :
    (countErase sec s).pending = s.pending ∧ (countErase sec s).variant = s.variant := by
  simp [countErase]

@[simp] theorem eraseSector_keeps (sec : Nat) (s : State) :
    (eraseSector sec s).pending = s.pending ∧ (eraseSector sec s).variant = s.variant := by
  simp [eraseSector]

@[simp] theorem partErase_keeps (sec : Nat) (s : State) :
    (partErase sec s).pending = s.pending ∧ (partErase sec s).variant = s.variant := ⟨rfl, rfl⟩

@[simp] theorem failErase_keeps (sec : Nat) (s : State) :
    (failErase sec s).pending = s.pending ∧ (failErase sec s).variant = s.variant := by
  simp [failErase]

@[simp] theorem recordJournal_keeps (x : Option Selection) (s : State) :
    (recordJournal x s).pending = s.pending ∧ (recordJournal x s).variant = s.variant := by
  unfold recordJournal
  (repeat' split) <;> simp

@[simp] theorem journalStep_keeps (clean : Bool) (j : JournalStep) (s : State) :
    (journalStep clean j s).2.pending = s.pending ∧ (journalStep clean j s).2.variant = s.variant := by
  cases j with
  | erase sec => unfold journalStep; simp only []; split <;> cases clean <;> simp
  | put sec word seq block => unfold journalStep; simp only []; split <;> simp
  | rolled sec seq => simp [journalStep]

@[simp] theorem journalSteps_keeps (clean : Bool) (l : List JournalStep) (s : State) :
    (journalSteps clean l s).2.pending = s.pending ∧ (journalSteps clean l s).2.variant = s.variant := by
  induction l generalizing s with
  | nil => exact ⟨rfl, rfl⟩
  | cons j r ih =>
    have h := journalStep_keeps clean j s
    rw [journalSteps]
    generalize journalStep clean j s = q at *
    obtain ⟨n, t⟩ := q
    cases n with
    | zero => exact ⟨(ih t).1.trans h.1, (ih t).2.trans h.2⟩
    | succ n => exact h

@[simp] theorem flashRead_keeps (c : Cmd) (s : State) :
    (flashRead c s).pending = s.pending ∧ (flashRead c s).variant = s.variant := by
  simp [flashRead]

theorem execFlashRead_keeps (via : Transport) (upsets : List Upset) (s : State) (u : State) (e : execFlashRead via
    upsets s = .next u) :
    u.pending = s.pending ∧ u.variant = s.variant := by
  unfold execFlashRead at e
  injection e with e; subst e; simp

@[simp] theorem flashProgram_keeps (c : Cmd) (s : State) :
    (flashProgram c s).pending = s.pending ∧ (flashProgram c s).variant = s.variant := by
  unfold flashProgram
  repeat' (first
    | exact ⟨rfl, rfl⟩
    | (simp; done)
    | (simp_all; done)
    | split
    | (refine foldl_keeps' _ (fun _ _ => ?_) _ _ _ ?_)
    | (refine foldl_keeps_snd _ (fun _ _ => ?_) _ _ _ ?_)
    | (simp only []; split))

theorem execFlashProgram_keeps (via : Transport) (s : State) (u : State) (e : execFlashProgram via s = .next u) :
    u.pending = s.pending ∧ u.variant = s.variant := by
  unfold execFlashProgram at e
  injection e with e; subst e; simp

theorem execFlashProgramDone_keeps (s : State) (u : State) (e : execFlashProgramDone s = .next u) :
    u.pending = s.pending ∧ u.variant = s.variant := by
  unfold execFlashProgramDone at e
  split at e <;> (injection e with e; subst e; simp)

@[simp] theorem flashErase_keeps (c : Cmd) (s : State) :
    (flashErase c s).pending = s.pending ∧ (flashErase c s).variant = s.variant := by
  simp [flashErase]

theorem execFlashErase_keeps (via : Transport) (s : State) (u : State) (e : execFlashErase via s = .next u) :
    u.pending = s.pending ∧ u.variant = s.variant := by
  unfold execFlashErase at e
  injection e with e; subst e; simp

theorem execFlashEraseDone_keeps (clean : Bool) (s : State) (u : State) (e : execFlashEraseDone clean s = .next u) :
    u.pending = s.pending ∧ u.variant = s.variant := by
  unfold execFlashEraseDone at e
  split at e <;> (injection e with e; subst e; simp)

@[simp] theorem flashSwap_keeps (c : Cmd) (s : State) :
    (flashSwap c s).pending = s.pending ∧ (flashSwap c s).variant = s.variant := by
  simp [flashSwap]

theorem execFlashSwap_keeps (via : Transport) (s : State) (u : State) (e : execFlashSwap via s = .next u) :
    u.pending = s.pending ∧ u.variant = s.variant := by
  unfold execFlashSwap at e
  injection e with e; subst e; simp

theorem execFlashSwapDone_keeps (clean : Bool) (s : State) (u : State) (e : execFlashSwapDone clean s = .next u) :
    u.pending = s.pending ∧ u.variant = s.variant := by
  unfold execFlashSwapDone at e
  split at e <;> (injection e with e; subst e; simp)

@[simp] theorem partProgram_keeps (w : Nat) (d : List Byte) (s : State) :
    (partProgram w d s).pending = s.pending ∧ (partProgram w d s).variant = s.variant := by
  simp [partProgram]

@[simp] theorem partStep_keeps (j : JournalStep) (s : State) :
    (partStep j s).pending = s.pending ∧ (partStep j s).variant = s.variant := by
  unfold partStep
  (repeat' split) <;> simp

@[simp] theorem State.freeBelow_keeps (s : State) (n : Nat) :
    (State.freeBelow s n).2.pending = s.pending ∧ (State.freeBelow s n).2.variant = s.variant := ⟨rfl, rfl⟩

@[simp] theorem cutFlash_keeps (s : State) :
    (cutFlash s).pending = s.pending ∧ (cutFlash s).variant = s.variant := by
  unfold cutFlash
  repeat' (first
    | exact ⟨rfl, rfl⟩
    | (simp; done)
    | (simp_all; done)
    | split
    | (refine foldl_keeps' _ (fun _ _ => ?_) _ _ _ ?_)
    | (refine foldl_keeps_snd _ (fun _ _ => ?_) _ _ _ ?_)
    | (simp only []; split))

@[simp] theorem putPlace_keeps (e : Golden) (d : List Byte) (s : State) :
    (putPlace e d s).pending = s.pending ∧ (putPlace e d s).variant = s.variant := by
  unfold putPlace
  (repeat' split) <;> simp

@[simp] theorem applyPolicy_keeps (pol g : Nat) (s : State) :
    (applyPolicy pol g s).pending = s.pending ∧ (applyPolicy pol g s).variant = s.variant := by
  unfold applyPolicy
  (repeat' split) <;> simp

@[simp] theorem countEssential_keeps (cfa : Nat) (s : State) :
    (countEssential cfa s).pending = s.pending ∧ (countEssential cfa s).variant = s.variant := by
  simp [countEssential]

@[simp] theorem raiseEssential_keeps (cfa n pol : Nat) (s : State) :
    (raiseEssential cfa n pol s).pending = s.pending ∧ (raiseEssential cfa n pol s).variant = s.variant := ⟨rfl, rfl⟩

@[simp] theorem recordRepair_keeps (cfa n : Nat) (essential inUse : Bool) (s : State) :
    (recordRepair cfa n essential inUse s).pending = s.pending ∧ (recordRepair cfa n essential inUse s).variant =
    s.variant := by
  simp [recordRepair]

@[simp] theorem nextEntry_keeps (s : State) :
    (nextEntry s).pending = s.pending ∧ (nextEntry s).variant = s.variant := by
  simp [nextEntry]

@[simp] theorem endEntry_keeps (s : State) :
    (endEntry s).pending = s.pending ∧ (endEntry s).variant = s.variant := by
  simp [endEntry]

@[simp] theorem startSweepPass_keeps (s : State) :
    (startSweepPass s).pending = s.pending ∧ (startSweepPass s).variant = s.variant := ⟨rfl, rfl⟩

theorem execSweepPassStart_keeps (s : State) (u : State) (e : execSweepPassStart s = .next u) :
    u.pending = s.pending ∧ u.variant = s.variant := by
  unfold execSweepPassStart at e
  injection e with e; subst e; simp

@[simp] theorem readFlash_keeps (a n : Nat) (s : State) :
    (readFlash a n s).2.pending = s.pending ∧ (readFlash a n s).2.variant = s.variant := by
  simp [readFlash]

@[simp] theorem noteMapBad_keeps (off cfa : Nat) (s : State) :
    (noteMapBad off cfa s).pending = s.pending ∧ (noteMapBad off cfa s).variant = s.variant := by
  simp [noteMapBad]

@[simp] theorem classify_keeps (e : Golden) (diff : List Nat) (s : State) :
    (classify e diff s).2.pending = s.pending ∧ (classify e diff s).2.variant = s.variant := by
  unfold classify
  repeat' (first
    | exact ⟨rfl, rfl⟩
    | (simp; done)
    | (simp_all; done)
    | split
    | (refine foldl_keeps' _ (fun _ _ => ?_) _ _ _ ?_)
    | (refine foldl_keeps_snd _ (fun _ _ => ?_) _ _ _ ?_)
    | (simp only []; split))

@[simp] theorem goldenFails_keeps (i : Nat) (e : Golden) (s : State) :
    (goldenFails i e s).pending = s.pending ∧ (goldenFails i e s).variant = s.variant := by
  simp [goldenFails]

@[simp] theorem detectOnly_keeps (i : Nat) (e : Golden) (s : State) :
    (detectOnly i e s).pending = s.pending ∧ (detectOnly i e s).variant = s.variant := by
  simp [detectOnly]

@[simp] theorem mismatch_keeps (i : Nat) (e : Golden) (flips : List Nat) (s : State) :
    (mismatch i e flips s).pending = s.pending ∧ (mismatch i e flips s).variant = s.variant := by
  simp [mismatch]

theorem execSweepEntryDue_keeps (flips : List Nat) (upsets : List Upset) (s : State) (u : State) (e :
    execSweepEntryDue flips upsets s = .next u) :
    u.pending = s.pending ∧ u.variant = s.variant := by
  unfold execSweepEntryDue at e
  injection e with e; subst e
  repeat' (first
    | exact ⟨rfl, rfl⟩
    | (simp; done)
    | (simp_all; done)
    | split
    | (refine foldl_keeps' _ (fun _ _ => ?_) _ _ _ ?_)
    | (refine foldl_keeps_snd _ (fun _ _ => ?_) _ _ _ ?_)
    | (simp only []; split))

@[simp] theorem repairPlace_keeps (e : Golden) (s : State) :
    (repairPlace e s).pending = s.pending ∧ (repairPlace e s).variant = s.variant := by
  simp [repairPlace]

theorem execSweepRepairWrite_keeps (s : State) (u : State) (e : execSweepRepairWrite s = .next u) :
    u.pending = s.pending ∧ u.variant = s.variant := by
  unfold execSweepRepairWrite at e
  injection e with e; subst e
  (repeat' split) <;> simp

@[simp] theorem restartSweep_keeps (cause : Nat) (s : State) :
    (restartSweep cause s).pending = s.pending ∧ (restartSweep cause s).variant = s.variant := by
  have h (l : List Nat) (u : State) := foldl_keeps (fun s p =>
    s.modGal p (fun x => { x with portWait := x.portWait.filter (fun w => !w.isSweep) })) (fun _ _ => by simp) l u
  unfold restartSweep
  simp [h]

theorem execSweepVoteFailure_keeps (s : State) (u : State) (e : execSweepVoteFailure s = .next u) :
    u.pending = s.pending ∧ u.variant = s.variant := by
  unfold execSweepVoteFailure at e
  injection e with e; subst e; simp

theorem execSweepHeartbeatTimeout_keeps (s : State) (u : State) (e : execSweepHeartbeatTimeout s = .next u) :
    u.pending = s.pending ∧ u.variant = s.variant := by
  unfold execSweepHeartbeatTimeout at e
  injection e with e; subst e; simp

theorem execSweepRestartDone_keeps (s : State) (u : State) (e : execSweepRestartDone s = .next u) :
    u.pending = s.pending ∧ u.variant = s.variant := by
  unfold execSweepRestartDone at e
  injection e with e; subst e; simp

@[simp] theorem dropRepair_keeps (d : Nat) (s : State) :
    (dropRepair d s).pending = s.pending ∧ (dropRepair d s).variant = s.variant := by
  unfold dropRepair
  (repeat' split) <;> simp

@[simp] theorem loseDomain_keeps (d : Nat) (s : State) :
    (loseDomain d s).pending = s.pending ∧ (loseDomain d s).variant = s.variant := by
  simp [loseDomain]

@[simp] theorem eachLink_keeps (p : Nat) (f : Nat → State → State) (s : State) (hf : ∀ x0 x1, (f x0 x1).pending =
    x1.pending ∧ (f x0 x1).variant = x1.variant) :
    (eachLink p f s).pending = s.pending ∧ (eachLink p f s).variant = s.variant := by
  unfold eachLink
  repeat' (first
    | exact ⟨rfl, rfl⟩
    | (simp; done)
    | (simp_all; done)
    | split
    | (refine foldl_keeps' _ (fun _ _ => ?_) _ _ _ ?_)
    | (refine foldl_keeps_snd _ (fun _ _ => ?_) _ _ _ ?_)
    | (simp only []; split))

@[simp] theorem portLeaves_keeps (p : Nat) (s : State) :
    (portLeaves p s).pending = s.pending ∧ (portLeaves p s).variant = s.variant := by
  simp [portLeaves]

@[simp] theorem portReturns_keeps (fresh : Bool) (p : Nat) (s : State) :
    (portReturns fresh p s).pending = s.pending ∧ (portReturns fresh p s).variant = s.variant := by
  simp [portReturns]

@[simp] theorem leaveOn_keeps (d : Nat) (st : DomSt) (s : State) :
    (leaveOn d st s).pending = s.pending ∧ (leaveOn d st s).variant = s.variant := by
  simp [leaveOn]

@[simp] theorem openDomain_keeps (d : Nat) (s : State) :
    (openDomain d s).pending = s.pending ∧ (openDomain d s).variant = s.variant := by
  unfold openDomain
  repeat' (first
    | exact ⟨rfl, rfl⟩
    | (simp; done)
    | (simp_all; done)
    | split
    | (refine foldl_keeps' _ (fun _ _ => ?_) _ _ _ ?_)
    | (refine foldl_keeps_snd _ (fun _ _ => ?_) _ _ _ ?_)
    | (simp only []; split))

@[simp] theorem loseReport_keeps (e : Nat) (t : Tick) (s : State) :
    (loseReport e t s).pending = s.pending ∧ (loseReport e t s).variant = s.variant := ⟨rfl, rfl⟩

@[simp] theorem queueReport_keeps (e : Nat) (t : Tick) (data : List Byte) (s : State) :
    (queueReport e t data s).pending = s.pending ∧ (queueReport e t data s).variant = s.variant := by
  simp [queueReport]

@[simp] theorem takeLatch_keeps (l : Latch) (s : State) :
    (takeLatch l s).pending = s.pending ∧ (takeLatch l s).variant = s.variant := by
  simp [takeLatch]

@[simp] theorem takeAll_keeps (s : State) :
    (takeAll s).pending = s.pending ∧ (takeAll s).variant = s.variant := by
  simp [takeAll]

theorem execEventTake_keeps (s : State) (u : State) (e : execEventTake s = .next u) :
    u.pending = s.pending ∧ u.variant = s.variant := by
  unfold execEventTake at e
  injection e with e; subst e; simp

theorem execReportSend_keeps (s : State) (u : State) (e : execReportSend s = .next u) :
    u.pending = s.pending ∧ u.variant = s.variant := by
  unfold execReportSend at e
  injection e with e; subst e
  (repeat' split) <;> simp

@[simp] theorem clearAll_keeps (mode : ClockMode) (src : Nat) (s : State) :
    (clearAll mode src s).pending = s.pending ∧ (clearAll mode src s).variant = s.variant := by
  simp [clearAll]

theorem execColdReset_keeps (s : State) (u : State) (e : execColdReset s = .next u) :
    u.pending = s.pending ∧ u.variant = s.variant := by
  unfold execColdReset at e
  injection e with e; subst e; simp

@[simp] theorem latchStraps_keeps (straps moving : BitVec 4) (s : State) :
    (latchStraps straps moving s).2.pending = s.pending ∧ (latchStraps straps moving s).2.variant = s.variant := by
  unfold latchStraps
  repeat' (first
    | exact ⟨rfl, rfl⟩
    | (simp; done)
    | (simp_all; done)
    | split
    | (refine foldl_keeps' _ (fun _ _ => ?_) _ _ _ ?_)
    | (refine foldl_keeps_snd _ (fun _ _ => ?_) _ _ _ ?_)
    | (simp only []; split))

theorem execColdRstnRise_keeps (straps moving : BitVec 4) (ratios : List Nat) (railsGood : Bool) (s : State)
    (u : State) (e : execColdRstnRise straps moving ratios railsGood s = .next u) :
    u.pending = s.pending ∧ u.variant = s.variant := by
  have h := latchStraps_keeps straps moving s
  unfold execColdRstnRise at e
  split at e
  · injection e with e; subst e; exact ⟨rfl, rfl⟩
  · split at e
    · contradiction
    · injection e with e; subst e; exact h

@[simp] theorem stopClock_keeps (cause : StopCause) (s : State) :
    (stopClock cause s).pending = s.pending ∧ (stopClock cause s).variant = s.variant := ⟨rfl, rfl⟩

theorem execRefLost_keeps (s : State) (u : State) (e : execRefLost s = .next u) :
    u.pending = s.pending ∧ u.variant = s.variant := by
  unfold execRefLost at e
  injection e with e; subst e; simp

theorem execPllUnlock_keeps (s : State) (u : State) (e : execPllUnlock s = .next u) :
    u.pending = s.pending ∧ u.variant = s.variant := by
  unfold execPllUnlock at e
  injection e with e; subst e; simp

theorem execRefPresent_keeps (s : State) (u : State) (e : execRefPresent s = .next u) :
    u.pending = s.pending ∧ u.variant = s.variant := by
  unfold execRefPresent at e
  injection e with e; subst e; simp

theorem execStopWaitExpiry_keeps (s : State) (u : State) (e : execStopWaitExpiry s = .next u) :
    u.pending = s.pending ∧ u.variant = s.variant := by
  unfold execStopWaitExpiry at e
  injection e with e; subst e; simp

theorem execRelockTimeout_keeps (s : State) (u : State) (e : execRelockTimeout s = .next u) :
    u.pending = s.pending ∧ u.variant = s.variant := by
  unfold execRelockTimeout at e
  injection e with e; subst e; simp

theorem execClockStartFail_keeps (missing : Bool) (s : State) (u : State) (e : execClockStartFail missing s = .next
    u) :
    u.pending = s.pending ∧ u.variant = s.variant := by
  unfold execClockStartFail at e
  injection e with e; subst e; simp

@[simp] theorem startClock_keeps (s : State) :
    (startClock s).pending = s.pending ∧ (startClock s).variant = s.variant := ⟨rfl, rfl⟩

theorem execPllLock_keeps (periods : Nat) (s : State) (u : State) (e : execPllLock periods s = .next u) :
    u.pending = s.pending ∧ u.variant = s.variant := by
  unfold execPllLock at e
  split at e <;> (injection e with e; subst e; simp)

theorem execBeaconFrame_keeps (s : State) (u : State) (e : execBeaconFrame s = .next u) :
    u.pending = s.pending ∧ u.variant = s.variant := by
  unfold execBeaconFrame at e
  injection e with e; subst e; simp

theorem execBrownOut_keeps (rail : Nat) (s : State) (u : State) (e : execBrownOut rail s = .next u) :
    u.pending = s.pending ∧ u.variant = s.variant := by
  unfold execBrownOut at e
  injection e with e; subst e; simp

theorem execRailRecovered_keeps (s : State) (u : State) (e : execRailRecovered s = .next u) :
    u.pending = s.pending ∧ u.variant = s.variant := by
  unfold execRailRecovered at e
  injection e with e; subst e; simp

@[simp] theorem checkSlip_keeps (s : State) :
    (checkSlip s).pending = s.pending ∧ (checkSlip s).variant = s.variant := by
  simp [checkSlip]

theorem execSyncCapture_keeps (marginal : Bool) (s : State) (u : State) (e : execSyncCapture marginal s = .next u) :
    u.pending = s.pending ∧ u.variant = s.variant := by
  unfold execSyncCapture at e
  injection e with e; subst e; simp

theorem execSyncAbsent_keeps (s : State) (u : State) (e : execSyncAbsent s = .next u) :
    u.pending = s.pending ∧ u.variant = s.variant := by
  unfold execSyncAbsent at e
  injection e with e; subst e; simp

@[simp] theorem marginGate_keeps (low top : Bool) (g : Nat) (s : State) :
    (marginGate low top g s).pending = s.pending ∧ (marginGate low top g s).variant = s.variant := by
  simp [marginGate]

@[simp] theorem moveCode_keeps (w : Nat) (s : State) :
    (moveCode w s).pending = s.pending ∧ (moveCode w s).variant = s.variant := ⟨rfl, rfl⟩

@[simp] theorem avsLoop_keeps (low high : BitVec 17) (s : State) :
    (avsLoop low high s).pending = s.pending ∧ (avsLoop low high s).variant = s.variant := by
  simp [avsLoop]

theorem execAvsEvaluation_keeps (low high : BitVec 17) (s : State) (u : State) (e : execAvsEvaluation low high s =
    .next u) :
    u.pending = s.pending ∧ u.variant = s.variant := by
  unfold execAvsEvaluation at e
  injection e with e; subst e; simp

@[simp] theorem setTj_keeps (tj : BitVec 16) (s : State) :
    (setTj tj s).pending = s.pending ∧ (setTj tj s).variant = s.variant := ⟨rfl, rfl⟩

@[simp] theorem alertAt_keeps (sensor : Nat) (s : State) :
    (alertAt sensor s).pending = s.pending ∧ (alertAt sensor s).variant = s.variant := by
  simp [alertAt]

@[simp] theorem thermDown_keeps (s : State) :
    (thermDown s).pending = s.pending ∧ (thermDown s).variant = s.variant := by
  unfold thermDown
  (repeat' split) <;> simp

@[simp] theorem thermUp_keeps (s : State) :
    (thermUp s).pending = s.pending ∧ (thermUp s).variant = s.variant := by
  unfold thermUp
  (repeat' split) <;> simp

theorem execThermAlert_keeps (tj : BitVec 16) (sensor : Nat) (s : State) (u : State) (e : execThermAlert tj sensor
    s = .next u) :
    u.pending = s.pending ∧ u.variant = s.variant := by
  unfold execThermAlert at e
  injection e with e; subst e; simp

theorem execThermTrip_keeps (tj : BitVec 16) (s : State) (u : State) (e : execThermTrip tj s = .next u) :
    u.pending = s.pending ∧ u.variant = s.variant := by
  unfold execThermTrip at e
  injection e with e; subst e; simp

theorem execThermGateStep_keeps (tj : BitVec 16) (s : State) (u : State) (e : execThermGateStep tj s = .next u) :
    u.pending = s.pending ∧ u.variant = s.variant := by
  unfold execThermGateStep at e
  injection e with e; subst e; simp

@[simp] theorem critOff_keeps (d : Nat) (s : State) :
    (critOff d s).pending = s.pending ∧ (critOff d s).variant = s.variant := by
  simp [critOff]

theorem execThermCritical_keeps (tj : BitVec 16) (sensor : Nat) (s : State) (u : State) (e : execThermCritical tj
    sensor s = .next u) :
    u.pending = s.pending ∧ u.variant = s.variant := by
  unfold execThermCritical at e
  injection e with e; subst e; simp

@[simp] theorem startTally_keeps (p : Nat) (ends : Bool) (s : State) :
    (startTally p ends s).pending = s.pending ∧ (startTally p ends s).variant = s.variant := ⟨rfl, rfl⟩

theorem execTallyReadStart_keeps (p : Nat) (s : State) (u : State) (e : execTallyReadStart p s = .next u) :
    u.pending = s.pending ∧ u.variant = s.variant := by
  unfold execTallyReadStart at e
  injection e with e; subst e; simp

theorem execTallyRetry_keeps (p : Nat) (s : State) (u : State) (e : execTallyRetry p s = .next u) :
    u.pending = s.pending ∧ u.variant = s.variant := by
  unfold execTallyRetry at e
  injection e with e; subst e; simp

@[simp] theorem tallyFails_keeps (p reason : Nat) (s : State) :
    (tallyFails p reason s).pending = s.pending ∧ (tallyFails p reason s).variant = s.variant := ⟨rfl, rfl⟩

@[simp] theorem tallyRecord_keeps (p : Nat) (d : List Byte) (s : State) :
    (tallyRecord p d s).pending = s.pending ∧ (tallyRecord p d s).variant = s.variant := by
  simp [tallyRecord]

theorem execTallyReadDone_keeps (p : Nat) (answer : TallyAnswer) (s : State) (u : State) (e : execTallyReadDone p
    answer s = .next u) :
    u.pending = s.pending ∧ u.variant = s.variant := by
  unfold execTallyReadDone at e
  injection e with e; subst e
  (repeat' split) <;> simp

@[simp] theorem writeTallyCtrl_keeps (p : Nat) (v : Word) (s : State) :
    (writeTallyCtrl p v s).2.pending = s.pending ∧ (writeTallyCtrl p v s).2.variant = s.variant := by
  unfold writeTallyCtrl
  (repeat' split) <;> simp

theorem execTallyReread_keeps (p : Nat) (v : Word) (s : State) (u : State) (e : execTallyReread p v s = .next u) :
    u.pending = s.pending ∧ u.variant = s.variant := by
  unfold execTallyReread at e
  injection e with e; subst e; simp

theorem execPresnChange_keeps (p : Nat) (present : Bool) (s : State) (u : State) (e : execPresnChange p present s =
    .next u) :
    u.pending = s.pending ∧ u.variant = s.variant := by
  unfold execPresnChange at e
  injection e with e; subst e; simp

@[simp] theorem setKind_keeps (key kind : Nat) (s : State) :
    (setKind key kind s).pending = s.pending ∧ (setKind key kind s).variant = s.variant := ⟨rfl, rfl⟩

@[simp] theorem countLine_keeps (n : Nat) (s : State) :
    (countLine n s).pending = s.pending ∧ (countLine n s).variant = s.variant := ⟨rfl, rfl⟩

@[simp] theorem portFault_keeps (p bit kind : Nat) (s : State) :
    (portFault p bit kind s).pending = s.pending ∧ (portFault p bit kind s).variant = s.variant := ⟨rfl, rfl⟩

@[simp] theorem portFaultEnds_keeps (p bit : Nat) (s : State) :
    (portFaultEnds p bit s).pending = s.pending ∧ (portFaultEnds p bit s).variant = s.variant := ⟨rfl, rfl⟩

@[simp] theorem busFault_keeps (j line kind : Nat) (s : State) :
    (busFault j line kind s).pending = s.pending ∧ (busFault j line kind s).variant = s.variant := by
  simp [busFault]

@[simp] theorem lineProbe_keeps (n kind : Nat) (s : State) :
    (lineProbe n kind s).pending = s.pending ∧ (lineProbe n kind s).variant = s.variant := by
  simp [lineProbe]

@[simp] theorem probe_keeps (key declared kind : Nat) (act : Nat → State → State) (s : State) (hact : ∀ x0 x1, (act
    x0 x1).pending = x1.pending ∧ (act x0 x1).variant = x1.variant) :
    (probe key declared kind act s).pending = s.pending ∧ (probe key declared kind act s).variant = s.variant := by
  unfold probe
  repeat' (first
    | exact ⟨rfl, rfl⟩
    | (simp; done)
    | (simp_all; done)
    | split
    | (refine foldl_keeps' _ (fun _ _ => ?_) _ _ _ ?_)
    | (refine foldl_keeps_snd _ (fun _ _ => ?_) _ _ _ ?_)
    | (simp only []; split))

theorem execPinBiasProbe_keeps (pin : Pin) (kind : Nat) (s : State) (u : State)
    (e : execPinBiasProbe pin kind s = .next u) : u.pending = s.pending ∧ u.variant = s.variant := by
  unfold execPinBiasProbe at e; injection e with e; subst e
  repeat' (first
    | exact ⟨rfl, rfl⟩
    | (simp [execPinBiasProbe.raiseBias]; done)
    | (refine probe_keeps _ _ _ _ _ (fun k v => ?_))
    | split)

@[simp] theorem shortLine_keeps (n kind : Nat) (s : State) :
    (shortLine n kind s).pending = s.pending ∧ (shortLine n kind s).variant = s.variant := ⟨rfl, rfl⟩

theorem execDriverReadbackFault_keeps (pin : Pin) (kind : Nat) (s : State) (u : State) (e : execDriverReadbackFault
    pin kind s = .next u) :
    u.pending = s.pending ∧ u.variant = s.variant := by
  unfold execDriverReadbackFault at e
  injection e with e; subst e
  (repeat' split) <;> simp

theorem execTimingLineReversed_keeps (line : Nat) (s : State) (u : State) (e : execTimingLineReversed line s =
    .next u) :
    u.pending = s.pending ∧ u.variant = s.variant := by
  unfold execTimingLineReversed at e
  injection e with e; subst e; simp

theorem execTimingReversedCleared_keeps (line : Nat) (s : State) (u : State) (e : execTimingReversedCleared line s
    = .next u) :
    u.pending = s.pending ∧ u.variant = s.variant := by
  unfold execTimingReversedCleared at e
  injection e with e; subst e; simp

theorem execTallyBusProbe_keeps (bus line kind : Nat) (s : State) (u : State) (e : execTallyBusProbe bus line kind
    s = .next u) :
    u.pending = s.pending ∧ u.variant = s.variant := by
  unfold execTallyBusProbe at e
  injection e with e; subst e; simp

theorem execLampTxReadback_keeps (kind : Nat) (s : State) (u : State) (e : execLampTxReadback kind s = .next u) :
    u.pending = s.pending ∧ u.variant = s.variant := by
  unfold execLampTxReadback at e
  injection e with e; subst e; simp

theorem execPresnNoAck_keeps (p : Nat) (s : State) (u : State) (e : execPresnNoAck p s = .next u) :
    u.pending = s.pending ∧ u.variant = s.variant := by
  unfold execPresnNoAck at e
  injection e with e; subst e; simp

@[simp] theorem State.readParam_keeps (s : State) (n : Nat) :
    (State.readParam s n).2.pending = s.pending ∧ (State.readParam s n).2.variant = s.variant := by
  unfold State.readParam
  (repeat' split) <;> simp

@[simp] theorem readEntry_keeps (n : Nat) (s : State) :
    (readEntry n s).2.2.pending = s.pending ∧ (readEntry n s).2.2.variant = s.variant := by
  unfold readEntry
  (repeat' split) <;> simp

@[simp] theorem readEntries_keeps (k n : Nat) (s : State) :
    (readEntries k n s).2.pending = s.pending ∧ (readEntries k n s).2.variant = s.variant := by
  induction k generalizing n s with
  | zero => exact ⟨rfl, rfl⟩
  | succ k ih => rw [readEntries]; simp only [ih]; simp

end Sys2Proof.Machine
end

