-- ==== Sys2Proof/Laws/KeepHost.lean ====
section
/-!
SUPPORT. What no command does: no operation of the model touches the queue of waiting commands or the variant.  Here:
the host interfaces, kindling, the dampers, the core cycle, and every command at once.
-/

namespace Sys2Proof.Machine

@[simp] theorem drainRing_keeps (y0 : Nat) (y1 : State) :
    (drainRing y0 y1).pending = y1.pending ∧ (drainRing y0 y1).variant = y1.variant := by
  fun_induction drainRing y0 y1 <;> simp_all

@[simp] theorem fillDirect_keeps (s : State) :
    (fillDirect s).pending = s.pending ∧ (fillDirect s).variant = s.variant := by
  unfold fillDirect
  (repeat' split) <;> simp

@[simp] theorem ackResponse_keeps (s : State) :
    (ackResponse s).pending = s.pending ∧ (ackResponse s).variant = s.variant := by
  simp [ackResponse]

@[simp] theorem doorbellError_keeps (s : State) :
    (doorbellError s).pending = s.pending ∧ (doorbellError s).variant = s.variant := ⟨rfl, rfl⟩

@[simp] theorem writeVectors_keeps (off : Nat) (l : List Word) (s : State) :
    (writeVectors off l s).pending = s.pending ∧ (writeVectors off l s).variant = s.variant := by
  simp [writeVectors]

theorem execCmdSlotWrite_keeps (slot off : Nat) (bytes : List Byte) (s : State) (u : State)
    (e : execCmdSlotWrite slot off bytes s = .next u) : u.pending = s.pending ∧ u.variant = s.variant := by
  unfold execCmdSlotWrite at e; injection e with e; subst e
  split
  · exact ⟨rfl, rfl⟩
  · split
    · exact writeVectors_keeps _ _ _
    · split <;> exact ⟨rfl, rfl⟩

@[simp] theorem doorbell_keeps (v : Word) (s : State) :
    (doorbell v s).pending = s.pending ∧ (doorbell v s).variant = s.variant := by
  simp [doorbell]

theorem execCmdDoorbell_keeps (v : Word) (s : State) (u : State) (e : execCmdDoorbell v s = .next u) :
    u.pending = s.pending ∧ u.variant = s.variant := by
  unfold execCmdDoorbell at e
  injection e with e; subst e; simp

theorem execRspAck_keeps (s : State) (u : State) (e : execRspAck s = .next u) :
    u.pending = s.pending ∧ u.variant = s.variant := by
  unfold execRspAck at e
  injection e with e; subst e; simp

theorem execSlotCopy_keeps (s : State) (u : State) (e : execSlotCopy s = .next u) :
    u.pending = s.pending ∧ u.variant = s.variant := by
  unfold execSlotCopy at e
  split at e <;> (injection e with e; subst e; simp)

theorem execRingDoorbell_keeps (v : Word) (s : State) (u : State) (e : execRingDoorbell v s = .next u) :
    u.pending = s.pending ∧ u.variant = s.variant := by
  unfold execRingDoorbell at e
  injection e with e; subst e; simp

@[simp] theorem writeRingCtrl_keeps (v : Word) (s : State) :
    (writeRingCtrl v s).2.pending = s.pending ∧ (writeRingCtrl v s).2.variant = s.variant := by
  unfold writeRingCtrl
  repeat' (first
    | exact ⟨rfl, rfl⟩
    | (simp; done)
    | (simp_all; done)
    | split
    | (refine foldl_keeps' _ (fun _ _ => ?_) _ _ _ ?_)
    | (refine foldl_keeps_snd _ (fun _ _ => ?_) _ _ _ ?_)
    | (simp only []; split))

theorem execRingArm_keeps (v : Word) (s : State) (u : State) (e : execRingArm v s = .next u) :
    u.pending = s.pending ∧ u.variant = s.variant := by
  unfold execRingArm at e
  injection e with e; subst e; simp

theorem execMsixHoldoffExpiry_keeps (s : State) (u : State) (e : execMsixHoldoffExpiry s = .next u) :
    u.pending = s.pending ∧ u.variant = s.variant := by
  unfold execMsixHoldoffExpiry at e
  injection e with e; subst e; simp

theorem execBar2Write_keeps (off : Nat) (bytes : List Byte) (enables : Bool) (s : State) (u : State) (e :
    execBar2Write off bytes enables s = .next u) :
    u.pending = s.pending ∧ u.variant = s.variant := by
  unfold execBar2Write at e
  injection e with e; subst e
  (repeat' split) <;> simp

theorem execBar2Read_keeps (off len tag : Nat) (s : State) (u : State) (e : execBar2Read off len tag s = .next u) :
    u.pending = s.pending ∧ u.variant = s.variant := by
  unfold execBar2Read at e
  injection e with e; subst e
  repeat' (first
    | exact ⟨rfl, rfl⟩
    | (simp; done)
    | (simp_all; done)
    | split
    | (refine foldl_keeps' _ (fun _ _ => ?_) _ _ _ ?_)
    | (refine foldl_keeps_snd _ (fun _ _ => ?_) _ _ _ ?_)
    | (simp only []; split))

@[simp] theorem noteBulkError_keeps (status off : Nat) (s : State) :
    (noteBulkError status off s).pending = s.pending ∧ (noteBulkError status off s).variant = s.variant := by
  unfold noteBulkError
  repeat' (first
    | exact ⟨rfl, rfl⟩
    | (simp; done)
    | (simp_all; done)
    | split
    | (refine foldl_keeps' _ (fun _ _ => ?_) _ _ _ ?_)
    | (refine foldl_keeps_snd _ (fun _ _ => ?_) _ _ _ ?_)
    | (simp only []; split))

theorem execBar2ReadComplete_keeps (tag : Nat) (s : State) (u : State) (e : execBar2ReadComplete tag s = .next u) :
    u.pending = s.pending ∧ u.variant = s.variant := by
  unfold execBar2ReadComplete at e
  injection e with e; subst e
  (repeat' split) <;> simp

@[simp] theorem splitWrite_keeps (mps : Nat) (a : Nat) (d : List Byte) (s : State) :
    (splitWrite mps a d s).pending = s.pending ∧ (splitWrite mps a d s).variant = s.variant := by
  simp [splitWrite]

@[simp] theorem writeAtPcie_keeps (p : Packet) (s : State) :
    (writeAtPcie p s).pending = s.pending ∧ (writeAtPcie p s).variant = s.variant := by
  simp [writeAtPcie]

@[simp] theorem endMessage_keeps (p : Packet) (s : State) :
    (endMessage p s).pending = s.pending ∧ (endMessage p s).variant = s.variant := by
  unfold endMessage
  (repeat' split) <;> simp

@[simp] theorem messageAtPcie_keeps (p : Packet) (s : State) :
    (messageAtPcie p s).pending = s.pending ∧ (messageAtPcie p s).variant = s.variant := by
  simp [messageAtPcie]

@[simp] theorem releaseUpstream_keeps (s : State) :
    (releaseUpstream s).pending = s.pending ∧ (releaseUpstream s).variant = s.variant := by
  simp [releaseUpstream]

theorem execUpstreamWrite_keeps (i : Nat) (s : State) (u : State) (e : execUpstreamWrite i s = .next u) :
    u.pending = s.pending ∧ u.variant = s.variant := by
  unfold execUpstreamWrite at e
  injection e with e; subst e; simp

theorem execUpstreamMsix_keeps (i : Nat) (s : State) (u : State) (e : execUpstreamMsix i s = .next u) :
    u.pending = s.pending ∧ u.variant = s.variant := by
  unfold execUpstreamMsix at e
  injection e with e; subst e; simp

@[simp] theorem pcieClear_keeps (s : State) :
    (pcieClear s).pending = s.pending ∧ (pcieClear s).variant = s.variant := by
  simp [pcieClear]

theorem execPcieReset_keeps (s : State) (u : State) (e : execPcieReset s = .next u) :
    u.pending = s.pending ∧ u.variant = s.variant := by
  unfold execPcieReset at e
  injection e with e; subst e; simp

theorem execPcieLinkDown_keeps (s : State) (u : State) (e : execPcieLinkDown s = .next u) :
    u.pending = s.pending ∧ u.variant = s.variant := by
  unfold execPcieLinkDown at e
  injection e with e; subst e; simp

theorem execPcieLinkUp_keeps (width gen : Nat) (s : State) (u : State) (e : execPcieLinkUp width gen s = .next u) :
    u.pending = s.pending ∧ u.variant = s.variant := by
  unfold execPcieLinkUp at e
  injection e with e; subst e; simp

@[simp] theorem cfgWrite_keeps (n : Nat) (v : Word) (s : State) :
    (cfgWrite n v s).pending = s.pending ∧ (cfgWrite n v s).variant = s.variant := by
  simp [cfgWrite]

theorem execPcieConfigRequest_keeps (write : Bool) (reg : Nat) (v : Word) (s : State) (u : State) (e :
    execPcieConfigRequest write reg v s = .next u) :
    u.pending = s.pending ∧ u.variant = s.variant := by
  unfold execPcieConfigRequest at e
  injection e with e; subst e; simp

@[simp] theorem writeAtGallery_keeps (g : Nat) (p : Packet) (s : State) :
    (writeAtGallery g p s).pending = s.pending ∧ (writeAtGallery g p s).variant = s.variant := by
  simp [writeAtGallery]

@[simp] theorem writeAt_keeps (t : Target) (p : Packet) (s : State) :
    (writeAt t p s).pending = s.pending ∧ (writeAt t p s).variant = s.variant := by
  unfold writeAt
  (repeat' split) <;> simp

theorem execMeshWrite_keeps (i : Nat) (s : State) (u : State) (e : execMeshWrite i s = .next u) :
    u.pending = s.pending ∧ u.variant = s.variant := by
  unfold execMeshWrite at e
  injection e with e; subst e; simp

@[simp] theorem replyRead_keeps (p : Packet) (data : List Byte) (s : State) :
    (replyRead p data s).pending = s.pending ∧ (replyRead p data s).variant = s.variant := ⟨rfl, rfl⟩

@[simp] theorem readAtGallery_keeps (g : Nat) (p : Packet) (s : State) :
    (readAtGallery g p s).pending = s.pending ∧ (readAtGallery g p s).variant = s.variant := by
  simp [readAtGallery]

@[simp] theorem readAt_keeps (t : Target) (p : Packet) (s : State) :
    (readAt t p s).pending = s.pending ∧ (readAt t p s).variant = s.variant := by
  unfold readAt
  (repeat' split) <;> simp

theorem execMeshReadReq_keeps (i : Nat) (s : State) (u : State) (e : execMeshReadReq i s = .next u) :
    u.pending = s.pending ∧ u.variant = s.variant := by
  unfold execMeshReadReq at e
  injection e with e; subst e; simp

@[simp] theorem storeAnswer_keeps (p : Purpose) (data : List Byte) (s : State) :
    (storeAnswer p data s).pending = s.pending ∧ (storeAnswer p data s).variant = s.variant := by
  unfold storeAnswer
  (repeat' split) <;> simp

@[simp] theorem answerAt_keeps (p : Packet) (s : State) :
    (answerAt p s).pending = s.pending ∧ (answerAt p s).variant = s.variant := by
  unfold answerAt
  (repeat' split) <;> simp

theorem execMeshReadRsp_keeps (i : Nat) (s : State) (u : State) (e : execMeshReadRsp i s = .next u) :
    u.pending = s.pending ∧ u.variant = s.variant := by
  unfold execMeshReadRsp at e
  injection e with e; subst e; simp

theorem execMeshError_keeps (i : Nat) (s : State) (u : State) (e : execMeshError i s = .next u) :
    u.pending = s.pending ∧ u.variant = s.variant := by
  unfold execMeshError at e; injection e with e; subst e
  refine arrive_keeps _ _ _ _ _ (fun t p v => ?_)
  try simp only []
  repeat' (first | (simp; done) | split)

theorem execMeshMessage_keeps (i : Nat) (s : State) (u : State) (e : execMeshMessage i s = .next u) :
    u.pending = s.pending ∧ u.variant = s.variant := by
  unfold execMeshMessage at e; injection e with e; subst e
  refine arrive_keeps _ _ _ _ _ (fun t p v => ?_)
  try simp only []
  repeat' (first | (simp; done) | split)

theorem execMeshWake_keeps (i : Nat) (s : State) (u : State) (e : execMeshWake i s = .next u) :
    u.pending = s.pending ∧ u.variant = s.variant := by
  unfold execMeshWake at e; injection e with e; subst e
  refine arrive_keeps _ _ _ _ _ (fun t p v => ?_)
  try simp only []
  repeat' (first | (simp; done) | split)

@[simp] theorem sendNak_keeps (p : Nat) (s : State) :
    (sendNak p s).pending = s.pending ∧ (sendNak p s).variant = s.variant := by
  simp [sendNak]

@[simp] theorem noteEpisode_keeps (p attempts cycles : Nat) (s : State) :
    (noteEpisode p attempts cycles s).pending = s.pending ∧ (noteEpisode p attempts cycles s).variant = s.variant := ⟨rfl, rfl⟩

@[simp] theorem takeAck_keeps (p a : Nat) (s : State) :
    (takeAck p a s).pending = s.pending ∧ (takeAck p a s).variant = s.variant := by
  unfold takeAck
  repeat' (first
    | exact ⟨rfl, rfl⟩
    | (simp; done)
    | (simp_all; done)
    | split
    | (refine foldl_keeps' _ (fun _ _ => ?_) _ _ _ ?_)
    | (refine foldl_keeps_snd _ (fun _ _ => ?_) _ _ _ ?_)
    | (simp only []; split))

@[simp] theorem takeControl_keeps (p : Nat) (b : List Byte) (s : State) :
    (takeControl p b s).pending = s.pending ∧ (takeControl p b s).variant = s.variant := by
  simp [takeControl]

@[simp] theorem badBlock_keeps (p : Nat) (s : State) :
    (badBlock p s).pending = s.pending ∧ (badBlock p s).variant = s.variant := by
  simp [badBlock]

@[simp] theorem receiveBlock_keeps (k p : Nat) (b : List Byte) (act : State → State) (s : State) (hact : ∀ x0, (act
    x0).pending = x0.pending ∧ (act x0).variant = x0.variant) :
    (receiveBlock k p b act s).pending = s.pending ∧ (receiveBlock k p b act s).variant = s.variant := by
  unfold receiveBlock
  (repeat' split) <;> simp_all

@[simp] theorem plainBlock_keeps (p : Nat) (b : List Byte) (s : State) :
    (plainBlock p b s).pending = s.pending ∧ (plainBlock p b s).variant = s.variant := by
  simp [plainBlock]

theorem execSeamBlockLock_keeps (p : Nat) (s : State) (u : State) (e : execSeamBlockLock p s = .next u) :
    u.pending = s.pending ∧ u.variant = s.variant := by
  unfold execSeamBlockLock at e
  injection e with e; subst e; simp

@[simp] theorem trainBlock_keeps (p : Nat) (d : List Byte) (s : State) :
    (trainBlock p d s).pending = s.pending ∧ (trainBlock p d s).variant = s.variant := by
  unfold trainBlock
  repeat' (first
    | exact ⟨rfl, rfl⟩
    | (simp; done)
    | (simp_all; done)
    | split
    | (refine foldl_keeps' _ (fun _ _ => ?_) _ _ _ ?_)
    | (refine foldl_keeps_snd _ (fun _ _ => ?_) _ _ _ ?_)
    | (simp only []; split))

@[simp] theorem invertLane_keeps (p : Nat) (s : State) :
    (invertLane p s).pending = s.pending ∧ (invertLane p s).variant = s.variant := by
  simp [invertLane]

theorem execSeamTrainRx_keeps (p : Nat) (block : List Byte) (inverted : Bool) (s : State) (u : State) (e :
    execSeamTrainRx p block inverted s = .next u) :
    u.pending = s.pending ∧ u.variant = s.variant := by
  unfold execSeamTrainRx at e
  injection e with e; subst e; simp

@[simp] theorem seamUpNow_keeps (p : Nat) (s : State) :
    (seamUpNow p s).pending = s.pending ∧ (seamUpNow p s).variant = s.variant := by
  simp [seamUpNow]

@[simp] theorem noteDiff_keeps (p : Nat) (d : Int) (s : State) :
    (noteDiff p d s).pending = s.pending ∧ (noteDiff p d s).variant = s.variant := by
  simp [noteDiff]

@[simp] theorem timeBlock_keeps (p : Nat) (d : List Byte) (t4 : Nat) (s : State) :
    (timeBlock p d t4 s).pending = s.pending ∧ (timeBlock p d t4 s).variant = s.variant := by
  simp [timeBlock]

theorem execSeamTimeRx_keeps (p : Nat) (block : List Byte) (arrival : Tick) (s : State) (u : State) (e :
    execSeamTimeRx p block arrival s = .next u) :
    u.pending = s.pending ∧ u.variant = s.variant := by
  unfold execSeamTimeRx at e
  injection e with e; subst e; simp

theorem execSeamTimeSend_keeps (p : Nat) (s : State) (u : State) (e : execSeamTimeSend p s = .next u) :
    u.pending = s.pending ∧ u.variant = s.variant := by
  unfold execSeamTimeSend at e
  injection e with e; subst e; simp

@[simp] theorem seamPacket_keeps (p : Nat) (k : Packet) (s : State) :
    (seamPacket p k s).pending = s.pending ∧ (seamPacket p k s).variant = s.variant := by
  simp [seamPacket]

@[simp] theorem seamUnit_keeps (p : Nat) (head : Bool) (d : List Byte) (s : State) :
    (seamUnit p head d s).pending = s.pending ∧ (seamUnit p head d s).variant = s.variant := by
  unfold seamUnit
  repeat' (first
    | exact ⟨rfl, rfl⟩
    | (simp; done)
    | (simp_all; done)
    | split
    | (refine foldl_keeps' _ (fun _ _ => ?_) _ _ _ ?_)
    | (refine foldl_keeps_snd _ (fun _ _ => ?_) _ _ _ ?_)
    | (simp only []; split))

@[simp] theorem unitBlock_keeps (p : Nat) (b : List Byte) (s : State) :
    (unitBlock p b s).pending = s.pending ∧ (unitBlock p b s).variant = s.variant := by
  simp [unitBlock]

theorem execSeamUnitRx_keeps (p : Nat) (block : List Byte) (s : State) (u : State) (e : execSeamUnitRx p block s =
    .next u) :
    u.pending = s.pending ∧ u.variant = s.variant := by
  unfold execSeamUnitRx at e
  injection e with e; subst e; simp

theorem execSeamIdleRx_keeps (p : Nat) (block : List Byte) (s : State) (u : State) (e : execSeamIdleRx p block s =
    .next u) :
    u.pending = s.pending ∧ u.variant = s.variant := by
  unfold execSeamIdleRx at e
  injection e with e; subst e; simp

@[simp] theorem startPass_keeps (p : Nat) (s : State) :
    (startPass p s).pending = s.pending ∧ (startPass p s).variant = s.variant := by
  unfold startPass
  repeat' (first
    | exact ⟨rfl, rfl⟩
    | (simp; done)
    | (simp_all; done)
    | split
    | (refine foldl_keeps' _ (fun _ _ => ?_) _ _ _ ?_)
    | (refine foldl_keeps_snd _ (fun _ _ => ?_) _ _ _ ?_)
    | (simp only []; split))

theorem execSeamNakRx_keeps (p : Nat) (block : List Byte) (s : State) (u : State) (e : execSeamNakRx p block s =
    .next u) :
    u.pending = s.pending ∧ u.variant = s.variant := by
  unfold execSeamNakRx at e
  injection e with e; subst e; simp

theorem execSeamReplayTimeout_keeps (p : Nat) (s : State) (u : State) (e : execSeamReplayTimeout p s = .next u) :
    u.pending = s.pending ∧ u.variant = s.variant := by
  unfold execSeamReplayTimeout at e
  injection e with e; subst e; simp

theorem execSeamBudgetExhausted_keeps (p : Nat) (s : State) (u : State) (e : execSeamBudgetExhausted p s = .next u) :
    u.pending = s.pending ∧ u.variant = s.variant := by
  unfold execSeamBudgetExhausted at e
  split at e <;> (injection e with e; subst e; simp)

theorem execSeamSignalLost_keeps (p : Nat) (s : State) (u : State) (e : execSeamSignalLost p s = .next u) :
    u.pending = s.pending ∧ u.variant = s.variant := by
  unfold execSeamSignalLost at e
  injection e with e; subst e; simp

@[simp] theorem writeSeamCtrl_keeps (p : Nat) (v : Word) (s : State) :
    (writeSeamCtrl p v s).2.pending = s.pending ∧ (writeSeamCtrl p v s).2.variant = s.variant := by
  simp [writeSeamCtrl]

theorem execSeamRetrain_keeps (p : Nat) (v : Word) (s : State) (u : State) (e : execSeamRetrain p v s = .next u) :
    u.pending = s.pending ∧ u.variant = s.variant := by
  unfold execSeamRetrain at e
  injection e with e; subst e; simp

@[simp] theorem seamSend_keeps (k i : Nat) (p : Packet) (s : State) :
    (seamSend k i p s).pending = s.pending ∧ (seamSend k i p s).variant = s.variant := by
  simp [seamSend]

theorem execSeamPacketSend_keeps (i : Nat) (s : State) (u : State) (e : execSeamPacketSend i s = .next u) :
    u.pending = s.pending ∧ u.variant = s.variant := by
  unfold execSeamPacketSend at e
  injection e with e; subst e
  (repeat' split) <;> simp

@[simp] theorem restoreDrivers_keeps (old v : Word) (s : State) :
    (restoreDrivers old v s).pending = s.pending ∧ (restoreDrivers old v s).variant = s.variant := by
  simp [restoreDrivers]

@[simp] theorem applyParam_keeps (n : Nat) (old v : Word) (s : State) :
    (applyParam n old v s).pending = s.pending ∧ (applyParam n old v s).variant = s.variant := by
  simp [applyParam]

@[simp] theorem storeParam_keeps (n : Nat) (v : Word) (s : State) :
    (storeParam n v s).pending = s.pending ∧ (storeParam n v s).variant = s.variant := by
  simp [storeParam]

@[simp] theorem commitPair_keeps (n : Nat) (hi : Word) (s : State) :
    (commitPair n hi s).2.pending = s.pending ∧ (commitPair n hi s).2.variant = s.variant := by
  unfold commitPair
  repeat' (first
    | exact ⟨rfl, rfl⟩
    | (simp; done)
    | (simp_all; done)
    | split
    | (refine foldl_keeps' _ (fun _ _ => ?_) _ _ _ ?_)
    | (refine foldl_keeps_snd _ (fun _ _ => ?_) _ _ _ ?_)
    | (simp only []; split))

@[simp] theorem writeTbAlign_keeps (v : Word) (s : State) :
    (writeTbAlign v s).2.pending = s.pending ∧ (writeTbAlign v s).2.variant = s.variant := by
  unfold writeTbAlign
  (repeat' split) <;> simp

@[simp] theorem writeOnly_keeps (n : Nat) (v : Word) (s : State) :
    (writeOnly n v s).2.pending = s.pending ∧ (writeOnly n v s).2.variant = s.variant := by
  unfold writeOnly
  (repeat' split) <;> simp

theorem rwAction_keeps (n : Nat) (act : Word → State → Nat × State) (e : rwAction n = some act) (v : Word) (s : State) :
    (act v s).2.pending = s.pending ∧ (act v s).2.variant = s.variant := by
  unfold rwAction at e
  repeat' (first | contradiction | (injection e with e; subst e; simp; done) | split at e)

@[simp] theorem writeRw_keeps (i : ParamInfo) (n : Nat) (v : Word) (s : State) :
    (writeRw i n v s).2.pending = s.pending ∧ (writeRw i n v s).2.variant = s.variant := by
  unfold writeRw
  split
  · exact ⟨rfl, rfl⟩
  · split
    · simp
    · split
      · rename_i act e; exact rwAction_keeps n act e v s
      · simp only []
        repeat' (first | (simp; done) | split)

@[simp] theorem writeParam_keeps (n : Nat) (v : Word) (s : State) :
    (writeParam n v s).2.pending = s.pending ∧ (writeParam n v s).2.variant = s.variant := by
  unfold writeParam
  (repeat' split) <;> simp

theorem execParamWrite_keeps (n : Nat) (v : Word) (s : State) (u : State) (e : execParamWrite n v s = .next u) :
    u.pending = s.pending ∧ u.variant = s.variant := by
  unfold execParamWrite at e
  injection e with e; subst e; simp

theorem execKindleHoldTimeout_keeps (v : Word) (s : State) (u : State) (e : execKindleHoldTimeout v s = .next u) :
    u.pending = s.pending ∧ u.variant = s.variant := by
  unfold execKindleHoldTimeout at e
  injection e with e; subst e; simp

theorem execTbAlign_keeps (v : Word) (s : State) (u : State) (e : execTbAlign v s = .next u) :
    u.pending = s.pending ∧ u.variant = s.variant := by
  unfold execTbAlign at e
  injection e with e; subst e; simp

theorem execTrigDriveEn_keeps (v : Word) (s : State) (u : State) (e : execTrigDriveEn v s = .next u) :
    u.pending = s.pending ∧ u.variant = s.variant := by
  unfold execTrigDriveEn at e
  injection e with e; subst e; simp

@[simp] theorem applyEntries_keeps (body : List Byte) (n k : Nat) (s : State) :
    (applyEntries body n k s).2.2.pending = s.pending ∧ (applyEntries body n k s).2.2.variant = s.variant := by
  induction n generalizing k s with
  | zero => exact ⟨rfl, rfl⟩
  | succ n ih => rw [applyEntries]; split <;> simp [ih]

@[simp] theorem setCmd_keeps (c : Cmd) (s : State) :
    (setCmd c s).pending = s.pending ∧ (setCmd c s).variant = s.variant := by
  simp [setCmd]

theorem execSet_keeps (via : Transport) (s : State) (u : State) (e : execSet via s = .next u) :
    u.pending = s.pending ∧ u.variant = s.variant := by
  unfold execSet at e
  injection e with e; subst e; simp

@[simp] theorem getCmd_keeps (c : Cmd) (s : State) :
    (getCmd c s).pending = s.pending ∧ (getCmd c s).variant = s.variant := by
  simp [getCmd]

theorem execGet_keeps (via : Transport) (s : State) (u : State) (e : execGet via s = .next u) :
    u.pending = s.pending ∧ u.variant = s.variant := by
  unfold execGet at e
  injection e with e; subst e; simp

@[simp] theorem getPairCmd_keeps (c : Cmd) (s : State) :
    (getPairCmd c s).pending = s.pending ∧ (getPairCmd c s).variant = s.variant := by
  unfold getPairCmd
  repeat' (first
    | exact ⟨rfl, rfl⟩
    | (simp; done)
    | (simp_all; done)
    | split
    | (refine foldl_keeps' _ (fun _ _ => ?_) _ _ _ ?_)
    | (refine foldl_keeps_snd _ (fun _ _ => ?_) _ _ _ ?_)
    | (simp only []; split))

theorem execGetPair_keeps (via : Transport) (s : State) (u : State) (e : execGetPair via s = .next u) :
    u.pending = s.pending ∧ u.variant = s.variant := by
  unfold execGetPair at e
  injection e with e; subst e; simp

@[simp] theorem galResetCmd_keeps (c : Cmd) (s : State) :
    (galResetCmd c s).pending = s.pending ∧ (galResetCmd c s).variant = s.variant := by
  simp [galResetCmd]

theorem execGalReset_keeps (via : Transport) (s : State) (u : State) (e : execGalReset via s = .next u) :
    u.pending = s.pending ∧ u.variant = s.variant := by
  unfold execGalReset at e
  injection e with e; subst e; simp

@[simp] theorem portResetCmd_keeps (c : Cmd) (s : State) :
    (portResetCmd c s).pending = s.pending ∧ (portResetCmd c s).variant = s.variant := by
  simp [portResetCmd]

theorem execPortReset_keeps (via : Transport) (s : State) (u : State) (e : execPortReset via s = .next u) :
    u.pending = s.pending ∧ u.variant = s.variant := by
  unfold execPortReset at e
  injection e with e; subst e; simp

@[simp] theorem configWriteCmd_keeps (c : Cmd) (s : State) :
    (configWriteCmd c s).pending = s.pending ∧ (configWriteCmd c s).variant = s.variant := by
  simp [configWriteCmd]

theorem execConfigWrite_keeps (via : Transport) (s : State) (u : State) (e : execConfigWrite via s = .next u) :
    u.pending = s.pending ∧ u.variant = s.variant := by
  unfold execConfigWrite at e
  injection e with e; subst e; simp

@[simp] theorem memFillCmd_keeps (c : Cmd) (s : State) :
    (memFillCmd c s).pending = s.pending ∧ (memFillCmd c s).variant = s.variant := by
  simp [memFillCmd]

theorem execMemFill_keeps (via : Transport) (s : State) (u : State) (e : execMemFill via s = .next u) :
    u.pending = s.pending ∧ u.variant = s.variant := by
  unfold execMemFill at e
  injection e with e; subst e; simp

@[simp] theorem memReadCmd_keeps (c : Cmd) (s : State) :
    (memReadCmd c s).pending = s.pending ∧ (memReadCmd c s).variant = s.variant := by
  unfold memReadCmd
  repeat' (first
    | exact ⟨rfl, rfl⟩
    | (simp; done)
    | (simp_all; done)
    | split
    | (refine foldl_keeps' _ (fun _ _ => ?_) _ _ _ ?_)
    | (refine foldl_keeps_snd _ (fun _ _ => ?_) _ _ _ ?_)
    | (simp only []; split))

theorem execMemRead_keeps (via : Transport) (s : State) (u : State) (e : execMemRead via s = .next u) :
    u.pending = s.pending ∧ u.variant = s.variant := by
  unfold execMemRead at e
  injection e with e; subst e; simp

@[simp] theorem memWriteCmd_keeps (c : Cmd) (s : State) :
    (memWriteCmd c s).pending = s.pending ∧ (memWriteCmd c s).variant = s.variant := by
  unfold memWriteCmd
  repeat' (first
    | exact ⟨rfl, rfl⟩
    | (simp; done)
    | (simp_all; done)
    | split
    | (refine foldl_keeps' _ (fun _ _ => ?_) _ _ _ ?_)
    | (refine foldl_keeps_snd _ (fun _ _ => ?_) _ _ _ ?_)
    | (simp only []; split))

theorem execMemWrite_keeps (via : Transport) (s : State) (u : State) (e : execMemWrite via s = .next u) :
    u.pending = s.pending ∧ u.variant = s.variant := by
  unfold execMemWrite at e
  injection e with e; subst e; simp

@[simp] theorem captArmCmd_keeps (c : Cmd) (s : State) :
    (captArmCmd c s).pending = s.pending ∧ (captArmCmd c s).variant = s.variant := by
  simp [captArmCmd]

theorem execCaptArm_keeps (via : Transport) (s : State) (u : State) (e : execCaptArm via s = .next u) :
    u.pending = s.pending ∧ u.variant = s.variant := by
  unfold execCaptArm at e
  injection e with e; subst e; simp

@[simp] theorem releaseCapture_keeps (s : State) :
    (releaseCapture s).pending = s.pending ∧ (releaseCapture s).variant = s.variant := by
  simp [releaseCapture]

theorem execCaptRelease_keeps (via : Transport) (s : State) (u : State) (e : execCaptRelease via s = .next u) :
    u.pending = s.pending ∧ u.variant = s.variant := by
  unfold execCaptRelease at e
  injection e with e; subst e; simp

@[simp] theorem readHalted_keeps (c : Cmd) (g a n : Nat) (s : State) :
    (readHalted c g a n s).pending = s.pending ∧ (readHalted c g a n s).variant = s.variant := by
  simp [readHalted]

@[simp] theorem readSection_keeps (c : Cmd) (g code a n : Nat) (s : State) :
    (readSection c g code a n s).pending = s.pending ∧ (readSection c g code a n s).variant = s.variant := by
  unfold readSection
  (repeat' split) <;> simp

@[simp] theorem captReadCmd_keeps (c : Cmd) (s : State) :
    (captReadCmd c s).pending = s.pending ∧ (captReadCmd c s).variant = s.variant := by
  simp [captReadCmd]

theorem execCaptRead_keeps (via : Transport) (s : State) (u : State) (e : execCaptRead via s = .next u) :
    u.pending = s.pending ∧ u.variant = s.variant := by
  unfold execCaptRead at e
  injection e with e; subst e; simp

theorem execTriggerLineRx_keeps (line : Nat) (level : Bool) (s : State) (u : State) (e : execTriggerLineRx line
    level s = .next u) :
    u.pending = s.pending ∧ u.variant = s.variant := by
  unfold execTriggerLineRx at e
  injection e with e; subst e; simp

theorem execTndCaptureArm_keeps (s : State) (u : State) (e : execTndCaptureArm s = .next u) :
    u.pending = s.pending ∧ u.variant = s.variant := by
  unfold execTndCaptureArm at e
  split at e <;> (injection e with e; subst e; simp)

@[simp] theorem raiseDeferred_keeps (s : State) :
    (raiseDeferred s).pending = s.pending ∧ (raiseDeferred s).variant = s.variant := by
  simp [raiseDeferred]

@[simp] theorem streamRead_keeps (off n : Nat) (s : State) :
    (streamRead off n s).2.pending = s.pending ∧ (streamRead off n s).2.variant = s.variant := by
  unfold streamRead
  repeat' (first
    | exact ⟨rfl, rfl⟩
    | (simp; done)
    | (simp_all; done)
    | split
    | (refine foldl_keeps' _ (fun _ _ => ?_) _ _ _ ?_)
    | (refine foldl_keeps_snd _ (fun _ _ => ?_) _ _ _ ?_)
    | (simp only []; split))

@[simp] theorem nextFrame_keeps (s : State) :
    (nextFrame s).2.pending = s.pending ∧ (nextFrame s).2.variant = s.variant := by
  have h1 := streamRead_keeps s.img.off 16 s
  unfold nextFrame
  simp only []
  split
  · exact ⟨rfl, rfl⟩
  · split
    · exact ⟨rfl, rfl⟩
    · generalize streamRead s.img.off 16 s = q at *
      obtain ⟨a, t⟩ := q
      cases a with
      | some w => exact h1
      | none =>
        simp only [] at *
        split
        · exact h1
        · split
          · exact ⟨rfl, rfl⟩
          · have h2 := streamRead_keeps (s.img.off + 16) (leAt (s.imgBytes s.img.off 16) 8 4 + 8) t
            generalize streamRead (s.img.off + 16) (leAt (s.imgBytes s.img.off 16) 8 4 + 8) t = r at *
            obtain ⟨b, v⟩ := r
            cases b with
            | some w => exact ⟨h2.1.trans h1.1, h2.2.trans h1.2⟩
            | none => simp only []; split <;> exact ⟨h2.1.trans h1.1, h2.2.trans h1.2⟩

@[simp] theorem answerChunks_keeps (s : State) :
    (answerChunks s).pending = s.pending ∧ (answerChunks s).variant = s.variant := by
  simp [answerChunks]

@[simp] theorem scanNow_keeps (s : State) : (scanNow s).pending = s.pending ∧ (scanNow s).variant = s.variant := by
  have h (l : List Nat) (u v : State) := foldl_keeps (fun t sec => (readWords (v.scanned sec) (2048 * sec) t).2)
    (fun _ _ => by simp) l u
  have k := recordJournal_keeps
  unfold scanNow
  simp only []
  split <;> simp only [State.raise_pending, State.raise_variant, k, h] <;> exact ⟨trivial, trivial⟩

@[simp] theorem bank_keeps (code detail : Nat) (s : State) :
    (bank code detail s).pending = s.pending ∧ (bank code detail s).variant = s.variant := by
  simp [bank]

@[simp] theorem toPhase_keeps (n : Nat) (s : State) :
    (toPhase n s).pending = s.pending ∧ (toPhase n s).variant = s.variant := ⟨rfl, rfl⟩

@[simp] theorem inPhase_keeps (n : Nat) (act : State → State) (s : State) (hact : ∀ x0, (act x0).pending =
    x0.pending ∧ (act x0).variant = x0.variant) :
    (inPhase n act s).pending = s.pending ∧ (inPhase n act s).variant = s.variant := by
  unfold inPhase
  (repeat' split) <;> simp_all

theorem execJournalScan_keeps (upsets : List Upset) (s : State) (u : State) (e : execJournalScan upsets s = .next u) :
    u.pending = s.pending ∧ u.variant = s.variant := by
  unfold execJournalScan at e; injection e with e; subst e
  refine inPhase_keeps _ _ _ (fun v => ?_)
  simp only []
  repeat' (first | (simp; done) | split)

@[simp] theorem recordImage_keeps (s : State) :
    (recordImage s).pending = s.pending ∧ (recordImage s).variant = s.variant := ⟨rfl, rfl⟩

@[simp] theorem afterBoot_keeps (s : State) :
    (afterBoot s).pending = s.pending ∧ (afterBoot s).variant = s.variant := by
  simp [afterBoot]

theorem execBootRecordRead_keeps (upsets : List Upset) (s : State) (u : State) (e : execBootRecordRead upsets s = .next u) :
    u.pending = s.pending ∧ u.variant = s.variant := by
  unfold execBootRecordRead at e; injection e with e; subst e
  refine inPhase_keeps _ _ _ (fun v => ?_)
  simp only []
  repeat' (first | (simp; done) | split)

theorem execImageSelect_keeps (upsets : List Upset) (s : State) (u : State) (e : execImageSelect upsets s = .next u) :
    u.pending = s.pending ∧ u.variant = s.variant := by
  unfold execImageSelect at e
  injection e with e; subst e; simp

@[simp] theorem takeHeader_keeps (h : List Byte) (s : State) :
    (takeHeader h s).pending = s.pending ∧ (takeHeader h s).variant = s.variant := by
  simp [takeHeader]

@[simp] theorem readPart_keeps (off n : Nat) (s : State) (act : List Byte → State → State)
    (h : ∀ b s, (act b s).pending = s.pending ∧ (act b s).variant = s.variant) :
    (readPart off n s act).pending = s.pending ∧ (readPart off n s act).variant = s.variant := by
  have h1 := streamRead_keeps off n s
  unfold readPart
  simp only []
  generalize (if s.img.host = true then s.img.hostLen else s.img.extent) = size
  split
  · simp
  · split
    · exact ⟨rfl, rfl⟩
    · generalize streamRead off n s = q at *
      obtain ⟨a, t⟩ := q
      cases a <;> simp_all

theorem execImageHeaderCheck_keeps (upsets : List Upset) (s : State) (u : State) (e : execImageHeaderCheck upsets s = .next u) :
    u.pending = s.pending ∧ u.variant = s.variant := by
  unfold execImageHeaderCheck at e; injection e with e; subst e
  refine inPhase_keeps _ _ _ (fun v => ?_)
  have h := noteFlash_keeps upsets v
  rw [← h.1, ← h.2]
  refine readPart_keeps _ _ _ _ (fun b w => ?_)
  simp only []
  repeat' (first | (simp; done) | split)

theorem execSignatureCheck_keeps (s : State) (u : State) (e : execSignatureCheck s = .next u) :
    u.pending = s.pending ∧ u.variant = s.variant := by
  unfold execSignatureCheck at e
  injection e with e; subst e; simp

@[simp] theorem endFrame_keeps (f : Fr) (s : State) :
    (endFrame f s).pending = s.pending ∧ (endFrame f s).variant = s.variant := ⟨rfl, rfl⟩

@[simp] theorem commitLeads_keeps (y0 : List Nat) (y1 : State) :
    (commitLeads y0 y1).2.pending = y1.pending ∧ (commitLeads y0 y1).2.variant = y1.variant := by
  fun_induction commitLeads y0 y1 <;> simp_all

@[simp] theorem loadFrame_keeps (type : Nat) (act : Fr → State → Nat × State) (s : State)
    (h : ∀ f s, (act f s).2.pending = s.pending ∧ (act f s).2.variant = s.variant) :
    (loadFrame type act s).pending = s.pending ∧ (loadFrame type act s).variant = s.variant := by
  unfold loadFrame
  refine inPhase_keeps _ _ _ (fun u => ?_)
  have h1 := nextFrame_keeps u
  generalize nextFrame u = q at *
  obtain ⟨a, t⟩ := q
  cases a with
  | wait => exact ⟨rfl, rfl⟩
  | bad c d => simpa using h1
  | frame f =>
    simp only [] at *
    split
    · simpa using h1
    · split
      · exact ⟨rfl, rfl⟩
      · have h2 : (if frameKind type = none then commitLeads t.img.linkLeads t else (none, t)).2.pending = t.pending ∧
            (if frameKind type = none then commitLeads t.img.linkLeads t else (none, t)).2.variant = t.variant := by
          split <;> simp
        generalize (if frameKind type = none then commitLeads t.img.linkLeads t else (none, t)) = r at *
        obtain ⟨b, v⟩ := r
        have h3 : v.pending = u.pending ∧ v.variant = u.variant := ⟨h2.1.trans h1.1, h2.2.trans h1.2⟩
        cases b with
        | some l => simpa using h3
        | none =>
          simp only []
          split
          · simpa using h3
          · split
            · simpa using h3
            · split <;> simpa [h] using h3

@[simp] theorem rangeElse_keeps (ok : Bool) (s t : State) :
    (rangeElse ok s t).2.pending = (if ok then t.pending else s.pending) ∧
      (rangeElse ok s t).2.variant = (if ok then t.variant else s.variant) := by
  unfold rangeElse; split <;> exact ⟨rfl, rfl⟩

theorem execContextTable_keeps (s : State) (u : State) (e : execContextTable s = .next u) :
    u.pending = s.pending ∧ u.variant = s.variant := by
  unfold execContextTable at e
  injection e with e; subst e; simp

@[simp] theorem ctxFrame_keeps (f : Fr) (s : State) :
    (ctxFrame f s).2.pending = s.pending ∧ (ctxFrame f s).2.variant = s.variant := by
  simp [ctxFrame]

theorem execPlaneFrame_keeps (s : State) (u : State) (e : execPlaneFrame s = .next u) :
    u.pending = s.pending ∧ u.variant = s.variant := by
  unfold execPlaneFrame at e
  injection e with e; subst e; simp

theorem execSwitchFrame_keeps (s : State) (u : State) (e : execSwitchFrame s = .next u) :
    u.pending = s.pending ∧ u.variant = s.variant := by
  unfold execSwitchFrame at e
  injection e with e; subst e; simp

theorem execSequencerFrame_keeps (s : State) (u : State) (e : execSequencerFrame s = .next u) :
    u.pending = s.pending ∧ u.variant = s.variant := by
  unfold execSequencerFrame at e
  injection e with e; subst e; simp

theorem execTinderFrame_keeps (s : State) (u : State) (e : execTinderFrame s = .next u) :
    u.pending = s.pending ∧ u.variant = s.variant := by
  unfold execTinderFrame at e
  injection e with e; subst e; simp

@[simp] theorem portFrame0_keeps (f : Fr) (s : State) :
    (portFrame0 f s).2.pending = s.pending ∧ (portFrame0 f s).2.variant = s.variant := by
  simp [portFrame0]

@[simp] theorem storePortWords_keeps (p : Nat) (d : List Byte) (s : State) :
    (storePortWords p d s).pending = s.pending ∧ (storePortWords p d s).variant = s.variant := by
  simp [storePortWords]

@[simp] theorem portFrame1_keeps (f : Fr) (s : State) :
    (portFrame1 f s).2.pending = s.pending ∧ (portFrame1 f s).2.variant = s.variant := by
  simp [portFrame1]

theorem execPortDefaults_keeps (s : State) (u : State) (e : execPortDefaults s = .next u) :
    u.pending = s.pending ∧ u.variant = s.variant := by
  unfold execPortDefaults at e; injection e with e; subst e
  refine loadFrame_keeps _ _ _ (fun f v => ?_)
  split <;> simp

theorem execContextSeed_keeps (s : State) (u : State) (e : execContextSeed s = .next u) :
    u.pending = s.pending ∧ u.variant = s.variant := by
  unfold execContextSeed at e
  injection e with e; subst e; simp

theorem execMemPreload_keeps (s : State) (u : State) (e : execMemPreload s = .next u) :
    u.pending = s.pending ∧ u.variant = s.variant := by
  unfold execMemPreload at e
  injection e with e; subst e; simp

theorem execFillRun_keeps (s : State) (u : State) (e : execFillRun s = .next u) :
    u.pending = s.pending ∧ u.variant = s.variant := by
  unfold execFillRun at e
  injection e with e; subst e; simp

@[simp] theorem applyDefaults_keeps (d : List Byte) (k i : Nat) (s : State) :
    (applyDefaults d k i s).2.pending = s.pending ∧ (applyDefaults d k i s).2.variant = s.variant := by
  induction k generalizing i s with
  | zero => exact ⟨rfl, rfl⟩
  | succ k ih =>
    rw [applyDefaults]
    simp only []
    repeat' (first | (simp [ih]; done) | split)

theorem execParamDefaults_keeps (s : State) (u : State) (e : execParamDefaults s = .next u) :
    u.pending = s.pending ∧ u.variant = s.variant := by
  unfold execParamDefaults at e
  injection e with e; subst e; simp

theorem execEssentialMap_keeps (s : State) (u : State) (e : execEssentialMap s = .next u) :
    u.pending = s.pending ∧ u.variant = s.variant := by
  unfold execEssentialMap at e
  injection e with e; subst e; simp

theorem execGoldenTable_keeps (s : State) (u : State) (e : execGoldenTable s = .next u) :
    u.pending = s.pending ∧ u.variant = s.variant := by
  unfold execGoldenTable at e
  injection e with e; subst e; simp

@[simp] theorem finishLoad_keeps (s : State) :
    (finishLoad s).pending = s.pending ∧ (finishLoad s).variant = s.variant := by
  simp [finishLoad]

@[simp] theorem loadEnd_keeps (s : State) : (loadEnd s).pending = s.pending ∧ (loadEnd s).variant = s.variant := by
  unfold loadEnd
  refine loadFrame_keeps _ _ _ (fun f v => ?_)
  simp only []
  repeat' (first | (simp; done) | split)

@[simp] theorem closeDomain_keeps (d : Nat) (forced : Bool) (s : State) :
    (closeDomain d forced s).pending = s.pending ∧ (closeDomain d forced s).variant = s.variant := by
  simp [closeDomain]

@[simp] theorem startClose_keeps (action d : Nat) (s : State) :
    (startClose action d s).pending = s.pending ∧ (startClose action d s).variant = s.variant := by
  simp [startClose]

@[simp] theorem startDamper_keeps (c : Cmd) (act : Nat → State → State) (s : State) (hact : ∀ x0 x1, (act x0
    x1).pending = x1.pending ∧ (act x0 x1).variant = x1.variant) :
    (startDamper c act s).pending = s.pending ∧ (startDamper c act s).variant = s.variant := by
  unfold startDamper
  (repeat' split) <;> simp_all

@[simp] theorem damperCloseCmd_keeps (c : Cmd) (s : State) :
    (damperCloseCmd c s).pending = s.pending ∧ (damperCloseCmd c s).variant = s.variant := by
  unfold damperCloseCmd
  repeat' (first
    | exact ⟨rfl, rfl⟩
    | (simp; done)
    | (simp_all; done)
    | split
    | (refine foldl_keeps' _ (fun _ _ => ?_) _ _ _ ?_)
    | (refine foldl_keeps_snd _ (fun _ _ => ?_) _ _ _ ?_)
    | (simp only []; split))

theorem execDamperClose_keeps (via : Transport) (s : State) (u : State) (e : execDamperClose via s = .next u) :
    u.pending = s.pending ∧ u.variant = s.variant := by
  unfold execDamperClose at e
  injection e with e; subst e; simp

theorem execDamperSequencerDamped_keeps (g : Nat) (s : State) (u : State) (e : execDamperSequencerDamped g s =
    .next u) :
    u.pending = s.pending ∧ u.variant = s.variant := by
  unfold execDamperSequencerDamped at e
  injection e with e; subst e; simp

theorem execDamperDrained_keeps (g : Nat) (s : State) (u : State) (e : execDamperDrained g s = .next u) :
    u.pending = s.pending ∧ u.variant = s.variant := by
  unfold execDamperDrained at e
  injection e with e; subst e; simp

@[simp] theorem discardHeld_keeps (g : Nat) (s : State) :
    (discardHeld g s).pending = s.pending ∧ (discardHeld g s).variant = s.variant := by
  simp [discardHeld]

@[simp] theorem forceClose_keeps (d : Nat) (s : State) :
    (forceClose d s).pending = s.pending ∧ (forceClose d s).variant = s.variant := by
  simp [forceClose]

theorem execDrainLimitExpiry_keeps (g : Nat) (s : State) (u : State) (e : execDrainLimitExpiry g s = .next u) :
    u.pending = s.pending ∧ u.variant = s.variant := by
  unfold execDrainLimitExpiry at e
  injection e with e; subst e; simp

theorem execPortPairDrained_keeps (p : Nat) (s : State) (u : State) (e : execPortPairDrained p s = .next u) :
    u.pending = s.pending ∧ u.variant = s.variant := by
  unfold execPortPairDrained at e
  injection e with e; subst e; simp

@[simp] theorem dropBuffers_keeps (k : Nat) (s : State) :
    (dropBuffers k s).pending = s.pending ∧ (dropBuffers k s).variant = s.variant := ⟨rfl, rfl⟩

theorem execPortDrainExpiry_keeps (p : Nat) (s : State) (u : State) (e : execPortDrainExpiry p s = .next u) :
    u.pending = s.pending ∧ u.variant = s.variant := by
  unfold execPortDrainExpiry at e
  injection e with e; subst e; simp

theorem execPowerDownComplete_keeps (d : Nat) (s : State) (u : State) (e : execPowerDownComplete d s = .next u) :
    u.pending = s.pending ∧ u.variant = s.variant := by
  unfold execPowerDownComplete at e
  injection e with e; subst e; simp

@[simp] theorem startOpen_keeps (d : Nat) (s : State) :
    (startOpen d s).pending = s.pending ∧ (startOpen d s).variant = s.variant := by
  unfold startOpen
  repeat' (first
    | exact ⟨rfl, rfl⟩
    | (simp; done)
    | (simp_all; done)
    | split
    | (refine foldl_keeps' _ (fun _ _ => ?_) _ _ _ ?_)
    | (refine foldl_keeps_snd _ (fun _ _ => ?_) _ _ _ ?_)
    | (simp only []; split))

@[simp] theorem damperOpenCmd_keeps (c : Cmd) (s : State) :
    (damperOpenCmd c s).pending = s.pending ∧ (damperOpenCmd c s).variant = s.variant := by
  unfold damperOpenCmd
  (repeat' split) <;> simp

theorem execDamperOpen_keeps (via : Transport) (s : State) (u : State) (e : execDamperOpen via s = .next u) :
    u.pending = s.pending ∧ u.variant = s.variant := by
  unfold execDamperOpen at e
  injection e with e; subst e; simp

@[simp] theorem readItems_keeps (l : List Item) (s : State) :
    (readItems l s).2.pending = s.pending ∧ (readItems l s).2.variant = s.variant := by
  induction l generalizing s with
  | nil => exact ⟨rfl, rfl⟩
  | cons i r ih =>
    rw [readItems]
    simp only []
    repeat' (first | (simp [ih]; done) | split)

@[simp] theorem reloadFrame_keeps (s : State) (f : Fr) :
    (reloadFrame s f).pending = s.pending ∧ (reloadFrame s f).variant = s.variant := by
  simp [reloadFrame]

@[simp] theorem rebuildGallery_keeps (g : Nat) (fs : List Fr) (s : State) :
    (rebuildGallery g fs s).pending = s.pending ∧ (rebuildGallery g fs s).variant = s.variant := by
  simp [rebuildGallery]

theorem execRekindleDone_keeps (g : Nat) (s : State) (u : State) (e : execRekindleDone g s = .next u) :
    u.pending = s.pending ∧ u.variant = s.variant := by
  unfold execRekindleDone at e
  injection e with e; subst e; simp

theorem execTinderReloadDone_keeps (s : State) (u : State) (e : execTinderReloadDone s = .next u) :
    u.pending = s.pending ∧ u.variant = s.variant := by
  unfold execTinderReloadDone at e
  injection e with e; subst e; simp

theorem execWakeComplete_keeps (d : Nat) (s : State) (u : State) (e : execWakeComplete d s = .next u) :
    u.pending = s.pending ∧ u.variant = s.variant := by
  unfold execWakeComplete at e
  injection e with e; subst e; simp

theorem execKeeperCycle16_keeps (s : State) (u : State) (e : execKeeperCycle16 s = .next u) :
    u.pending = s.pending ∧ u.variant = s.variant := by
  unfold execKeeperCycle16 at e
  injection e with e; subst e; simp

theorem execDomainPowerUp_keeps (good : Bool) (s : State) (u : State) (e : execDomainPowerUp good s = .next u) :
    u.pending = s.pending ∧ u.variant = s.variant := by
  unfold execDomainPowerUp at e; injection e with e; subst e
  refine inPhase_keeps _ _ _ (fun v => ?_)
  have h (l : List Nat) (u : State) := foldl_keeps (fun s p => s.modPort p Port.atPowerUp) (fun _ _ => by simp) l u
  simp only []
  repeat' (first | (simp [h]; done) | split)

@[simp] theorem enterUser_keeps (s : State) :
    (enterUser s).pending = s.pending ∧ (enterUser s).variant = s.variant := by
  simp [enterUser]

@[simp] theorem reachHold_keeps (s : State) :
    (reachHold s).pending = s.pending ∧ (reachHold s).variant = s.variant := by
  simp [reachHold]

@[simp] theorem noteLast_keeps (t : Tick) (s : State) :
    (noteLast t s).pending = s.pending ∧ (noteLast t s).variant = s.variant := by
  simp [noteLast]

@[simp] theorem endStep_keeps (i : Nat) (s : State) :
    (endStep i s).pending = s.pending ∧ (endStep i s).variant = s.variant := by
  simp [endStep]

theorem execEndFrame_keeps (s : State) (u : State) (e : execEndFrame s = .next u) :
    u.pending = s.pending ∧ u.variant = s.variant := by
  unfold execEndFrame at e
  injection e with e; subst e; simp

theorem execLockWait_keeps (s : State) (u : State) (e : execLockWait s = .next u) :
    u.pending = s.pending ∧ u.variant = s.variant := by
  unfold execLockWait at e
  injection e with e; subst e; simp

theorem execLockLimitExpiry_keeps (s : State) (u : State) (e : execLockLimitExpiry s = .next u) :
    u.pending = s.pending ∧ u.variant = s.variant := by
  unfold execLockLimitExpiry at e
  injection e with e; subst e; simp

theorem execOutputRelease_keeps (s : State) (u : State) (e : execOutputRelease s = .next u) :
    u.pending = s.pending ∧ u.variant = s.variant := by
  unfold execOutputRelease at e
  injection e with e; subst e; simp

theorem execGsrRelease_keeps (s : State) (u : State) (e : execGsrRelease s = .next u) :
    u.pending = s.pending ∧ u.variant = s.variant := by
  unfold execGsrRelease at e
  injection e with e; subst e; simp

theorem execWriteEnable_keeps (s : State) (u : State) (e : execWriteEnable s = .next u) :
    u.pending = s.pending ∧ u.variant = s.variant := by
  unfold execWriteEnable at e
  injection e with e; subst e; simp

theorem execKindledRelease_keeps (s : State) (u : State) (e : execKindledRelease s = .next u) :
    u.pending = s.pending ∧ u.variant = s.variant := by
  unfold execKindledRelease at e
  injection e with e; subst e; simp

@[simp] theorem fixEntry_keeps (sTick : Nat) (s : State) :
    (fixEntry sTick s).pending = s.pending ∧ (fixEntry sTick s).variant = s.variant := ⟨rfl, rfl⟩

theorem execKindledHigh_keeps (s : State) (u : State) (e : execKindledHigh s = .next u) :
    u.pending = s.pending ∧ u.variant = s.variant := by
  unfold execKindledHigh at e
  injection e with e; subst e; simp

theorem execKindleEntry_keeps (s : State) (u : State) (e : execKindleEntry s = .next u) :
    u.pending = s.pending ∧ u.variant = s.variant := by
  unfold execKindleEntry at e; injection e with e; subst e
  refine inPhase_keeps _ _ _ (fun v => ?_)
  simp only []
  repeat' (first | (simp; done) | split)

theorem execHoldTimeout_keeps (s : State) (u : State) (e : execHoldTimeout s = .next u) :
    u.pending = s.pending ∧ u.variant = s.variant := by
  unfold execHoldTimeout at e
  injection e with e; subst e; simp

@[simp] theorem warmReset_keeps (s : State) :
    (warmReset s).pending = s.pending ∧ (warmReset s).variant = s.variant := ⟨rfl, rfl⟩

@[simp] theorem resetCmd_keeps (c : Cmd) (s : State) :
    (resetCmd c s).pending = s.pending ∧ (resetCmd c s).variant = s.variant := by
  simp [resetCmd]

theorem execReset_keeps (via : Transport) (s : State) (u : State) (e : execReset via s = .next u) :
    u.pending = s.pending ∧ u.variant = s.variant := by
  unfold execReset at e
  injection e with e; subst e; simp

@[simp] theorem loadAgain_keeps (len : Nat) (s : State) :
    (loadAgain len s).pending = s.pending ∧ (loadAgain len s).variant = s.variant := ⟨rfl, rfl⟩

@[simp] theorem imageBeginCmd_keeps (c : Cmd) (s : State) :
    (imageBeginCmd c s).pending = s.pending ∧ (imageBeginCmd c s).variant = s.variant := by
  simp [imageBeginCmd]

theorem execImageBegin_keeps (via : Transport) (s : State) (u : State) (e : execImageBegin via s = .next u) :
    u.pending = s.pending ∧ u.variant = s.variant := by
  unfold execImageBegin at e
  injection e with e; subst e; simp

@[simp] theorem imageDataCmd_keeps (c : Cmd) (s : State) :
    (imageDataCmd c s).pending = s.pending ∧ (imageDataCmd c s).variant = s.variant := by
  simp [imageDataCmd]

theorem execImageData_keeps (via : Transport) (s : State) (u : State) (e : execImageData via s = .next u) :
    u.pending = s.pending ∧ u.variant = s.variant := by
  unfold execImageData at e
  injection e with e; subst e; simp

@[simp] theorem imageAbortCmd_keeps (c : Cmd) (s : State) :
    (imageAbortCmd c s).pending = s.pending ∧ (imageAbortCmd c s).variant = s.variant := by
  simp [imageAbortCmd]

theorem execImageAbort_keeps (via : Transport) (s : State) (u : State) (e : execImageAbort via s = .next u) :
    u.pending = s.pending ∧ u.variant = s.variant := by
  unfold execImageAbort at e
  injection e with e; subst e; simp

@[simp] theorem alignAt_keeps (old : Tick) (s : State) :
    (alignAt old s).pending = s.pending ∧ (alignAt old s).variant = s.variant := by
  simp [alignAt]

@[simp] theorem tickClock_keeps (s : State) :
    (tickClock s).pending = s.pending ∧ (tickClock s).variant = s.variant := by
  simp [tickClock]

@[simp] theorem countHf_keeps (g : Nat) (rise : BitVec 4) (s : State) :
    (countHf g rise s).pending = s.pending ∧ (countHf g rise s).variant = s.variant := by
  simp [countHf]

@[simp] theorem countDuty_keeps (g : Nat) (s : State) :
    (countDuty g s).pending = s.pending ∧ (countDuty g s).variant = s.variant := by
  simp [countDuty]

@[simp] theorem galCycle_keeps (g : Nat) (s : State) :
    (galCycle g s).pending = s.pending ∧ (galCycle g s).variant = s.variant := by
  simp [galCycle]

@[simp] theorem triggerCycle_keeps (s : State) :
    (triggerCycle s).pending = s.pending ∧ (triggerCycle s).variant = s.variant := by
  simp [triggerCycle]

@[simp] theorem coreCycle_keeps (s : State) :
    (coreCycle s).pending = s.pending ∧ (coreCycle s).variant = s.variant := by
  simp [coreCycle]

/-- No command touches the queue or the variant. -/
theorem exec_keeps (i : Instr) (s u : State) (hx : exec i s = .next u) :
    u.pending = s.pending ∧ u.variant = s.variant := by
  cases i with
  | coldReset => exact execColdReset_keeps s _ hx
  | coldRstnRise straps moving ratios railsGood => exact execColdRstnRise_keeps straps moving ratios railsGood s _ hx
  | refLost => exact execRefLost_keeps s _ hx
  | pllUnlock => exact execPllUnlock_keeps s _ hx
  | refPresent => exact execRefPresent_keeps s _ hx
  | stopWaitExpiry => exact execStopWaitExpiry_keeps s _ hx
  | relockTimeout => exact execRelockTimeout_keeps s _ hx
  | clockStartFail missing => exact execClockStartFail_keeps missing s _ hx
  | pllLock periods => exact execPllLock_keeps periods s _ hx
  | beaconFrame => exact execBeaconFrame_keeps s _ hx
  | brownOut rail => exact execBrownOut_keeps rail s _ hx
  | railRecovered => exact execRailRecovered_keeps s _ hx
  | syncCapture marginal => exact execSyncCapture_keeps marginal s _ hx
  | syncAbsent => exact execSyncAbsent_keeps s _ hx
  | tbAlign v => exact execTbAlign_keeps v s _ hx
  | avsEvaluation low high => exact execAvsEvaluation_keeps low high s _ hx
  | thermAlert tj sensor => exact execThermAlert_keeps tj sensor s _ hx
  | thermTrip tj => exact execThermTrip_keeps tj s _ hx
  | thermGateStep tj => exact execThermGateStep_keeps tj s _ hx
  | thermCritical tj sensor => exact execThermCritical_keeps tj sensor s _ hx
  | keeperCycle16 => exact execKeeperCycle16_keeps s _ hx
  | domainPowerUp good => exact execDomainPowerUp_keeps good s _ hx
  | journalScan upsets => exact execJournalScan_keeps upsets s _ hx
  | bootRecordRead upsets => exact execBootRecordRead_keeps upsets s _ hx
  | imageSelect upsets => exact execImageSelect_keeps upsets s _ hx
  | imageHeaderCheck upsets => exact execImageHeaderCheck_keeps upsets s _ hx
  | signatureCheck => exact execSignatureCheck_keeps s _ hx
  | contextTable => exact execContextTable_keeps s _ hx
  | planeFrame => exact execPlaneFrame_keeps s _ hx
  | switchFrame => exact execSwitchFrame_keeps s _ hx
  | sequencerFrame => exact execSequencerFrame_keeps s _ hx
  | tinderFrame => exact execTinderFrame_keeps s _ hx
  | portDefaults => exact execPortDefaults_keeps s _ hx
  | contextSeed => exact execContextSeed_keeps s _ hx
  | memPreload => exact execMemPreload_keeps s _ hx
  | fillRun => exact execFillRun_keeps s _ hx
  | paramDefaults => exact execParamDefaults_keeps s _ hx
  | essentialMap => exact execEssentialMap_keeps s _ hx
  | goldenTable => exact execGoldenTable_keeps s _ hx
  | endFrame => exact execEndFrame_keeps s _ hx
  | lockWait => exact execLockWait_keeps s _ hx
  | lockLimitExpiry => exact execLockLimitExpiry_keeps s _ hx
  | outputRelease => exact execOutputRelease_keeps s _ hx
  | gsrRelease => exact execGsrRelease_keeps s _ hx
  | writeEnable => exact execWriteEnable_keeps s _ hx
  | kindledRelease => exact execKindledRelease_keeps s _ hx
  | kindledHigh => exact execKindledHigh_keeps s _ hx
  | kindleEntry => exact execKindleEntry_keeps s _ hx
  | holdTimeout => exact execHoldTimeout_keeps s _ hx
  | kindleHoldTimeout v => exact execKindleHoldTimeout_keeps v s _ hx
  | lampFrameRx bytes => exact execLampFrameRx_keeps bytes s _ hx
  | ownerTimeout => exact execOwnerTimeout_keeps s _ hx
  | ping via => exact execPing_keeps via s _ hx
  | release via => exact execRelease_keeps via s _ hx
  | reset via => exact execReset_keeps via s _ hx
  | get via => exact execGet_keeps via s _ hx
  | set via => exact execSet_keeps via s _ hx
  | paramWrite n v => exact execParamWrite_keeps n v s _ hx
  | getPair via => exact execGetPair_keeps via s _ hx
  | flashRead via upsets => exact execFlashRead_keeps via upsets s _ hx
  | flashProgram via => exact execFlashProgram_keeps via s _ hx
  | flashProgramDone => exact execFlashProgramDone_keeps s _ hx
  | flashErase via => exact execFlashErase_keeps via s _ hx
  | flashEraseDone clean => exact execFlashEraseDone_keeps clean s _ hx
  | flashSwap via => exact execFlashSwap_keeps via s _ hx
  | flashSwapDone clean => exact execFlashSwapDone_keeps clean s _ hx
  | imageBegin via => exact execImageBegin_keeps via s _ hx
  | imageData via => exact execImageData_keeps via s _ hx
  | imageAbort via => exact execImageAbort_keeps via s _ hx
  | damperClose via => exact execDamperClose_keeps via s _ hx
  | damperSequencerDamped g => exact execDamperSequencerDamped_keeps g s _ hx
  | damperDrained g => exact execDamperDrained_keeps g s _ hx
  | drainLimitExpiry g => exact execDrainLimitExpiry_keeps g s _ hx
  | portPairDrained p => exact execPortPairDrained_keeps p s _ hx
  | portDrainExpiry p => exact execPortDrainExpiry_keeps p s _ hx
  | powerDownComplete d => exact execPowerDownComplete_keeps d s _ hx
  | damperOpen via => exact execDamperOpen_keeps via s _ hx
  | rekindleDone g => exact execRekindleDone_keeps g s _ hx
  | tinderReloadDone => exact execTinderReloadDone_keeps s _ hx
  | galReset via => exact execGalReset_keeps via s _ hx
  | portReset via => exact execPortReset_keeps via s _ hx
  | configWrite via => exact execConfigWrite_keeps via s _ hx
  | memFill via => exact execMemFill_keeps via s _ hx
  | memRead via => exact execMemRead_keeps via s _ hx
  | memWrite via => exact execMemWrite_keeps via s _ hx
  | captArm via => exact execCaptArm_keeps via s _ hx
  | captRelease via => exact execCaptRelease_keeps via s _ hx
  | captRead via => exact execCaptRead_keeps via s _ hx
  | captureTaken => exact execCaptureTaken_keeps s _ hx
  | eventTake => exact execEventTake_keeps s _ hx
  | reportSend => exact execReportSend_keeps s _ hx
  | cmdSlotWrite slot off bytes => exact execCmdSlotWrite_keeps slot off bytes s _ hx
  | cmdDoorbell v => exact execCmdDoorbell_keeps v s _ hx
  | rspAck => exact execRspAck_keeps s _ hx
  | slotCopy => exact execSlotCopy_keeps s _ hx
  | ringDoorbell v => exact execRingDoorbell_keeps v s _ hx
  | ringArm v => exact execRingArm_keeps v s _ hx
  | bar2Write off bytes enables => exact execBar2Write_keeps off bytes enables s _ hx
  | bar2Read off len tag => exact execBar2Read_keeps off len tag s _ hx
  | bar2ReadComplete tag => exact execBar2ReadComplete_keeps tag s _ hx
  | upstreamWrite i => exact execUpstreamWrite_keeps i s _ hx
  | upstreamMsix i => exact execUpstreamMsix_keeps i s _ hx
  | pcieConfigRequest write reg v => exact execPcieConfigRequest_keeps write reg v s _ hx
  | pcieReset => exact execPcieReset_keeps s _ hx
  | pcieLinkDown => exact execPcieLinkDown_keeps s _ hx
  | pcieLinkUp width gen => exact execPcieLinkUp_keeps width gen s _ hx
  | pass g h => exact execPass_keeps g h s _ hx
  | dly g h => exact execDly_keeps g h s _ hx
  | add g h => exact execAdd_keeps g h s _ hx
  | sub g h => exact execSub_keeps g h s _ hx
  | neg g h => exact execNeg_keeps g h s _ hx
  | abs g h => exact execAbs_keeps g h s _ hx
  | min g h => exact execMin_keeps g h s _ hx
  | max g h => exact execMax_keeps g h s _ hx
  | and g h => exact execAnd_keeps g h s _ hx
  | or g h => exact execOr_keeps g h s _ hx
  | xor g h => exact execXor_keeps g h s _ hx
  | not g h => exact execNot_keeps g h s _ hx
  | shl g h => exact execShl_keeps g h s _ hx
  | shr g h => exact execShr_keeps g h s _ hx
  | shra g h => exact execShra_keeps g h s _ hx
  | rot g h => exact execRot_keeps g h s _ hx
  | clz g h => exact execClz_keeps g h s _ hx
  | popc g h => exact execPopc_keeps g h s _ hx
  | mul g h => exact execMul_keeps g h s _ hx
  | mulh g h => exact execMulh_keeps g h s _ hx
  | mac g h => exact execMac_keeps g h s _ hx
  | msu g h => exact execMsu_keeps g h s _ hx
  | rnd g h => exact execRnd_keeps g h s _ hx
  | cmp g h => exact execCmp_keeps g h s _ hx
  | sel g h => exact execSel_keeps g h s _ hx
  | div g h => exact execDiv_keeps g h s _ hx
  | rem g h => exact execRem_keeps g h s _ hx
  | pack g h => exact execPack_keeps g h s _ hx
  | unpk g h => exact execUnpk_keeps g h s _ hx
  | ld g h => exact execLd_keeps g h s _ hx
  | st g h => exact execSt_keeps g h s _ hx
  | trackWord g => exact execTrackWord_keeps g s _ hx
  | edgeIngress g => exact execEdgeIngress_keeps g s _ hx
  | ingressBufferRelease g => exact execIngressBufferRelease_keeps g s _ hx
  | bankDecision g b upsets => exact execBankDecision_keeps g b upsets s _ hx
  | nop g => exact execNop_keeps g s _ hx
  | halt g => exact execHalt_keeps g s _ hx
  | ret g => exact execRet_keeps g s _ hx
  | fence g => exact execFence_keeps g s _ hx
  | fenceComplete g => exact execFenceComplete_keeps g s _ hx
  | switch g => exact execSwitch_keeps g s _ hx
  | prep g => exact execPrep_keeps g s _ hx
  | wait g => exact execWait_keeps g s _ hx
  | waitDone g => exact execWaitDone_keeps g s _ hx
  | waitt g => exact execWaitt_keeps g s _ hx
  | waittMet g => exact execWaittMet_keeps g s _ hx
  | waittTimeout g => exact execWaittTimeout_keeps g s _ hx
  | br g => exact execBr_keeps g s _ hx
  | brc g => exact execBrc_keeps g s _ hx
  | loop g => exact execLoop_keeps g s _ hx
  | call g => exact execCall_keeps g s _ hx
  | setf g => exact execSetf_keeps g s _ hx
  | clrf g => exact execClrf_keeps g s _ hx
  | emit g => exact execEmit_keeps g s _ hx
  | capt g => exact execCapt_keeps g s _ hx
  | dma g => exact execDma_keeps g s _ hx
  | dmaComplete g d => exact execDmaComplete_keeps g d s _ hx
  | triggerEdge g i => exact execTriggerEdge_keeps g i s _ hx
  | watchdogBite g => exact execWatchdogBite_keeps g s _ hx
  | transferStart g upsets => exact execTransferStart_keeps g upsets s _ hx
  | fillComplete g => exact execFillComplete_keeps g s _ hx
  | spillComplete g => exact execSpillComplete_keeps g s _ hx
  | configPortBoundary g => exact execConfigPortBoundary_keeps g s _ hx
  | packetSend p err => exact execPacketSend_keeps p err s _ hx
  | gtWindowSend i => exact execGtWindowSend_keeps i s _ hx
  | meshWrite i => exact execMeshWrite_keeps i s _ hx
  | meshReadReq i => exact execMeshReadReq_keeps i s _ hx
  | meshReadRsp i => exact execMeshReadRsp_keeps i s _ hx
  | meshError i => exact execMeshError_keeps i s _ hx
  | meshMessage i => exact execMeshMessage_keeps i s _ hx
  | meshWake i => exact execMeshWake_keeps i s _ hx
  | meshConfig i => exact execMeshConfig_keeps i s _ hx
  | transactionTimeout node port tag => exact execTransactionTimeout_keeps node port tag s _ hx
  | wakeComplete d => exact execWakeComplete_keeps d s _ hx
  | egressPacketClose g e => exact execEgressPacketClose_keeps g e s _ hx
  | flowCommit f v => exact execFlowCommit_keeps f v s _ hx
  | flowRelease f v => exact execFlowRelease_keeps f v s _ hx
  | nocDeadSet v => exact execNocDeadSet_keeps v s _ hx
  | nocDeadClear v => exact execNocDeadClear_keeps v s _ hx
  | cdrLock u => exact execCdrLock_keeps u s _ hx
  | shLock u => exact execShLock_keeps u s _ hx
  | embLock u inverted => exact execEmbLock_keeps u inverted s _ hx
  | idWindowDone u carried => exact execIdWindowDone_keeps u carried s _ hx
  | releaseWaitDone u earliest latest => exact execReleaseWaitDone_keeps u earliest latest s _ hx
  | linkDown u lane why => exact execLinkDown_keeps u lane why s _ hx
  | sysrefCapture => exact execSysrefCapture_keeps s _ hx
  | sysrefAbsent u => exact execSysrefAbsent_keeps u s _ hx
  | sysrefArm u v => exact execSysrefArm_keeps u v s _ hx
  | packetGroupRelease u bytes => exact execPacketGroupRelease_keeps u bytes s _ hx
  | txStreamWrite i => exact execTxStreamWrite_keeps i s _ hx
  | txFrameDue u => exact execTxFrameDue_keeps u s _ hx
  | eqEvaluation u want => exact execEqEvaluation_keeps u want s _ hx
  | portProtocol u v => exact execPortProtocol_keeps u v s _ hx
  | linkCommit u v => exact execLinkCommit_keeps u v s _ hx
  | linkDisable u v => exact execLinkDisable_keeps u v s _ hx
  | seamBlockLock u => exact execSeamBlockLock_keeps u s _ hx
  | seamTrainRx u block inverted => exact execSeamTrainRx_keeps u block inverted s _ hx
  | seamTimeRx u block arrival => exact execSeamTimeRx_keeps u block arrival s _ hx
  | seamTimeSend u => exact execSeamTimeSend_keeps u s _ hx
  | seamUnitRx u block => exact execSeamUnitRx_keeps u block s _ hx
  | seamIdleRx u block => exact execSeamIdleRx_keeps u block s _ hx
  | seamNakRx u block => exact execSeamNakRx_keeps u block s _ hx
  | seamReplayTimeout u => exact execSeamReplayTimeout_keeps u s _ hx
  | seamBudgetExhausted u => exact execSeamBudgetExhausted_keeps u s _ hx
  | seamPacketSend i => exact execSeamPacketSend_keeps i s _ hx
  | seamRetrain u v => exact execSeamRetrain_keeps u v s _ hx
  | triggerLineRx line level => exact execTriggerLineRx_keeps line level s _ hx
  | tndCaptureArm => exact execTndCaptureArm_keeps s _ hx
  | trigDriveEn v => exact execTrigDriveEn_keeps v s _ hx
  | icpStageWrite i => exact execIcpStageWrite_keeps i s _ hx
  | icpCommit g => exact execIcpCommit_keeps g s _ hx
  | icpConfigSubmit i => exact execIcpConfigSubmit_keeps i s _ hx
  | sweepPassStart => exact execSweepPassStart_keeps s _ hx
  | sweepEntryDue flips upsets => exact execSweepEntryDue_keeps flips upsets s _ hx
  | sweepRepairWrite => exact execSweepRepairWrite_keeps s _ hx
  | sweepVoteFailure => exact execSweepVoteFailure_keeps s _ hx
  | sweepHeartbeatTimeout => exact execSweepHeartbeatTimeout_keeps s _ hx
  | sweepRestartDone => exact execSweepRestartDone_keeps s _ hx
  | assaySegmentStart g h => exact execAssaySegmentStart_keeps g h s _ hx
  | assaySegmentDone g h matched => exact execAssaySegmentDone_keeps g h matched s _ hx
  | assayLinkUnit n d arrived => exact execAssayLinkUnit_keeps n d arrived s _ hx
  | assayCycleDone => exact execAssayCycleDone_keeps s _ hx
  | assayEnable v => exact execAssayEnable_keeps v s _ hx
  | assayDisable v => exact execAssayDisable_keeps v s _ hx
  | presnChange u present => exact execPresnChange_keeps u present s _ hx
  | tallyReadStart u => exact execTallyReadStart_keeps u s _ hx
  | tallyRetry u => exact execTallyRetry_keeps u s _ hx
  | tallyReadDone u answer => exact execTallyReadDone_keeps u answer s _ hx
  | tallyReread u v => exact execTallyReread_keeps u v s _ hx
  | pinBiasProbe pin kind => exact execPinBiasProbe_keeps pin kind s _ hx
  | driverReadbackFault pin kind => exact execDriverReadbackFault_keeps pin kind s _ hx
  | timingLineReversed line => exact execTimingLineReversed_keeps line s _ hx
  | tallyBusProbe bus line kind => exact execTallyBusProbe_keeps bus line kind s _ hx
  | lampTxReadback kind => exact execLampTxReadback_keeps kind s _ hx
  | presnNoAck u => exact execPresnNoAck_keeps u s _ hx
  | prefetchFillAbandoned g => exact execPrefetchFillAbandoned_keeps g s _ hx
  | timingReversedCleared line => exact execTimingReversedCleared_keeps line s _ hx
  | msixHoldoffExpiry => exact execMsixHoldoffExpiry_keeps s _ hx
  | seamSignalLost u => exact execSeamSignalLost_keeps u s _ hx

@[simp] theorem State.withFetchWord_keeps (s : State) (nbits w : Nat) :
    (State.withFetchWord s nbits w).pending = s.pending ∧ (State.withFetchWord s nbits w).variant = s.variant := ⟨rfl, rfl⟩

end Sys2Proof.Machine
end

