-- ==== Sys2Proof/Laws/Mesh.lean ====
section
/-!
SUPPORT. What the shared operations of the mesh do, said once: a packet at its target, the end of a transaction, and
beats written to stream memory.
-/

namespace Sys2Proof.Machine

theorem toNat_count (s : State) (n k : Nat) : ((s.count n k).par n).toNat = Min.min 0xFFFFFFFF ((s.par n).toNat + k) := by
  rw [State.par_count_same, toNat_wd]; omega

theorem noteCommit_rest (p : Packet) (s : State) : noteCommit p s = { s with gals := (noteCommit p s).gals } := by
  unfold noteCommit
  simp only
  split
  · split <;> rfl
  · rfl

theorem contains_of_find {l : List Trans} {f : Trans → Bool} {t : Trans} (h : l.find? f = some t) : l.contains t = true := by
  rw [List.contains_iff_mem]; exact List.mem_of_find?_eq_some h

theorem endTrans_eq {t : Trans} {u : State} {l : List Trans} {f : Trans → Bool} (hu : u.mesh.trans = l) (h : l.find? f = some t) (st : Nat) (d : List Byte) :
    endTrans t st d u = t.purpose.close st d { u with mesh := { u.mesh with trans := l.erase t } } := by
  unfold endTrans
  rw [hu, if_pos (contains_of_find h)]

theorem gate_open {s : State} {i : Nat} {f : Flying} {t : Target} (h : s.Arrives i f t) (u : State)
    (hu : u = { s with mesh := { s.mesh with flight := s.mesh.flight.eraseIdx i } }) : gate t f u = none := by
  have h1 : t.absent u.variant = false := by rw [hu]; exact h.present
  have h2 : (match t.unit with | some v => u.isDead v | none => false) = false := by
    cases hx : t.unit with
    | none => rfl
    | some v => rw [hu]; exact h.alive v hx
  unfold gate
  simp only [h1, Bool.false_eq_true, if_false]
  rw [if_neg (by intro hh; exact absurd (hh.symm.trans h2) (by decide))]
  cases hx : t.domain u.variant with
  | none => rfl
  | some d =>
    have hx' : t.domain s.variant = some d := by rw [hu] at hx; exact hx
    obtain ⟨a, b, c⟩ := h.open' d hx'
    have a' : (u.dom d).st = .on := by rw [hu]; exact a
    have b' : (u.dom d).rekindling = false := by rw [hu]; exact b
    have c' : u.holdsAt d f.pkt = false := by rw [hu]; exact c
    simp [a', b', c']

theorem arrive_eq {s : State} {i : Nat} {f : Flying} {t : Target} (h : s.Arrives i f t) {cmds : List Nat} {at' : Target → Bool}
    {act : Target → Packet → State → State} (hc : cmds.contains f.pkt.cmd = true) (ha : at' t = true) :
    arrive i cmds at' act s = if f.pkt.poison && decide (f.pkt.cmd = 0 ∨ f.pkt.cmd = 5) then (s.taken i f).count 0x3028 1
      else act t f.pkt (s.taken i f) := by
  have hfirst : firstInStream (s.mesh.flight.map (·.pkt)) i = true := by
    unfold firstInStream
    rw [List.getElem?_map, h.here]
    simp only [Option.map_some, Bool.not_eq_true', List.any_eq_false, Bool.not_eq_true]
    intro q hq
    rw [← List.map_take] at hq
    obtain ⟨e, he, rfl⟩ := List.mem_map.1 hq
    exact h.first e he
  unfold arrive
  rw [h.here]
  simp only [h.clocked, hc, h.card, h.target, ha, hfirst, decide_false, ne_eq, not_true_eq_false, Bool.not_true, Bool.or_false, Bool.false_eq_true, if_false]
  rw [gate_open h _ rfl]
  rfl

theorem taken_rest (s : State) (i : Nat) (f : Flying) : s.taken i f =
    { s with params := (s.taken i f).params, mesh := { s.mesh with flight := s.mesh.flight.eraseIdx i } } := by
  unfold State.taken noteWorst
  simp only
  split
  · split <;> rfl
  · rfl

theorem memByte_memWrite (m : Memory) (a c : Nat) (l : List Byte) :
    memByte (memWrite m a l) c = if a ≤ c ∧ c < a + l.length then byteAt l (c - a) else memByte m c := by
  split
  · rename_i h
    obtain ⟨i, rfl⟩ := Nat.exists_eq_add_of_le h.1
    rw [memByte_memWrite_in _ _ _ _ (by omega), Nat.add_sub_cancel_left]
    simp [byteAt, List.getD_eq_getElem?_getD]
  · rename_i h
    exact memByte_memWrite_out _ _ _ _ (by omega)

theorem writeBeats_spec (g : Nat) : ∀ (n a : Nat) (d : List Byte) (s : State), s.kin.writeEn = true → d.length = 16 * n →
    let u := writeBeats g n a d s
    u = { s with gals := u.gals } ∧ (∀ k, k ≠ g → u.gal k = s.gal k) ∧
    (∀ b, memByte (u.gal g).mem b = if a ≤ b ∧ b < a + 16 * n then byteAt d (b - a) else memByte (s.gal g).mem b) ∧
    (u.gal g).seq = (s.gal g).seq := by
  intro n
  induction n with
  | zero =>
    intro a d s _ _ u
    refine ⟨rfl, fun _ _ => rfl, fun b => ?_, rfl⟩
    rw [if_neg (by omega)]; rfl
  | succ n ih =>
    intro a d s hw hl u
    let s1 := writeBeat g a (d.take 16) s
    have e1 : s1 = s.modGal g (fun x => putBeat a (d.take 16) (abandonOn a x)) := by
      show writeBeat _ _ _ _ = _; unfold writeBeat; rw [if_pos hw]
    have hon : ∀ x : Gallery, (abandonOn a x).mem = x.mem ∧ (abandonOn a x).seq = x.seq := by
      intro x; unfold abandonOn; split <;> exact ⟨rfl, rfl⟩
    have g1 : s1.gal g = putBeat a (d.take 16) (abandonOn a (s.gal g)) := by rw [e1, State.gal_modGal_same]
    have hmark : ∀ x : Gallery, (markWritten a x).mem = x.mem ∧ (markWritten a x).march = x.march ∧ (markWritten a x).seq = x.seq := by
      intro x; unfold markWritten; split <;> exact ⟨rfl, rfl, rfl⟩
    have htake : (d.take 16 ++ List.replicate 16 0).take 16 = d.take 16 := by
      rw [List.take_append_of_le_length (by rw [List.length_take]; omega), List.take_take]; rfl
    have hmem : (s1.gal g).mem = memWrite (s.gal g).mem a (d.take 16) := by
      rw [g1]; unfold putBeat; rw [(hmark _).1, htake]; show memWrite (abandonOn a (s.gal g)).mem _ _ = _; rw [(hon _).1]
    have hseq : (s1.gal g).seq = (s.gal g).seq := by rw [g1]; unfold putBeat; rw [(hmark _).2.2]; exact (hon _).2
    obtain ⟨i1, i2, i3, i4⟩ := ih (a + 16) (d.drop 16) s1 (by rw [e1]; exact hw) (by rw [List.length_drop]; omega)
    have eu : u = writeBeats g n (a + 16) (d.drop 16) s1 := rfl
    rw [← eu] at i1 i2 i3 i4
    refine ⟨?_, fun k hk => ?_, fun b => ?_, i4.trans hseq⟩
    · rw [i1, e1]; rfl
    · rw [i2 k hk, e1, State.gal_modGal_ne _ _ _ _ hk]
    · rw [i3 b, hmem, memByte_memWrite]
      have hlen : (d.take 16).length = 16 := by rw [List.length_take]; omega
      rw [hlen]
      by_cases h1 : a + 16 ≤ b ∧ b < a + 16 + 16 * n
      · rw [if_pos h1, if_pos (by omega)]
        unfold byteAt
        rw [List.getD_eq_getElem?_getD, List.getD_eq_getElem?_getD, List.getElem?_drop, show 16 + (b - (a + 16)) = b - a by omega]
      · rw [if_neg h1]
        by_cases h2 : a ≤ b ∧ b < a + 16
        · rw [if_pos h2, if_pos (by omega)]
          unfold byteAt
          rw [List.getD_eq_getElem?_getD, List.getD_eq_getElem?_getD, List.getElem?_take_of_lt (by omega)]
        · rw [if_neg h2, if_neg (by omega)]

/-- A command that may start does what its type does. -/
theorem runCmd_eq {s : State} {c : Cmd} {type : Nat} (h : s.Starts c type) (act : Cmd → State → State) :
    runCmd c.via type act s = act c s := by
  have hf := h.first
  unfold runCmd
  cases hi : s.lamp.inbox with
  | nil => rw [hi] at hf; cases hf
  | cons d r =>
    rw [hi] at hf
    cases hf
    simp [h.clocked, h.type, h.ready]

/-- A single host write that is carried out ends with the status of its action. -/
theorem hostEntry_eq {s : State} {n : Nat} (h : s.Writes n) (act : State → Nat × State) :
    hostEntry n act s = (act s).2.ended (act s).1 := by
  unfold hostEntry
  have h1 : (!s.clocked || (!s.user && decide (n ≠ 0x22))) = false := by
    rcases h.user with hu | hu <;> simp [h.clocked, hu]
  obtain ⟨i, hi⟩ := Option.isSome_iff_exists.1 h.known
  simp only [h1, hi, h.present, Bool.false_eq_true, if_false]
  rfl

end Sys2Proof.Machine
end

