-- ==== Sys2Proof/Laws/PerInstr.lean ====
section
/-!
SUPPORT. Claims over every command, made one constructor at a time: a well-formed command names only galleries and
ports the device has numbers for (R14).
-/

namespace Sys2Proof.Laws

/-- The gallery a command names. -/
def galleryOf : Instr → Option Nat
  | .damperSequencerDamped g => some g
  | .damperDrained g => some g
  | .drainLimitExpiry g => some g
  | .rekindleDone g => some g
  | .pass g _ => some g
  | .dly g _ => some g
  | .add g _ => some g
  | .sub g _ => some g
  | .neg g _ => some g
  | .abs g _ => some g
  | .min g _ => some g
  | .max g _ => some g
  | .and g _ => some g
  | .or g _ => some g
  | .xor g _ => some g
  | .not g _ => some g
  | .shl g _ => some g
  | .shr g _ => some g
  | .shra g _ => some g
  | .rot g _ => some g
  | .clz g _ => some g
  | .popc g _ => some g
  | .mul g _ => some g
  | .mulh g _ => some g
  | .mac g _ => some g
  | .msu g _ => some g
  | .rnd g _ => some g
  | .cmp g _ => some g
  | .sel g _ => some g
  | .div g _ => some g
  | .rem g _ => some g
  | .pack g _ => some g
  | .unpk g _ => some g
  | .ld g _ => some g
  | .st g _ => some g
  | .trackWord g => some g
  | .edgeIngress g => some g
  | .ingressBufferRelease g => some g
  | .bankDecision g _ _ => some g
  | .nop g => some g
  | .halt g => some g
  | .ret g => some g
  | .fence g => some g
  | .fenceComplete g => some g
  | .switch g => some g
  | .prep g => some g
  | .wait g => some g
  | .waitDone g => some g
  | .waitt g => some g
  | .waittMet g => some g
  | .waittTimeout g => some g
  | .br g => some g
  | .brc g => some g
  | .loop g => some g
  | .call g => some g
  | .setf g => some g
  | .clrf g => some g
  | .emit g => some g
  | .capt g => some g
  | .dma g => some g
  | .dmaComplete g _ => some g
  | .triggerEdge g _ => some g
  | .watchdogBite g => some g
  | .transferStart g _ => some g
  | .fillComplete g => some g
  | .spillComplete g => some g
  | .egressPacketClose g _ => some g
  | .icpCommit g => some g
  | .assaySegmentStart g _ => some g
  | .assaySegmentDone g _ _ => some g
  | .prefetchFillAbandoned g => some g
  | _ => none

/-- The port a command names. -/
def portOf : Instr → Option Nat
  | .cdrLock s => some s
  | .shLock s => some s
  | .embLock s _ => some s
  | .idWindowDone s _ => some s
  | .releaseWaitDone s _ _ => some s
  | .linkDown s _ _ => some s
  | .sysrefAbsent s => some s
  | .sysrefArm s _ => some s
  | .packetGroupRelease s _ => some s
  | .txFrameDue s => some s
  | .eqEvaluation s _ => some s
  | .portProtocol s _ => some s
  | .linkCommit s _ => some s
  | .linkDisable s _ => some s
  | .seamBlockLock s => some s
  | .seamTrainRx s _ _ => some s
  | .seamTimeRx s _ _ => some s
  | .seamTimeSend s => some s
  | .seamUnitRx s _ => some s
  | .seamIdleRx s _ => some s
  | .seamNakRx s _ => some s
  | .seamReplayTimeout s => some s
  | .seamBudgetExhausted s => some s
  | .seamRetrain s _ => some s
  | .presnChange s _ => some s
  | .tallyReadStart s => some s
  | .tallyRetry s => some s
  | .tallyReadDone s _ => some s
  | .tallyReread s _ => some s
  | .presnNoAck s => some s
  | .seamSignalLost s => some s
  | _ => none

/-- A well-formed command names a gallery and a port that the device has numbers for. -/
def Operands.Statement (i : Instr) : Prop :=
  i.wf = true → (∀ g, galleryOf i = some g → g < 16) ∧ (∀ p, portOf i = some p → p < 16)

/-- A command that names no unit. -/
theorem Operands.of_none {i : Instr} (hg : galleryOf i = none) (hp : portOf i = none) : Operands.Statement i :=
  fun _ => ⟨fun _ h => absurd (hg.symm.trans h) nofun, fun _ h => absurd (hp.symm.trans h) nofun⟩

/-- A command that names one gallery, checked first. -/
theorem Operands.of_gallery {i : Instr} {g : Nat} {rest : Bool} (hg : galleryOf i = some g) (hp : portOf i = none)
    (hw : i.wf = (okGal g && rest)) : Operands.Statement i := by
  intro w
  rw [hw, Bool.and_eq_true] at w
  refine ⟨fun k h => ?_, fun _ h => absurd (hp.symm.trans h) nofun⟩
  cases hg.symm.trans h
  exact of_decide_eq_true w.1

/-- A command that names one port, checked first. -/
theorem Operands.of_port {i : Instr} {p : Nat} {rest : Bool} (hg : galleryOf i = none) (hp : portOf i = some p)
    (hw : i.wf = (okPort p && rest)) : Operands.Statement i := by
  intro w
  rw [hw, Bool.and_eq_true] at w
  refine ⟨fun _ h => absurd (hg.symm.trans h) nofun, fun k h => ?_⟩
  cases hp.symm.trans h
  exact of_decide_eq_true w.1

theorem Operands.coldReset : Operands.Statement (.coldReset) := Operands.of_none rfl rfl

theorem Operands.coldRstnRise (straps : BitVec 4) (moving : BitVec 4) (ratios : List Nat) (railsGood : Bool) : Operands.Statement (.coldRstnRise straps moving ratios railsGood) :=
  Operands.of_none rfl rfl

theorem Operands.refLost : Operands.Statement (.refLost) := Operands.of_none rfl rfl

theorem Operands.pllUnlock : Operands.Statement (.pllUnlock) := Operands.of_none rfl rfl

theorem Operands.refPresent : Operands.Statement (.refPresent) := Operands.of_none rfl rfl

theorem Operands.stopWaitExpiry : Operands.Statement (.stopWaitExpiry) := Operands.of_none rfl rfl

theorem Operands.relockTimeout : Operands.Statement (.relockTimeout) := Operands.of_none rfl rfl

theorem Operands.clockStartFail (missing : Bool) : Operands.Statement (.clockStartFail missing) :=
  Operands.of_none rfl rfl

theorem Operands.pllLock (periods : Nat) : Operands.Statement (.pllLock periods) := Operands.of_none rfl rfl

theorem Operands.beaconFrame : Operands.Statement (.beaconFrame) := Operands.of_none rfl rfl

theorem Operands.brownOut (rail : Nat) : Operands.Statement (.brownOut rail) := Operands.of_none rfl rfl

theorem Operands.railRecovered : Operands.Statement (.railRecovered) := Operands.of_none rfl rfl

theorem Operands.syncCapture (marginal : Bool) : Operands.Statement (.syncCapture marginal) :=
  Operands.of_none rfl rfl

theorem Operands.syncAbsent : Operands.Statement (.syncAbsent) := Operands.of_none rfl rfl

theorem Operands.tbAlign (v : Word) : Operands.Statement (.tbAlign v) := Operands.of_none rfl rfl

theorem Operands.avsEvaluation (low : BitVec 17) (high : BitVec 17) : Operands.Statement (.avsEvaluation low high) :=
  Operands.of_none rfl rfl

theorem Operands.thermAlert (tj : BitVec 16) (sensor : Nat) : Operands.Statement (.thermAlert tj sensor) :=
  Operands.of_none rfl rfl

theorem Operands.thermTrip (tj : BitVec 16) : Operands.Statement (.thermTrip tj) := Operands.of_none rfl rfl

theorem Operands.thermGateStep (tj : BitVec 16) : Operands.Statement (.thermGateStep tj) := Operands.of_none rfl rfl

theorem Operands.thermCritical (tj : BitVec 16) (sensor : Nat) : Operands.Statement (.thermCritical tj sensor) :=
  Operands.of_none rfl rfl

theorem Operands.keeperCycle16 : Operands.Statement (.keeperCycle16) := Operands.of_none rfl rfl

theorem Operands.domainPowerUp (good : Bool) : Operands.Statement (.domainPowerUp good) := Operands.of_none rfl rfl

theorem Operands.journalScan (upsets : List Upset) : Operands.Statement (.journalScan upsets) :=
  Operands.of_none rfl rfl

theorem Operands.bootRecordRead (upsets : List Upset) : Operands.Statement (.bootRecordRead upsets) :=
  Operands.of_none rfl rfl

theorem Operands.imageSelect (upsets : List Upset) : Operands.Statement (.imageSelect upsets) :=
  Operands.of_none rfl rfl

theorem Operands.imageHeaderCheck (upsets : List Upset) : Operands.Statement (.imageHeaderCheck upsets) :=
  Operands.of_none rfl rfl

theorem Operands.signatureCheck : Operands.Statement (.signatureCheck) := Operands.of_none rfl rfl

theorem Operands.contextTable : Operands.Statement (.contextTable) := Operands.of_none rfl rfl

theorem Operands.planeFrame : Operands.Statement (.planeFrame) := Operands.of_none rfl rfl

theorem Operands.switchFrame : Operands.Statement (.switchFrame) := Operands.of_none rfl rfl

theorem Operands.sequencerFrame : Operands.Statement (.sequencerFrame) := Operands.of_none rfl rfl

theorem Operands.tinderFrame : Operands.Statement (.tinderFrame) := Operands.of_none rfl rfl

theorem Operands.portDefaults : Operands.Statement (.portDefaults) := Operands.of_none rfl rfl

theorem Operands.contextSeed : Operands.Statement (.contextSeed) := Operands.of_none rfl rfl

theorem Operands.memPreload : Operands.Statement (.memPreload) := Operands.of_none rfl rfl

theorem Operands.fillRun : Operands.Statement (.fillRun) := Operands.of_none rfl rfl

theorem Operands.paramDefaults : Operands.Statement (.paramDefaults) := Operands.of_none rfl rfl

theorem Operands.essentialMap : Operands.Statement (.essentialMap) := Operands.of_none rfl rfl

theorem Operands.goldenTable : Operands.Statement (.goldenTable) := Operands.of_none rfl rfl

theorem Operands.endFrame : Operands.Statement (.endFrame) := Operands.of_none rfl rfl

theorem Operands.lockWait : Operands.Statement (.lockWait) := Operands.of_none rfl rfl

theorem Operands.lockLimitExpiry : Operands.Statement (.lockLimitExpiry) := Operands.of_none rfl rfl

theorem Operands.outputRelease : Operands.Statement (.outputRelease) := Operands.of_none rfl rfl

theorem Operands.gsrRelease : Operands.Statement (.gsrRelease) := Operands.of_none rfl rfl

theorem Operands.writeEnable : Operands.Statement (.writeEnable) := Operands.of_none rfl rfl

theorem Operands.kindledRelease : Operands.Statement (.kindledRelease) := Operands.of_none rfl rfl

theorem Operands.kindledHigh : Operands.Statement (.kindledHigh) := Operands.of_none rfl rfl

theorem Operands.kindleEntry : Operands.Statement (.kindleEntry) := Operands.of_none rfl rfl

theorem Operands.holdTimeout : Operands.Statement (.holdTimeout) := Operands.of_none rfl rfl

theorem Operands.kindleHoldTimeout (v : Word) : Operands.Statement (.kindleHoldTimeout v) := Operands.of_none rfl rfl

theorem Operands.lampFrameRx (bytes : List Byte) : Operands.Statement (.lampFrameRx bytes) := Operands.of_none rfl rfl

theorem Operands.ownerTimeout : Operands.Statement (.ownerTimeout) := Operands.of_none rfl rfl

theorem Operands.ping (via : Transport) : Operands.Statement (.ping via) := Operands.of_none rfl rfl

theorem Operands.release (via : Transport) : Operands.Statement (.release via) := Operands.of_none rfl rfl

theorem Operands.reset (via : Transport) : Operands.Statement (.reset via) := Operands.of_none rfl rfl

theorem Operands.get (via : Transport) : Operands.Statement (.get via) := Operands.of_none rfl rfl

theorem Operands.set (via : Transport) : Operands.Statement (.set via) := Operands.of_none rfl rfl

theorem Operands.paramWrite (n : Nat) (v : Word) : Operands.Statement (.paramWrite n v) := Operands.of_none rfl rfl

theorem Operands.getPair (via : Transport) : Operands.Statement (.getPair via) := Operands.of_none rfl rfl

theorem Operands.flashRead (via : Transport) (upsets : List Upset) : Operands.Statement (.flashRead via upsets) :=
  Operands.of_none rfl rfl

theorem Operands.flashProgram (via : Transport) : Operands.Statement (.flashProgram via) := Operands.of_none rfl rfl

theorem Operands.flashProgramDone : Operands.Statement (.flashProgramDone) := Operands.of_none rfl rfl

theorem Operands.flashErase (via : Transport) : Operands.Statement (.flashErase via) := Operands.of_none rfl rfl

theorem Operands.flashEraseDone (clean : Bool) : Operands.Statement (.flashEraseDone clean) :=
  Operands.of_none rfl rfl

theorem Operands.flashSwap (via : Transport) : Operands.Statement (.flashSwap via) := Operands.of_none rfl rfl

theorem Operands.flashSwapDone (clean : Bool) : Operands.Statement (.flashSwapDone clean) := Operands.of_none rfl rfl

theorem Operands.imageBegin (via : Transport) : Operands.Statement (.imageBegin via) := Operands.of_none rfl rfl

theorem Operands.imageData (via : Transport) : Operands.Statement (.imageData via) := Operands.of_none rfl rfl

theorem Operands.imageAbort (via : Transport) : Operands.Statement (.imageAbort via) := Operands.of_none rfl rfl

theorem Operands.damperClose (via : Transport) : Operands.Statement (.damperClose via) := Operands.of_none rfl rfl

theorem Operands.damperSequencerDamped (g : Nat) : Operands.Statement (.damperSequencerDamped g) :=
  Operands.of_gallery rfl rfl (Bool.and_true _).symm

theorem Operands.damperDrained (g : Nat) : Operands.Statement (.damperDrained g) :=
  Operands.of_gallery rfl rfl (Bool.and_true _).symm

theorem Operands.drainLimitExpiry (g : Nat) : Operands.Statement (.drainLimitExpiry g) :=
  Operands.of_gallery rfl rfl (Bool.and_true _).symm

theorem Operands.portPairDrained (p : Nat) : Operands.Statement (.portPairDrained p) := Operands.of_none rfl rfl

theorem Operands.portDrainExpiry (p : Nat) : Operands.Statement (.portDrainExpiry p) := Operands.of_none rfl rfl

theorem Operands.powerDownComplete (d : Nat) : Operands.Statement (.powerDownComplete d) := Operands.of_none rfl rfl

theorem Operands.damperOpen (via : Transport) : Operands.Statement (.damperOpen via) := Operands.of_none rfl rfl

theorem Operands.rekindleDone (g : Nat) : Operands.Statement (.rekindleDone g) :=
  Operands.of_gallery rfl rfl (Bool.and_true _).symm

theorem Operands.tinderReloadDone : Operands.Statement (.tinderReloadDone) := Operands.of_none rfl rfl

theorem Operands.galReset (via : Transport) : Operands.Statement (.galReset via) := Operands.of_none rfl rfl

theorem Operands.portReset (via : Transport) : Operands.Statement (.portReset via) := Operands.of_none rfl rfl

theorem Operands.configWrite (via : Transport) : Operands.Statement (.configWrite via) := Operands.of_none rfl rfl

theorem Operands.memFill (via : Transport) : Operands.Statement (.memFill via) := Operands.of_none rfl rfl

theorem Operands.memRead (via : Transport) : Operands.Statement (.memRead via) := Operands.of_none rfl rfl

theorem Operands.memWrite (via : Transport) : Operands.Statement (.memWrite via) := Operands.of_none rfl rfl

theorem Operands.captArm (via : Transport) : Operands.Statement (.captArm via) := Operands.of_none rfl rfl

theorem Operands.captRelease (via : Transport) : Operands.Statement (.captRelease via) := Operands.of_none rfl rfl

theorem Operands.captRead (via : Transport) : Operands.Statement (.captRead via) := Operands.of_none rfl rfl

theorem Operands.captureTaken : Operands.Statement (.captureTaken) := Operands.of_none rfl rfl

theorem Operands.eventTake : Operands.Statement (.eventTake) := Operands.of_none rfl rfl

theorem Operands.reportSend : Operands.Statement (.reportSend) := Operands.of_none rfl rfl

theorem Operands.cmdSlotWrite (slot : Nat) (off : Nat) (bytes : List Byte) : Operands.Statement (.cmdSlotWrite slot off bytes) :=
  Operands.of_none rfl rfl

theorem Operands.cmdDoorbell (v : Word) : Operands.Statement (.cmdDoorbell v) := Operands.of_none rfl rfl

theorem Operands.rspAck : Operands.Statement (.rspAck) := Operands.of_none rfl rfl

theorem Operands.slotCopy : Operands.Statement (.slotCopy) := Operands.of_none rfl rfl

theorem Operands.ringDoorbell (v : Word) : Operands.Statement (.ringDoorbell v) := Operands.of_none rfl rfl

theorem Operands.ringArm (v : Word) : Operands.Statement (.ringArm v) := Operands.of_none rfl rfl

theorem Operands.bar2Write (off : Nat) (bytes : List Byte) (enables : Bool) : Operands.Statement (.bar2Write off bytes enables) :=
  Operands.of_none rfl rfl

theorem Operands.bar2Read (off : Nat) (len : Nat) (tag : Nat) : Operands.Statement (.bar2Read off len tag) :=
  Operands.of_none rfl rfl

theorem Operands.bar2ReadComplete (tag : Nat) : Operands.Statement (.bar2ReadComplete tag) := Operands.of_none rfl rfl

theorem Operands.upstreamWrite (i : Nat) : Operands.Statement (.upstreamWrite i) := Operands.of_none rfl rfl

theorem Operands.upstreamMsix (i : Nat) : Operands.Statement (.upstreamMsix i) := Operands.of_none rfl rfl

theorem Operands.pcieConfigRequest (write : Bool) (reg : Nat) (v : Word) : Operands.Statement (.pcieConfigRequest write reg v) :=
  Operands.of_none rfl rfl

theorem Operands.pcieReset : Operands.Statement (.pcieReset) := Operands.of_none rfl rfl

theorem Operands.pcieLinkDown : Operands.Statement (.pcieLinkDown) := Operands.of_none rfl rfl

theorem Operands.pcieLinkUp (width : Nat) (gen : Nat) : Operands.Statement (.pcieLinkUp width gen) :=
  Operands.of_none rfl rfl

theorem Operands.pass (g : Nat) (h : Nat) : Operands.Statement (.pass g h) := Operands.of_gallery rfl rfl rfl

theorem Operands.dly (g : Nat) (h : Nat) : Operands.Statement (.dly g h) := Operands.of_gallery rfl rfl rfl

theorem Operands.add (g : Nat) (h : Nat) : Operands.Statement (.add g h) := Operands.of_gallery rfl rfl rfl

theorem Operands.sub (g : Nat) (h : Nat) : Operands.Statement (.sub g h) := Operands.of_gallery rfl rfl rfl

theorem Operands.neg (g : Nat) (h : Nat) : Operands.Statement (.neg g h) := Operands.of_gallery rfl rfl rfl

theorem Operands.abs (g : Nat) (h : Nat) : Operands.Statement (.abs g h) := Operands.of_gallery rfl rfl rfl

theorem Operands.min (g : Nat) (h : Nat) : Operands.Statement (.min g h) := Operands.of_gallery rfl rfl rfl

theorem Operands.max (g : Nat) (h : Nat) : Operands.Statement (.max g h) := Operands.of_gallery rfl rfl rfl

theorem Operands.and (g : Nat) (h : Nat) : Operands.Statement (.and g h) := Operands.of_gallery rfl rfl rfl

theorem Operands.or (g : Nat) (h : Nat) : Operands.Statement (.or g h) := Operands.of_gallery rfl rfl rfl

theorem Operands.xor (g : Nat) (h : Nat) : Operands.Statement (.xor g h) := Operands.of_gallery rfl rfl rfl

theorem Operands.not (g : Nat) (h : Nat) : Operands.Statement (.not g h) := Operands.of_gallery rfl rfl rfl

theorem Operands.shl (g : Nat) (h : Nat) : Operands.Statement (.shl g h) := Operands.of_gallery rfl rfl rfl

theorem Operands.shr (g : Nat) (h : Nat) : Operands.Statement (.shr g h) := Operands.of_gallery rfl rfl rfl

theorem Operands.shra (g : Nat) (h : Nat) : Operands.Statement (.shra g h) := Operands.of_gallery rfl rfl rfl

theorem Operands.rot (g : Nat) (h : Nat) : Operands.Statement (.rot g h) := Operands.of_gallery rfl rfl rfl

theorem Operands.clz (g : Nat) (h : Nat) : Operands.Statement (.clz g h) := Operands.of_gallery rfl rfl rfl

theorem Operands.popc (g : Nat) (h : Nat) : Operands.Statement (.popc g h) := Operands.of_gallery rfl rfl rfl

theorem Operands.mul (g : Nat) (h : Nat) : Operands.Statement (.mul g h) := Operands.of_gallery rfl rfl rfl

theorem Operands.mulh (g : Nat) (h : Nat) : Operands.Statement (.mulh g h) := Operands.of_gallery rfl rfl rfl

theorem Operands.mac (g : Nat) (h : Nat) : Operands.Statement (.mac g h) := Operands.of_gallery rfl rfl rfl

theorem Operands.msu (g : Nat) (h : Nat) : Operands.Statement (.msu g h) := Operands.of_gallery rfl rfl rfl

theorem Operands.rnd (g : Nat) (h : Nat) : Operands.Statement (.rnd g h) := Operands.of_gallery rfl rfl rfl

theorem Operands.cmp (g : Nat) (h : Nat) : Operands.Statement (.cmp g h) := Operands.of_gallery rfl rfl rfl

theorem Operands.sel (g : Nat) (h : Nat) : Operands.Statement (.sel g h) := Operands.of_gallery rfl rfl rfl

theorem Operands.div (g : Nat) (h : Nat) : Operands.Statement (.div g h) := Operands.of_gallery rfl rfl rfl

theorem Operands.rem (g : Nat) (h : Nat) : Operands.Statement (.rem g h) := Operands.of_gallery rfl rfl rfl

theorem Operands.pack (g : Nat) (h : Nat) : Operands.Statement (.pack g h) := Operands.of_gallery rfl rfl rfl

theorem Operands.unpk (g : Nat) (h : Nat) : Operands.Statement (.unpk g h) := Operands.of_gallery rfl rfl rfl

theorem Operands.ld (g : Nat) (h : Nat) : Operands.Statement (.ld g h) := Operands.of_gallery rfl rfl rfl

theorem Operands.st (g : Nat) (h : Nat) : Operands.Statement (.st g h) := Operands.of_gallery rfl rfl rfl

theorem Operands.trackWord (g : Nat) : Operands.Statement (.trackWord g) :=
  Operands.of_gallery rfl rfl (Bool.and_true _).symm

theorem Operands.edgeIngress (g : Nat) : Operands.Statement (.edgeIngress g) :=
  Operands.of_gallery rfl rfl (Bool.and_true _).symm

theorem Operands.ingressBufferRelease (g : Nat) : Operands.Statement (.ingressBufferRelease g) :=
  Operands.of_gallery rfl rfl (Bool.and_true _).symm

theorem Operands.bankDecision (g : Nat) (b : Nat) (upsets : List Upset) : Operands.Statement (.bankDecision g b upsets) :=
  Operands.of_gallery rfl rfl rfl

theorem Operands.nop (g : Nat) : Operands.Statement (.nop g) := Operands.of_gallery rfl rfl (Bool.and_true _).symm

theorem Operands.halt (g : Nat) : Operands.Statement (.halt g) := Operands.of_gallery rfl rfl (Bool.and_true _).symm

theorem Operands.ret (g : Nat) : Operands.Statement (.ret g) := Operands.of_gallery rfl rfl (Bool.and_true _).symm

theorem Operands.fence (g : Nat) : Operands.Statement (.fence g) := Operands.of_gallery rfl rfl (Bool.and_true _).symm

theorem Operands.fenceComplete (g : Nat) : Operands.Statement (.fenceComplete g) :=
  Operands.of_gallery rfl rfl (Bool.and_true _).symm

theorem Operands.switch (g : Nat) : Operands.Statement (.switch g) :=
  Operands.of_gallery rfl rfl (Bool.and_true _).symm

theorem Operands.prep (g : Nat) : Operands.Statement (.prep g) := Operands.of_gallery rfl rfl (Bool.and_true _).symm

theorem Operands.wait (g : Nat) : Operands.Statement (.wait g) := Operands.of_gallery rfl rfl (Bool.and_true _).symm

theorem Operands.waitDone (g : Nat) : Operands.Statement (.waitDone g) :=
  Operands.of_gallery rfl rfl (Bool.and_true _).symm

theorem Operands.waitt (g : Nat) : Operands.Statement (.waitt g) := Operands.of_gallery rfl rfl (Bool.and_true _).symm

theorem Operands.waittMet (g : Nat) : Operands.Statement (.waittMet g) :=
  Operands.of_gallery rfl rfl (Bool.and_true _).symm

theorem Operands.waittTimeout (g : Nat) : Operands.Statement (.waittTimeout g) :=
  Operands.of_gallery rfl rfl (Bool.and_true _).symm

theorem Operands.br (g : Nat) : Operands.Statement (.br g) := Operands.of_gallery rfl rfl (Bool.and_true _).symm

theorem Operands.brc (g : Nat) : Operands.Statement (.brc g) := Operands.of_gallery rfl rfl (Bool.and_true _).symm

theorem Operands.loop (g : Nat) : Operands.Statement (.loop g) := Operands.of_gallery rfl rfl (Bool.and_true _).symm

theorem Operands.call (g : Nat) : Operands.Statement (.call g) := Operands.of_gallery rfl rfl (Bool.and_true _).symm

theorem Operands.setf (g : Nat) : Operands.Statement (.setf g) := Operands.of_gallery rfl rfl (Bool.and_true _).symm

theorem Operands.clrf (g : Nat) : Operands.Statement (.clrf g) := Operands.of_gallery rfl rfl (Bool.and_true _).symm

theorem Operands.emit (g : Nat) : Operands.Statement (.emit g) := Operands.of_gallery rfl rfl (Bool.and_true _).symm

theorem Operands.capt (g : Nat) : Operands.Statement (.capt g) := Operands.of_gallery rfl rfl (Bool.and_true _).symm

theorem Operands.dma (g : Nat) : Operands.Statement (.dma g) := Operands.of_gallery rfl rfl (Bool.and_true _).symm

theorem Operands.dmaComplete (g : Nat) (d : Nat) : Operands.Statement (.dmaComplete g d) :=
  Operands.of_gallery rfl rfl (Bool.and_true _).symm

theorem Operands.triggerEdge (g : Nat) (i : Nat) : Operands.Statement (.triggerEdge g i) :=
  Operands.of_gallery rfl rfl rfl

theorem Operands.watchdogBite (g : Nat) : Operands.Statement (.watchdogBite g) :=
  Operands.of_gallery rfl rfl (Bool.and_true _).symm

theorem Operands.transferStart (g : Nat) (upsets : List Upset) : Operands.Statement (.transferStart g upsets) :=
  Operands.of_gallery rfl rfl (Bool.and_true _).symm

theorem Operands.fillComplete (g : Nat) : Operands.Statement (.fillComplete g) :=
  Operands.of_gallery rfl rfl (Bool.and_true _).symm

theorem Operands.spillComplete (g : Nat) : Operands.Statement (.spillComplete g) :=
  Operands.of_gallery rfl rfl (Bool.and_true _).symm

theorem Operands.configPortBoundary (g : Nat) : Operands.Statement (.configPortBoundary g) := Operands.of_none rfl rfl

theorem Operands.packetSend (p : Packet) (err : LinkError) : Operands.Statement (.packetSend p err) :=
  Operands.of_none rfl rfl

theorem Operands.gtWindowSend (i : Nat) : Operands.Statement (.gtWindowSend i) := Operands.of_none rfl rfl

theorem Operands.meshWrite (i : Nat) : Operands.Statement (.meshWrite i) := Operands.of_none rfl rfl

theorem Operands.meshReadReq (i : Nat) : Operands.Statement (.meshReadReq i) := Operands.of_none rfl rfl

theorem Operands.meshReadRsp (i : Nat) : Operands.Statement (.meshReadRsp i) := Operands.of_none rfl rfl

theorem Operands.meshError (i : Nat) : Operands.Statement (.meshError i) := Operands.of_none rfl rfl

theorem Operands.meshMessage (i : Nat) : Operands.Statement (.meshMessage i) := Operands.of_none rfl rfl

theorem Operands.meshWake (i : Nat) : Operands.Statement (.meshWake i) := Operands.of_none rfl rfl

theorem Operands.meshConfig (i : Nat) : Operands.Statement (.meshConfig i) := Operands.of_none rfl rfl

theorem Operands.transactionTimeout (node : Nat) (port : Nat) (tag : Nat) : Operands.Statement (.transactionTimeout node port tag) :=
  Operands.of_none rfl rfl

theorem Operands.wakeComplete (d : Nat) : Operands.Statement (.wakeComplete d) := Operands.of_none rfl rfl

theorem Operands.egressPacketClose (g : Nat) (e : Nat) : Operands.Statement (.egressPacketClose g e) :=
  Operands.of_gallery rfl rfl rfl

theorem Operands.flowCommit (f : Nat) (v : Word) : Operands.Statement (.flowCommit f v) := Operands.of_none rfl rfl

theorem Operands.flowRelease (f : Nat) (v : Word) : Operands.Statement (.flowRelease f v) := Operands.of_none rfl rfl

theorem Operands.nocDeadSet (v : Word) : Operands.Statement (.nocDeadSet v) := Operands.of_none rfl rfl

theorem Operands.nocDeadClear (v : Word) : Operands.Statement (.nocDeadClear v) := Operands.of_none rfl rfl

theorem Operands.cdrLock (s : Nat) : Operands.Statement (.cdrLock s) :=
  Operands.of_port rfl rfl (Bool.and_true _).symm

theorem Operands.shLock (s : Nat) : Operands.Statement (.shLock s) := Operands.of_port rfl rfl (Bool.and_true _).symm

theorem Operands.embLock (s : Nat) (inverted : BitVec 8) : Operands.Statement (.embLock s inverted) :=
  Operands.of_port rfl rfl (Bool.and_true _).symm

theorem Operands.idWindowDone (s : Nat) (carried : List (Option Nat)) : Operands.Statement (.idWindowDone s carried) :=
  Operands.of_port rfl rfl (Bool.and_true _).symm

theorem Operands.releaseWaitDone (s : Nat) (earliest : Nat) (latest : Nat) : Operands.Statement (.releaseWaitDone s earliest latest) :=
  Operands.of_port rfl rfl (Bool.and_true _).symm

theorem Operands.linkDown (s : Nat) (lane : Nat) (why : DownCause) : Operands.Statement (.linkDown s lane why) :=
  Operands.of_port rfl rfl rfl

theorem Operands.sysrefCapture : Operands.Statement (.sysrefCapture) := Operands.of_none rfl rfl

theorem Operands.sysrefAbsent (s : Nat) : Operands.Statement (.sysrefAbsent s) :=
  Operands.of_port rfl rfl (Bool.and_true _).symm

theorem Operands.sysrefArm (s : Nat) (v : Word) : Operands.Statement (.sysrefArm s v) :=
  Operands.of_port rfl rfl (Bool.and_true _).symm

theorem Operands.packetGroupRelease (s : Nat) (bytes : List Byte) : Operands.Statement (.packetGroupRelease s bytes) :=
  Operands.of_port rfl rfl (Bool.and_true _).symm

theorem Operands.txStreamWrite (i : Nat) : Operands.Statement (.txStreamWrite i) := Operands.of_none rfl rfl

theorem Operands.txFrameDue (s : Nat) : Operands.Statement (.txFrameDue s) :=
  Operands.of_port rfl rfl (Bool.and_true _).symm

theorem Operands.eqEvaluation (s : Nat) (want : List Int) : Operands.Statement (.eqEvaluation s want) :=
  Operands.of_port rfl rfl rfl

theorem Operands.portProtocol (s : Nat) (v : Word) : Operands.Statement (.portProtocol s v) :=
  Operands.of_port rfl rfl (Bool.and_true _).symm

theorem Operands.linkCommit (s : Nat) (v : Word) : Operands.Statement (.linkCommit s v) :=
  Operands.of_port rfl rfl (Bool.and_true _).symm

theorem Operands.linkDisable (s : Nat) (v : Word) : Operands.Statement (.linkDisable s v) :=
  Operands.of_port rfl rfl (Bool.and_true _).symm

theorem Operands.seamBlockLock (s : Nat) : Operands.Statement (.seamBlockLock s) :=
  Operands.of_port rfl rfl (Bool.and_true _).symm

theorem Operands.seamTrainRx (s : Nat) (block : List Byte) (inverted : Bool) : Operands.Statement (.seamTrainRx s block inverted) :=
  Operands.of_port rfl rfl rfl

theorem Operands.seamTimeRx (s : Nat) (block : List Byte) (arrival : Tick) : Operands.Statement (.seamTimeRx s block arrival) :=
  Operands.of_port rfl rfl rfl

theorem Operands.seamTimeSend (s : Nat) : Operands.Statement (.seamTimeSend s) :=
  Operands.of_port rfl rfl (Bool.and_true _).symm

theorem Operands.seamUnitRx (s : Nat) (block : List Byte) : Operands.Statement (.seamUnitRx s block) :=
  Operands.of_port rfl rfl rfl

theorem Operands.seamIdleRx (s : Nat) (block : List Byte) : Operands.Statement (.seamIdleRx s block) :=
  Operands.of_port rfl rfl rfl

theorem Operands.seamNakRx (s : Nat) (block : List Byte) : Operands.Statement (.seamNakRx s block) :=
  Operands.of_port rfl rfl rfl

theorem Operands.seamReplayTimeout (s : Nat) : Operands.Statement (.seamReplayTimeout s) :=
  Operands.of_port rfl rfl (Bool.and_true _).symm

theorem Operands.seamBudgetExhausted (s : Nat) : Operands.Statement (.seamBudgetExhausted s) :=
  Operands.of_port rfl rfl (Bool.and_true _).symm

theorem Operands.seamPacketSend (i : Nat) : Operands.Statement (.seamPacketSend i) := Operands.of_none rfl rfl

theorem Operands.seamRetrain (s : Nat) (v : Word) : Operands.Statement (.seamRetrain s v) :=
  Operands.of_port rfl rfl (Bool.and_true _).symm

theorem Operands.triggerLineRx (line : Nat) (level : Bool) : Operands.Statement (.triggerLineRx line level) :=
  Operands.of_none rfl rfl

theorem Operands.tndCaptureArm : Operands.Statement (.tndCaptureArm) := Operands.of_none rfl rfl

theorem Operands.trigDriveEn (v : Word) : Operands.Statement (.trigDriveEn v) := Operands.of_none rfl rfl

theorem Operands.icpStageWrite (i : Nat) : Operands.Statement (.icpStageWrite i) := Operands.of_none rfl rfl

theorem Operands.icpCommit (g : Nat) : Operands.Statement (.icpCommit g) :=
  Operands.of_gallery rfl rfl (Bool.and_true _).symm

theorem Operands.icpConfigSubmit (i : Nat) : Operands.Statement (.icpConfigSubmit i) := Operands.of_none rfl rfl

theorem Operands.sweepPassStart : Operands.Statement (.sweepPassStart) := Operands.of_none rfl rfl

theorem Operands.sweepEntryDue (flips : List Nat) (upsets : List Upset) : Operands.Statement (.sweepEntryDue flips upsets) :=
  Operands.of_none rfl rfl

theorem Operands.sweepRepairWrite : Operands.Statement (.sweepRepairWrite) := Operands.of_none rfl rfl

theorem Operands.sweepVoteFailure : Operands.Statement (.sweepVoteFailure) := Operands.of_none rfl rfl

theorem Operands.sweepHeartbeatTimeout : Operands.Statement (.sweepHeartbeatTimeout) := Operands.of_none rfl rfl

theorem Operands.sweepRestartDone : Operands.Statement (.sweepRestartDone) := Operands.of_none rfl rfl

theorem Operands.assaySegmentStart (g : Nat) (h : Nat) : Operands.Statement (.assaySegmentStart g h) :=
  Operands.of_gallery rfl rfl rfl

theorem Operands.assaySegmentDone (g : Nat) (h : Nat) (matched : Bool) : Operands.Statement (.assaySegmentDone g h matched) :=
  Operands.of_gallery rfl rfl rfl

theorem Operands.assayLinkUnit (n : Nat) (d : Nat) (arrived : Bool) : Operands.Statement (.assayLinkUnit n d arrived) :=
  Operands.of_none rfl rfl

theorem Operands.assayCycleDone : Operands.Statement (.assayCycleDone) := Operands.of_none rfl rfl

theorem Operands.assayEnable (v : Word) : Operands.Statement (.assayEnable v) := Operands.of_none rfl rfl

theorem Operands.assayDisable (v : Word) : Operands.Statement (.assayDisable v) := Operands.of_none rfl rfl

theorem Operands.presnChange (s : Nat) (present : Bool) : Operands.Statement (.presnChange s present) :=
  Operands.of_port rfl rfl (Bool.and_true _).symm

theorem Operands.tallyReadStart (s : Nat) : Operands.Statement (.tallyReadStart s) :=
  Operands.of_port rfl rfl (Bool.and_true _).symm

theorem Operands.tallyRetry (s : Nat) : Operands.Statement (.tallyRetry s) :=
  Operands.of_port rfl rfl (Bool.and_true _).symm

theorem Operands.tallyReadDone (s : Nat) (answer : TallyAnswer) : Operands.Statement (.tallyReadDone s answer) :=
  Operands.of_port rfl rfl (Bool.and_true _).symm

theorem Operands.tallyReread (s : Nat) (v : Word) : Operands.Statement (.tallyReread s v) :=
  Operands.of_port rfl rfl (Bool.and_true _).symm

theorem Operands.pinBiasProbe (pin : Pin) (kind : Nat) : Operands.Statement (.pinBiasProbe pin kind) :=
  Operands.of_none rfl rfl

theorem Operands.driverReadbackFault (pin : Pin) (kind : Nat) : Operands.Statement (.driverReadbackFault pin kind) :=
  Operands.of_none rfl rfl

theorem Operands.timingLineReversed (line : Nat) : Operands.Statement (.timingLineReversed line) :=
  Operands.of_none rfl rfl

theorem Operands.tallyBusProbe (bus : Nat) (line : Nat) (kind : Nat) : Operands.Statement (.tallyBusProbe bus line kind) :=
  Operands.of_none rfl rfl

theorem Operands.lampTxReadback (kind : Nat) : Operands.Statement (.lampTxReadback kind) := Operands.of_none rfl rfl

theorem Operands.presnNoAck (s : Nat) : Operands.Statement (.presnNoAck s) :=
  Operands.of_port rfl rfl (Bool.and_true _).symm

theorem Operands.prefetchFillAbandoned (g : Nat) : Operands.Statement (.prefetchFillAbandoned g) :=
  Operands.of_gallery rfl rfl (Bool.and_true _).symm

theorem Operands.timingReversedCleared (line : Nat) : Operands.Statement (.timingReversedCleared line) :=
  Operands.of_none rfl rfl

theorem Operands.msixHoldoffExpiry : Operands.Statement (.msixHoldoffExpiry) := Operands.of_none rfl rfl

theorem Operands.seamSignalLost (s : Nat) : Operands.Statement (.seamSignalLost s) :=
  Operands.of_port rfl rfl (Bool.and_true _).symm

end Sys2Proof.Laws
end

