-- ==== Sys2Proof/Tests/Slice0.lean ====
section
/-!
SUPPORT. Tests of the model on small states (expected values worked out by hand from the spec's tables), an ill-formed
term for each check of WellFormed, and for each claim states and operands that meet its hypotheses.
-/

namespace Sys2Proof.Tests

open Sys2Proof Sys2Proof.Machine

set_option Elab.async false

/-! ## States to test on -/

/-- A table with entries at the given rising keys. -/
def row {α : Type} (k : Nat) (v : α) : Tab α := [(k, v)]

/-- A domain that is on. -/
def onDom : Dom := { Dom.reset with st := .on }

/-- User mode, every domain on, GSR released, outputs released and writes enabled. -/
def user : State := { State.reset with
  clk := { Clock.reset with mode := .running }
  kin := { Kindle.reset with phase := 9, gsr := false, writeEn := true, outputs := true, journalOk := true, pullDown := false }
  pwr := { Power.reset with domains := (List.range 25).map (fun d => (d, onDom)) }
  lamp := { Lamp.reset with owner := some .lampPair, pairOn := true } }

/-- `s` with gallery g as given. -/
def withGal (s : State) (g : Nat) (x : Gallery) : State := { s with gals := row g x }

/-- `s` with port p as given. -/
def withPort (s : State) (p : Nat) (x : Port) : State := { s with ports := row p x }

/-- Gallery 0 of `user`, with the four bytes that start hearth 24's record in plane 0 (Table 8.2): the operation, the
lanes, and K (0x18) as each source. -/
def hearth (op lanes : Nat) (more : Memory) : State := withGal user 0 { Gallery.reset with
  planeCfg := (leBytes 4 (op + 64 * lanes + 0x18 * 2 ^ 12 + 0x18 * 2 ^ 17 + 0x18 * 2 ^ 22)).zipIdx.filterMap
    (fun b => if b.1 = 0 then none else some (768 + b.2, b.1)) ++ more }

/-- Every hearth operation can fire somewhere, in every width, with one, two and three operands. -/
theorem wit_can_fire : ∀ op < 64, ∀ lanes < 3, let s := hearth op lanes []
    let r := s.recordOf 0 24
    r.lanes = lanes ∧ s.CanFire 0 24 op [r.srcA] ∧ s.CanFire 0 24 op [r.srcA, r.srcB] ∧
      s.CanFire 0 24 op [r.srcA, r.srcB, r.srcC] := by
  intro op ho lanes hl
  have k : ∀ op < 64, ∀ lanes < 3, ((hearth op lanes []).recordOf 0 24).op = op ∧
      ((hearth op lanes []).recordOf 0 24).lanes = lanes ∧ ((hearth op lanes []).recordOf 0 24).srcA = 0x18 ∧
      ((hearth op lanes []).recordOf 0 24).srcB = 0x18 ∧ ((hearth op lanes []).recordOf 0 24).srcC = 0x18 := by decide
  obtain ⟨h1, h2, ha, hb, hc⟩ := k op ho lanes hl
  have ok : ∀ c ∈ [0x18, 0x18, 0x18], (offerOf (hearth op lanes []) ((hearth op lanes []).gal 0)
      ((hearth op lanes []).recordOf 0 24) 24 c).valid = true := by
    intro c hc
    have : c = 0x18 := by simpa using hc
    subst this; rfl
  simp only [ha, hb, hc]
  exact ⟨h2, ⟨rfl, by decide, h1, fun c hc => ok c (by simp_all), rfl⟩,
    ⟨rfl, by decide, h1, fun c hc => ok c (by simp_all), rfl⟩, ⟨rfl, by decide, h1, ok, rfl⟩⟩

/-! ## Hearths -/

/-- The state after a command; the reset state where it answers none. -/
def go (i : Instr) (s : State) : State :=
  match exec i s with
  | .next t => t
  | _ => State.reset

/-- Hearth 24 of gallery 0 with W0, W1 and W2 as its sources, the operation's lanes and modes, and the second
configuration word. -/
def loaded (op lanes mode : Nat) (second a b c : Word) : State := withGal user 0 { Gallery.reset with
  planeCfg := memWrite [] 768 (leBytes 4 (op + 64 * lanes + 256 * mode + 2 ^ 17 + 2 ^ 23) ++ leBytes 4 second.toNat)
  regs := tabSet 0 (tabSet 0 (tabSet 0 [] 384 a) 385 b) 386 c }

/-- What a firing places in flight: OUT, (Z, N), C and V + 2 D. -/
def result (i : Instr) (op lanes mode : Nat) (second a b c : Word) :
    Option (Option Word × Option (Bool × Bool) × Option Bool × BitVec 3) :=
  (((go i (loaded op lanes mode second a b c)).gal 0).pipe.head?).map (fun e => (e.result, e.setZN, e.setC, e.sticky))

theorem test_pass : result (.pass 0 24) 0x01 0 0 0 0x80000000 0 0 = some (some 0x80000000, some (false, true), none, 0) := by
  decide
/-- Lane 0 saturates, lane 1 wraps; the carry is that of lane 1. -/
theorem test_add : result (.add 0 24) 0x04 1 1 0 0x7FFF7FFF 0x00010001 0 =
    some (some 0x80007FFF, some (false, true), some false, 1) := by decide
theorem test_sub : result (.sub 0 24) 0x05 0 0 0 0 1 0 = some (some 0xFFFFFFFF, some (false, true), some false, 0) := by
  decide
theorem test_neg : result (.neg 0 24) 0x06 0 1 0 0x80000000 0 0 = some (some 0x7FFFFFFF, some (false, false), none, 1) := by
  decide
theorem test_abs : result (.abs 0 24) 0x07 0 0 0 0x80000000 0 0 = some (some 0x80000000, some (false, true), none, 1) := by
  decide
theorem test_min : (result (.min 0 24) 0x08 2 0 0 0x80017FFF 0x0180FF00 0).map (·.1) = some (some 0x8080FFFF) := by decide
theorem test_max : (result (.max 0 24) 0x09 2 0 0 0x80017FFF 0x0180FF00 0).map (·.1) = some (some 0x01017F00) := by decide
theorem test_and : (result (.and 0 24) 0x0C 0 0 0 0xF0F0 0xFF00 0).map (·.1) = some (some 0xF000) := by decide
theorem test_or : (result (.or 0 24) 0x0D 0 0 0 0xF0F0 0xFF00 0).map (·.1) = some (some 0xFFF0) := by decide
theorem test_xor : (result (.xor 0 24) 0x0E 0 0 0 0xF0F0 0xFF00 0).map (·.1) = some (some 0x0FF0) := by decide
theorem test_not : result (.not 0 24) 0x0F 0 0 0 0xFFFFFFFF 0 0 = some (some 0, some (true, false), none, 0) := by decide
theorem test_shl : (result (.shl 0 24) 0x10 0 0 0 3 31 0).map (·.1) = some (some 0x80000000) := by decide
/-- The amount is the low six bits: 32 empties the lane, 64 is 0. -/
theorem test_shr : (result (.shr 0 24) 0x11 0 0 0 0x80000000 32 0).map (·.1) = some (some 0) ∧
    (result (.shr 0 24) 0x11 0 0 0 0x80000000 64 0).map (·.1) = some (some 0x80000000) := by decide
theorem test_shra : (result (.shra 0 24) 0x12 0 0 0 0x80000000 63 0).map (·.1) = some (some 0xFFFFFFFF) := by decide
theorem test_rot : (result (.rot 0 24) 0x13 0 0 0 0x80000001 33 0).map (·.1) = some (some 3) := by decide
theorem test_clz : (result (.clz 0 24) 0x14 2 0 0 0xFF010F00 0 0).map (·.1) = some (some 0x00070408) := by decide
theorem test_popc : (result (.popc 0 24) 0x15 2 0 0 0xFF010F00 0 0).map (·.1) = some (some 0x08010400) := by decide
theorem test_mul : result (.mul 0 24) 0x18 0 0 0 0x10000 0x10000 0 = some (some 0, some (true, false), none, 1) := by decide
theorem test_mulh : (result (.mulh 0 24) 0x19 0 0 0 0x10000 0xFFFF0000 0).map (·.1) = some (some 0xFFFFFFFF) := by decide
/-- −3 / 2 rounds away from zero. -/
theorem test_rnd : (result (.rnd 0 24) 0x1C 0 0 8 0xFFFFFFFD 0 0).map (·.1) = some (some 0xFFFFFFFE) := by decide
theorem test_cmp : result (.cmp 0 24) 0x20 0 0 2 0xFFFFFFFF 0 0 = some (some 0xFFFFFFFF, some (false, true), none, 0) := by
  decide
theorem test_sel : (result (.sel 0 24) 0x21 1 0 0 0x11112222 0x33334444 0x80007FFF).map (·.1) =
    some (some 0x11114444) := by decide
theorem test_div : result (.div 0 24) 0x24 0 0 0 0xFFFFFFF9 0 0 = some (some 0x80000000, some (false, true), none, 2) := by
  decide
theorem test_div_sat : result (.div 0 24) 0x24 0 1 0 0x80000000 0xFFFFFFFF 0 =
    some (some 0x7FFFFFFF, some (false, false), none, 1) := by decide
theorem test_rem : (result (.rem 0 24) 0x25 0 0 0 0xFFFFFFF9 2 0).map (·.1) = some (some 0xFFFFFFFF) := by decide
theorem test_pack : result (.pack 0 24) 0x28 1 3 0 0x00012345 0xFFFFFFFF 0 =
    some (some 0xFFFF7FFF, some (false, true), none, 1) := by decide
theorem test_unpk : (result (.unpk 0 24) 0x29 1 0 0 0x12348000 0 0).map (·.1) = some (some 0xFFFF8000) ∧
    (result (.unpk 0 24) 0x29 1 0 0x18000 0x82348000 0 0).map (·.1) = some (some 0x00008234) := by decide
/-- Depth field 1: W14 takes A, W15 takes W14, and OUT carries W15. -/
theorem test_dly : ((go (.dly 0 24) (loaded 0x02 0 0 0x800 7 0 0)).gal 0).pipe.head?.map (fun e => (e.result, e.regs.lookup 14)) =
    some (some 0, some 7) := by decide
/-- ACC keeps −1 × 5 in 72 bits. -/
theorem test_mac : tabGet 0 ((go (.mac 0 24) (loaded 0x1A 0 0 0 0xFFFFFFFF 5 0)).gal 0).acc 24 = 0xFFFFFFFFFFFFFFFFFB := by
  decide
/-- A dump: OUT carries the sum, ACC is 0. -/
theorem test_msu : ((go (.msu 0 24) (loaded 0x1B 0 0 0x200 3 5 1)).gal 0).pipe.head?.map (·.result) =
      some (some 0xFFFFFFF1) ∧
    tabGet 0 ((go (.msu 0 24) (loaded 0x1B 0 0 0x200 3 5 1)).gal 0).acc 24 = 0 := by decide
theorem test_ld : (((go (.ld 0 24) (loaded 0x30 0 0 0 0xFFFFFFFF 0 0)).gal 0).tap 3).map (fun q => (q.addr, q.beats, q.load)) =
    [(0x1FFFF0, 1, true)] := by decide
theorem test_st : (((go (.st 0 24) (loaded 0x31 0 0 0 0x25 9 0)).gal 0).tap 3).map (fun q => (q.addr, q.words, q.load)) =
    [(0x20, [(9, false)], false)] := by decide
/-- An absent operand: nothing fires. -/
theorem test_no_fire : go (.pass 0 24) (withGal user 0 { Gallery.reset with planeCfg := memWrite [] 768 [1, 0, 1] }) =
    withGal user 0 { Gallery.reset with planeCfg := memWrite [] 768 [1, 0, 1] } := by decide

/-- MAC and MSU with MOUT, dumping (C = 1) and not. -/
theorem wit_dump : (loaded 0x1A 0 0 0x200 3 5 1).CanFire 0 24 0x1A [0, 1, 2] ∧
    ((loaded 0x1A 0 0 0x200 3 5 1).recordOf 0 24).mout = true ∧
    ((loaded 0x1A 0 0 0x200 3 5 1).operand 0 24 2).getLsbD 0 = true ∧
    ((loaded 0x1A 0 0 0x200 3 5 0).operand 0 24 2).getLsbD 0 = false := by
  exact ⟨⟨by decide, by decide, by decide, by decide, by decide⟩, by decide, by decide, by decide⟩

/-- A tap with room and no open burst; and one whose ST burst waits for words. -/
theorem wit_tap : let s := hearth 0x31 0 []
    let t := go (.st 0 24) { s with gals := row 0 { s.gal 0 with planeCfg := memPut (s.gal 0).planeCfg 775 1 } }
    ((s.gal 0).tap 3).length < 2 ∧ openStore ((s.gal 0).tap 3) = none ∧ (openStore ((t.gal 0).tap 3)).isSome = true := by
  decide

/-- No firing for want of an operand, of the interval, of a tap place; a hearth that holds another operation. -/
theorem wit_not_fired :
    (let s := withGal user 0 { Gallery.reset with planeCfg := memWrite [] 768 [1, 0, 1] }
     s.live 0 = true ∧ (s.recordOf 0 24).op = 1 ∧
       (offerOf s (s.gal 0) (s.recordOf 0 24) 24 (s.recordOf 0 24).srcA).valid = false) ∧
    (let s := withGal user 0 { Gallery.reset with planeCfg := memWrite [] 768 [1, 0, 1], busy := row 24 1 }
     s.live 0 = true ∧ tabGet 0 (s.gal 0).busy 24 ≠ 0) ∧
    (hearth 0x31 0 []).live 0 = true ∧ ((hearth 0x31 0 []).recordOf 0 24).op ≠ 0x30 ∧ State.reset.live 0 = false := by
  decide

/-! ## Sequencers -/

/-- A sequencer at rest at ENTRY 0, issuing. -/
def idleSeq : Seq := { Seq.reset with st := .issuing }

/-- Gallery 0 of `user` with a sequencer whose word at its PC is `w`. -/
def seqAt (w : Word) (q : Seq) : State := withGal user 0 { Gallery.reset with seq := { q with prog := tabSet 0 q.prog q.pc w } }

/-- The sequencer after a command. -/
def seqOf (i : Instr) (s : State) : Seq := ((go i s).gal 0).seq

theorem test_nop : (seqOf (.nop 0) (seqAt 0 idleSeq)).pc = 1 := by decide
theorem test_halt : (seqOf (.halt 0) (seqAt 0x01000000 idleSeq)).st = .halt := by decide
theorem test_ret : (seqOf (.ret 0) (seqAt 0x02000000 { idleSeq with stack := [5, 9] })).pc = 9 := by decide
theorem test_fence : (seqOf (.fence 0) (seqAt 0x03000000 { idleSeq with pc := 7 })).pc = 8 := by decide
theorem test_fence_complete : (seqOf (.fenceComplete 0) (seqAt 0x03000000 { idleSeq with st := .fence })).st = .issuing := by
  decide
/-- SWITCH 63: no such context is defined. -/
theorem test_switch : (go (.switch 0) (seqAt 0x1000003F idleSeq)).evt.latches.map (fun l => (l.event, l.data)) =
    [(0x22, [1, 63, 0, 0])] := by decide
theorem test_prep : ((go (.prep 0) (withGal user 0 { Gallery.reset with
    descs := row 5 { CtxDesc.reset with defined := true }, seq := { idleSeq with prog := row 0 0x20000005#32 } })).gal 0).prefetch =
    [5] := by decide
theorem test_wait : (seqOf (.wait 0) (seqAt 0x3FFFFFFF idleSeq)).st = .waiting 0xFFFFFFF := by decide
theorem test_wait_done : (seqOf (.waitDone 0) (seqAt 0x30000001 { idleSeq with st := .waiting 0 })).pc = 1 := by decide
/-- WAITT TI0, rising edge, timeout 2: 128 enabled cycles. -/
theorem test_waitt : (seqOf (.waitt 0) (seqAt 0x40000240 idleSeq)).st = .waitt 0 2 128 true := by decide
theorem test_waitt_met : (seqOf (.waittMet 0) (seqAt 0x40000240 { idleSeq with st := .waitt 0 0 128 true, inputs := 1 })).timeout =
    false := by decide
theorem test_waitt_timeout :
    (seqOf (.waittTimeout 0) (seqAt 0x40000240 { idleSeq with st := .waitt 0 0 0 true })).timeout = true := by decide
theorem test_br : (seqOf (.br 0) (seqAt 0x500003FF { idleSeq with pc := 1023 })).pc = 1023 := by decide
/-- BRC F0 (source 20) low to 9. -/
theorem test_brc : (seqOf (.brc 0) (seqAt 0x6000D009 idleSeq)).pc = 9 := by decide
/-- LOOP 0 stands for 4,096: 4,095 more, of which this is one. -/
theorem test_loop : tabGet none (seqOf (.loop 0) (seqAt 0x70000C00 idleSeq)).lc 3 = some 4094 := by decide
theorem test_call : (seqOf (.call 0) (seqAt 0x80000064 { idleSeq with pc := 1023 })).stack = [1024] := by decide
theorem test_setf : (seqOf (.setf 0) (seqAt 0x90000081 idleSeq)).flags = 0x81 := by decide
theorem test_clrf : (seqOf (.clrf 0) (seqAt 0xA0000F0F { idleSeq with flags := 0xFF, latches := 0x1F })).flags = 0xF0 ∧
    (seqOf (.clrf 0) (seqAt 0xA0000F0F { idleSeq with flags := 0xFF, latches := 0x1F })).latches = 0x10 := by decide
theorem test_emit : (go (.emit 0) (seqAt 0xB0001FF3 idleSeq)).evt.latches.map (fun l => (l.event, l.data)) = [(0x21, [0xFF])] := by
  decide
theorem test_capt : (go (.capt 0) (seqAt 0xC0000005 idleSeq)).capt.armTick = 17 ∧
    (go (.capt 0) (seqAt 0xC0000005 idleSeq)).capt.kind = 1 := by decide
/-- An overflow of the CALL stack is fault 2, event 0x23 with the PC. -/
theorem test_stack_fault : (go (.call 0) (seqAt 0x80000000 { idleSeq with pc := 3, stack := [1, 2, 3, 4] })).evt.latches.map
    (fun l => (l.event, l.data)) = [(0x23, [2, 0, 3, 0])] := by decide
/-- NOP at 1,023 passes the end of the store: fault 4. -/
theorem test_end_of_store : (go (.nop 0) (seqAt 0 { idleSeq with pc := 1023 })).parN 0x1007 = 0x403FF := by decide
theorem test_trigger_edge : (seqOf (.triggerEdge 0 19) (withGal user 0 { Gallery.reset with seq := { idleSeq with inputs := 1 <<< 19 } })).latches =
    1 <<< 19 := by decide

/-- A DMA descriptor at address 4: 2 units from stream-memory address 0x100 to (2, 1) of card 3, done flag 5. -/
def dmaSeq : Seq := { idleSeq with prog := [(4, 0x00080010), (6, 0x01230000), (7, 0x0000000D)] }

theorem test_dma : (seqOf (.dma 0) (seqAt 0xD0000004 dmaSeq)).dmas.map (fun d => (d.toMesh, d.addr, d.units)) =
    [(true, 256, 2)] := by decide
theorem test_dma_target : (seqOf (.dma 0) (seqAt 0xD0000004 dmaSeq)).dmas.map (fun d => (d.card, d.dx, d.dy, d.doneFlag)) =
    [(3, 2, 2, some 5)] := by decide
theorem test_dma_complete : (seqOf (.dmaComplete 0 0) (withGal user 0 { Gallery.reset with seq := { idleSeq with
    dmas := [{ id := 0, toMesh := false, addr := 0, units := 0, remote := 0, card := 0, dx := 0, dy := 0, port := 0, gt := false
               doneFlag := some 5, errFlag := none, waiting := 0, failed := false }] } })).flags = 0x20 := by decide

/-- Each transfer of control can issue at 1,023, each other instruction at 1,022. -/
theorem wit_issues : (∀ op ∈ [0, 1, 2, 3], ((seqAt (BitVec.ofNat 32 (op * 2 ^ 24)) { idleSeq with pc := 1022 }).Issues 0 (0x10 + op) 1022)) ∧
    (∀ op ∈ [1, 2, 3, 4, 6, 7, 9, 10, 11, 12, 13], ((seqAt (BitVec.ofNat 32 (op * 2 ^ 28)) { idleSeq with pc := 1022 }).Issues 0 op 1022)) ∧
    (∀ op ∈ [5, 6, 7, 8], ((seqAt (BitVec.ofNat 32 (op * 2 ^ 28)) { idleSeq with pc := 1023 }).Issues 0 op 1023)) ∧
    (seqAt 0x02000000 { idleSeq with pc := 1023, stack := [5] }).Issues 0 0x12 1023 ∧
    (seqAt 0x02000000 { idleSeq with pc := 1023, stack := [5] }).user = true := by
  refine ⟨?_, ?_, ?_, ⟨by decide, by decide, by decide⟩, by decide⟩
  · intro op h; exact ⟨rfl, by fin_cases h <;> decide, Nat.le_refl _⟩
  · intro op h; exact ⟨rfl, by fin_cases h <;> decide, Nat.le_refl _⟩
  · intro op h; exact ⟨rfl, by fin_cases h <;> decide, Nat.le_refl _⟩

/-- LOOP with the counter at its last pass, and with passes left. -/
theorem wit_loop : (tabGet none (idleSeq).lc 0).getD ((if fld 0x70001000#32 23 12 = 0 then 4096 else fld 0x70001000#32 23 12) - 1) = 0 ∧
    (tabGet none (idleSeq).lc 0).getD ((if fld 0x70000000#32 23 12 = 0 then 4096 else fld 0x70000000#32 23 12) - 1) = 4095 := by decide

/-- A rising input in user logic, at the last input, not yet handled in its cycle. -/
theorem wit_trigger : let s := withGal user 0 { Gallery.reset with seq := { idleSeq with inputs := 1 <<< 19 } }
    s.clocked = true ∧ s.kin.gsr = false ∧ s.galOn 0 = true ∧ hasBit (s.gal 0).seq.inputs 19 = true ∧
      hasBit (s.gal 0).seq.prev 19 = false ∧ hasBit (s.gal 0).seq.seen 19 = false := by decide

/-- BRC and WAITT with a condition that holds (source 30, level) and one that does not; BRC with a hint that the scan
finds at the fifth word at most; waits that are over. -/
theorem wit_conditions : idleSeq.test 30 0 = true ∧ idleSeq.test 19 2 = false ∧
    (idleSeq.consume 19 2).test 19 2 = false ∧
    hintScan { idleSeq with prog := [(4, 0x10000007)] } 4 1 = some 7 ∧
    ((seqAt 0x6003F800 idleSeq).issueWord 0).getLsbD 17 = true ∧ fld ((seqAt 0x6003F800 idleSeq).issueWord 0) 14 10 = 30 ∧
    (seqAt 0 { idleSeq with st := .waitt 30 0 1 true }).live 0 = true := by decide

/-- A context that is resident, one that is defined only, one that is being filled; two prefetches waiting. -/
theorem wit_contexts : let x := { Gallery.reset with
      descs := [(5, { CtxDesc.reset with defined := true }), (63, { CtxDesc.reset with defined := true })]
      planes := [(0, { Plane.reset with ctx := some 1 }), (7, { Plane.reset with ctx := some 63 })], prefetch := [2, 3] }
    (x.desc 63).defined = true ∧ (x.plane 7).ctx = some 63 ∧ (∀ k < 7, (x.plane k).ctx ≠ some 63) ∧
      (x.desc 5).defined = true ∧ (∀ p < 8, (x.plane p).ctx ≠ some 5 ∧ (x.plane p).filling ≠ some 5) ∧ 5 ∉ x.prefetch ∧
      x.demand ≠ some 5 ∧ x.prefetch.length = 2 ∧ (x.desc 6).defined = false := by decide

/-- FENCE with its conditions met and not met; CAPT with the capture unit idle. -/
theorem wit_fence : let met := fun x : Gallery =>
      (∀ k ∈ x.tapQ, ∀ r ∈ k.2, r.nowrite = true ∨ (r.granted = true ∧ r.beats ≤ r.done)) ∧ x.seq.dmas = [] ∧ x.transit = 0
    met Gallery.reset ∧ Gallery.reset.hold = [] ∧ ¬ met { Gallery.reset with transit := 1 } := by decide

/-- A valid descriptor at the last word group; an invalid one; two transfers in flight; a stalled DMA. -/
theorem wit_dma : let ok := fun (q : Seq) (a : Nat) => decide (a % 4 = 0 ∧ a ≤ 1020 ∧ fld (q.word a) 31 18 ≠ 0 ∧
      16 * (fld (q.word a) 16 0 + fld (q.word a) 31 18) ≤ 2 ^ 21)
    ok { idleSeq with prog := [(1020, 0x000BFFFF)] } 1020 = false ∧ ok { idleSeq with prog := [(1020, 0x0005FFFF)] } 1020 = true ∧
      ok dmaSeq 4 = true ∧ ok dmaSeq 6 = false ∧ (seqAt 0xD0000004 { dmaSeq with st := .dmaStall }).live 0 = true := by decide

/-- Each sequencer fault: a reserved word, a full stack, an empty one, the end of the store, past it, a reserved
condition, a reserved capture kind, a descriptor off its alignment. -/
theorem wit_seq_faults : opOf 0xE0000000 = 0xE ∧ opOf 0xF0000000 = 0xF ∧ opOf 0x04000000 = 0x14 ∧ fld 0x4000001F#32 4 0 = 31 ∧
    fld 0x60007C00#32 14 10 = 31 ∧ fld 0xC0000003#32 1 0 = 3 ∧ fld 0xD0000002#32 9 0 % 4 ≠ 0 ∧
    (seqAt 0 { idleSeq with pc := 1024 }).canIssue 0 = true ∧ (seqAt 0 { idleSeq with pc := 1023 }).canIssue 0 = true ∧
    (seqAt 0x80000000 { idleSeq with stack := [1, 2, 3, 4] }).canIssue 0 = true ∧ State.reset.canIssue 0 = false := by decide

/-! ## Contexts, switches, banks -/

/-- A transfer of the engine of gallery 0 for context 5 and plane 7. -/
def transfer (fill demand : Bool) (bad : Option Nat) : Transfer :=
  { fill := fill, plane := 7, ctx := 5, demand := demand, since := 0, bad := bad }

/-- A demand fill of context 5 takes the free plane with the lowest index. -/
theorem test_transfer_start : ((go (.transferStart 0 []) (withGal user 0 { Gallery.reset with demand := some 5 })).gal 0).engine =
    some { fill := true, plane := 0, ctx := 5, demand := true, since := 0, bad := none } := by decide
theorem test_abandoned : ((go (.prefetchFillAbandoned 0) (withGal user 0 { Gallery.reset with
    engine := some (transfer true false (some 8)), portBusy := some .engine })).gal 0).engine = none := by decide

/-- GAL_SPILLS (Table 9.3) counts a spill; a fill is no spill. -/
theorem test_spill : (go (.spillComplete 0) (withGal user 0 { Gallery.reset with engine := some (transfer false false none) })).parN (galP 0 0x74) = 1 ∧
    (go (.spillComplete 0) (withGal user 0 { Gallery.reset with engine := some (transfer true true none) })).parN (galP 0 0x74) = 0 := by
  refine ⟨?_, ?_⟩ <;> decide +kernel

/-- The conditions of a transfer start: a demand fill, a prefetch, a victim that must be spilled and one that is clean, and
a background spill. -/
theorem wit_transfer_start :
    let all := fun p : Plane => { Gallery.reset with planes := (List.range 8).map (fun i => (i, { p with ctx := some (10 + i), stamp := 9 - i })) }
    let dirty := all { Plane.reset with dirty := true }
    (withGal user 0 { dirty with demand := some 5 }).clocked = true ∧ dirty.engine = none ∧ dirty.Victim 7 ∧
      (dirty.plane 7).ctx = some 17 ∧ (dirty.plane 7).mustSpill = true ∧ dirty.seq.issued = false ∧
      Gallery.reset.Victim 0 ∧ (Gallery.reset.plane 0).mustSpill = false ∧ Gallery.reset.portBusy = none ∧
      ((withGal user 0 dirty).dom 0).damper = .openD ∧ ({ dirty with prefetch := [5, 6] }).prefetch.head? = some 5 ∧
      (withGal user 0 dirty).halted 0 = false := by
  refine ⟨?_, ?_, ?_, ?_, ?_, ?_, ?_, ?_, ?_, ?_, ?_, ?_⟩ <;> decide

/-- A demand fill and a prefetch fill that met an uncorrectable word; a fill and a spill that did not. -/
theorem wit_fills : let x := { Gallery.reset with engine := some (transfer true true (some 0)), portBusy := some .engine }
    (withGal user 0 x).clocked = true ∧ x.engine = some (transfer true true (some 0)) ∧ (transfer true true (some 0)).demand = true ∧
      ((withGal user 0 x).par (galP 0 0xA0)).getLsbD 2 = false ∧ (transfer true false (some 0x3FF8)).demand = false ∧
      (transfer true true none).bad = none ∧ (transfer false false none).fill = false ∧ x.portWait = [] := by decide

/-- A live gallery for TRACK_WORD, and one that is not. -/
theorem wit_track_word : (hearth 1 0 []).live 0 = true ∧ State.reset.live 0 = false := by decide

/-- A word for a lane whose EDGE is not enabled is lost and counted. -/
theorem test_edge_ingress : tabGet none ((go (.edgeIngress 0) (withGal user 0 { Gallery.reset with
    edgeQ := [[some 7, none, none, none, none, none, none, none]] })).gal 0).edgeIn 0 = none ∧
    (go (.edgeIngress 0) (withGal user 0 { Gallery.reset with
      edgeQ := [[some 7, none, none, none, none, none, none, none]] })).parN (galP 0 0x82) = 1 := by decide
theorem test_ingress_release : ((go (.ingressBufferRelease 0) (withGal user 0 { Gallery.reset with
    ingress := [[none], [none]] })).gal 0).ingress.length = 1 := by decide
/-- 32 units are buffered: the next is lost. -/
theorem test_ingress_full : ((go (.edgeIngress 0) (withGal user 0 { Gallery.reset with
    edgeQ := [[some 1]], ingress := List.replicate 32 [none] })).gal 0).ingress.length = 32 := by decide

/-- Units at the edge: entering, waiting for room behind 31 and 32 others, and leaving the buffer. -/
theorem wit_edges : let x := { Gallery.reset with edgeQ := [[some 1]] }
    (withGal user 0 x).live 0 = true ∧ x.ingress = [] ∧ x.edgeBusy = false ∧
      ({ x with ingress := List.replicate 31 [none] }).ingress.length < 32 ∧
      32 ≤ ({ x with ingress := List.replicate 32 [none] }).ingress.length ∧
      ({ x with ingress := [[none]] }).ingress = [none] :: [] := by decide

/-- Egress flow 3 of gallery 0 with lanes 0 and 7 and packets of n units. -/
def egressAt (n : Nat) (units : List (List (Option Word))) (out : Tab (Option TWord)) : State :=
  { withGal user 0 { Gallery.reset with egress := row 3 units, edgeOut := out, egressNow := row 3 (some (wd (2 ^ 31 + 0x81 + 256 * n), 0x7A)) } with
    params := row (galP 0 0xB6) (wd (2 ^ 31 + 0x81 + 256 * n)) }

theorem test_egress : (go (.egressPacketClose 0 3) (egressAt 1 [[some 5, none, none, none, none, none, none, some 6]] [])).mesh.ready.map
    (fun p => [p.dx, p.dy, p.dport, p.len, p.valid.toNat]) = [[2, 7, 1, 1, 0x81]] := by decide

/-- A packet that gathers on, one that is whole, and one whose lanes carry no more. -/
theorem wit_egress : let more := fun (s : State) => s.egressOn 0 3 && (List.range 8).any (fun r =>
      (s.egressCfg 0 3).1.getLsbD r && (tabGet none (s.gal 0).edgeOut r).isSome)
    let s := egressAt 16 [[some 5]] (row 7 (some { word := 1, tag := 0 }))
    more s = true ∧ tabGet [] (s.gal 0).egress 3 = [[some 5]] ∧ fld (s.egressCfg 0 3).1 12 8 = 16 ∧
      more (egressAt 16 [[some 5]] []) = false ∧ fld ((egressAt 1 [[some 5]] []).egressCfg 0 3).1 12 8 = 1 := by decide

/-- A request at bank 3 of gallery 0. -/
def ask (r losses : Nat) : BankReq := { bank := 3, requester := r, raised := 0, withdrawn := none, losses := losses, beats := 2 }

/-- Gallery 0 in core cycle 5 with those requests and this bank 3. -/
def bankAt (l : List BankReq) (k : Bank) : State :=
  { withGal user 0 { Gallery.reset with requests := l, banks := tabSet Bank.reset [] 3 k } with
    clk := { user.clk with cyc := 5 } }

/-- A request that has lost three rounds outranks one of a lower number at the same base priority. -/
theorem test_bank : (((go (.bankDecision 0 3 []) (bankAt [ask 2 0, ask 9 3] Bank.reset)).gal 0).bank 3).burst = some (9, 6, 2) ∧
    ((go (.bankDecision 0 3 []) (bankAt [ask 2 0, ask 9 3] Bank.reset)).gal 0).requests.map (·.losses) = [1] := by decide

/-- A decision among requests, with assay (34) among them and with a withdrawn winner; one in the last beat of a burst; a
parked grant; an idle bank. -/
theorem wit_bank : let seen := fun q : BankReq => q.bank = 3 ∧ q.raised < 5 ∧ (∀ c, q.withdrawn = some c → 5 ≤ c)
    (bankAt [ask 2 0] Bank.reset).clocked = true ∧ ((bankAt [] Bank.reset).dom 0).st = .on ∧
      seen (ask 2 0) ∧ seen { ask 2 0 with withdrawn := some 5 } ∧ (ask 34 0).requester = 34 ∧
      ¬ seen { ask 2 0 with raised := 5 } ∧
      ((bankAt [] { burst := some (33, 5, 1), park := some 2 }).gal 0).bank 3 = { burst := some (33, 5, 1), park := some 2 } ∧
      ((bankAt [{ ask 2 0 with raised := 5 }] { Bank.reset with park := some 2 }).gal 0).requests.find? (fun q =>
        decide (q.bank = 3 ∧ q.requester = 2 ∧ q.raised = 5) && q.withdrawn.isNone) = some { ask 2 0 with raised := 5 } := by
  refine ⟨rfl, by decide, ⟨rfl, by decide, by simp [ask]⟩, ⟨rfl, by decide, by simp⟩, rfl, by simp [ask], by decide, by decide⟩

/-! ## The mesh -/

/-- `user` as card 0 of a chassis, with a seam port 15 towards card 1, its link in state `st`. -/
def carded (st : Nat) : State := { user with
  board := { Board.reset with rv := 0xFFFFFFF0 }
  params := [(portP 15 0x01, 2), (0x3004, 0x1F00)]
  ports := row 15 { Port.reset with seam := { Seam.reset with state := st } } }

/-- A packet of command `cmd` from the keeper bridge to gallery 0 of card `card`. -/
def packet (card cmd : Nat) : Packet := { blankPacket with
  dx := 1, sy := 4, dcard := card, scard := card, cmd := cmd, len := 1, valid := BitVec.allOnes 128 }

/-- `s` with packets presented to the router, with packets in flight, or with transactions outstanding. -/
def ready (s : State) (l : List Packet) : State := { s with mesh := { s.mesh with ready := l } }
def flying (s : State) (l : List Packet) : State :=
  { s with mesh := { s.mesh with flight := l.map (fun p => { pkt := p, since := 0, late := false }) } }
def waits (s : State) (l : List Trans) : State := { s with mesh := { s.mesh with trans := l } }

/-- A transaction of the keeper bridge. -/
def trans (tag : Nat) (p : Purpose) : Trans :=
  { node := 24, port := 0, tag := tag, dcard := 0, dnode := 1, dport := 0, purpose := p }

/-- The node map (R14): gallery 15 at (4, 3), port 7 at (0, 3) local port 1, port 8 at (5, 0). -/
theorem test_nodes : targetAt 4 3 0 = .gal 15 ∧ targetAt 0 3 1 = .port 7 ∧ targetAt 5 0 0 = .port 8 ∧ targetAt 0 4 0 = .keeper ∧
    targetAt 5 4 0 = .nothing := by decide
/-- First in X, then in Y (R227). -/
theorem test_path : meshPath 0 4 2 3 = [(24, 1), (25, 1), (26, 0)] := by decide
theorem test_packet_send : (go (.packetSend (packet 15 0) .none) (ready user [packet 15 0])).mesh.flight.map (·.pkt) = [packet 15 0] ∧
    (go (.packetSend (packet 15 0) .none) (ready user [packet 15 0])).parN (0x3300 + 4 * 24 + 1) = 2 := by decide
theorem test_timeout : (go (.transactionTimeout 24 0 7) (waits user [trans 7 .message])).mesh.trans = [] ∧
    (go (.transactionTimeout 24 0 7) (waits user [trans 7 .message])).parN 0x3020 = 1 := by decide
theorem test_mesh_write : memRead ((go (.meshWrite 0) (flying user [{ packet 15 0 with addr := 0x1FFFE0, data := [1, 2] }])).gal 0).mem
    0x1FFFE0 3 = [1, 2, 0] := by decide
theorem test_mesh_read_req : (go (.meshReadReq 0) (flying (withGal user 0 { Gallery.reset with allPrimed := true, mem := row 16 9 })
    [{ packet 15 1 with addr := 16, half := true }])).mesh.ready.map (fun p => (p.cmd, p.data.head?)) = [(2, some 9)] := by decide
theorem test_mesh_read_rsp : (go (.meshReadRsp 0) (flying user [{ packet 15 2 with sy := 0, dx := 0, dy := 4, tag := 9 }])).parN 0x3021 =
    1 := by decide
theorem test_mesh_error : (go (.meshError 0) (flying (waits user [trans 9 .message]) [{ packet 15 6 with dx := 0, dy := 4, tag := 9 }])).mesh.trans =
    [] := by decide
/-- A MESSAGE at a gallery receives NO_TARGET. -/
theorem test_mesh_message : (go (.meshMessage 0) (flying user [packet 15 3])).mesh.ready.map (fun p => (p.cmd, p.status)) = [(6, 0x24)] := by
  decide
theorem test_mesh_wake : ((go (.meshWake 0) (flying { user with pwr := { user.pwr with domains := row 0 { onDom with st := .sleep } } }
    [packet 15 4])).dom 0).waking = true := by decide
theorem test_mesh_config : (go (.meshConfig 0) (flying user [{ packet 15 5 with sx := 1 }])).mesh.ready.map (·.status) = [0x24] := by decide

/-- A router with the packet of its stream first: each link error; GT with and without a window; a dead source; no node; a
card without a route and one over a link that is down. -/
theorem wit_routers : let p := packet 0 0
    let s := ready (carded 5) [p]
    s.clocked = true ∧ s.mesh.ready[0]? = some p ∧ p.scard = s.card ∧ p.dcard = s.card ∧ s.deadAt p.sx p.sy p.sport = false ∧
      (24, 1) ∈ meshPath p.sx p.sy p.dx p.dy ∧ s.conforms { p with gt := true } = false ∧
      ({ s with mesh := { s.mesh with dead := 1 } } : State).deadAt 1 0 0 = true ∧ s.leavesDead p = false ∧ awaits p = false := by
  refine ⟨?_, ?_, ?_, ?_, ?_, ?_, ?_, ?_, ?_, ?_⟩ <;> decide

/-- A flow from the keeper bridge to gallery 0 that is enabled with a window of 17 slots from slot 0. -/
def flowOn : State := { user with params := [(0x3100, 0x120), (0x3101, 0x440), (0x3102, 3)] }

theorem wit_gt_send : flowOn.conforms { packet 15 0 with gt := true } = true ∧ flowOn.flowOn 0 = true ∧
    flowOn.flowWindows 0 = [(0, 17)] ∧ user.flowOn 0 = false := by decide
theorem wit_seam_route : (carded 5).seamTo 1 = some 15 ∧ (carded 4).seamUp 15 = false ∧ (carded 5).seamTo 2 = none ∧ (carded 5).card = 0 := by
  decide

/-- A request that cannot be delivered and the transaction it belongs to; an answer that names one, and one that does not;
a time-out, with and without an active replay. -/
theorem wit_transactions : let t := trans 9 .message
    let s := waits (carded 5) [t]
    awaits (packet 0 3) = true ∧ s.mesh.trans.find? (fun x => decide (x.node = 24 ∧ x.port = 0 ∧ x.tag = 9)) = some t ∧
      s.mesh.trans.find? (fun x => decide (x.node = 24 ∧ x.port = 0 ∧ x.tag = 8)) = none ∧
      ({ Seam.reset with nakPending := true } : Seam).replaying = true ∧ Seam.reset.replaying = false ∧
      (trans 0 (.dma 0 3 0 32)).purpose = .dma 0 3 0 32 := by decide

/-- A packet that arrives at a gallery, at the last bytes of stream memory and past them, at the edge, and at the keeper, the
endpoint and a service node. -/
theorem wit_arrives (p : Packet) (h : p ∈ [packet 15 0, packet 15 1, { packet 15 0 with addr := 0x1FFFE0 }, { packet 15 0 with addr := 0x1FFFF0 },
      { packet 15 0 with addr := 0x100000000 }, { packet 15 3 with dy := 4 }, { packet 15 5 with dx := 0, dy := 4 },
      { packet 15 0 with dx := 0, dy := 4, sx := 1, sy := 0, addr := 0x1F0 }, { packet 15 5 with dx := 3, dy := 4 }]) :
    (flying user [p]).Arrives 0 { pkt := p, since := 0, late := false } (targetAt p.dx p.dy p.dport) := by
  fin_cases h <;> exact ⟨by decide, by decide, by decide, by decide, by decide, by decide, by decide, by decide⟩

theorem wit_arrival_sizes : byteCount (packet 15 0) = 32 ∧ user.kin.writeEn = true ∧ State.reset.kin.writeEn = false ∧
    Gallery.reset.march.step = 0 ∧ (user.par (galP 0 0xA0)).getLsbD 1 = false ∧ user.d3hot = false := by decide

/-- The guards: absent, dead, off, re-kindling, asleep, fenced, on; a gallery that can re-kindle; a service node. -/
theorem wit_guards : (Target.gal 15).absent .pt0800e = true ∧ (Target.gal 15).dom = some 15 ∧ (Target.port 15).dom = some 23 ∧
    Target.tinder.dom = some 24 ∧ Variant.pt0800e.hasDom 24 = false ∧ (Target.gal 15).unit = some 15 ∧ Target.pcie.dom = none ∧
    ({ user with pwr := Power.reset }).canRekindle 15 = true ∧ (({ user with pwr := Power.reset }).dom 15).st = .off ∧
    ({ user with pwr := { Power.reset with domains := row 15 { onDom with fenced := true } } }).holdsAt 15 (packet 15 0) = true := by
  refine ⟨?_, ?_, ?_, ?_, ?_, ?_, ?_, ?_, ?_, ?_⟩ <;> decide

/-! ## The bridge, the configuration ports, flows, dead units and resets -/

/-- A staging area of gallery 0 with a commit of frame `cfa` under SEQ 3. -/
def staged (cfa : Nat) : State := withGal user 0 { Gallery.reset with
  descs := row 63 { CtxDesc.reset with defined := true }
  staging := { Staging.reset with busy := true, command := leBytes 4 cfa ++ leBytes 2 3 ++ [1, 0, 0, 0, 0, 0, 0, 0, 0, 0] } }

/-- The CFA of SWITCH frame 11 of context 63 of gallery 0 (Table 6.4): kind 0, context in [13:8], index in [3:0]. -/
theorem test_cfa : cfaKind 0x3F0B = 0 ∧ cfaGal 0xF3F0B = 15 ∧ cfaCtx 0x3F0B = 63 ∧ cfaIndex 0x3F0B = 11 ∧ cfaOk 0x3F0C = false := by
  decide
theorem test_icp_commit : (go (.icpCommit 0) (staged 0x10000007)).mesh.ready.map (fun p => [p.cmd, p.dx, p.dy, p.addr]) =
    [[5, 1, 0, 0x10000007]] := by decide
/-- A STREAM MEMORY frame is no frame of service: refused with RANGE. -/
theorem test_icp_refused : ((go (.icpCommit 0) (staged 0x20000000)).gal 0).staging.status = 9 ∧
    (go (.icpCommit 0) (staged 0x20000000)).parN (galP 0 0x52) = 1 := by decide
theorem test_stage_write : memRead ((go (.icpStageWrite 0) (flying user
    [{ packet 15 0 with dx := 0, dy := 4, sx := 1, sy := 0, addr := 0x1F0, data := List.replicate 16 7 ++ [0, 0, 0, 0x10, 5, 0, 1] }])).gal 0).staging.data
    0x1EF 3 = [0, 7, 7] := by decide
theorem test_config_submit : (go (.icpConfigSubmit 0) (flying user
    [{ packet 15 5 with dx := 0, dy := 4, sx := 1, sy := 0, addr := 0x10000007, len := 16, data := List.replicate 512 0 }])).mesh.ready.map (·.addr) =
    [0x10000007] := by decide
theorem test_boundary : ((go (.configPortBoundary 0) (withGal user 0 { Gallery.reset with
    portBusy := some .engine, portWait := [.sweep 0, .held] })).gal 0).portBusy = some .held := by decide

/-- Staging writes at the end of the area and past it; a busy area; frames that are refused and one that is sent. -/
theorem wit_bridge : let p := { packet 15 0 with dx := 0, dy := 4, sx := 1, sy := 0, addr := 0x1F0 }
    p.scard = user.card ∧ targetAt p.sx p.sy p.sport = .gal 0 ∧ p.addr % 16 = 0 ∧ p.addr + byteCount p = 0x210 ∧
      (0x210 : Nat) < 0x200 + byteCount p ∧ (user.gal 0).staging.busy = false ∧ ((staged 0).gal 0).staging.busy = true ∧
      (staged 0).forwarded 0 = false ∧ (staged 0).outstanding 24 0 = 0 := by
  refine ⟨?_, ?_, ?_, ?_, ?_, ?_, ?_, ?_, ?_⟩ <;> decide
theorem wit_frames : needsAbsent .pt0800e 0x10080000 [] = true ∧ needsAbsent .pt1600 0x3F00 [] = false ∧
    serviceKind (staged 0) 0x20000000 = false ∧ serviceKind (staged 0) 0x3F0B = true ∧ serviceKind (staged 0) 0x3E0B = false ∧
    contentOk 0x3F00 [3] = false ∧ serviceStatus (staged 0) 0x10000007 [] = 0 := by
  refine ⟨?_, ?_, ?_, ?_, ?_, ?_, ?_⟩ <;> decide
/-- A port that is free, one that is busy; five writers of rising rank; a fill that blocks a frame; four held frames. -/
theorem wit_ports : (user.gal 16).portBusy = none ∧ [writerRank (.sweep 0), writerRank (.icp blankPacket), writerRank .held,
      writerRank .engine, writerRank (.sweep 9)] = [0, 1, 3, 4, 4] ∧ user.canGrant .engine = true ∧
    (withGal user 0 { Gallery.reset with planes := row 0 { Plane.reset with filling := some 63 } }).fillBlocks 0x3F0B = true ∧
    (List.replicate 4 ({ cfa := 0, writer := none, data := [] } : Frame)).length = 4 := by
  refine ⟨?_, ?_, ?_, ?_, ?_⟩ <;> decide

/-- `user` with a lamp command at the head of its queue. -/
def cmd (type : Nat) (body : List Byte) : Cmd := { via := .lampPair, type := type, tag := 7, body := body }
def asked (type : Nat) (body : List Byte) : State := { user with lamp := { user.lamp with inbox := [cmd type body] } }

/-- The status of the last response message on the lamp pair (Table 17.1: the status stands at offset 12). -/
def answered (i : Instr) (s : State) : Option (List Byte) := (go i s).lamp.sent.head?.map (fun m => slice m 12 2)

/-- Every lamp command type starts in user mode. -/
theorem wit_starts (type : Nat) (body : List Byte) : (asked type body).Starts (cmd type body) type := by
  constructor <;> rfl

theorem test_config_write : (go (.configWrite .lampPair) (asked 0x44 (leBytes 4 0x10000007 ++ List.replicate 512 0))).lamp.running = [] ∧
    ((go (.configWrite .lampPair) (asked 0x44 (leBytes 4 0x10000007 ++ List.replicate 512 0))).gal 0).portBusy.isSome = true := by
  decide +kernel

/-- A flow whose ends are the same local port is refused with RANGE, and one to gallery 0 is accepted. -/
theorem test_flow_commit : (go (.flowCommit 127 1) user).parN (0x3102 + 4 * 127) = 0x900 ∧
    (go (.flowCommit 127 1) { user with params := [(0x3100 + 4 * 127, 0x120), (0x3101 + 4 * 127, 0x44F)] }).parN (0x3102 + 4 * 127) = 3 := by
  decide
theorem test_flow_release : (go (.flowRelease 0 0) flowOn).parN 0x3102 = 2 := by decide
theorem test_gt_window : (go (.gtWindowSend 0) { flowOn with mesh := { flowOn.mesh with
    gtWait := [{ pkt := { packet 15 0 with gt := true }, since := 0, late := false }] } }).parN 0x3103 = 1 := by decide

/-- Host writes in user mode; the flow checks, one witness for each refusal. -/
theorem wit_writes (n : Nat) (h : n ∈ [0x3102, 0x3102 + 4 * 127, 0x3011, 0x3012, portP 15 0x60, portP 15 0x63, portP 15 0x01,
    portP 15 0x3F, portP 15 0x41, 0x206, 0x22, 0x3601, 0x3A80, 0x3D07]) :
    user.Writes n := by
  fin_cases h <;> exact ⟨by decide +kernel, by decide +kernel, by decide +kernel, by decide +kernel⟩
theorem wit_flow : let other := { user with params := [(0x3100, 0x120), (0x3101, 0x44F), (0x3104, 0x120), (0x3105, 0x440), (0x3106, 3)] }
    other.flowCheck 0 = 0x0F ∧ ({ other with mesh := { other.mesh with dead := 1 } } : State).flowCheck 0 = 0x20 ∧
      user.flowCheck 0 = 9 ∧ flowOn.flowCheck 0 = 0 ∧
      ({ user with variant := .pt0800e, params := [(0x3100, 0x31C), (0x3101, 0x440)] } : State).flowCheck 0 = 0x0C := by
  refine ⟨?_, ?_, ?_, ?_, ?_⟩ <;> decide +kernel
/-- The oldest packet of a flow at the start of its window, one too long for it, and a time at which no window starts. -/
theorem wit_window : (flowOn.flowWindows 0).find? (fun x => decide (x.1 = flowOn.clk.tick.toNat % 64)) = some (0, 17) ∧
    (∀ x ∈ ({ flowOn with clk := { flowOn.clk with tick := 1 } } : State).flowWindows 0, x.1 ≠ 1) ∧ user.flowOn 0 = false := by decide

theorem test_dead_set : (go (.nocDeadSet 0x80000001) user).mesh.dead = 0x80000001 ∧
    (go (.nocDeadSet 0x80000001) user).evt.latches.map (fun l => l.data) = [[0, 7]] := by decide
theorem test_dead_clear : (go (.nocDeadClear 0x80000000) { user with mesh := { user.mesh with dead := 0x80000001 } }).mesh.dead = 1 := by
  decide
theorem test_wake_complete : ((go (.wakeComplete 24) { user with pwr := { user.pwr with domains := row 24 { onDom with st := .sleep, waking := true } } }).dom 24).st =
    .on := by decide +kernel
theorem wit_dead : Variant.pt0800e.hasGal 15 = false ∧ user.variant.hasGal 15 = true ∧ user.variant.hasPort 15 = true ∧
    user.isDead 31 = false ∧ ({ user with mesh := { user.mesh with dead := 1 <<< 31 } } : State).isDead 31 = true ∧
    (({ user with pwr := { user.pwr with domains := row 24 { onDom with st := .sleep, waking := true } } } : State).dom 24).waking = true := by
  decide

/-- GAL_RESET of a gallery that is off receives ASLEEP, and of all on succeeds. -/
theorem test_gal_reset : ((go (.galReset .lampPair) (asked 0x42 [0, 0x80])).gal 15).seq.st = .issuing ∧
    (go (.galReset .lampPair) { asked 0x42 [0, 0x80] with pwr := Power.reset }).gals = [] := by decide
theorem test_watchdog : ((go (.watchdogBite 0) (withGal user 0 { Gallery.reset with seq := { idleSeq with pc := 9, wdog := 65536 } })).gal 0).seq.pc = 0 ∧
    (go (.watchdogBite 0) (withGal user 0 { Gallery.reset with seq := { idleSeq with pc := 9, wdog := 65536 } })).evt.latches.map
      (fun l => (l.event, l.data.take 2)) = [(0x20, [9, 0])] := by decide
theorem wit_resets : (List.range 16).filter (fun k => (leAt [0, 0x80] 0 2).testBit k) = [15] ∧ Variant.pt0800e.hasGal 15 = false ∧
    (({ user with pwr := Power.reset } : State).dom 15).st ≠ .on ∧
    (({ user with pwr := { Power.reset with domains := row 15 { onDom with damper := .closed } } } : State).dom 15).damper ≠ .openD ∧
    (user.dom 15).damper = .openD ∧ (user.dom 15).rekindling = false ∧ (user.par (galP 0 0x04)).toNat % 2 ^ 24 = 65536 := by
  refine ⟨?_, ?_, ?_, ?_, ?_, ?_, ?_⟩ <;> decide

/-! ## Ports and links -/

/-- PORT_LINK_CFG0 of a subclass-1 receive link of port 0 alone, enabled; and PORT_LINK_CFG1 of one converter of 16 bits,
one sample and two octets to a frame. -/
def cfg0 : Nat := 0x80000201
def cfg1 : Nat := 0x007C1000

/-- Port 0 in JESD204C mode at 16.5 Gb/s, with that link configured and `on` as its CFG0; its port as given. -/
def linked (on : Nat) (q : Port) : State := { withPort user 0 q with
  params := [(portP 0 0x01, 1), (portP 0 0x02, 1650), (portP 0 0x60, wd on), (portP 0 0x61, wd cfg1), (portP 0 0x62, 100)] }

/-- A port whose lane and link stand at state `k`. -/
def atState (k : Nat) : Port := { Port.reset with
  rateNow := 1650, laneSt := k, linkSt := k, present := true, bind := 1, signal := true, cdr := true }

theorem test_link_commit : ((go (.linkCommit 0 (wd cfg0)) (linked 0x201 Port.reset)).port 0).linkSt = 1 ∧
    (go (.linkCommit 0 (wd cfg0)) (linked 0x201 Port.reset)).lamp.entryStatus = 0 := by decide +kernel
/-- A lead that is not the lowest member: RANGE. -/
theorem test_link_refused : (go (.linkCommit 1 (wd cfg0)) (linked 0 Port.reset)).lamp.entryStatus = 9 := by decide +kernel
theorem test_link_disable : ((go (.linkDisable 0 0x201) (linked cfg0 (atState 6))).port 0).linkSt = 0 := by decide +kernel
theorem test_sysref_arm : ((go (.sysrefArm 0 0x101) (linked 0x201 Port.reset)).port 0).armed = true := by decide +kernel
theorem test_port_protocol : (go (.portProtocol 15 3) user).lamp.entryStatus = 9 ∧
    (go (.portProtocol 15 0) user).parN (portP 15 0x06) = 1 := by decide +kernel
theorem test_port_reset : (go (.portReset .lampPair) (asked 0x43 [1, 0x80])).parN (portP 15 0x06) = 1 ∧
    ((go (.portReset .lampPair) (asked 0x43 [1, 0x80])).port 15).ctle = 8 := by decide +kernel
theorem wit_link_commit : let s := linked 0x201 Port.reset
    let u := s.putPar (portP 0 0x60) 0x201
    s.linkOn 0 = false ∧ (linked cfg0 Port.reset).linkOn 0 = true ∧ u.members 0 = [0] ∧ u.linkOf 0 false = none ∧ s.protocol 0 = 1 ∧
      u.limitsOk 0 = true ∧ 100 * s.linkRate 0 < s.linkE 0 * 211200 ∧ (u.members 0).length % s.linkL 0 = 0 ∧
      s.variant.hasPort 0 = true ∧ Variant.pt0800e.hasSeam 4 = false ∧ (s.par (portP 15 0x02)).toNat = 0 := by
  refine ⟨?_, ?_, ?_, ?_, ?_, ?_, ?_, ?_, ?_, ?_, ?_⟩ <;> decide +kernel
theorem wit_port_reset : (linked 0x201 Port.reset).linkOf 0 false = none ∧ (linked cfg0 Port.reset).linkOf 0 false = some 0 ∧
    (linked cfg0 Port.reset).linkOf 0 true = none ∧ ((linked cfg0 (atState 6)).port 0).linkSt = 6 ∧ (linked cfg0 Port.reset).protocol 0 ≠ 2 := by
  refine ⟨?_, ?_, ?_, ?_, ?_⟩ <;> decide +kernel

theorem test_cdr_lock : ((go (.cdrLock 0) (linked cfg0 (atState 1))).port 0).linkSt = 2 := by decide +kernel
theorem test_sh_lock : ((go (.shLock 0) (linked cfg0 (atState 2))).port 0).linkSt = 3 := by decide +kernel
/-- An inverted lane whose polarity may be corrected (PORT_POLARITY bit 0): inverted, and the identity comes next. -/
theorem test_emb_lock : ((go (.embLock 0 1) (linked (cfg0 + 0x1000) (atState 3))).port 0).inverted = true := by
  decide +kernel
theorem test_id : ((go (.idWindowDone 0 [some 0]) (linked (cfg0 + 0x1000) (atState 4))).port 0).linkSt = 5 ∧
    (go (.idWindowDone 0 [some 1]) (linked (cfg0 + 0x1000) (atState 4))).parN (portP 0 0x27) = 1 := by decide +kernel
theorem test_release : ((go (.releaseWaitDone 0 60 70) (linked cfg0 { atState 5 with phi := some 3 })).port 0).linkSt = 6 := by decide +kernel
theorem test_link_down : (go (.linkDown 0 0 .syncHeaders) (linked cfg0 (atState 6))).parN (portP 0 0x11) = 16 ∧
    ((go (.linkDown 0 0 .syncHeaders) (linked cfg0 (atState 6))).port 0).linkSt = 1 := by decide +kernel
theorem wit_links : (∀ k ∈ [1, 2, 3, 4, 5, 6], (linked cfg0 (atState k)).linkOn 0 = true ∧ (linked cfg0 (atState k)).linkTx 0 = false ∧
      ((linked cfg0 (atState k)).port 0).linkSt = k ∧ (linked cfg0 (atState k)).starting 0 = [0] ∧ (linked cfg0 (atState k)).clocked = true) ∧
    (linked cfg0 (atState 1)).starters 0 = [0] ∧ (linked (cfg0 + 0x100) (atState 5)).linkTx 0 = true ∧ (linked cfg0 (atState 5)).linkSub1 0 = true ∧
    (linked (cfg0 - 0x200) (atState 5)).linkSub1 0 = false ∧ (70 + 8 ≤ 100 ∧ (100 + 8 - 60) * (linked cfg0 Port.reset).linkRate 0 ≤ 64 * 6600) := by
  refine ⟨?_, ?_, ?_, ?_, ?_, ?_⟩ <;> decide +kernel

theorem test_sysref : ((go .sysrefCapture ((linked cfg0 { atState 5 with armed := true }).putPar (portP 0 0x63) 1)).port 0).phi = some 16 := by decide +kernel
theorem test_sysref_absent : ((go (.sysrefAbsent 0) (linked cfg0 { atState 5 with armed := true })).port 0).armAbsent = true := by
  decide +kernel
/-- PORT_DEST: units 1 to the edge of gallery 0, enabled. -/
theorem test_group : (go (.packetGroupRelease 0 (List.replicate 32 9)) { linked cfg0 (atState 6) with
    params := [(portP 0 0x01, 1), (portP 0 0x02, 1650), (portP 0 0x20, 0x80000801), (portP 0 0x60, wd cfg0), (portP 0 0x61, wd cfg1)] }).mesh.ready.map
      (fun p => [p.dx, p.dy, p.len, p.addr, p.sx]) = [[1, 0, 1, 0x100000000, 0]] := by decide +kernel
theorem test_tx_stream : ((go (.txStreamWrite 0) (flying (linked (cfg0 + 0x100) (atState 6))
    [{ packet 15 0 with dx := 0, dy := 0, data := [1, 0, 0, 0, 2] }])).port 0).txBuf = [1, 2, 0, 0, 0, 0, 0, 0] := by decide +kernel
theorem test_tx_frame : ((go (.txFrameDue 0) (linked (cfg0 + 0x100) { atState 6 with txBuf := [5, 6] })).port 0).txBuf = [6] ∧
    (go (.txFrameDue 0) (linked (cfg0 + 0x100) (atState 6))).parN (portP 0 0x15) = 1 := by decide +kernel
theorem test_eq : ((go (.eqEvaluation 0 [15, -32, 31, 0, 0, 0]) (linked cfg0 (atState 6))).port 0).ctle = 9 := by decide +kernel
theorem wit_samples : (linked cfg0 (atState 6)).deviceLead 0 false = some 0 ∧ (linked (cfg0 + 0x100) (atState 6)).deviceLead 0 true = some 0 ∧
    (user.dom 16).damper = .openD ∧ (linked cfg0 (atState 6)).portWaiting 0 = 0 ∧ tabGet 0 user.pins.kinds 11 ≠ 5 ∧
    (ready (linked cfg0 (atState 6)) (List.replicate 8 { packet 15 0 with dx := 1, sy := 0 })).portWaiting 0 = 8 ∧
    ((linked cfg0 { atState 5 with armed := true }).port 0).armAbsent = false := by
  refine ⟨?_, ?_, ?_, ?_, ?_, ?_, ?_⟩ <;> decide +kernel

/-! ## Seam links -/

/-- Seam port 15 of card 0 in state `st` with the rest of its link as given, a route to card 1 through it. -/
def seamAt (q : Seam) : State := { carded 0 with ports := row 15 { Port.reset with seam := q, rateNow := 2500, cdr := true, signal := true } }

/-- The same port at state 5. -/
def up : Seam := { Seam.reset with state := 5, peerCard := 1 }

/-- A TRAIN payload (Table 15.2): "SL", version 1, the peer's card with READY, its port. -/
def train (flags : Nat) : List Byte := [0x53, 0x4C, 1, BitVec.ofNat 8 flags, 9] ++ List.replicate 27 0

/-- A TIME payload: T3, and T1 with T2 of the block before. -/
def time (t3 t1 t2 : Nat) : List Byte := leBytes 8 t3 ++ leBytes 8 t1 ++ leBytes 8 t2 ++ List.replicate 8 0

/-- A block of that kind and number with a payload, from a peer that expects 0. -/
def block (kind seq : Nat) (head : Bool) (pay : List Byte) : List Byte := makeBlock Seam.reset kind seq false head pay

theorem test_block_lock : ((go (.seamBlockLock 15) (seamAt { Seam.reset with state := 2 })).port 15).seam.state = 3 := by decide +kernel
/-- The sixteenth TRAIN block with READY opens the tick comparison. -/
theorem test_train : ((go (.seamTrainRx 15 (block 3 0 false (train 0x21)) false) (seamAt { Seam.reset with state := 3, readyRun := 15 })).port 15).seam.state =
    4 := by decide +kernel
theorem test_train_version : (go (.seamTrainRx 15 (block 3 0 false ([0x53, 0x4C, 2] ++ List.replicate 29 0)) false)
    (seamAt { Seam.reset with state := 3 })).evt.latches.map (fun l => l.data.take 6) = [[0x16, 0, 0, 0, 2, 0]] := by decide +kernel
theorem test_time_send : ((go (.seamTimeSend 15) (seamAt { Seam.reset with state := 4 })).port 15).seam.sent.length = 1 := by decide +kernel
/-- T1 = 10, T2 = 110, T3 = 120, T4 = 30: a round trip of 10 and a difference of −95 in ticks. -/
theorem test_time : (go (.seamTimeRx 15 (block 4 0 false (time 120 10 110)) 30) (seamAt { Seam.reset with state := 4 })).parN (portP 15 0x44) = 10 ∧
    ((go (.seamTimeRx 15 (block 4 0 false (time 120 10 110)) 30) (seamAt { Seam.reset with state := 4 })).port 15).seam.state = 5 := by
  decide +kernel
theorem test_unit : ((go (.seamUnitRx 15 (block 1 0 true (leBytes 32 (headerNat (packet 0 4))))) (seamAt up)).port 15).seam.expected = 1 ∧
    (go (.seamUnitRx 15 (block 1 0 true (leBytes 32 (headerNat { packet 0 4 with len := 0 })))) (seamAt up)).mesh.ready.map (fun p => [p.dx, p.cmd]) =
      [[1, 4]] := by decide +kernel
theorem test_idle : ((go (.seamIdleRx 15 (block 0 2 false [])) (seamAt up)).port 15).seam.nakPending = true := by decide +kernel
theorem test_nak : (go (.seamNakRx 15 (block 2 0 false [])) (seamAt { up with replay := [block 1 0 true []], nextSeq := 1 })).parN (portP 15 0x46) = 1 := by
  decide +kernel
theorem test_replay_timeout : ((go (.seamReplayTimeout 15) (seamAt { up with replay := [block 1 0 true []], nextSeq := 1 })).port 15).seam.sent.length = 1 := by
  decide +kernel
theorem test_budget : ((go (.seamBudgetExhausted 15) { seamAt { up with replay := [block 1 0 true []], episode := some (2, 0, 0) } with
    clk := { user.clk with cyc := 4000 } }).port 15).seam.reason = 2 := by decide +kernel
theorem test_retrain : ((go (.seamRetrain 15 1) (seamAt up)).port 15).seam.state = 1 ∧ (go (.seamRetrain 15 1) (seamAt up)).parN (portP 15 0x49) = 1 := by
  decide +kernel
theorem test_signal_lost : ((go (.seamSignalLost 15) (seamAt up)).port 15).cdr = false := by decide +kernel
theorem test_seam_send : ((go (.seamPacketSend 0) (flying (seamAt up) [{ packet 0 4 with dcard := 1 }])).port 15).seam.nextSeq = 2 := by decide +kernel

/-- A block of each kind that a port in state 3 to 5 receives. -/
theorem wit_receives (k st : Nat) (h : k < 5) (h' : st = 3 ∨ st = 4 ∨ st = 5) :
    (seamAt { up with state := st }).Receives 15 k (block k 0 true (List.replicate 32 0)) := by
  have e : ∀ k < 5, blockOk (block k 0 true (List.replicate 32 0)) = true ∧ blockKind (block k 0 true (List.replicate 32 0)) = k := by
    decide +kernel
  obtain ⟨h1, h2⟩ := e k h
  have n : (seamAt { up with state := st }).port 15 = { Port.reset with
      seam := { up with state := st }, rateNow := 2500, cdr := true, signal := true } := rfl
  exact ⟨rfl, by decide, (by decide +kernel : (carded 0).protocol 15 = 2), by rw [n]; rcases h' with h | h | h <;> rw [h] <;> decide, h1, h2⟩
theorem wit_training : let b := block 3 0 false (train 0x21)
    (byteAt b 8).toNat = 0x53 ∧ (byteAt b 9).toNat = 0x4C ∧ (byteAt b 10).toNat = 1 ∧ (byteAt b 11).toNat = 0x21 ∧ (seamAt up).card ≠ 15 ∧
      blockOk (b.set 9 0) = false ∧ (seamAt { up with state := 2 }).pairOn 15 = true ∧ user.card = 15 := by
  refine ⟨?_, ?_, ?_, ?_, ?_, ?_, ?_, ?_⟩ <;> decide +kernel
/-- Times that give a difference, and a first block without one; blocks ahead by 1 and by 2,047, and one behind. -/
theorem wit_times : leAt (block 4 0 false (time 120 10 110)) 16 8 = 10 ∧ leAt (block 4 0 false (time 120 0 0)) 24 8 = 0 ∧
    (1 + 4096 - up.expected) % 4096 = 1 ∧ (2047 + 4096 - up.expected) % 4096 = 2047 ∧ (2048 + 4096 - up.expected) % 4096 = 2048 := by
  refine ⟨?_, ?_, ?_, ?_, ?_⟩ <;> decide +kernel
/-- A NAK sent lately and one not; replay episodes at their first, eighth and ninth pass and at 4,000 cycles; a packet for
which 64 blocks of credit and of replay room just suffice, and one block less. -/
theorem wit_replay : let recent := fun cyc now : Nat => (now - cyc) * 2500 < 0 * 2500 + 66000
    recent 0 26 ∧ ¬ recent 0 27 ∧ ({ up with episode := some (7, 0, 0) } : Seam).episode = some (7, 0, 0) ∧ 0 + 4000 ≤ 4000 ∧
      unitsOf (packet 0 4) = 2 ∧ 64 - (62 + 256 - up.reqPeer) % 256 = 2 ∧ 64 - (63 + 256 - up.reqPeer) % 256 < 2 ∧
      (List.replicate 62 (block 0 0 false [])).length + 2 = 64 := by
  refine ⟨?_, ?_, ?_, ?_, ?_, ?_, ?_, ?_⟩ <;> decide +kernel
theorem wit_seam_send : (seamAt up).seamTo 1 = some 15 ∧ (seamAt up).seamTo 2 = none ∧ (packet 0 4).dcard = 0 ∧
    (flying (seamAt up) [{ packet 0 4 with dcard := 1 }]).mesh.flight.length = 1 ∧ (seamAt up).card = 0 := by
  refine ⟨?_, ?_, ?_, ?_, ?_⟩ <;> decide +kernel
/-- A header at the largest value of every field. -/
theorem wit_header : headerPacket (headerNat { blankPacket with
      dx := 7, dy := 7, dport := 1, dcard := 15, sx := 7, sy := 7, sport := 1, scard := 15, gt := true, cmd := 6, half := true, poison := true
      tag := 4095, len := 31, flow := 127, status := 255, addr := 2 ^ 48 - 1, code := 255, valid := BitVec.allOnes 128 }) =
    { blankPacket with
      dx := 7, dy := 7, dport := 1, dcard := 15, sx := 7, sy := 7, sport := 1, scard := 15, gt := true, cmd := 6, half := true, poison := true
      tag := 4095, len := 31, flow := 127, status := 255, addr := 2 ^ 48 - 1, code := 255, valid := BitVec.allOnes 128 } := by decide +kernel

/-! ## Parameters, the lamp, the flash -/

/-- TB_STATUS is read-only: status 7; a counter takes 0 alone; the high word of TB_SYNC_LOAD commits the staged low word. -/
theorem test_param_write : (go (.paramWrite 0x3D02 5) user).lamp.entryStatus = 7 ∧ (go (.paramWrite 0x0305 1) user).lamp.entryStatus = 9 ∧
    (go (.paramWrite (portP 3 0x06) 0) { user with params := row (portP 3 0x06) 9 }).params = [] := by decide +kernel
theorem test_param_pair : (go (.paramWrite 0x3D05 1) (go (.paramWrite 0x3D04 0x1000) user)).pair 0x3D04 = 0x100001000 ∧
    (go (.paramWrite 0x3D04 0x1000) user).params = [] := by decide +kernel
theorem test_hold_timeout : (go (.kindleHoldTimeout 0xFFFFFFFF) user).parN 0x22 = 0x80FFFFFF := by decide +kernel
/-- SYNC is used (RV_SYNC 0). -/
def syncUsed : State := { user with board := { Board.reset with rv := 0 } }

theorem test_tb_align : (go (.tbAlign 1) syncUsed).clk.armed = true ∧ (go (.tbAlign 2) syncUsed).lamp.entryStatus = 9 := by decide +kernel
theorem test_trig_drive : (go (.trigDriveEn 1) { user with board := { Board.reset with rv := 0x0FFFFFFF } }).pins.kinds = user.pins.kinds := by
  decide +kernel
/-- GET of one number that names no parameter: status 6 in its entry. -/
theorem test_get : answered (.get .lampPair) (asked 0x10 [0xFF, 0xFF, 1, 0]) = some [1, 0] ∧
    (go (.get .lampPair) (asked 0x10 [0xFF, 0xFF, 1, 0])).lamp.sent.head?.map (fun m => m.drop 16) = some [6, 0, 0, 0, 0, 0, 0, 0] := by
  decide +kernel
theorem test_get_pair : (go (.getPair .lampPair) (asked 0x12 [0x22, 0])).lamp.sent.head?.map (fun m => byteAt m 8) = some 9 := by decide +kernel
theorem test_set : (go (.set .lampPair) (asked 0x11 [0x22, 0, 0, 0, 5, 0, 0, 0])).parN 0x22 = 5 := by decide +kernel

/-- A parameter of each access class, the low and the high word of a pair, a busy one; numbers at the ends of GET's range. -/
theorem wit_params : (paramInfo 0x22).map (·.access) = some .rw ∧ (paramInfo (portP 3 0x06)).map (·.access) = some .counter ∧
    (paramInfo 0x3D02).map (·.access) = some .ro ∧ (paramInfo 0xFFFF).isNone = true ∧
    (paramInfo 0x3D04).map (fun i => (i.low, i.high)) = some (true, false) ∧ (paramInfo 0x3D05).map (fun i => (i.low, i.high)) = some (false, true) ∧
    0xFFFF + 1 ≤ 0x10000 ∧ user.measured 0x22 = false ∧ user.valueOk (portP 0 0x02) 3251 = false ∧ user.valueOk (portP 0 0x02) 3250 = true := by
  refine ⟨?_, ?_, ?_, ?_, ?_, ?_, ?_, ?_, ?_, ?_⟩ <;> decide +kernel

/-- A message: version 1, a command, its type, tag and length. -/
def message (type : Nat) (body : List Byte) : List Byte := [1, 0] ++ leBytes 2 type ++ [7, 0] ++ leBytes 2 body.length ++ [0, 0, 0, 0] ++ body

/-- Its frame between the flags. -/
def frame (m : List Byte) : List Byte :=
  ([0xFF, 0x03] ++ m ++ leBytes 4 (crc32 ([0xFF, 0x03] ++ m)).toNat).flatMap (fun b => if b = 0x7E ∨ b = 0x7D then [0x7D, b ^^^ 0x20] else [b])

/-- The check value of the CRC-32 (R104) and of the CRC-16 (R264) over "123456789". -/
theorem test_crcs : crc32 [0x31, 0x32, 0x33, 0x34, 0x35, 0x36, 0x37, 0x38, 0x39] = 0xCBF43926 ∧
    crc16 [0x31, 0x32, 0x33, 0x34, 0x35, 0x36, 0x37, 0x38, 0x39] = 0x29B1 := by decide +kernel
theorem test_lamp_frame : (go (.lampFrameRx (frame (message 1 []))) user).lamp.inbox.map (fun c => (c.type, c.tag)) = [(1, 7)] ∧
    (go (.lampFrameRx [1, 2]) user).parN 0x302 = 1 := by decide +kernel
theorem test_owner_timeout : (go .ownerTimeout { user with params := row 0x301 5 }).lamp.owner = none := by decide +kernel
theorem test_ping : (go (.ping .lampPair) (asked 1 [])).lamp.sent.map (fun m => (m.take 9, m.length)) = [([1, 1, 1, 0, 7, 0, 12, 0, 0], 24)] := by
  decide +kernel
theorem test_lamp_release : (go (.release .lampPair) (asked 2 [])).lamp.owner = none := by decide +kernel
/-- A frame that fails, a wrong version, a repeat, a stored response, a bad length, an unknown type, a foreign owner, no
place, and one that is taken. -/
theorem wit_lamp : frameMessage [1, 2] = none ∧ frameMessage (frame (message 1 [])) = some (message 1 []) ∧
    byteAt (message 1 []) 0 = 1 ∧ 12 ≤ (message 1 []).length ∧ 0x99 ∉ knownTypes ∧ 0x46 ∈ knownTypes ∧ structured 0x46 [] = false ∧
    user.places .lampPair = 4 ∧ ({ user with lamp := { user.lamp with inbox := List.replicate 4 (cmd 1 []) } } : State).places .lampPair = 0 ∧
    (user.par 0x301).toNat % 2 ^ 24 ≠ 0 ∧ ({ asked 0x46 [] with kin := { user.kin with phase := 4 } } : State).ready (cmd 0x46 []) = false := by
  refine ⟨?_, ?_, ?_, ?_, ?_, ?_, ?_, ?_, ?_, ?_, ?_⟩ <;> decide +kernel

/-- FLASH_PROGRAM of one code word at the last place of a sector. -/
def oneWord : List Byte := leBytes 4 0x0010FFE0 ++ [1, 0, 0, 0] ++ List.replicate 32 0xA5

theorem test_flash_read : (go (.flashRead .lampPair []) (asked 0x20 (leBytes 4 0x00100000 ++ [1, 0, 0, 0]))).lamp.sent.map (fun m => m.take 9) =
    [[1, 1, 0x20, 0, 7, 0, 48, 0, 0]] := by decide +kernel
theorem test_flash_program : (go (.flashProgram .lampPair) (asked 0x21 oneWord)).flash.op = some (.program (cmd 0x21 oneWord) 0x0010FFE0 (List.replicate 32 0xA5)) := by
  decide +kernel
theorem test_flash_program_done : flashByte (go .flashProgramDone { user with flash := { Flash.reset with
    op := some (.program (cmd 0x21 oneWord) 0x0010FFE0 (List.replicate 32 0xA5)) } }).flash.data 0x0010FFFF = 0xA5 := by decide +kernel
theorem test_flash_erase : (go (.flashErase .lampPair) (asked 0x22 [0xFF, 7])).flash.op = some (.erase (cmd 0x22 [0xFF, 7]) 2047) := by decide +kernel
theorem test_flash_erase_done : (go (.flashEraseDone true) { user with flash := { Flash.reset with
    op := some (.erase (cmd 0x22 [0xFF, 7]) 2047), data := row 0x07FFFFFF 1 } }).flash.data = [] := by decide +kernel
/-- Commands that name words up to the end of a sector and past it; a sector in use, one guarded, one being written. -/
theorem wit_flash : 0x0010FFE0 % 65536 + 32 * 1 = 65536 ∧ user.flash.op = none ∧ user.sectorInUse 0x10 = false ∧
    user.wordSt (0x0010FFE0 / 32) = .blank ∧ ({ user with board := { Board.reset with straps := 4 } } : State).board.straps.getLsbD 2 = true ∧
    user.kin.journalOk = true ∧ ({ user with flash := { Flash.reset with op := some (.erase (cmd 0x22 []) 9) } } : State).writingSectors = [9] := by
  refine ⟨?_, ?_, ?_, ?_, ?_, ?_, ?_⟩ <;> decide +kernel


/-! ## Kindling -/

/-- SHA-256 of "abc" (FIPS 180-4, its worked example). -/
theorem test_sha : sha256 [0x61, 0x62, 0x63] = (leBytes 32 0xba7816bf8f01cfea414140de5dae2223b00361a396177a9cb410ff61f20015ad).reverse := by
  decide +kernel

/-- The key and the signature of "sample" with SHA-256 of RFC 6979, A.2.6. -/
def keyX : Nat := 0xEC3A4E415B4E19A4568618029F427FA5DA9A8BC4AE92E02E06AAE5286B300C64DEF8F0EA9055866064A254515480BC13
def keyY : Nat := 0x8015D9B72D7D57244EA8EF9AC0C621896708A59367F9DFB9F54CA84B3F1C9DB1288B231C3AE0D4FE7344FD2533264720
def sigR : Nat := 0x21B13D1E013C7FA1392D03C5F99AF8B30C570C6F98D4EA8E354B63A21D3DAA33BDE1E888E63355D92FA2B3C36D8FB2CD
def sigS : Nat := 0xF3AA443FB107745BF4BD77CB3891674632068A10CA67E3D45DB2266FA7D1FEEBEFDC63ECCD1AC42EC0CB8668A4FA0AB0
/-- The digest of "sample". -/
def digest : List Byte := sha256 [0x73, 0x61, 0x6D, 0x70, 0x6C, 0x65]

theorem test_ecdsa : ecdsaVerify keyX keyY (beNat digest) sigR sigS = true ∧ ecdsaVerify keyX keyY (beNat digest) sigR (sigS + 1) = false := by
  decide +kernel


/-- A journal entry (Table 7.6) with its check value. -/
def entryWord (seq block : Nat) : List Byte :=
  let d := [0x4A, 0x4E, BitVec.ofNat 8 block, ~~~(BitVec.ofNat 8 block)] ++ leBytes 4 seq ++ leBytes 4 (2 ^ 32 - 1 - seq) ++ List.replicate 16 0
  d ++ leBytes 4 (crc32 d).toNat

/-- A boot record (Table 7.3) that names entry 13, with a key hash. -/
def bootBytes (key : List Byte) : List Byte :=
  let d := [0x50, 0x59, 0x42, 0x52, 0, 1, 13, 1] ++ key ++ List.replicate (244 - key.length) 0
  d ++ leBytes 4 (crc32 d).toNat

/-- A directory entry (Table 7.4): valid, count sectors from `first`, of an image of `len` bytes. -/
def dirWord (first count len : Nat) : List Byte :=
  let d := [1, 0] ++ leBytes 2 first ++ leBytes 2 count ++ [0, 0] ++ leBytes 4 len ++ List.replicate 16 0
  d ++ leBytes 4 (crc32 d).toNat

/-- `s` with flash words from `w` on programmed with those bytes. -/
def burn (w : Nat) (d : List Byte) (s : State) : State := { s with flash := { s.flash with
  data := flashPut s.flash.data (32 * w) d
  words := (List.range (d.length / 32)).foldl (fun t i => tabSet .blank t (w + i) .programmed) s.flash.words } }

/-- A flash with a journal that selects block 1 with SEQ 5. -/
def flashed (s : State) : State := burn 4096 (entryWord 5 1) s

/-- What the check value at the end of a record says of it. -/
theorem crc_closed (d : List Byte) (n : Nat) (h : d.length = n) : let r := d ++ leBytes 4 (crc32 d).toNat
    r.length = n + 4 ∧ crc32 (r.take n) = wd (leAt r n 4) := by
  subst h
  have e : ∀ v : Word, wd (leNat (leBytes 4 v.toNat)) = v := by
    intro v
    have h := v.isLt
    apply BitVec.eq_of_toNat_eq
    simp only [leBytes, leNat, wd, BitVec.toNat_ofNat]
    omega
  refine ⟨by simp [leBytes], ?_⟩
  show crc32 ((d ++ leBytes 4 (crc32 d).toNat).take d.length) =
    wd (leNat (((d ++ leBytes 4 (crc32 d).toNat).drop d.length).take 4))
  rw [List.take_left, List.drop_left]
  exact (e (crc32 d)).symm

/-- A device in kindling phase `n` with RV_BOOT code `rv` (pin 7) and RV_IMG code 15. -/
def kindling (n rv : Nat) : State := { State.reset with
  board := { Board.reset with rv := BitVec.ofNat 32 (rv * 2 ^ 28 + 0x0FFFFFFF) }
  clk := { Clock.reset with mode := .running }, kin := { Kindle.reset with phase := n } }

theorem test_journal : (flashed (kindling 2 15)).scanJournal = some { seq := 5, block := 1, sec := 2, word := 0 } := by decide +kernel
theorem test_journal_scan : (go (.journalScan []) (flashed (kindling 2 15))).parN 0x3802 = 5 ∧
    (go (.journalScan []) (flashed (kindling 2 15))).img.block = 1 := by decide +kernel
theorem test_image_select : (go (.imageSelect []) (burn (8 + 13) (dirWord 4 1 65536) { kindling 3 15 with
    img := { Image.reset with defEntry := 13 } })).img.base = 0x40000 := by decide +kernel
theorem test_keeper_cycle : (go .keeperCycle16 (kindling 0 15)).kin.phase = 1 ∧ (go .keeperCycle16 (kindling 0 15)).lamp.pairOn = true := by
  decide +kernel
theorem test_power_up : ((go (.domainPowerUp true) (kindling 1 15)).dom 24).st = .on ∧
    (go (.domainPowerUp false) (kindling 1 15)).parN 0x21 = 24 := by decide +kernel
/-- The swap to block 0 goes into the next free word of the sector of the selection, with the next SEQ. -/
theorem test_swap_plan : swapPlan (go (.journalScan []) (flashed (kindling 2 15))) 0 = [.put 2 1 6 0] ∧ swapPlan (go (.journalScan []) (flashed (kindling 2 15))) 1 = [] ∧ swapPlan user 1 = [.put 2 0 1 1] := by
  decide +kernel
theorem test_flash_swap_done : (go (.flashSwapDone true) { user with flash := { Flash.reset with op := some (.swap (cmd 0x23 [0]) 0) } }).parN 0x3802 =
    1 := by decide +kernel
theorem test_flash_swap : (go (.flashSwap .lampPair) (flashed (asked 0x23 [2]))).lamp.sent.map (fun m => byteAt m 8) = [9] := by decide +kernel
theorem wit_swap : let s := flashed (asked 0x23 [1])
    s.flash.op = none ∧ s.kin.journalOk = true ∧ s.board.straps.getLsbD 2 = false ∧ s.bootRecord 0 ≠ 0 ∧ user.selection = none ∧
      (∀ i < 8, s.wordDecay (2048 + i) ≠ .fatal) ∧ s.wordSt 4097 = .blank ∧ s.wordSt 4096 = .programmed := by
  refine ⟨?_, ?_, ?_, ?_, ?_, ?_, ?_, ?_⟩ <;> decide +kernel
theorem wit_selection : let s := go (.journalScan []) (flashed (kindling 2 15))
    s.selection = some { seq := 5, block := 1, sec := 2, word := 0 } ∧ s.nextFree 2 0 = 1 := by
  refine ⟨?_, ?_⟩ <;> decide +kernel

/-- An image header (Table 6.1) of an image of `len` bytes with its frames at `off`, with a signature when `sig` is 1. -/
def header (len off sig part : Nat) : List Byte :=
  let d := [0x50, 0x59, 0x52, 0x31, 0, 1, 0, 1] ++ leBytes 4 len ++ leBytes 4 off ++ leBytes 4 sig ++ leBytes 4 7 ++ leBytes 4 8 ++ [0, 0, 0, 0] ++
    [0x59, 0x50] ++ leBytes 2 part ++ [0x10, 0xFF, 1, 0] ++ List.replicate 24 0 ++
    [0, 0, 0, 0, 1, 0, 0, 0, 2, 0, 0, 0, 3, 0, 0, 0, 4, 1, 0x64, 0] ++ leBytes 4 0x80000005 ++ List.replicate 164 0
  d ++ leBytes 4 (crc32 d).toNat

/-- A signature block (Table 6.10) over the digest of "sample". -/
def signature : List Byte :=
  let d := [0x50, 0x59, 0x53, 0x47, 0, 1, 1, 0] ++ List.replicate 8 0 ++ (leBytes 48 keyX).reverse ++ (leBytes 48 keyY).reverse ++ digest ++
    (leBytes 48 sigR).reverse ++ (leBytes 48 sigS).reverse ++ List.replicate 12 0
  d ++ leBytes 4 (crc32 d).toNat

/-- A host load of those bytes in phase `n`. -/
def hosted (n : Nat) (d : List Byte) (key : Option (List Byte)) : State := { kindling n 4 with
  img := { Image.reset with host := true, hostLen := d.length, hostBytes := d, keyHash := key, off := 256, galMask := 1 } }

theorem wit_header_check : let h := header 296 256 0 0xFFFF
    crc32 (h.take 252) = wd (leAt h 252 4) ∧ headerFormatOk h = true ∧ leAt h 0x24 1 ≤ Config.stepping ∧ Config.stepping ≤ leAt h 0x25 1 ∧
      leAt h 0x20 2 = 0x5059 ∧ headerFormatOk (header 296 512 0 0) = false ∧ leAt (header 296 256 0 1) 0x22 2 = 1 := by
  refine ⟨(crc_closed _ 252 (by decide +kernel)).2, ?_, ?_, ?_, ?_, ?_, ?_⟩ <;> decide +kernel
/-- A signature block that R82 accepts. -/
theorem wit_signature : signature.take 4 = [0x50, 0x59, 0x53, 0x47] ∧ leAt signature 4 2 = 256 ∧ leAt signature 6 2 = 1 ∧
    crc32 (signature.take 252) = wd (leAt signature 252 4) ∧
    ecdsaVerify (beNat (slice signature 0x10 48)) (beNat (slice signature 0x40 48)) (beNat (slice signature 0x70 32))
      (beNat (slice signature 0x90 48)) (beNat (slice signature 0xC0 48)) = true ∧
    (hosted 5 (List.replicate 512 0) none).img.hostLen = 512 := by
  have e : ecdsaVerify (beNat (slice signature 0x10 48)) (beNat (slice signature 0x40 48)) (beNat (slice signature 0x70 32))
      (beNat (slice signature 0x90 48)) (beNat (slice signature 0xC0 48)) = true := by decide +kernel
  refine ⟨?_, ?_, ?_, (crc_closed _ 252 (by decide +kernel)).2, e, ?_⟩ <;> decide +kernel
/-- A boot record that R79 accepts. -/
theorem wit_boot_record : let d := bootBytes (leBytes 32 5)
    crc32 (d.take 252) = wd (leAt d 252 4) ∧ d.take 4 = [0x50, 0x59, 0x42, 0x52] ∧ leAt d 4 2 = 0x0100 ∧ (byteAt d 6).toNat = 13 := by
  refine ⟨(crc_closed _ 252 (by decide +kernel)).2, ?_, ?_, ?_⟩ <;> decide +kernel
/-- A directory entry of the largest image and one past the end of the flash. -/
theorem wit_directory : let d := dirWord 4 2044 (2044 * 65536)
    crc32 (d.take 28) = wd (leAt d 28 4) ∧ (byteAt d 0).getLsbD 0 = true ∧ leAt d 2 2 + leAt d 4 2 = 2048 ∧ leAt d 8 4 = leAt d 4 2 * 65536 ∧
      2048 < leAt (dirWord 5 2044 0) 2 2 + leAt (dirWord 5 2044 0) 4 2 := by
  refine ⟨(crc_closed _ 28 (by decide +kernel)).2, ?_, ?_, ?_, ?_⟩ <;> decide +kernel
theorem wit_kindling : (kindling 1 15).domOrder[24]? = some 15 ∧ (kindling 2 15).rv 7 = 15 ∧ (kindling 2 15).kin.journalOk = false ∧
    (kindling 2 15).flash.op = none ∧ (kindling 4 3).rv 7 = 3 := by
  refine ⟨?_, ?_, ?_, ?_, ?_⟩ <;> decide +kernel
/-- What fails: an uncorrectable word, no magic, a short extent, awaited bytes, an absent device. -/
theorem wit_kindling_faults :
    ({ kindling 2 15 with flash := { Flash.reset with words := row 2055 .programmed, decay := row 2055 .fatal } } : State).wordDecay 2055 = .fatal ∧
      (kindling 2 15).bootRecord 0 = 1 ∧ (hosted 4 (List.replicate 255 0) none).img.hostLen < 256 ∧ Variant.pt0800e.units.testBit 15 = false := by
  refine ⟨?_, ?_, ?_, ?_⟩ <;> decide +kernel


/-- A frame (Table 6.2) with its check value and its padding. -/
def frameBytes (type cfa aux : Nat) (d : List Byte) : List Byte :=
  let h := [BitVec.ofNat 8 type, 0, 0, 0] ++ leBytes 4 cfa ++ leBytes 4 d.length ++ leBytes 4 aux ++ d
  h ++ leBytes 4 (crc32 h).toNat ++ [0, 0, 0, 0]

/-- A host load that stands at that frame, with the table of gallery 0 loaded and context 63 defined. -/
def atFrame (type cfa aux : Nat) (d : List Byte) : State := { withGal (kindling 6 4) 0 { Gallery.reset with
    descs := row 63 { CtxDesc.reset with defined := true } } with
  img := { Image.reset with
    host := true, hostLen := (frameBytes type cfa aux d).length, hostBytes := frameBytes type cfa aux d, galMask := 1, imageLen := (frameBytes type cfa aux d).length
    loaded := [(0x20000000, { gcrc := 0, off := 0 })] } }

theorem test_preload : memRead ((go .memPreload (atFrame 6 0x20000000 0x1FFFF0 (List.replicate 16 5))).gal 0).mem 0x1FFFEF 3 = [0, 5, 5] := by
  decide +kernel
theorem test_fill_run : memRead ((go .fillRun (atFrame 7 0x20000000 0x1FFFE0 (leBytes 4 32 ++ List.replicate 12 0 ++ [1, 2] ++ List.replicate 14 0))).gal 0).mem
    0x1FFFF0 3 = [1, 2, 0] := by decide +kernel
theorem test_seed : memRead ((go .contextSeed (atFrame 5 0x3F00 0x3FF0 (List.replicate 16 9))).gal 0).store (0x4000 * 63 + 0x3FEF) 2 = [0, 9] := by
  decide +kernel
theorem test_defaults : (go .paramDefaults (atFrame 0x0A 0 0 ([3, 0x3D, 0, 0, 9, 0, 0, 0] ++ [0xFF, 0xFF, 0, 0, 8, 0, 0, 0]))).parN 0x3D03 = 9 ∧
    (go .paramDefaults (atFrame 0x0A 0 0 (List.replicate 8 0xFF ++ [0x22, 0, 0, 0, 8, 0, 0, 0]))).kin.code = 0x44 := by
  decide +kernel
theorem test_map : (go .essentialMap (atFrame 0x0B 0 0 (List.replicate 16 0))).img.index = 1 := by decide +kernel
theorem test_golden : (go .goldenTable (atFrame 0x0C 0 0 (List.replicate 16 0xFF))).kin.phase = 10 := by decide +kernel
/-- An END frame with no table for gallery 0's planes: the image is not complete. -/
theorem test_end : (go .endFrame (atFrame 0x0F 0 0 (List.replicate 16 0))).parN 0x20 = 0 ∧
    (go .endFrame (atFrame 0x0F 0 0 (List.replicate 16 0))).kin.code = 0x44 := by decide +kernel
/-- A frame whose check value is wrong, met by another row. -/
theorem test_frame_crc : (go .planeFrame { atFrame 6 0 0 [] with img := { (atFrame 6 0 0 []).img with hostBytes := (frameBytes 6 0 0 []).set 3 1 } }).kin.code =
    0x40 := by decide +kernel

theorem leNat_leBytes4 (v : Nat) (h : v < 2 ^ 32) : leNat (leBytes 4 v) = v := by
  simp only [leBytes, leNat, BitVec.toNat_ofNat]; omega

/-- The next frame of every type and every content. -/
theorem wit_next_frame (type cfa aux : Nat) (d : List Byte) (h : d.length < 2 ^ 32) (ht : type < 256) (hc : cfa < 2 ^ 32) (ha : aux < 2 ^ 32) :
    nextFrame (atFrame type cfa aux d) =
      (.frame { type := type, cfa := cfa, len := d.length, aux := aux, data := d, off := 0, idx := 0 }, atFrame type cfa aux d) := by
  have hd : ([BitVec.ofNat 8 type, 0, 0, 0] ++ leBytes 4 cfa ++ leBytes 4 d.length ++ leBytes 4 aux).length = 16 := rfl
  have c4 : ∀ v, (leBytes 4 v).length = 4 := fun _ => rfl
  let g := [BitVec.ofNat 8 type, 0, 0, 0] ++ leBytes 4 cfa ++ leBytes 4 d.length ++ leBytes 4 aux
  have hb : frameBytes type cfa aux d = g ++ d ++ (leBytes 4 (crc32 (g ++ d)).toNat ++ [0, 0, 0, 0]) := by
    simp [frameBytes, g]
  have hl : (frameBytes type cfa aux d).length = d.length + 24 := by rw [hb]; simp [g, c4]; omega
  have bytes : ∀ n, (atFrame type cfa aux d).imgBytes 0 n = (frameBytes type cfa aux d).take n := fun n => rfl
  have b16 : (atFrame type cfa aux d).imgBytes 0 16 = g := by
    rw [bytes, hb, List.append_assoc]; exact List.take_left' hd
  have b20 : (atFrame type cfa aux d).imgBytes 0 (d.length + 20) = g ++ d ++ leBytes 4 (crc32 (g ++ d)).toNat := by
    rw [bytes, hb, ← List.append_assoc]
    exact List.take_left' (by simp [g, c4]; omega)
  have n16 : (g ++ d).length = 16 + d.length := by simp [g, c4]; omega
  have lim : (atFrame type cfa aux d).imgLimit = d.length + 24 := by
    show min _ _ = _
    simp [atFrame, hl]
  have av : (atFrame type cfa aux d).imgAvail = d.length + 24 := hl
  have r : ∀ o n, streamRead o n (atFrame type cfa aux d) = (none, atFrame type cfa aux d) := fun o n => rfl
  have o0 : (atFrame type cfa aux d).img.off = 0 := rfl
  have i0 : (atFrame type cfa aux d).img.index = 0 := rfl
  have f8 : leAt g 8 4 = d.length := leNat_leBytes4 _ h
  have f4 : leAt g 4 4 = cfa := leNat_leBytes4 _ hc
  have f12 : leAt g 12 4 = aux := leNat_leBytes4 _ ha
  have f0 : leAt g 0 1 = type := by
    show (BitVec.ofNat 8 type).toNat + 256 * 0 = type
    rw [BitVec.toNat_ofNat]; omega
  unfold nextFrame
  simp only [o0, lim, av, r, b16, f8, Nat.zero_add]
  rw [if_neg (by omega), if_neg (by omega), if_neg (by omega), if_neg (by omega), b20]
  rw [show (g ++ d ++ leBytes 4 (crc32 (g ++ d)).toNat).take (16 + d.length) = g ++ d from List.take_left' n16]
  have cc : leAt (g ++ d ++ leBytes 4 (crc32 (g ++ d)).toNat) (16 + d.length) 4 = (crc32 (g ++ d)).toNat := by
    show leNat (List.take 4 (List.drop (16 + d.length) _)) = _
    rw [show List.drop (16 + d.length) (g ++ d ++ leBytes 4 (crc32 (g ++ d)).toNat) = leBytes 4 (crc32 (g ++ d)).toNat from
      List.drop_left' n16]
    exact leNat_leBytes4 _ (crc32 (g ++ d)).isLt
  have ds : slice (g ++ d ++ leBytes 4 (crc32 (g ++ d)).toNat) 16 d.length = d := by
    show List.take d.length (List.drop 16 _) = d
    rw [List.append_assoc, show List.drop 16 (g ++ (d ++ leBytes 4 (crc32 (g ++ d)).toNat)) = d ++ leBytes 4 (crc32 (g ++ d)).toNat from
      List.drop_left' hd]
    exact List.take_left' rfl
  rw [cc, if_neg (by simp [wd]), ds, f0, f4, f12, i0]

/-- What a frame of gallery 0 meets: it names a unit that is present, keeps the rules of its type, or breaks one. -/
theorem wit_frames_loaded : let f := fun (type cfa len aux : Nat) => ({ type := type, cfa := cfa, len := len, aux := aux, data := [], off := 0, idx := 0 } : Fr)
    let s := atFrame 6 0 0 []
    frameAbsent s.variant (f 1 0 512 0) = false ∧ frameAbsent .pt0800e (f 3 0x100F0000 512 0) = true ∧ frameOk (f 1 0x3F07 512 0) s = true ∧
      frameOk (f 2 0x3F0B 512 0) s = true ∧ frameOk (f 3 0x10000007 512 0) s = true ∧ frameOk (f 4 0x20000000 512 0) s = false ∧
      frameOk (f 8 0x30000307 512 0) s = true ∧ frameOk (f 9 0x400F0001 512 0) s = true ∧ frameOk (f 6 0x20000000 65536 0) s = true ∧
      frameOk (f 6 0x20000000 65552 0) s = false ∧ frameSection 0x0D = none ∧ s.hasFrame 0x20000000 = true ∧
      ((s.gal 0).desc (cfaCtx 0x3F07)).defined = true ∧ tableOk [1, 0, 0, 0, 0xFF, 3, 0, 0] = true ∧ tableOk [] = false := by
  refine ⟨?_, ?_, ?_, ?_, ?_, ?_, ?_, ?_, ?_, ?_, ?_, ?_, ?_, ?_, ?_⟩ <;> decide +kernel
/-- An image of no gallery with no frame at all is complete. -/
theorem wit_end : ({ atFrame 0x0F 0 0 (List.replicate 16 0) with img := { (atFrame 0x0F 0 0 (List.replicate 16 0)).img with
    galMask := 0, loaded := [] } } : State).imageComplete = true ∧ (atFrame 0x0F 0 0 (List.replicate 16 0)).img.digest = none := by
  refine ⟨?_, ?_⟩ <;> decide +kernel

/-- A device in the start-up steps with `k` of them done, all at their places, and the hold point `hold`. -/
def starting (k hold : Nat) (strap : BitVec 4) : State := { user with
  board := { Board.reset with straps := strap }, kin := { Kindle.reset with phase := 7, steps := k, journalOk := true }
  img := { Image.reset with stepPos := [0, 1, 2, 3], stepDelay := [0, 0, 0, 0], hold := hold } }
/-- The same at its hold point, at this tick and with this entry tick. -/
def holding (t : Nat) (pull : Bool) (e : Option Tick) : State := { starting 4 4 2 with
  clk := { user.clk with tick := BitVec.ofNat 64 t }, kin := { (starting 4 4 2).kin with phase := 8, pullDown := pull, entry := e } }

theorem test_lock_wait : (go .lockWait { starting 0 4 0 with clk := { user.clk with aligned := true } }).kin.steps = 1 := by decide +kernel
theorem test_lock_limit : (go .lockLimitExpiry { starting 0 4 0 with board := { Board.reset with rv := 0 } }).kin.warnings = 1 := by decide +kernel
theorem test_output_release : (go .outputRelease (starting 1 4 0)).kin.outputs = true := by decide +kernel
theorem test_gsr_release : ((go .gsrRelease (starting 2 4 0)).gal 15).seq.st = .issuing ∧ (go .gsrRelease (starting 2 4 0)).kin.gsr = false := by
  decide +kernel
/-- The last step of a board that does not share the hold point opens user mode. -/
theorem test_write_enable : (go .writeEnable (starting 3 0 0)).user = true ∧ (go .writeEnable (starting 3 4 2)).kin.phase = 8 := by decide +kernel
theorem test_kindled_release : (go .kindledRelease (holding 8192 true none)).kin.pullDown = false ∧
    (go .kindledRelease (holding 8193 true none)).kin.pullDown = true := by decide +kernel
/-- Seen high 2,048 ticks after the edge: late, with the entry 8,192 after the edge. -/
theorem test_kindled_high : (go .kindledHigh (holding 6144 false none)).kin.entry = some 12288 ∧
    (go .kindledHigh (holding 6144 false none)).kin.warnings = 4 ∧ (go .kindledHigh (holding 6143 false none)).kin.warnings = 0 := by decide +kernel
theorem test_kindle_entry : (go .kindleEntry (holding 12288 false (some 12288))).user = true ∧
    (go .kindleEntry (holding 12287 false (some 12288))).user = false := by decide +kernel
theorem test_hold_time : (go .holdTimeout (holding 5000 true none)).kin.code = 0x51 ∧
    (go .holdTimeout { holding 5000 true none with params := row 0x22 0x80000005 }).kin.entry = some 16384 := by decide +kernel
theorem wit_start_up : (∀ i < 4, (starting i 4 0).clocked = true ∧ (starting i 4 0).kin.phase = 7 ∧ (starting i 4 0).kin.steps < 4 ∧
      (starting i 4 0).img.stepPos.getD i 4 = (starting i 4 0).kin.steps) ∧ (starting 3 4 2).board.straps.getLsbD 1 = true ∧
    (starting 3 4 0).board.straps.getLsbD 1 = false ∧ ({ user with board := { Board.reset with rv := 0x2000 } } : State).syncIgnored = true ∧ (starting 0 4 0).syncIgnored = false ∧
    (starting 0 4 0).img.strict = false ∧ (user.par 0x22).toNat % 2 ^ 24 = 1000 ∧ (user.par 0x22).getLsbD 31 = false ∧ (holding 0 false none).kin.phase = 8 := by
  refine ⟨?_, ?_, ?_, ?_, ?_, ?_, ?_, ?_, ?_⟩ <;> decide +kernel

/-- A host load over the lamp pair, awaited or in progress, with the command at the head. -/
def hosting (n type : Nat) (body : List Byte) : State := { asked type body with
  board := { Board.reset with rv := 0x4FFFFFFF }, kin := { Kindle.reset with phase := n, journalOk := true }
  img := { Image.reset with host := true, hostLen := if n = 11 then 0 else 300 } }

theorem test_image_begin : (go (.imageBegin .lampPair) (hosting 11 0x30 [0, 1, 0, 0])).img.hostLen = 256 ∧
    (go (.imageBegin .lampPair) (hosting 11 0x30 [0, 1, 0, 0])).kin.phase = 4 := by decide +kernel
theorem test_image_data : (go (.imageData .lampPair) (hosting 4 0x31 ([0, 0, 0, 0, 0, 0, 0, 0] ++ [7, 8]))).img.hostBytes = [7, 8] := by decide +kernel
theorem test_image_abort : (go (.imageAbort .lampPair) (hosting 11 0x32 [])).kin.code = 0x52 := by decide +kernel
theorem test_reset : (go (.reset .lampPair) (asked 3 [0, 0, 0, 0])).kin.phase = 1 ∧
    (go (.reset .lampPair) (asked 3 [1, 0, 0, 0])).kin.phase = 9 := by decide +kernel
theorem wit_host_load : (hosting 11 0x30 []).rv 7 = 4 ∧ (user.rv 7 ≠ 4) ∧ (hosting 10 0x30 []).img.host = true ∧ 4 ≤ (hosting 4 0x31 []).kin.phase ∧
    (hosting 11 0x30 []).ready (cmd 0x30 []) = true ∧ (asked 3 []).ready (cmd 3 []) = true := by
  refine ⟨?_, ?_, ?_, ?_, ?_, ?_⟩ <;> decide +kernel

/-! ## Dampers, captures, events -/

/-- `s` with domain d as given. -/
def withDom (s : State) (d : Nat) (x : Dom) : State := { s with pwr := { s.pwr with domains := tabSet Dom.reset s.pwr.domains d x } }

/-- A domain that drains at step n, sleeps when closed. -/
def drains (n : Nat) : Dom := { onDom with damper := .closing, step := n, action := 1 }

/-- A DAMPER_CLOSE body: a mask of domains and an action. -/
def closeBody (mask action : Nat) : List Byte := leBytes 4 mask ++ [BitVec.ofNat 8 action, 0, 0, 0]

theorem test_damper_close : ((go (.damperClose .lampPair) (asked 0x40 (closeBody 1 1))).dom 0).step = 2 ∧
    (go (.damperClose .lampPair) (asked 0x40 (closeBody 1 1))).lamp.dampers.map (·.left) = [1] := by decide +kernel
/-- The Tinder domain cannot sleep: RANGE, and nothing starts. -/
theorem test_damper_close_tinder : (go (.damperClose .lampPair) (asked 0x40 (closeBody 0x1000001 1))).lamp.dampers = [] ∧
    (go (.damperClose .lampPair) (asked 0x40 (closeBody 0x1000001 1))).lamp.sent.map (fun m => byteAt m 8) = [9] := by decide +kernel
theorem test_damper_damped : ((go (.damperSequencerDamped 0) (withDom (withGal user 0 { Gallery.reset with seq := { idleSeq with damped := true } }) 0 (drains 2))).dom 0).step =
    3 := by decide +kernel
theorem test_damper_drained : ((go (.damperDrained 0) (withDom (withGal user 0 { Gallery.reset with seq := { idleSeq with damped := true } }) 0 (drains 3))).dom 0).damper =
    .closed := by decide +kernel
theorem test_drain_limit : ((go (.drainLimitExpiry 15) (withDom user 15 (drains 3))).dom 15).damper = .forced ∧
    (go (.drainLimitExpiry 15) (withDom user 15 (drains 3))).isDead 15 = true := by decide +kernel
theorem test_port_pair : ((go (.portPairDrained 7) (withDom user 23 (drains 2))).dom 23).moving = true := by decide +kernel
theorem test_port_drain : (go (.portDrainExpiry 7) (withDom user 23 (drains 2))).isDead 31 = true := by decide +kernel
theorem test_power_down : ((go (.powerDownComplete 0) (withDom user 0 { onDom with damper := .closed, step := 5, action := 1, moving := true })).dom 0).st =
    .sleep := by decide +kernel
theorem test_damper_open : ((go (.damperOpen .lampPair) (withDom (asked 0x41 (leBytes 4 1)) 0 { onDom with st := .sleep })).dom 0).waking = true := by
  decide +kernel
theorem test_rekindle : ((go (.rekindleDone 0) (withDom user 0 { Dom.reset with rekindling := true })).dom 0).rekindling = false := by decide +kernel
theorem test_tinder_reload : ((go .tinderReloadDone (withDom user 24 { Dom.reset with rekindling := true })).dom 24).st = .on := by decide +kernel
theorem wit_dampers : (List.range 25).filter (fun k => (leAt (closeBody 0x1000001 1) 0 4).testBit k) = [0, 24] ∧
    Variant.pt0800e.hasDom 24 = false ∧ user.lamp.dampers = [] ∧ (withDom user 0 { onDom with moving := true }).clocked = true ∧
    (withGal user 0 { Gallery.reset with seq := { idleSeq with damped := true } }).galDrained 0 = true ∧
    (withGal user 0 { Gallery.reset with egress := row 3 [[none]] }).galDrained 0 = false ∧ (user.dom 24).damper = .openD ∧ State.reset.variant.hasPort 15 = true := by
  refine ⟨?_, ?_, ?_, ?_, ?_, ?_, ?_, ?_⟩ <;> decide +kernel
theorem wit_opens : (withDom user 0 { Dom.reset with rekindling := true }).clocked = true ∧
    ((withDom user 0 { Dom.reset with rekindling := true }).dom 0).rekindling = true ∧ user.img.host = false ∧
    ¬ ((16 * user.tripLevel : Nat) : Int) ≤ user.pwr.tj.toInt ∧ (State.reset.dom 16).st = .off ∧
    readItems (rekindleItems user 0 (walkHeads user user.img.index user.img.framesOff)) user = (0, user) := by
  refine ⟨?_, ?_, ?_, ?_, ?_, ?_⟩ <;> decide +kernel

/-- A MEM body: gallery, address, length. -/
def memBody (g a n : Nat) : List Byte := [BitVec.ofNat 8 g, 0, 0, 0] ++ leBytes 4 a ++ leBytes 4 n
theorem test_mem_fill : memRead ((go (.memFill .lampPair) (asked 0x45 (memBody 15 0x1FFFF0 16 ++ [0, 0, 0, 0] ++ List.replicate 16 3))).gal 15).mem 0x1FFFEF 3 =
    [0, 3, 3] := by decide +kernel
theorem test_mem_read : (go (.memRead .lampPair) (asked 0x46 (memBody 15 0x1FFFF0 528))).mesh.ready.map (fun p => [p.cmd, p.dx, p.dy, p.addr, p.len]) =
    [[1, 4, 3, 0x1FFFF0, 16], [1, 4, 3, 0x2001F0, 1]] := by decide +kernel
theorem test_mem_write : (go (.memWrite .lampPair) (asked 0x47 ([15, 0, 0, 0] ++ leBytes 4 16 ++ List.replicate 16 7))).mesh.ready.map
    (fun p => [p.cmd, p.addr, p.len]) = [[0, 16, 1]] := by decide +kernel
theorem wit_mem : (0x1FFFF0 + 16 ≤ 0x200000 ∧ 16 % 16 = 0) ∧ leAt (memBody 15 0x1FFFF0 1024) 8 4 = 1024 ∧ (user.dom 15).st = .on ∧ user.halted 15 = false ∧
    Variant.pt0800e.hasGal 15 = false ∧ ({ user with capt := { Capture.reset with st := 2, perGal := row 15 { CaptGal.reset with st := 2 } } } : State).halted 15 = true := by
  refine ⟨by decide, ?_, ?_, ?_, ?_, ?_⟩ <;> decide +kernel

/-- A CAPT_ARM body: kind, galleries, tick. -/
def armBody (kind mask tick : Nat) : List Byte := [BitVec.ofNat 8 kind, 0] ++ leBytes 2 mask ++ leBytes 8 tick
theorem test_capt_arm : (go (.captArm .lampPair) (asked 0x50 (armBody 1 0x8000 1))).capt.armTick = 1 ∧
    (go (.captArm .lampPair) (asked 0x50 (armBody 1 0x8000 0))).capt.st = 0 := by decide +kernel
/-- A capture that is armed for gallery 15. -/
def armed (kind : Nat) : State := { user with capt := { Capture.reset with st := 1, kind := kind, gals := 0x8000 } }
theorem test_capture : (go .captureTaken (armed 1)).halted 15 = true ∧ (go .captureTaken (armed 0)).halted 15 = false ∧
    (go .captureTaken (armed 0)).capt.st = 2 := by decide +kernel
theorem test_capt_release : (go (.captRelease .lampPair) { asked 0x51 [] with capt := (go .captureTaken (armed 1)).capt }).capt = Capture.reset := by
  decide +kernel
theorem test_capt_read : (go (.captRead .lampPair) { asked 0x52 ([0, 0xFF, 0, 0] ++ leBytes 4 0 ++ leBytes 4 16) with
    capt := (go .captureTaken (armed 1)).capt }).lamp.sent.map (fun m => (byteAt m 8, m.length)) = [(0, 28)] := by decide +kernel
theorem test_tnd_capture : (go .tndCaptureArm { user with tnd := { Tinder.reset with captDue := some 100 } }).capt.armTick = 116 := by decide +kernel
theorem test_trigger_line : (go (.triggerLineRx 7 true) user).parN 0x3617 = 1 ∧ (go (.triggerLineRx 7 true) user).tnd.lines = 0x80 := by decide +kernel
theorem wit_captures : user.clk.tick.toNat < leAt (armBody 1 0x8000 1) 4 8 ∧ leAt (armBody 1 0x8000 1) 2 2 = 0x8000 ∧ (armed 0).capt.st = 1 ∧
    (go .captureTaken (armed 1)).capt.st = 2 ∧ sectionSize 0x30 ≠ none ∧ sectionSize 0x20 ≠ none := by
  refine ⟨?_, ?_, ?_, ?_, ?_, ?_⟩ <;> decide +kernel

/-- A pending raise of event 0x20 (class as Table 19.3) with two merged. -/
def latch (e : Nat) (t : Tick) : Latch := { event := e, tick := t, data := [1], merged := 2 }
/-- Two raises are taken in the order of their ticks; each counts the raises merged into it. -/
theorem test_event_take : (go .eventTake { user with evt := { Events.reset with latches := [latch 0x21 9, latch 0x20 8] } }).evt.queue.map (·.event) = [0x20, 0x21] ∧
    (go .eventTake { user with evt := { Events.reset with latches := [latch 0x21 9, latch 0x20 8] } }).parN 0x3C20 = 3 := by decide +kernel
theorem test_report : (go .reportSend { user with evt := { Events.reset with queue := [{ event := 0x21, tick := 5, data := [7] }] } }).lamp.sent.map
    (fun m => (m.take 4, slice m 12 1, slice m 16 8, m.drop 24)) = [([1, 2, 0x80, 0], [0x21], leBytes 8 5, [7, 0, 0, 0])] := by decide +kernel
theorem wit_events : (List.replicate 128 ({ event := 0x21, tick := 5, data := [] } : Report)).length = 128 ∧ user.lamp.owner = some .lampPair ∧
    State.reset.lamp.owner = none ∧ State.reset.user = false ∧ State.reset.banked = false ∧
    (({ user with params := row 0x3B21 1 } : State).par 0x3B21).getLsbD 0 = true ∧ (eventClass 0x21).getD 0 ≠ 3 ∧ user.lamp.pairOn = true := by
  refine ⟨?_, ?_, ?_, ?_, ?_, ?_, ?_, ?_⟩ <;> decide +kernel

/-! ## PCI Express -/

/-- `user` with the link up at x8, bus mastering and MSI-X enabled, and vector 1 unmasked. -/
def pci : State := { user with pcie := { Pcie.reset with
  started := true, linkUp := true, width := 8, gen := 5
  config := [(1, 6), (0x14, 0x80000000)], msixTable := [(3, 1), (7, 1)] } }

/-- `pci` with a ring of 64 KiB at 0x10000, and its producer offset kept at 0x8000. -/
def ringed : State := { pci with
  params := [(0x201, 0x10000), (0x203, 16), (0x204, 0x8000)], pcie := { pci.pcie with ringArmed := true } }

/-- The first dword of a command slot and the last of slot 3; a busy slot keeps its bytes. -/
theorem test_slot_write : (tabGet [] (go (.cmdSlotWrite 3 2044 [1, 2, 3, 4]) pci).pcie.slots 3).drop 2043 = [0, 1, 2, 3, 4] ∧
    go (.cmdSlotWrite 3 2044 [1, 2, 3, 4]) { pci with pcie := { pci.pcie with busy := 8 } } = { pci with pcie := { pci.pcie with busy := 8 } } := by
  decide +kernel
/-- Bits 1:0 name the slot, bits 27:16 the length (Table 16.2). -/
theorem test_doorbell : (go (.cmdDoorbell 0x000C0002) pci).pcie.queue = [(2, 12)] ∧ (go (.cmdDoorbell 0x08010000) pci).pcie.dbErrors = 1 := by decide +kernel
theorem test_rsp_ack : (go .rspAck { pci with pcie := { pci.pcie with direct := some [1], waiting := [[2]] } }).pcie.direct = some [2] ∧
    (go .rspAck { pci with pcie := { pci.pcie with direct := some [1], waiting := [[2]] } }).pcie.msix = [1] := by decide +kernel
theorem test_ring_doorbell : (go (.ringDoorbell 64) { ringed with pcie := { ringed.pcie with prod := 128 } }).pcie.cons = 64 ∧
    (go (.ringDoorbell 192) { ringed with pcie := { ringed.pcie with prod := 128 } }).pcie.dbErrors = 1 := by decide +kernel
theorem test_slot_copy : (go .slotCopy { pci with pcie := { pci.pcie with busy := 1, queue := [(0, 12)], slots := row 0 (message 1 []) } }).lamp.inbox.map
    (fun c => (c.via, c.type, c.tag)) = [(.pcie, 1, 7)] := by decide +kernel
/-- INV_PART of PT1600 above the vendor; a write of the command register keeps its writable bits. -/
theorem test_config_request : (go (.pcieConfigRequest false 0 0) pci).pcie.complete = [(0, leBytes 4 (cfgRead pci 0))] ∧
    (go (.pcieConfigRequest true 1 0xFFFFFFFF) pci).cfgReg 1 = 0x546 := by
  refine ⟨rfl, ?_⟩; decide +kernel
theorem test_ring_arm : (go (.ringArm 1) { pci with params := [(0x201, 0x10000), (0x203, 16)] }).pcie.ringArmed = true ∧
    (go (.ringArm 1) { pci with params := [(0x201, 0x18000), (0x203, 16)] }).lamp.entryStatus = 9 := by decide +kernel
/-- A record that would pass the end of the ring: a filler record first, then the record at the ring's start. -/
theorem test_ring_wraps : ringPut [9] { ringed with pcie := { ringed.pcie with prod := 0xFFC0 + 0x40 - 64 } } =
    signalRing { ringed with pcie := { ringed.pcie with prod := 0, hostWrites := [(0x8000, leBytes 8 0), (0x1FFC0, padTo 64 [1, 0, 0, 0, 9])] } } ∧
    (ringPut (List.replicate 61 9) { ringed with pcie := { ringed.pcie with prod := 0xFFC0 } }).pcie.hostWrites.map (fun w => (w.1, w.2.length)) =
      [(0x8000, 8), (0x10000, 128), (0x1FFC0, 64)] := by
  refine ⟨?_, ?_⟩ <;> decide +kernel
theorem test_holdoff : (go .msixHoldoffExpiry { pci with pcie := { pci.pcie with unsignalled := true } }).pcie.msix = [0] := by decide +kernel
theorem test_pcie_reset : (go .pcieReset ringed).pcie.ringArmed = false ∧ (go .pcieReset { ringed with lamp := { ringed.lamp with owner := some .pcie } }).lamp.owner = none := by
  decide +kernel
theorem test_pcie_link_down : (go .pcieLinkDown pci).evt.latches.map (fun l => (l.event, l.data)) = [(0x18, [0, 0, 0])] ∧ (go .pcieLinkDown pci).pcie.linkUp = false := by
  decide +kernel
theorem test_link_up : (go (.pcieLinkUp 8 5) { pci with pcie := { pci.pcie with linkUp := false } }).pcie.width = 8 ∧
    (go (.pcieLinkUp 9 5) { pci with pcie := { pci.pcie with linkUp := false } }).pcie.linkUp = false := by decide +kernel
theorem wit_slots : (pci.clocked = true ∧ pci.pcie.linkUp = true) ∧ pci.pcie.busy.getLsbD 3 = false ∧ (4 : Nat) % 4 = 0 ∧ user.pcie.linkUp = false ∧
    (let v : Word := 0x88000003; v.getLsbD 31 = true ∧ v.toNat / 2 ^ 16 % 2 ^ 12 = 2048) ∧
    (let v : Word := 0x80000000; v.getLsbD 31 = true ∧ v.toNat / 2 ^ 16 % 2 ^ 12 = 0) := by
  refine ⟨?_, ?_, ?_, ?_, ?_, ?_⟩ <;> decide +kernel
theorem wit_responses : (pci.busMaster = true ∧ pci.msixOn = true ∧ pci.vectorMasked 1 = false ∧ pci.d3hot = false) ∧ pci.vectorMasked 2 = true ∧
    (({ pci with pcie := { pci.pcie with waiting := [[1]] } } : State).pcie.armRsp = none) ∧ ringed.ringRoom [1] = true ∧
    ({ ringed with pcie := { ringed.pcie with prod := 0xFFC0, cons := 0x8000 } } : State).ringRoom (List.replicate 60 0) = true ∧ 
    pci.pcie.held = [] ∧ 2 ^ ((ringed.par 0x203).toNat % 32) < 0xFFC0 + (padTo 64 ([61, 0, 0, 0] ++ List.replicate 61 9)).length := by
  refine ⟨?_, ?_, ?_, ?_, ?_, ?_, ?_⟩ <;> decide +kernel

/-! ### BAR2 and upstream traffic -/

/-- The BAR2 offset of stream memory address `a` of the gallery at mesh place (x, y) (Table 16.3). -/
def bar2At (x y a : Nat) : Nat := x * 2 ^ 29 + y * 2 ^ 26 + a

theorem test_bar2_write : (go (.bar2Write (bar2At 4 3 0x1FFFF0) (List.replicate 16 5) true) pci).mesh.ready.map
    (fun p => ((p.sx, p.sy), (p.dx, p.dy), p.cmd, p.addr, p.len, p.half)) = [((1, 4), (4, 3), 0, 0x1FFFF0, 1, true)] ∧
    (go (.bar2Write (bar2At 4 3 8) (List.replicate 16 5) true) pci).parN 0x208 = 1 := by decide +kernel
/-- 513 bytes from 15 on span 33 beats: one read of 512 bytes and one of 16. -/
theorem test_bar2_read : (go (.bar2Read (bar2At 4 3 15) 513 6) pci).mesh.ready.map (fun p => (p.cmd, p.addr, p.len, p.half)) =
    [(1, 0, 16, false), (1, 512, 1, true)] := by decide +kernel
/-- Tag 6 asked for two bytes from 15 on: the last of the first beat and the first of the second. -/
def answeredRead (failed : Option Nat) : State := { pci with pcie := { pci.pcie with
  bulk := [{ tag := 6, first := 15, len := 2, parts := [(0, List.replicate 15 0 ++ [7, 8] ++ List.replicate 15 0)], waiting := 0, failed := failed }] } }
theorem test_bar2_complete : (go (.bar2ReadComplete 6) (answeredRead none)).pcie.complete = [(6, [7, 8])] ∧
    (go (.bar2ReadComplete 6) (answeredRead (some 0x24))).evt.latches.map (fun l => (l.event, l.data)) =
      [(0x19, [0x24, 0, 0, 0] ++ leBytes 8 15)] := by decide +kernel
/-- Window 2 of 2^16 bytes at 0x40000000. -/
def windowed (p : Packet) : State := { flying pci [p] with params := [(0x218, 0x40000000), (0x21A, 16)] }
def atPcie (cmd addr : Nat) : Packet := { packet 15 cmd with dx := 1, dy := 4, addr := addr, data := List.replicate 32 5, valid := BitVec.allOnes 128 }
theorem test_upstream_write : (go (.upstreamWrite 0) (windowed (atPcie 0 (2 * 2 ^ 44 + 0xFFE0)))).pcie.hostWrites = [(0x4000FFE0, List.replicate 32 5)] ∧
    (go (.upstreamWrite 0) (windowed (atPcie 0 (2 * 2 ^ 44 + 0xFFF0)))).parN 0x209 = 1 := by decide +kernel
theorem test_upstream_msix : (go (.upstreamMsix 0) (flying { pci with pcie := { pci.pcie with msixTable := row 15 1 } } [{ atPcie 3 0 with code := 1 }])).pcie.msix = [3] := by
  decide +kernel
theorem wit_bulk : pci.user = true ∧ pci.d3hot = false ∧ bar2At 4 3 0x1FFFF0 / 2 ^ 21 % 16 = 0 ∧ bar2At 4 3 (2 ^ 21) / 2 ^ 21 % 16 = 1 ∧
    (0 + (15 + 513 + (16 - (15 + 513) % 16) % 16 + 511) / 512 ≤ 64) ∧ (pci.mesh.trans.filter (fun t => decide (t.node = 25 ∧ t.port = 0))) = [] ∧
    (answeredRead none).pcie.bulk.find? (fun y => decide (y.tag = 6)) ≠ none ∧
    ({ pci with pcie := { pci.pcie with config := row 0x11 3 } } : State).d3hot = true := by
  refine ⟨?_, ?_, ?_, ?_, ?_, ?_, ?_, ?_⟩ <;> decide +kernel
theorem wit_upstream : (windowed (atPcie 0 (2 * 2 ^ 44 + 0xFFE0))).Arrives 0
      { pkt := atPcie 0 (2 * 2 ^ 44 + 0xFFE0), since := 0, late := false } .pcie ∧
    (let t := windowed (atPcie 0 (2 * 2 ^ 44 + 0xFFE0))
     (t.par (0x212 + 4 * 2)).toNat % 64 = 16 ∧ 0xFFE0 + byteCount (atPcie 0 0) ≤ 2 ^ 16 ∧ t.busMaster = true ∧ t.pcie.linkUp = true) ∧
    (flying pci [atPcie 3 0]).Arrives 0 { pkt := atPcie 3 0, since := 0, late := false } .pcie := by
  refine ⟨⟨?_, ?_, ?_, ?_, ?_, ?_, ?_, ?_⟩, ⟨?_, ?_, ?_, ?_⟩, ⟨?_, ?_, ?_, ?_, ?_, ?_, ?_, ?_⟩⟩ <;> decide +kernel

/-! ## Sweep and assay -/

/-- A sweep at the only entry of its golden table, with the CRC kept for it. -/
def sweeping (cfa : Nat) (gcrc kept : Word) : State := { user with
  img := { user.img with golden := [{ cfa := cfa, gcrc := gcrc, frameOff := 0, mapOff := 0 }] }
  sweep := { user.sweep with running := true, crcs := [(cfaNorm cfa, kept)] } }

/-- T_eff is the greater of the interval and the length of the table (R381): 10 ms of core cycles at reset. -/
theorem test_pass_start : (go .sweepPassStart { sweeping 0x400F0000 0 0 with sweep := user.sweep }).sweep.running = true ∧
    (go .sweepPassStart { sweeping 0x400F0000 0 0 with sweep := user.sweep }).sweep.teff = 10000000 := by decide +kernel
theorem test_vote_failure : (go .sweepVoteFailure (sweeping 0x400F0000 0 0)).evt.latches.map (fun l => (l.event, l.data)) = [(0xE2, [1])] ∧
    (go .sweepVoteFailure (sweeping 0x400F0000 0 0)).sweep.restarting = true := by decide +kernel
theorem test_heartbeat : (go .sweepHeartbeatTimeout (sweeping 0x400F0000 0 0)).parN 0x3A05 = 1 ∧
    (go .sweepRestartDone (go .sweepHeartbeatTimeout (sweeping 0x400F0000 0 0))).sweep.restarting = false := by decide +kernel
/-- Two differing bits in the configuration of port 15: essential, without a gallery's policy; and a pass that ends. -/
theorem test_entry_port : (go (.sweepEntryDue [0, 4095] []) (sweeping 0x400F0000 0 0)).evt.latches.map (fun l => (l.event, l.data)) =
    [(0xE0, [0, 0, 0x0F, 0x40, 2, 0, 0])] ∧ (go (.sweepEntryDue [] []) (sweeping 0x400F0000 0 0)).parN 0x3A04 = 1 ∧
    (go (.sweepEntryDue [] []) (sweeping 0x400F0000 0 0)).sweep.index = 1 := by
  refine ⟨?_, ?_, ?_⟩ <;> decide +kernel
/-- The repair of an essential difference under the grant: policy 1 resets the gallery. -/
def repairing (used : Bool) : State := { withGal (sweeping 0xF3F0B 0 0) 15 { Gallery.reset with portBusy := some (.sweep 0), planeCfg := [] } with
  params := row (galP 15 0x30) 1, sweep := { (sweeping 0xF3F0B 0 0).sweep with repair := some (0, 3, true, used) } }
theorem test_repair : (go .sweepRepairWrite (repairing true)).parN (galP 15 0x33) = 1 ∧ (go .sweepRepairWrite (repairing false)).parN (galP 15 0x33) = 0 ∧
    (go .sweepRepairWrite (repairing false)).parN (galP 15 0x31) = 1 := by
  refine ⟨?_, ?_, ?_⟩ <;> decide +kernel

theorem not_self (x : Word) : x ≠ ~~~x := by
  intro h
  have := congrArg (·.getLsbD 0) h
  simp at this

/-- The data of a place and its golden copy; the CRCs are named, not computed. -/
def place : List Byte := (sweeping 0xF3F0B 0 0).placeData { cfa := 0xF3F0B, gcrc := 0, frameOff := 0, mapOff := 0 }
def copy : List Byte := (sweeping 0xF3F0B 0 0).goldenData { cfa := 0xF3F0B, gcrc := 0, frameOff := 0, mapOff := 0 }
theorem kept_crc (c k : Word) (e : Golden) (h : e.cfa = 0xF3F0B) : (sweeping 0xF3F0B c k).goldenCrc e = k := by
  simp [State.goldenCrc, sweeping, user, State.reset, Sweep.reset, h]
theorem place_same (c k : Word) : (sweeping 0xF3F0B c k).placeData { cfa := 0xF3F0B, gcrc := c, frameOff := 0, mapOff := 0 } = place := by
  have h : cfaKind 0xF3F0B = 0 := by decide
  simp only [place, State.placeData, h]; rfl
theorem copy_same (c k : Word) : (sweeping 0xF3F0B c k).goldenData { cfa := 0xF3F0B, gcrc := c, frameOff := 0, mapOff := 0 } = copy := by
  simp only [copy, State.goldenData]; rfl
/-- A sweep is busy; an entry whose CRC matches, and one whose CRC differs, with a sound and with a damaged golden copy. -/
theorem wit_sweep : (let s := sweeping 0xF3F0B 0 0
    (s.clocked = true ∧ s.user = true ∧ s.sweep.running = true ∧ s.sweep.restarting = false ∧ s.sweep.repair = none) ∧ s.galOn 15 = true ∧
      ((s.gal 15).fillingOf 63).isSome = false ∧ s.img.host = false ∧ s.flashBad 16 512 = false ∧ s.sweep.unguarded = [] ∧ s.sweep.shadows = []) ∧
    (∀ s e, s = sweeping 0xF3F0B 0 (crc32 place) → e = { cfa := 0xF3F0B, gcrc := 0, frameOff := 0, mapOff := 0 } →
      crc32 (s.placeData e) = s.goldenCrc e) ∧
    (∀ s e, s = sweeping 0xF3F0B (crc32 copy) (~~~crc32 place) →
      e = { cfa := 0xF3F0B, gcrc := crc32 copy, frameOff := 0, mapOff := 0 } →
      crc32 (s.placeData e) ≠ s.goldenCrc e ∧ crc32 (s.goldenData e) = e.gcrc ∧ s.img.golden[0]? = some e) ∧
    (∀ s e, s = sweeping 0xF3F0B (~~~crc32 copy) (~~~crc32 place) →
      e = { cfa := 0xF3F0B, gcrc := ~~~crc32 copy, frameOff := 0, mapOff := 0 } →
      crc32 (s.placeData e) ≠ s.goldenCrc e ∧ crc32 (s.goldenData e) ≠ e.gcrc) := by
  refine ⟨?_, ?_, ?_, ?_⟩
  · refine ⟨⟨?_, ?_, ?_, ?_, ?_⟩, ?_, ?_, ?_, ?_, ?_, ?_⟩ <;> decide +kernel
  · rintro s e rfl rfl; rw [place_same, kept_crc _ _ _ rfl]
  · rintro s e rfl rfl; rw [place_same, copy_same, kept_crc _ _ _ rfl]; exact ⟨not_self _, rfl, rfl⟩
  · rintro s e rfl rfl; rw [place_same, copy_same, kept_crc _ _ _ rfl]; exact ⟨not_self _, not_self _⟩

/-- The skips: unguarded, past what a host-loaded image stores, absent or off places; the repair's guards. -/
theorem wit_sweep_skips : ({ user with img := { user.img with host := true } } : State).img.host = true ∧ State.reset.galOn 15 = false ∧
    State.reset.tndOn = false ∧ (State.reset.dom 23).st = .off ∧ user.tndOn = true ∧ (user.dom 23).st = .on ∧ cfaGal 0x400F0000 = 15 ∧
    (repairing true).sweepHolds (cfaPort 0xF3F0B) = true ∧ (sweeping 0 0 0).sweepHolds 0 = false ∧
    ((repairing true).par (galP 15 0x30)).toNat % 4 = 1 ∧ (repairing true).sweep.changed = false ∧ cfaNorm 0xF3F0B ∉ user.sweep.reported ∧
    (let x := { Gallery.reset with planes := row 0 { Plane.reset with ctx := some 63 } }; x.planeOf 63 = some 0 ∧ x.active = 0) := by
  refine ⟨?_, ?_, ?_, ?_, ?_, ?_, ?_, ?_, ?_, ?_, ?_, ?_, ?_⟩
  all_goals decide +kernel

/-! ### Assay -/

/-- Assay in a cycle, with gallery 15 as given. -/
def assaying (x : Gallery) : State := { withGal user 15 x with assay := { user.assay with inCycle := true } }
/-- Gallery 15 with hearth 127 tested so far. -/
def tested (q : HearthTest) : Gallery := { Gallery.reset with hearths := row 127 q }

theorem test_segment_start : tabGet HearthTest.reset ((go (.assaySegmentStart 15 127) (assaying Gallery.reset)).gal 15).hearths 127 =
    { HearthTest.reset with running := true } := by decide +kernel
/-- The 42nd segment of a hearth that can divide ends its test; a second mismatch excludes it. -/
theorem test_segment_done : (go (.assaySegmentDone 15 127 true) (assaying (tested { HearthTest.reset with running := true, done := 41 }))).parN 0x3A84 = 1 ∧
    (go (.assaySegmentDone 15 127 false) (assaying (tested { HearthTest.reset with running := true, retry := true }))).evt.latches.map
      (fun l => (l.event, l.data)) = [(0xE8, [15, 127, 0])] := by decide +kernel
theorem test_link_unit : (go (.assayLinkUnit 29 0 true) { assaying Gallery.reset with assay := { user.assay with inCycle := true, links := row 116 577 } }).parN 0x3A86 = 1 ∧
    (go (.assayLinkUnit 29 0 false) { assaying Gallery.reset with assay := { user.assay with inCycle := true, linkRetry := [116] } }).evt.latches.map
      (fun l => (l.event, l.data)) = [(0xEA, [29, 0])] := by decide +kernel
theorem test_assay_enable : (go (.assayEnable 0xFFFFFFFF) user).parN 0x3A80 = 0x1F ∧ (go (.assayEnable 1) user).assay.inCycle = true := by decide +kernel
theorem test_assay_disable : (go (.assayDisable 0) (assaying (tested { HearthTest.reset with running := true }))).assay.inCycle = false := by decide +kernel
/-- With every kind of unit left out of the cycle nothing is left to test: the cycle ends and the next begins. -/
def spent : State := { assaying Gallery.reset with params := row 0x3A80 0x1D, clk := { user.clk with cyc := 5000 } }
theorem wit_cycle_done : spent.unitsLeft = 0 ∧ (spent.user = true ∧ spent.assay.inCycle = true ∧ (spent.par 0x3A80).getLsbD 0 = true) := by
  decide +kernel
theorem test_cycle_done : (go .assayCycleDone spent).parN 0x3A82 = 5 ∧
    (go .assayCycleDone spent).evt.latches.map (fun l => (l.event, l.data)) = [(0xEB, [1, 0, 0, 0])] := by
  refine ⟨?_, ?_⟩ <;> decide +kernel
theorem wit_assay : (let s := assaying Gallery.reset
    s.live 15 = true ∧ (s.par 0x3A80).getLsbD 2 = false ∧ (s.par 0x3A80).getLsbD 4 = false ∧ s.galOn 15 = true ∧ s.variant.hasDiv = true ∧
      ((s.gal 15).record 0 127).op = 0 ∧ s.clocked = true ∧ 15 ∈ s.galList) ∧
    (∀ k ∈ [(6, 0), (29, 0), (0, 1), (28, 1), (0, 2), (23, 2), (1, 3), (29, 3)], (k.2 = 0 ∧ 6 ≤ k.1) ∨ (k.2 = 1 ∧ k.1 % 6 < 5) ∨
      (k.2 = 2 ∧ k.1 / 6 < 4) ∨ (k.2 = 3 ∧ 0 < k.1 % 6)) ∧ (∀ f < 128, (assaying Gallery.reset).flowOn f = false) ∧
    ((hearth 1 0 []).gal 0).record 0 24 ≠ Gallery.reset.record 0 24 := by
  refine ⟨⟨?_, ?_, ?_, ?_, ?_, ?_, ?_, ?_⟩, ?_, ?_, ?_⟩ <;> decide +kernel

/-! ## Tallies and pin faults -/

/-- `user` with port 15, and port 14, of protocol JESD204C; port 15 as given. -/
def tallied (q : Port) : State := { user with
  params := [(portP 14 0x01, 1), (portP 15 0x01, 1)], ports := row 15 q }

/-- A tally record with its CRC (Table 25.1): way `way`, maker 0x1234, type 0x5678, revision 3. -/
def tallyRec (way : Byte) : List Byte :=
  let d : List Byte := [0x54, 0x4C, 1, way, 0x34, 0x12, 0x78, 0x56, 3] ++ List.replicate 19 0
  d ++ leBytes 4 (crc32 d).toNat

/-- A binding to that maker with the type listed last, at revision `r` or above, in mode 2. -/
def bindTo (r : Byte) : List Byte := [2, 0, 0x34, 0x12, 0, 0, 0, 0, 0, 0, 0x78, 0x56, r]

/-- A port whose tally is being read. -/
def reading (cfg : List Byte) (b : Nat) : Port := { Port.reset with present := true, tallySt := 1, bindCfg := cfg, bind := b }

theorem test_tally_start : ((go (.tallyReadStart 15) (tallied { Port.reset with present := true })).port 15).tallySt = 1 ∧
    ((go (.tallyReadStart 15) { tallied { Port.reset with present := true } with ports :=
      [(14, { Port.reset with present := true }), (15, { Port.reset with present := true })] }).port 15).tallySt = 0 := by decide +kernel
theorem test_tally_retry : ((go (.tallyRetry 15) (tallied (reading [] 0))).port 15).tallyTry = 1 ∧
    ((go (.tallyRetry 15) (tallied { reading [] 0 with tallyTry := 2 })).port 15).tallyTry = 2 := by decide +kernel
/-- The record binds; at a higher revision it does not: reason 5, withheld. -/
theorem test_tally_read : ((go (.tallyReadDone 15 (.record (tallyRec 0xA5))) (tallied (reading (bindTo 3) 0))).port 15).bind = 1 ∧
    (let q := (go (.tallyReadDone 15 (.record (tallyRec 0xA5))) (tallied (reading (bindTo 4) 0))).port 15; q.bind = 2 ∧ q.reason = 5) := by
  refine ⟨?_, ?_, ?_⟩ <;> decide +kernel
/-- A module that is inserted the wrong way is withheld, whatever its binding. -/
theorem test_tally_reversed : ((go (.tallyReadDone 15 (.record (tallyRec 0x5A))) (tallied (reading [] 0))).port 15).bind = 2 ∧
    (go (.tallyReadDone 15 (.record (tallyRec 0x5A))) (tallied (reading [] 0))).evt.latches.map (fun l => (l.event, l.data)) = [(0xFC, [15])] ∧
    (go (.tallyReadDone 15 (.record (tallyRec 0x5A))) (tallied (reading [] 0))).parN (portP 15 0x32) = 0x56781234 := by
  refine ⟨?_, ?_, ?_⟩ <;> decide +kernel
theorem test_tally_reread : ((go (.tallyReread 15 1) (tallied { Port.reset with present := true, bind := 1 })).port 15).tallySt = 1 ∧
    (go (.tallyReread 15 1) (tallied (reading [] 0))).lamp.entryStatus = 10 := by decide +kernel
theorem test_presn : (go (.presnChange 15 true) (tallied Port.reset)).evt.latches.map (fun l => (l.event, l.data)) = [(0xFA, [15])] ∧
    (go (.presnChange 15 false) (tallied (reading [] 1))).evt.latches.map (fun l => (l.event, l.data)) = [(0xFB, [15])] := by decide +kernel
/-- The checks of R423 in order: a bad mark, a bad CRC, a bad version or way; a pass of each mode. -/
theorem wit_tally : (let d := tallyRec 0xA5
    byteAt d 0 = 0x54 ∧ byteAt d 1 = 0x4C ∧ crc32 ((List.range 28).map (byteAt d)) = wd ((byteAt d 28).toNat + 256 * (byteAt d 29).toNat +
      65536 * (byteAt d 30).toNat + 16777216 * (byteAt d 31).toNat) ∧ byteAt d 2 = 1 ∧ byteAt d 3 = 0xA5 ∧
      (byteAt (bindTo 3) 12).toNat ≤ (byteAt d 8).toNat ∧ ¬ (byteAt (bindTo 4) 12).toNat ≤ (byteAt d 8).toNat ∧
      (byteAt d 6 = byteAt (bindTo 3) 10 ∧ byteAt d 7 = byteAt (bindTo 3) 11) ∧ byteAt (tallyRec 0x33) 3 ≠ 0xA5 ∧ byteAt d 4 = byteAt (bindTo 3) 2) ∧
    (byteAt ([] : List Byte) 0 ≠ 0x54) ∧ (tallied Port.reset).protocol 15 = 1 ∧ user.protocol 15 = 0 ∧ user.variant.hasPort 15 = true ∧
    (byteAt (bindTo 3) 0).toNat = 2 := by
  refine ⟨⟨?_, ?_, ?_, ?_, ?_, ?_, ?_, ?_, ?_, ?_⟩, ?_, ?_, ?_, ?_, ?_⟩ <;> decide +kernel

/-- `user` after one probe of pin `key` that saw `kind`, declared `was`. -/
def probedOnce (key was kind : Nat) : State := { user with pins := { user.pins with runs := row key (1, kind), kinds := if was = 0 then [] else row key was } }

theorem test_bias_trig : (go (.pinBiasProbe (.trig 7) 1) (probedOnce 7 0 1)).evt.latches.map (fun l => (l.event, l.data)) = [(0xF0, [7, 1])] ∧
    (go (.pinBiasProbe (.trig 7) 0) (probedOnce 7 1 0)).evt.latches.map (fun l => (l.event, l.data)) = [(0xF1, [7])] := by decide +kernel
theorem test_bias_bus : (go (.pinBiasProbe (.tally 7 1) 2) (probedOnce 23 0 2)).parN (portP 15 0x3A) = 1 ∧
    (go (.pinBiasProbe (.tally 7 1) 2) (probedOnce 23 0 2)).evt.latches.map (fun l => (l.event, l.data)) = [(0xFD, [7, 1, 2])] := by decide +kernel
/-- A short to ground of a driven TRIG7 tristates its driver. -/
def driving (m : BitVec 9) : State := { user with tnd := { user.tnd with driven := m } }
theorem test_readback : (go (.driverReadbackFault (.trig 7) 2) (driving 0x80)).pins.tristated = 0x80 ∧
    (go (.driverReadbackFault (.trig 7) 2) (driving 0x7F)).pins.tristated = 0 := by decide +kernel
theorem test_readback_tx : ((go (.driverReadbackFault (.txLane 15) 3) (tallied Port.reset)).port 15).laneSt = 7 ∧
    ((go (.driverReadbackFault (.txLane 15) 3) (tallied Port.reset)).port 15).txFault = true := by decide +kernel
theorem test_reversed : (go (.timingLineReversed 1) user).pins.kinds = row 11 5 ∧ (go (.timingReversedCleared 1) { user with pins :=
    { user.pins with kinds := row 11 5 } }).pins.kinds = [] := by decide +kernel
theorem test_bus_probe : ((go (.tallyBusProbe 7 0 0) { tallied { Port.reset with present := true } with pins := { user.pins with kinds := row 23 2 } }).port 15).tallySt = 1 := by
  decide +kernel
theorem test_tx_readback : (go (.lampTxReadback 0) { user with pins := { user.pins with kinds := row 12 2 } }).pins.kinds = [] := by decide +kernel
theorem test_no_ack : (go (.presnNoAck 15) (tallied { Port.reset with present := true })).evt.latches.map (fun l => (l.event, l.data)) = [(0xFF, [15, 2])] := by
  decide +kernel
theorem wit_pins : (user.clocked = true ∧ user.pins.tristated.getLsbD 7 = false) ∧ (tabGet (0, 0) (probedOnce 7 0 1).pins.runs 7).1 ≠ 0 ∧
    tabGet 0 (probedOnce 7 1 0).pins.kinds 7 = 1 ∧ (tabGet (0, 0) user.pins.runs 48).1 = 0 ∧ (tallied Port.reset).protocol 15 ≠ 0 ∧
    (driving 0x100).tnd.driven.getLsbD 8 = true ∧ user.lamp.pairOn = true ∧ State.reset.kin.pullDown = true ∧ user.kin.outputs = true ∧
    user.tnd.driven.getLsbD 7 = false ∧ ({ Port.reset with faults := putBit 0 2 true } : Port).faults.getLsbD 2 = true := by
  refine ⟨?_, ?_, ?_, ?_, ?_, ?_, ?_, ?_, ?_, ?_, ?_⟩ <;> decide +kernel

/-! ## Clock, resets, voltage and heat -/

/-- `user` with its clock in mode `m`. -/
def clocking (m : ClockMode) : State := { user with clk := { user.clk with mode := m } }

theorem test_cold_reset : (go .coldReset user).clk.mode = .coldReset ∧ (go .coldReset user).user = false ∧ (go .coldReset user).pwr.vid = 48 := by
  decide +kernel
/-- RV_OSC (pin 0) at 0.0098 is code 0 and RV_BOOT (pin 7) between two windows is ambiguous and boots code 8 (Tables 3.9, 3.10). -/
theorem test_rise : (go (.coldRstnRise 5 0 [98, 868, 950, 10000, 10000, 10000, 10000, 951] true) State.reset).board =
    { straps := 5, rv := 0x8FFFF110, rvFlags := 0x80, valid := false } ∧
    go (.coldRstnRise 5 0 [] true) user = user := by
  refine ⟨?_, ?_⟩ <;> decide +kernel
theorem test_ref_lost : (go .refLost (driving 0x1FF)).clk.mode = .waiting ∧ (go .refLost (driving 0x1FF)).tnd.driven = 0 := by decide +kernel
theorem test_pll_unlock : (go .pllUnlock user).clk.cause = .pllUnlock ∧ (go .pllUnlock user).clk.refPresent = true := by decide +kernel
theorem test_ref_present : (go .stopWaitExpiry (go .refPresent (go .refLost user))).clk.mode = .relocking ∧
    (go .stopWaitExpiry (go .refLost user)).clk.mode = .waiting := by decide +kernel
theorem test_relock : (go .relockTimeout (clocking .relocking)).clk.mode = .waiting := by decide +kernel
theorem test_start_fail : (go (.clockStartFail true) (clocking .locking)).clk.refPresent = false ∧
    (go (.clockStartFail false) (clocking .locking)).clk.cause = .pllUnlock := by decide +kernel
/-- After a stop, kindling starts over with the cause of the reset and event 0x01 or 0x02 kept for later. -/
theorem test_pll_lock : (go (.pllLock 9) (clocking .relocking)).clk.deferred.map (fun e => (e.event, e.data)) =
    [(0, [3]), (match user.clk.cause with | .refLost => 1 | .pllUnlock => 2, [9, 0, 0, 0])] ∧
    (go (.pllLock 9) (clocking .relocking)).lamp.owner = some .lampPair ∧ (go (.pllLock 9) (clocking .locking)).kin.phase = 0 := by
  refine ⟨?_, ?_, ?_⟩ <;> decide +kernel
/-- The beacon frame of message type 0x8203 carries INV_PART, the card, the cause and the count. -/
theorem test_beacon : (go .beaconFrame { clocking .waiting with board := { Board.reset with rv := 0xF1FFFFFF } }).lamp.sent.map (fun m => (m.take 4, m.length)) =
    [([1, 3, 0x82, 0], 20)] := by decide +kernel
theorem test_brown_out : (go (.brownOut 1) user).clk.mode = .brownOut ∧ (go (.brownOut 1) user).clk.deferred.map (fun e => (e.event, e.data)) = [(7, [1])] ∧
    (go .railRecovered (go (.brownOut 1) user)).clk.mode = .locking := by decide +kernel
theorem wit_clock : State.reset.clk.mode = .coldReset ∧ user.clk.mode = .running ∧ State.reset.flash.op = none ∧
    ((clocking .waiting).clk.mode = .waiting ∧ ({ clocking .waiting with board := { Board.reset with rv := 0xF1FFFFFF } } : State).rv 6 = 1) ∧
    (user.rv 6 = 15) ∧ tabGet 0 user.pins.kinds 12 = 0 := by
  refine ⟨?_, ?_, ?_, ?_, ?_, ?_⟩ <;> decide +kernel
/-- Every class of ratio: code 0, code 15, the ends of a window, between two windows, and a reserved code. -/
theorem wit_ratios : (98 < 99 ∧ 9901 < 9902 ∧ (868 ≤ 868 ∧ 950 ≤ 950) ∧ (9332 ≤ 9392)) ∧ rvDecode 98 = some 0 ∧ rvDecode 9902 = some 15 ∧
    rvDecode 868 = some 1 ∧ rvDecode 950 = some 1 ∧ rvDecode 9392 = some 14 ∧ rvDecode 99 = none ∧ rvDecode 951 = none ∧
    rvReserved 7 5 = true ∧ rvReserved 6 14 = true ∧ (rvCapture [10000, 10000, 10000, 10000, 0, 10000, 0, 10000]).2 = 0x4000 ∧
    (rvCapture [10000, 10000, 10000, 10000, 0, 10000, 10000, 1842]).1 = 0x8FF0FFFF := by
  refine ⟨?_, ?_, ?_, ?_, ?_, ?_, ?_, ?_, ?_, ?_, ?_, ?_⟩ <;> decide +kernel

theorem test_sync : (go (.syncCapture true) { user with clk := { user.clk with armed := true } }).clk.loadIn = some 16 ∧
    (go (.syncCapture true) { user with clk := { user.clk with armed := true } }).evt.latches.map (·.event) = [5] := by decide +kernel
/-- A slip: period 100, loaded at 3, and 7 + 16 is not 3 more than a multiple of 100. -/
theorem test_slip : (go (.syncCapture false) { user with clk := { user.clk with aligned := true, tick := 7 }, params := [(0x3D03, 100), (0x3D04, 3)] }).evt.latches.map
    (fun l => (l.event, l.data)) = [(4, [7, 0, 0, 0, 0, 0, 0, 0, 1, 0, 0, 0])] := by decide +kernel
theorem test_sync_absent : (go .syncAbsent syncUsed).evt.latches.map (·.event) = [6] := by decide +kernel
/-- AVS: low margin at one gallery asks for one code more; strap 3 fixes the code. -/
theorem test_avs : (go (.avsEvaluation 0x8000 0) { user with params := row 0x101 56 }).pwr.vid = 49 ∧
    (go (.avsEvaluation 0x8000 0) { user with params := row 0x101 56, board := { Board.reset with straps := 8 } }).pwr.vid = 48 := by decide +kernel
theorem test_margin : tabGet 16 (go (.avsEvaluation 0x8000 0) { user with params := row 0x101 48 }).pwr.marginDuty 15 = 15 ∧
    (go (.avsEvaluation 0x8000 0) { user with params := row 0x101 48 }).evt.latches.map (fun l => (l.event, l.data)) =
      [(0x0C, [15, 48]), (0x0B, [49, 48])] := by
  refine ⟨?_, ?_⟩ <;> decide +kernel
/-- RV_THERM open gives 100 °C: the alert is at 90, the trip at 100; temperatures in sixteenths of a degree. -/
theorem test_alert : (go (.thermAlert 1440 16) user).evt.latches.map (fun l => (l.event, l.data)) = [(8, [0xA0, 5, 16])] ∧
    (go (.thermAlert 1439 16) user).evt.latches = [] := by decide +kernel
theorem test_trip : (go (.thermTrip 1600) user).pwr.thermSteps = [15] ∧ (go (.thermTrip 1599) user).pwr.thermSteps = [] := by decide +kernel
theorem test_gate_step : (go (.thermGateStep 1520) (go (.thermTrip 1600) user)).pwr.thermSteps = [] ∧
    (go (.thermGateStep 1521) (go (.thermTrip 1600) user)).pwr.thermSteps = [15] := by
  refine ⟨?_, ?_⟩ <;> decide +kernel
theorem test_critical : (go (.thermCritical 1840 3) user).pwr.critical = true ∧ ((go (.thermCritical 1840 3) user).dom 15).st = .off ∧
    (go (.thermCritical 1839 3) user).pwr.critical = false := by
  refine ⟨?_, ?_, ?_⟩ <;> decide +kernel
theorem wit_heat : (15 ∈ user.galList ∧ (user.dom 15).st = .on ∧ (user.dom 15).rekindling = false ∧ user.pwr.thermSteps.count 15 < 15) ∧
    (∀ k ∈ user.galList, (user.par (galP k 0x41)).toNat % 16 = 0) ∧ (∀ k, k ∉ State.reset.galList ∨ (State.reset.dom k).st ≠ .on) ∧
    State.reset.pwr.thermSteps = [] ∧ (State.reset.dom 15).st = .off ∧ user.pwr.clipCyc = none ∧ tabGet 16 user.pwr.marginDuty 15 = 16 ∧
    (armed 1).halted 15 = false ∧ (go .captureTaken (armed 1)).halted 15 = true ∧ syncUsed.syncIgnored = false := by
  refine ⟨?_, ?_, ?_, ?_, ?_, ?_, ?_, ?_, ?_, ?_⟩
  · decide +kernel
  · decide +kernel
  · intro k; exact .inr (by simp [State.dom, State.reset, Power.reset, Dom.reset, tabGet])
  all_goals decide +kernel

/-! ## Steps, the queue, reset -/

/-- The step runs the front command with the rest of the queue. -/
theorem test_front : ∃ t, step { user with pending := [.pllUnlock, .refLost] } = .next t ∧ t.pending = [.refLost] ∧ t.clk.cause = .pllUnlock := by
  refine ⟨_, rfl, ?_, ?_⟩ <;> decide +kernel
/-- An empty queue passes a core cycle, and nothing while the clock does not run (note 2, DESIGN CHOICE). -/
theorem test_empty : step State.reset = .next State.reset := rfl
theorem test_cycle : (match step user with | .next t => (t.clk.tick, t.clk.cyc, t.clk.keeperLeft) | _ => (0, 0, 0)) = (1, 1, 7) := by
  decide +kernel
/-- An alignment from tick 4 to tick 27: a step of 22, and the keeper cycle ends at tick 32 (R57, R60). -/
def aligning : State := { user with clk := { user.clk with tick := 4, loadIn := some 1, keeperLeft := 4 }, params := row 0x3D04 27 }
theorem test_align : (tickClock aligning).clk.tick = 27 ∧ (tickClock aligning).clk.aligned = true ∧ (tickClock aligning).pair 0x3D09 = 22 ∧
    (tickClock aligning).evt.latches.map (fun l => (l.event, l.data)) = [(3, leBytes 8 22)] ∧ (tickClock aligning).clk.keeperLeft = 5 := by
  refine ⟨?_, ?_, ?_, ?_, ?_⟩ <;> decide +kernel
theorem wit_queue : ({ user with pending := [.pllUnlock] } : State).pending = [.pllUnlock] ∧ user.pending = [] ∧ user.clocked = true ∧
    State.reset.clocked = false ∧ aligning.clk.loadIn = some 1 ∧ user.clk.loadIn ≠ some 1 := by
  refine ⟨?_, ?_, ?_, ?_, ?_, ?_⟩ <;> decide
/-- A rail out of range at the rise of COLD_RSTN stops the model; a state from which it does. -/
theorem test_undefined : exec (.coldRstnRise 0 0 [] false) State.reset = .fault .undefinedPowerUp := rfl
theorem wit_undefined : State.reset.clk.mode = .coldReset ∧ (∃ t, exec .coldReset State.reset = .next t) ∧
    (∃ t, step { State.reset with pending := [.coldReset] } = .next t) := ⟨rfl, ⟨_, rfl⟩, ⟨_, rfl⟩⟩
/-- The memories after reset list nothing, so their form is canonical; the same of the states these tests stand on. -/
theorem wit_canonical : State.reset.params = [] ∧ State.reset.gals = [] ∧ State.reset.flash.data = [] ∧ State.reset.tnd.cfg = [] := ⟨rfl, rfl, rfl, rfl⟩
/-- No row of the table gives bits, so no word spells a command. -/
theorem test_words : decodeTableWord 32 0 = none ∧ State.reset.withFetchWord 32 0 = State.reset := ⟨rfl, rfl⟩

/-! ## One ill-formed command for each check -/

theorem wf_gallery : (Instr.fillComplete 16).wf = false ∧ (Instr.nop 16).wf = false ∧ (Instr.add 16 0).wf = false ∧
    (Instr.bankDecision 16 0 []).wf = false ∧ (Instr.triggerEdge 16 0).wf = false ∧ (Instr.egressPacketClose 16 0).wf = false ∧
    (Instr.configPortBoundary 17).wf = false := by decide
theorem wf_hearth : (Instr.add 0 128).wf = false := by decide
theorem wf_bank : (Instr.bankDecision 0 16 []).wf = false := by decide
theorem wf_domain : (Instr.powerDownComplete 25).wf = false := by decide
theorem wf_port : (Instr.cdrLock 16).wf = false ∧ (Instr.linkDown 16 0 .signal).wf = false ∧ (Instr.linkDown 0 16 .signal).wf = false ∧
    (Instr.eqEvaluation 16 [0, 0, 0, 0, 0, 0]).wf = false ∧ (Instr.seamIdleRx 16 (List.replicate 40 0)).wf = false := by decide
theorem wf_parameter : (Instr.paramWrite 65536 0).wf = false := by decide
theorem wf_block : (Instr.seamIdleRx 0 (List.replicate 39 0)).wf = false := by decide
theorem wf_packet : (Instr.packetSend { blankPacket with dx := 8 } .none).wf = false ∧ (Instr.packetSend { blankPacket with dcard := 16 } .none).wf = false ∧
    (Instr.packetSend { blankPacket with tag := 4096 } .none).wf = false ∧ (Instr.packetSend { blankPacket with addr := 2 ^ 48 } .none).wf = false ∧
    (Instr.packetSend { blankPacket with data := List.replicate 513 0 } .none).wf = false := by
  refine ⟨?_, ?_, ?_, ?_, ?_⟩ <;> decide +kernel
theorem wf_ratios : (Instr.coldRstnRise 0 0 [0, 0, 0, 0, 0, 0, 0] true).wf = false ∧ (Instr.coldRstnRise 0 0 [0, 0, 0, 0, 0, 0, 0, 10001] true).wf = false := by decide
theorem wf_rail : (Instr.brownOut 2).wf = false := by decide
theorem wf_sensor : (Instr.thermAlert 0 17).wf = false ∧ (Instr.thermCritical 0 17).wf = false := by decide
theorem wf_pair : (Instr.portPairDrained 8).wf = false := by decide
theorem wf_slot : (Instr.cmdSlotWrite 8 0 []).wf = false ∧ (Instr.cmdSlotWrite 0 2045 [0, 0, 0, 0]).wf = false := by decide
theorem wf_bar2 : (Instr.bar2Write (2 ^ 36) [] true).wf = false ∧ (Instr.bar2Write 0 (List.replicate 513 0) true).wf = false ∧
    (Instr.bar2Read 0 0 0).wf = false ∧ (Instr.bar2Read 0 4097 0).wf = false := by
  refine ⟨?_, ?_, ?_, ?_⟩ <;> decide +kernel
theorem wf_trigger : (Instr.triggerEdge 0 20).wf = false ∧ (Instr.triggerLineRx 9 true).wf = false := by decide
theorem wf_transaction : (Instr.transactionTimeout 30 0 0).wf = false ∧ (Instr.transactionTimeout 0 2 0).wf = false ∧
    (Instr.transactionTimeout 0 0 4096).wf = false := by decide
theorem wf_edge : (Instr.egressPacketClose 0 4).wf = false := by decide
theorem wf_flow : (Instr.flowCommit 128 0).wf = false := by decide
theorem wf_eq : (Instr.eqEvaluation 0 [0]).wf = false := by decide
theorem wf_flips : (Instr.sweepEntryDue [4096] []).wf = false := by decide
theorem wf_link : (Instr.assayLinkUnit 30 0 true).wf = false ∧ (Instr.assayLinkUnit 0 4 true).wf = false := by decide
theorem wf_timing : (Instr.timingLineReversed 2).wf = false := by decide
theorem wf_bus : (Instr.tallyBusProbe 8 0 0).wf = false ∧ (Instr.tallyBusProbe 0 2 0).wf = false := by decide
theorem wf_ok : (Instr.add 15 127).wf = true ∧ (Instr.cmdSlotWrite 7 2044 [0, 0, 0, 0]).wf = true ∧ (Instr.packetSend blankPacket .none).wf = true ∧
    (Instr.seamNakRx 15 (List.replicate 40 0)).wf = true := by
  refine ⟨?_, ?_, ?_, ?_⟩ <;> decide +kernel

end Sys2Proof.Tests
end

section
/-!
PROOF of O52 (chapters 3 and 4): the resets and the stops of the clock, the latches of straps and RV codes.  A reset is
`clearedWith`, whose frame `Cleared` is proved once; the capture is read pin by pin (`rvPin`), combined (`combined`) and
packed (`packNibbles`, `maskOf`).
-/

namespace Sys2Proof.Machine

/-! ### A flash write that is cut short leaves the clock and the power state -/

@[simp] theorem putWords_clk_pwr (n w : Nat) (d : List Byte) (s : State) :
    (putWords n w d s).clk = s.clk ∧ (putWords n w d s).pwr = s.pwr := by
  induction n generalizing w d s with
  | zero => exact ⟨rfl, rfl⟩
  | succ n ih => exact ih (w + 1) (d.drop 32) (putWord w (d.take 32) s)

@[simp] theorem eraseSector_clk_pwr (sec : Nat) (s : State) :
    (eraseSector sec s).clk = s.clk ∧ (eraseSector sec s).pwr = s.pwr := by
  unfold eraseSector countErase
  dsimp only
  split <;> simp

theorem journalStep_clk_pwr (j : JournalStep) (s : State) :
    (journalStep true j s).2.clk = s.clk ∧ (journalStep true j s).2.pwr = s.pwr := by
  cases j with
  | erase sec => exact eraseSector_clk_pwr sec s
  | put sec word seq block => unfold journalStep; dsimp only; split <;> simp [recordJournal, putWord]
  | rolled sec seq => simp [journalStep]

@[simp] theorem journalSteps_clk_pwr (l : List JournalStep) (s : State) :
    (journalSteps true l s).2.clk = s.clk ∧ (journalSteps true l s).2.pwr = s.pwr := by
  induction l generalizing s with
  | nil => exact ⟨rfl, rfl⟩
  | cons j r ih =>
    have hstep := journalStep_clk_pwr j s
    rw [journalSteps]
    split
    next t ht => rw [ht] at hstep; exact ⟨(ih t).1.trans hstep.1, (ih t).2.trans hstep.2⟩
    next => exact hstep

@[simp] theorem partProgram_clk_pwr (w : Nat) (d : List Byte) (s : State) :
    (partProgram w d s).clk = s.clk ∧ (partProgram w d s).pwr = s.pwr := by
  unfold partProgram; dsimp only; split <;> exact ⟨rfl, rfl⟩

@[simp] theorem partStep_clk_pwr (j : JournalStep) (s : State) :
    (partStep j s).clk = s.clk ∧ (partStep j s).pwr = s.pwr := by
  cases j with
  | erase sec => exact ⟨rfl, rfl⟩
  | put sec word seq block => unfold partStep; dsimp only; split <;> simp
  | rolled sec seq => exact ⟨rfl, rfl⟩

/-- A reset that cuts a flash write short (R135) finds the clock and the power state as they were. -/
@[simp] theorem cutFlash_clk_pwr (s : State) : (cutFlash s).clk = s.clk ∧ (cutFlash s).pwr = s.pwr := by
  unfold cutFlash
  dsimp only
  split
  · exact ⟨rfl, rfl⟩
  · split <;> simp [State.freeBelow]
  · exact ⟨rfl, rfl⟩
  · split <;> simp [State.freeBelow]

theorem cutFlash_idle {s : State} (h : s.flash.op = none) : cutFlash s = s := by simp [cutFlash, h]

/-! ### What a reset leaves -/

/-- `t` is `s` after a reset (Table 4.6): everything at its reset value but the flash, whose write in progress is cut
short, the reference and the junction temperature; the board, the lamp, kindling and the AVS code are left to each reset. -/
def Cleared (s t : State) (mode : ClockMode) (src : Nat) (more : List Deferred) : Prop :=
  t = { State.reset with
    pending := s.pending, variant := s.variant, free := t.free, flash := t.flash, board := t.board, lamp := t.lamp, kin := t.kin
    clk := { t.clk with cyc := s.clk.cyc }, pwr := { Power.reset with tj := s.pwr.tj, vid := t.pwr.vid } } ∧
  t.clk.mode = mode ∧ t.clk.resetSrc = src ∧ t.clk.tick = 0 ∧ t.clk.aligned = false ∧ t.clk.loadIn = none ∧
  t.clk.refPresent = s.clk.refPresent ∧ t.clk.deferred = more ∧ t.clk.cyc = s.clk.cyc ∧
  t.flash = { (cutFlash s).flash with op := none, corrCyc := none } ∧
  (s.flash.op = none → t.flash = { s.flash with corrCyc := none } ∧ t.free = s.free)

/-- `clearAll` with the board, the lamp, the AVS code, the cause of a stop and the deferred events filled in. -/
def clearedWith (s : State) (mode : ClockMode) (src : Nat) (board : Board) (lamp : Lamp) (vid : Nat)
    (cause : StopCause) (more : List Deferred) : State :=
  let t := clearAll mode src s
  { t with board := board, lamp := lamp, pwr := { t.pwr with vid := vid }, clk := { t.clk with cause := cause, deferred := more } }

theorem clearedWith_cleared (s : State) (mode : ClockMode) (src : Nat) (board : Board) (lamp : Lamp) (vid : Nat)
    (cause : StopCause) (more : List Deferred) :
    Cleared s (clearedWith s mode src board lamp vid cause more) mode src more := by
  refine ⟨?_, rfl, rfl, rfl, rfl, rfl, ?_, rfl, ?_, rfl, fun hidle => ?_⟩
  · simp [clearedWith, clearAll]
  · simp [clearedWith, clearAll]
  · simp [clearedWith, clearAll]
  · simp [clearedWith, clearAll, cutFlash_idle hidle, hidle]

/-- COLD_RESET (R75): the latches too are transparent again, and AVS_VID is 48 (R65). -/
theorem coldReset_clears (s : State) : ∃ t, exec .coldReset s = .next t ∧ Cleared s t .coldReset 1 [] ∧
    t.board = State.reset.board ∧ t.lamp = State.reset.lamp ∧ t.kin = State.reset.kin ∧ t.pwr.vid = 48 :=
  ⟨_, rfl, clearedWith_cleared s .coldReset 1 Board.reset Lamp.reset 48 .refLost [], rfl, rfl, rfl, rfl⟩

theorem brownOut_held (s : State) (rail : Nat) (h : s.clk.mode = .coldReset ∨ s.clk.mode = .brownOut) :
    exec (.brownOut rail) s = .next s := by
  show execBrownOut rail s = _
  rw [execBrownOut, if_pos h]

/-- A brown-out (R66) from any mode but a reset hold: straps, RV codes and the AVS code stay. -/
theorem brownOut_clears (s : State) (rail : Nat) (hcold : s.clk.mode ≠ .coldReset) (hbrown : s.clk.mode ≠ .brownOut) :
    ∃ t, exec (.brownOut rail) s = .next t ∧
      Cleared s t .brownOut 2 [{ event := 0x07, data := [BitVec.ofNat 8 (Min.min rail 1)] }] ∧
      t.board = { s.board with valid := false } ∧ t.lamp = State.reset.lamp ∧ t.kin = State.reset.kin ∧ t.pwr.vid = s.pwr.vid := by
  refine ⟨clearedWith s .brownOut 2 { s.board with valid := false } Lamp.reset s.pwr.vid .refLost
    [{ event := 0x07, data := [BitVec.ofNat 8 (Min.min rail 1)] }], ?_, clearedWith_cleared .., rfl, rfl, rfl, rfl⟩
  show execBrownOut rail s = _
  rw [execBrownOut, if_neg (by simp [hcold, hbrown])]
  rfl

/-- The deferred event of a stop that ends: its cause and its length in start-up-oscillator periods (R56). -/
def stopEvent (cause : StopCause) (periods : Nat) : Deferred :=
  { event := (match cause with | .refLost => 1 | .pllUnlock => 2), data := leBytes 4 (Min.min periods 0xFFFFFFFF) }

/-- PLL lock after a stop: a clock-loss reset, then kindling starts (R56, R76). -/
theorem pllLock_relocking (s : State) (periods : Nat) (h : s.clk.mode = .relocking) :
    ∃ u, exec (.pllLock periods) s = .next (startClock u) ∧ u.syncIgnored = s.syncIgnored ∧
      Cleared s u .relocking 3 (s.clk.deferred ++ [stopEvent s.clk.cause periods]) ∧
      u.board = { s.board with valid := false } ∧ u.lamp = { State.reset.lamp with owner := s.lamp.owner } ∧
      u.kin = State.reset.kin ∧ u.pwr.vid = s.pwr.vid ∧ u.clk.cause = s.clk.cause := by
  refine ⟨clearedWith s .relocking 3 { s.board with valid := false } { Lamp.reset with owner := s.lamp.owner } s.pwr.vid
    s.clk.cause (s.clk.deferred ++ [stopEvent s.clk.cause periods]), ?_, rfl, clearedWith_cleared .., rfl, rfl, rfl, rfl, rfl⟩
  show execPllLock periods s = _
  rw [execPllLock, h]
  cases hc : s.clk.cause <;> rfl

theorem pllLock_locking (s : State) (periods : Nat) (h : s.clk.mode = .locking) :
    exec (.pllLock periods) s = .next (startClock s) := by
  show execPllLock periods s = _
  rw [execPllLock, h]

theorem pllLock_otherwise (s : State) (periods : Nat) (hlocking : s.clk.mode ≠ .locking)
    (hrelocking : s.clk.mode ≠ .relocking) : exec (.pllLock periods) s = .next s := by
  show execPllLock periods s = _
  rw [execPllLock]
  split
  · contradiction
  · contradiction
  · rfl

/-! ### Stops and the beacon -/

theorem clockStartFail_stops (s : State) (miss : Bool) :
    exec (.clockStartFail miss) s = .next (if s.clk.mode = .locking then
      (if miss = true then (let u := stopClock .refLost s; { u with clk := { u.clk with refPresent := false } })
       else stopClock .pllUnlock s) else s) := by
  cases miss <;> rfl

/-- The beacon's message (R313): part, card, cause of the stop and how many beacons went before. -/
def beaconMessage (s : State) : List Byte :=
  [1, 3, 0x82, 0, 0, 0, 8, 0, 0, 0, 0, 0] ++ leBytes 2 s.variant.part ++ [BitVec.ofNat 8 s.card] ++
    [match s.clk.cause with | .refLost => (1 : Byte) | .pllUnlock => 2] ++ leBytes 4 (Min.min s.clk.beacons 0xFFFFFFFF)

/-- A beacon leaves during a stop when RV_LAMP enables it and LAMP_TX drives. -/
def BeaconShown (s : State) : Prop :=
  (s.clk.mode = .waiting ∨ s.clk.mode = .relocking) ∧ (s.rv 6 = 1 ∨ s.rv 6 = 15) ∧ tabGet 0 s.pins.kinds 12 = 0

theorem beaconFrame_shown (s : State) (h : BeaconShown s) : exec .beaconFrame s = .next { s with
    clk := { s.clk with beacons := s.clk.beacons + 1 }, lamp := { s.lamp with sent := beaconMessage s :: s.lamp.sent } } := by
  obtain ⟨hmode, hrv, hpin⟩ := h
  show execBeaconFrame s = _
  rw [execBeaconFrame]
  simp only [hmode, hrv, State.lampTxOff, hpin, ne_eq, not_true_eq_false, decide_true, decide_false, Bool.not_false,
    Bool.and_self, if_true]
  cases hc : s.clk.cause <;> simp [beaconMessage, hc, message, leBytes]

theorem beaconFrame_hidden (s : State) (h : ¬ BeaconShown s) : exec .beaconFrame s = .next s := by
  show execBeaconFrame s = _
  rw [execBeaconFrame]
  dsimp only
  rw [if_neg]
  simpa [BeaconShown, State.lampTxOff, and_assoc] using h

/-! ### The straps' latches -/

/-- One strap's latch at the rise of COLD_RSTN (R38, R39). -/
def latchStrap (moving : BitVec 4) (a : BitVec 4 × State) (i : Nat) : BitVec 4 × State :=
  if hasBit moving i then (putBit a.1 i a.2.freeBit.1, a.2.freeBit.2) else a

theorem latchStraps_eq_foldl (straps moving : BitVec 4) (s : State) :
    latchStraps straps moving s = (List.range 4).foldl (latchStrap moving) (straps, s) := rfl

theorem getLsbD_putBit_ne {w : Nat} (v : BitVec w) {i j : Nat} (b : Bool) (h : j ≠ i) :
    (putBit v i b).getLsbD j = v.getLsbD j := by
  rcases Nat.lt_or_ge j w with hw | hw
  · have hbit : (1#w <<< i).getLsbD j = false := by simp [hw]; omega
    cases b
    · simp only [putBit, Bool.false_eq_true, if_false, BitVec.getLsbD_and, BitVec.getLsbD_not, hbit, hw, decide_true,
        Bool.not_false, Bool.and_self, Bool.and_true]
    · simp only [putBit, if_true, BitVec.getLsbD_or, hbit, Bool.or_false]
  · simp [hw]

/-- A strap that does not move latches as it stands. -/
theorem latchStraps_still (straps moving : BitVec 4) (s : State) (i : Nat) (h : moving.getLsbD i = false) :
    (latchStraps straps moving s).1.getLsbD i = straps.getLsbD i := by
  rw [latchStraps_eq_foldl]
  refine List.foldlRecOn (motive := fun a : BitVec 4 × State => a.1.getLsbD i = straps.getLsbD i) (List.range 4) _ rfl
    fun a ha j _ => ?_
  unfold latchStrap
  split
  next hj => rwa [getLsbD_putBit_ne _ _ (fun e => by simp [hasBit, ← e, h] at hj)]
  next => exact ha

/-- Only free choices are used up. -/
theorem latchStraps_state (straps moving : BitVec 4) (s : State) :
    (latchStraps straps moving s).2 = { s with free := (latchStraps straps moving s).2.free } := by
  rw [latchStraps_eq_foldl]
  refine List.foldlRecOn (motive := fun a : BitVec 4 × State => a.2 = { s with free := a.2.free }) (List.range 4) _ rfl
    fun a ha j _ => ?_
  unfold latchStrap
  split
  · simp only [State.freeBit]; rw [ha]
  · exact ha

/-! ### Resistor codes (R40, Table 3.9) -/

/-- Ratio `r` lies in the window of code `k + 1`. -/
def InWindow (r k : Nat) : Prop := k < 14 ∧ (rvWindows.getD k (1, 0)).1 ≤ r ∧ r ≤ (rvWindows.getD k (1, 0)).2

/-- Ratio `r` reads as code `c`. -/
def ReadsCode (r c : Nat) : Prop :=
  (r < 99 ∧ c = 0) ∨ (9901 < r ∧ c = 15) ∨ (99 ≤ r ∧ r ≤ 9901 ∧ ∃ k, InWindow r k ∧ c = k + 1)

/-- Ratio `r` lies between two windows. -/
def Unclear (r : Nat) : Prop := 99 ≤ r ∧ r ≤ 9901 ∧ ∀ k, ¬ InWindow r k

/-- Code `c` of RV pin `i` is reserved (Tables 3.11 to 3.16). -/
abbrev ReservedCode (i c : Nat) : Prop :=
  (i = 2 ∧ 8 ≤ c ∧ c ≤ 14) ∨ (i = 3 ∧ 4 ≤ c ∧ c ≤ 14) ∨ (i = 4 ∧ 7 ≤ c ∧ c ≤ 14) ∨
    (i = 5 ∧ 11 ≤ c ∧ c ≤ 14) ∨ (i = 6 ∧ 3 ≤ c ∧ c ≤ 14) ∨ (i = 7 ∧ (5 ≤ c ∧ c ≤ 7 ∨ c = 13 ∨ c = 14))

theorem rvReserved_iff (i c : Nat) : rvReserved i c = true ↔ ReservedCode i c := by
  unfold rvReserved
  split
  case h_7 => simp only [Bool.false_eq_true, ReservedCode, false_iff, imp_false] at *; omega
  all_goals simp [ReservedCode, or_assoc]

/-- The windows rise and do not meet. -/
theorem rvWindows_disjoint : ∀ k < 14, ∀ j < k, (rvWindows.getD j (1, 0)).2 < (rvWindows.getD k (1, 0)).1 := by decide

theorem InWindow.unique {r j k : Nat} (hj : InWindow r j) (hk : InWindow r k) : j = k := by
  obtain ⟨hj14, hjlo, hjhi⟩ := hj
  obtain ⟨hk14, hklo, hkhi⟩ := hk
  rcases Nat.lt_trichotomy j k with h | h | h
  · have := rvWindows_disjoint k hk14 j h; omega
  · exact h
  · have := rvWindows_disjoint j hj14 k h; omega

theorem rvDecode_low {r : Nat} (h : r < 99) : rvDecode r = some 0 := if_pos h

theorem rvDecode_high {r : Nat} (h : 9901 < r) : rvDecode r = some 15 := by
  rw [rvDecode, if_neg (by omega), if_pos h]

theorem rvDecode_between {r : Nat} (hlow : 99 ≤ r) (hhigh : r ≤ 9901) : rvDecode r =
    (firstBelow 14 (fun k => decide ((rvWindows.getD k (1, 0)).1 ≤ r ∧ r ≤ (rvWindows.getD k (1, 0)).2))).map (· + 1) := by
  rw [rvDecode, if_neg (by omega), if_neg (by omega)]

theorem rvDecode_of_inWindow {r k : Nat} (hlow : 99 ≤ r) (hhigh : r ≤ 9901) (h : InWindow r k) :
    rvDecode r = some (k + 1) := by
  obtain ⟨hk, hlo, hhi⟩ := h
  have hfirst : (List.range 14).find? (fun k => decide ((rvWindows.getD k (1, 0)).1 ≤ r ∧ r ≤ (rvWindows.getD k (1, 0)).2)) =
      some k := by
    refine List.find?_range_eq_some.2 ⟨decide_eq_true ⟨hlo, hhi⟩, List.mem_range.2 hk, fun j hj => ?_⟩
    rw [Bool.not_eq_true', decide_eq_false_iff_not]
    intro hw
    exact absurd (InWindow.unique ⟨by omega, hw⟩ ⟨hk, hlo, hhi⟩) (by omega)
  rw [rvDecode_between hlow hhigh, firstBelow, hfirst, Option.map_some]

theorem rvDecode_of_unclear {r : Nat} (h : Unclear r) : rvDecode r = none := by
  obtain ⟨hlow, hhigh, hnone⟩ := h
  rw [rvDecode_between hlow hhigh, Option.map_eq_none_iff, firstBelow, List.find?_range_eq_none]
  intro k hk
  rw [Bool.not_eq_true', decide_eq_false_iff_not]
  exact fun hw => hnone k ⟨hk, hw⟩

theorem rvDecode_of_readsCode {r c : Nat} (h : ReadsCode r c) : rvDecode r = some c := by
  rcases h with ⟨hlow, rfl⟩ | ⟨hhigh, rfl⟩ | ⟨hlow, hhigh, k, hk, rfl⟩
  · exact rvDecode_low hlow
  · exact rvDecode_high hhigh
  · exact rvDecode_of_inWindow hlow hhigh hk

/-- Every ratio reads as a code or is ambiguous. -/
theorem readsCode_or_unclear (r : Nat) : (∃ c, ReadsCode r c) ∨ Unclear r := by
  by_cases hlow : r < 99
  · exact .inl ⟨0, .inl ⟨hlow, rfl⟩⟩
  by_cases hhigh : 9901 < r
  · exact .inl ⟨15, .inr (.inl ⟨hhigh, rfl⟩)⟩
  by_cases hw : ∃ k, InWindow r k
  · obtain ⟨k, hk⟩ := hw
    exact .inl ⟨k + 1, .inr (.inr ⟨by omega, by omega, k, hk, rfl⟩)⟩
  · exact .inr ⟨by omega, by omega, fun k hk => hw ⟨k, hk⟩⟩

theorem rvDecode_eq_some_iff {r c : Nat} : rvDecode r = some c ↔ ReadsCode r c := by
  refine ⟨fun h => ?_, rvDecode_of_readsCode⟩
  rcases readsCode_or_unclear r with ⟨c', hc⟩ | hu
  · rw [rvDecode_of_readsCode hc] at h
    exact Option.some.inj h ▸ hc
  · rw [rvDecode_of_unclear hu] at h
    contradiction

theorem rvDecode_eq_none_iff {r : Nat} : rvDecode r = none ↔ Unclear r := by
  refine ⟨fun h => ?_, rvDecode_of_unclear⟩
  rcases readsCode_or_unclear r with ⟨c, hc⟩ | hu
  · rw [rvDecode_of_readsCode hc] at h
    contradiction
  · exact hu

theorem ReadsCode.lt {r c : Nat} (h : ReadsCode r c) : c < 16 := by
  rcases h with ⟨_, rfl⟩ | ⟨_, rfl⟩ | ⟨_, _, k, hk, rfl⟩
  · omega
  · omega
  · have := hk.1; omega

/-! ### The code and the flags of one pin (R41) -/

/-- `code` gives the effective codes of the pins before the combination rules (R41): the safe code for an ambiguous
reading or a reserved code, and otherwise the code read; a missing ratio is an open pin. -/
def EffectiveCodes (ratios : List Nat) (code : Nat → Nat) : Prop :=
  ∀ i < 8, (Unclear (ratios.getD i 10000) → code i = rvSafe i) ∧
    ∀ c, ReadsCode (ratios.getD i 10000) c → code i = if ReservedCode i c then rvSafe i else c

theorem rvPin_of_unclear {i r : Nat} (h : Unclear r) : rvPin i r = (rvSafe i, true, false) := by
  rw [rvPin, rvDecode_of_unclear h]

theorem rvPin_of_readsCode {i r c : Nat} (h : ReadsCode r c) :
    rvPin i r = if ReservedCode i c then (rvSafe i, false, true) else (c, false, false) := by
  rw [rvPin, rvDecode_of_readsCode h]
  simp only [rvReserved_iff]

theorem rvPin_code {ratios : List Nat} {code : Nat → Nat} (h : EffectiveCodes ratios code) {i : Nat} (hi : i < 8) :
    (rvPin i (ratios.getD i 10000)).1 = code i := by
  obtain ⟨hunclear, hreads⟩ := h i hi
  rcases readsCode_or_unclear (ratios.getD i 10000) with ⟨c, hc⟩ | hu
  · rw [rvPin_of_readsCode hc, hreads c hc, apply_ite Prod.fst]
  · rw [rvPin_of_unclear hu, hunclear hu]

/-- Every board has such codes. -/
theorem effectiveCodes_rvPin (ratios : List Nat) : EffectiveCodes ratios (fun i => (rvPin i (ratios.getD i 10000)).1) :=
  fun _ _ => ⟨fun hu => congrArg Prod.fst (rvPin_of_unclear hu),
    fun c hc => by simp only [rvPin_of_readsCode hc, apply_ite Prod.fst]⟩

theorem rvPin_ambiguous_iff (i r : Nat) : (rvPin i r).2.1 = true ↔ Unclear r := by
  rw [← rvDecode_eq_none_iff, rvPin]
  cases rvDecode r with
  | none => simp
  | some c => dsimp only; split <;> simp

theorem rvPin_substituted_iff (i r : Nat) : (rvPin i r).2.2 = true ↔ ∃ c, ReadsCode r c ∧ ReservedCode i c := by
  simp only [← rvDecode_eq_some_iff, ← rvReserved_iff, rvPin]
  cases rvDecode r with
  | none => simp
  | some c => by_cases hres : rvReserved i c = true <;> simp [hres]

theorem rvSafe_lt (i : Nat) (hi : i < 8) : rvSafe i < 16 := by
  revert i; decide

theorem EffectiveCodes.lt {ratios : List Nat} {code : Nat → Nat} (h : EffectiveCodes ratios code) {i : Nat} (hi : i < 8) :
    code i < 16 := by
  obtain ⟨hunclear, hreads⟩ := h i hi
  rcases readsCode_or_unclear (ratios.getD i 10000) with ⟨c, hc⟩ | hu
  · rw [hreads c hc]
    split
    · exact rvSafe_lt i hi
    · exact hc.lt
  · rw [hunclear hu]
    exact rvSafe_lt i hi

/-! ### The combination rules (R50) -/

/-- Rule 1: RV_PCIE 0 and RV_LAMP 0 leave no path to the host, so RV_LAMP becomes 1. -/
abbrev LampReplaced (code : Nat → Nat) : Prop := code 4 = 0 ∧ code 6 = 0

/-- Rule 2: RV_BOOT 3 or 11 with RV_PCIE 0 becomes 8. -/
abbrev BootLacksPcie (code : Nat → Nat) : Prop := (code 7 = 3 ∨ code 7 = 11) ∧ code 4 = 0

/-- Rule 3: RV_BOOT 4 or 12 with an RV_LAMP that is still 0 after rule 1 becomes 8. -/
abbrev BootLacksLamp (code : Nat → Nat) : Prop := (code 7 = 4 ∨ code 7 = 12) ∧ code 6 = 0 ∧ ¬ LampReplaced code

/-- The codes after the combination rules. -/
def combined (code : Nat → Nat) (i : Nat) : Nat :=
  if i = 6 ∧ LampReplaced code then 1
  else if i = 7 ∧ (BootLacksPcie code ∨ BootLacksLamp code) then 8
  else code i

/-- A combination rule: when `b` holds, pin `k` gets code `v`. -/
def replaceIf (b : Bool) (k v : Nat) (code : Nat → Nat) : Nat → Nat := if b then Function.update code k v else code

theorem replaceIf_same (b : Bool) (k v : Nat) (code : Nat → Nat) : replaceIf b k v code k = if b then v else code k := by
  cases b <;> simp [replaceIf]

theorem replaceIf_ne (b : Bool) {k i : Nat} (v : Nat) (code : Nat → Nat) (h : i ≠ k) :
    replaceIf b k v code i = code i := by
  cases b <;> simp [replaceIf, h]

theorem ite_set_codes (b : Bool) (k v : Nat) (code : Nat → Nat) :
    (if b then ((List.range 8).map code).set k v else (List.range 8).map code) = (List.range 8).map (replaceIf b k v code) := by
  cases b
  · rfl
  · refine List.ext_getElem (by simp) fun i _ _ => ?_
    simp [replaceIf, List.getElem_set, Function.update_apply, eq_comm]

theorem getD_codes (code : Nat → Nat) {i : Nat} (hi : i < 8) : ((List.range 8).map code).getD i 0 = code i := by
  simp [hi]

/-- The third rule looks at the codes that the first two leave. -/
theorem bootLacksLamp_iff (code : Nat → Nat) :
    ((if BootLacksPcie code then 8 else code 7) = 4 ∨ (if BootLacksPcie code then 8 else code 7) = 12) ∧
      (if LampReplaced code then 1 else code 6) = 0 ↔ BootLacksLamp code := by
  split
  next hpair => omega
  next => split <;> next hlamp => simp [hlamp]

theorem replaceIf_rules (code : Nat → Nat) :
    replaceIf (decide (BootLacksLamp code)) 7 8 (replaceIf (decide (BootLacksPcie code)) 7 8
      (replaceIf (decide (LampReplaced code)) 6 1 code)) = combined code := by
  funext i
  by_cases h6 : i = 6
  · subst h6; simp [combined, replaceIf_ne, replaceIf_same]
  by_cases h7 : i = 7
  · subst h7
    simp only [combined, replaceIf_same, replaceIf_ne _ _ _ h6, decide_eq_true_eq, h6, false_and, if_false, true_and]
    by_cases hlamp : BootLacksLamp code
    · rw [if_pos hlamp, if_pos (.inr hlamp)]
    · simp only [hlamp, if_false, or_false]
  · simp [combined, replaceIf_ne, h6, h7]

theorem rvCombine_eq (code : Nat → Nat) : rvCombine ((List.range 8).map code) =
    ((List.range 8).map (combined code),
      flag (decide (LampReplaced code)) 6 + flag (decide (BootLacksPcie code ∨ BootLacksLamp code)) 7) := by
  unfold rvCombine
  simp (disch := decide) only [getD_codes, ite_set_codes, replaceIf_same, replaceIf_ne]
  simp only [decide_eq_true_eq, bootLacksLamp_iff, replaceIf_rules, Bool.decide_or]

theorem combined_lt {code : Nat → Nat} (h : ∀ i < 8, code i < 16) : ∀ i < 8, combined code i < 16 := by
  intro i hi
  unfold combined
  split
  · omega
  · split
    · omega
    · exact h i hi

theorem combined_of_lt {code : Nat → Nat} {i : Nat} (hi : i < 6) : combined code i = code i := by
  rw [combined, if_neg (by omega), if_neg (by omega)]

theorem combined_lamp (code : Nat → Nat) : combined code 6 = if LampReplaced code then 1 else code 6 := by
  simp [combined]

theorem combined_boot (code : Nat → Nat) :
    combined code 7 = if BootLacksPcie code ∨ BootLacksLamp code then 8 else code 7 := by
  simp [combined]

/-! ### Packing into INV_RV and INV_RV_FLAGS -/

/-- The nibbles `c 0` to `c (n - 1)`, the first lowest. -/
def packNibbles (n : Nat) (c : Nat → Nat) : Nat := (List.range n).foldl (fun a i => a + c i * 16 ^ i) 0

theorem packNibbles_succ (n : Nat) (c : Nat → Nat) : packNibbles (n + 1) c = packNibbles n c + c n * 16 ^ n := by
  simp [packNibbles, List.range_succ]

theorem packNibbles_lt {n : Nat} {c : Nat → Nat} (h : ∀ i < n, c i < 16) : packNibbles n c < 16 ^ n := by
  induction n with
  | zero => simp [packNibbles]
  | succ n ih =>
    have hlow := ih fun i hi => h i (by omega)
    have htop : c n * 16 ^ n ≤ 15 * 16 ^ n := Nat.mul_le_mul_right _ (by have := h n (by omega); omega)
    rw [packNibbles_succ, Nat.pow_succ]
    omega

theorem packNibbles_div_mod {n : Nat} {c : Nat → Nat} (h : ∀ i < n, c i < 16) {i : Nat} (hi : i < n) :
    packNibbles n c / 16 ^ i % 16 = c i := by
  induction n with
  | zero => omega
  | succ n ih =>
    have hlow := packNibbles_lt fun i hi => h i (Nat.lt_succ_of_lt hi)
    have hpos : 0 < 16 ^ i := by positivity
    rw [packNibbles_succ]
    rcases Nat.lt_succ_iff_lt_or_eq.1 hi with hlt | rfl
    · have hsplit : c n * 16 ^ n = c n * 16 ^ (n - i - 1) * 16 * 16 ^ i := by
        rw [Nat.mul_assoc, Nat.mul_assoc, ← Nat.pow_succ', ← Nat.pow_add]; congr 2; omega
      rw [hsplit, Nat.add_mul_div_right _ _ hpos, Nat.add_mul_mod_self_right]
      exact ih (fun i hi => h i (by omega)) hlt
    · rw [Nat.add_mul_div_right _ _ hpos, Nat.div_eq_of_lt hlow, Nat.zero_add, Nat.mod_eq_of_lt (h i hi)]

/-- What `State.rv` reads from INV_RV. -/
theorem bits_packNibbles {c : Nat → Nat} (h : ∀ i < 8, c i < 16) {i : Nat} (hi : i < 8) :
    bits (BitVec.ofNat 32 (packNibbles 8 c)).toNat (4 * i + 3) (4 * i) = c i := by
  have hlt : packNibbles 8 c < 2 ^ 32 := packNibbles_lt h
  rw [bits, BitVec.toNat_ofNat, Nat.mod_eq_of_lt hlt, Nat.pow_mul, show 4 * i + 3 + 1 - 4 * i = 4 by omega]
  exact packNibbles_div_mod h hi

theorem maskOf_succ (n : Nat) (p : Nat → Bool) : maskOf (n + 1) p = maskOf n p + flag (p n) n := by
  simp [maskOf, List.range_succ]

theorem maskOf_lt (n : Nat) (p : Nat → Bool) : maskOf n p < 2 ^ n := by
  induction n with
  | zero => simp [maskOf]
  | succ n ih => rw [maskOf_succ, Nat.pow_succ]; unfold flag; split <;> omega

theorem testBit_maskOf (n : Nat) (p : Nat → Bool) {i : Nat} (hi : i < n) : (maskOf n p).testBit i = p i := by
  induction n with
  | zero => omega
  | succ n ih =>
    have hlow := maskOf_lt n p
    rw [maskOf_succ, Nat.add_comm, show flag (p n) n = 2 ^ n * (p n).toNat by cases h : p n <;> simp [flag],
      Nat.testBit_two_pow_mul_add _ hlow]
    split
    next h => exact ih h
    next h =>
      obtain rfl : i = n := by omega
      cases p i <;> simp

/-- The low and the high byte of the flags word. -/
theorem getLsbD_flags (p q : Nat → Bool) {i : Nat} (hi : i < 8) :
    (BitVec.ofNat 32 (maskOf 8 p + 2 ^ 8 * maskOf 8 q)).getLsbD i = p i ∧
    (BitVec.ofNat 32 (maskOf 8 p + 2 ^ 8 * maskOf 8 q)).getLsbD (8 + i) = q i := by
  simp only [BitVec.getLsbD_ofNat, Nat.add_comm (maskOf 8 p), Nat.testBit_two_pow_mul_add _ (maskOf_lt 8 p)]
  constructor
  · simp [hi, testBit_maskOf 8 p hi]; omega
  · simp [testBit_maskOf 8 q hi]; omega

theorem bitOf_combination_flags (a b : Bool) {i : Nat} (hi : i < 8) :
    bitOf (flag a 6 + flag b 7) i = true ↔ (i = 6 ∧ a = true) ∨ (i = 7 ∧ b = true) := by
  revert a b i; decide

/-! ### The capture as a whole -/

/-- The pin's substitution flag is set: a reserved code, or a combination rule that replaces its code (R41). -/
def Substituted (ratios : List Nat) (code : Nat → Nat) (i : Nat) : Prop :=
  (∃ c, ReadsCode (ratios.getD i 10000) c ∧ ReservedCode i c) ∨
    (i = 6 ∧ LampReplaced code) ∨ (i = 7 ∧ (BootLacksPcie code ∨ BootLacksLamp code))

theorem map_rvPin_code {ratios : List Nat} {code : Nat → Nat} (h : EffectiveCodes ratios code) :
    ((List.range 8).map (fun i => rvPin i (ratios.getD i 10000))).map (·.1) = (List.range 8).map code := by
  rw [List.map_map]
  exact List.map_congr_left fun i hi => rvPin_code h (List.mem_range.1 hi)

theorem rvCapture_code {ratios : List Nat} {code : Nat → Nat} (h : EffectiveCodes ratios code) {i : Nat} (hi : i < 8) :
    bits (rvCapture ratios).1.toNat (4 * i + 3) (4 * i) = combined code i := by
  have hword : (rvCapture ratios).1 = BitVec.ofNat 32 (packNibbles 8 (combined code)) := by
    unfold rvCapture
    simp only [map_rvPin_code h, rvCombine_eq]
    refine congrArg _ (List.foldl_ext _ _ _ fun a k hk => ?_)
    rw [getD_codes _ (List.mem_range.1 hk)]
  rw [hword]
  exact bits_packNibbles (combined_lt fun i hi => h.lt hi) hi

theorem rvCapture_flags {ratios : List Nat} {code : Nat → Nat} (h : EffectiveCodes ratios code) {i : Nat} (hi : i < 8) :
    ((rvCapture ratios).2.getLsbD i = true ↔ Unclear (ratios.getD i 10000)) ∧
    ((rvCapture ratios).2.getLsbD (8 + i) = true ↔ Substituted ratios code i) := by
  have hpin : ((List.range 8).map (fun i => rvPin i (ratios.getD i 10000))).getD i (0, false, false) =
      rvPin i (ratios.getD i 10000) := by simp [hi]
  unfold rvCapture
  simp only [map_rvPin_code h, rvCombine_eq]
  obtain ⟨hambiguous, hsubstituted⟩ := getLsbD_flags _ _ hi
  rw [hambiguous, hsubstituted, hpin, Bool.or_eq_true, rvPin_ambiguous_iff, rvPin_substituted_iff,
    bitOf_combination_flags _ _ hi, decide_eq_true_eq, decide_eq_true_eq]
  exact ⟨Iff.rfl, Iff.rfl⟩

/-- COLD_RSTN_RISE (R38, R40, R41, R50): the straps and the RV codes are latched and the PLL starts. -/
theorem coldRstnRise_latches (s : State) (straps moving : BitVec 4) (ratios : List Nat) (hmode : s.clk.mode = .coldReset) :
    ∃ t, exec (.coldRstnRise straps moving ratios true) s = .next t ∧
      t = { s with board := t.board, free := t.free, clk := { s.clk with mode := .locking } } ∧ t.board.valid = false ∧
      (∀ i < 4, moving.getLsbD i = false → t.board.straps.getLsbD i = straps.getLsbD i) ∧
      ∀ code, EffectiveCodes ratios code → (∀ i < 8, t.rv i = combined code i) ∧
        ∀ i < 8, (t.board.rvFlags.getLsbD i = true ↔ Unclear (ratios.getD i 10000)) ∧
          (t.board.rvFlags.getLsbD (8 + i) = true ↔ Substituted ratios code i) := by
  refine ⟨{ s with
    board := { straps := (latchStraps straps moving s).1, rv := (rvCapture ratios).1
               rvFlags := (rvCapture ratios).2, valid := false }
    free := (latchStraps straps moving s).2.free, clk := { s.clk with mode := .locking } }, ?_, rfl, rfl,
    fun i _ hi => latchStraps_still straps moving s i hi, fun code hcode =>
    ⟨fun i hi => rvCapture_code hcode hi, fun i hi => rvCapture_flags hcode hi⟩⟩
  show execColdRstnRise straps moving ratios true s = _
  rw [execColdRstnRise, if_neg (not_not.2 hmode), if_neg (by decide)]
  dsimp only
  rw [latchStraps_state]

theorem coldRstnRise_ignored (s : State) (straps moving : BitVec 4) (ratios : List Nat) (hmode : s.clk.mode ≠ .coldReset) :
    exec (.coldRstnRise straps moving ratios true) s = .next s := by
  show execColdRstnRise straps moving ratios true s = _
  rw [execColdRstnRise, if_pos hmode]

/-- Settles O52: one lemma for each command of chapters 3 and 4; a command that is one conditional holds by `rfl`. -/
theorem clockStopsAndResetsClear : Obligations.ClockStopsAndResetsClear := by
  intro s straps moving ratios rail periods miss
  refine ⟨coldReset_clears s, coldRstnRise_ignored s straps moving ratios, fun hmode => ?_, rfl, rfl, rfl, rfl, rfl,
    clockStartFail_stops s miss, ⟨pllLock_locking s periods, fun hmode => ?_, pllLock_otherwise s periods⟩,
    ⟨beaconFrame_hidden s, beaconFrame_shown s⟩, brownOut_held s rail, brownOut_clears s rail, rfl⟩
  · obtain ⟨t, hstep, hframe, hvalid, hstraps, hcapture⟩ := coldRstnRise_latches s straps moving ratios hmode
    refine ⟨t, hstep, hframe, hvalid, hstraps, fun code hcode => ?_⟩
    obtain ⟨hcodes, hflags⟩ := hcapture code hcode
    exact ⟨fun i hi => (hcodes i (by omega)).trans (combined_of_lt hi), (hcodes 6 (by omega)).trans (combined_lamp code),
      (hcodes 7 (by omega)).trans (combined_boot code), hflags⟩
  · obtain ⟨u, hstep, hsync, hrest⟩ := pllLock_relocking s periods hmode
    refine ⟨u, hstep.trans ?_, hrest⟩
    rw [startClock, hsync]

end Sys2Proof.Machine
end

section
/-!
PROOF about O53 (chapter 4), which fails at the pulse of a SYNC capture.  Table 20.2 puts SYNC on signal 73 of the bus and
SYSREF on 74, and `State.nextBus` reads them from bits 0 and 1 of `pulses`.  The model marks a SYNC capture in bit 0; the
statement asks for the mark in bit 1, which is the one of SYSREF.
-/

namespace Sys2Proof.Machine

@[simp] theorem checkSlip_tnd (s : State) : (checkSlip s).tnd = s.tnd := by
  unfold checkSlip
  dsimp only
  split
  · simp
  · rfl

/-- A SYNC capture shows in bit 0 of the pulses, whatever else it does (R58, R357, Table 20.2). -/
theorem syncCapture_pulses (s : State) (marginal : Bool) (hrun : s.clocked = true)
    (hpair : tabGet 0 s.pins.kinds 10 ≠ 5) :
    ∃ t, exec (.syncCapture marginal) s = .next t ∧ t.tnd.pulses = s.tnd.pulses ||| 1#2 := by
  refine ⟨_, rfl, ?_⟩
  rw [if_neg (by simp [hrun, hpair])]
  simp only [apply_ite State.tnd, checkSlip_tnd, State.raise_tnd, ite_self]

/-- The state after reset with the core clock running: no alignment is armed and none has taken place. -/
def runningReset : State := { State.reset with clk := { Clock.reset with mode := .running } }

/-- Refutes O53: at `runningReset` a SYNC capture, not marginal, leaves pulses 1, and the statement asks for 2, the mark of
a SYSREF capture. -/
theorem not_syncVoltageAndHeatAreWatched : ¬ Obligations.SyncVoltageAndHeatAreWatched := by
  intro h
  obtain ⟨-, hcapture, -⟩ := h runningReset false 0 0 0 0 0
  have hunarmed := (hcapture rfl (by decide)).2 rfl
  obtain ⟨t, hnext, hpulses⟩ := syncCapture_pulses runningReset false rfl (by decide)
  have ht := hnext.symm.trans hunarmed
  injection ht with ht
  rw [ht] at hpulses
  exact absurd hpulses (by decide)

end Sys2Proof.Machine
end

section
/-!
PROOF of O3, O4 and O5 (chapter 8): what each operation of a hearth computes in its lanes.  A lane law gives the value of
one lane, a law of the operation's result (`…Res_lanes`) puts the lanes together, and `places` or `macAct` adds the firing.
-/

namespace Sys2Proof.Machine

/-! ### Signed values of a lane -/

/-- What lies between 0 and a value that fits a lane fits it too. -/
theorem fits_of_toward_zero {w : Nat} {x y : Int} (hx : fits w x) (h : (0 ≤ y ∧ y ≤ x) ∨ (x ≤ y ∧ y ≤ 0)) : fits w y := by
  have hpos : (0 : Int) < 2 ^ (w - 1) := by positivity
  obtain ⟨hlo, hhi⟩ := hx
  obtain ⟨h0, hle⟩ | ⟨hle, h0⟩ := h
  · exact ⟨by omega, by omega⟩
  · exact ⟨by omega, by omega⟩

/-- A wider lane holds what a narrower one holds. -/
theorem fits_mono {w k : Nat} {x : Int} (h : w ≤ k) (hx : fits w x) : fits k x := by
  have hle : (2 : Int) ^ (w - 1) ≤ 2 ^ (k - 1) := pow_le_pow_right₀ (by decide) (by omega)
  obtain ⟨hlo, hhi⟩ := hx
  exact ⟨by omega, by omega⟩

theorem fits_ediv {w : Nat} {x d : Int} (hx : fits w x) (hd : 0 < d) : fits w (x / d) := by
  apply fits_of_toward_zero hx
  rcases le_or_gt 0 x with h | h
  · exact .inl ⟨Int.ediv_nonneg h hd.le, Int.ediv_le_self d h⟩
  · exact .inr ⟨(Int.le_ediv_iff_mul_le hd).2 (by nlinarith), (Int.ediv_neg_of_neg_of_pos h hd).le⟩

/-- A remainder with the sign of the dividend is no larger than it. -/
theorem fits_tmod {w : Nat} {x : Int} (hx : fits w x) (y : Int) : fits w (x.tmod y) := by
  apply fits_of_toward_zero hx
  have habs : (x.tmod y).natAbs ≤ x.natAbs := by rw [Int.natAbs_tmod]; exact Nat.mod_le _ _
  rcases le_or_gt 0 x with h | h
  · have hnonneg : 0 ≤ x.tmod y := Int.tmod_nonneg y h
    omega
  · have hneg : 0 ≤ -(x.tmod y) := by rw [← Int.neg_tmod]; exact Int.tmod_nonneg y (by omega)
    omega

/-- The high half of a product of two lane values fits the lane. -/
theorem fits_mulHigh {w : Nat} (hw : 0 < w) {x y : Int} (hx : fits w x) (hy : fits w y) : fits w (x * y / 2 ^ w) := by
  have h2 : (2 : Int) ^ w = 2 * 2 ^ (w - 1) := (mul_pow_sub_one hw.ne' 2).symm
  have hpos : (0 : Int) < 2 ^ (w - 1) := by positivity
  obtain ⟨hxlo, hxhi⟩ := hx
  obtain ⟨hylo, hyhi⟩ := hy
  rw [fits, h2]
  generalize (2 : Int) ^ (w - 1) = u at *
  have habs : |x * y| ≤ u * u := by
    rw [abs_mul]
    exact mul_le_mul (abs_le.2 ⟨hxlo, by omega⟩) (abs_le.2 ⟨hylo, by omega⟩) (abs_nonneg y) hpos.le
  obtain ⟨hlo, hhi⟩ := abs_le.1 habs
  constructor
  · exact (Int.le_ediv_iff_mul_le (by omega)).2 (by nlinarith)
  · exact Int.le_sub_one_of_lt ((Int.ediv_lt_iff_lt_mul (by omega)).2 (by nlinarith))

theorem signed_of_lt {w v : Nat} (hw : 0 < w) (h : v < 2 ^ (w - 1)) : signed w v = v := by
  have h2 : 2 ^ w = 2 * 2 ^ (w - 1) := (mul_pow_sub_one hw.ne' 2).symm
  simp only [signed]
  rw [Nat.mod_eq_of_lt (by omega), if_pos h]

/-- The most significant bit of a lane is its sign. -/
theorem bitOf_top_eq {w v : Nat} (hw : 0 < w) (hv : v < 2 ^ w) : bitOf v (w - 1) = decide (signed w v < 0) := by
  have h2 : 2 ^ w = 2 * 2 ^ (w - 1) := (mul_pow_sub_one hw.ne' 2).symm
  rcases Nat.lt_or_ge v (2 ^ (w - 1)) with h | h
  · have hsign : ¬ signed w v < 0 := by rw [signed_of_lt hw h]; omega
    simp [bitOf, Nat.div_eq_of_lt h, hsign]
  · have hdiv : v / 2 ^ (w - 1) = 1 := by rw [Nat.div_eq_iff (Nat.two_pow_pos _)]; omega
    have hsign : signed w v < 0 := by
      simp only [signed]
      rw [Nat.mod_eq_of_lt hv, if_neg (by omega)]
      omega
    simp [bitOf, hdiv, hsign]

/-! ### One lane of an operation -/

theorem laneShl_val_mod (w a b : Nat) : (laneShl w a b).val % 2 ^ w = a * 2 ^ (b % 64) % 2 ^ w := by
  simp only [laneShl]
  split
  next h =>
    have hdvd : 2 ^ w ∣ a * 2 ^ (b % 64) := Dvd.dvd.mul_left (pow_dvd_pow 2 h) a
    rw [Nat.zero_mod, Nat.mod_eq_zero_of_dvd hdvd]
  next => exact Nat.mod_mod _ _

theorem laneShr_val_mod {w a : Nat} (ha : a < 2 ^ w) (b : Nat) : (laneShr w a b).val % 2 ^ w = a / 2 ^ (b % 64) := by
  simp only [laneShr]
  split
  next h =>
    have hle : 2 ^ w ≤ 2 ^ (b % 64) := Nat.pow_le_pow_right (by decide) h
    rw [Nat.zero_mod, Nat.div_eq_of_lt (by omega)]
  next => exact Nat.mod_eq_of_lt (lt_of_le_of_lt (Nat.div_le_self _ _) ha)

theorem signed_laneShra {w : Nat} (hw : 0 < w) (a b : Nat) :
    signed w (laneShra w a b).val = signed w a / 2 ^ (b % 64) := by
  rw [laneShra, signed_plain hw (fits_ediv (fits_signed hw a) (by positivity))]
  push_cast
  rfl

/-- RND (R151): the rounded lane fits, so saturation changes nothing. -/
theorem signed_rnd {w : Nat} (hw : 0 < w) (v k : Nat) : signed w (rnd (signed w v) k w).val = roundAway (signed w v) k := by
  rw [rnd_eq, signed_fit hw, fitted, if_pos (fits_roundAway (fits_signed hw v) k)]

/-- The quotient of a lane (R153): fitted, and for a divisor 0 the extreme value with the sign of A, or 0. -/
theorem signed_laneDiv {w : Nat} (hw : 0 < w) (sat : Bool) (a b : Nat) :
    signed w (laneDiv w sat a b).val =
      if b ≠ 0 then fitted w sat ((signed w a).tdiv (signed w b))
      else if signed w a = 0 then 0
      else if signed w a < 0 then -(2 ^ (w - 1) : Int) else 2 ^ (w - 1) - 1 := by
  by_cases hb : b = 0
  · have hlo : laneMin w = -(2 ^ (w - 1) : Int) := by simp [laneMin]
    have hhi : laneMax w = (2 : Int) ^ (w - 1) - 1 := by simp [laneMax]
    have hzero : fits w 0 := fits_of_toward_zero fits_lo (.inr ⟨by simp, le_refl _⟩)
    simp only [laneDiv, hb, if_true, ne_eq, not_true_eq_false, if_false, hlo, hhi]
    apply signed_plain hw
    split
    · exact hzero
    · split
      · exact fits_lo
      · exact fits_hi
  · simp only [laneDiv, hb, if_false, ne_eq, not_false_eq_true, if_true]
    exact signed_fit hw sat _

theorem laneDiv_v (w : Nat) (sat : Bool) (a b : Nat) :
    (laneDiv w sat a b).v = decide (b ≠ 0 ∧ ¬ fits w ((signed w a).tdiv (signed w b))) := by
  by_cases hb : b = 0
  · simp [laneDiv, hb]
  · simp [laneDiv, hb, fit_v]

theorem laneDiv_d (w : Nat) (sat : Bool) (a b : Nat) : (laneDiv w sat a b).d = decide (b = 0) := by
  by_cases hb : b = 0
  · simp [laneDiv, hb]
  · simp [laneDiv, hb, fit_d]

/-- The remainder of a lane (R153): the sign of A, and A itself for a divisor 0. -/
theorem signed_laneRem {w : Nat} (hw : 0 < w) (a b : Nat) :
    signed w (laneRem w a b).val = if b = 0 then signed w a else (signed w a).tmod (signed w b) := by
  by_cases hb : b = 0
  · simp only [laneRem, hb, if_true]
  · simp only [laneRem, hb, if_false]
    exact signed_plain hw (fits_tmod (fits_signed hw a) _)

theorem laneRem_v (w a b : Nat) : (laneRem w a b).v = false := by
  rw [laneRem, apply_ite LaneRes.v]
  exact ite_self _

theorem laneRem_d (w a b : Nat) : (laneRem w a b).d = decide (b = 0) := by
  by_cases hb : b = 0 <;> simp [laneRem, plain, hb]

/-- The eight conditions of Table 8.6, in the order of COND. -/
theorem condHolds_eq_getD {cond : Nat} (h : cond < 8) (w a b : Nat) :
    condHolds cond w a b =
      [decide (a = b), decide (a ≠ b), decide (signed w a < signed w b), decide (signed w a ≤ signed w b),
        decide (signed w b < signed w a), decide (signed w b ≤ signed w a), decide (a < b),
        decide (b ≤ a)].getD cond false := by
  interval_cases cond <;> rfl

theorem Gallery.record_cond_lt (x : Gallery) (p h : Nat) : (x.record p h).cond < 8 := Nat.mod_lt _ (by decide)

/-! ### Lanes put together -/

/-- A result whose Z and N follow from the word, with C untouched (R146). -/
def WordRes.placing (x : Word) (v d : Bool) : WordRes :=
  { word := x, v := v, d := d, c := none, zn := some (decide (x = 0), x.msb) }

theorem any_range_false {n : Nat} {p : Nat → Bool} (h : ∀ i < n, p i = false) : (List.range n).any p = false :=
  List.any_eq_false.2 fun i hi => by simp [h i (List.mem_range.1 hi)]

/-- Lane results that set no flag: each lane holds the low bits of its value. -/
theorem ofLanes_values {w : Nat} (hw : w = 32 ∨ w = 16 ∨ w = 8) (f : Nat → Nat) :
    ∃ x, ofLanes w (fun i => { val := f i, v := false, d := false }) = .placing x false false ∧
      ∀ i < 32 / w, lane w x i = f i % 2 ^ w :=
  ⟨joinLanes w f, ofLanes_plain w _ (fun _ _ => rfl) (fun _ _ => rfl), fun _ hi => lane_joinLanes hw f hi⟩

/-- Lane results whose signed values are known. -/
theorem ofLanes_signed {w : Nat} {f : Nat → LaneRes} {z : Nat → Int} {v d : Bool} (hw : w = 32 ∨ w = 16 ∨ w = 8)
    (hv : (List.range (32 / w)).any (fun i => (f i).v) = v) (hd : (List.range (32 / w)).any (fun i => (f i).d) = d)
    (hz : ∀ i < 32 / w, signed w (f i).val = z i) :
    ∃ x, ofLanes w f = .placing x v d ∧ ∀ i < 32 / w, sLane w x i = z i := by
  refine ⟨joinLanes w (fun i => (f i).val), ?_, fun i hi => (sLane_joinLanes hw _ hi).trans (hz i hi)⟩
  simp only [ofLanes, hv, hd, znOf_eq, WordRes.placing]

/-- Exact values that all fit their lanes. -/
theorem ofLanes_exact {w : Nat} {z : Nat → Int} (hw : w = 32 ∨ w = 16 ∨ w = 8) (hz : ∀ i, fits w (z i)) :
    ∃ x, ofLanes w (fun i => plain w (z i)) = .placing x false false ∧ ∀ i < 32 / w, sLane w x i = z i :=
  ofLanes_signed hw (any_range_false fun _ _ => rfl) (any_range_false fun _ _ => rfl)
    fun i _ => signed_plain (by omega) (hz i)

/-! ### The results of the operations -/

section

variable (r : Record) (a b c : Word)

theorem minRes_lanes : ∃ x, minRes r a b = .placing x false false ∧
    ∀ i < 32 / r.width, sLane r.width x i = Min.min (sLane r.width a i) (sLane r.width b i) := by
  simp only [min_def]
  refine ofLanes_exact r.width_cases fun i => ?_
  split
  · exact fits_signed r.width_pos _
  · exact fits_signed r.width_pos _

theorem maxRes_lanes : ∃ x, maxRes r a b = .placing x false false ∧
    ∀ i < 32 / r.width, sLane r.width x i = Max.max (sLane r.width a i) (sLane r.width b i) := by
  simp only [max_def]
  refine ofLanes_exact r.width_cases fun i => ?_
  split
  · exact fits_signed r.width_pos _
  · exact fits_signed r.width_pos _

theorem selRes_lanes : ∃ x, selRes r a b c = .placing x false false ∧
    ∀ i < 32 / r.width, lane r.width x i = if sLane r.width c i < 0 then lane r.width a i else lane r.width b i := by
  obtain ⟨x, hres, hlane⟩ := ofLanes_values r.width_cases
    (fun i => if bitOf (lane r.width c i) (r.width - 1) then lane r.width a i else lane r.width b i)
  refine ⟨x, hres, fun i hi => ?_⟩
  have hlt : (if bitOf (lane r.width c i) (r.width - 1) then lane r.width a i else lane r.width b i) < 2 ^ r.width := by
    split <;> exact lane_lt ..
  rw [hlane i hi, Nat.mod_eq_of_lt hlt]
  refine if_congr ?_ rfl rfl
  rw [bitOf_top_eq r.width_pos (lane_lt _ c i)]
  exact decide_eq_true_iff

/-- CMP (R147) under a relation `t` of the lanes: Z and N follow from `t`, not from the word. -/
theorem cmpRes_lanes {t : Nat → Bool}
    (ht : ∀ i, condHolds r.cond r.width (lane r.width a i) (lane r.width b i) = t i) :
    ∃ x, cmpRes r.width r.cond a b =
        { word := x, v := false, d := false, c := none,
          zn := some (decide (∀ i < 32 / r.width, t i = false), decide (∀ i < 32 / r.width, t i = true)) } ∧
      ∀ i < 32 / r.width, lane r.width x i = if t i then 2 ^ r.width - 1 else 0 := by
  have hpos := Nat.two_pow_pos r.width
  refine ⟨joinLanes r.width (fun i => if t i then 2 ^ r.width - 1 else 0), ?_, fun i hi => ?_⟩
  · have hz : (!(List.range (32 / r.width)).any t) = decide (∀ i < 32 / r.width, t i = false) := by
      rw [Bool.eq_iff_iff]; simp
    have hn : (List.range (32 / r.width)).all t = decide (∀ i < 32 / r.width, t i = true) := by
      rw [Bool.eq_iff_iff]; simp
    simp only [cmpRes, ht, hz, hn]
  · rw [lane_joinLanes r.width_cases _ hi]
    apply Nat.mod_eq_of_lt
    split <;> omega

theorem shlRes_lanes : ∃ x, lanesAB (fun r _ x y => laneShl r.width x y) r a b = .placing x false false ∧
    ∀ i < 32 / r.width, lane r.width x i = lane r.width a i * 2 ^ (lane r.width b i % 64) % 2 ^ r.width := by
  obtain ⟨x, hres, hlane⟩ := ofLanes_values r.width_cases (fun i => (laneShl r.width (lane r.width a i) (lane r.width b i)).val)
  exact ⟨x, hres, fun i hi => (hlane i hi).trans (laneShl_val_mod ..)⟩

theorem shrRes_lanes : ∃ x, lanesAB (fun r _ x y => laneShr r.width x y) r a b = .placing x false false ∧
    ∀ i < 32 / r.width, lane r.width x i = lane r.width a i / 2 ^ (lane r.width b i % 64) := by
  obtain ⟨x, hres, hlane⟩ := ofLanes_values r.width_cases (fun i => (laneShr r.width (lane r.width a i) (lane r.width b i)).val)
  exact ⟨x, hres, fun i hi => (hlane i hi).trans (laneShr_val_mod (lane_lt _ a i) _)⟩

theorem shraRes_lanes : ∃ x, lanesAB (fun r _ x y => laneShra r.width x y) r a b = .placing x false false ∧
    ∀ i < 32 / r.width, sLane r.width x i = sLane r.width a i / 2 ^ (lane r.width b i % 64) :=
  ofLanes_signed r.width_cases (any_range_false fun _ _ => rfl) (any_range_false fun _ _ => rfl)
    fun _ _ => signed_laneShra r.width_pos _ _

theorem rotRes_lanes : ∃ x, lanesAB (fun r _ x y => laneRot r.width x y) r a b = .placing x false false ∧
    ∀ i < 32 / r.width, ∀ j < r.width,
      (lane r.width x i).testBit ((j + lane r.width b i % 64) % r.width) = (lane r.width a i).testBit j := by
  obtain ⟨x, hres, hlane⟩ := ofLanes_values r.width_cases (fun i => (laneRot r.width (lane r.width a i) (lane r.width b i)).val)
  refine ⟨x, hres, fun i hi j hj => ?_⟩
  rw [hlane i hi]
  exact rot_spec r.width_pos (lane_lt _ a i) _ j hj

theorem clzRes_lanes : ∃ x, clzRes r a = .placing x false false ∧
    ∀ i < 32 / r.width, lane r.width x i ≤ r.width ∧ lane r.width a i < 2 ^ (r.width - lane r.width x i) ∧
      (lane r.width x i < r.width → 2 ^ (r.width - 1 - lane r.width x i) ≤ lane r.width a i) := by
  obtain ⟨x, hres, hlane⟩ := ofLanes_values r.width_cases (fun i => clz r.width (lane r.width a i))
  refine ⟨x, hres, fun i hi => ?_⟩
  have hspec := clz_spec r.width _ (lane_lt r.width a i)
  rw [hlane i hi, Nat.mod_eq_of_lt (hspec.1.trans_lt Nat.lt_two_pow_self)]
  exact hspec

theorem popcRes_lanes : ∃ x, popcRes r a = .placing x false false ∧
    ∀ i < 32 / r.width, lane r.width x i = (List.range r.width).countP (fun j => (lane r.width a i).testBit j) := by
  obtain ⟨x, hres, hlane⟩ := ofLanes_values r.width_cases (fun i => popc r.width (lane r.width a i))
  refine ⟨x, hres, fun i hi => ?_⟩
  have hle : (List.range r.width).countP (fun j => (lane r.width a i).testBit j) ≤ r.width := by
    simpa using List.countP_le_length (l := List.range r.width) (p := fun j => (lane r.width a i).testBit j)
  rw [hlane i hi, popc_eq]
  exact Nat.mod_eq_of_lt (hle.trans_lt Nat.lt_two_pow_self)

theorem mulhRes_lanes : ∃ x, mulhRes r a b = .placing x false false ∧
    ∀ i < 32 / r.width, sLane r.width x i = sLane r.width a i * sLane r.width b i / 2 ^ r.width := by
  have hcast : ((2 ^ r.width : Nat) : Int) = 2 ^ r.width := by push_cast; rfl
  simp only [mulhRes, lanesAB, hcast]
  exact ofLanes_exact r.width_cases fun i =>
    fits_mulHigh r.width_pos (fits_signed r.width_pos _) (fits_signed r.width_pos _)

theorem rndRes_lanes : ∃ x, rndRes r a = .placing x false false ∧
    ∀ i < 32 / r.width, sLane r.width x i = roundAway (sLane r.width a i) r.sh :=
  ofLanes_signed r.width_cases (any_range_false fun _ _ => rfl) (any_range_false fun _ _ => fit_d _ _ _)
    fun _ _ => signed_rnd r.width_pos _ _

theorem divRes_lanes : ∃ x, lanesAB (fun r i x y => laneDiv r.width (r.sat i) x y) r a b =
      .placing x
        (decide (∃ i < 32 / r.width, lane r.width b i ≠ 0 ∧
          ¬ fits r.width ((sLane r.width a i).tdiv (sLane r.width b i))))
        (decide (∃ i < 32 / r.width, lane r.width b i = 0)) ∧
    ∀ i < 32 / r.width, sLane r.width x i =
      if lane r.width b i ≠ 0 then fitted r.width (r.sat i) ((sLane r.width a i).tdiv (sLane r.width b i))
      else if sLane r.width a i = 0 then 0
      else if sLane r.width a i < 0 then -(2 ^ (r.width - 1) : Int) else 2 ^ (r.width - 1) - 1 :=
  ofLanes_signed r.width_cases (any_range fun _ _ => laneDiv_v ..) (any_range fun _ _ => laneDiv_d ..)
    fun _ _ => signed_laneDiv r.width_pos _ _ _

theorem remRes_lanes : ∃ x, lanesAB (fun r _ x y => laneRem r.width x y) r a b =
      .placing x false (decide (∃ i < 32 / r.width, lane r.width b i = 0)) ∧
    ∀ i < 32 / r.width, sLane r.width x i =
      if lane r.width b i = 0 then sLane r.width a i else (sLane r.width a i).tmod (sLane r.width b i) :=
  ofLanes_signed r.width_cases (any_range_false fun _ _ => laneRem_v ..) (any_range fun _ _ => laneRem_d ..)
    fun _ _ => signed_laneRem r.width_pos _ _

end

/-- LANES 1 and 2 are the two widths that PACK and UNPK take. -/
theorem Record.width_of_narrow {r : Record} (h : r.lanes = 1 ∨ r.lanes = 2) : r.width = 16 ∨ r.width = 8 := by
  obtain h | h := h <;> simp [Record.width, h]

theorem packRes_lanes {r : Record} (hl : r.lanes = 1 ∨ r.lanes = 2) {a b : Word} {z : Nat → Int}
    (hz : ∀ i, z i = if i < 16 / r.width then sLane (2 * r.width) a i else sLane (2 * r.width) b (i - 16 / r.width)) :
    ∃ x, packRes r a b = .placing x (decide (∃ i < 2 * (16 / r.width), ¬ fits r.width (z i))) false ∧
      ∀ i < 2 * (16 / r.width), sLane r.width x i = fitted r.width (r.sat i) (z i) := by
  have hn : 2 * (16 / r.width) = 32 / r.width := by
    obtain h | h := Record.width_of_narrow hl <;> rw [h]
  have hval : ∀ i, signed (2 * r.width) (if i < 16 / r.width then lane (2 * r.width) a i
      else lane (2 * r.width) b (i - 16 / r.width)) = z i := fun i => by
    rw [hz, apply_ite (signed (2 * r.width))]; rfl
  rw [hn]
  simp only [packRes, hval]
  exact ofLanes_fitted z

theorem unpkRes_lanes {r : Record} (hl : r.lanes = 1 ∨ r.lanes = 2) (a : Word) :
    ∃ x, unpkRes r a = .placing x false false ∧
      ∀ i < 16 / r.width, sLane (2 * r.width) x i =
        if r.xz then (lane r.width a (if r.xh then i + 16 / r.width else i) : Int)
        else sLane r.width a (if r.xh then i + 16 / r.width else i) := by
  have hw := Record.width_of_narrow hl
  have hn : 16 / r.width = 32 / (2 * r.width) := by obtain h | h := hw <;> rw [h]
  rw [hn]
  refine ofLanes_signed (by omega) (any_range_false fun _ _ => rfl) (any_range_false fun _ _ => rfl) fun i _ => ?_
  rw [hn]
  dsimp only
  generalize (if r.xh then i + 32 / (2 * r.width) else i) = j
  split
  · have hle : 2 ^ r.width ≤ 2 ^ (2 * r.width - 1) := Nat.pow_le_pow_right (by decide) (by omega)
    exact signed_of_lt (by omega) ((lane_lt _ a j).trans_le hle)
  · exact signed_plain (by omega) (fits_mono (by omega) (fits_signed r.width_pos _))

/-! ### Firings -/

section

variable {s t : State} {g h op lat : Nat} {v d : Bool} {P : Word → Prop}

/-- An operation on A whose result is known places it. -/
theorem places_A {f : Record → Word → WordRes} (hf : s.CanFire g h op [(s.recordOf g h).srcA])
    (hres : ∃ x, f (s.recordOf g h) (s.operand g h (s.recordOf g h).srcA) = .placing x v d ∧ P x) :
    ∃ x, s.Fired (fireA op lat f g h s) g h 1
      ((s.gal g).push (s.result g h lat x (decide (x = 0)) x.msb none v d)) ∧ P x :=
  hres.imp fun _ ⟨he, hp⟩ => ⟨fired_A hf he, hp⟩

/-- An operation on A and B whose result is known places it. -/
theorem places_AB {iv : Record → Nat} {f : Record → Word → Word → WordRes}
    (hf : s.CanFire g h op [(s.recordOf g h).srcA, (s.recordOf g h).srcB])
    (hres : ∃ x, f (s.recordOf g h) (s.operand g h (s.recordOf g h).srcA) (s.operand g h (s.recordOf g h).srcB) =
      .placing x v d ∧ P x) :
    ∃ x, s.Fired (fireAB op lat iv f g h s) g h (iv (s.recordOf g h))
      ((s.gal g).push (s.result g h lat x (decide (x = 0)) x.msb none v d)) ∧ P x :=
  hres.imp fun _ ⟨he, hp⟩ => ⟨fired_AB hf he, hp⟩

/-- A command answers the state in which its word is placed. -/
theorem next_places {i : Instr} {Q : State → Word → Prop} (hi : exec i s = .next t) (hq : ∃ x, Q t x) :
    ∃ t x, exec i s = .next t ∧ Q t x :=
  hq.elim fun x hx => ⟨t, x, hi, hx⟩

end

/-- Settles O3: one law per operation for its lanes, and the firing for all of them. -/
theorem laneChoicesShiftsAndCounts : Obligations.LaneChoicesShiftsAndCounts := by
  refine ⟨fun s g h => ⟨fun hf => ?_, fun hf => ?_, fun hf => ?_, fun hf => ?_⟩, fun s g h =>
    ⟨fun hf => ?_, fun hf => ?_, fun hf => ?_, fun hf => ?_, fun hf => ?_, fun hf => ?_⟩⟩
  · exact next_places rfl (places_AB hf (minRes_lanes ..))
  · exact next_places rfl (places_AB hf (maxRes_lanes ..))
  · obtain ⟨x, hres, hlanes⟩ := selRes_lanes (s.recordOf g h) (s.operand g h (s.recordOf g h).srcA)
      (s.operand g h (s.recordOf g h).srcB) (s.operand g h (s.recordOf g h).srcC)
    obtain ⟨t, hstep, hfired⟩ := fired_sel hf hres
    exact ⟨t, x, hstep, hfired, hlanes⟩
  · obtain ⟨x, hres, hlanes⟩ := cmpRes_lanes (s.recordOf g h) (s.operand g h (s.recordOf g h).srcA)
      (s.operand g h (s.recordOf g h).srcB) fun i => condHolds_eq_getD (Gallery.record_cond_lt ..) ..
    exact ⟨_, x, rfl, fired_AB hf hres, hlanes⟩
  · exact next_places rfl (places_AB hf (shlRes_lanes ..))
  · exact next_places rfl (places_AB hf (shrRes_lanes ..))
  · exact next_places rfl (places_AB hf (shraRes_lanes ..))
  · exact next_places rfl (places_AB hf (rotRes_lanes ..))
  · exact next_places rfl (places_A hf (clzRes_lanes ..))
  · exact next_places rfl (places_A hf (popcRes_lanes ..))

/-- Settles O4: the quotient, the remainder and the high product stay in their lanes, and the rest is fitted. -/
theorem highProductRoundingDivisionAndPacking : Obligations.HighProductRoundingDivisionAndPacking := by
  refine ⟨fun s g h => ⟨fun hf => ?_, fun hf => ?_, fun hf => ?_, fun hf => ?_⟩,
    fun s g h => fun hl => ⟨fun hf => ?_, fun hf => ?_⟩⟩
  · exact ⟨_, rfl, places_AB hf (mulhRes_lanes ..)⟩
  · exact ⟨_, rfl, places_A hf (rndRes_lanes ..)⟩
  · exact ⟨_, rfl, places_AB hf (divRes_lanes ..)⟩
  · exact ⟨_, rfl, places_AB hf (remRes_lanes ..)⟩
  · exact next_places rfl (places_AB hf (packRes_lanes hl fun _ => rfl))
  · exact next_places rfl (places_A hf (unpkRes_lanes hl _))

/-! ### Accumulation -/

theorem accWidth_pos (w : Nat) : 0 < accWidth w := by
  unfold accWidth
  split
  · decide
  · split <;> decide

/-- The exact sum of ACC lane `j` after a firing (R149). -/
def accSum (r : Record) (minus : Bool) (a b : Word) (acc : BitVec 72) (j : Nat) : Int :=
  accLane r.width acc j + (if minus then -1 else 1) * (sLane r.width a j * sLane r.width b j)

/-- The new ACC holds the fitted sums, and V says that one did not fit (R150). -/
theorem accumulate_lanes (r : Record) (minus : Bool) (a b : Word) (acc : BitVec 72) :
    ∃ new, accumulate r minus a b acc =
        (new, decide (∃ j < 32 / r.width, ¬ fits (accWidth r.width) (accSum r minus a b acc j))) ∧
      ∀ j < 32 / r.width, accLane r.width new j =
        fitted (accWidth r.width) (r.sat j) (accSum r minus a b acc j) := by
  have hsum : ∀ j, (if minus then accLane r.width acc j - signed r.width (lane r.width a j) * signed r.width (lane r.width b j)
      else accLane r.width acc j + signed r.width (lane r.width a j) * signed r.width (lane r.width b j)) =
      accSum r minus a b acc j := fun j => by
    cases minus
    · simp [accSum, sLane]
    · simp [accSum, sLane, Int.sub_eq_add_neg]
  simp only [accumulate, hsum]
  refine ⟨_, Prod.ext rfl (any_range fun _ _ => fit_v ..), fun j hj => ?_⟩
  rw [accLane_joinAcc r.width_cases _ hj, signed_fit (accWidth_pos _)]

/-- The dump holds the rounded lanes of ACC, saturated (R149, R151). -/
theorem dumpRes_lanes (r : Record) (acc : BitVec 72) :
    ∃ y, dumpRes r acc =
        .placing y (decide (∃ j < 32 / r.width, ¬ fits r.width (roundAway (accLane r.width acc j) r.sh))) false ∧
      ∀ j < 32 / r.width, sLane r.width y j = fitted r.width true (roundAway (accLane r.width acc j) r.sh) := by
  simp only [dumpRes, rnd_eq]
  exact ofLanes_signed r.width_cases (any_range fun _ _ => fit_v ..) (any_range_false fun _ _ => fit_d ..)
    fun _ _ => signed_fit r.width_pos ..

/-- A change of the firing hearth's gallery after a Fired step extends the step. -/
theorem State.Fired.modGal {s t : State} {g h iv : Nat} {y : Gallery} (hfired : s.Fired t g h iv y) {f : Gallery → Gallery}
    (hf : ∀ x b k, f { x with busy := b, hearths := k } = { f x with busy := b, hearths := k }) :
    s.Fired (t.modGal g f) g h iv (f y) := by
  obtain ⟨⟨hgals, hpars, hrest⟩, hgal, hcount⟩ := hfired
  refine ⟨⟨fun k hk => ?_, fun n hn => ?_, ?_⟩, ?_, ?_⟩
  · rw [State.gal_modGal_ne _ _ _ _ hk, hgals k hk]
  · rw [State.par_modGal, hpars n hn]
  · rw [hrest]; rfl
  · rw [State.gal_modGal_same, hgal, hf]
  · rw [← hcount]; simp only [State.pair, State.par_modGal]

/-- The gallery after a MAC or MSU firing: its effect in flight, ACC written, and the plane's record of live ACCs. -/
def Gallery.accumulated (x : Gallery) (h : Nat) (e : InFlight) (dump : Bool) (acc : BitVec 72) : Gallery :=
  { x.push e with
    acc := tabSet 0 x.acc (x.active * 128 + h) (if dump then 0 else acc)
    planes := tabMod Plane.reset x.planes x.active (fun q =>
      { q with accLive := putBit q.accLive h (!dump), accKept := false }) }

/-- A MAC or MSU firing on its way through the pipeline (R149). -/
theorem fired_macAct {s : State} {g h iv : Nat} {minus : Bool} {a b c : Word} {acc : BitVec 72} {v : Bool}
    (hacc : accumulate (s.recordOf g h) minus a b ((s.gal g).accOf (s.gal g).active h) = (acc, v)) :
    s.Fired (macAct minus g h (s.recordOf g h) a b c (s.firing g h iv)) g h iv
      ((s.gal g).accumulated h
        (macEffect h (s.gal g).active (s.recordOf g h) a ((s.recordOf g h).mout && c.getLsbD 0) acc v)
        ((s.recordOf g h).mout && c.getLsbD 0) acc) := by
  have hactive : ((s.firing g h iv).gal g).active = (s.gal g).active := by simp [State.firing]
  have hold : ((s.firing g h iv).gal g).accOf (s.gal g).active h = (s.gal g).accOf (s.gal g).active h := by
    simp [State.firing, Gallery.accOf]
  rw [← hold] at hacc
  rw [macAct_eq hactive hacc]
  exact State.Fired.modGal (fired_modGal s g h iv _ (fun _ _ _ => rfl)) (fun _ _ _ => rfl)

/-- MAC and MSU when R138 holds. -/
theorem exec_mac_or_msu {s : State} {g h : Nat} {minus : Bool}
    (hf : s.CanFire g h (if minus then 0x1B else 0x1A) (macSel (s.recordOf g h))) :
    exec (if minus then .msu g h else .mac g h) s =
      .next (macAct minus g h (s.recordOf g h) (s.operand g h (s.recordOf g h).srcA) (s.operand g h (s.recordOf g h).srcB)
        (s.operand g h (s.recordOf g h).srcC) (s.firing g h (mulInterval (s.recordOf g h)))) := by
  cases minus <;> exact congrArg Host.Outcome.next (fire_eq (iv := mulInterval) (room := fun _ => true) hf rfl)

theorem sticky_v_eq (v : Bool) : putBit 0#3 0 v = if v then 1 else 0 := by cases v <;> rfl

/-- What a firing that is not a dump puts in flight: A with MOUT 0, nothing with MOUT 1 (R149). -/
theorem macEffect_kept (h p : Nat) (r : Record) (a : Word) (acc : BitVec 72) (v : Bool) :
    macEffect h p r a false acc v =
      { hearth := h, plane := p, left := 1, result := if r.mout then none else some a,
        wb := if r.wb && !r.mout then some r.wreg else none, setZN := none, setC := none, sticky := if v then 1 else 0,
        fclr := r.fclr, regs := [] } := by
  cases hwb : r.wb <;> cases hmout : r.mout <;> simp [macEffect, Record.wbReg, sticky_v_eq, hwb, hmout]

/-- What a dump puts in flight, its word and V known (R149). -/
theorem macEffect_dump {h p : Nat} {r : Record} {acc : BitVec 72} {y : Word} {u d : Bool} (a : Word) (v : Bool)
    (hdump : dumpRes r acc = .placing y u d) :
    macEffect h p r a true acc v =
      { hearth := h, plane := p, left := 4, result := some y, wb := if r.wb then some r.wreg else none,
        setZN := some (decide (y = 0), y.msb), setC := none, sticky := if v || u then 1 else 0,
        fclr := r.fclr, regs := [] } := by
  simp [macEffect, Record.wbReg, sticky_v_eq, hdump, WordRes.placing]

/-- Settles O5: the sums are fitted into ACC, and the effect in flight is that of a dump or of a firing that keeps ACC. -/
theorem multiplyAccumulateAndDump : Obligations.MultiplyAccumulateAndDump := by
  intro s g h minus r w n aw x p a b i old sum big dump hf
  obtain ⟨acc, hacc, hlanes⟩ := accumulate_lanes r minus a b (x.accOf p h)
  obtain ⟨y, hres, hy⟩ := dumpRes_lanes r acc
  refine ⟨_, acc, macEffect h p r a dump acc big, exec_mac_or_msu hf, hlanes, fired_macAct hacc, rfl, rfl, rfl, rfl, rfl,
    fun hkept => ?_, fun hdump => ⟨y, ?_⟩⟩
  · rw [hkept, macEffect_kept]
    exact ⟨rfl, rfl, rfl, rfl, rfl⟩
  · rw [hdump, macEffect_dump a big hres]
    exact ⟨rfl, rfl, rfl, rfl, hy, rfl⟩

end Sys2Proof.Machine
end

section
/-!
PROOF of O14 (chapter 9): a fill carries the slot of its context into the plane, a spill the plane into the slot.  First
what `loadPlane` and `storePlane` make of each register, accumulator and flag, then the two commands around them.
-/

namespace Sys2Proof.Machine

/-! ### What a fill loads (Table 9.2) -/

/-- A block that is one row of a table with rows of `n` keys: the row reads as the block, the other rows as before. -/
theorem tabGet_tabBlock_row {α : Type} [DecidableEq α] (d : α) (t : Tab α) (f : Nat → α) {n i : Nat} (hi : i < n) (p k : Nat) :
    tabGet d (tabBlock d t (p * n) n f) (k * n + i) = if k = p then f i else tabGet d t (k * n + i) := by
  rw [tabGet_tabBlock]
  by_cases hk : k = p
  · subst hk
    rw [if_pos ⟨by omega, by omega⟩, if_pos rfl, Nat.add_sub_cancel_left]
  · have hout : ¬ (p * n ≤ k * n + i ∧ k * n + i < p * n + n) := by
      rcases Nat.lt_or_gt_of_ne hk with h | h
      · have : (k + 1) * n ≤ p * n := Nat.mul_le_mul_right n h
        rw [Nat.succ_mul] at this
        omega
      · have : (p + 1) * n ≤ k * n := Nat.mul_le_mul_right n h
        rw [Nat.succ_mul] at this
        omega
    rw [if_neg hout, if_neg hk]

/-- The accumulators of context `c` come with a fill: the descriptor says so and ACC_VALID is set. -/
def Gallery.fillsAcc (x : Gallery) (c : Nat) : Bool := (x.desc c).accUse && (x.desc c).accValid

section
variable (p c stamp : Nat) (unused : Bool) (x : Gallery)

theorem loadPlane_planeCfg (i : Nat) : memByte (loadPlane p c stamp unused x).planeCfg i =
    if 0x1800 * p ≤ i ∧ i < 0x1800 * (p + 1) then memByte x.store (0x4000 * c + (i - 0x1800 * p)) else memByte x.planeCfg i :=
  tabGet_tabBlock 0 x.planeCfg (cfgSize * p) cfgSize _ i

theorem loadPlane_reg (k : Nat) {h j : Nat} (hh : h < 128) (hj : j < 16) : (loadPlane p c stamp unused x).reg k h j =
    if k = p then memWord x.store (0x4000 * c + 0x1800 + 64 * h + 4 * j) else x.reg k h j := by
  have hkey : (k * 128 + h) * 16 + j = k * 2048 + (h * 16 + j) := by omega
  have haddr : 0x4000 * c + 0x1800 + 64 * h + 4 * j = slotSize * c + 0x1800 + 4 * (h * 16 + j) := by rw [slotSize]; omega
  rw [Gallery.reg, Gallery.reg, hkey, haddr]
  exact tabGet_tabBlock_row 0 x.regs _ (by omega) p k

theorem loadPlane_accOf (k : Nat) {h : Nat} (hh : h < 128) : (loadPlane p c stamp unused x).accOf k h =
    if k = p then (if x.fillsAcc c then BitVec.ofNat 72 (leNat (memRead x.store (0x4000 * c + 0x3800 + 16 * h) 9)) else 0)
    else x.accOf k h :=
  tabGet_tabBlock_row 0 x.acc _ hh p k

theorem loadPlane_flagsOf (k : Nat) {h : Nat} (hh : h < 128) : (loadPlane p c stamp unused x).flagsOf k h =
    if k = p then (memByte x.store (0x4000 * c + 0x3809 + 16 * h)).setWidth 6 else x.flagsOf k h :=
  tabGet_tabBlock_row 0 x.flags _ hh p k

end

/-! ### FILL_COMPLETE -/

/-- A fill changes only the sweep's notes about the places of its context (R386). -/
theorem noteCtxChanged_eq (g c : Nat) (s : State) : ∃ w, noteCtxChanged g c s = { s with sweep := w } := by
  unfold noteCtxChanged
  generalize List.range 12 = l
  induction l generalizing s with
  | nil => exact ⟨_, rfl⟩
  | cons i r ih => exact ih (noteChanged (65536 * g + 256 * c + i) s)

theorem noteCtxChanged_rest (g c : Nat) (s : State) :
    noteCtxChanged g c s = { s with sweep := (noteCtxChanged g c s).sweep } := by
  obtain ⟨w, hw⟩ := noteCtxChanged_eq g c s
  rw [hw]

@[simp] theorem gal_noteCtxChanged (g c k : Nat) (s : State) : (noteCtxChanged g c s).gal k = s.gal k := by
  obtain ⟨w, hw⟩ := noteCtxChanged_eq g c s
  rw [hw]; rfl

@[simp] theorem par_noteCtxChanged (g c n : Nat) (s : State) : (noteCtxChanged g c s).par n = s.par n := by
  obtain ⟨w, hw⟩ := noteCtxChanged_eq g c s
  rw [hw]; rfl

/-- A port that the engine gives back while nobody waits is free (R389). -/
theorem endFill_of_nobody_waits {g : Nat} {s : State} (hbusy : (s.gal g).portBusy = some .engine)
    (hwait : (s.gal g).portWait = []) : endFill g s = s.modGal g (fun x => { x with portBusy := none }) := by
  simp [endFill, State.holdsPort, freePort, portNext, pickWriter, hbusy, hwait]

/-- The gallery after a fill without an uncorrectable word, in cycle `stamp` (R165, R166). -/
def Gallery.filled (x : Gallery) (e : Transfer) (stamp : Nat) : Gallery :=
  { loadPlane e.plane e.ctx stamp (!e.demand) x with
    engine := none, portBusy := none, switchTo := if e.demand then some (e.plane, e.ctx) else x.switchTo }

/-- The state after a fill without an uncorrectable word. -/
def State.filled (s : State) (g : Nat) (e : Transfer) : State :=
  (noteCtxChanged g e.ctx ((s.count (galP g 0x73) 1).modGal g (fun x =>
      let x := loadPlane e.plane e.ctx s.clk.cyc (!e.demand) { x with engine := none }
      if e.demand then { x with switchTo := some (e.plane, e.ctx) } else x))).modGal g
    (fun x => { x with portBusy := none })

theorem exec_fillComplete {s : State} {g : Nat} {e : Transfer} (hclk : s.clocked = true) (he : (s.gal g).engine = some e)
    (hfill : e.fill = true) (hbad : e.bad = none) (hbusy : (s.gal g).portBusy = some .engine)
    (hwait : (s.gal g).portWait = []) : exec (.fillComplete g) s = .next (s.filled g e) := by
  show execFillComplete g s = _
  simp only [execFillComplete, hclk, he, hfill, hbad, Bool.not_true, Bool.false_eq_true, if_false]
  rw [endFill_of_nobody_waits]
  · rfl
  all_goals
    rw [gal_noteCtxChanged, State.gal_modGal_same, State.gal_count]
    split <;> assumption

theorem gal_filled_same (s : State) (g : Nat) (e : Transfer) : (s.filled g e).gal g = (s.gal g).filled e s.clk.cyc := by
  rw [State.filled, State.gal_modGal_same, gal_noteCtxChanged, State.gal_modGal_same, State.gal_count, Gallery.filled]
  cases e.demand <;> rfl

theorem gal_filled_ne (s : State) (e : Transfer) {g k : Nat} (hk : k ≠ g) : (s.filled g e).gal k = s.gal k := by
  rw [State.filled, State.gal_modGal_ne _ _ _ _ hk, gal_noteCtxChanged, State.gal_modGal_ne _ _ _ _ hk, State.gal_count]

theorem par_filled (s : State) (g n : Nat) (e : Transfer) : (s.filled g e).par n = (s.count (galP g 0x73) 1).par n := by
  rw [State.filled, State.par_modGal, par_noteCtxChanged, State.par_modGal]

theorem filled_rest (s : State) (g : Nat) (e : Transfer) : s.filled g e =
    { s with gals := (s.filled g e).gals, params := (s.filled g e).params, sweep := (s.filled g e).sweep } := by
  rw [State.filled, noteCtxChanged_rest]; rfl

/-! ### What a spill stores (R162, R164, Table 9.2) -/

/-- The accumulators of plane `p` go with a spill to context `c`: they are live and the descriptor says so (R164). -/
def Gallery.spillsAcc (x : Gallery) (p c : Nat) : Bool := decide ((x.plane p).accLive ≠ 0) && (x.desc c).accUse

section
variable (p c : Nat) (x : Gallery)

/-- The store while a spill has written the registers and not yet the accumulators and flags. -/
def Gallery.storeWithRegs : Memory :=
  if (x.plane p).dirty then
    tabBlock 0 x.store (slotSize * c + 0x1800) 0x2000 (fun i =>
      byteAt (leBytes 4 (tabGet 0 x.regs (p * 2048 + i / 4)).toNat) (i % 4))
  else x.store

theorem memByte_storeWithRegs_ne {i : Nat}
    (hi : i < 0x4000 * c + 0x1800 ∨ 0x4000 * c + 0x3800 ≤ i ∨ (x.plane p).dirty = false) :
    memByte (x.storeWithRegs p c) i = memByte x.store i := by
  unfold Gallery.storeWithRegs slotSize
  split
  next hdirty =>
    rw [hdirty] at hi
    exact (tabGet_tabBlock ..).trans (if_neg (by simp at hi; omega))
  next => rfl

/-- Below and above the accumulators and flags the slot reads as when the registers were written. -/
theorem memByte_storePlane_ne {i : Nat} (hi : i < 0x4000 * c + 0x3800 ∨ 0x4000 * c + 0x4000 ≤ i) :
    memByte (storePlane p c x).store i = memByte (x.storeWithRegs p c) i :=
  (tabGet_tabBlock ..).trans (if_neg (by unfold slotSize; omega))

/-- The byte `j` of hearth `h` in the slot's accumulators and flags. -/
theorem memByte_storePlane_hearth {h j : Nat} (hh : h < 128) (hj : j < 16) :
    memByte (storePlane p c x).store (0x4000 * c + 0x3800 + 16 * h + j) =
      if j < 9 then
        if x.spillsAcc p c then byteAt (leBytes 9 (x.accOf p h).toNat) j
        else memByte x.store (0x4000 * c + 0x3800 + 16 * h + j)
      else if j = 9 ∧ (x.plane p).dirty = true then (x.flagsOf p h).setWidth 8
      else memByte x.store (0x4000 * c + 0x3800 + 16 * h + j) := by
  have hoff : 0x4000 * c + 0x3800 + 16 * h + j - (slotSize * c + 0x3800) = 16 * h + j := by rw [slotSize]; omega
  have hdiv : (16 * h + j) / 16 = h := by omega
  have hmod : (16 * h + j) % 16 = j := by omega
  have hold : memByte (x.storeWithRegs p c) (slotSize * c + 0x3800 + (16 * h + j)) =
      memByte x.store (0x4000 * c + 0x3800 + 16 * h + j) := by
    rw [memByte_storeWithRegs_ne _ _ _ (by unfold slotSize; omega), slotSize, Nat.add_assoc _ (16 * h)]
  refine (tabGet_tabBlock ..).trans ((if_pos (by unfold slotSize; omega)).trans ?_)
  simp only [hoff, hdiv, hmod, Gallery.spillsAcc, Bool.and_eq_true, decide_eq_true_eq, ← hold]
  rfl

theorem memByte_storePlane_reg {h j b : Nat} (hdirty : (x.plane p).dirty = true) (hh : h < 128) (hj : j < 16) (hb : b < 4) :
    memByte (storePlane p c x).store (0x4000 * c + 0x1800 + 64 * h + 4 * j + b) =
      byteAt (leBytes 4 (x.reg p h j).toNat) b := by
  have hoff : 0x4000 * c + 0x1800 + 64 * h + 4 * j + b - (slotSize * c + 0x1800) = 64 * h + 4 * j + b := by rw [slotSize]; omega
  have hkey : p * 2048 + (64 * h + 4 * j + b) / 4 = (p * 128 + h) * 16 + j := by omega
  have hmod : (64 * h + 4 * j + b) % 4 = b := by omega
  rw [memByte_storePlane_ne _ _ _ (by omega), Gallery.storeWithRegs, if_pos hdirty]
  refine (tabGet_tabBlock ..).trans ((if_pos (by unfold slotSize; omega)).trans ?_)
  rw [hoff, hkey, hmod]
  rfl

theorem memByte_storePlane_flags {h : Nat} (hdirty : (x.plane p).dirty = true) (hh : h < 128) :
    memByte (storePlane p c x).store (0x4000 * c + 0x3809 + 16 * h) = (x.flagsOf p h).setWidth 8 := by
  rw [show 0x4000 * c + 0x3809 + 16 * h = 0x4000 * c + 0x3800 + 16 * h + 9 by omega,
    memByte_storePlane_hearth p c x hh (by omega), if_neg (by omega), if_pos ⟨rfl, hdirty⟩]

theorem memByte_storePlane_acc {h b : Nat} (hacc : x.spillsAcc p c = true) (hh : h < 128) (hb : b < 9) :
    memByte (storePlane p c x).store (0x4000 * c + 0x3800 + 16 * h + b) = byteAt (leBytes 9 (x.accOf p h).toNat) b := by
  rw [memByte_storePlane_hearth p c x hh (by omega), if_pos hb, if_pos hacc]

/-- What a spill leaves alone: outside registers, accumulators and flags everything; with clean registers those and the
flags; with accumulators that stay, all but the flags of their part. -/
theorem memByte_storePlane_kept {i : Nat}
    (hi : i < 0x4000 * c + 0x1800 ∨ 0x4000 * c + 0x4000 ≤ i ∨
      ((x.plane p).dirty = false ∧ (i < 0x4000 * c + 0x3800 ∨ 9 ≤ i % 16)) ∨
      (x.spillsAcc p c = false ∧ 0x4000 * c + 0x3800 ≤ i ∧ i % 16 ≠ 9)) :
    memByte (storePlane p c x).store i = memByte x.store i := by
  by_cases hpart : 0x4000 * c + 0x3800 ≤ i ∧ i < 0x4000 * c + 0x4000
  · obtain ⟨h, j, hh, hj, rfl⟩ : ∃ h j, h < 128 ∧ j < 16 ∧ i = 0x4000 * c + 0x3800 + 16 * h + j :=
      ⟨(i - (0x4000 * c + 0x3800)) / 16, i % 16, by omega, by omega, by omega⟩
    have hmod : (0x4000 * c + 0x3800 + 16 * h + j) % 16 = j := by omega
    rw [hmod] at hi
    rw [memByte_storePlane_hearth p c x hh hj]
    by_cases hacc : j < 9
    · rw [if_pos hacc, if_neg]
      intro hspills
      simp [hspills] at hi
      omega
    · rw [if_neg hacc, if_neg]
      rintro ⟨rfl, hdirty⟩
      simp [hdirty] at hi
      omega
  · rw [memByte_storePlane_ne _ _ _ (by omega), memByte_storeWithRegs_ne]
    rcases hi with hi | hi | ⟨hdirty, -⟩ | ⟨-, hlow, -⟩
    · exact .inl hi
    · exact .inr (.inl (by omega))
    · exact .inr (.inr hdirty)
    · exact .inr (.inl (by omega))

/-- The check bits of the words that a spill writes whole are sound. -/
theorem storeBad_storePlane (i : Nat) : tabGet Decay.sound (storePlane p c x).storeBad i =
    if ((x.plane p).dirty = true ∧ 0x4000 * c + 0x1800 ≤ 8 * i ∧ 8 * i < 0x4000 * c + 0x3800) ∨
        (x.spillsAcc p c = true ∧ 0x4000 * c + 0x3800 ≤ 8 * i ∧ 8 * i < 0x4000 * c + 0x4000)
    then .sound else tabGet Decay.sound x.storeBad i := by
  have hclear : ∀ (b : Bool) (t : Tab Decay) (lo n : Nat), tabGet Decay.sound (if b then tabClear t lo n else t) i =
      if b = true ∧ lo ≤ i ∧ i < lo + n then .sound else tabGet Decay.sound t i := by
    intro b t lo n
    cases b
    · simp
    · simp [tabGet_tabClear]
  refine (hclear (x.spillsAcc p c) _ _ _).trans ?_
  rw [hclear]
  by_cases hregs : (x.plane p).dirty = true ∧ 2048 * c + 0x300 ≤ i ∧ i < 2048 * c + 0x300 + 0x400
  · rw [if_pos hregs, ite_self, if_pos (.inl ⟨hregs.1, by omega, by omega⟩)]
  · rw [if_neg hregs]
    refine if_congr ⟨fun ⟨hacc, hlo, hhi⟩ => .inr ⟨hacc, by omega, by omega⟩, ?_⟩ rfl rfl
    rintro (⟨hdirty, hlo, hhi⟩ | ⟨hacc, hlo, hhi⟩)
    · exact absurd ⟨hdirty, by omega, by omega⟩ hregs
    · exact ⟨hacc, by omega, by omega⟩

end

/-! ### SPILL_COMPLETE -/

/-- The state after a spill. -/
def State.spilled (s : State) (g : Nat) (e : Transfer) : State :=
  (s.modGal g (fun x => storePlane e.plane e.ctx { x with engine := none })).count (galP g 0x74) 1

theorem exec_spillComplete {s : State} {g : Nat} {e : Transfer} (he : (s.gal g).engine = some e) (hspill : e.fill = false) :
    exec (.spillComplete g) s = .next (s.spilled g e) := by
  show execSpillComplete g s = _
  simp only [execSpillComplete, he, hspill, Bool.false_eq_true, if_false]
  rfl

theorem spilled_only (s : State) (g : Nat) (e : Transfer) : s.Only (s.spilled g e) g [galP g 0x74] := by
  refine ⟨fun k hk => ?_, fun n hn => ?_, rfl⟩
  · rw [State.spilled, State.gal_count, State.gal_modGal_ne _ _ _ _ hk]
  · rw [State.spilled, State.par_count_ne _ _ _ _ (List.ne_of_not_mem_cons hn), State.par_modGal]

theorem gal_spilled_same (s : State) (g : Nat) (e : Transfer) :
    (s.spilled g e).gal g = storePlane e.plane e.ctx { s.gal g with engine := none } := by
  rw [State.spilled, State.gal_count, State.gal_modGal_same]

/-- Settles O14: the fill law of each part of the plane, and the spill law of each part of the slot. -/
theorem fillsAndSpillsCarryTheContext : Obligations.FillsAndSpillsCarryTheContext := by
  constructor
  · intro s g e x p slot live hclk he hfill hbad hbusy hwait
    refine ⟨_, exec_fillComplete hclk he hfill hbad hbusy hwait, fun k hk => gal_filled_ne s e hk, filled_rest s g e,
      fun n hn => ?_, ?_, ?_⟩
    · rw [par_filled, State.par_count_ne _ _ _ _ hn]
    · rw [par_filled, toNat_count]
    · rw [gal_filled_same]
      have hreg := loadPlane_reg p e.ctx s.clk.cyc (!e.demand) x
      have hacc := loadPlane_accOf p e.ctx s.clk.cyc (!e.demand) x
      have hflags := loadPlane_flagsOf p e.ctx s.clk.cyc (!e.demand) x
      refine ⟨rfl, loadPlane_planeCfg p e.ctx s.clk.cyc (!e.demand) x, fun h hh =>
        ⟨fun j hj => ?_, ?_, ?_, fun k hk => ⟨?_, ?_, fun j hj => ?_⟩⟩⟩
      · exact (hreg p hh hj).trans (if_pos rfl)
      · exact (hacc p hh).trans (if_pos rfl)
      · exact (hflags p hh).trans (if_pos rfl)
      · exact (hacc k hh).trans (if_neg hk)
      · exact (hflags k hh).trans (if_neg hk)
      · exact (hreg k hh hj).trans (if_neg hk)
  · intro s g e x p slot dirty acc he hspill
    refine ⟨_, exec_spillComplete he hspill, spilled_only s g e, ?_, ?_⟩
    · rw [State.spilled, toNat_count, State.par_modGal]
    · rw [gal_spilled_same]
      exact ⟨rfl,
        fun h hh => ⟨fun hdirty =>
            ⟨fun j hj b hb => memByte_storePlane_reg _ _ _ hdirty hh hj hb, memByte_storePlane_flags _ _ _ hdirty hh⟩,
          fun hacc b hb => memByte_storePlane_acc _ _ _ hacc hh hb⟩,
        fun i hi => memByte_storePlane_kept _ _ _ hi, storeBad_storePlane _ _ _⟩

end Sys2Proof.Machine
end

section
/-!
PROOF of O8 and O11 (chapter 10): what the sequencer's instructions do.  An instruction that issues runs its effect on the
state whose issue is counted (`next_issue`); what is left for each is that this effect is the change of its row in
Table 10.2.
-/

namespace Sys2Proof.Machine

/-! ### An instruction that issues -/

section

variable {s : State} {g op last : Nat} {i : Instr} {transfers : Seq → Word → Bool}
  {bad : State → Seq → Word → Option Nat} {act : Nat → Word → State → State} {P : State → Prop}

/-- An instruction command answers the state its effect makes, when it can issue, is not faulty and does not run off the
store. -/
theorem next_issue (hexec : exec i s = .next (issue op transfers bad act g s)) (hi : s.Issues g op last)
    (hop : ¬ (op = 0xE ∨ op = 0xF ∨ 0x14 ≤ op)) (hl : last ≤ 1023)
    (hbad : bad s (s.gal g).seq (s.issueWord g) = none)
    (hlast : last ≤ 1022 ∨ transfers (s.gal g).seq (s.issueWord g) = true)
    (hact : P (act g (s.issueWord g) (markIssued g s))) : ∃ t, exec i s = .next t ∧ P t :=
  ⟨_, hexec, by rwa [issue_eq hi hop hl hbad hlast]⟩

/-- The same for an instruction below address 1,023, whether it transfers control or not. -/
theorem next_issue_below (hexec : exec i s = .next (issue op transfers bad act g s)) (hi : s.Issues g op 1022)
    (hop : ¬ (op = 0xE ∨ op = 0xF ∨ 0x14 ≤ op)) (hbad : bad s (s.gal g).seq (s.issueWord g) = none)
    (hact : P (act g (s.issueWord g) (markIssued g s))) : ∃ t, exec i s = .next t ∧ P t :=
  next_issue hexec hi hop (by decide) hbad (.inl le_rfl) hact

/-- The same for an instruction that transfers control, at any address of the store. -/
theorem next_issue_transfer (hexec : exec i s = .next (issue op transfers bad act g s)) (hi : s.Issues g op 1023)
    (hop : ¬ (op = 0xE ∨ op = 0xF ∨ 0x14 ≤ op)) (hbad : bad s (s.gal g).seq (s.issueWord g) = none)
    (htransfers : transfers (s.gal g).seq (s.issueWord g) = true)
    (hact : P (act g (s.issueWord g) (markIssued g s))) : ∃ t, exec i s = .next t ∧ P t :=
  next_issue hexec hi hop le_rfl hbad (.inr htransfers) hact

end

/-! ### RET, CLRF, WAIT and LOOP -/

/-- RET finds its return address on top of the stack. -/
theorem next_ret {s : State} {g a : Nat} {l : List Nat} (hi : s.Issues g 0x12 1023) (hstack : (s.gal g).seq.stack = l ++ [a]) :
    ∃ t, exec (.ret g) s = .next t ∧ s.Issued t g { (s.gal g).seq with pc := a, stack := l } :=
  next_issue_transfer rfl hi (by decide) (by simp [hstack]) rfl (issued_modSeq (by simp [hstack]))

/-- The latches that CLRF leaves: those its mask does not name, and those whose input rises in the same cycle (R183). -/
def Seq.clearedLatches (q : Seq) (m : Nat) : BitVec 20 :=
  (q.latches &&& ~~~BitVec.ofNat 20 m) ||| (q.latches &&& q.rising)

theorem hasBit_clearedLatches (q : Seq) (m : Nat) {i : Nat} (hi : i < 20) :
    hasBit (q.clearedLatches m) i =
      (hasBit q.latches i && (!bitOf m i || (hasBit q.inputs i && !hasBit q.prev i))) := by
  simp only [Seq.clearedLatches, hasBit, Seq.rising, bitOf_eq_testBit, BitVec.getLsbD_or, BitVec.getLsbD_and,
    BitVec.getLsbD_not, BitVec.getLsbD_ofNat, hi, decide_true, Bool.true_and, Bool.and_or_distrib_left]

theorem next_clrf {s : State} {g : Nat} (hi : s.Issues g 0xA 1022) : ∃ t, exec (.clrf g) s = .next t ∧
    s.Issued t g { (s.gal g).seq with
      pc := (s.gal g).seq.pc + 1, flags := (s.gal g).seq.flags &&& ~~~(s.issueWord g).setWidth 8
      latches := (s.gal g).seq.clearedLatches (fld (s.issueWord g) 27 8) } :=
  next_issue_below rfl hi (by decide) rfl (issued_modSeq rfl)

/-- WAIT with count 0 is done at once; else it waits. -/
theorem next_wait {s : State} {g : Nat} (hi : s.Issues g 0x3 1022) :
    ∃ t, exec (.wait g) s = .next t ∧ s.Issued t g (if fld (s.issueWord g) 27 0 = 0
      then { (s.gal g).seq with pc := (s.gal g).seq.pc + 1 }
      else { (s.gal g).seq with st := .waiting (fld (s.issueWord g) 27 0) }) := by
  refine next_issue_below rfl hi (by decide) rfl ?_
  by_cases hzero : fld (s.issueWord g) 27 0 = 0
  · rw [if_pos hzero, if_pos hzero]
    exact issued_modSeq rfl
  · rw [if_neg hzero, if_neg hzero]
    exact issued_modSeq rfl

/-- The value that LOOP tests (R185): what its counter holds, or its count less 1 where the counter is not loaded. -/
def loopValue (q : Seq) (w : Word) : Nat :=
  (tabGet none q.lc (fld w 11 10)).getD ((if fld w 23 12 = 0 then 4096 else fld w 23 12) - 1)

theorem loopStep_branches {q : Seq} {w : Word} (h : loopValue q w ≠ 0) : loopStep q w = (some (loopValue q w - 1), true) :=
  if_pos h

theorem loopStep_ends {q : Seq} {w : Word} (h : loopValue q w = 0) : loopStep q w = (none, false) :=
  if_neg (not_not.2 h)

/-- A LOOP that issues does what `loopStep` says. -/
theorem issued_loop {s : State} {g : Nat} {w : Word} {c : Option Nat} {b : Bool} (h : loopStep (s.gal g).seq w = (c, b)) :
    s.Issued ((markIssued g s).modSeq g (fun q =>
      { q with lc := tabSet none q.lc (fld w 11 10) (loopStep q w).1
               pc := if (loopStep q w).2 then fld w 9 0 else q.pc + 1 })) g
      { (s.gal g).seq with
        pc := if b then fld w 9 0 else (s.gal g).seq.pc + 1, lc := tabSet none (s.gal g).seq.lc (fld w 11 10) c } := by
  have hmarked : loopStep { (s.gal g).seq with issued := true, wdog := 0 } w = (c, b) := h
  exact issued_modSeq (by simp only [hmarked])

theorem next_loop_branches {s : State} {g : Nat} (hi : s.Issues g 0x7 1023)
    (hv : loopValue (s.gal g).seq (s.issueWord g) ≠ 0) : ∃ t, exec (.loop g) s = .next t ∧
      s.Issued t g { (s.gal g).seq with
        pc := fld (s.issueWord g) 9 0
        lc := tabSet none (s.gal g).seq.lc (fld (s.issueWord g) 11 10) (some (loopValue (s.gal g).seq (s.issueWord g) - 1)) } :=
  have hstep := loopStep_branches hv
  next_issue_transfer rfl hi (by decide) rfl (congrArg Prod.snd hstep) (issued_loop hstep)

theorem next_loop_ends {s : State} {g : Nat} (hi : s.Issues g 0x7 1022)
    (hv : loopValue (s.gal g).seq (s.issueWord g) = 0) : ∃ t, exec (.loop g) s = .next t ∧
      s.Issued t g { (s.gal g).seq with
        pc := (s.gal g).seq.pc + 1, lc := tabSet none (s.gal g).seq.lc (fld (s.issueWord g) 11 10) none } :=
  next_issue_below rfl hi (by decide) rfl (issued_loop (loopStep_ends hv))

/-- Settles O8: every row that only changes the sequencer is one `issued_modSeq`; RET, CLRF, WAIT and LOOP have their laws
above. -/
theorem sequencerStepsAndTransfers : Obligations.SequencerStepsAndTransfers := by
  intro s g q w
  refine ⟨fun hi => ?_, fun hi => ?_, fun hi l a hstack => next_ret hi hstack, fun hi => ?_, fun hi hroom => ?_, fun hi => ?_,
    fun hi => ?_, next_wait, ?_⟩
  · exact next_issue_below rfl hi (by decide) rfl (issued_modSeq rfl)
  · exact next_issue_below rfl hi (by decide) rfl (issued_modSeq rfl)
  · exact next_issue_transfer rfl hi (by decide) rfl rfl (issued_modSeq rfl)
  · exact next_issue_transfer rfl hi (by decide) (if_neg (Nat.not_le.2 hroom)) rfl (issued_modSeq rfl)
  · exact next_issue_below rfl hi (by decide) rfl (issued_modSeq rfl)
  · obtain ⟨t, hstep, hissued⟩ := next_clrf hi
    exact ⟨t, _, hstep, hissued, fun i hlt => hasBit_clearedLatches q _ hlt⟩
  · rintro v rfl
    exact ⟨next_loop_branches, next_loop_ends⟩

/-! ### FENCE -/

/-- The conditions of FENCE but for the held frames (R186). -/
theorem fenceMet_iff (x : Gallery) : x.fenceMet = true ↔
    (∀ k ∈ x.tapQ, ∀ r ∈ k.2, r.nowrite = true ∨ (r.granted = true ∧ r.beats ≤ r.done)) ∧ x.seq.dmas = [] ∧ x.transit = 0 := by
  simp [Gallery.fenceMet, and_assoc]

/-- An issue touches none of what FENCE looks at. -/
theorem fence_passes_markIssued (s : State) (g : Nat) :
    (((markIssued g s).gal g).fenceMet && ((markIssued g s).gal g).hold.isEmpty) =
      ((s.gal g).fenceMet && (s.gal g).hold.isEmpty) := by
  rw [gal_markIssued]; rfl

/-- The sequencer behind a FENCE: under a damper request it is damped (R190). -/
def State.fencePassed (s : State) (g : Nat) : Seq :=
  { (s.gal g).seq with pc := (s.gal g).seq.pc + 1, st := .issuing, damped := decide ((s.dom g).damper ≠ .openD) }

theorem fenceDone_eq (s : State) (g : Nat) : fenceDone g s = s.modSeq g (fun q =>
    { q with pc := q.pc + 1, st := .issuing, issued := true, damped := decide ((s.dom g).damper ≠ .openD) }) := rfl

theorem next_fence_passes {s : State} {g : Nat} (hi : s.Issues g 0x13 1022) (hmet : (s.gal g).fenceMet = true)
    (hhold : (s.gal g).hold = []) : ∃ t, exec (.fence g) s = .next t ∧ s.Issued t g (s.fencePassed g) := by
  refine next_issue_below rfl hi (by decide) rfl ?_
  rw [fence_passes_markIssued, if_pos (by simp [hmet, hhold]), fenceDone_eq]
  exact issued_modSeq rfl

theorem next_fence_stalls {s : State} {g : Nat} (hi : s.Issues g 0x13 1022)
    (hnot : ¬ (s.gal g).fenceMet = true ∨ (s.gal g).hold ≠ []) :
    ∃ t, exec (.fence g) s = .next t ∧ s.Issued t g { (s.gal g).seq with st := .fence } := by
  refine next_issue_below rfl hi (by decide) rfl ?_
  rw [fence_passes_markIssued, if_neg (by simpa [imp_iff_not_or] using hnot)]
  exact issued_modSeq rfl

/-- A change of the sequencer touches its gallery only. -/
theorem only_modSeq (s : State) (g : Nat) (f : Seq → Seq) : s.Only (s.modSeq g f) g [] where
  gals _ hk := State.gal_modSeq_ne _ _ _ _ hk
  params _ _ := State.par_modSeq ..
  rest := rfl

theorem next_fenceComplete {s : State} {g : Nat} (hlive : s.live g = true) (hst : (s.gal g).seq.st = .fence)
    (hissued : (s.gal g).seq.issued = false) (hdamped : (s.gal g).seq.damped = false) (hmet : (s.gal g).fenceMet = true)
    (hhold : (s.gal g).hold = []) : ∃ t, exec (.fenceComplete g) s = .next t ∧ s.Only t g [] ∧
      t.gal g = { s.gal g with seq := { s.fencePassed g with issued := true } } := by
  have hexec : exec (.fenceComplete g) s = .next (fenceDone g s) := by
    show execFenceComplete g s = _
    simp [execFenceComplete, hlive, hst, hissued, hdamped, hmet, hhold]
  rw [fenceDone_eq] at hexec
  exact ⟨_, hexec, only_modSeq .., State.gal_modSeq_same ..⟩

/-! ### EMIT and CAPT -/

/-- EMIT changes the pulse and, with bit 4 set, raises GAL_EMIT after it (R188). -/
theorem next_emit {s : State} {g : Nat} (hi : s.Issues g 0xB 1022) : ∃ t, exec (.emit g) s = .next t ∧
    (if (s.issueWord g).getLsbD 4 then s.raise (0x21 + 6 * g) [BitVec.ofNat 8 (fld (s.issueWord g) 12 5)] else s).Issued t g
      { (s.gal g).seq with
        pc := (s.gal g).seq.pc + 1, pulse := (s.gal g).seq.pulse ||| (s.issueWord g).setWidth 4 } := by
  refine next_issue_below rfl hi (by decide) rfl ?_
  have hevent : 0x20 + 6 * g + 1 = 0x21 + 6 * g := by omega
  simp only [State.raiseGal, hevent]
  split
  · exact (issued_modSeq rfl).raised
  · exact issued_modSeq rfl

/-- A request for a capture commutes with an issue. -/
theorem State.Issued.armed {s t : State} {g kind source srcGal : Nat} {gals : BitVec 16} {tick : Tick} {q : Seq}
    (h : s.Issued t g q) : (armCapture kind source gals tick srcGal s).Issued (armCapture kind source gals tick srcGal t) g q := by
  have hcapt : t.capt = s.capt := by rw [h.only.rest]
  unfold armCapture
  rw [hcapt]
  split
  · exact ⟨⟨h.only.gals, h.only.params, by rw [h.only.rest]⟩, h.gal, h.count⟩
  · exact ⟨⟨h.only.gals, h.only.params, by rw [h.only.rest]⟩, h.gal, h.count⟩

/-- CAPT of a kind that exists asks for a capture of its own gallery (R189). -/
theorem next_capt {s : State} {g : Nat} (hi : s.Issues g 0xC 1022) (hkind : fld (s.issueWord g) 1 0 ≤ 1) :
    ∃ t, exec (.capt g) s = .next t ∧
      (armCapture (fld (s.issueWord g) 1 0) 1 (1#16 <<< g)
        (s.clk.tick + BitVec.ofNat 64 (16 + fld (s.issueWord g) 21 2)) g s).Issued t g
        { (s.gal g).seq with pc := (s.gal g).seq.pc + 1 } :=
  next_issue_below rfl hi (by decide) (if_neg (by omega)) ((issued_markIssued s g).armed.modSeq rfl)

theorem armCapture_eq (kind source srcGal : Nat) (gals : BitVec 16) (tick : Tick) (s : State) :
    armCapture kind source gals tick srcGal s = { s with capt := if s.capt.st = 0
      then { s.capt with
        st := 1, kind := kind, source := source, gals := gals, srcGal := srcGal, armTick := tick, perGal := [], shadows := [] }
      else { s.capt with dropped := Min.min 255 (s.capt.dropped + 1) } } := by
  unfold armCapture
  split <;> rfl

/-! ### DMA -/

/-- A valid descriptor (R187): its address, its size and its end in stream memory. -/
theorem badDesc_eq_false {q : Seq} {a : Nat} (h : a % 4 = 0 ∧ a ≤ 1020 ∧ fld (q.word a) 31 18 ≠ 0 ∧
    16 * (fld (q.word a) 16 0 + fld (q.word a) 31 18) ≤ 2 ^ 21) : badDesc q a = false := by
  obtain ⟨haligned, hinside, hunits, hend⟩ := h
  have hplace : ¬ (a % 4 ≠ 0 ∨ 1020 < a) := by omega
  simp only [badDesc, hplace, hunits, Nat.not_lt.2 hend, decide_false, Bool.or_false]

/-- The sequencer after a DMA has started the transfer of the descriptor that its word names. -/
def State.dmaStarted (s : State) (g : Nat) : Seq :=
  let q := (s.gal g).seq
  { q with
    dmas := q.dmas ++ [dmaOf q.nextDma (q.desc (fld (s.issueWord g) 9 0))], nextDma := q.nextDma + 1, pc := q.pc + 1
    st := .issuing }

/-- A DMA that issues starts a transfer or stalls by how many are in flight before it. -/
theorem next_dma {s : State} {g : Nat} {q : Seq} (hi : s.Issues g 0xD 1022)
    (hbad : (s.gal g).seq.dmas.length < 2 → badDesc (s.gal g).seq (fld (s.issueWord g) 9 0) = false)
    (hissued : s.Issued (if (s.gal g).seq.dmas.length < 2 then startDma g (s.issueWord g) (markIssued g s)
      else (markIssued g s).modSeq g (fun q => { q with st := .dmaStall })) g q) :
    ∃ t, exec (.dma g) s = .next t ∧ s.Issued t g q := by
  obtain ⟨-, -, -, hst⟩ := canIssue_issuing hi.can
  refine next_issue_below (congrArg Host.Outcome.next (if_neg ?_)) hi (by decide) ?_ ?_
  · simp [hst]
  · exact if_neg fun ⟨hroom, hfaulty⟩ => by simp [hbad hroom] at hfaulty
  · simpa [gal_markIssued] using hissued

/-- A stalled DMA issues once one of the two transfers has ended. -/
theorem next_dma_stalled {s : State} {g : Nat} (hlive : s.live g = true) (hst : (s.gal g).seq.st = .dmaStall)
    (hissued : (s.gal g).seq.issued = false) (hdamped : (s.gal g).seq.damped = false)
    (hbad : badDesc (s.gal g).seq (fld (s.issueWord g) 9 0) = false) (hroom : (s.gal g).seq.dmas.length < 2) :
    ∃ t, exec (.dma g) s = .next t ∧ s.Issued t g (s.dmaStarted g) := by
  refine ⟨startDma g (s.issueWord g) (markIssued g s), ?_, issued_modSeq rfl⟩
  rw [State.issueWord] at hbad
  show execDma g s = _
  simp [execDma, hlive, hst, hissued, hdamped, hbad, hroom, State.issueWord]

/-! ### DMA_COMPLETE -/

/-- A parameter written after a step joins its frame. -/
theorem State.Only.putPar {s t : State} {g : Nat} {ps : List Nat} (h : s.Only t g ps) (n : Nat) (v : Word) :
    s.Only (t.putPar n v) g (n :: ps) where
  gals k hk := (State.gal_putPar ..).trans (h.gals k hk)
  params m hm := by
    obtain ⟨hn, hps⟩ := List.ne_and_not_mem_of_not_mem_cons hm
    rw [State.par_putPar_ne _ _ _ _ hn, h.params m hps]
  rest := by rw [h.rest]; rfl

/-- The sequencer without the transfer of number `d`, with flag `f`, if the descriptor names one, set. -/
def Seq.dmaEnded (q : Seq) (d : Nat) (f : Option Nat) : Seq :=
  { q with
    dmas := q.dmas.filter (fun y => !decide (y.id = d)), flags := match f with | some n => putBit q.flags n true | none => q.flags }

theorem setFlag_eq_dmaEnded (q : Seq) (d : Nat) (f : Option Nat) :
    setFlag f { q with dmas := q.dmas.filter (fun y => !decide (y.id = d)) } = q.dmaEnded d f := by
  cases f <;> rfl

theorem exec_dmaComplete {s : State} {g d : Nat} {x : Dma}
    (hfind : (s.gal g).seq.dmas.find? (fun y => decide (y.id = d)) = some x) :
    exec (.dmaComplete g d) s = .next
      (if x.failed then (s.modSeq g (fun q => q.dmaEnded d x.errFlag)).count (galP g 0x08) 1
       else if x.units = 0 ∧ x.waiting = 0 ∧ x.queued s g = false then
         (s.modSeq g (fun q => q.dmaEnded d x.doneFlag)).tally (galP g 0x9F) 1
       else s) := by
  show execDmaComplete g d s = _
  simp only [execDmaComplete, hfind, setFlag_eq_dmaEnded]

/-- A transfer from the mesh has no WRITE under way, and none is under way where no packet stands ready. -/
theorem Dma.queued_eq_false {x : Dma} {s : State} (g : Nat) (h : x.toMesh = false ∨ s.mesh.ready = []) :
    x.queued s g = false := by
  rcases h with h | h <;> simp [Dma.queued, h]

theorem next_dmaComplete_failed {s : State} {g d : Nat} {x : Dma}
    (hfind : (s.gal g).seq.dmas.find? (fun y => decide (y.id = d)) = some x) (hfailed : x.failed = true) :
    ∃ t, exec (.dmaComplete g d) s = .next t ∧ s.Only t g [galP g 0x08] ∧
      t.gal g = { s.gal g with seq := (s.gal g).seq.dmaEnded d x.errFlag } ∧
      (t.par (galP g 0x08)).toNat = Min.min 0xFFFFFFFF ((s.par (galP g 0x08)).toNat + 1) := by
  refine ⟨_, (exec_dmaComplete hfind).trans (congrArg _ (if_pos hfailed)), (only_modSeq ..).putPar .., ?_, ?_⟩
  · rw [State.gal_count, State.gal_modSeq_same]
  · rw [toNat_count, State.par_modSeq]

theorem next_dmaComplete_done {s : State} {g d : Nat} {x : Dma}
    (hfind : (s.gal g).seq.dmas.find? (fun y => decide (y.id = d)) = some x) (hfailed : x.failed = false) (hunits : x.units = 0)
    (hwaiting : x.waiting = 0) (hqueued : x.queued s g = false) :
    ∃ t, exec (.dmaComplete g d) s = .next t ∧ s.Only t g [galP g 0x9F] ∧
      t.gal g = { s.gal g with seq := (s.gal g).seq.dmaEnded d x.doneFlag } ∧
      t.par (galP g 0x9F) = s.par (galP g 0x9F) + 1 := by
  refine ⟨(s.modSeq g (fun q => q.dmaEnded d x.doneFlag)).tally (galP g 0x9F) 1, ?_, (only_modSeq ..).putPar .., ?_, ?_⟩
  · simp [exec_dmaComplete hfind, hfailed, hunits, hwaiting, hqueued]
  · rw [State.gal_tally, State.gal_modSeq_same]
  · rw [State.par_tally_same, State.par_modSeq]; rfl

/-- Settles O11: one law for each way that FENCE, EMIT, CAPT, DMA and DMA_COMPLETE end. -/
theorem fenceEmitCaptureAndDma : Obligations.FenceEmitCaptureAndDma := by
  constructor
  · intro s g x q w met passed
    have hmet : x.fenceMet = true ↔ met := fenceMet_iff x
    refine ⟨fun hi h hhold => next_fence_passes hi (hmet.2 h) hhold, fun hi h => next_fence_stalls hi (by rwa [hmet]),
      fun hlive hst hissued hdamped h hhold => next_fenceComplete hlive hst hissued hdamped (hmet.2 h) hhold, next_emit,
      fun hi hkind => ?_⟩
    obtain ⟨t, hstep, hissued⟩ := next_capt hi hkind
    exact ⟨t, hstep, by rwa [armCapture_eq] at hissued⟩
  · intro s g q a d0 d2 d3 valid dma started flagged
    refine ⟨fun hi hvalid hroom => ?_, fun hi hfull => ?_, fun hlive hst hissued hdamped hvalid hroom =>
      next_dma_stalled hlive hst hissued hdamped (badDesc_eq_false hvalid) hroom, fun d x hfind =>
      ⟨next_dmaComplete_failed hfind, fun hfailed hunits hwaiting hmesh =>
        next_dmaComplete_done hfind hfailed hunits hwaiting (Dma.queued_eq_false g hmesh)⟩⟩
    · refine next_dma hi (fun _ => badDesc_eq_false hvalid) ?_
      rw [if_pos hroom]
      exact issued_modSeq rfl
    · have hnoroom : ¬ (s.gal g).seq.dmas.length < 2 := Nat.not_lt.2 hfull
      refine next_dma hi (fun hroom => absurd hroom hnoroom) ?_
      rw [if_neg hnoroom]
      exact issued_modSeq rfl

end Sys2Proof.Machine
end

section
/-!
PROOF of O17 (chapter 12): who a bank decision grants.  A request above all others of the vector wins (`pickReq_eq_some`);
what a grant leaves (`gal_grantReq`, `State.Only.grantReq`) serves the decisions and the parked grants alike.
-/

namespace Sys2Proof.Machine

/-! ### The winner (R211, R213) -/

/-- In a decision, `q` stands below `w`: assay stands below every other requester, and the rest go by effective priority,
the higher index below on a tie. -/
def State.Below (s : State) (g : Nat) (q w : BankReq) : Prop :=
  w.requester ≠ 34 ∧
    (q.requester = 34 ∨ s.effPrio g q < s.effPrio g w ∨ (s.effPrio g q = s.effPrio g w ∧ w.requester < q.requester))

/-- Away from assay the effective priority is base plus losses, capped (R211). -/
theorem effPrio_of_ne {s : State} {g : Nat} {q : BankReq} (h : q.requester ≠ 34) :
    s.effPrio g q = min 7 (s.basePrio g q.requester + q.losses) := if_neg h

theorem pickReq_mem {s : State} {g : Nat} {v : List BankReq} {w : BankReq} (h : pickReq s g v = some w) : w ∈ v := by
  induction v with
  | nil => cases h
  | cons q r ih =>
    rw [pickReq] at h
    split at h
    next => exact Option.some.inj h ▸ List.mem_cons_self
    next u hu =>
      have hor : q = w ∨ u = w := by
        split_ifs at h <;> simp_all
      obtain rfl | rfl := hor
      · exact List.mem_cons_self
      · exact List.mem_cons_of_mem _ (ih hu)

/-- A request above all others wins. -/
theorem pickReq_eq_some {s : State} {g : Nat} {v : List BankReq} {w : BankReq} (hw : w ∈ v)
    (hbelow : ∀ q ∈ v, q ≠ w → s.Below g q w) : pickReq s g v = some w := by
  induction v with
  | nil => cases hw
  | cons q r ih =>
    have hrest : ∀ u ∈ r, u ≠ w → s.Below g u w := fun u hu => hbelow u (List.mem_cons_of_mem _ hu)
    rw [pickReq]
    by_cases hwr : w ∈ r
    · rw [ih hwr hrest]
      by_cases hq : q = w
      · simp [hq]
      · obtain ⟨hw34, hq34 | hlt | ⟨heq, hidx⟩⟩ := hbelow q List.mem_cons_self hq
        · simp [hq34]
        · simp [hw34, Nat.not_lt.2 hlt.le, hlt.ne']
        · simp [hw34, heq, Nat.not_lt.2 hidx.le]
    · obtain rfl : w = q := (List.mem_cons.1 hw).resolve_right hwr
      cases hr : pickReq s g r with
      | none => rfl
      | some u =>
        have hu : u ∈ r := pickReq_mem hr
        obtain ⟨hw34, hu34 | hlt | htie⟩ := hrest u hu (fun h => hwr (h ▸ hu))
        · simp [hw34, hu34]
        · simp [hw34, hlt]
        · simp [hw34, htie]

/-- What a decision in cycle `d` sees (R209). -/
theorem mem_vector {x : Gallery} {b d : Nat} {q : BankReq} :
    q ∈ x.vector b d ↔ q ∈ x.requests ∧ q.bank = b ∧ q.raised < d ∧ ∀ c, q.withdrawn = some c → d ≤ c := by
  cases hq : q.withdrawn <;> simp [Gallery.vector, hq, and_assoc]

/-- A bank without a burst, or with the last beat of one in transfer, is free in the next cycle (R209). -/
theorem lastBeat_of_free {x : Gallery} {b d : Nat}
    (h : (x.bank b).burst = none ∨ ∃ r first, (x.bank b).burst = some (r, first, 1) ∧ first ≤ d ∧
      (32 ≤ r ∨ ∀ q ∈ x.tap r, q.granted = true → q.load = true)) : x.lastBeat b d = true := by
  rw [Gallery.lastBeat]
  obtain hidle | ⟨r, first, hburst, hfirst, hmesh | hloads⟩ := h
  · rw [hidle]
  · rw [hburst]
    simp only [hfirst, hmesh, decide_true, Bool.true_or, and_self, Bool.true_and]
    split <;> rfl
  · have hopen : (x.tap r).find? (fun q => q.granted && !q.load) = none := by
      simpa [List.find?_eq_none] using hloads
    simp [hburst, hopen, hfirst]

/-! ### A grant (R209, R210) -/

/-- A change of the gallery joins the frame of a step. -/
theorem State.Only.modGal {s t : State} {g : Nat} {ps : List Nat} (h : s.Only t g ps) (f : Gallery → Gallery) :
    s.Only (t.modGal g f) g ps where
  gals k hk := (State.gal_modGal_ne _ _ _ _ hk).trans (h.gals k hk)
  params n hn := (State.par_modGal ..).trans (h.params n hn)
  rest := by rw [h.rest]; rfl

theorem State.Only.refl (s : State) (g : Nat) : s.Only s g [] := ⟨fun _ _ => rfl, fun _ _ => rfl, rfl⟩

theorem State.Only.noteMax {s t : State} {g : Nat} {ps : List Nat} (h : s.Only t g ps) (n v req : Nat) :
    s.Only (noteMax n v req t) g (n :: ps) := by
  simp only [Machine.noteMax]
  split
  · exact h.putPar ..
  · exact ⟨h.gals, fun m hm => h.params m (List.not_mem_of_not_mem_cons hm), h.rest⟩

theorem gal_noteMax (n v req : Nat) (s : State) (k : Nat) : (noteMax n v req s).gal k = s.gal k := by
  simp only [noteMax]
  split
  · exact State.gal_putPar ..
  · rfl

/-- The gallery after bank `b` has granted `q` in cycle `d`. -/
def Gallery.granting (x : Gallery) (b d : Nat) (q : BankReq) : Gallery :=
  { x with
    requests := x.requests.erase q
    banks := tabSet Bank.reset x.banks b
      { burst := some (q.requester, d + 1, q.beats), park := if q.requester = 34 then (x.bank b).park else some q.requester }
    tapQ := if q.requester < 32 then tabSet [] x.tapQ q.requester (grantTap (x.tap q.requester)) else x.tapQ }

theorem gal_grantReq (g b : Nat) (q : BankReq) (s : State) :
    (grantReq g b q s).gal g = (s.gal g).granting b s.clk.cyc q := by
  rw [grantReq, State.gal_modGal_same, gal_noteMax, Gallery.granting]
  by_cases h : q.requester < 32 <;> simp [h] <;> rfl

/-- A grant touches its gallery and the longest wait. -/
theorem State.Only.grantReq {s t : State} {g : Nat} {ps : List Nat} (h : s.Only t g ps) (b : Nat) (q : BankReq) :
    s.Only (grantReq g b q t) g (galP g 0x9A :: ps) := (h.noteMax ..).modGal _

theorem tap_granting_ne (x : Gallery) (b d : Nat) {q : BankReq} {n : Nat} (h : n ≠ q.requester) :
    (x.granting b d q).tap n = x.tap n := by
  simp only [Gallery.tap, Gallery.granting]
  split
  · exact tabGet_tabSet_ne _ _ _ _ _ h
  · rfl

theorem tap_granting_same (x : Gallery) (b d : Nat) {q : BankReq} (h : q.requester < 32) :
    (x.granting b d q).tap q.requester = grantTap (x.tap q.requester) := by
  simp only [Gallery.tap, Gallery.granting, if_pos h, tabGet_tabSet_same]

/-- A tap's first request that is not granted is the one a grant takes (R154, R155). -/
theorem grantTap_append {l : List TapReq} {q : TapReq} (hl : ∀ r ∈ l, r.granted = true) (hq : q.granted = false)
    (l' : List TapReq) : grantTap (l ++ q :: l') = l ++ { q with granted := true } :: l' := by
  induction l with
  | nil => simp [grantTap, hq]
  | cons r l ih =>
    obtain ⟨hr, hrest⟩ := List.forall_mem_cons.1 hl
    simp [grantTap, hr, ih hrest]

/-! ### The decision -/

/-- A request after a decision for `w` from vector `v`: every other one of the vector has lost once more (R211). -/
def BankReq.afterDecision (v : List BankReq) (w q : BankReq) : BankReq :=
  if v.contains q && !decide (q = w) then { q with losses := q.losses + 1 } else q

/-- The state in which the losses of a decision of gallery `g` are counted. -/
def State.charged (t : State) (g : Nat) (v : List BankReq) (w : BankReq) : State :=
  t.modGal g (fun y => { y with requests := y.requests.map (BankReq.afterDecision v w) })

/-- The state in which the withdrawn winner of a decision has had its stale grant, counted in GAL_MEM_STALE (R209). -/
def State.staleGrant (t : State) (g : Nat) (w : BankReq) : State :=
  (t.modGal g (fun y => { y with requests := y.requests.erase w })).count (galP g 0x99) 1

theorem State.Only.charged {s t : State} {g : Nat} {ps : List Nat} (h : s.Only t g ps) (v : List BankReq) (w : BankReq) :
    s.Only (t.charged g v w) g ps := h.modGal _

theorem gal_charged (t : State) (g : Nat) (v : List BankReq) (w : BankReq) :
    (t.charged g v w).gal g = { t.gal g with requests := (t.gal g).requests.map (BankReq.afterDecision v w) } :=
  State.gal_modGal_same ..

theorem State.Only.staleGrant {s t : State} {g : Nat} {ps : List Nat} (h : s.Only t g ps) (w : BankReq) :
    s.Only (t.staleGrant g w) g (galP g 0x99 :: ps) := (h.modGal _).putPar ..

theorem gal_staleGrant (t : State) (g : Nat) (w : BankReq) :
    (t.staleGrant g w).gal g = { t.gal g with requests := (t.gal g).requests.erase w } := by
  rw [State.staleGrant, State.gal_count, State.gal_modGal_same]

theorem toNat_par_staleGrant (t : State) (g : Nat) (w : BankReq) :
    ((t.staleGrant g w).par (galP g 0x99)).toNat = min 0xFFFFFFFF ((t.par (galP g 0x99)).toNat + 1) := by
  rw [State.staleGrant, toNat_count, State.par_modGal]

theorem cyc_of_noteMem {s t : State} {g b : Nat} {ups : List Upset} (ht : noteMem g b ups s = t) :
    t.clk.cyc = s.clk.cyc := by
  rw [← ht]; rfl

section
variable {s t : State} {g b : Nat} {ups : List Upset} {w : BankReq} (ht : noteMem g b ups s = t)
  (hclk : t.clocked = true) (hon : (t.dom g).st = .on) (hfree : (t.gal g).lastBeat b t.clk.cyc = true)
include ht hclk hon hfree

/-- A decision with a winner: the others lose, and a winner that was withdrawn has a stale grant (R209, R211). -/
theorem exec_bankDecision_picks (hpick : pickReq t g ((t.gal g).vector b t.clk.cyc) = some w) :
    exec (.bankDecision g b ups) s = .next (
      if w.withdrawn.isSome then (t.charged g ((t.gal g).vector b t.clk.cyc) w).staleGrant g w
      else grantReq g b w (t.charged g ((t.gal g).vector b t.clk.cyc) w)) := by
  show execBankDecision g b ups s = _
  simp only [execBankDecision, ht, ← cyc_of_noteMem ht, hclk, hon, hfree, hpick]
  rfl

/-- A decision that sees no request grants a request that the park owner raises in its cycle (R210). -/
theorem exec_bankDecision_parks (hpick : pickReq t g ((t.gal g).vector b t.clk.cyc) = none)
    (hpark : ((t.gal g).bank b).park = some w.requester)
    (hfind : (t.gal g).requests.find? (fun q =>
      decide (q.bank = b ∧ q.requester = w.requester ∧ q.raised = t.clk.cyc) && q.withdrawn.isNone) = some w) :
    exec (.bankDecision g b ups) s = .next (grantReq g b w t) := by
  show execBankDecision g b ups s = _
  simp only [execBankDecision, ht, ← cyc_of_noteMem ht, hclk, hon, hfree, hpick, hpark, hfind]
  rfl

theorem exec_bankDecision_idles (hpick : pickReq t g ((t.gal g).vector b t.clk.cyc) = none)
    (hpark : ((t.gal g).bank b).park = none) : exec (.bankDecision g b ups) s = .next t := by
  show execBankDecision g b ups s = _
  simp only [execBankDecision, ht, ← cyc_of_noteMem ht, hclk, hon, hfree, hpick, hpark]
  rfl

end

/-- Settles O17: the winner is the request above all others, and what a grant leaves is said once for decisions and parked
grants. -/
theorem bankDecisionPicksTheOwner : Obligations.BankDecisionPicksTheOwner := by
  intro s g b ups w x k bad seen base prio below granted hclk hon hfree
  obtain ⟨t, ht⟩ : ∃ t, noteMem g b ups s = t := ⟨_, rfl⟩
  have honly : s.Only t g [] := ht ▸ (State.Only.refl s g).modGal _
  have hgal : t.gal g = { x with memBad := bad } := ht ▸ State.gal_modGal_same ..
  have hcyc : t.clk.cyc = s.clk.cyc := cyc_of_noteMem ht
  have hclk' : t.clocked = true := by rw [honly.rest]; exact hclk
  have hon' : (t.dom g).st = .on := by rw [honly.rest]; exact hon
  have hlast : (t.gal g).lastBeat b t.clk.cyc = true := by
    rw [hgal, hcyc]; exact lastBeat_of_free hfree
  have hseen : ∀ q, q ∈ (t.gal g).vector b t.clk.cyc ↔ q ∈ x.requests ∧ seen q := fun q => by
    rw [mem_vector, hgal, hcyc]
  have hprio : ∀ q : BankReq, q.requester ≠ 34 → t.effPrio g q = prio q := fun q hq => by
    rw [effPrio_of_ne hq]
    simp [State.basePrio, honly.params, prio, base]
  have hgrant : ∀ (u : State) (l : List BankReq), s.Only u g [] → u.gal g = { x with memBad := bad, requests := l } →
      granted (grantReq g b w u) (l.erase w) := by
    intro u l hu hy
    have hcyc' : u.clk.cyc = s.clk.cyc := by rw [hu.rest]
    have hafter : (grantReq g b w u).gal g = (u.gal g).granting b s.clk.cyc w := hcyc' ▸ gal_grantReq ..
    refine ⟨hu.grantReq b w, ?_, fun n hn => ?_, fun q l l' hw htap hq hl => ?_⟩
    · rw [hafter, hy]; rfl
    · rw [hafter, tap_granting_ne _ _ _ hn, hy]; rfl
    · have htap' : (u.gal g).tap w.requester = l ++ q :: l' := by rw [hy]; exact htap
      rw [hafter, tap_granting_same _ _ _ hw, htap', grantTap_append hl hq]
  constructor
  · intro hw hsees hbelow lost
    have hpick : pickReq t g ((t.gal g).vector b t.clk.cyc) = some w := by
      refine pickReq_eq_some ((hseen w).2 ⟨hw, hsees⟩) fun q hq hne => ?_
      obtain ⟨hmem, hq⟩ := (hseen q).1 hq
      obtain ⟨hw34, hrank⟩ := hbelow q hmem hq hne
      refine ⟨hw34, ?_⟩
      by_cases hq34 : q.requester = 34
      · exact .inl hq34
      · rwa [hprio q hq34, hprio w hw34]
    have hlost : x.requests.map (BankReq.afterDecision ((t.gal g).vector b t.clk.cyc) w) = lost := by
      refine List.map_congr_left fun q hq => ?_
      simp [BankReq.afterDecision, hseen, hq]
    have hcharged := honly.charged ((t.gal g).vector b t.clk.cyc) w
    have hlosers : (t.charged g ((t.gal g).vector b t.clk.cyc) w).gal g = { x with memBad := bad, requests := lost } := by
      rw [gal_charged, ← hlost, hgal]
    have hexec := exec_bankDecision_picks ht hclk' hon' hlast hpick
    refine ⟨fun hstays => ?_, fun hgone => ?_⟩
    · rw [if_neg (by simp [hstays])] at hexec
      exact ⟨_, hexec, hgrant _ lost hcharged hlosers⟩
    · rw [if_pos (Option.isSome_iff_ne_none.2 hgone)] at hexec
      refine ⟨_, hexec, hcharged.staleGrant w, ?_, ?_⟩
      · rw [gal_staleGrant, hlosers]
      · rw [toNat_par_staleGrant, hcharged.params _ (List.not_mem_nil)]
  · intro hnone
    have hpick : pickReq t g ((t.gal g).vector b t.clk.cyc) = none := by
      rw [List.eq_nil_iff_forall_not_mem.2 fun q hq => hnone q ((hseen q).1 hq).1 ((hseen q).1 hq).2]
      rfl
    refine ⟨fun hpark hfind => ⟨_, ?_, hgrant t x.requests honly hgal⟩, fun hpark => ⟨t, ?_, honly, hgal⟩⟩
    · refine exec_bankDecision_parks ht hclk' hon' hlast hpick ?_ ?_
      · rw [hgal]; exact hpark
      · rw [hgal, hcyc]; exact hfind
    · refine exec_bankDecision_idles ht hclk' hon' hlast hpick ?_
      rw [hgal]; exact hpark

end Sys2Proof.Machine
end

section
/-!
PROOF of O19 (chapter 13): the ends of a transaction at its source.  What the source router does with a request that cannot be
delivered is `routePacket` case by case (`routePacket_dead`, `routePacket_noTarget`, `routePacket_linkDown`); what an
answer does is `answerAt`.  Each end is one `endTrans`, which `endTrans_eq` writes out.
-/

namespace Sys2Proof.Machine

/-! ### A presented packet leaves its unit (R221, R224) -/

/-- The packet at place `k` has left those that the units present. -/
def State.unready (s : State) (k : Nat) : State := { s with mesh := { s.mesh with ready := s.mesh.ready.eraseIdx k } }

theorem sameStream_self (p : Packet) : sameStream p p = true := by simp [sameStream]

/-- A packet with none of its stream before it stands at its first place. -/
theorem firstBelow_ready {l : List Packet} {k : Nat} {p : Packet} (hk : l[k]? = some p)
    (hfirst : ∀ q ∈ l.take k, sameStream p q = false) :
    firstBelow l.length (fun i => decide (l[i]? = some p)) = some k := by
  obtain ⟨hlt, -⟩ := List.getElem?_eq_some_iff.1 hk
  have hbefore : ∀ j < k, l[j]? ≠ some p := fun j hj hp =>
    absurd (hfirst p (List.mem_of_getElem? ((List.getElem?_take_of_lt hj).trans hp))) (by simp [sameStream_self])
  exact List.find?_range_eq_some.2 ⟨decide_eq_true hk, List.mem_range.2 hlt, fun j hj => by simpa using hbefore j hj⟩

theorem firstInStream_of_first {l : List Packet} {k : Nat} {p : Packet} (hk : l[k]? = some p)
    (hfirst : ∀ q ∈ l.take k, sameStream p q = false) : firstInStream l k = true := by
  simpa [firstInStream, hk] using hfirst

theorem exec_packetSend_ready {s : State} {k : Nat} {p : Packet} (err : LinkError) (hclk : s.clocked = true)
    (hk : s.mesh.ready[k]? = some p) (hfirst : ∀ q ∈ s.mesh.ready.take k, sameStream p q = false) :
    exec (.packetSend p err) s = .next (routePacket err p (s.unready k)) := by
  show execPacketSend p err s = _
  simp only [execPacketSend, hclk, firstBelow_ready hk hfirst, firstInStream_of_first hk hfirst]
  rfl

/-! ### A request at its source router (R226, R228, R239) -/

theorem awaits_cmd {p : Packet} (h : awaits p = true) : p.cmd = 1 ∨ p.cmd = 3 ∨ p.cmd = 5 := of_decide_eq_true h

/-- The ERROR packets that leave a dead unit are answers. -/
theorem leavesDead_of_awaits (s : State) {p : Packet} (h : awaits p = true) : s.leavesDead p = false := by
  obtain h | h | h := awaits_cmd h <;> simp [State.leavesDead, h]

/-- A request that cannot be delivered ends its transaction at its source. -/
theorem bounce_own {s : State} {p : Packet} {t : Trans} (ha : awaits p = true) (hown : s.isOwn p = true)
    (ht : s.findTrans (6 * p.sy + p.sx) p.sport p.tag = some t) (ctr status : Nat) :
    bounce ctr status p s = endTrans t status [] s := by
  simp [bounce, ha, hown, ht]

theorem bounce_foreign {s : State} {p : Packet} (ha : awaits p = true) (hown : s.isOwn p = false) (ctr status : Nat) :
    bounce ctr status p s = replyError p status s := by
  simp [bounce, ha, hown]

theorem routePacket_dead {s : State} {p : Packet} {t : Trans} (err : LinkError) (ha : awaits p = true)
    (hown : s.isOwn p = true) (hdead : s.deadAt p.sx p.sy p.sport = true)
    (ht : s.findTrans (6 * p.sy + p.sx) p.sport p.tag = some t) :
    routePacket err p s = endTrans t stDead [] (s.count 0x3022 1) := by
  have ht' : (s.count 0x3022 1).findTrans (6 * p.sy + p.sx) p.sport p.tag = some t := ht
  simp [routePacket, ha, hown, hdead, ht', leavesDead_of_awaits s ha]

section
variable {s : State} {p : Packet} (err : LinkError) (ha : awaits p = true)
  (halive : (s.isOwn p && s.deadAt p.sx p.sy p.sport) = false)
include ha halive

/-- No node, or no route to the card. -/
theorem routePacket_noTarget (hno : 5 < p.dx ∨ 4 < p.dy ∨ (p.dcard ≠ s.card ∧ s.seamTo p.dcard = none)) :
    routePacket err p s = bounce 0x3025 stNoTarget p s := by
  have hcmd : p.cmd ≠ 7 := by have := awaits_cmd ha; omega
  by_cases hnode : 5 < p.dx ∨ 4 < p.dy
  · simp [routePacket, halive, hcmd, hnode]
  · obtain ⟨hcard, hseam⟩ : p.dcard ≠ s.card ∧ s.seamTo p.dcard = none := by tauto
    simp [routePacket, halive, hcmd, hnode, hcard, hseam]

theorem routePacket_linkDown {l : Nat} (hx : p.dx ≤ 5) (hy : p.dy ≤ 4) (hcard : p.dcard ≠ s.card)
    (hseam : s.seamTo p.dcard = some l) (hdown : s.seamUp l = false) :
    routePacket err p s = bounce (portP l 0x4A) stLinkDown p s := by
  have hcmd : p.cmd ≠ 7 := by have := awaits_cmd ha; omega
  simp [routePacket, halive, hcmd, Nat.not_lt.2 hx, Nat.not_lt.2 hy, hcard, hseam, hdown]

end

/-! ### An answer at the source of its request (R224, R225, R236, R237) -/

theorem answered_taken (s : State) (i : Nat) (f : Flying) : (s.taken i f).answered f.pkt =
    s.mesh.trans.find? (fun u => decide (u.node = 6 * f.pkt.dy + f.pkt.dx ∧ u.port = f.pkt.dport ∧ u.tag = f.pkt.tag)) := by
  rw [taken_rest]; rfl

@[simp] theorem trans_taken (s : State) (i : Nat) (f : Flying) : (s.taken i f).mesh.trans = s.mesh.trans := by
  rw [taken_rest]

@[simp] theorem kin_taken (s : State) (i : Nat) (f : Flying) : (s.taken i f).kin = s.kin := by
  rw [taken_rest]

@[simp] theorem gal_taken (s : State) (i : Nat) (f : Flying) (g : Nat) : (s.taken i f).gal g = s.gal g := by
  rw [taken_rest]; rfl

section
variable {s : State} {i : Nat} {f : Flying} {x : Target} (h : s.Arrives i f x)
include h

theorem exec_meshReadRsp (hcmd : f.pkt.cmd = 2) : exec (.meshReadRsp i) s = .next (answerAt f.pkt (s.taken i f)) := by
  show execMeshReadRsp i s = _
  rw [execMeshReadRsp, arrive_eq h (by simp [hcmd]) rfl]
  simp [hcmd]

theorem exec_meshError_unknown (hcmd : f.pkt.cmd = 6) (hnone : (s.taken i f).answered f.pkt = none) :
    exec (.meshError i) s = .next ((s.taken i f).count 0x3021 1) := by
  show execMeshError i s = _
  rw [execMeshError, arrive_eq h (by simp [hcmd]) rfl]
  simp [hcmd, hnone]

theorem exec_meshError_named {t : Trans} (hcmd : f.pkt.cmd = 6) (ht : (s.taken i f).answered f.pkt = some t) :
    exec (.meshError i) s = .next (endTrans t f.pkt.status [] (s.taken i f)) := by
  show execMeshError i s = _
  rw [execMeshError, arrive_eq h (by simp [hcmd]) rfl]
  simp [hcmd, ht]

end

section
variable {s : State} {p : Packet}

theorem answerAt_unknown (hnone : s.answered p = none) : answerAt p s = s.count 0x3021 1 := by
  simp [answerAt, hnone]

theorem answerAt_poisoned {t : Trans} (ht : s.answered p = some t) (hpoison : p.poison = true) :
    answerAt p s = endTrans t stEcc [] (s.count 0x3028 1) := by
  simp [answerAt, ht, hpoison]

theorem answerAt_sound {t : Trans} (ht : s.answered p = some t) (hsound : p.poison = false) :
    answerAt p s = endTrans t 0 (writeData p) (storeAnswer t.purpose (writeData p) s) := by
  simp [answerAt, ht, hsound]

end

/-- Only a transfer from the mesh stores what an answer carries (R187). -/
theorem storeAnswer_of_not_dma {q : Purpose} (h : ∀ g id a n, q ≠ .dma g id a n) (d : List Byte) (s : State) :
    storeAnswer q d s = s := by
  cases q with
  | dma g id a n => exact absurd rfl (h g id a n)
  | bulk | lampRead | icp | message => rfl

theorem storeAnswer_dma {s : State} {g id a n : Nat} (hlive : ∃ d ∈ (s.gal g).seq.dmas, d.id = id ∧ d.failed = false)
    (l : List Byte) : storeAnswer (.dma g id a n) l s = writeBeats g (n / 16) a l s :=
  if_pos (by simpa using hlive)

/-- A packet that carries all the bytes of its units has nothing to be padded with. -/
theorem writeData_of_full {p : Packet} (h : p.data.length = byteCount p) : writeData p = p.data := by
  simp [writeData, h]

/-- The transfer a data packet belongs to awaits one answer less (R187). -/
theorem close_dma_zero (g id a n : Nat) (l : List Byte) (s : State) :
    (Purpose.dma g id a n).close 0 l s = s.modSeq g (fun q =>
      { q with dmas := q.dmas.map (fun d => if d.id = id then { d with waiting := d.waiting - 1 } else d) }) := by
  simp [Purpose.close, modDma]

/-- What a sound answer leaves of a transfer from the mesh that lives (R187): its bytes in stream memory, one packet less
to wait for, and the transaction ended. -/
theorem endTrans_dma {s : State} {g id a n : Nat} {l : List Byte} {t : Trans} {named : Trans → Bool}
    (hwrite : s.kin.writeEn = true) (hn : n = 16 * (n / 16)) (hl : l.length = n)
    (hfind : s.mesh.trans.find? named = some t) (ht : t.purpose = .dma g id a n) :
    let u := endTrans t 0 l (writeBeats g (n / 16) a l s)
    u = { s with gals := u.gals, mesh := { s.mesh with trans := s.mesh.trans.erase t } } ∧
      (∀ k, k ≠ g → u.gal k = s.gal k) ∧
      (∀ b, memByte (u.gal g).mem b = if a ≤ b ∧ b < a + n then byteAt l (b - a) else memByte (s.gal g).mem b) ∧
      (u.gal g).seq = { (s.gal g).seq with dmas := (s.gal g).seq.dmas.map (fun d =>
        if d.id = id then { d with waiting := d.waiting - 1 } else d) } := by
  obtain ⟨hrest, hothers, hmem, hseq⟩ := writeBeats_spec g (n / 16) a l s hwrite (hl.trans hn)
  rw [← hn] at hmem
  generalize writeBeats g (n / 16) a l s = w at hrest hothers hmem hseq
  have htrans : w.mesh.trans = s.mesh.trans := by rw [hrest]
  have hgal (k : Nat) : ({ w with mesh := { w.mesh with trans := s.mesh.trans.erase t } } : State).gal k = w.gal k := rfl
  rw [endTrans_eq htrans hfind, ht, close_dma_zero]
  refine ⟨by rw [hrest]; rfl, fun k hk => ?_, fun b => ?_, ?_⟩
  · rw [State.gal_modSeq_ne _ _ _ _ hk, hgal, hothers k hk]
  · rw [State.gal_modSeq_same, hgal]; exact hmem b
  · rw [State.gal_modSeq_same, hgal, hseq]

/-! ### The time limit (R235, R276) -/

/-- The link on the path of transaction `t` is in active replay: its timer stands still (R276). -/
def State.pauses (s : State) (t : Trans) : Prop :=
  t.dcard ≠ s.card ∧ ∃ l, s.seamTo t.dcard = some l ∧ (s.port l).seam.replaying = true

section
variable {s : State} {node port tag : Nat} {t : Trans} (ht : s.findTrans node port tag = some t)
include ht

theorem exec_transactionTimeout_paused (hpaused : s.pauses t) : exec (.transactionTimeout node port tag) s = .next s := by
  obtain ⟨hcard, l, hseam, hreplay⟩ := hpaused
  show execTransactionTimeout node port tag s = _
  simp [execTransactionTimeout, ht, hcard, hseam, hreplay]

theorem exec_transactionTimeout_ends (hclk : s.clocked = true) (hrun : ¬ s.pauses t) :
    exec (.transactionTimeout node port tag) s = .next (endTrans t stTimeout [] ((s.count 0x3020 1).raise 0xC0
      ([BitVec.ofNat 8 (nodeX node), BitVec.ofNat 8 (nodeY node), BitVec.ofNat 8 port, 0] ++ leBytes 2 tag))) := by
  show execTransactionTimeout node port tag s = _
  by_cases hcard : t.dcard = s.card
  · simp [execTransactionTimeout, ht, hcard, hclk]
  · cases hseam : s.seamTo t.dcard with
    | none => simp [execTransactionTimeout, ht, hseam, hclk]
    | some l =>
      have hidle : (s.port l).seam.replaying = false := by simpa using fun hreplay => hrun ⟨hcard, l, hseam, hreplay⟩
      simp [execTransactionTimeout, ht, hseam, hidle, hclk]

end

/-! ### The obligation -/

/-- Settles O19: each end is one branch of `routePacket`, `answerAt` or the time limit, written out by `endTrans_eq`. -/
theorem transactionsEnd : Obligations.TransactionsEnd := by
  constructor
  · intro s k p err t base node ends hclk hk hfirst ha
    have hsend : ∀ u, routePacket err p base = u → exec (.packetSend p err) s = .next u := fun u hu =>
      (exec_packetSend_ready err hclk hk hfirst).trans (congrArg _ hu)
    refine ⟨fun hcard ht => ?_, fun hcard hnode => ?_⟩
    · have hown : base.isOwn p = true := decide_eq_true hcard
      have hends : ∀ ctr st, routePacket err p base = bounce ctr st p base → ends base st := fun ctr st hroute =>
        hsend _ (hroute.trans ((bounce_own ha hown ht ctr st).trans (endTrans_eq (u := base) rfl ht st [])))
      refine ⟨fun hdead => ?_, fun hlive => ?_⟩
      · exact hsend _ ((routePacket_dead err ha hown hdead ht).trans (endTrans_eq (u := base.count 0x3022 1) rfl ht _ _))
      · have halive : (base.isOwn p && base.deadAt p.sx p.sy p.sport) = false := Bool.and_eq_false_iff.2 (.inr hlive)
        exact ⟨fun hno => hends _ _ (routePacket_noTarget err ha halive hno),
          fun hx hy hfar l hseam hdown => hends _ _ (routePacket_linkDown err ha halive hx hy hfar hseam hdown)⟩
    · have hforeign : base.isOwn p = false := decide_eq_false hcard
      have hroute := routePacket_noTarget err ha (Bool.and_eq_false_iff.2 (.inl hforeign)) (hnode.imp_right .inl)
      exact ⟨_, _, hsend _ (hroute.trans (bounce_foreign ha hforeign _ _)), rfl, rfl, rfl, rfl, rfl, rfl, rfl, rfl⟩
  · intro s i f x t p base named closed
    constructor
    · intro h
      have hread : ∀ u, p.cmd = 2 → answerAt p base = u → exec (.meshReadRsp i) s = .next u := fun u hcmd hu =>
        (exec_meshReadRsp h hcmd).trans (congrArg _ hu)
      have hans : base.answered p = s.mesh.trans.find? named := answered_taken s i f
      have htrans : base.mesh.trans = s.mesh.trans := trans_taken s i f
      refine ⟨fun hnone => ?_, fun ht => ?_⟩
      · rw [← hans] at hnone
        exact ⟨fun hcmd => hread _ hcmd (answerAt_unknown hnone), fun hcmd => exec_meshError_unknown h hcmd hnone⟩
      · have hnamed : base.answered p = some t := hans.trans ht
        refine ⟨fun hcmd => ?_, fun hcmd hpoison => ?_, fun hcmd hsound hpurpose => ?_,
          fun g id a n hcmd hsound hpurpose hwrite hn hlen hbytes hlive => ?_⟩
        · exact (exec_meshError_named h hcmd hnamed).trans (congrArg _ (endTrans_eq htrans ht _ _))
        · exact hread _ hcmd ((answerAt_poisoned hnamed hpoison).trans
            (endTrans_eq (u := base.count 0x3028 1) htrans ht _ _))
        · refine hread _ hcmd ((answerAt_sound hnamed hsound).trans ?_)
          rw [storeAnswer_of_not_dma hpurpose]
          exact endTrans_eq htrans ht _ _
        · have hstored : answerAt p base = endTrans t 0 p.data (writeBeats g (n / 16) a p.data base) := by
            rw [answerAt_sound hnamed hsound, hpurpose, storeAnswer_dma (by simpa [base] using hlive),
              writeData_of_full (hlen.trans hbytes.symm)]
          have hdma := endTrans_dma (s := base) (by simpa [base] using hwrite) hn hlen (htrans ▸ ht) hpurpose
          simp only [base, gal_taken, trans_taken] at hdma
          exact ⟨_, hread _ hcmd hstored, hdma⟩
    · intro node port tag ht paused
      refine ⟨fun hclk hrun => (exec_transactionTimeout_ends ht hclk hrun).trans (congrArg _ (endTrans_eq ?_ ht _ _)),
        exec_transactionTimeout_paused ht⟩
      rw [State.raise_mesh, State.count_mesh]

end Sys2Proof.Machine
end

section
/-!
PROOF of O20 (chapters 12, 13 and 16): what WRITE, READ_REQ and MESSAGE do at their targets.  `writeAtGallery` and
`readAtGallery` are said case by case; a read beyond its bytes only counts and raises events (`State.Noted`), so a burst of
beats is followed by induction; a MESSAGE ends its transaction (`endMessage`) before the endpoint takes it.
-/

namespace Sys2Proof.Machine

/-! ### A packet at its target -/

section
variable {s : State} {i : Nat} {f : Flying} {t : Target} (h : s.Arrives i f t)
include h

theorem exec_meshWrite_poisoned (hcmd : f.pkt.cmd = 0) (hpoison : f.pkt.poison = true) :
    exec (.meshWrite i) s = .next ((s.taken i f).count 0x3028 1) := by
  show execMeshWrite i s = _
  rw [execMeshWrite, arrive_eq h (by simp [hcmd]) rfl, if_pos (by simp [hcmd, hpoison])]

theorem exec_meshWrite (hcmd : f.pkt.cmd = 0) (hsound : f.pkt.poison = false) :
    exec (.meshWrite i) s = .next (writeAt t f.pkt (s.taken i f)) := by
  show execMeshWrite i s = _
  rw [execMeshWrite, arrive_eq h (by simp [hcmd]) rfl, if_neg (by simp [hsound])]

theorem exec_meshReadReq (hcmd : f.pkt.cmd = 1) : exec (.meshReadReq i) s = .next (readAt t f.pkt (s.taken i f)) := by
  show execMeshReadReq i s = _
  rw [execMeshReadReq, arrive_eq h (by simp [hcmd]) rfl, if_neg (by simp [hcmd])]

theorem exec_meshMessage_elsewhere (hcmd : f.pkt.cmd = 3) (ht : t ≠ .pcie) :
    exec (.meshMessage i) s = .next (replyError f.pkt stNoTarget (s.taken i f)) := by
  show execMeshMessage i s = _
  rw [execMeshMessage, arrive_eq h (by simp [hcmd]) rfl, if_neg (by simp [hcmd])]
  cases t with
  | pcie => exact absurd rfl ht
  | gal | port | keeper | lamp | tinder | timeBase | nothing => rfl

end

/-- A MESSAGE at the endpoint, by either of its two commands. -/
theorem exec_message_pcie {s : State} {i : Nat} {f : Flying} {c : Instr} (h : s.Arrives i f .pcie) (hcmd : f.pkt.cmd = 3)
    (hc : c = .meshMessage i ∨ c = .upstreamMsix i) :
    exec c s = .next (messageAtPcie f.pkt (endMessage f.pkt (s.taken i f))) := by
  rcases hc with rfl | rfl
  · show execMeshMessage i s = _
    rw [execMeshMessage, arrive_eq h (by simp [hcmd]) rfl, if_neg (by simp [hcmd])]
  · show execUpstreamMsix i s = _
    rw [execUpstreamMsix, arrive_eq h (by simp [hcmd]) rfl, if_neg (by simp [hcmd])]

theorem gal_lt_of_targetAt {x y k g : Nat} (h : targetAt x y k = .gal g) : g < 16 := by
  unfold targetAt at h
  split at h
  · cases hg : nodeGal x y with
    | some j =>
      have hj : j = g := by
        simp only [hg] at h
        split at h
        · injection h
        · cases h
      simp only [nodeGal, Option.ite_none_right_eq_some, Option.some.injEq] at hg
      omega
    | none => cases hp : nodePort x y k <;> simp [hg, hp] at h
  · split_ifs at h

/-- Noting the time of a GT packet leaves the parameters of the galleries (Table 18.6). -/
theorem par_taken_galP (s : State) (i : Nat) (f : Flying) {g k : Nat} (hg : g < 16) (hk : k < 0x100) :
    (s.taken i f).par (galP g k) = s.par (galP g k) := by
  unfold State.taken noteWorst
  dsimp only
  split
  · split
    · exact State.par_putPar_ne _ _ _ _ (by unfold galP; omega)
    · rfl
  · rfl

/-! ### WRITE at a gallery (R217, R226) -/

theorem byteCount_beats (p : Packet) : 16 * (byteCount p / 16) = byteCount p := by
  unfold byteCount
  split <;> omega

theorem length_writeData (p : Packet) : (writeData p).length = byteCount p := by
  simp only [writeData, List.length_take, List.length_append, List.length_replicate]
  omega

/-- Before write enable a beat is discarded (R89). -/
theorem writeBeats_disabled {s : State} (h : s.kin.writeEn = false) (g n a : Nat) (d : List Byte) :
    writeBeats g n a d s = s := by
  induction n generalizing a d with
  | zero => rfl
  | succ n ih => rw [writeBeats, writeBeat, if_neg (by simp [h]), ih]

section
variable {p : Packet} {g : Nat} (s : State)

theorem writeAtGallery_inside (hlow : p.addr < 0x200000) (halign : p.addr % 16 = 0) (hend : p.addr + byteCount p ≤ 0x200000) :
    writeAtGallery g p s = writeBeats g (byteCount p / 16) p.addr (writeData p) s := by
  simp [writeAtGallery, inStream, hlow, halign, Nat.not_lt.2 hend]

theorem writeAtGallery_edge (haddr : p.addr = 0x100000000) :
    writeAtGallery g p s = s.modGal g (fun x => { x with edgeQ := x.edgeQ ++ edgeUnits p }) := by
  simp [writeAtGallery, inStream, haddr]

theorem writeAtGallery_outside (h : p.addr ≠ 0x100000000 ∧ (0x200000 ≤ p.addr ∨ p.addr % 16 ≠ 0) ∨
    (p.addr < 0x200000 ∧ 0x200000 < p.addr + byteCount p)) : writeAtGallery g p s = s.count 0x3025 1 := by
  by_cases hin : p.addr < 0x200000 ∧ p.addr % 16 = 0
  · have hend : 0x200000 < p.addr + byteCount p := by omega
    simp [writeAtGallery, inStream, hin, hend]
  · have hedge : p.addr ≠ 0x100000000 := by omega
    simp [writeAtGallery, inStream, hin, hedge]

end

/-- A lane of a unit for the edge ingress: its word when its valid bit is set and the packet carries it. -/
theorem edgeUnits_lane (p : Packet) {j : Nat} (hj : j < 8 * p.len) :
    ((edgeUnits p).getD (j / 8) []).getD (j % 8) none =
      if p.valid.getLsbD j ∧ 4 * j < byteCount p then some (wd (leAt p.data (4 * j) 4)) else none := by
  have hunit : j / 8 < p.len := by omega
  have hlane : j % 8 < 8 := by omega
  have hindex : 8 * (j / 8) + j % 8 = j := by omega
  simp [edgeUnits, hunit, hlane, hindex, hasBit]

/-! ### A read that leaves all but counters and events as it was -/

/-- `t` is `s` but for counters other than parameter `n`, and events. -/
structure State.Noted (s t : State) (n : Nat) : Prop where
  rest : t = { s with params := t.params, evt := t.evt }
  kept : t.par n = s.par n

section
variable {s t u : State} {n : Nat}

theorem State.Noted.refl (s : State) (n : Nat) : s.Noted s n := ⟨rfl, rfl⟩

theorem State.Noted.trans (h : s.Noted t n) (h' : t.Noted u n) : s.Noted u n :=
  ⟨by rw [h'.rest, h.rest], h'.kept.trans h.kept⟩

theorem State.Noted.putPar (h : s.Noted t n) {m : Nat} (hm : n ≠ m) (v : Word) : s.Noted (t.putPar m v) n :=
  h.trans ⟨rfl, State.par_putPar_ne _ _ _ _ hm⟩

theorem State.Noted.count (h : s.Noted t n) {m : Nat} (hm : n ≠ m) (k : Nat) : s.Noted (t.count m k) n := h.putPar hm _

theorem State.Noted.raise (h : s.Noted t n) (e : Nat) (l : List Byte) : s.Noted (t.raise e l) n := by
  refine h.trans ⟨?_, State.par_raise ..⟩
  unfold State.raise
  split <;> rfl

theorem State.Noted.gal (h : s.Noted t n) (g : Nat) : t.gal g = s.gal g := by rw [h.rest]; rfl

theorem State.Noted.countBankEcc {g : Nat} (h : s.Noted t (galP g 0xA0)) (a corr fatal : Nat) :
    s.Noted (countBankEcc g (bankOf a) corr fatal t) (galP g 0xA0) :=
  h.putPar (by unfold galP bankOf; omega) _

end

/-! ### READ_REQ at a gallery (R217, R219) -/

theorem memRead_add (m : Memory) (a n k : Nat) : memRead m a (n + k) = memRead m a n ++ memRead m (a + n) k := by
  simp [memRead, List.range_add, Nat.add_assoc]

section
variable {x : Gallery} (hprimed : x.allPrimed = true) (hidle : x.march.step = 0)
include hprimed hidle

/-- A read of primed memory with no march reads the array. -/
theorem beatData_primed (a : Nat) :
    x.beatData a = { data := memRead x.mem a 16, fatal := decide (x.beatDecay a = .fatal), unprimed := false } := by
  simp [Gallery.beatData, Gallery.unwritten, Gallery.primed, Gallery.marchOn, hprimed, hidle]

end

section
variable {g : Nat} {s : State} (hprimed : (s.gal g).allPrimed = true) (hidle : (s.gal g).march.step = 0)
include hprimed hidle

theorem beatEffects_primed (a req : Nat) : beatEffects g a req s =
    let t := if (s.gal g).beatCorrected a = 0 then s
      else countBankEcc g (bankOf a) ((s.gal g).beatCorrected a) 0 (s.count (galP g 0x95) ((s.gal g).beatCorrected a))
    if (s.gal g).beatDecay a = .fatal then eccFatal g a req t else t := by
  simp [beatEffects, Gallery.unwritten, Gallery.primed, Gallery.marchOn, hprimed, hidle]

/-- Sound words leave nothing to note. -/
theorem readBeats_sound (req n a : Nat)
    (hsound : ∀ k < 2 * n, tabGet .sound (s.gal g).memBad (a / 8 + k) = .sound) :
    readBeats g req n a s = (memRead (s.gal g).mem a (16 * n), false, s) := by
  induction n generalizing a with
  | zero => rfl
  | succ n ih =>
    have h0 := hsound 0 (by omega)
    have h1 := hsound 1 (by omega)
    rw [Nat.add_zero] at h0
    have hdecay : (s.gal g).beatDecay a = .sound := by simp [Gallery.beatDecay, h0, h1]
    have heffects : beatEffects g a req s = s := by
      simp [beatEffects_primed hprimed hidle, Gallery.beatCorrected, h0, h1, hdecay]
    have hrest := ih (a + 16) fun k hk => by
      rw [show (a + 16) / 8 + k = a / 8 + (k + 2) by omega]
      exact hsound (k + 2) (by omega)
    simp only [readBeats, readBeat, heffects, hrest, beatData_primed hprimed hidle, hdecay]
    rw [show 16 * (n + 1) = 16 + 16 * n by omega, memRead_add]
    simp

/-- A gallery whose policy does not mark it dead only counts and reports an uncorrectable word. -/
theorem beatEffects_noted (hpolicy : (s.par (galP g 0xA0)).getLsbD 1 = false) (a req : Nat) :
    s.Noted (beatEffects g a req s) (galP g 0xA0) := by
  have hcorrected (c : Nat) : s.Noted (if c = 0 then s else countBankEcc g (bankOf a) c 0 (s.count (galP g 0x95) c))
      (galP g 0xA0) := by
    split
    · exact .refl s _
    · exact ((State.Noted.refl s _).count (by unfold galP; omega) c).countBankEcc a c 0
  rw [beatEffects_primed hprimed hidle]
  dsimp only
  split
  · have hnoted := (((hcorrected ((s.gal g).beatCorrected a)).count (m := galP g 0x96) (by unfold galP; omega)
      1).countBankEcc a 0 1).raise (0x20 + 6 * g + 5) ([BitVec.ofNat 8 (bankOf a), BitVec.ofNat 8 req] ++ leBytes 2 (rowOf a))
    rw [eccFatal, faultPolicy, State.raiseGal, hnoted.kept, hpolicy]
    exact hnoted
  · exact hcorrected _

end

/-- Each beat of a read only counts and reports, and an uncorrectable word among them is told. -/
theorem readBeats_noted {g : Nat} (req n : Nat) : ∀ (a : Nat) (s : State), (s.gal g).allPrimed = true →
    (s.gal g).march.step = 0 → (s.par (galP g 0xA0)).getLsbD 1 = false →
    s.Noted (readBeats g req n a s).2.2 (galP g 0xA0) ∧
      ((∃ k < 2 * n, tabGet .sound (s.gal g).memBad (a / 8 + k) = .fatal) → (readBeats g req n a s).2.1 = true) := by
  induction n with
  | zero => exact fun a s _ _ _ => ⟨.refl s _, fun ⟨k, hk, _⟩ => absurd hk (by omega)⟩
  | succ n ih =>
    intro a s hprimed hidle hpolicy
    have hbeat := beatEffects_noted hprimed hidle hpolicy a req
    have hgal := hbeat.gal g
    obtain ⟨hrest, hflag⟩ := ih (a + 16) (beatEffects g a req s) (by rw [hgal]; exact hprimed) (by rw [hgal]; exact hidle)
      (by rw [hbeat.kept]; exact hpolicy)
    refine ⟨hbeat.trans hrest, fun ⟨k, hk, hbad⟩ => ?_⟩
    show (((s.gal g).beatData a).fatal || (readBeats g req n (a + 16) (beatEffects g a req s)).2.1) = true
    rw [beatData_primed hprimed hidle, Bool.or_eq_true]
    by_cases hfirst : k < 2
    · left
      have hword : tabGet .sound (s.gal g).memBad (a / 8) = .fatal ∨ tabGet .sound (s.gal g).memBad (a / 8 + 1) = .fatal := by
        obtain rfl | rfl : k = 0 ∨ k = 1 := by omega
        · exact .inl hbad
        · exact .inr hbad
      simp [Gallery.beatDecay, hword]
    · right
      refine hflag ⟨k - 2, by omega, ?_⟩
      rw [hgal, show (a + 16) / 8 + (k - 2) = a / 8 + k by omega]
      exact hbad

section
variable {p : Packet} {g : Nat} (s : State)

theorem readAtGallery_noTarget (h : 0x200000 ≤ p.addr ∨ p.addr % 16 ≠ 0) :
    readAtGallery g p s = replyError p stNoTarget s := by
  have hin : inStream p = false := by
    simp only [inStream, decide_eq_false_iff_not]
    omega
  simp [readAtGallery, hin]

variable (hlow : p.addr < 0x200000) (halign : p.addr % 16 = 0)
include hlow halign

theorem readAtGallery_range (hend : 0x200000 < p.addr + byteCount p) : readAtGallery g p s = replyError p stRange s := by
  simp [readAtGallery, inStream, hlow, halign, hend]

theorem readAtGallery_inside (hend : p.addr + byteCount p ≤ 0x200000) : readAtGallery g p s =
    let r := readBeats g 32 (byteCount p / 16) p.addr s
    if r.2.1 then replyError p stEcc r.2.2 else replyRead p r.1 r.2.2 := by
  simp [readAtGallery, inStream, hlow, halign, Nat.not_lt.2 hend]

end

/-! ### MESSAGE at the endpoint (R226, R291) -/

/-- The transaction that a MESSAGE of this card names ends as the packet is delivered. -/
theorem endMessage_own {s : State} {i : Nat} {f : Flying} {u : Trans} (hown : f.pkt.scard = s.card)
    (hu : s.mesh.trans.find? (fun u =>
      decide (u.node = 6 * f.pkt.sy + f.pkt.sx ∧ u.port = f.pkt.sport ∧ u.tag = f.pkt.tag)) = some u) :
    endMessage f.pkt (s.taken i f) =
      u.purpose.close 0 [] { s.taken i f with mesh := { (s.taken i f).mesh with trans := s.mesh.trans.erase u } } := by
  have hfind : (s.taken i f).findTrans (6 * f.pkt.sy + f.pkt.sx) f.pkt.sport f.pkt.tag = some u := by
    rw [State.findTrans, trans_taken]; exact hu
  have hcard : (s.taken i f).isOwn f.pkt = true := decide_eq_true (by rw [taken_rest]; exact hown)
  rw [endMessage, if_pos hcard, hfind]
  exact endTrans_eq (trans_taken s i f) hu 0 []

theorem endMessage_foreign {s : State} {i : Nat} {f : Flying} (h : f.pkt.scard ≠ s.card) :
    endMessage f.pkt (s.taken i f) = s.taken i f := by
  have hcard : (s.taken i f).isOwn f.pkt = false := decide_eq_false (by rw [taken_rest]; exact h)
  simp [endMessage, hcard]

theorem endMessage_unknown {s : State} {i : Nat} {f : Flying} (h : s.mesh.trans.find? (fun u =>
      decide (u.node = 6 * f.pkt.sy + f.pkt.sx ∧ u.port = f.pkt.sport ∧ u.tag = f.pkt.tag)) = none) :
    endMessage f.pkt (s.taken i f) = s.taken i f := by
  have hfind : (s.taken i f).findTrans (6 * f.pkt.sy + f.pkt.sx) f.pkt.sport f.pkt.tag = none := by
    rw [State.findTrans, trans_taken]; exact h
  simp [endMessage, hfind]

/-! ### The obligation -/

/-- Settles O20: one law for each place a packet may name; a read goes beat by beat (`readBeats_sound`, `readBeats_noted`). -/
theorem packetsReachMemoryEdgeAndHost : Obligations.PacketsReachMemoryEdgeAndHost := by
  constructor
  · intro s i g f p base x n answers h
    have hgal : base.gal g = x := gal_taken s i f g
    have hready : base.mesh.ready = s.mesh.ready := by simp only [base]; rw [taken_rest]
    refine ⟨exec_meshWrite_poisoned h, fun hcmd hsound => ?_, fun hcmd => ?_⟩
    · have hwrite : ∀ u, writeAtGallery g p base = u → exec (.meshWrite i) s = .next u := fun u hu =>
        (exec_meshWrite h hcmd hsound).trans (congrArg _ hu)
      refine ⟨fun hlow halign hend => ⟨fun hoff => ?_, fun hon => ?_⟩, fun hedge => ?_, fun hout => ?_⟩
      · refine hwrite _ ((writeAtGallery_inside base hlow halign hend).trans (writeBeats_disabled ?_ ..))
        exact (congrArg Kindle.writeEn (kin_taken s i f)).trans hoff
      · have hlen : (writeData p).length = 16 * (byteCount p / 16) := by rw [length_writeData, byteCount_beats]
        obtain ⟨hrest, hothers, hmem, -⟩ := writeBeats_spec g (byteCount p / 16) p.addr (writeData p) base
          ((congrArg Kindle.writeEn (kin_taken s i f)).trans hon) hlen
        rw [byteCount_beats, hgal] at hmem
        exact ⟨_, hwrite _ (writeAtGallery_inside base hlow halign hend), hrest,
          fun k hk => (hothers k hk).trans (gal_taken s i f k), hmem⟩
      · refine ⟨_, edgeUnits p, hwrite _ (writeAtGallery_edge base hedge), rfl, fun k hk => ?_, ?_, ?_,
          fun j hj => edgeUnits_lane p hj⟩
        · exact (State.gal_modGal_ne _ _ _ _ hk).trans (gal_taken s i f k)
        · rw [State.gal_modGal_same, hgal]
        · simp [edgeUnits]
      · exact hwrite _ (writeAtGallery_outside base hout)
    · have hread : ∀ u, readAtGallery g p base = u → exec (.meshReadReq i) s = .next u := fun u hu =>
        (exec_meshReadReq h hcmd).trans (congrArg _ hu)
      have hreply (a : Packet) (ha : a.tag = p.tag ∧ a.dx = p.sx ∧ a.dy = p.sy ∧ a.dport = p.sport ∧ a.dcard = p.scard) :
          answers base (present a base) a := ⟨by rw [present, hready], ha⟩
      refine ⟨fun hout => ⟨_, _, hread _ (readAtGallery_noTarget base hout), hreply _ ⟨rfl, rfl, rfl, rfl, rfl⟩, rfl, rfl⟩,
        fun hlow halign hend => ⟨_, _, hread _ (readAtGallery_range base hlow halign hend),
          hreply _ ⟨rfl, rfl, rfl, rfl, rfl⟩, rfl, rfl⟩,
        fun hlow halign hend hprimed hidle => ⟨fun hsound => ?_, fun k hk hbad hpolicy => ?_⟩⟩
      · have hbeats := readBeats_sound (hgal.symm ▸ hprimed) (hgal.symm ▸ hidle) 32 (byteCount p / 16) p.addr fun k hk =>
          hgal.symm ▸ hsound k (by have := byteCount_beats p; omega)
        rw [byteCount_beats, hgal] at hbeats
        refine ⟨_, _, hread _ ?_, hreply { replyTo p 2 0 p.len (memRead x.mem p.addr n) with half := p.half }
          ⟨rfl, rfl, rfl, rfl, rfl⟩, rfl, rfl, rfl, rfl⟩
        rw [readAtGallery_inside base hlow halign hend, hbeats]
        rfl
      · have hpar : base.par (galP g 0xA0) = s.par (galP g 0xA0) :=
          par_taken_galP s i f (gal_lt_of_targetAt h.target) (by decide)
        obtain ⟨hnoted, hflag⟩ := readBeats_noted 32 (byteCount p / 16) p.addr base (hgal.symm ▸ hprimed)
          (hgal.symm ▸ hidle) (hpar.symm ▸ hpolicy)
        have hfatal := hflag ⟨k, by have := byteCount_beats p; omega, hgal.symm ▸ hbad⟩
        refine ⟨_, replyTo p 6 stEcc 0 [], hread _ ((readAtGallery_inside base hlow halign hend).trans (if_pos hfatal)),
          ⟨?_, rfl, rfl, rfl, rfl, rfl⟩, rfl, rfl⟩
        rw [replyError, present, ← hready, hnoted.rest]
  · intro s i f t c p base ended h hcmd hsound
    refine ⟨?_, fun ht => ⟨_, _, exec_meshMessage_elsewhere h hcmd ht, rfl, rfl, rfl, rfl, rfl, rfl, rfl, rfl⟩⟩
    rintro rfl hc
    have hended : endMessage p base = ended := by
      simp only [ended]
      split
      next u hu =>
        split
        next hown => exact endMessage_own hown hu
        next hforeign => exact endMessage_foreign hforeign
      next hnone => exact endMessage_unknown hnone
    rw [exec_message_pcie h hcmd hc, hended, messageAtPcie]
    exact ⟨fun hon => by rw [if_neg (by simp [hon])], fun hcold => by rw [if_pos hcold]⟩

end Sys2Proof.Machine
end

section
/-!
PROOF of O47 (chapter 16): bulk traffic.  A BAR2 offset is taken apart once (`bar2Packet_eq`); a read opens its requests one
by one (`foldl_request`); its answers join in address order (`partBytes_eq`); an upstream WRITE is cut into memory writes
(`splitWrite_eq`).
-/

namespace Sys2Proof.Machine

/-! ### The host's access (R280) -/

theorem hosted_iff (s : State) : s.hosted = true ↔ s.clocked = true ∧ s.pcie.linkUp = true := by
  simp [State.hosted]

theorem not_hosted_iff (s : State) : s.hosted = false ↔ ¬ (s.clocked = true ∧ s.pcie.linkUp = true) := by
  rw [← hosted_iff, Bool.not_eq_true]

/-! ### What a BAR2 offset names (Table 16.3) -/

/-- SPACE of a BAR2 offset. -/
def bar2Space (off : Nat) : Nat := off / 2 ^ 21 % 16

/-- The address that a BAR2 offset names at its target: in SPACE 0 that of stream memory, in SPACE 1 that of its stream. -/
def bar2Addr (off : Nat) : Nat :=
  if bar2Space off = 0 then off % 2 ^ 21
  else if (nodeGal (off / 2 ^ 29 % 8) (off / 2 ^ 26 % 8)).isSome = true then 0x100000000 else 0

/-- The packet to the target of a BAR2 offset. -/
def bar2To (off : Nat) : Packet :=
  { blankPacket with
    dcard := off / 2 ^ 32 % 16, dx := off / 2 ^ 29 % 8, dy := off / 2 ^ 26 % 8, dport := off / 2 ^ 25 % 2
    addr := bar2Addr off, valid := BitVec.allOnes 128 }

theorem bits_space (off : Nat) : bits off 24 21 = bar2Space off := rfl

theorem bar2Packet_eq {off : Nat} (h : bar2Space off ≤ 1) : bar2Packet off = some (bar2To off) := by
  obtain h0 | h1 : bar2Space off = 0 ∨ bar2Space off = 1 := by omega
  · simp only [bar2Packet, bar2To, bar2Addr, bits_space, h0, if_true]
    simp [bits]
  · simp only [bar2Packet, bar2To, bar2Addr, bits_space, h1, Nat.one_ne_zero, if_false]
    rfl

theorem bar2Packet_reserved {off : Nat} (h : 2 ≤ bar2Space off) : bar2Packet off = none := by
  rw [bar2Packet, bits_space]
  split
  next h0 => omega
  next h1 => omega
  next => rfl

/-- The first beat of a read lies at the same target. -/
theorem beat_div (off : Nat) {k : Nat} (hk : 4 ≤ k) : (off - off % 16) / 2 ^ k = off / 2 ^ k := by
  obtain ⟨j, rfl⟩ := Nat.exists_eq_add_of_le hk
  rw [Nat.pow_add, ← Nat.div_div_eq_div_mul, ← Nat.div_div_eq_div_mul]
  congr 1
  omega

theorem bar2Space_beat (off : Nat) : bar2Space (off - off % 16) = bar2Space off := by
  rw [bar2Space, beat_div off (by decide), bar2Space]

theorem bar2To_beat (off : Nat) : bar2To (off - off % 16) = { bar2To off with
    addr := if bar2Space off = 0 then (off - off % 16) % 2 ^ 21 else bar2Addr off } := by
  simp only [bar2To, bar2Addr, bar2Space_beat, beat_div off (show 4 ≤ 32 by decide), beat_div off (show 4 ≤ 29 by decide),
    beat_div off (show 4 ≤ 26 by decide), beat_div off (show 4 ≤ 25 by decide)]
  split <;> rfl

/-! ### Requests opened one by one (R225, R288) -/

/-- Requests of one unit enter the router and open their transactions in order. -/
theorem foldl_request (src : Target) (f : Nat × Nat → Packet) (g : Nat × Nat → Purpose) (l : List (Nat × Nat)) (s : State) :
    ∃ (ks : List Packet) (ts : List Trans) (next : Nat),
      l.foldl (fun s q => request src (f q) (g q) s) s =
        { s with mesh := { s.mesh with ready := s.mesh.ready ++ ks, trans := s.mesh.trans ++ ts, nextTag := next } } ∧
      ks.length = l.length ∧ ts.length = l.length ∧
      ∀ (i : Nat) q k x, l[i]? = some q → ks[i]? = some k → ts[i]? = some x → ∃ tag,
        k = { sourced s src (f q) with tag := tag } ∧
        x = { node := src.place.1, port := src.place.2, tag := tag, dcard := (f q).dcard
              dnode := 6 * (f q).dy + (f q).dx, dport := (f q).dport, purpose := g q } := by
  induction l generalizing s with
  | nil => exact ⟨[], [], s.mesh.nextTag, by simp, rfl, rfl, by simp⟩
  | cons q l ih =>
    obtain ⟨ks, ts, next, hfold, hks, hts, hall⟩ := ih (request src (f q) (g q) s)
    refine ⟨{ sourced s src (f q) with tag := s.newTag src.place.1 src.place.2 } :: ks,
      { node := src.place.1, port := src.place.2, tag := s.newTag src.place.1 src.place.2, dcard := (f q).dcard
        dnode := 6 * (f q).dy + (f q).dx, dport := (f q).dport, purpose := g q } :: ts, next, ?_,
      by simp [hks], by simp [hts], ?_⟩
    · rw [List.foldl_cons, hfold]
      simp [request, present, sourced]
    · intro i q' k x hq hk hx
      cases i with
      | zero =>
        cases hq; cases hk; cases hx
        exact ⟨_, rfl, rfl⟩
      | succ i => exact hall i q' k x hq hk hx

theorem length_readParts (n : Nat) : (readParts n).length = (n + 511) / 512 := by simp [readParts]

theorem readParts_getElem? {n i : Nat} (h : i < (n + 511) / 512) : (readParts n)[i]? = some (i, min 512 (n - 512 * i)) := by
  simp [readParts, h]

/-! ### Answers joined, and writes cut -/

theorem partBytes_eq {parts : List (Nat × List Byte)} {ds : List (List Byte)} (hlen : ds.length = parts.length)
    (h : ∀ i d, ds[i]? = some d → parts.find? (fun y => decide (y.1 = i)) = some (i, d)) : partBytes parts = ds.flatten := by
  rw [partBytes, List.flatMap_def]
  congr 1
  refine List.ext_getElem (by simp [hlen]) fun i _ hi => ?_
  simp [h i ds[i] (List.getElem?_eq_getElem hi)]

/-- Writes to host memory are noted latest first. -/
theorem foldl_hostWrite (a : Nat → Nat) (d : Nat → List Byte) (l : List Nat) (s : State) :
    l.foldl (fun s i => hostWrite (a i) (d i) s) s =
      { s with pcie := { s.pcie with hostWrites := (l.map (fun i => (a i, d i))).reverse ++ s.pcie.hostWrites } } := by
  induction l generalizing s with
  | nil => rfl
  | cons i l ih =>
    rw [List.foldl_cons, ih]
    simp [hostWrite]

theorem splitWrite_eq (mps a : Nat) (d : List Byte) (s : State) : splitWrite mps a d s =
    { s with pcie := { s.pcie with hostWrites :=
      ((List.range ((d.length + mps - 1) / mps)).map (fun j => (a + j * mps, (d.drop (j * mps)).take mps))).reverse ++
        s.pcie.hostWrites } } :=
  foldl_hostWrite _ _ _ s

/-! ### BAR2 writes (R287, R289) -/

section
variable {s : State} {off : Nat} {b : List Byte} {en : Bool}

theorem exec_bar2Write_ignored (h : s.hosted = false ∨ s.d3hot = true) : exec (.bar2Write off b en) s = .next s := by
  show execBar2Write off b en s = _
  rw [execBar2Write, if_pos (by simpa using h)]

variable (hhost : s.hosted = true) (hon : s.d3hot = false)
include hhost hon

theorem exec_bar2Write_dropped (h : s.user = false ∨ en = false ∨ off % 16 ≠ 0 ∨ b.length % 16 ≠ 0 ∨ b.length = 0 ∨
    512 < b.length ∨ 2 ≤ bar2Space off) : exec (.bar2Write off b en) s = .next (s.count 0x208 1) := by
  show execBar2Write off b en s = _
  rw [execBar2Write]
  dsimp only
  rw [if_neg (by simp [hhost, hon])]
  split
  next => rfl
  next hgood =>
    have hspace : 2 ≤ bar2Space off := by
      simp only [Bool.or_eq_true, Bool.not_eq_true', decide_eq_true_eq] at hgood
      tauto
    rw [bar2Packet_reserved hspace]

theorem exec_bar2Write_sent (huser : s.user = true) (hen : en = true) (halign : off % 16 = 0) (hbeats : b.length % 16 = 0)
    (hsome : b.length ≠ 0) (hmost : b.length ≤ 512) (hspace : bar2Space off ≤ 1) : exec (.bar2Write off b en) s =
    .next (present (sourced s .pcie
      { bar2To off with cmd := 0, len := unitCount b.length, half := decide (b.length % 32 = 16), data := b }) s) := by
  show execBar2Write off b en s = _
  simp [execBar2Write, hhost, hon, huser, hen, halign, hbeats, hsome, Nat.not_lt.2 hmost, bar2Packet_eq hspace]

end

/-! ### BAR2 reads (R288, R289) -/

/-- The READ_REQ of one part of a read: its number and its bytes. -/
def bar2Part (off : Nat) (q : Nat × Nat) : Packet :=
  { bar2To off with
    addr := (if bar2Space off = 0 then (off - off % 16) % 2 ^ 21 else bar2Addr off) + (if bar2Space off = 0 then 512 * q.1 else 0)
    cmd := 1, len := unitCount q.2, half := decide (q.2 % 32 = 16) }

/-- The bytes of the beats that hold a read's bytes. -/
def beatBytes (off len : Nat) : Nat := off % 16 + len + (16 - (off + len) % 16) % 16

/-- The read is noted, with its requests to wait for. -/
def State.bulkOpened (s : State) (off len tag : Nat) : State :=
  { s with pcie := { s.pcie with bulk := s.pcie.bulk ++
    [{ tag := tag, first := off, len := len, parts := [], waiting := (beatBytes off len + 511) / 512, failed := none }] } }

theorem bar2Part_addr (off : Nat) (q : Nat × Nat) : (bar2Part off q).addr =
    if bar2Space off = 0 then (off - off % 16) % 2 ^ 21 + 512 * q.1
    else if (nodeGal (off / 2 ^ 29 % 8) (off / 2 ^ 26 % 8)).isSome = true then 0x100000000 else 0 := by
  by_cases h : bar2Space off = 0
  · simp [bar2Part, h]
  · simp [bar2Part, bar2Addr, h]

section
variable {s : State} {off len tag : Nat}

theorem exec_bar2Read_ignored (h : s.hosted = false ∨ s.d3hot = true) : exec (.bar2Read off len tag) s = .next s := by
  show execBar2Read off len tag s = _
  rw [execBar2Read]
  dsimp only
  split
  · rfl
  next hfresh => rw [if_pos (by simp_all)]

variable (hhost : s.hosted = true) (hon : s.d3hot = false) (hfresh : ∀ x ∈ s.pcie.bulk, x.tag ≠ tag) (hlen : len ≠ 0)
include hhost hon hfresh hlen

theorem exec_bar2Read_early (huser : s.user = false) : exec (.bar2Read off len tag) s = .next
    (({ s with pcie := { s.pcie with complete := (tag, List.replicate len 0xFF) :: s.pcie.complete } } : State).count 0x208 1) := by
  have hnew : s.pcie.bulk.any (fun x => decide (x.tag = tag)) = false := by simpa using hfresh
  show execBar2Read off len tag s = _
  simp [execBar2Read, hhost, hon, hnew, hlen, huser]

/-- A read of a reserved SPACE has no request to wait for: it has failed. -/
theorem exec_bar2Read_reserved (huser : s.user = true) (hspace : 2 ≤ bar2Space off) : exec (.bar2Read off len tag) s =
    .next { s with pcie := { s.pcie with bulk := s.pcie.bulk ++
      [{ tag := tag, first := off, len := len, parts := [], waiting := 0, failed := some 9 }] } } := by
  have hnew : s.pcie.bulk.any (fun x => decide (x.tag = tag)) = false := by simpa using hfresh
  show execBar2Read off len tag s = _
  simp [execBar2Read, hhost, hon, hnew, hlen, huser, bar2Packet_reserved ((bar2Space_beat off).symm ▸ hspace), stRange]

/-- At 64 open requests the endpoint withholds credits. -/
theorem exec_bar2Read_full (huser : s.user = true) (hspace : bar2Space off ≤ 1)
    (hfull : 64 < s.outstanding 25 0 + (beatBytes off len + 511) / 512) : exec (.bar2Read off len tag) s = .next s := by
  have hnew : s.pcie.bulk.any (fun x => decide (x.tag = tag)) = false := by simpa using hfresh
  rw [← length_readParts] at hfull
  show execBar2Read off len tag s = _
  rw [execBar2Read]
  dsimp only
  rw [if_neg (by simp [hhost, hnew, hlen]), if_neg (by simp [hon]), if_neg (by simp [huser]),
    bar2Packet_eq ((bar2Space_beat off).symm ▸ hspace)]
  exact congrArg _ (if_pos hfull)

theorem exec_bar2Read_opens (huser : s.user = true) (hspace : bar2Space off ≤ 1)
    (hroom : s.outstanding 25 0 + (beatBytes off len + 511) / 512 ≤ 64) : exec (.bar2Read off len tag) s =
    .next ((readParts (beatBytes off len)).foldl (fun u q => request .pcie (bar2Part off q) (.bulk tag q.1) u)
      (s.bulkOpened off len tag)) := by
  have hnew : s.pcie.bulk.any (fun x => decide (x.tag = tag)) = false := by simpa using hfresh
  rw [State.bulkOpened, ← length_readParts]
  rw [← length_readParts] at hroom
  show execBar2Read off len tag s = _
  rw [execBar2Read]
  dsimp only
  rw [if_neg (by simp [hhost, hnew, hlen]), if_neg (by simp [hon]), if_neg (by simp [huser]),
    bar2Packet_eq ((bar2Space_beat off).symm ▸ hspace), bar2To_beat]
  exact congrArg _ (if_neg (Nat.not_lt.2 hroom))

end

/-! ### The end of a BAR2 read (R288) -/

section
variable {s : State} {tag : Nat}

theorem exec_bar2ReadComplete_unknown (h : ∀ x ∈ s.pcie.bulk, x.tag ≠ tag) : exec (.bar2ReadComplete tag) s = .next s := by
  have hnone : s.pcie.bulk.find? (fun y => decide (y.tag = tag)) = none := by simpa using h
  show execBar2ReadComplete tag s = _
  rw [execBar2ReadComplete, hnone]

variable {x : Bulk} (hx : s.pcie.bulk.find? (fun y => decide (y.tag = tag)) = some x)
include hx

theorem exec_bar2ReadComplete_waiting (h : x.waiting ≠ 0) : exec (.bar2ReadComplete tag) s = .next s := by
  show execBar2ReadComplete tag s = _
  simp [execBar2ReadComplete, hx, h]

/-- The read leaves with its completion. -/
def State.bulkEnded (s : State) (x : Bulk) (tag : Nat) (d : List Byte) : State :=
  { s with pcie := { s.pcie with bulk := s.pcie.bulk.erase x, complete := (tag, d) :: s.pcie.complete } }

variable (hclk : s.clocked = true) (hdone : x.waiting = 0)
include hclk hdone

theorem exec_bar2ReadComplete_sound (h : x.failed = none) : exec (.bar2ReadComplete tag) s =
    .next (s.bulkEnded x tag (slice (partBytes x.parts) (x.first % 16) x.len)) := by
  show execBar2ReadComplete tag s = _
  simp [execBar2ReadComplete, hx, hclk, hdone, h, State.bulkEnded]

theorem exec_bar2ReadComplete_failed {st : Nat} (h : x.failed = some st) : exec (.bar2ReadComplete tag) s =
    .next (noteBulkError st x.first (s.bulkEnded x tag (List.replicate x.len 0xFF))) := by
  show execBar2ReadComplete tag s = _
  simp [execBar2ReadComplete, hx, hclk, hdone, h, State.bulkEnded]

end

/-- Event 0x19 is raised when a second has passed since the last one. -/
theorem noteBulkError_eq (st off : Nat) (s : State) : noteBulkError st off s =
    let u := (s.count 0x208 1).putPar 0x20A (wd st)
    if ∀ c, s.pcie.bulkCyc = some c → c + 1000000000 ≤ s.clk.cyc then
      ({ u with pcie := { u.pcie with bulkCyc := some s.clk.cyc } } : State).raise 0x19
        ([BitVec.ofNat 8 st, 0, 0, 0] ++ leBytes 8 off)
    else u := by
  refine if_congr ?_ rfl rfl
  simp only [State.putPar_pcie, State.count_pcie, State.putPar_clk, State.count_clk]
  cases s.pcie.bulkCyc with
  | none => simp
  | some c =>
    exact ⟨fun h d hd => by cases hd; exact of_decide_eq_true h, fun h => decide_eq_true (h c rfl)⟩

/-! ### A WRITE at the endpoint (R280, R290) -/

theorem exec_upstreamWrite {s : State} {i : Nat} {f : Flying} (h : s.Arrives i f .pcie) (hcmd : f.pkt.cmd = 0)
    (hsound : f.pkt.poison = false) : exec (.upstreamWrite i) s = .next (writeAtPcie f.pkt (s.taken i f)) := by
  show execUpstreamWrite i s = _
  rw [execUpstreamWrite, arrive_eq h (by simp [hcmd]) (by decide), if_neg (by simp [hsound])]

theorem writeAtPcie_eq (p : Packet) (s : State) : writeAtPcie p s =
    let w := p.addr / 2 ^ 44 % 16
    let o := p.addr % 2 ^ 44
    let size := (s.par (0x212 + 4 * w)).toNat % 64
    if s.d3hot = true then { s with pcie := { s.pcie with held := s.pcie.held ++ [p] } }
    else if size = 0 ∨ 2 ^ size < o + byteCount p ∨ s.busMaster = false ∨ s.pcie.linkUp = false then s.count 0x209 1
    else splitWrite s.maxPayload (s.pair (0x210 + 4 * w) + o) (writeData p) s := by
  simp [writeAtPcie, fld, bits]

/-! ### The obligation -/

/-- Settles O47: one law for each way an access of BAR2 or a WRITE at the endpoint ends. -/
theorem bulkTrafficCrossesTheEndpoint : Obligations.BulkTrafficCrossesTheEndpoint := by
  intro s off len tag b en host space from' stream
  have hvalid : ∀ j < 128, (BitVec.allOnes 128).getLsbD j = true := fun j hj => by
    rw [BitVec.getLsbD_allOnes]; exact decide_eq_true hj
  refine ⟨fun hno => ?_, fun hcold => ⟨exec_bar2Write_ignored (.inr hcold), exec_bar2Read_ignored (.inr hcold)⟩,
    fun hhost hon => ?_, exec_bar2ReadComplete_unknown, fun x hclk hx => ?_, fun i f h hcmd hsound => ?_⟩
  · have hoff := (not_hosted_iff s).2 hno
    exact ⟨exec_bar2Write_ignored (.inl hoff), exec_bar2Read_ignored (.inl hoff)⟩
  · have hreach := (hosted_iff s).2 hhost
    refine ⟨exec_bar2Write_dropped hreach hon, fun huser hen halign hbeats hsome hmost hspace => ?_, fun hfresh hlen => ?_⟩
    · exact ⟨_, exec_bar2Write_sent hreach hon huser hen halign hbeats hsome hmost hspace,
        ⟨rfl, rfl, rfl, rfl, rfl, rfl, rfl, rfl, rfl, hvalid⟩, rfl, rfl, rfl, rfl, rfl⟩
    · refine ⟨exec_bar2Read_early hreach hon hfresh hlen, exec_bar2Read_reserved hreach hon hfresh hlen,
        fun huser hspace => ?_⟩
      refine ⟨exec_bar2Read_full hreach hon hfresh hlen huser hspace, fun hroom => ?_⟩
      obtain ⟨ks, ts, next, hfold, hks, hts, hall⟩ := foldl_request .pcie (bar2Part off) (fun q => .bulk tag q.1)
        (readParts (beatBytes off len)) (s.bulkOpened off len tag)
      rw [length_readParts] at hks hts
      refine ⟨ks, ts, next, (exec_bar2Read_opens hreach hon hfresh hlen huser hspace hroom).trans (congrArg _ hfold), hks, hts,
        fun i k x hk hx => ?_⟩
      have hi : i < (beatBytes off len + 511) / 512 := hks ▸ (List.getElem?_eq_some_iff.1 hk).1
      obtain ⟨t, rfl, rfl⟩ := hall i _ k x (readParts_getElem? hi) hk hx
      exact ⟨⟨rfl, rfl, rfl, rfl, rfl, rfl, rfl, rfl, rfl, hvalid⟩, rfl, bar2Part_addr .., rfl, rfl, rfl, rfl, rfl, rfl, rfl⟩
  · refine ⟨exec_bar2ReadComplete_waiting hx, fun hdone => ?_⟩
    refine ⟨fun hgood ds hds hparts => ?_, fun st hfail => ?_⟩
    · rw [exec_bar2ReadComplete_sound hx hclk hdone hgood, partBytes_eq hds hparts]
      rfl
    · exact (exec_bar2ReadComplete_failed hx hclk hdone hfail).trans (congrArg _ (noteBulkError_eq ..))
  · intro p t w o size d
    have hwrite := (exec_upstreamWrite h hcmd hsound).trans (congrArg _ (writeAtPcie_eq p t))
    refine ⟨fun hcold => ?_, fun hon hbad => ?_, fun hon hsize hfit hmaster hup => ?_⟩
    · exact hwrite.trans (congrArg _ (if_pos hcold))
    · exact hwrite.trans (congrArg _ ((if_neg (by simp [hon])).trans (if_pos hbad)))
    · have hgood : ¬ (size = 0 ∨ 2 ^ size < o + byteCount p ∨ t.busMaster = false ∨ t.pcie.linkUp = false) := by
        simp [hsize, hfit, hmaster, hup]
      exact hwrite.trans (congrArg _ ((if_neg (by simp [hon])).trans ((if_neg hgood).trans (splitWrite_eq ..))))

end Sys2Proof.Machine
end

section
/-!
PROOF of O46 (chapter 16): command slots, doorbells, responses, the report ring, vectors and resets of the endpoint.  Each
operation of the endpoint is said case by case; the MSI-X table and the pending bits, which loops change, are followed entry
by entry (`foldl_putVector`, `foldl_releaseVector`).
-/

namespace Sys2Proof.Machine

/-! ### Bits and bytes -/

theorem getLsbD_putBit {w : Nat} (v : BitVec w) (i : Nat) (b : Bool) {j : Nat} (hj : j < w) :
    (putBit v i b).getLsbD j = if j = i then b else v.getLsbD j := by
  split
  next h =>
    subst h
    cases b <;> simp [putBit, hj]
  next h => exact getLsbD_putBit_ne v b h

theorem length_wordsOf {l : List Byte} (h : l.length % 4 = 0) : (wordsOf l).length = l.length / 4 := by
  induction l using wordsOf.induct with
  | case1 a b c d r ih =>
    simp only [List.length_cons] at h
    rw [wordsOf, List.length_cons, ih (by omega)]
    simp only [List.length_cons]
    omega
  | case2 l hshort =>
    match l, hshort with
    | [], _ => rfl
    | [_], _ | [_, _], _ | [_, _, _], _ => simp at h
    | a :: b :: c :: d :: r, hshort => exact absurd rfl (hshort a b c d r)

theorem wordsOf_getD {l : List Byte} {j : Nat} (h : 4 * j + 4 ≤ l.length) : (wordsOf l).getD j 0 = wd (leAt l (4 * j) 4) := by
  induction l using wordsOf.induct generalizing j with
  | case1 a b c d r ih =>
    cases j with
    | zero => rfl
    | succ j =>
      simp only [List.length_cons] at h
      rw [wordsOf, List.getD_cons_succ, ih (by omega)]
      rfl
  | case2 l hshort =>
    match l, hshort with
    | [], _ | [_], _ | [_, _], _ | [_, _, _], _ => simp at h
    | a :: b :: c :: d :: r, hshort => exact absurd rfl (hshort a b c d r)

/-- A byte string cut or filled up to `n` bytes. -/
theorem take_filled (l : List Byte) (n : Nat) : (l ++ List.replicate n 0).take n = (List.range n).map (byteAt l) := by
  refine List.ext_getElem (by simp) fun i h _ => ?_
  have hi : i < n := by simp at h; omega
  by_cases hl : i < l.length
  · simp [byteAt, List.getElem_append_left hl, hl]
  · simp [byteAt, List.getElem_append_right (Nat.not_lt.1 hl), Nat.not_lt.1 hl]

/-- The bytes of a slot after a write. -/
def slotWritten (old : List Byte) (off : Nat) (b : List Byte) : List Byte :=
  let l := (old ++ List.replicate 2048 0).take 2048
  l.take off ++ b ++ l.drop (off + b.length)

theorem byteAt_slotWritten (old : List Byte) {off i : Nat} {b : List Byte} (hend : off + b.length ≤ 2048) (hi : i < 2048) :
    byteAt (slotWritten old off b) i = if off ≤ i ∧ i < off + b.length then byteAt b (i - off) else byteAt old i := by
  have hold : byteAt ((List.range 2048).map (byteAt old)) i = byteAt old i := by simp [byteAt, hi]
  have hlen : (((List.range 2048).map (byteAt old)).take off).length = off := by simp; omega
  rw [slotWritten, take_filled, ← hold]
  generalize hl : (List.range 2048).map (byteAt old) = l at *
  simp only [byteAt, List.getD_eq_getElem?_getD]
  split
  next h =>
    rw [List.append_assoc, List.getElem?_append_right (by omega), hlen, List.getElem?_append_left (by omega)]
  next h =>
    by_cases hlow : i < off
    · rw [List.append_assoc, List.getElem?_append_left (by omega), List.getElem?_take_of_lt hlow]
    · rw [List.getElem?_append_right (by simp only [List.length_append, hlen]; omega), List.getElem?_drop]
      simp only [List.length_append, hlen]
      rw [show off + b.length + (i - (off + b.length)) = i by omega]

/-! ### Vectors (R279, R280, Table 16.4) -/

/-- Vector `k` can leave. -/
def State.sends (s : State) (k : Nat) : Bool :=
  s.pcie.linkUp && s.busMaster && s.msixOn && !s.vectorMasked k && !s.d3hot

theorem sends_iff (s : State) (k : Nat) : s.sends k = true ↔
    s.pcie.linkUp = true ∧ s.busMaster = true ∧ s.msixOn = true ∧ s.vectorMasked k = false ∧ s.d3hot = false := by
  simp [State.sends, and_assoc]

theorem raiseVector_sent {s : State} {k : Nat} (h : s.sends k = true) :
    raiseVector k s = { s with pcie := { s.pcie with msix := k :: s.pcie.msix } } := if_pos h

theorem raiseVector_pending {s : State} {k : Nat} (h : s.sends k = false) :
    raiseVector k s = { s with pcie := { s.pcie with pba := putBit s.pcie.pba k true } } := if_neg (ne_true_of_eq_false h)

theorem raiseVector_rest (k : Nat) (s : State) : raiseVector k s =
    { s with pcie := { s.pcie with pba := (raiseVector k s).pcie.pba, msix := (raiseVector k s).pcie.msix } } := by
  cases h : s.sends k
  · rw [raiseVector_pending h]
  · rw [raiseVector_sent h]

/-- A pending vector leaves, if it can. -/
def releaseVector (t : State) (v : Nat) : State :=
  if hasBit t.pcie.pba v then raiseVector v { t with pcie := { t.pcie with pba := putBit t.pcie.pba v false } } else t

theorem releaseVectors_eq (s : State) : releaseVectors s = (List.range 4).foldl releaseVector s := rfl

theorem releaseVector_spec (t : State) (v : Nat) : ∃ p m,
    releaseVector t v = { t with pcie := { t.pcie with pba := p, msix := m } } ∧ t.pcie.msix ⊆ m ∧
    (t.sends v = true → t.pcie.pba.getLsbD v = true → v ∈ m) ∧
    ∀ j < 4, p.getLsbD j = if j = v ∧ t.sends v = true then false else t.pcie.pba.getLsbD j := by
  by_cases hbit : t.pcie.pba.getLsbD v = true
  · have hrelease : releaseVector t v = raiseVector v { t with pcie := { t.pcie with pba := putBit t.pcie.pba v false } } :=
      if_pos hbit
    cases hsend : t.sends v
    · refine ⟨_, _, hrelease.trans (raiseVector_pending hsend), List.Subset.refl _, by simp, fun j hj => ?_⟩
      simp only [getLsbD_putBit _ _ _ hj]
      split
      next h => subst h; simp [hbit]
      next h => simp
    · refine ⟨_, _, hrelease.trans (raiseVector_sent hsend), List.subset_cons_self _ _, fun _ _ => List.mem_cons_self,
        fun j hj => ?_⟩
      simp [getLsbD_putBit _ _ _ hj]
  · refine ⟨t.pcie.pba, t.pcie.msix, if_neg hbit, List.Subset.refl _, fun _ h => absurd h hbit, fun j _ => ?_⟩
    split
    next h => rw [h.1]; simpa using hbit
    next => rfl

theorem foldl_releaseVector (s : State) (n : Nat) : ∃ p m,
    (List.range n).foldl releaseVector s = { s with pcie := { s.pcie with pba := p, msix := m } } ∧
    ∀ j < 4, (s.sends j = true → j < n → s.pcie.pba.getLsbD j = true → j ∈ m) ∧
      p.getLsbD j = if j < n ∧ s.sends j = true then false else s.pcie.pba.getLsbD j := by
  induction n with
  | zero => exact ⟨s.pcie.pba, s.pcie.msix, rfl, fun j _ => ⟨fun _ h => absurd h (Nat.not_lt_zero j), by simp⟩⟩
  | succ n ih =>
    obtain ⟨p, m, hfold, hall⟩ := ih
    obtain ⟨p', m', hstep, hmono, hsent, hbits⟩ := releaseVector_spec { s with pcie := { s.pcie with pba := p, msix := m } } n
    refine ⟨p', m', ?_, fun j hj => ?_⟩
    · rw [List.range_succ, List.foldl_append, hfold]
      exact hstep
    · obtain ⟨hmem, hbit⟩ := hall j hj
      have hsend : ({ s with pcie := { s.pcie with pba := p, msix := m } } : State).sends n = s.sends n := rfl
      rw [hsend] at hsent hbits
      have hnew := hbits j hj
      dsimp only at hsent hnew
      refine ⟨fun hs hlt hp => ?_, ?_⟩
      · by_cases hjn : j < n
        · exact hmono (hmem hs hjn hp)
        · obtain rfl : j = n := by omega
          exact hsent hs (by rw [hbit, if_neg (by omega)]; exact hp)
      · rw [hnew, hbit]
        by_cases hjn : j = n
        · subst hjn; simp
        · have hlt : j < n + 1 ↔ j < n := by omega
          simp [hjn, hlt]

/-! ### The MSI-X table (Table 16.2) -/

/-- How the table holds a dword: the vector control complemented. -/
def vectorWord (n : Nat) (w : Word) : Word := if n % 4 = 3 then ~~~w &&& 1 else w

/-- One dword enters the table. -/
def putVector (base : Nat) (s : State) (w : Word × Nat) : State :=
  let n := base + w.2
  if n < 16 then { s with pcie := { s.pcie with msixTable := tabSet 0 s.pcie.msixTable n (vectorWord n w.1) } } else s

theorem writeVectors_eq (off : Nat) (l : List Word) (s : State) :
    writeVectors off l s = releaseVectors (l.zipIdx.foldl (putVector (off / 4)) s) := rfl

theorem foldl_putVector (base : Nat) (l : List Word) (k : Nat) (s : State) : ∃ m,
    (l.zipIdx k).foldl (putVector base) s = { s with pcie := { s.pcie with msixTable := m } } ∧
    ∀ i, tabGet 0 m i = if base + k ≤ i ∧ i < base + k + l.length ∧ i < 16 then vectorWord i (l.getD (i - (base + k)) 0)
      else tabGet 0 s.pcie.msixTable i := by
  induction l generalizing k s with
  | nil => exact ⟨s.pcie.msixTable, rfl, fun i => by rw [if_neg (by simp; omega)]⟩
  | cons w l ih =>
    obtain ⟨m, hfold, hall⟩ := ih (k + 1) (putVector base s (w, k))
    refine ⟨m, ?_, fun i => ?_⟩
    · rw [List.zipIdx_cons, List.foldl_cons, hfold, putVector]
      split <;> rfl
    · have hfirst : tabGet 0 (putVector base s (w, k)).pcie.msixTable i =
          if i = base + k ∧ i < 16 then vectorWord i w else tabGet 0 s.pcie.msixTable i := by
        unfold putVector
        dsimp only
        split
        next h =>
          rw [tabGet_tabSet]
          by_cases hi : i = base + k
          · simp [hi, h]
          · simp [hi]
        next h => rw [if_neg (by omega)]
      rw [hall, hfirst, List.length_cons]
      by_cases hi : i = base + k
      · subst hi
        rw [if_neg (by omega)]
        exact if_congr (by omega) (by simp) rfl
      · rw [if_neg (c := i = base + k ∧ i < 16) (by omega)]
        by_cases hlater : base + (k + 1) ≤ i ∧ i < base + (k + 1) + l.length ∧ i < 16
        · rw [if_pos hlater, if_pos (by omega), show i - (base + k) = i - (base + (k + 1)) + 1 by omega, List.getD_cons_succ]
        · rw [if_neg hlater, if_neg (by omega)]

/-! ### Command slots (R281, R282) -/

theorem exec_cmdSlotWrite_unhosted {s : State} (h : s.hosted = false) (slot off : Nat) (b : List Byte) :
    exec (.cmdSlotWrite slot off b) s = .next s := by
  show execCmdSlotWrite slot off b s = _
  simp [execCmdSlotWrite, h]

theorem exec_cmdSlotWrite_discarded (s : State) {slot off : Nat} {b : List Byte} (h : off % 4 ≠ 0 ∨ b.length % 4 ≠ 0 ∨
    2048 < off + b.length ∨ (4 ≤ slot ∧ slot ≠ 7) ∨ (slot < 4 ∧ s.pcie.busy.getLsbD slot = true)) :
    exec (.cmdSlotWrite slot off b) s = .next s := by
  show execCmdSlotWrite slot off b s = _
  rw [execCmdSlotWrite]
  split
  next => rfl
  next hgood =>
    have hslot : (4 ≤ slot ∧ slot ≠ 7) ∨ (slot < 4 ∧ s.pcie.busy.getLsbD slot = true) := by
      simp only [Bool.or_eq_true, decide_eq_true_eq] at hgood
      tauto
    rw [if_neg (by omega)]
    exact congrArg _ (if_pos (hslot.symm.imp And.right And.left))

section
variable {s : State} {off : Nat} {b : List Byte} (hhost : s.hosted = true) (halign : off % 4 = 0) (hwords : b.length % 4 = 0)
  (hend : off + b.length ≤ 2048)
include hhost halign hwords hend

theorem exec_cmdSlotWrite_slot {slot : Nat} (hslot : slot < 4) (hfree : s.pcie.busy.getLsbD slot = false) :
    exec (.cmdSlotWrite slot off b) s = .next { s with pcie := { s.pcie with
      slots := tabSet [] s.pcie.slots slot (slotWritten (tabGet [] s.pcie.slots slot) off b) } } := by
  show execCmdSlotWrite slot off b s = _
  rw [execCmdSlotWrite, if_neg (by simp [hhost, halign, hwords, hend]), if_neg (by omega),
    if_neg (by rw [hasBit, hfree]; simpa using hslot)]
  rfl

/-- Region 7 holds the MSI-X table. -/
theorem exec_cmdSlotWrite_vectors : exec (.cmdSlotWrite 7 off b) s = .next (writeVectors off (wordsOf b) s) := by
  show execCmdSlotWrite 7 off b s = _
  rw [execCmdSlotWrite, if_neg (by simp [hhost, halign, hwords, hend]), if_pos rfl]

end

/-- What the words of a write leave in the table. -/
theorem tabGet_vectors (off : Nat) {b : List Byte} (hwords : b.length % 4 = 0) (s : State) : ∃ m,
    (wordsOf b).zipIdx.foldl (putVector (off / 4)) s = { s with pcie := { s.pcie with msixTable := m } } ∧
    ∀ i, tabGet 0 m i = if off / 4 ≤ i ∧ i < off / 4 + b.length / 4 ∧ i < 16 then
        vectorWord i (wd (leAt b (4 * (i - off / 4)) 4))
      else tabGet 0 s.pcie.msixTable i := by
  obtain ⟨m, hfold, hall⟩ := foldl_putVector (off / 4) (wordsOf b) 0 s
  refine ⟨m, hfold, fun i => ?_⟩
  rw [hall, length_wordsOf hwords, Nat.add_zero]
  by_cases hi : off / 4 ≤ i ∧ i < off / 4 + b.length / 4 ∧ i < 16
  · rw [if_pos hi, if_pos hi, wordsOf_getD (by omega)]
  · rw [if_neg hi, if_neg hi]

/-! ### Responses (R283, R285) -/

section
variable {s : State}

theorem ackResponse_arming {m : List Byte} (h : s.pcie.armRsp = some m) : ackResponse s =
    raiseVector 1 { s with pcie := { s.pcie with direct := some m, armRsp := none } } := by
  simp [ackResponse, fillDirect, h]

theorem ackResponse_waiting {m : List Byte} {r : List (List Byte)} (harm : s.pcie.armRsp = none) (hwait : s.pcie.waiting = m :: r)
    (hring : s.pcie.ringArmed = false) : ackResponse s =
    raiseVector 1 { s with pcie := { s.pcie with direct := some m, waiting := r } } := by
  simp [ackResponse, fillDirect, harm, hwait, hring]

theorem ackResponse_empty (harm : s.pcie.armRsp = none) (h : s.pcie.waiting = [] ∨ s.pcie.ringArmed = true) :
    ackResponse s = { s with pcie := { s.pcie with direct := none } } := by
  cases hwait : s.pcie.waiting with
  | nil => simp [ackResponse, fillDirect, harm, hwait]
  | cons m r =>
    have hring : s.pcie.ringArmed = true := h.resolve_left (by simp [hwait])
    simp [ackResponse, fillDirect, harm, hwait, hring]

end

/-- An acknowledged response leaves the slots as they are. -/
theorem ackResponse_slots (s : State) : (ackResponse s).pcie.busy = s.pcie.busy ∧ (ackResponse s).pcie.queue = s.pcie.queue := by
  unfold ackResponse fillDirect
  dsimp only
  split
  · exact ⟨rfl, rfl⟩
  · split
    · rw [raiseVector_rest]; exact ⟨rfl, rfl⟩
    · split
      · exact ⟨rfl, rfl⟩
      · rw [raiseVector_rest]; exact ⟨rfl, rfl⟩
    · exact ⟨rfl, rfl⟩

/-! ### Doorbells (R282, R283) -/

/-- A doorbell's acknowledgement. -/
def State.acked (v : Word) (s : State) : State := if v.getLsbD 31 = true then ackResponse s else s

theorem acked_slots (v : Word) (s : State) : (s.acked v).pcie.busy = s.pcie.busy ∧ (s.acked v).pcie.queue = s.pcie.queue := by
  unfold State.acked
  split
  · exact ackResponse_slots s
  · exact ⟨rfl, rfl⟩

/-- The slot that a doorbell names. -/
def doorbellSlot (v : Word) : Nat := v.toNat % 4

/-- The length that a doorbell gives. -/
def doorbellLength (v : Word) : Nat := v.toNat / 2 ^ 16 % 2 ^ 12

theorem doorbell_eq (v : Word) (s : State) : doorbell v s =
    if v.getLsbD 31 = true ∧ doorbellLength v = 0 then s.acked v
    else if s.pcie.busy.getLsbD (doorbellSlot v) = true ∨ doorbellLength v = 0 ∨ 2048 < doorbellLength v then
      doorbellError (s.acked v)
    else { s.acked v with pcie := { (s.acked v).pcie with
      busy := putBit s.pcie.busy (doorbellSlot v) true, queue := s.pcie.queue ++ [(doorbellSlot v, doorbellLength v)] } } := by
  obtain ⟨hbusy, hqueue⟩ := acked_slots v s
  have hslot : fld v 1 0 = doorbellSlot v := by simp [fld, bits, doorbellSlot]
  have hlen : fld v 27 16 = doorbellLength v := rfl
  rw [← hbusy, ← hqueue, doorbell, hslot, hlen]
  simp only [Bool.and_eq_true, decide_eq_true_eq]
  rfl

theorem exec_cmdDoorbell {s : State} (h : s.hosted = true) (v : Word) : exec (.cmdDoorbell v) s = .next (doorbell v s) := by
  show execCmdDoorbell v s = _
  rw [execCmdDoorbell, if_pos h]

/-! ### SLOT_COPY (R282) -/

theorem takesCommands_iff (s : State) : s.takesCommands = true ↔
    s.pcie.waiting = [] ∧ s.pcie.armRsp = none ∧ (s.pcie.ringArmed = true ∨ s.pcie.direct = none) := by
  simp [State.takesCommands, and_assoc]

theorem exec_slotCopy_empty {s : State} (h : s.pcie.queue = []) : exec .slotCopy s = .next s := by
  show execSlotCopy s = _
  simp [execSlotCopy, h]

section
variable {s : State} {j l : Nat} {r : List (Nat × Nat)} (hclk : s.clocked = true) (hqueue : s.pcie.queue = (j, l) :: r)
include hqueue

theorem exec_slotCopy_held (h : s.takesCommands = false) : exec .slotCopy s = .next s := by
  show execSlotCopy s = _
  simp [execSlotCopy, hqueue, h]

include hclk

theorem exec_slotCopy_taken (h : s.takesCommands = true) : exec .slotCopy s =
    let t : State := { s with pcie := { s.pcie with queue := r, busy := putBit s.pcie.busy j false } }
    .next (receiveMsg .pcie ((List.range l).map (byteAt (tabGet [] s.pcie.slots j)))
      (if s.pcie.busy = 15#4 then raiseVector 1 t else t)) := by
  show execSlotCopy s = _
  simp only [execSlotCopy, hqueue, hclk, h, take_filled, decide_eq_true_eq]
  rfl

end

/-! ### The report ring (R284, R285) -/

theorem ringSize_eq (s : State) : s.ringSize = 2 ^ ((s.par 0x203).toNat % 32) := by simp [State.ringSize, fld, bits]

theorem drainRing_full {s : State} {m : List Byte} {r : List (List Byte)} (h : s.pcie.waiting = m :: r) (c : Nat) :
    drainRing (c + 1) s = if s.pcie.ringArmed = true ∧ s.ringRoom m = true then
      drainRing c (ringPut m { s with pcie := { s.pcie with waiting := r } }) else s := by
  rw [drainRing, h]
  simp only [Bool.and_eq_true]

theorem drainRing_empty {s : State} (h : s.pcie.waiting = []) (c : Nat) : drainRing c s = s := by
  cases c with
  | zero => rfl
  | succ c => rw [drainRing, h]

theorem ringRoom_iff (s : State) (m : List Byte) : s.ringRoom m = true ↔
    (if s.ringSize < s.pcie.prod + (ringRecord m).length then s.ringSize - s.pcie.prod else 0) + (ringRecord m).length + 64 ≤
      s.ringFree := by
  rw [State.ringRoom, State.ringNeed, decide_eq_true_eq]
  split
  · rfl
  · rw [Nat.zero_add]

@[simp] theorem ringSize_hostWrite (a : Nat) (b : List Byte) (s : State) : (hostWrite a b s).ringSize = s.ringSize := rfl

@[simp] theorem pair_hostWrite (a : Nat) (b : List Byte) (s : State) (n : Nat) : (hostWrite a b s).pair n = s.pair n := rfl

theorem ringPut_fits {s : State} {m : List Byte} (h : s.pcie.prod + (ringRecord m).length ≤ s.ringSize) :
    let p := (s.pcie.prod + (ringRecord m).length) % s.ringSize
    ringPut m s = signalRing { s with pcie := { s.pcie with
      prod := p, hostWrites := (s.pair 0x204, leBytes 8 p) :: (s.pair 0x201 + s.pcie.prod, ringRecord m) :: s.pcie.hostWrites } } := by
  simp only [ringPut, Nat.not_lt.2 h, decide_false, Bool.false_eq_true, if_false, pair_hostWrite]
  simp only [hostWrite]

theorem ringPut_wraps {s : State} {m : List Byte} (h : s.ringSize < s.pcie.prod + (ringRecord m).length) :
    let p := (ringRecord m).length % s.ringSize
    ringPut m s = signalRing { s with pcie := { s.pcie with
      prod := p, hostWrites := (s.pair 0x204, leBytes 8 p) :: (s.pair 0x201, ringRecord m) ::
        (s.pair 0x201 + s.pcie.prod, padTo 64 [0xFF, 0xFF, 0, 0]) :: s.pcie.hostWrites } } := by
  simp only [ringPut, h, decide_true, if_true, Nat.zero_add, Nat.add_zero, ringSize_hostWrite, pair_hostWrite]
  simp only [hostWrite]

/-- The hold-off of vector 0 is over. -/
abbrev State.holdoffPast (s : State) : Prop :=
  ∀ c, s.pcie.lastVec0 = some c → c + (s.par 0x207).toNat % 65536 * 1000 ≤ s.clk.cyc

theorem signalRing_past {s : State} (h : s.holdoffPast) : signalRing s =
    raiseVector 0 { s with pcie := { s.pcie with lastVec0 := some s.clk.cyc, unsignalled := false } } := by
  refine if_pos ?_
  cases hlast : s.pcie.lastVec0 with
  | none => rfl
  | some c =>
    have hc := h c hlast
    simpa [fld, bits] using hc

theorem signalRing_early {s : State} (h : ¬ s.holdoffPast) :
    signalRing s = { s with pcie := { s.pcie with unsignalled := true } } := by
  obtain ⟨c, hlast, hc⟩ : ∃ c, s.pcie.lastVec0 = some c ∧ ¬ c + (s.par 0x207).toNat % 65536 * 1000 ≤ s.clk.cyc := by
    simpa [State.holdoffPast] using h
  refine if_neg ?_
  rw [hlast]
  simpa [fld, bits] using hc

theorem exec_msixHoldoffExpiry (s : State) : exec .msixHoldoffExpiry s =
    .next (if s.clocked = true ∧ s.pcie.unsignalled = true ∧ s.holdoffPast then signalRing s else s) := by
  show execMsixHoldoffExpiry s = _
  rw [execMsixHoldoffExpiry]
  refine congrArg _ (if_congr ?_ rfl rfl)
  rw [Bool.and_eq_true, Bool.and_eq_true, and_assoc, State.holdoffPast]
  refine and_congr_right fun _ => and_congr_right fun _ => ?_
  cases s.pcie.lastVec0 with
  | none => simp
  | some c => simp [fld, bits]

/-- Arming the ring starts it empty, after its checks (R284, R294). -/
theorem exec_ringArm {s : State} {v : Word} (hv : v.getLsbD 0 = true) (h : s.Writes 0x206) : exec (.ringArm v) s = .next
    (if (s.par 0x203).toNat % 32 < 16 ∨ 24 < (s.par 0x203).toNat % 32 ∨ s.pair 0x201 % 2 ^ ((s.par 0x203).toNat % 32) ≠ 0 then
      s.ended 9
     else (drainRing 64 { s with pcie := { s.pcie with ringArmed := true, prod := 0, cons := 0 } }).ended 0) := by
  have hsize : fld (s.par 0x203) 4 0 = (s.par 0x203).toNat % 32 := by simp [fld, bits]
  show execRingArm v s = _
  rw [execRingArm, if_pos hv, hostEntry_eq h, writeRingCtrl, hsize]
  simp only [hv, if_true]
  split <;> rfl

theorem exec_ringDoorbell {s : State} (h : s.hosted = true) (v : Word) : exec (.ringDoorbell v) s = .next
    (if s.ringSize ≤ v.toNat ∨ (s.pcie.prod + s.ringSize - s.pcie.cons % s.ringSize) % s.ringSize <
        (v.toNat + s.ringSize - s.pcie.cons % s.ringSize) % s.ringSize then doorbellError s
     else drainRing 64 { s with pcie := { s.pcie with cons := v.toNat } }) := by
  show execRingDoorbell v s = _
  simp only [execRingDoorbell, h]
  rfl

/-! ### Configuration space (R279, R280) -/

theorem exec_pcieConfigRequest_read {s : State} (h : s.hosted = true) (r : Nat) (v : Word) :
    exec (.pcieConfigRequest false r v) s =
      .next { s with pcie := { s.pcie with complete := (0, leBytes 4 (cfgRead s r)) :: s.pcie.complete } } := by
  show execPcieConfigRequest false r v s = _
  simp [execPcieConfigRequest, h]

/-- The dword after a configuration write. -/
def State.cfgWritten (s : State) (r : Nat) (v : Word) : State :=
  { s with pcie := { s.pcie with
      config := tabSet 0 s.pcie.config r ((s.cfgReg r &&& ~~~(cfgMask r)) ||| (v &&& cfgMask r)) } }

theorem exec_pcieConfigRequest_write {s : State} (h : s.hosted = true) (r : Nat) (v : Word) :
    exec (.pcieConfigRequest true r v) s = .next
      (if r = 0x1E ∧ v.getLsbD 15 = true then pcieClear (s.cfgWritten r v)
       else releaseVectors (if s.d3hot = true ∧ (s.cfgWritten r v).d3hot = false then releaseUpstream (s.cfgWritten r v)
         else s.cfgWritten r v)) := by
  show execPcieConfigRequest true r v s = _
  rw [execPcieConfigRequest, if_neg (by simp [h]), if_pos rfl, cfgWrite]
  refine congrArg _ (if_congr Iff.rfl rfl (congrArg releaseVectors (if_congr ?_ rfl rfl)))
  simp [State.cfgWritten]

/-! ### Link and resets (R46, R293) -/

theorem exec_pcieReset (s : State) : exec .pcieReset s =
    .next (if s.clocked = true ∧ s.pcie.started = true then pcieClear s else s) := by
  show execPcieReset s = _
  rw [execPcieReset]
  exact congrArg _ (if_congr (Bool.and_eq_true ..).to_iff rfl rfl)

theorem exec_pcieLinkDown {s : State} (h : s.hosted = true) : exec .pcieLinkDown s = .next
    ((pcieClear { s with pcie := { s.pcie with linkUp := false, width := 0, gen := 0 } }).raise 0x18 [0, 0, 0]) := by
  show execPcieLinkDown s = _
  rw [execPcieLinkDown, if_pos h]

/-- The endpoint after a reset with no upstream packet held. -/
def State.pcieCleared (s : State) : State := { s with
  pcie := { Pcie.reset with
    started := s.pcie.started, linkUp := s.pcie.linkUp, width := s.pcie.width, gen := s.pcie.gen
    hostWrites := s.pcie.hostWrites, msix := s.pcie.msix, complete := s.pcie.complete, bulkCyc := s.pcie.bulkCyc }
  lamp := { s.lamp with orphans := (s.lamp.inbox ++ s.lamp.running).filter (fun c => decide (c.via = .pcie)) }
  mesh := { s.mesh with trans := s.mesh.trans.filter (fun t => match t.purpose with | .bulk _ _ => false | _ => true) } }

theorem pcieClear_eq {s : State} (h : s.pcie.held = []) : pcieClear s =
    if s.lamp.owner = some .pcie then changeOwner none 4 s.pcieCleared else s.pcieCleared := by
  rw [pcieClear]
  dsimp only
  rw [releaseUpstream]
  dsimp only
  rw [h]
  rfl

theorem pcieCeiling_eq (s : State) : s.pcieCeiling =
    (if (s.rv 4 = 1 ∨ s.rv 4 = 2 ∨ s.rv 4 = 3 ∨ s.rv 4 = 15) ∧ s.variant = .pt1600 then 8 else 4,
      if s.rv 4 = 2 ∨ s.rv 4 = 5 then 4 else if s.rv 4 = 3 ∨ s.rv 4 = 6 then 3 else 5) := by
  simp [State.pcieCeiling]

theorem exec_pcieLinkUp (s : State) (w g : Nat) : exec (.pcieLinkUp w g) s = .next
    (if s.clocked = true ∧ s.pcie.started = true ∧ s.pcie.linkUp = false ∧ 1 ≤ w ∧ w ≤ s.pcieCeiling.1 ∧ 1 ≤ g ∧
        g ≤ s.pcieCeiling.2 then
      ({ s with pcie := { s.pcie with linkUp := true, width := w, gen := g } } : State).raise 0x18
        [1, BitVec.ofNat 8 w, BitVec.ofNat 8 g]
     else s) := by
  show execPcieLinkUp w g s = _
  rw [execPcieLinkUp]
  refine congrArg _ (if_congr ?_ rfl rfl)
  simp only [Bool.and_eq_true, Bool.not_eq_true', decide_eq_true_eq]
  tauto

/-! ### The obligation -/

/-- Without the core clock or the link the host reaches nothing (R279). -/
theorem exec_host_unhosted {s : State} (h : s.hosted = false) (v : Word) (slot off : Nat) (b : List Byte) :
    exec (.cmdSlotWrite slot off b) s = .next s ∧ exec (.cmdDoorbell v) s = .next s ∧ exec .rspAck s = .next s ∧
    exec (.ringDoorbell v) s = .next s ∧ exec .pcieLinkDown s = .next s ∧
    ∀ w r, exec (.pcieConfigRequest w r v) s = .next s := by
  have hif (u : State) : (Host.Outcome.next (if s.hosted then u else s) : Host.Outcome State Fault Refusal) = .next s := by
    rw [if_neg (by simp [h])]
  refine ⟨exec_cmdSlotWrite_unhosted h slot off b, hif _, hif _, ?_, hif _, fun w r => ?_⟩
  · show execRingDoorbell v s = _
    simp [execRingDoorbell, h]
  · show execPcieConfigRequest w r v s = _
    simp [execPcieConfigRequest, h]

/-- Settles O46: one law for each case of each command of the endpoint. -/
theorem hostReachesTheLampOverPcie : Obligations.HostReachesTheLampOverPcie := by
  intro s v slot off b host dbError can k n size
  have hcan : ∀ j, s.sends j = true ↔ can s j := sends_iff s
  have hcannot : ∀ j, ¬ can s j → s.sends j = false := fun j hj => by rw [← hcan] at hj; simpa using hj
  have hsize : s.ringSize = size := ringSize_eq s
  refine ⟨fun hno => exec_host_unhosted ((not_hosted_iff s).2 hno) v slot off b, fun hhost => ?_,
    ⟨fun m => ackResponse_arming, fun m r => ackResponse_waiting, ackResponse_empty⟩,
    fun j hj => ⟨fun h => raiseVector_sent ((hcan j).2 h), fun h => ?_⟩, ?_, exec_slotCopy_empty, fun j l r hclk hqueue => ?_,
    exec_ringArm, fun c => ⟨rfl, fun h => drainRing_empty h c, fun m r h => drainRing_full h c⟩, ?_,
    ⟨signalRing_early, signalRing_past, exec_msixHoldoffExpiry s⟩, ⟨exec_pcieReset s, ?_⟩, fun w g => ?_⟩
  · have hreach := (hosted_iff s).2 hhost
    refine ⟨exec_cmdSlotWrite_discarded s, fun halign hwords hend => ⟨fun hslot hfree => ?_, ?_⟩, ?_,
      congrArg _ (if_pos hreach), ?_, fun r => exec_pcieConfigRequest_read hreach r v,
      fun r => exec_pcieConfigRequest_write hreach r v, exec_pcieLinkDown hreach⟩
    · refine ⟨_, exec_cmdSlotWrite_slot hreach halign hwords hend hslot hfree, rfl, fun j hj => tabGet_tabSet_ne _ _ _ _ _ hj,
        fun i hi => ?_⟩
      simp only [tabGet_tabSet_same]
      exact byteAt_slotWritten _ hend hi
    · rintro rfl
      obtain ⟨m, hfold, hall⟩ := tabGet_vectors off hwords s
      refine ⟨{ s with pcie := { s.pcie with msixTable := m } }, ?_, rfl, hall⟩
      rw [exec_cmdSlotWrite_vectors hreach halign hwords hend, writeVectors_eq, hfold]
    · intro a
      have hexec := (exec_cmdDoorbell hreach v).trans (congrArg _ (doorbell_eq v s))
      refine ⟨fun hack hn => hexec.trans (congrArg _ (if_pos ⟨hack, hn⟩)), fun hbad => ?_, fun hsome hmost hfree => ?_⟩
      · have hlen : ¬ (v.getLsbD 31 = true ∧ n = 0) := by
          rintro ⟨hack, hn⟩
          obtain ⟨-, hnoack⟩ | ⟨hsome, -⟩ := hbad
          · exact absurd (hack.symm.trans hnoack) (by decide)
          · exact hsome hn
        exact hexec.trans (congrArg _ ((if_neg hlen).trans (if_pos (by tauto))))
      · have hgood : ¬ (s.pcie.busy.getLsbD k = true ∨ n = 0 ∨ 2048 < n) := by simp [hfree, hsome, hmost]
        exact ⟨_, hexec.trans (congrArg _ ((if_neg fun h => hsome h.2).trans (if_neg hgood))), rfl,
          fun j hj => by simp [getLsbD_putBit _ _ _ hj, k, doorbellSlot]⟩
    · have hring := exec_ringDoorbell hreach v
      rw [hsize] at hring
      exact hring
  · exact ⟨_, raiseVector_pending (hcannot j h), rfl, fun i hi => by simp [getLsbD_putBit _ _ _ hi]⟩
  · obtain ⟨p, m, hfold, hall⟩ := foldl_releaseVector s 4
    refine ⟨_, (releaseVectors_eq s).trans hfold, rfl, fun j hj => ?_⟩
    obtain ⟨hmem, hbit⟩ := hall j hj
    refine ⟨fun h => ⟨?_, hmem ((hcan j).2 h) hj⟩, fun h => ?_⟩
    · exact hbit.trans (if_pos ⟨hj, (hcan j).2 h⟩)
    · exact hbit.trans (if_neg fun hs => h ((hcan j).1 hs.2))
  · intro takes
    refine ⟨fun h => exec_slotCopy_held hqueue ?_, fun h => ⟨_, rfl, fun i hi => ?_,
      exec_slotCopy_taken hclk hqueue ((takesCommands_iff s).2 h)⟩⟩
    · exact Bool.eq_false_iff.2 fun htakes => h ((takesCommands_iff s).1 htakes)
    · simp [getLsbD_putBit _ _ _ hi]
  · intro m r base free
    refine ⟨?_, fun h => ?_, fun h => ?_⟩
    · have hroom := ringRoom_iff s m
      rw [State.ringFree, hsize] at hroom
      exact hroom
    · have hput := ringPut_fits (hsize ▸ h)
      rw [hsize] at hput
      exact hput
    · have hput := ringPut_wraps (hsize ▸ h)
      rw [hsize] at hput
      exact hput
  · exact pcieClear_eq
  · have hup := exec_pcieLinkUp s w g
    rw [pcieCeiling_eq] at hup
    exact hup

end Sys2Proof.Machine
end

section
/-!
PROOF of O45 (chapter 19, R311, R312): taking raises and sending reports.  The batch of the concentrator is an insertion sort
by tick and number, a raise has one of three outcomes (suppressed, queued, lost), and what leaves next is said once
(`nextReport`) before the owner's transport is asked.
-/

namespace Sys2Proof.Machine

/-! ### The order of a batch (R333) -/

theorem Latch.before_iff (a b : Latch) :
    a.before b = true ↔ a.tick.toNat < b.tick.toNat ∨ (a.tick = b.tick ∧ a.event ≤ b.event) := decide_eq_true_iff

theorem Latch.before_total : Std.Total fun a b : Latch => a.before b = true := by
  refine ⟨fun a b => ?_⟩
  simp only [before_iff, ← BitVec.toNat_inj]
  omega

theorem Latch.before_trans : IsTrans Latch fun a b => a.before b = true := by
  refine ⟨fun a b c => ?_⟩
  simp only [before_iff, ← BitVec.toNat_inj]
  omega

theorem insertLatch_eq_orderedInsert (a : Latch) (l : List Latch) :
    insertLatch a l = l.orderedInsert (fun a b => a.before b = true) a := by
  induction l with
  | nil => rfl
  | cons b r ih => rw [insertLatch, List.orderedInsert_cons, ih]

theorem sortLatches_eq_insertionSort (l : List Latch) :
    sortLatches l = l.insertionSort (fun a b => a.before b = true) := by
  induction l with
  | nil => rfl
  | cons a r ih => rw [sortLatches, List.insertionSort_cons, ih, insertLatch_eq_orderedInsert]

theorem sortLatches_perm (l : List Latch) : (sortLatches l).Perm l :=
  sortLatches_eq_insertionSort l ▸ List.perm_insertionSort _ l

theorem sortLatches_pairwise (l : List Latch) : (sortLatches l).Pairwise fun a b =>
    a.tick.toNat < b.tick.toNat ∨ (a.tick = b.tick ∧ a.event ≤ b.event) := by
  have := Latch.before_total
  have := Latch.before_trans
  rw [sortLatches_eq_insertionSort]
  exact (List.pairwise_insertionSort _ l).imp fun h => (Latch.before_iff _ _).1 h

theorem exec_eventTake_stopped {s : State} (h : s.clocked = false) : exec .eventTake s = .next s :=
  congrArg _ (if_neg (by simp [h]))

theorem exec_eventTake_running {s : State} (h : s.clocked = true) : exec .eventTake s = .next (takeAll s) :=
  congrArg _ (if_pos h)

/-! ### One raise: masked or held off, queued, or lost (R311, R335) -/

/-- The HOLDOFF field of EVT_CTRL (R335). -/
theorem fld_holdoff (c : Word) : fld c 23 8 = c.toNat / 2 ^ 8 % 2 ^ 16 := rfl

theorem suppressed_iff (s : State) (e : Nat) (t : Tick) : s.suppressed e t = true ↔ (eventClass e).getD 0 ≠ 3 ∧
    ((s.par (0x3B00 + e)).getLsbD 0 = true ∨
      ∃ l, tabGet none s.evt.lastTick e = some l ∧ (s.par (0x3B00 + e)).toNat / 2 ^ 8 % 2 ^ 16 ≠ 0 ∧
        t.toNat < l.toNat + (s.par (0x3B00 + e)).toNat / 2 ^ 8 % 2 ^ 16 * 1000000) := by
  unfold State.suppressed
  rw [Bool.and_eq_true, Bool.or_eq_true]
  refine and_congr decide_eq_true_iff (or_congr Iff.rfl ?_)
  cases tabGet none s.evt.lastTick e <;> simp [fld_holdoff]

section
variable {s : State} {r : Latch}

theorem takeLatch_suppressed (h : s.suppressed r.event r.tick = true) :
    takeLatch r s = s.count (0x3C00 + r.event) (1 + r.merged) := if_pos h

variable (h : ¬ s.suppressed r.event r.tick = true)
include h

theorem takeLatch_queued (hroom : s.evt.queue.length < 128) :
    takeLatch r s = { s.count (0x3C00 + r.event) (1 + r.merged) with evt := { s.evt with
      queue := s.evt.queue ++ [{ event := r.event, tick := r.tick, data := r.data }]
      queueMax := max s.evt.queueMax (s.evt.queue.length + 1)
      lastTick := tabSet none s.evt.lastTick r.event (some r.tick) } } := by
  rw [takeLatch, if_neg h, queueReport, State.count_evt, if_neg (Nat.not_le.2 hroom)]
  simp only [List.length_append, List.length_singleton]

theorem takeLatch_lost (hfull : 128 ≤ s.evt.queue.length) :
    takeLatch r s = loseReport r.event r.tick (s.count (0x3C00 + r.event) (1 + r.merged)) := by
  rw [takeLatch, if_neg h, queueReport, State.count_evt, if_pos hfull]

end

/-! ### What leaves next (R311, R312) -/

section
variable {s : State} (v : Transport)

theorem nextReport_empty (hqueue : s.evt.queue = []) (hlost : s.evt.lost = none) : s.nextReport v = none := by
  simp [State.nextReport, hqueue, hlost]

theorem nextReport_queued {a : Report} {q : List Report} (hlost : s.evt.lost = none) (hqueue : s.evt.queue = a :: q) :
    s.nextReport v = some (message 2 0x80 0 0 (s.places v) (reportBody a), { s.evt with queue := q }) := by
  simp [State.nextReport, hqueue, hlost]

theorem nextReport_before_lost {k : Lost} {a : Report} {q : List Report} (hlost : s.evt.lost = some k)
    (hbehind : k.behind ≠ 0) (hqueue : s.evt.queue = a :: q) :
    s.nextReport v = some (message 2 0x80 0 0 (s.places v) (reportBody a),
      { s.evt with queue := q, lost := some { k with behind := k.behind - 1 } }) := by
  simp [State.nextReport, hqueue, hlost, hbehind]

theorem nextReport_lost {k : Lost} (hlost : s.evt.lost = some k) (hbehind : k.behind = 0) :
    s.nextReport v = some (message 2 0x81 0 0 (s.places v) (lostBody k), { s.evt with lost := none }) := by
  simp [State.nextReport, hlost, hbehind]

end

/-! ### The owner's transport (R95, R96, R304, R312) -/

section
variable {s : State}

theorem exec_reportSend_unowned (h : s.lamp.owner = none) : exec .reportSend s = .next s := by
  show execReportSend s = _
  rw [execReportSend, h]

theorem exec_reportSend_early (huser : s.user = false) (hbanked : s.banked = false) : exec .reportSend s = .next s := by
  show execReportSend s = _
  cases howner : s.lamp.owner <;> simp [execReportSend, howner, huser, hbanked]

theorem exec_reportSend_idle (h : ∀ v, s.nextReport v = none) : exec .reportSend s = .next s := by
  show execReportSend s = _
  cases howner : s.lamp.owner <;> simp [execReportSend, howner, h]

variable {m : List Byte} {e : Events} (hclk : s.clocked = true) (hopen : s.user = true ∨ s.banked = true)
include hclk hopen

theorem exec_reportSend_lampPair (howner : s.lamp.owner = some .lampPair) (hnext : s.nextReport .lampPair = some (m, e)) :
    exec .reportSend s = .next (if s.lamp.pairOn = true ∧ tabGet 0 s.pins.kinds 12 = 0 then
      { s with evt := e, lamp := { s.lamp with sent := m :: s.lamp.sent } } else s) := by
  show execReportSend s = _
  simp only [execReportSend, howner, hclk, Bool.or_eq_true_iff.2 hopen, hnext, State.lampTxOff]
  simp

theorem exec_reportSend_pcie (howner : s.lamp.owner = some .pcie) (hnext : s.nextReport .pcie = some (m, e)) :
    exec .reportSend s = .next (if s.pcie.ringArmed = true ∧ s.pcie.waiting = [] ∧ s.ringRoom m = true then
      ringPut m { s with evt := e } else s) := by
  show execReportSend s = _
  simp only [execReportSend, howner, hclk, Bool.or_eq_true_iff.2 hopen, hnext]
  simp [and_assoc]

end

/-! ### The obligation -/

/-- Settles O45: the batch is sorted, a raise has one of three outcomes, and what leaves next goes to the owner's transport. -/
theorem eventsAreTakenAndReported : Obligations.EventsAreTakenAndReported := by
  intro s r ctrl cls muted c fresh lost free headed
  have hmuted : s.suppressed r.event r.tick = true ↔ muted := suppressed_iff s r.event r.tick
  refine ⟨exec_eventTake_stopped, fun hclk => ?_, fun h => takeLatch_suppressed (hmuted.2 h),
    fun h => takeLatch_queued (mt hmuted.1 h), fun h => takeLatch_lost (mt hmuted.1 h), exec_reportSend_unowned,
    exec_reportSend_early, fun hqueue hlost => exec_reportSend_idle fun v => nextReport_empty v hqueue hlost,
    fun v m e hclk hopen howner hleaves => ?_⟩
  · exact ⟨sortLatches s.evt.latches, sortLatches_perm _, sortLatches_pairwise _, exec_eventTake_running hclk⟩
  · have hnext : s.nextReport v = some (m, e) := by
      obtain ⟨hlost, a, q, hqueue, rfl, rfl⟩ | ⟨k, a, q, hlost, hbehind, hqueue, rfl, rfl⟩ |
        ⟨k, hlost, hbehind, rfl, rfl⟩ := hleaves
      · exact nextReport_queued v hlost hqueue
      · exact nextReport_before_lost v hlost hbehind hqueue
      · exact nextReport_lost v hlost hbehind
    constructor
    · rintro rfl
      exact exec_reportSend_lampPair hclk hopen howner hnext
    · rintro rfl
      exact exec_reportSend_pcie hclk hopen howner hnext

end Sys2Proof.Machine
end

section
/-!
PROOF of O48 (chapter 22): the passes of the sweep, the check of an entry, its repair and policy, and the restart.  Each
branch of an operation is one lemma; a mismatch is classified after the golden copy was read, and reading the flash changes
neither the place nor its copy (`State.FlashRead`).
-/

namespace Sys2Proof.Machine

/-! ### Reading the flash (R121, R129) -/

/-- `t` is `s` but for what reads of flash words leave: counters, events, free choices and the time of the last 0xD0. -/
def State.FlashRead (s t : State) : Prop :=
  t = { s with params := t.params, evt := t.evt, free := t.free, flash := { s.flash with corrCyc := t.flash.corrCyc } }

section
variable {s t u : State}

theorem State.FlashRead.refl (s : State) : s.FlashRead s := rfl

theorem State.FlashRead.trans (h : s.FlashRead t) (h' : t.FlashRead u) : s.FlashRead u := by
  unfold State.FlashRead at *
  rw [h', h]

theorem State.FlashRead.raise (h : s.FlashRead t) (e : Nat) (l : List Byte) : s.FlashRead (t.raise e l) := by
  refine h.trans ?_
  unfold State.FlashRead State.raise
  split <;> rfl

theorem State.FlashRead.countWord (h : s.FlashRead t) (w : Nat) : s.FlashRead (countWord w t) := by
  refine h.trans ?_
  unfold Machine.countWord
  split
  · exact .refl t
  · dsimp only
    refine iteInduction (motive := t.FlashRead) (fun _ => State.FlashRead.raise ?_ _ _) (fun _ => rfl)
    exact rfl
  · refine State.FlashRead.raise ?_ _ _
    exact rfl

theorem State.FlashRead.readWords (h : s.FlashRead t) (n w : Nat) : s.FlashRead (readWords n w t).2 := by
  induction n generalizing w t with
  | zero => exact h
  | succ n ih =>
    rw [Machine.readWords]
    refine ih (State.FlashRead.countWord (h.trans ?_) w) (w + 1)
    split <;> rfl

theorem flashRead_readFlash (a n : Nat) (s : State) : s.FlashRead (readFlash a n s).2 := (State.FlashRead.refl s).readWords _ _

theorem State.FlashRead.placeData (h : s.FlashRead t) (e : Golden) : t.placeData e = s.placeData e := by
  rw [show t = _ from h]; rfl

theorem State.FlashRead.goldenData (h : s.FlashRead t) (e : Golden) : t.goldenData e = s.goldenData e := by
  rw [show t = _ from h]; rfl

end

/-! ### Passes (R381, R382) -/

section
variable (s : State)

theorem startSweepPass_eq : startSweepPass s = { s with sweep := { s.sweep with
    running := true, start := s.clk.cyc, index := 0, repair := none, changed := false
    teff := 8 * Max.max ((s.par 0x3A00).toNat % 2 ^ 14 * 125000) (72 * s.img.golden.length) } } := by
  simp [startSweepPass, fld, bits]

theorem exec_sweepPassStart : exec .sweepPassStart s = .next
    (if s.clocked = true ∧ s.user = true ∧ s.sweep.restarting = false ∧ s.img.golden.length ≠ 0 ∧
      (s.sweep.running = false ∨ s.img.golden.length ≤ s.sweep.index) then startSweepPass s else s) := by
  show execSweepPassStart s = _
  simp [execSweepPassStart, and_assoc]

/-- The state in which the next entry is due. -/
def State.sweepMoved : State :=
  { s with sweep := { s.sweep with index := s.sweep.index + 1, repair := none, changed := false } }

variable {s}

theorem nextEntry_within (h : s.sweep.index + 1 < s.img.golden.length) : nextEntry s = s.sweepMoved := if_pos h

theorem nextEntry_last (h : s.img.golden.length ≤ s.sweep.index + 1) : nextEntry s =
    (let late := decide (s.sweep.start + s.sweep.teff < s.clk.cyc)
     let m := s.sweepMoved.tally 0x3A04 1
     let l : State := { m with sweep := { m.sweep with late := late } }
     if late = true ∧ s.sweep.late = false then
       l.raise 0xE4 (leBytes 4 ((s.clk.cyc - s.sweep.start + 999999) / 1000000)) else l) := by
  refine (if_neg (Nat.not_lt.2 h)).trans ?_
  simp only [Bool.and_eq_true, Bool.not_eq_true']
  rfl

end

/-! ### The supervisor's restart (R394) -/

theorem foldl_modGal (f : Gallery → Gallery) (n : Nat) (s : State) :
    let t := (List.range n).foldl (fun s p => s.modGal p f) s
    t = { s with gals := t.gals } ∧ ∀ p, t.gal p = if p < n then f (s.gal p) else s.gal p := by
  induction n with
  | zero => exact ⟨rfl, fun _ => rfl⟩
  | succ n ih =>
    obtain ⟨hrest, hgal⟩ := ih
    simp only [List.range_succ, List.foldl_append, List.foldl_cons, List.foldl_nil]
    refine ⟨congrArg (fun u : State => u.modGal n f) hrest, fun p => ?_⟩
    by_cases hp : p = n
    · subst hp
      simp [hgal]
    · rw [State.gal_modGal_ne _ _ _ _ hp, hgal]
      simp only [show p < n + 1 ↔ p < n by omega]

theorem restartSweep_spec (cause : Nat) (s : State) :
    ∃ t : State, restartSweep cause s = (t.count 0x3A05 1).raise 0xE2 [BitVec.ofNat 8 cause] ∧
    t = { s with gals := t.gals, sweep := { s.sweep with restarting := true, repair := none, changed := false } } ∧
    ∀ p, t.gal p = if p < 17 then { s.gal p with portWait := (s.gal p).portWait.filter (fun w => !w.isSweep) } else s.gal p :=
  ⟨_, rfl, foldl_modGal (fun x => { x with portWait := x.portWait.filter (fun w => !w.isSweep) }) 17 _⟩

section
variable (s : State)

theorem exec_sweepVoteFailure :
    exec .sweepVoteFailure s = .next (if s.clocked = true ∧ s.user = true then restartSweep 1 s else s) := by
  show execSweepVoteFailure s = _
  simp [execSweepVoteFailure]

theorem exec_sweepHeartbeatTimeout : exec .sweepHeartbeatTimeout s = .next
    (if s.clocked = true ∧ s.user = true ∧ s.sweep.restarting = false then restartSweep 2 s else s) := by
  show execSweepHeartbeatTimeout s = _
  simp [execSweepHeartbeatTimeout, and_assoc]

theorem exec_sweepRestartDone : exec .sweepRestartDone s = .next (if s.clocked = true ∧ s.sweep.restarting = true then
    startSweepPass { s with sweep := { s.sweep with restarting := false } } else s) := by
  show execSweepRestartDone s = _
  simp [execSweepRestartDone]

end

/-! ### Places that are not checked, and frames in use (R379, R387, R388, R390–R392) -/

section
variable {s : State} {i : Nat} {e : Golden}

theorem sweepSkips_iff : s.sweepSkips i e = true ↔
    cfaNorm e.cfa ∈ s.sweep.unguarded ∨ (s.img.host = true ∧ 8192 ≤ i) ∨
    (cfaKind e.cfa = 0 ∧ (s.galOn (cfaGal e.cfa) = false ∨
      ((s.gal (cfaGal e.cfa)).fillingOf (cfaCtx e.cfa)).isSome = true)) ∨
    ((cfaKind e.cfa = 1 ∨ cfaKind e.cfa = 2) ∧ s.galOn (cfaGal e.cfa) = false) ∨
    (cfaKind e.cfa = 3 ∧ s.tndOn = false) ∨ (3 < cfaKind e.cfa ∧ (s.dom (16 + cfaGal e.cfa / 2)).st ≠ .on) := by
  simp only [State.sweepSkips, Bool.or_eq_true, or_assoc, List.contains_iff_mem, Bool.and_eq_true, decide_eq_true_eq]
  refine or_congr_right (or_congr_right ?_)
  split
  next hkind => simp [hkind]
  next hkind => simp [hkind]
  next hkind => simp [hkind]
  next hkind => simp [hkind]
  next h0 h1 h2 h3 =>
    change cfaKind e.cfa ≠ _ at h0 h1 h2 h3
    have : 3 < cfaKind e.cfa := by omega
    simp [this, h0, h1, h2, h3]

theorem frameInUse_iff : s.frameInUse i e = true ↔
    (cfaKind e.cfa = 0 ∧ ∃ p, (s.gal (cfaGal e.cfa)).planeOf (cfaCtx e.cfa) = some p ∧
      (p = (s.gal (cfaGal e.cfa)).active ∨
        tabGet 0 s.sweep.checked i ≤ ((s.gal (cfaGal e.cfa)).plane p).usedCyc)) ∨
    cfaKind e.cfa = 1 ∨ cfaKind e.cfa = 2 := by
  unfold State.frameInUse
  dsimp only
  split
  next hkind => cases (s.gal (cfaGal e.cfa)).planeOf (cfaCtx e.cfa) <;> simp [hkind]
  next hkind => simp [hkind]
  next hkind => simp [hkind]
  next h0 h1 h2 =>
    change cfaKind e.cfa ≠ _ at h0 h1 h2
    simp [h0, h1, h2]

/-- The frame of the entry was changed in service (R386). -/
theorem shadows_any_iff {cfa : Nat} : s.sweep.shadows.any (fun h => decide (h.cfa = cfa)) = true ↔
    ∃ h ∈ s.sweep.shadows, h.cfa = cfa := by simp

end

/-! ### The policy (R385, R388, Table 22.2) -/

section
variable {s : State} {cfa g : Nat} {used : Bool} {k : Nat}

theorem policyFor_eq (huse : used = true → cfaKind cfa ≤ 2 → k = (s.par (galP (cfaGal cfa) 0x30)).toNat % 4)
    (hidle : ¬ (used = true ∧ cfaKind cfa ≤ 2) → k = 0) : s.policyFor cfa used = k := by
  by_cases h : used = true ∧ cfaKind cfa ≤ 2
  · simp [State.policyFor, ofGallery, h.1, h.2, huse h.1 h.2, fld, bits]
  · simpa [State.policyFor, ofGallery, h] using (hidle h).symm

theorem applyPolicy_reset : applyPolicy 1 g s = (let c := s.count (galP g 0x33) 1
    if s.damping g = true then c.modGal g (fun x => { x with resetDue := true }) else galleryReset g c) := rfl

theorem applyPolicy_none (h1 : k ≠ 1) (h2 : k ≠ 2) : applyPolicy k g s = s := by
  unfold applyPolicy
  split <;> [contradiction; contradiction; rfl]

theorem countEssential_eq : countEssential cfa s =
    if cfaKind cfa ≤ 2 then (s.count 0x3A03 1).count (galP (cfaGal cfa) 0x31) 1 else s.count 0x3A03 1 := by
  simp [countEssential, ofGallery]

theorem recordRepair_benign (n : Nat) : recordRepair cfa n false used s =
    if cfaKind cfa ≤ 2 then (s.count 0x3A02 1).count (galP (cfaGal cfa) 0x32) 1 else s.count 0x3A02 1 := by
  simp [recordRepair, ofGallery]

theorem recordRepair_essential (n : Nat) (hpolicy : s.policyFor cfa used = k) : recordRepair cfa n true used s =
    (applyPolicy k (cfaGal cfa) ((countEssential cfa s).putPar 0x3A06 (wd cfa))).raise 0xE0
      (leBytes 4 cfa ++ leBytes 2 n ++ [BitVec.ofNat 8 k]) := by
  rw [← hpolicy]; rfl

variable {i : Nat} {e : Golden} (hpolicy : s.policyFor e.cfa (s.frameInUse i e) = k)
include hpolicy

theorem goldenFails_eq : goldenFails i e s = applyPolicy k (cfaGal e.cfa)
    (({ s with sweep := { s.sweep with unguarded := s.sweep.unguarded ++ [cfaNorm e.cfa] } } : State).raise 0xE3
      (leBytes 4 e.cfa)) := by
  rw [← hpolicy]; rfl

theorem detectOnly_reported (h : cfaNorm e.cfa ∈ (applyPolicy k (cfaGal e.cfa) (countEssential e.cfa s)).sweep.reported) :
    detectOnly i e s = applyPolicy k (cfaGal e.cfa) (countEssential e.cfa s) := by
  subst hpolicy
  exact if_pos (List.contains_iff_mem.2 h)

theorem detectOnly_first (h : cfaNorm e.cfa ∉ (applyPolicy k (cfaGal e.cfa) (countEssential e.cfa s)).sweep.reported) :
    let d := applyPolicy k (cfaGal e.cfa) (countEssential e.cfa s)
    ∃ n, detectOnly i e s =
      ({ d with free := d.free + 1, sweep := { d.sweep with reported := d.sweep.reported ++ [cfaNorm e.cfa] } } : State).raise
        0xE0 (leBytes 4 e.cfa ++ leBytes 2 n ++ [BitVec.ofNat 8 k]) := by
  subst hpolicy
  exact ⟨_, if_neg (mt List.contains_iff_mem.1 h)⟩

end

/-! ### A mismatch (R384, R387, R389, R391) -/

/-- The repair of entry `i`, whose place differs in the bits `diff`, asks for the configuration port. -/
def askRepair (i : Nat) (e : Golden) (diff : List Nat) (s : State) : State :=
  let c := classify e diff s
  askPort (cfaPort e.cfa) (.sweep 0)
    { c.2 with sweep := { c.2.sweep with repair := some (i, diff.length, c.1, c.2.frameInUse i e), changed := false } }

section
variable {s : State} {i : Nat} {e : Golden} {flips : List Nat}

theorem mismatch_host (h : s.img.host = true) : mismatch i e flips s = endEntry (detectOnly i e s) := if_pos h

variable (hhost : s.img.host = false)
include hhost

theorem mismatch_port (hkind : cfaKind e.cfa = 4) :
    mismatch i e flips s = endEntry (recordRepair e.cfa flips.length true false s) := by
  rw [mismatch, if_neg (by simp [hhost]), if_pos hkind]

end

section
variable (s : State) (e : Golden)

/-- The golden frame of the entry comes from a service shadow (R386). -/
abbrev State.Shadowed : Prop := ∃ h ∈ s.sweep.shadows, h.cfa = cfaNorm e.cfa

/-- The golden copy of the entry in flash cannot be used (R387). -/
abbrev State.GoldenBad : Prop :=
  ¬ s.Shadowed e ∧ (s.flashBad (s.img.base + e.frameOff + 16) 512 = true ∨ crc32 (s.goldenData e) ≠ e.gcrc)

/-- The state once the golden copy was read: a service shadow is not read from the flash. -/
abbrev State.goldenRead : State :=
  if s.Shadowed e then s else (readFlash (s.img.base + e.frameOff + 16) 512 s).2

theorem flashRead_goldenRead : s.FlashRead (s.goldenRead e) := by
  unfold State.goldenRead
  split
  · exact .refl s
  · exact flashRead_readFlash _ _ s

variable {s e} {i : Nat} {flips : List Nat} (hhost : s.img.host = false) (hkind : cfaKind e.cfa ≠ 4)
include hhost hkind

/-- What a mismatch does once the golden copy is at hand. -/
theorem mismatch_golden : mismatch i e flips s =
    if s.GoldenBad e then endEntry (goldenFails i e (s.goldenRead e))
    else askRepair i e (diffBits (s.placeData e) (s.goldenData e)) (s.goldenRead e) := by
  have hbad : (!(s.sweep.shadows.any fun h => decide (h.cfa = cfaNorm e.cfa)) &&
      (s.flashBad (s.img.base + e.frameOff + 16) 512 || decide (crc32 (s.goldenData e) ≠ e.gcrc))) = true ↔
      s.GoldenBad e := by simp [State.GoldenBad]
  have hread : (if (s.sweep.shadows.any fun h => decide (h.cfa = cfaNorm e.cfa)) = true then s
      else (readFlash (s.img.base + e.frameOff + 16) 512 s).2) = s.goldenRead e := if_congr shadows_any_iff rfl rfl
  have hsame := flashRead_goldenRead s e
  rw [mismatch, if_neg (by simp [hhost]), if_neg hkind]
  refine if_congr hbad (by rw [hread]) ?_
  rw [hread, hsame.placeData, hsame.goldenData]
  rfl

theorem mismatch_damaged (h : s.GoldenBad e) : mismatch i e flips s = endEntry (goldenFails i e (s.goldenRead e)) := by
  rw [mismatch_golden hhost hkind, if_pos h]

theorem mismatch_repair (h : ¬ s.GoldenBad e) : mismatch i e flips s =
    askRepair i e (diffBits (s.placeData e) (s.goldenData e)) (s.goldenRead e) := by
  rw [mismatch_golden hhost hkind, if_neg h]

end

/-- Without a map record every difference is essential (R384). -/
theorem classify_unmapped {s : State} {e : Golden} (diff : List Nat) (h : e.mapOff = 0 ∨ s.Shadowed e) :
    classify e diff s = (true, s) :=
  if_pos (h.imp_right shadows_any_iff.2)

/-! ### SWEEP_ENTRY_DUE (R381, R384) -/

/-- The sweep can take its next entry. -/
abbrev State.SweepBusy (s : State) : Prop :=
  s.clocked = true ∧ s.user = true ∧ s.sweep.running = true ∧ s.sweep.restarting = false ∧ s.sweep.repair = none

/-- The place of the entry as it is checked: the bits that upsets have inverted are put into it. -/
abbrev State.upset (s : State) (e : Golden) (flips : List Nat) : State :=
  if flips = [] then s else putPlace e (flipBits (s.placeData e) flips) s

section
variable {s : State} (flips : List Nat) (ups : List Upset)

theorem exec_sweepEntryDue_idle (h : ¬ s.SweepBusy) : exec (.sweepEntryDue flips ups) s = .next s := by
  refine congrArg _ (if_pos ?_)
  by_contra hgo
  exact h (by simpa [and_assoc] using hgo)

variable {i : Nat} {e : Golden} {flips ups}
  (hindex : s.sweep.index = i) (hentry : s.img.golden[i]? = some e) (hbusy : s.SweepBusy)
include hindex hentry hbusy

theorem exec_sweepEntryDue_busy : exec (.sweepEntryDue flips ups) s = .next
    (let u := noteFlash ups s
     if u.sweepSkips i e = true then nextEntry u
     else if cfaKind e.cfa = 4 then (if flips = [] then endEntry u else mismatch i e flips u)
     else if crc32 ((u.upset e flips).placeData e) = (u.upset e flips).goldenCrc e then endEntry (u.upset e flips)
     else mismatch i e flips (u.upset e flips)) := by
  obtain ⟨hclk, huser, hrun, hrestart, hrepair⟩ := hbusy
  show execSweepEntryDue flips ups s = _
  simp [execSweepEntryDue, hclk, huser, hrun, hrestart, hrepair, hindex, hentry]

theorem exec_sweepEntryDue_skip (h : (noteFlash ups s).sweepSkips i e = true) :
    exec (.sweepEntryDue flips ups) s = .next (nextEntry (noteFlash ups s)) :=
  (exec_sweepEntryDue_busy hindex hentry hbusy).trans (congrArg _ (if_pos h))

variable (hchecked : ¬ (noteFlash ups s).sweepSkips i e = true)
include hchecked

theorem exec_sweepEntryDue_port (hkind : cfaKind e.cfa = 4) : exec (.sweepEntryDue flips ups) s = .next
    (if flips = [] then endEntry (noteFlash ups s) else mismatch i e flips (noteFlash ups s)) :=
  (exec_sweepEntryDue_busy hindex hentry hbusy).trans (congrArg _ ((if_neg hchecked).trans (if_pos hkind)))

variable (hkind : cfaKind e.cfa ≠ 4)
include hkind

theorem exec_sweepEntryDue_match
    (h : crc32 (((noteFlash ups s).upset e flips).placeData e) = ((noteFlash ups s).upset e flips).goldenCrc e) :
    exec (.sweepEntryDue flips ups) s = .next (endEntry ((noteFlash ups s).upset e flips)) :=
  (exec_sweepEntryDue_busy hindex hentry hbusy).trans
    (congrArg _ ((if_neg hchecked).trans ((if_neg hkind).trans (if_pos h))))

theorem exec_sweepEntryDue_mismatch
    (h : crc32 (((noteFlash ups s).upset e flips).placeData e) ≠ ((noteFlash ups s).upset e flips).goldenCrc e) :
    exec (.sweepEntryDue flips ups) s = .next (mismatch i e flips ((noteFlash ups s).upset e flips)) :=
  (exec_sweepEntryDue_busy hindex hentry hbusy).trans
    (congrArg _ ((if_neg hchecked).trans ((if_neg hkind).trans (if_neg h))))

end

/-! ### SWEEP_REPAIR_WRITE (R384–R386, R389) -/

section
variable {s : State} {i n : Nat} {e : Golden} {ess used : Bool}

theorem exec_sweepRepairWrite_none (h : s.sweep.repair = none) : exec .sweepRepairWrite s = .next s := by
  show execSweepRepairWrite s = _
  rw [execSweepRepairWrite, h]

variable (hrepair : s.sweep.repair = some (i, n, ess, used)) (hentry : s.img.golden[i]? = some e)
include hrepair hentry

theorem exec_sweepRepairWrite_some : exec .sweepRepairWrite s = .next
    (if s.clocked = false ∨ s.sweepHolds (cfaPort e.cfa) = false then s
     else if s.sweep.changed = true then endEntry s
     else endEntry (recordRepair e.cfa n ess used (repairPlace e s))) := by
  show execSweepRepairWrite s = _
  simp [execSweepRepairWrite, hrepair, hentry]

theorem exec_sweepRepairWrite_waits (h : s.clocked = false ∨ s.sweepHolds (cfaPort e.cfa) = false) :
    exec .sweepRepairWrite s = .next s :=
  (exec_sweepRepairWrite_some hrepair hentry).trans (congrArg _ (if_pos h))

theorem exec_sweepRepairWrite_granted (hclk : s.clocked = true) (hport : s.sweepHolds (cfaPort e.cfa) = true) :
    exec .sweepRepairWrite s = .next
      (if s.sweep.changed = true then endEntry s else endEntry (recordRepair e.cfa n ess used (repairPlace e s))) :=
  (exec_sweepRepairWrite_some hrepair hentry).trans (congrArg _ (if_neg (by simp [hclk, hport])))

end

/-! ### The obligation -/

/-- Settles O48: passes, the check of an entry, its repair and policy, and the restart, one branch after the other. -/
theorem sweepChecksRepairsAndRestarts : Obligations.SweepChecksRepairsAndRestarts := by
  intro s i e flips ups g kind hearths total teff begun busy u skips inUse shadowed
  have hskips : u.sweepSkips i e = true ↔ skips := sweepSkips_iff
  have hused (v : State) : v.frameInUse i e = true ↔ inUse v := frameInUse_iff
  have hcounted (v : State) : countEssential e.cfa v =
      if hearths then (v.count 0x3A03 1).count (galP g 0x31) 1 else v.count 0x3A03 1 := countEssential_eq
  refine ⟨?_, exec_sweepVoteFailure s, exec_sweepHeartbeatTimeout s, ?_, fun cause => restartSweep_spec cause s,
    exec_sweepEntryDue_idle flips ups, fun hindex hentry hbusy => ⟨fun h => ?_, fun h hkind => ?_, fun h hkind => ?_⟩,
    exec_sweepRepairWrite_none, fun n ess used hrepair hentry => ⟨exec_sweepRepairWrite_waits hrepair hentry, ?_⟩,
    fun n used => recordRepair_benign n, fun n used k huse hidle => ?_, fun k huse hidle => ?_,
    ⟨applyPolicy_reset, rfl, fun k => applyPolicy_none⟩, rfl, nextEntry_within, nextEntry_last⟩
  · rw [exec_sweepPassStart, startSweepPass_eq]
  · rw [exec_sweepRestartDone, startSweepPass_eq]
    rfl
  · exact exec_sweepEntryDue_skip hindex hentry hbusy (hskips.2 h)
  · have hport := exec_sweepEntryDue_port (flips := flips) hindex hentry hbusy (mt hskips.1 h) hkind
    refine ⟨fun hflips => hport.trans (congrArg _ (if_pos hflips)), fun hflips => ?_⟩
    refine hport.trans (congrArg _ ((if_neg hflips).trans ?_))
    split
    next hhost => exact mismatch_host hhost
    next hhost => exact mismatch_port (Bool.eq_false_iff.2 hhost) hkind
  · intro w golden
    refine ⟨exec_sweepEntryDue_match hindex hentry hbusy (mt hskips.1 h) hkind, fun hdiff => ?_⟩
    have hmismatch := exec_sweepEntryDue_mismatch hindex hentry hbusy (mt hskips.1 h) hkind hdiff
    refine ⟨fun hhost => hmismatch.trans (congrArg _ (mismatch_host hhost)), fun hhost => ?_⟩
    intro a bad v
    refine ⟨fun hbad => hmismatch.trans (congrArg _ (mismatch_damaged hhost hkind hbad)), fun hbad => ?_⟩
    intro c
    refine ⟨?_, classify_unmapped _⟩
    have huse : c.2.frameInUse i e = decide (inUse c.2) := by rw [Bool.eq_iff_iff, hused, decide_eq_true_iff]
    rw [← huse]
    exact hmismatch.trans (congrArg _ (mismatch_repair hhost hkind hbad))
  · intro hclk hport
    have hgranted := exec_sweepRepairWrite_granted hrepair hentry hclk hport
    exact ⟨fun h => hgranted.trans (congrArg _ (if_pos h)), fun h => hgranted.trans (congrArg _ (if_neg (by simp [h])))⟩
  · rw [recordRepair_essential n (policyFor_eq huse fun h => hidle ((not_and_or.1 h).imp_left Bool.eq_false_iff.2)), hcounted]
  · have hpolicy : s.policyFor e.cfa (s.frameInUse i e) = k :=
      policyFor_eq (fun h => huse ((hused s).1 h)) (fun h => hidle (fun h' => h (h'.imp_left (hused s).2)))
    refine ⟨goldenFails_eq hpolicy, ?_⟩
    rw [← hcounted]
    exact ⟨detectOnly_reported hpolicy, detectOnly_first hpolicy⟩

end Sys2Proof.Machine
end

section
/-!
PROOF of O50 (chapter 25, R420–R426): the tally reader.  A completed record is first copied into the parameters of its port
(`keepRecord`) and then judged; the binding, the state and the presence of the port are not touched by the copy, so that the
judgement may be read off the port as it stood before the read ended.
-/

namespace Sys2Proof.Machine

/-! ### Ports and parameters -/

theorem State.modPort_congr {s : State} {p : Nat} {f g : Port → Port} (h : f (s.port p) = g (s.port p)) :
    s.modPort p f = s.modPort p g :=
  congrArg (fun x => { s with ports := tabSet Port.reset s.ports p x }) h

/-- Writes `v 0` to `v (n - 1)` at the numbers `key 0` to `key (n - 1)`. -/
def putRow (key : Nat → Nat) (v : Nat → Word) (n : Nat) (s : State) : State :=
  (List.range n).foldl (fun s i => s.putPar (key i) (v i)) s

theorem putRow_succ (key : Nat → Nat) (v : Nat → Word) (n : Nat) (s : State) :
    putRow key v (n + 1) s = (putRow key v n s).putPar (key n) (v n) := by
  rw [putRow, List.range_succ, List.foldl_append]
  rfl

theorem putRow_rest (key : Nat → Nat) (v : Nat → Word) (n : Nat) (s : State) :
    putRow key v n s = { s with params := (putRow key v n s).params } := by
  induction n with
  | zero => rfl
  | succ n ih =>
    rw [putRow_succ]
    exact congrArg (fun t : State => t.putPar (key n) (v n)) ih

theorem par_putRow_other {key : Nat → Nat} (v : Nat → Word) {n m : Nat} (s : State) (h : ∀ i < n, m ≠ key i) :
    (putRow key v n s).par m = s.par m := by
  induction n with
  | zero => rfl
  | succ n ih => rw [putRow_succ, State.par_putPar_ne _ _ _ _ (h n n.lt_succ_self), ih fun i hi => h i (Nat.lt_succ_of_lt hi)]

theorem par_putRow_key {key : Nat → Nat} (hkey : key.Injective) (v : Nat → Word) {n i : Nat} (s : State) (hi : i < n) :
    (putRow key v n s).par (key i) = v i := by
  induction n with
  | zero => exact absurd hi i.not_lt_zero
  | succ n ih =>
    rw [putRow_succ]
    obtain hlt | rfl := Nat.lt_succ_iff_lt_or_eq.1 hi
    · rw [State.par_putPar_ne _ _ _ _ (hkey.ne hlt.ne), ih hlt]
    · rw [State.par_putPar_same]

/-! ### Little-endian fields (R4) -/

theorem leAt_succ (l : List Byte) (off n : Nat) : leAt l off (n + 1) = (byteAt l off).toNat + 256 * leAt l (off + 1) n := by
  by_cases h : off < l.length
  · rw [leAt, slice, List.drop_eq_getElem_cons h, List.take_succ_cons, leNat, byteAt, List.getD_eq_getElem _ _ h]
    rfl
  · have hlen := Nat.not_lt.1 h
    rw [leAt, slice, List.drop_eq_nil_of_le hlen, leAt, slice, List.drop_eq_nil_of_le (Nat.le_succ_of_le hlen), byteAt,
      List.getD_eq_default _ _ hlen]
    simp [leNat]

theorem leAt_zero (l : List Byte) (off : Nat) : leAt l off 0 = 0 := rfl

theorem leAt_two (l : List Byte) (off : Nat) :
    leAt l off 2 = (byteAt l off).toNat + 256 * (byteAt l (off + 1)).toNat := by
  rw [leAt_succ, leAt_succ, leAt_zero]
  rfl

theorem leAt_four (l : List Byte) (off : Nat) : leAt l off 4 = (byteAt l off).toNat + 256 * (byteAt l (off + 1)).toNat +
    65536 * (byteAt l (off + 2)).toNat + 16777216 * (byteAt l (off + 3)).toNat := by
  rw [leAt_succ, leAt_succ, leAt_two]
  simp only [Nat.add_assoc, Nat.reduceAdd]
  omega

theorem leAt_four_lt (l : List Byte) (off : Nat) : leAt l off 4 < 4294967296 := by
  rw [leAt_four]
  have h0 := (byteAt l off).isLt
  have h1 := (byteAt l (off + 1)).isLt
  have h2 := (byteAt l (off + 2)).isLt
  have h3 := (byteAt l (off + 3)).isLt
  omega

theorem leAt_two_inj {l m : List Byte} {i j : Nat} :
    leAt l i 2 = leAt m j 2 ↔ byteAt l i = byteAt m j ∧ byteAt l (i + 1) = byteAt m (j + 1) := by
  rw [leAt_two, leAt_two, ← BitVec.toNat_inj, ← BitVec.toNat_inj]
  have hi := (byteAt l i).isLt
  have hj := (byteAt m j).isLt
  omega

theorem leAt_two_ne_zero {l : List Byte} {i : Nat} : leAt l i 2 ≠ 0 ↔ byteAt l i ≠ 0 ∨ byteAt l (i + 1) ≠ 0 := by
  have hzero (b : Byte) : b = 0 ↔ b.toNat = 0 := BitVec.toNat_inj.symm
  rw [leAt_two, ne_eq, ne_eq, ne_eq, hzero, hzero]
  omega

/-! ### The record (Table 25.1) -/

/-- The 32 bytes that a read delivers. -/
def tallyBytes (d : List Byte) : List Byte := (List.range 32).map (byteAt d)

theorem byteAt_tallyBytes (d : List Byte) {i : Nat} (h : i < 32) : byteAt (tallyBytes d) i = byteAt d i := by
  simp [tallyBytes, byteAt, h]

/-- CRC32 of a record, as its last four bytes give it. -/
def tallyCrc (d : List Byte) : Word := wd ((byteAt d 28).toNat + 256 * (byteAt d 29).toNat +
  65536 * (byteAt d 30).toNat + 16777216 * (byteAt d 31).toNat)

/-- Checks 2 to 4 of R423 on the bytes that a read delivers. -/
theorem recordReason_tallyBytes (d : List Byte) : recordReason (tallyBytes d) =
    if byteAt d 0 ≠ 0x54 ∨ byteAt d 1 ≠ 0x4C then 2
    else if crc32 ((List.range 28).map (byteAt d)) ≠ tallyCrc d then 3
    else if byteAt d 2 ≠ 1 ∨ (byteAt d 3 ≠ 0xA5 ∧ byteAt d 3 ≠ 0x5A) then 4
    else 0 := by
  have htake : (tallyBytes d).take 28 = (List.range 28).map (byteAt d) := by
    rw [tallyBytes, ← List.map_take, List.take_range]
    rfl
  rw [recordReason, htake, leAt_four]
  simp (disch := decide) only [byteAt_tallyBytes, tallyCrc, Nat.reduceAdd]
  rfl

theorem recordReason_eq_zero_iff (d : List Byte) : recordReason (tallyBytes d) = 0 ↔
    byteAt d 0 = 0x54 ∧ byteAt d 1 = 0x4C ∧ crc32 ((List.range 28).map (byteAt d)) = tallyCrc d ∧ byteAt d 2 = 1 ∧
      (byteAt d 3 = 0xA5 ∨ byteAt d 3 = 0x5A) := by
  rw [recordReason_tallyBytes]
  split
  next hmark => exact iff_of_false (by decide) fun ⟨h0, h1, _⟩ => hmark.elim (· h0) (· h1)
  next hmark =>
    split
    next hcrc => exact iff_of_false (by decide) fun ⟨_, _, hsame, _⟩ => hcrc hsame
    next hcrc =>
      simp only [not_or, not_not] at hmark hcrc
      simp only [hmark, hcrc, ite_eq_right_iff]
      tauto

/-- The check of a bad record that fails first. -/
theorem recordReason_of_bad {d : List Byte} (h : recordReason (tallyBytes d) ≠ 0) : recordReason (tallyBytes d) =
    if byteAt d 0 ≠ 0x54 ∨ byteAt d 1 ≠ 0x4C then 2
    else if crc32 ((List.range 28).map (byteAt d)) ≠ tallyCrc d then 3 else 4 := by
  rw [recordReason_tallyBytes] at h ⊢
  split
  next => rfl
  next hmark =>
    rw [if_neg hmark] at h
    split
    next => rfl
    next hcrc =>
      rw [if_neg hcrc] at h
      exact if_pos (by_contra fun hlast => h (if_neg hlast))

/-- The binding lists the module of the record (R424, mode 2). -/
theorem bindMatches_tallyBytes (cfg d : List Byte) : bindMatches cfg (tallyBytes d) = true ↔
    (byteAt d 4 = byteAt cfg 2 ∧ byteAt d 5 = byteAt cfg 3) ∧ (byteAt cfg 12).toNat ≤ (byteAt d 8).toNat ∧
      ∃ i < 4, (byteAt cfg (4 + 2 * i) ≠ 0 ∨ byteAt cfg (5 + 2 * i) ≠ 0) ∧
        byteAt d 6 = byteAt cfg (4 + 2 * i) ∧ byteAt d 7 = byteAt cfg (5 + 2 * i) := by
  have hnext (i : Nat) : 4 + 2 * i + 1 = 5 + 2 * i := by omega
  simp (disch := decide) only [bindMatches, byteAt_tallyBytes, Bool.and_eq_true, decide_eq_true_iff, List.any_eq_true,
    List.mem_range, leAt_two_inj, leAt_two_ne_zero, hnext]
  rw [and_assoc, and_comm (a := ∃ _, _)]
  simp only [eq_comm]

/-! ### A completed read keeps its record (R422, Table 18.5) -/

/-- The state once a completed read is counted and its record copied. -/
def keepRecord (p : Nat) (d : List Byte) (s : State) : State :=
  putRow (fun i => portP p (0x31 + i)) (fun i => wd (leAt (tallyBytes d) (4 * i) 4)) 8 (s.count (portP p 0x3B) 1)

theorem keepRecord_rest (p : Nat) (d : List Byte) (s : State) :
    keepRecord p d s = { s with params := (keepRecord p d s).params } := putRow_rest ..

theorem keepRecord_port (p : Nat) (d : List Byte) (s : State) (k : Nat) : (keepRecord p d s).port k = s.port k := by
  have hports : (keepRecord p d s).ports = s.ports := by rw [keepRecord_rest]
  rw [State.port, hports, State.port]

theorem par_keepRecord_other {p : Nat} (d : List Byte) (s : State) {n : Nat} (hreads : n ≠ portP p 0x3B)
    (hrec : ∀ i < 8, n ≠ portP p (0x31 + i)) : (keepRecord p d s).par n = s.par n := by
  rw [keepRecord, par_putRow_other _ _ hrec, State.par_count_ne _ _ _ _ hreads]

theorem par_keepRecord_reads (p : Nat) (d : List Byte) (s : State) :
    ((keepRecord p d s).par (portP p 0x3B)).toNat = Min.min 0xFFFFFFFF ((s.par (portP p 0x3B)).toNat + 1) := by
  rw [keepRecord, par_putRow_other _ _ fun i hi => by simp only [portP]; omega, toNat_count]

theorem par_keepRecord_rec (p : Nat) (d : List Byte) (s : State) {i : Nat} (hi : i < 8) :
    ((keepRecord p d s).par (portP p (0x31 + i))).toNat = (byteAt d (4 * i)).toNat + 256 * (byteAt d (4 * i + 1)).toNat +
      65536 * (byteAt d (4 * i + 2)).toNat + 16777216 * (byteAt d (4 * i + 3)).toNat := by
  have hkey : Function.Injective fun i => portP p (0x31 + i) := fun i j h => by
    simp only [portP] at h
    omega
  have hword : (keepRecord p d s).par (portP p (0x31 + i)) = wd (leAt (tallyBytes d) (4 * i) 4) := par_putRow_key hkey _ _ hi
  rw [hword, toNat_wd, Nat.mod_eq_of_lt (leAt_four_lt ..), leAt_four]
  simp (disch := omega) only [byteAt_tallyBytes]

/-! ### The judgement (R423–R425) -/

theorem tallyFails_eq {s : State} {p reason : Nat} {q : Port} (hport : s.port p = q) (hreason : reason ≠ 0) :
    tallyFails p reason s = ((s.modPort p (fun x => { x with
      tallySt := 3, tallyRev := false, reason := reason
      bind := if q.bind = 2 then 2 else if reason = 6 ∧ q.bind ≠ 0 then q.bind else if q.bindMode = 0 then 3
        else if q.bindMode = 1 ∧ reason = 5 then q.bind else 2 })).count (portP p 0x3C) 1).raise 0xF8
          [BitVec.ofNat 8 p, BitVec.ofNat 8 reason] := by
  subst hport
  refine congrArg (fun t : State => (t.count (portP p 0x3C) 1).raise 0xF8 [BitVec.ofNat 8 p, BitVec.ofNat 8 reason])
    (State.modPort_congr ?_)
  simp only [bindAfter, if_neg hreason]

section
variable (p : Nat) {d : List Byte} {s : State}

theorem tallyRecord_invalid (h : recordReason (tallyBytes d) ≠ 0) :
    tallyRecord p d s = tallyFails p (recordReason (tallyBytes d)) (keepRecord p d s) := by
  rw [tallyRecord, take_filled]
  exact if_pos h

variable (hvalid : recordReason (tallyBytes d) = 0)
include hvalid

theorem tallyRecord_reversed (hway : byteAt d 3 = 0x5A) : tallyRecord p d s =
    ((keepRecord p d s).modPort p (fun q => { q with tallySt := 2, tallyRev := true, bind := 2 })).raise 0xFC
      [BitVec.ofNat 8 p] := by
  have hrev : recordReversed (tallyBytes d) = true := by simp [recordReversed, hvalid, byteAt_tallyBytes, hway]
  rw [tallyRecord, take_filled]
  exact (if_neg (not_not.2 hvalid)).trans (if_pos hrev)

variable (hway : byteAt d 3 = 0xA5)
include hway

/-- A record of a module that is inserted the right way is left to the binding of its port. -/
theorem tallyRecord_upright : tallyRecord p d s =
    if (s.port p).bindMode = 2 ∧ bindMatches (s.port p).bindCfg (tallyBytes d) = false then tallyFails p 5 (keepRecord p d s)
    else (keepRecord p d s).modPort p (fun x => { x with tallySt := 2, tallyRev := false, bind :=
      if (s.port p).bind = 2 ∧ (s.port p).tallyEnds = false then 2 else if (s.port p).bindMode = 0 then 3 else 1 }) := by
  have hrev : ¬ recordReversed (tallyBytes d) = true := by simp [recordReversed, byteAt_tallyBytes, hway]
  rw [tallyRecord, take_filled, ← keepRecord_port p d s p]
  exact (if_neg (not_not.2 hvalid)).trans (if_neg hrev)

end

/-! ### The end of a read (R420, R423) -/

section
variable {s : State} {p : Nat}

theorem exec_tallyReadDone_idle (h : (s.port p).tallySt ≠ 1) (a : TallyAnswer) : exec (.tallyReadDone p a) s = .next s :=
  congrArg _ (if_pos (by simp [h]))

variable (hp : p < 16) (hclk : s.clocked = true)
include hp hclk

section
variable (hst : (s.port p).tallySt = 1)
include hst

theorem exec_tallyReadDone_record (d : List Byte) : exec (.tallyReadDone p (.record d)) s = .next (tallyRecord p d s) :=
  congrArg _ (if_neg (by simp [hclk, hp, hst]))

theorem exec_tallyReadDone_noAck :
    exec (.tallyReadDone p .noAck) s = .next (if 2 ≤ (s.port p).tallyTry then tallyFails p 1 s else s) :=
  congrArg _ (if_neg (by simp [hclk, hp, hst]))

theorem exec_tallyReadDone_busFault : exec (.tallyReadDone p .busFault) s = .next (tallyFails p 6 s) :=
  congrArg _ (if_neg (by simp [hclk, hp, hst]))

end

/-! ### Starting and trying again (R420, R421) -/

theorem exec_tallyRetry : exec (.tallyRetry p) s = .next (if (s.port p).tallySt = 1 ∧ (s.port p).tallyTry < 2 then
    s.modPort p (fun x => { x with tallyTry := (s.port p).tallyTry + 1 }) else s) := by
  show execTallyRetry p s = _
  simp only [execTallyRetry, hclk, hp, true_and, Bool.true_and, decide_eq_true_iff]
  rfl

end

/-- The module of port `k` waits for its read (R421). -/
def State.awaitsTally (s : State) (k : Nat) : Prop :=
  s.protocol k = 1 ∧ (s.port k).present = true ∧ (s.port k).bind = 0 ∧ (s.port k).tallySt ≠ 1

/-- The other port on the tally bus of port `p` (R33). -/
def tallyMate (p : Nat) : Nat := if p % 2 = 0 then p + 1 else p - 1

/-- The read of port `p` may start: it is due, its bus is sound and free, and an even port goes first. -/
def State.tallyStarts (s : State) (p : Nat) : Prop :=
  7 ≤ s.kin.phase ∧ s.kin.phase ≤ 9 ∧ s.awaitsTally p ∧ tabGet 0 s.pins.kinds (16 + p / 2) = 0 ∧
    (s.port (tallyMate p)).tallySt ≠ 1 ∧ ¬ (p % 2 = 1 ∧ s.awaitsTally (tallyMate p))

section
variable {s : State} {p : Nat}

theorem awaitsTally_iff (s : State) (k : Nat) :
    (s.readsTally k && decide ((s.port k).bind = 0 ∧ (s.port k).tallySt ≠ 1)) = true ↔ s.awaitsTally k := by
  simp [State.readsTally, State.awaitsTally, and_assoc]

/-- The condition of TALLY_READ_START, as the model asks it. -/
theorem tallyStarts_iff (hp : p < 16) (hclk : s.clocked = true) :
    (s.clocked && decide (p < 16 ∧ 7 ≤ s.kin.phase ∧ s.kin.phase ≤ 9) &&
    (s.readsTally p && decide ((s.port p).bind = 0 ∧ (s.port p).tallySt ≠ 1)) && !s.busFaulty p &&
    decide ((s.port (tallyMate p)).tallySt ≠ 1) && !(decide (p % 2 = 1) &&
      (s.readsTally (tallyMate p) && decide ((s.port (tallyMate p)).bind = 0 ∧ (s.port (tallyMate p)).tallySt ≠ 1)))) = true ↔
    s.tallyStarts p := by
  have hself := awaitsTally_iff s p
  have hmate := awaitsTally_iff s (tallyMate p)
  generalize (s.readsTally p && _) = due at *
  generalize (s.readsTally (tallyMate p) && _) = first at *
  simp only [State.tallyStarts, ← hself, ← hmate, State.busFaulty, hp, hclk, Bool.and_eq_true, Bool.not_eq_true',
    decide_eq_true_iff, decide_eq_false_iff_not, Bool.and_eq_false_iff, Bool.not_eq_true, not_and, not_not]
  tauto

theorem exec_tallyReadStart_starts (hp : p < 16) (hclk : s.clocked = true) (h : s.tallyStarts p) :
    exec (.tallyReadStart p) s = .next (startTally p true s) :=
  congrArg _ (if_pos ((tallyStarts_iff hp hclk).2 h))

theorem exec_tallyReadStart_waits (hp : p < 16) (hclk : s.clocked = true) (h : ¬ s.tallyStarts p) :
    exec (.tallyReadStart p) s = .next s :=
  congrArg _ (if_neg (mt (tallyStarts_iff hp hclk).1 h))

theorem exec_tallyReread (hp : p < 16) (h : s.Writes (portP p 0x3F)) (v : Word) : exec (.tallyReread p v) s = .next
    (if v.getLsbD 0 = false then s.ended 0 else if (s.port p).tallySt = 1 then s.ended 0x0A
     else if (s.port p).present = false then s.ended 9
     else if s.protocol p = 1 then (startTally p true s).ended 0 else s.ended 0) := by
  show execTallyReread p v s = _
  rw [execTallyReread, if_pos hp, hostEntry_eq h, writeTallyCtrl]
  simp only [Bool.not_eq_true']
  split_ifs <;> rfl

/-! ### Insertion and removal (R426) -/

theorem exec_presnChange_ignored {present : Bool} (h : s.variant.hasPort p = false ∨ (s.port p).present = present) :
    exec (.presnChange p present) s = .next s :=
  congrArg _ (if_pos (by rcases h with h | h <;> simp [h]))

section
variable (hp : p < 16) (hclk : s.clocked = true) (hport : s.variant.hasPort p = true)
include hp hclk hport

theorem exec_presnChange_followed {present : Bool} (hnew : (s.port p).present ≠ present) (hjesd : s.protocol p ≠ 1) :
    exec (.presnChange p present) s = .next (s.modPort p (fun x => { x with present := present })) := by
  show execPresnChange p present s = _
  simp [execPresnChange, hp, hclk, hport, hnew, hjesd]

theorem exec_presnChange_inserted (hnew : (s.port p).present ≠ true) (hjesd : s.protocol p = 1) :
    exec (.presnChange p true) s = .next ((((s.modPort p (fun x => { x with present := true })).count (portP p 0x3D) 1).modPort p
      (fun x => { x with bind := 0, tallySt := 0, tallyTry := 0, tallyRev := false })).raise 0xFA [BitVec.ofNat 8 p]) := by
  show execPresnChange p true s = _
  simp [execPresnChange, hp, hclk, hport, hnew, hjesd]

theorem exec_presnChange_removed (hnew : (s.port p).present ≠ false) (hjesd : s.protocol p = 1) :
    exec (.presnChange p false) s = .next ((((s.modPort p (fun x => { x with present := false })).count (portP p 0x3D) 1).modPort p
      (fun x => { x with
        bind := 0, tallySt := if (s.port p).tallySt = 1 then 0 else (s.port p).tallySt, tallyTry := 0, tallyRev := false
        laneSt := if s.linkOf p false = none ∧ (s.port p).txFault = false then 0 else (s.port p).laneSt })).raise 0xFB
          [BitVec.ofNat 8 p]) := by
  have hsame : ((s.modPort p (fun x => { x with present := false })).count (portP p 0x3D) 1).port p =
      { s.port p with present := false } := by rw [State.port_count, State.port_modPort_same]
  refine congrArg Host.Outcome.next ((if_neg (by simp [hp, hclk, hport, hnew])).trans ((if_neg (not_not.2 hjesd)).trans
    ((if_neg Bool.false_ne_true).trans ?_)))
  refine congrArg (fun t : State => t.raise 0xFB [BitVec.ofNat 8 p]) (State.modPort_congr ?_)
  simp [hsame]

end

end

/-! ### The obligation -/

/-- Settles O50: reads start and end, a record is kept and judged, and a change of presence undoes the binding. -/
theorem talliesDecideTheBinding : Obligations.TalliesDecideTheBinding := by
  intro s p d present v a hp hclk q jesd mate reads starts rec' valid why mode listed fails kept done
  have hkept : kept (keepRecord p d s) :=
    ⟨keepRecord_rest p d s, par_keepRecord_reads p d s, fun i => par_keepRecord_rec p d s, fun n => par_keepRecord_other d s⟩
  have hvalid : recordReason (tallyBytes d) = 0 ↔ valid := recordReason_eq_zero_iff d
  have hlisted : bindMatches q.bindCfg (tallyBytes d) = true ↔ listed := bindMatches_tallyBytes q.bindCfg d
  have hfails (u : State) (reason : Nat) (hu : u.port p = q) (h : reason ≠ 0) : tallyFails p reason u = fails u reason :=
    tallyFails_eq hu h
  have hkeepFails (reason : Nat) (h : reason ≠ 0) : tallyFails p reason (keepRecord p d s) = fails (keepRecord p d s) reason :=
    hfails _ _ (keepRecord_port p d s p) h
  refine ⟨exec_tallyReadStart_starts hp hclk, exec_tallyReadStart_waits hp hclk, exec_tallyRetry hp hclk,
    fun h => exec_tallyReadDone_idle h a, fun hst => ?_, fun h => exec_tallyReread hp h v, exec_presnChange_ignored,
    fun hport hnew => ?_⟩
  · have hdone : done = .next (tallyRecord p d s) := exec_tallyReadDone_record hp hclk hst d
    rw [hdone, exec_tallyReadDone_noAck hp hclk hst, exec_tallyReadDone_busFault hp hclk hst,
      hfails s 1 rfl (by decide), hfails s 6 rfl (by decide)]
    refine ⟨rfl, rfl, fun h => ⟨_, hkept, ?_⟩, fun h hway => ⟨_, hkept, congrArg _ (tallyRecord_reversed p (hvalid.2 h) hway)⟩,
      fun h hway hmode hl => ⟨_, hkept, ?_⟩, fun h hway hl => ⟨_, hkept, ?_⟩⟩
    · have hbad := mt hvalid.1 h
      have hwhy : recordReason (tallyBytes d) = why := recordReason_of_bad hbad
      rw [tallyRecord_invalid p hbad, hkeepFails _ hbad, hwhy]
    · rw [tallyRecord_upright p (hvalid.2 h) hway, if_pos ⟨hmode, Bool.eq_false_iff.2 (mt hlisted.1 hl)⟩,
        hkeepFails 5 (by decide)]
    · rw [tallyRecord_upright p (hvalid.2 h) hway,
        if_neg fun hno => absurd (hlisted.2 (hl hno.1)) (Bool.eq_false_iff.1 hno.2)]
      rfl
  · refine ⟨exec_presnChange_followed hp hclk hport hnew, fun hjesd h => ?_, fun hjesd h => ?_⟩
    · subst h
      exact exec_presnChange_inserted hp hclk hport hnew hjesd
    · subst h
      exact exec_presnChange_removed hp hclk hport hnew hjesd

end Sys2Proof.Machine
end

section
/-!
PROOF of O54, O55, O56, O58 and O59 (chapters 2 and 4): what holds of every step and every command, the cycle that passes on
an empty queue, and the memories after reset.
-/

namespace Sys2Proof.Machine

/-! ### Every command answers, but for one power-up -/

theorem exec_coldRstnRise (straps moving : BitVec 4) (ratios : List Nat) (good : Bool) (s : State) :
    exec (.coldRstnRise straps moving ratios good) s = execColdRstnRise straps moving ratios good s := rfl

/-- A rise of COLD_RSTN with a rail out of range (chapter 4, Edges). -/
theorem coldRstnRise_railsBad (straps moving : BitVec 4) (ratios : List Nat) {s : State} (hmode : s.clk.mode = .coldReset) :
    exec (.coldRstnRise straps moving ratios false) s = .fault .undefinedPowerUp := by
  rw [exec_coldRstnRise, execColdRstnRise, if_neg (not_not.2 hmode)]; rfl

theorem coldRstnRise_answers {straps moving : BitVec 4} {ratios : List Nat} {good : Bool} {s : State}
    (h : s.clk.mode ≠ .coldReset ∨ good = true) : ∃ t, exec (.coldRstnRise straps moving ratios good) s = .next t := by
  rw [exec_coldRstnRise, execColdRstnRise]
  split
  · exact ⟨_, rfl⟩
  · next hmode =>
    obtain rfl : good = true := h.resolve_left hmode
    exact ⟨_, rfl⟩

/-- Every other command answers a next state, whatever the state. -/
theorem exec_answers {c : Instr} (h : ∀ straps moving ratios good, c ≠ .coldRstnRise straps moving ratios good) (s : State) :
    ∃ t, exec c s = .next t := by
  cases c
  case coldRstnRise straps moving ratios good => exact absurd rfl (h straps moving ratios good)
  all_goals exact ⟨_, rfl⟩

/-- A command answers a next state, or it is the rise of COLD_RSTN that the spec leaves undefined. -/
theorem exec_answers_or_stops (s : State) (c : Instr) : (∃ t, exec c s = .next t) ∨
    (∃ straps moving ratios, c = .coldRstnRise straps moving ratios false ∧ s.clk.mode = .coldReset ∧
      exec c s = .fault .undefinedPowerUp) := by
  by_cases hc : ∃ straps moving ratios good, c = .coldRstnRise straps moving ratios good
  · obtain ⟨straps, moving, ratios, good, rfl⟩ := hc
    by_cases h : s.clk.mode ≠ .coldReset ∨ good = true
    · exact .inl (coldRstnRise_answers h)
    · obtain ⟨hmode, hgood⟩ := not_or.1 h
      obtain rfl := Bool.eq_false_of_not_eq_true hgood
      exact .inr ⟨straps, moving, ratios, rfl, not_not.1 hmode, coldRstnRise_railsBad _ _ _ (not_not.1 hmode)⟩
  · exact .inl (exec_answers (fun straps moving ratios good e => hc ⟨straps, moving, ratios, good, e⟩) s)

/-- Settles O54: the rise of COLD_RSTN is the only command with another outcome. -/
theorem onlyAnUndefinedPowerUpStops : Obligations.OnlyAnUndefinedPowerUpStops := fun s c =>
  ⟨fun straps moving ratios hmode => coldRstnRise_railsBad straps moving ratios hmode, exec_answers_or_stops s c⟩

/-! ### A step and its command -/

theorem step_nil {s : State} (h : s.pending = []) : step s = .next (coreCycle s) := by rw [step, h]

theorem step_cons {s : State} {c : Instr} {r : List Instr} (h : s.pending = c :: r) :
    step s = exec c { s with pending := r } := by rw [step, h]

/-- Settles O55. -/
theorem stepRunsTheFrontCommand : Obligations.StepRunsTheFrontCommand := fun _ _ _ h => step_cons h

/-- Settles O58: no command touches the queue or the variant, and none is refused. -/
theorem everyStepTakesOneCommand : Obligations.EveryStepTakesOneCommand := by
  intro s
  cases hq : s.pending with
  | nil =>
    rw [step_nil hq]
    obtain ⟨hpending, hvariant⟩ := coreCycle_keeps s
    refine ⟨fun t ht => ?_, fun r => nofun⟩
    cases ht
    exact ⟨hpending.trans hq, hvariant⟩
  | cons c r =>
    rw [step_cons hq]
    refine ⟨fun t ht => exec_keeps c { s with pending := r } t ht, fun r' hr => ?_⟩
    obtain ⟨t, ht⟩ | ⟨_, _, _, _, _, hstop⟩ := exec_answers_or_stops { s with pending := r } c
    · exact absurd (ht.symm.trans hr) nofun
    · exact absurd (hstop.symm.trans hr) nofun

/-! ### The cycle on an empty queue -/

theorem coreCycle_stopped {s : State} (h : s.clocked = false) : coreCycle s = s := by
  rw [coreCycle, if_neg (by simp [h])]

/-- A keeper cycle is stretched by less than 8 cycles and ends at a multiple of 8 (R57). -/
theorem stretch_spec (t : Tick) (left : Nat) :
    left ≤ stretch t left ∧ stretch t left < left + 8 ∧ (t.toNat + stretch t left) % 8 = 0 := by
  unfold stretch
  omega

/-- Settles O56: the alignment writes TB_SYNC_CTRL and stretches the keeper cycle. -/
theorem anEmptyQueuePassesOneCycle : Obligations.AnEmptyQueuePassesOneCycle := by
  intro s due moved diff left
  refine ⟨fun hq hclk => ?_, fun hq hclk => ?_, fun hdue => ?_, fun hdue => ?_⟩
  · rw [step_nil hq, coreCycle_stopped hclk]
  · have hlist : (triggerCycle s).galList = s.galList := by
      rw [State.galList, (triggerCycle_keeps s).2]; rfl
    rw [step_nil hq, coreCycle, if_pos hclk]
    simp only [hlist]
  · rw [tickClock]
    simp only [decide_eq_true_eq]
    rw [if_neg hdue]
    rfl
  · refine ⟨({ moved with clk := { moved.clk with
      aligned := true, loadIn := none, keeperLeft := stretch moved.clk.tick left } } : State).putPar 0x3D08 0,
      ?_, rfl, State.par_putPar_same .., fun n hn => State.par_putPar_ne _ _ _ _ hn, stretch_spec _ _⟩
    rw [tickClock]
    simp only [decide_eq_true_eq]
    rw [if_pos hdue]
    rfl

/-! ### The memories after reset -/

/-- Settles O59: every memory is empty. -/
theorem resetMemoriesAreCanonical : Obligations.ResetMemoriesAreCanonical where
  params := TabWf.nil _
  flash := TabWf.nil _
  tinder := TabWf.nil _
  gals _ := ⟨TabWf.nil _, TabWf.nil _, TabWf.nil _, TabWf.nil _⟩

end Sys2Proof.Machine
end

section
/-!
PROOF of O1 and O2 (chapter 8): word operations, the delay line, and lane arithmetic that is exact and then fitted.
-/

namespace Sys2Proof.Machine

/-! ### The delay line (R148) -/

theorem Gallery.record_depth_lt (x : Gallery) (p h : Nat) : (x.record p h).depth < 16 := Nat.mod_lt _ (by decide)

theorem lookup_map_range_descending {α : Type} (f : Nat → α) {d : Nat} (hd : d ≤ 15) (j : Nat) :
    ((List.range d).map (fun i => (15 - i, f i))).lookup j = if 15 - d < j ∧ j ≤ 15 then some (f (15 - j)) else none := by
  induction d with
  | zero => simp
  | succ d ih =>
    rw [List.range_succ, List.map_append, List.lookup_append, ih (by omega)]
    by_cases hj : 15 - d < j ∧ j ≤ 15
    · rw [if_pos hj, if_pos (by omega)]; rfl
    · rw [if_neg hj, Option.none_or, List.map_cons, List.map_nil, List.lookup_cons, List.lookup_nil]
      by_cases he : j = 15 - d
      · rw [if_pos (by omega), show 15 - j = d by omega, beq_iff_eq.2 he]
      · rw [if_neg (by omega), beq_false_of_ne he]

/-- What DLY of depth `d` writes: A into W(15 − d), and each register above it takes the one below (R148). -/
theorem lookup_dlyRegs {r : Record} (hd : r.depth < 16) (x : Gallery) (h : Nat) (a : Word) (j : Nat) :
    (dlyRegs x h r a).lookup j =
      if j = 15 - r.depth then some a
      else if 15 - r.depth < j ∧ j ≤ 15 then some (x.reg x.active h (j - 1)) else none := by
  rw [dlyRegs, List.lookup_append, lookup_map_range_descending _ (by omega), List.lookup_cons, List.lookup_nil]
  by_cases he : j = 15 - r.depth
  · rw [if_neg (by omega), if_pos he, beq_iff_eq.2 he]; rfl
  · rw [if_neg he, beq_false_of_ne he]
    by_cases hj : 15 - r.depth < j ∧ j ≤ 15
    · rw [if_pos hj, if_pos hj, show 14 - (15 - j) = j - 1 by omega]; rfl
    · rw [if_neg hj, if_neg hj]; rfl

/-- DLY when R138 holds: W15 goes to OUT and the line shifts. -/
theorem fired_dly {s : State} {g h : Nat} (hf : s.CanFire g h 0x02 [(s.recordOf g h).srcA]) :
    ∃ t, exec (.dly g h) s = .next t ∧
      s.Fired t g h 1 ((s.gal g).push
        { hearth := h, plane := (s.gal g).active, left := 1, result := some ((s.gal g).reg (s.gal g).active h 15)
          wb := none
          setZN := some (decide ((s.gal g).reg (s.gal g).active h 15 = 0), ((s.gal g).reg (s.gal g).active h 15).msb)
          setC := none, sticky := 0, fclr := (s.recordOf g h).fclr
          regs := dlyRegs (s.gal g) h (s.recordOf g h) (s.operand g h (s.recordOf g h).srcA) }) := by
  refine ⟨_, rfl, ?_⟩
  have hgal : (s.firing g h 1).gal g = { s.gal g with
      busy := tabSet 0 (s.gal g).busy h 1
      hearths := tabMod HearthTest.reset (s.gal g).hearths h (fun t => { t with running := false }) } := by
    simp only [State.firing, State.gal_tally64, State.gal_modGal_same]
  rw [fire_eq (iv := one) (room := fun _ => true) hf rfl]
  simp only [one, hgal, znOf_eq, pushPipe_eq]
  exact fired_modGal s g h 1 _ (fun _ _ _ => rfl)

/-- Settles O1: each word operation places its word, and DLY shifts its line. -/
theorem wordOperationsAndDelayLines : Obligations.WordOperationsAndDelayLines := by
  refine ⟨fun s g h => ⟨fun hf => ?_, fun hf => ?_, fun hf => ?_, fun hf => ?_, fun hf => ?_⟩, fun s g h => fun hf => ?_⟩
  · exact ⟨_, rfl, fired_A hf (ofWord_eq _)⟩
  · exact ⟨_, rfl, fired_AB hf (ofWord_eq _)⟩
  · exact ⟨_, rfl, fired_AB hf (ofWord_eq _)⟩
  · exact ⟨_, rfl, fired_AB hf (ofWord_eq _)⟩
  · exact ⟨_, rfl, fired_A hf (ofWord_eq _)⟩
  · obtain ⟨t, hstep, hfired⟩ := fired_dly hf
    exact ⟨t, _, hstep, hfired, lookup_dlyRegs (Gallery.record_depth_lt ..) (s.gal g) h _⟩

/-! ### Lane arithmetic (R145, R146, R158) -/

/-- Settles O2: every lane is computed exactly and fitted by `ofLanes_fitted`. -/
theorem laneArithmeticIsExactThenFitted : Obligations.LaneArithmeticIsExactThenFitted := by
  intro s g h r w n a b places
  refine ⟨fun hf => ?_, fun hf => ?_, fun hf => ?_, fun hf => ?_, fun hf => ?_⟩
  · obtain ⟨x, hres, hlanes⟩ := ofLanes_fitted (r := r) (fun i => sLane w a i + sLane w b i)
    exact ⟨_, rfl, x, fired_AB hf (congrArg (fun e => { e with c := some (carryAdd w a b) }) hres), hlanes⟩
  · obtain ⟨x, hres, hlanes⟩ := ofLanes_fitted (r := r) (fun i => sLane w a i - sLane w b i)
    exact ⟨_, rfl, x, fired_AB hf (congrArg (fun e => { e with c := some (carrySub w a b) }) hres), hlanes⟩
  · obtain ⟨x, hres, hlanes⟩ := ofLanes_fitted (r := r) (fun i => -sLane w a i)
    exact ⟨_, rfl, x, fired_A hf hres, hlanes⟩
  · obtain ⟨x, hres, hlanes⟩ := ofLanes_fitted (r := r) (fun i => |sLane w a i|)
    have habs : absRes r a = ofLanes w (fun i => fit w (r.sat i) |sLane w a i|) := by
      simp only [absRes, lanesA, Int.natCast_natAbs]; rfl
    exact ⟨_, rfl, x, fired_A hf (habs.trans hres), hlanes⟩
  · obtain ⟨x, hres, hlanes⟩ := ofLanes_fitted (r := r) (fun i => sLane w a i * sLane w b i)
    exact ⟨_, rfl, x, fired_AB hf hres, hlanes⟩

end Sys2Proof.Machine
end

section
/-!
PROOF of O9 and O10 (chapters 9 and 10): latched edges, conditions and timed waits, and the switch of context.
-/

namespace Sys2Proof.Machine

/-! ### Edges and latches (R183) -/

theorem hasBit_putBit_same {w : Nat} (v : BitVec w) {i : Nat} (b : Bool) (hi : i < w) : hasBit (putBit v i b) i = b := by
  rw [hasBit, getLsbD_putBit v i b hi, if_pos rfl]

/-- The latch of input `i` is set and the edge is handled. -/
def Seq.latched (q : Seq) (i : Nat) : Seq := { q with latches := putBit q.latches i true, seen := putBit q.seen i true }

theorem only_modSeq_count (s : State) (g n k : Nat) (f : Seq → Seq) : s.Only ((s.modSeq g f).count n k) g [n] :=
  (only_modSeq s g f).putPar ..

theorem only_modSeq_tally (s : State) (g n k : Nat) (f : Seq → Seq) : s.Only ((s.modSeq g f).tally n k) g [n] :=
  (only_modSeq s g f).putPar ..

theorem State.Only.mono {s t : State} {g : Nat} {ps qs : List Nat} (h : s.Only t g ps) (hsub : ∀ n ∈ ps, n ∈ qs) :
    s.Only t g qs :=
  ⟨h.gals, fun n hn => h.params n (mt (hsub n) hn), h.rest⟩

/-- What a rising edge does (R183): it sets its latch and is counted, or is lost to a latch that is set. -/
theorem latchEdge_eq {s : State} {g i : Nat} (hin : hasBit (s.gal g).seq.inputs i = true)
    (hprev : hasBit (s.gal g).seq.prev i = false) (hseen : hasBit (s.gal g).seq.seen i = false) :
    latchEdge g i s =
      if hasBit (s.gal g).seq.latches i then (s.modSeq g (fun q => q.latched i)).count (galP g 0x06) 1
      else if i < 16 then (s.modSeq g (fun q => q.latched i)).tally (galP g (0x10 + i)) 1
      else s.modSeq g (fun q => q.latched i) := by
  simp only [latchEdge, Seq.rises, hin, hprev, hseen, Bool.not_false, Bool.and_self, if_true]
  rfl

theorem exec_triggerEdge {s : State} {g i : Nat} (hclk : s.clocked = true) (hgsr : s.kin.gsr = false)
    (hon : s.galOn g = true) (hi : i < 20) : exec (.triggerEdge g i) s = .next (latchEdge g i s) := by
  show execTriggerEdge g i s = _
  simp [execTriggerEdge, hclk, hgsr, hon, hi]

theorem next_triggerEdge {s : State} {g i : Nat} (hclk : s.clocked = true) (hgsr : s.kin.gsr = false)
    (hon : s.galOn g = true) (hi : i < 20) (hin : hasBit (s.gal g).seq.inputs i = true)
    (hprev : hasBit (s.gal g).seq.prev i = false) (hseen : hasBit (s.gal g).seq.seen i = false) :
    ∃ t, exec (.triggerEdge g i) s = .next t ∧ s.Only t g [galP g 0x06, galP g (0x10 + i)] ∧
      t.gal g = { s.gal g with seq := (s.gal g).seq.latched i } ∧
      (t.par (galP g 0x06)).toNat =
        Min.min 0xFFFFFFFF ((s.par (galP g 0x06)).toNat + (if hasBit (s.gal g).seq.latches i then 1 else 0)) ∧
      (i < 16 → t.par (galP g (0x10 + i)) =
        s.par (galP g (0x10 + i)) + (if hasBit (s.gal g).seq.latches i then 0 else 1)) := by
  refine ⟨_, exec_triggerEdge hclk hgsr hon hi, ?_⟩
  rw [latchEdge_eq hin hprev hseen]
  have hne : galP g (0x10 + i) ≠ galP g 0x06 := by simp only [galP]; omega
  have hle : (s.par (galP g 0x06)).toNat ≤ 0xFFFFFFFF := by have := (s.par (galP g 0x06)).isLt; omega
  by_cases hset : hasBit (s.gal g).seq.latches i = true
  · simp only [hset, if_true]
    refine ⟨(only_modSeq_count ..).mono (by simp), by simp, by rw [toNat_count, State.par_modSeq], fun _ => ?_⟩
    rw [State.par_count_ne _ _ _ _ hne, State.par_modSeq]
    exact (BitVec.add_zero _).symm
  · by_cases hti : i < 16
    · simp only [hset, hti, if_true, if_false, Bool.false_eq_true]
      refine ⟨(only_modSeq_tally ..).mono (by simp), by simp, ?_, fun _ => ?_⟩
      · rw [State.par_tally_ne _ _ _ _ hne.symm, State.par_modSeq]; omega
      · rw [State.par_tally_same, State.par_modSeq]; rfl
    · simp only [hset, hti, if_false, Bool.false_eq_true]
      refine ⟨(only_modSeq ..).mono (by simp), by simp, ?_, fun h => absurd h (by simp)⟩
      rw [State.par_modSeq]; omega

theorem hasBit_consume_edge {q : Seq} {src : Nat} (hsrc : src < 20) (hin : hasBit q.inputs src = false) :
    hasBit (q.consume src 2).latches src = false := by
  rw [Seq.consume, if_pos ⟨rfl, hsrc⟩, hasBit_putBit_same _ _ hsrc, Seq.rises, hin]
  rfl

/-! ### Conditions (R182, R184) -/

/-- The level of a condition source as Table 10.3 gives it. -/
theorem Seq.level_eq (q : Seq) (src : Nat) : q.level src =
    if src < 20 then hasBit q.inputs src else if src < 28 then hasBit q.flags (src - 20)
    else if src = 28 then q.timeout else if src = 29 then decide (0 < q.dmas.length) else decide (src = 30) := by
  have hdmas : (!q.dmas.isEmpty) = decide (0 < q.dmas.length) := by cases q.dmas <;> simp
  rw [Seq.level, hdmas]

/-- The test of a condition as R182 gives it. -/
theorem Seq.test_eq (q : Seq) (src test : Nat) : q.test src test =
    if test = 0 then q.level src else if test = 1 then !q.level src
    else if src < 20 then hasBit q.latches src || (hasBit q.inputs src && !hasBit q.prev src && !hasBit q.seen src)
    else q.level src := by
  match test with
  | 0 => rfl
  | 1 => rfl
  | _ + 2 => rfl

theorem badCond_eq_false {src test : Nat} (hsrc : src ≠ 31) (htest : test ≠ 3) : badCond src test = false := by
  simp [badCond, hsrc, htest]

/-- The scan reads the program store only. -/
theorem hintScan_congr {q q' : Seq} (h : q.prog = q'.prog) (n a : Nat) : hintScan q n a = hintScan q' n a := by
  induction n generalizing a with
  | zero => rfl
  | succ n ih => simp only [hintScan, Seq.word, h, ih]; rfl

/-- A marked sequencer tests what it tested. -/
theorem test_gal_markIssued (s : State) (g src test : Nat) :
    ((markIssued g s).gal g).seq.test src test = (s.gal g).seq.test src test := by
  rw [gal_markIssued]; rfl

theorem hintScan_gal_markIssued (s : State) (g n a : Nat) :
    hintScan ((markIssued g s).gal g).seq n a = hintScan (s.gal g).seq n a :=
  hintScan_congr (by rw [gal_markIssued]) n a

theorem pc_gal_markIssued (s : State) (g : Nat) : ((markIssued g s).gal g).seq.pc = (s.gal g).seq.pc := by
  rw [gal_markIssued]

/-- The sequencer after a branch on a true condition. -/
def Seq.branched (q : Seq) (w : Word) : Seq := { q.consume (fld w 14 10) (fld w 16 15) with pc := fld w 9 0 }

theorem consume_issued (q : Seq) (src test : Nat) :
    ({ q with issued := true, wdog := 0 } : Seq).consume src test = { q.consume src test with issued := true, wdog := 0 } := by
  unfold Seq.consume
  split <;> rfl

/-- A branch that is taken or not, after an issue. -/
theorem State.Issued.branch {s t : State} {g : Nat} {w : Word} {q : Seq} (b : Bool) (h : s.Issued t g q) :
    s.Issued (if b then t.modSeq g (fun q => { q.consume (fld w 14 10) (fld w 16 15) with pc := fld w 9 0 }) else goNext g t) g
      (if b then q.branched w else { q with pc := q.pc + 1 }) := by
  cases b
  · exact h.modSeq (f := fun q => { q with pc := q.pc + 1 }) rfl
  · exact h.modSeq (f := fun q => { q.consume (fld w 14 10) (fld w 16 15) with pc := fld w 9 0 })
      (by rw [consume_issued]; rfl)

/-- The context that a BRC with H set prefetches. -/
def Seq.hinted (q : Seq) (w : Word) : Option Nat :=
  if w.getLsbD 17 then hintScan q 4 (if w.getLsbD 18 then fld w 9 0 else q.pc + 1) else none

/-- The prefetch of an optional context. -/
def prefetchHint (g : Nat) : Option Nat → State → State
  | some c, s => queuePrefetch g c s
  | none, s => s

/-- BRC (R182, R184): the prefetch of its hint, then the branch or the next address. -/
theorem next_brc {s : State} {g last : Nat} (hi : s.Issues g 0x6 last) (hl : last ≤ 1023)
    (hsrc : fld (s.issueWord g) 14 10 ≠ 31) (htest : fld (s.issueWord g) 16 15 ≠ 3)
    (hlast : last ≤ 1022 ∨
      (s.gal g).seq.test (fld (s.issueWord g) 14 10) (fld (s.issueWord g) 16 15) = true) :
    ∃ t, exec (.brc g) s = .next t ∧
      (prefetchHint g ((s.gal g).seq.hinted (s.issueWord g)) s).Issued t g
        (if (s.gal g).seq.test (fld (s.issueWord g) 14 10) (fld (s.issueWord g) 16 15)
          then (s.gal g).seq.branched (s.issueWord g) else { (s.gal g).seq with pc := (s.gal g).seq.pc + 1 }) := by
  refine next_issue rfl hi (by decide) hl (by rw [badCond_eq_false hsrc htest]; rfl) hlast ?_
  have hhint : (prefetchHint g ((s.gal g).seq.hinted (s.issueWord g)) s).Issued
      (prefetchHint g ((s.gal g).seq.hinted (s.issueWord g)) (markIssued g s)) g (s.gal g).seq := by
    cases (s.gal g).seq.hinted (s.issueWord g) with
    | none => exact issued_markIssued s g
    | some c => exact (issued_markIssued s g).prefetched
  have hsame : (if (s.issueWord g).getLsbD 17 = true then
        (match hintScan (s.gal g).seq 4 (if (s.issueWord g).getLsbD 18 then fld (s.issueWord g) 9 0
            else (s.gal g).seq.pc + 1) with
         | some c => queuePrefetch g c (markIssued g s) | none => markIssued g s)
       else markIssued g s) = prefetchHint g ((s.gal g).seq.hinted (s.issueWord g)) (markIssued g s) := by
    unfold Seq.hinted
    split
    · generalize hintScan _ _ _ = o
      cases o <;> rfl
    · rfl
  simp only [test_gal_markIssued, hintScan_gal_markIssued, pc_gal_markIssued]
  rw [← hsame] at hhint
  exact hhint.branch _

/-! ### Waits (R181, R183) -/

theorem next_waitt {s : State} {g : Nat} (hi : s.Issues g 0x4 1022) (hsrc : fld (s.issueWord g) 4 0 ≠ 31)
    (htest : fld (s.issueWord g) 6 5 ≠ 3) : ∃ t, exec (.waitt g) s = .next t ∧
      s.Issued t g (if (s.gal g).seq.test (fld (s.issueWord g) 4 0) (fld (s.issueWord g) 6 5)
        then { (s.gal g).seq.consume (fld (s.issueWord g) 4 0) (fld (s.issueWord g) 6 5) with
          pc := (s.gal g).seq.pc + 1, timeout := false }
        else { (s.gal g).seq with
          st := .waitt (fld (s.issueWord g) 4 0) (fld (s.issueWord g) 6 5)
            (64 * fld (s.issueWord g) 27 8) (decide (fld (s.issueWord g) 27 8 ≠ 0)) }) := by
  refine next_issue_below rfl hi (by decide) (by rw [badCond_eq_false hsrc htest]; rfl) (issued_modSeq ?_)
  have htested : ({ (s.gal g).seq with issued := true, wdog := 0 } : Seq).test (fld (s.issueWord g) 4 0)
      (fld (s.issueWord g) 6 5) = (s.gal g).seq.test (fld (s.issueWord g) 4 0) (fld (s.issueWord g) 6 5) := rfl
  simp only [htested]
  split
  · rw [consume_issued]
  · rfl

theorem next_waittMet {s : State} {g src test left : Nat} {timed : Bool} (hst : (s.gal g).seq.st = .waitt src test left timed)
    (hlive : s.live g = true) (hissued : (s.gal g).seq.issued = false) (hdamped : (s.gal g).seq.damped = false)
    (htest : (s.gal g).seq.test src test = true) : ∃ t, exec (.waittMet g) s = .next t ∧ s.Only t g [] ∧
      t.gal g = { s.gal g with seq := { (s.gal g).seq.consume src test with
        pc := (s.gal g).seq.pc + 1, timeout := false, st := .issuing, issued := true } } := by
  refine ⟨_, ?_, only_modSeq s g (fun q =>
    { (q.consume src test) with timeout := false, pc := q.pc + 1, st := .issuing, issued := true }), State.gal_modSeq_same ..⟩
  show execWaittMet g s = _
  simp [execWaittMet, hst, hlive, hissued, hdamped, htest]

theorem next_waittTimeout {s : State} {g src test left : Nat} (hst : (s.gal g).seq.st = .waitt src test left true)
    (hlive : s.live g = true) (hissued : (s.gal g).seq.issued = false) (hdamped : (s.gal g).seq.damped = false)
    (htest : (s.gal g).seq.test src test = false) (hleft : left ≤ 1) :
    ∃ t, exec (.waittTimeout g) s = .next t ∧ s.Only t g [] ∧
      t.gal g = { s.gal g with seq := { (s.gal g).seq with
        pc := (s.gal g).seq.pc + 1, timeout := true, st := .issuing, issued := true } } := by
  refine ⟨_, ?_, only_modSeq s g (fun q => { q with timeout := true, pc := q.pc + 1, st := .issuing, issued := true }),
    State.gal_modSeq_same ..⟩
  show execWaittTimeout g s = _
  simp [execWaittTimeout, hst, hlive, hissued, hdamped, htest, hleft]

theorem next_waitDone {s : State} {g : Nat} (hst : (s.gal g).seq.st = .waiting 0) (hlive : s.live g = true)
    (hdamped : (s.gal g).seq.damped = false) : ∃ t, exec (.waitDone g) s = .next t ∧ s.Only t g [] ∧
      t.gal g = { s.gal g with seq := { (s.gal g).seq with pc := (s.gal g).seq.pc + 1, st := .issuing } } := by
  refine ⟨_, ?_, only_modSeq s g (fun q => { q with pc := q.pc + 1, st := .issuing }), State.gal_modSeq_same ..⟩
  show execWaitDone g s = _
  simp [execWaitDone, hst, hlive, hdamped]

/-- Settles O9: an edge is latched or lost, and each row of conditions has its law above. -/
theorem triggersConditionBranchesAndWaits : Obligations.TriggersConditionBranchesAndWaits := by
  constructor
  · intro s g i q hclk hgsr hon hi hin hprev hseen
    obtain ⟨t, hstep, honly, hgal, hlost, hcount⟩ := next_triggerEdge hclk hgsr hon hi hin hprev hseen
    refine ⟨t, hstep, honly, hgal, ?_, hlost, hcount⟩
    rw [hgal]
    exact hasBit_putBit_same _ _ hi
  · intro s g q w level holds
    have hholds : ∀ src test, holds src test = q.test src test := fun src test => by
      rw [Seq.test_eq, Seq.level_eq]
    refine ⟨fun hi hh hsrc htest hc => ?_, fun hi hh hsrc htest hc => ?_, fun c hi hh hsrc htest hscan => ?_,
      fun hi hsrc htest => ?_, fun src test left timed _ hst hlive hissued hdamped =>
      ⟨fun hc => ?_, fun hc hleft htimed => ?_⟩, fun hst hlive hdamped => next_waitDone hst hlive hdamped,
      fun src hsrc _ hin => hasBit_consume_edge hsrc hin⟩
    · rw [hholds] at hc
      obtain ⟨t, hstep, hissued⟩ := next_brc hi le_rfl hsrc htest (.inr hc)
      refine ⟨t, hstep, ?_⟩
      rwa [if_pos hc, Seq.hinted, if_neg (by simp [w] at hh; simp [hh])] at hissued
    · rw [hholds] at hc
      obtain ⟨t, hstep, hissued⟩ := next_brc hi (by decide) hsrc htest (.inl le_rfl)
      refine ⟨t, hstep, ?_⟩
      rwa [if_neg (Bool.not_eq_true _ ▸ hc), Seq.hinted, if_neg (by simp [w] at hh; simp [hh])] at hissued
    · obtain ⟨t, hstep, hissued⟩ := next_brc hi (by decide) hsrc htest (.inl le_rfl)
      refine ⟨t, hstep, ?_⟩
      rw [hholds]
      rwa [Seq.hinted, if_pos hh, hscan] at hissued
    · rw [hholds]
      exact next_waitt hi hsrc htest
    · exact next_waittMet hst hlive hissued hdamped ((hholds ..).symm.trans hc)
    · subst htimed
      exact next_waittTimeout hst hlive hissued hdamped ((hholds ..).symm.trans hc) hleft

end Sys2Proof.Machine
end

section
/-!
PROOF of O10 (chapters 9 and 10): SWITCH by where its context is, and PREP by what its queue holds.
-/

namespace Sys2Proof.Machine

/-! ### Where a context is (R159) -/

theorem planeOf_eq_some {x : Gallery} {c p : Nat} (hp : p < 8) (hctx : (x.plane p).ctx = some c)
    (hfirst : ∀ k < p, (x.plane k).ctx ≠ some c) : x.planeOf c = some p := by
  rw [Gallery.planeOf, firstBelow, List.find?_range_eq_some]
  exact ⟨decide_eq_true hctx, List.mem_range.2 hp, fun k hk => by simpa using hfirst k hk⟩

theorem planeOf_eq_none {x : Gallery} {c : Nat} (h : ∀ p < 8, (x.plane p).ctx ≠ some c) : x.planeOf c = none := by
  rw [Gallery.planeOf, firstBelow, List.find?_range_eq_none]
  exact fun p hp => by simpa using h p hp

theorem planeOf_eq_none_iff {x : Gallery} {c : Nat} : x.planeOf c = none ↔ ∀ p < 8, (x.plane p).ctx ≠ some c := by
  simp [Gallery.planeOf, firstBelow]

theorem fillingOf_eq_none_iff {x : Gallery} {c : Nat} : x.fillingOf c = none ↔ ∀ p < 8, (x.plane p).filling ≠ some c := by
  simp [Gallery.fillingOf, firstBelow]

/-! ### SWITCH (R166–R168) -/

/-- What `switchCtx` looks at in a gallery does not change with its sequencer. -/
theorem switchCtx_undefined {s : State} {g c : Nat} (h : ((s.gal g).desc c).defined = false) :
    switchCtx g c s = s.raise (0x22 + 6 * g) [1, BitVec.ofNat 8 c, 0, 0] := by
  have he : 0x20 + 6 * g + 2 = 0x22 + 6 * g := by omega
  simp only [switchCtx, h, Bool.not_false, if_true, ctxFault, State.raiseGal, he]
  rfl

theorem switchCtx_resident {s : State} {g c p : Nat} (h : ((s.gal g).desc c).defined = true)
    (hp : (s.gal g).planeOf c = some p) :
    switchCtx g c s = if p = (s.gal g).active then s else s.modGal g (fun x => { x with switchTo := some (p, c) }) := by
  simp [switchCtx, h, hp]

/-- The demand for context `c` (R168): its prefetch becomes the demand fill, also where it has begun. -/
def Gallery.demands (c : Nat) (x : Gallery) : Gallery :=
  { x with
    demand := some c, prefetch := x.prefetch.filter (fun k => !decide (k = c))
    engine := x.engine.map (fun e => if e.fill && decide (e.ctx = c) then { e with demand := true } else e) }

theorem switchCtx_demands {s : State} {g c : Nat} (h : ((s.gal g).desc c).defined = true) (hp : (s.gal g).planeOf c = none) :
    switchCtx g c s = s.modGal g (fun x => { x.demands c with seq := { x.seq with st := .switchStall c } }) := by
  simp only [switchCtx, h, hp, Bool.not_true, Bool.false_eq_true, if_false]
  rfl

/-- A change of the gallery with an issue that changes the sequencer as well. -/
theorem issued_modGal {s : State} {g : Nat} {f f' : Gallery → Gallery} {q : Seq}
    (h : f { s.gal g with seq := { (s.gal g).seq with issued := true, wdog := 0 } } =
      { f' (s.gal g) with seq := { q with issued := true, wdog := 0 } }) :
    (s.modGal g f').Issued ((markIssued g s).modGal g f) g q where
  only := by
    refine ⟨fun k hk => ?_, fun n hn => ?_, rfl⟩
    · rw [State.gal_modGal_ne _ _ _ _ hk, State.gal_modGal_ne _ _ _ _ hk, gal_markIssued_ne _ _ _ hk]
    · rw [State.par_modGal, State.par_modGal, par_markIssued _ _ _ hn]
  gal := by rw [State.gal_modGal_same, State.gal_modGal_same, gal_markIssued, h]
  count := by
    have hpair : ∀ (u : State) (k : Gallery → Gallery), (u.modGal g k).pair (galP g 0x09) = u.pair (galP g 0x09) :=
      fun u k => by simp [State.pair]
    rw [hpair, hpair, pair_markIssued]

/-- SWITCH runs `switchCtx` and then, unless the sequencer stalls, goes to the next address. -/
theorem next_switch {s v u : State} {g : Nat} {q : Seq} (hi : s.Issues g 0x1 1022)
    (hu : switchCtx g (fld (s.issueWord g) 5 0) (markIssued g s) = u)
    (hst : (u.gal g).seq.st = .issuing) (hissued : v.Issued u g q) :
    ∃ t, exec (.switch g) s = .next t ∧ v.Issued t g { q with pc := q.pc + 1 } := by
  refine next_issue_below rfl hi (by decide) rfl ?_
  simp only [hu, hst]
  exact hissued.modSeq rfl

theorem st_markIssued {s : State} {g op last : Nat} (hi : s.Issues g op last) : ((markIssued g s).gal g).seq.st = .issuing := by
  obtain ⟨-, -, -, hst⟩ := canIssue_issuing hi.can
  rw [gal_markIssued]
  exact hst

theorem desc_markIssued (s : State) (g c : Nat) : ((markIssued g s).gal g).desc c = (s.gal g).desc c := by
  rw [gal_markIssued]; rfl

theorem planeOf_markIssued (s : State) (g c : Nat) : ((markIssued g s).gal g).planeOf c = (s.gal g).planeOf c := by
  rw [gal_markIssued]; rfl

theorem next_switch_undefined {s : State} {g : Nat} (hi : s.Issues g 0x1 1022)
    (hdef : ((s.gal g).desc (fld (s.issueWord g) 5 0)).defined = false) : ∃ t, exec (.switch g) s = .next t ∧
      (s.raise (0x22 + 6 * g) [1, BitVec.ofNat 8 (fld (s.issueWord g) 5 0), 0, 0]).Issued t g
        { (s.gal g).seq with pc := (s.gal g).seq.pc + 1 } :=
  next_switch hi (switchCtx_undefined (by rw [desc_markIssued, hdef])) (by rw [State.gal_raise, st_markIssued hi])
    (issued_markIssued s g).raised

theorem next_switch_resident {s : State} {g p : Nat} (hi : s.Issues g 0x1 1022)
    (hdef : ((s.gal g).desc (fld (s.issueWord g) 5 0)).defined = true)
    (hp : (s.gal g).planeOf (fld (s.issueWord g) 5 0) = some p) : ∃ t, exec (.switch g) s = .next t ∧
      (if p = (s.gal g).active then s
        else s.modGal g (fun x => { x with switchTo := some (p, fld (s.issueWord g) 5 0) })).Issued t g
        { (s.gal g).seq with pc := (s.gal g).seq.pc + 1 } := by
  have hrun := switchCtx_resident (s := markIssued g s) (by rw [desc_markIssued, hdef]) ((planeOf_markIssued ..).trans hp)
  rw [show ((markIssued g s).gal g).active = (s.gal g).active by rw [gal_markIssued]] at hrun
  refine next_switch hi hrun ?_ ?_
  · split
    · exact st_markIssued hi
    · rw [State.gal_modGal_same]
      exact st_markIssued hi
  · split
    · exact issued_markIssued s g
    · exact (issued_markIssued s g).modGal fun _ _ => rfl

theorem next_switch_stalls {s : State} {g : Nat} (hi : s.Issues g 0x1 1022)
    (hdef : ((s.gal g).desc (fld (s.issueWord g) 5 0)).defined = true)
    (hp : (s.gal g).planeOf (fld (s.issueWord g) 5 0) = none) : ∃ t, exec (.switch g) s = .next t ∧
      (s.modGal g (Gallery.demands (fld (s.issueWord g) 5 0))).Issued t g
        { (s.gal g).seq with st := .switchStall (fld (s.issueWord g) 5 0) } := by
  have hrun := switchCtx_demands (s := markIssued g s) (by rw [desc_markIssued, hdef]) ((planeOf_markIssued ..).trans hp)
  refine next_issue_below rfl hi (by decide) rfl ?_
  simp only [hrun, State.gal_modGal_same]
  exact issued_modGal rfl

/-! ### PREP (R170) -/

/-- The context is defined, nowhere in the planes, and not asked for yet. -/
def Gallery.canPrefetch (x : Gallery) (c : Nat) : Prop :=
  (x.desc c).defined = true ∧ (∀ p < 8, (x.plane p).ctx ≠ some c) ∧ (∀ p < 8, (x.plane p).filling ≠ some c) ∧
    c ∉ x.prefetch ∧ x.demand ≠ some c

theorem queuePrefetch_guard (x : Gallery) (c : Nat) :
    (!(x.desc c).defined || (x.planeOf c).isSome || (x.fillingOf c).isSome || x.prefetch.contains c ||
      decide (x.demand = some c)) = false ↔ x.canPrefetch c := by
  have hplane : (x.planeOf c).isSome = false ↔ ∀ p < 8, (x.plane p).ctx ≠ some c := by
    rw [← planeOf_eq_none_iff]; exact Option.isSome_eq_false_iff.trans Option.isNone_iff_eq_none
  have hfilling : (x.fillingOf c).isSome = false ↔ ∀ p < 8, (x.plane p).filling ≠ some c := by
    rw [← fillingOf_eq_none_iff]; exact Option.isSome_eq_false_iff.trans Option.isNone_iff_eq_none
  simp only [Bool.or_eq_false_iff, hplane, hfilling, Gallery.canPrefetch, and_assoc, Bool.not_eq_false',
    decide_eq_false_iff_not, List.contains_eq_mem, ne_eq]

theorem queuePrefetch_idle {s : State} {g c : Nat} (h : ¬ (s.gal g).canPrefetch c) : queuePrefetch g c s = s := by
  rw [← queuePrefetch_guard, Bool.not_eq_false] at h
  simp only [queuePrefetch, h, if_true]

theorem queuePrefetch_queued {s : State} {g c : Nat} (h : (s.gal g).canPrefetch c) (hroom : (s.gal g).prefetch.length < 2) :
    queuePrefetch g c s = s.modGal g (fun x => { x with prefetch := x.prefetch ++ [c] }) := by
  rw [← queuePrefetch_guard] at h
  simp only [queuePrefetch, h, Bool.false_eq_true, if_false, Nat.not_le.2 hroom]

theorem queuePrefetch_dropped {s : State} {g c : Nat} (h : (s.gal g).canPrefetch c) (hfull : 2 ≤ (s.gal g).prefetch.length) :
    queuePrefetch g c s = s.count (galP g 0x77) 1 := by
  rw [← queuePrefetch_guard] at h
  simp only [queuePrefetch, h, Bool.false_eq_true, if_false, hfull, if_true]

theorem next_prep {s : State} {g : Nat} (hi : s.Issues g 0x2 1022) : ∃ t, exec (.prep g) s = .next t ∧
    (queuePrefetch g (fld (s.issueWord g) 5 0) s).Issued t g { (s.gal g).seq with pc := (s.gal g).seq.pc + 1 } :=
  next_issue_below rfl hi (by decide) rfl ((issued_markIssued s g).prefetched.modSeq rfl)

/-- Settles O10: one law for each place a context may be in, and PREP by its queue. -/
theorem switchAndPrefetch : Obligations.SwitchAndPrefetch := by
  intro s g x q c nowhere
  refine ⟨fun hi => ⟨next_switch_undefined hi, fun p hdef hp hctx hfirst => ?_, fun hdef hnowhere => ?_⟩,
    fun hi => ⟨fun h => ?_, fun h hroom => ?_, fun h hfull => ?_⟩⟩
  · exact next_switch_resident hi hdef (planeOf_eq_some hp hctx hfirst)
  · exact next_switch_stalls hi hdef (planeOf_eq_none hnowhere)
  · obtain ⟨t, hstep, hissued⟩ := next_prep hi
    exact ⟨t, hstep, by rwa [queuePrefetch_idle h] at hissued⟩
  · obtain ⟨t, hstep, hissued⟩ := next_prep hi
    exact ⟨t, hstep, by rwa [queuePrefetch_queued h hroom] at hissued⟩
  · obtain ⟨t, hstep, hissued⟩ := next_prep hi
    exact ⟨t, hstep, by rwa [queuePrefetch_dropped h hfull] at hissued⟩

end Sys2Proof.Machine
end

section
/-!
PROOF of O12 (chapter 10): the faults of the sequencer, and the frame of its instructions.  Each instruction is one
`issue`; its own faults are in `ownFault`, and its effect keeps the frame `SeqFrame`.
-/

namespace Sys2Proof.Machine

/-! ### Faults (R191) -/

theorem seqFault_eq (s : State) (g code : Nat) : seqFault g code s = s.seqFaulted g code := by
  have he : 0x20 + 6 * g + 3 = 0x23 + 6 * g := by omega
  simp only [seqFault, State.raiseGal, he]
  rfl

/-- The fault codes that an instruction has of its own: an empty or full stack, a reserved condition or capture kind, a
descriptor that is not valid (R182, R187, R189, R191). -/
def ownFault (op : Nat) (q : Seq) (w : Word) : Option Nat :=
  match op with
  | 0x12 => if q.stack.isEmpty then some 3 else none
  | 0x4 => if badCond (fld w 4 0) (fld w 6 5) then some 1 else none
  | 0x6 => if badCond (fld w 14 10) (fld w 16 15) then some 1 else none
  | 0x8 => if 4 ≤ q.stack.length then some 2 else none
  | 0xC => if 1 < fld w 1 0 then some 1 else none
  | 0xD => if q.dmas.length < 2 ∧ badDesc q (fld w 9 0) = true then some 5 else none
  | _ => none

section

variable {s : State} {g op : Nat} {transfers : Seq → Word → Bool} {bad : State → Seq → Word → Option Nat}
  {act : Nat → Word → State → State}

theorem issue_idle (h : s.canIssue g = false) : issue op transfers bad act g s = s := by simp [issue, h]

theorem issue_past_store (h : s.canIssue g = true) (hpc : 1023 < (s.gal g).seq.pc) :
    issue op transfers bad act g s = s.seqFaulted g 4 := by
  simp only [issue, h, hpc, if_true, seqFault_eq]

theorem issue_reserved (h : s.canIssue g = true) (hpc : (s.gal g).seq.pc ≤ 1023)
    (hop : opOf (s.issueWord g) = 0xE ∨ opOf (s.issueWord g) = 0xF ∨ 0x14 ≤ opOf (s.issueWord g)) :
    issue op transfers bad act g s = s.seqFaulted g 1 := by
  have hres : reservedOp (s.issueWord g) = true := (reservedOp_iff _).2 hop
  rw [State.issueWord] at hres
  simp only [issue, h, Nat.not_lt.2 hpc, hres, if_true, if_false, seqFault_eq]

/-- The word of a command is another instruction. -/
theorem issue_other (hpc : (s.gal g).seq.pc ≤ 1023) (hop : op ≠ opOf (s.issueWord g))
    (hres : ¬ (opOf (s.issueWord g) = 0xE ∨ opOf (s.issueWord g) = 0xF ∨ 0x14 ≤ opOf (s.issueWord g))) :
    issue op transfers bad act g s = s := by
  rw [← reservedOp_iff] at hres
  rw [State.issueWord] at hres hop
  simp only [issue, Nat.not_lt.2 hpc, hres, hop.symm, if_false, ite_self, Bool.false_eq_true]

theorem issue_own (h : s.canIssue g = true) (hpc : (s.gal g).seq.pc ≤ 1023) (hop : opOf (s.issueWord g) = op)
    (hres : ¬ (op = 0xE ∨ op = 0xF ∨ 0x14 ≤ op)) :
    issue op transfers bad act g s =
      match bad s (s.gal g).seq (s.issueWord g) with
      | some c => s.seqFaulted g c
      | none => if (s.gal g).seq.pc = 1023 ∧ transfers (s.gal g).seq (s.issueWord g) = false then s.seqFaulted g 4
          else act g (s.issueWord g) (markIssued g s) := by
  rw [← hop, ← reservedOp_iff] at hres
  rw [State.issueWord] at *
  simp only [issue, h, Nat.not_lt.2 hpc, hres, hop, if_true, if_false, Bool.false_eq_true, seqFault_eq] <;>
    rfl

theorem issue_own_fault {c : Nat} (h : s.canIssue g = true) (hpc : (s.gal g).seq.pc ≤ 1023)
    (hop : opOf (s.issueWord g) = op) (hres : ¬ (op = 0xE ∨ op = 0xF ∨ 0x14 ≤ op))
    (hbad : bad s (s.gal g).seq (s.issueWord g) = some c) : issue op transfers bad act g s = s.seqFaulted g c := by
  rw [issue_own h hpc hop hres, hbad]

/-- An instruction at 1,023 that does not transfer control (R179). -/
theorem issue_at_end (h : s.canIssue g = true) (hpc : (s.gal g).seq.pc = 1023) (hop : opOf (s.issueWord g) = op)
    (hres : ¬ (op = 0xE ∨ op = 0xF ∨ 0x14 ≤ op)) (hbad : bad s (s.gal g).seq (s.issueWord g) = none)
    (htransfers : transfers (s.gal g).seq (s.issueWord g) = false) :
    issue op transfers bad act g s = s.seqFaulted g 4 := by
  rw [issue_own h hpc.le hop hres, hbad]
  exact if_pos ⟨hpc, htransfers⟩

end

/-! ### The frame of an instruction -/

/-- `t` is `s` but for what an instruction of gallery `g`'s sequencer may change: the sequencer, all but its program and
its entry point, what the fill engine is asked for, parameters, events and the capture unit. -/
structure State.SeqFrame (s t : State) (g : Nat) : Prop where
  gals : ∀ k, k ≠ g → t.gal k = s.gal k
  gal : t.gal g = { s.gal g with
    seq := (t.gal g).seq, prefetch := (t.gal g).prefetch, demand := (t.gal g).demand
    switchTo := (t.gal g).switchTo, engine := (t.gal g).engine }
  prog : (t.gal g).seq.prog = (s.gal g).seq.prog
  entry : (t.gal g).seq.entry = (s.gal g).seq.entry
  rest : t = { s with gals := t.gals, params := t.params, evt := t.evt, capt := t.capt }

theorem State.SeqFrame.refl (s : State) (g : Nat) : s.SeqFrame s g := ⟨fun _ _ => rfl, rfl, rfl, rfl, rfl⟩

theorem State.SeqFrame.trans {s t u : State} {g : Nat} (h : s.SeqFrame t g) (h' : t.SeqFrame u g) : s.SeqFrame u g where
  gals k hk := (h'.gals k hk).trans (h.gals k hk)
  gal := by
    have hgal := h'.gal
    rw [h.gal] at hgal
    exact hgal
  prog := h'.prog.trans h.prog
  entry := h'.entry.trans h.entry
  rest := by
    have hrest := h'.rest
    rw [h.rest] at hrest
    exact hrest

/-- A change of the gallery that keeps the frame. -/
theorem seqFrame_modGal (s : State) (g : Nat) {f : Gallery → Gallery}
    (hf : ∀ x, f x = { x with
      seq := (f x).seq, prefetch := (f x).prefetch, demand := (f x).demand, switchTo := (f x).switchTo, engine := (f x).engine })
    (hprog : ∀ x, (f x).seq.prog = x.seq.prog) (hentry : ∀ x, (f x).seq.entry = x.seq.entry) :
    s.SeqFrame (s.modGal g f) g where
  gals _ hk := State.gal_modGal_ne _ _ _ _ hk
  gal := by rw [State.gal_modGal_same]; exact hf _
  prog := by rw [State.gal_modGal_same]; exact hprog _
  entry := by rw [State.gal_modGal_same]; exact hentry _
  rest := rfl

theorem seqFrame_modSeq (s : State) (g : Nat) {f : Seq → Seq} (hprog : ∀ q, (f q).prog = q.prog)
    (hentry : ∀ q, (f q).entry = q.entry) : s.SeqFrame (s.modSeq g f) g :=
  seqFrame_modGal s g (fun _ => rfl) (fun _ => hprog _) (fun _ => hentry _)

theorem seqFrame_putPar (s : State) (g n : Nat) (v : Word) : s.SeqFrame (s.putPar n v) g where
  gals _ _ := State.gal_putPar ..
  gal := by rw [State.gal_putPar]
  prog := by rw [State.gal_putPar]
  entry := by rw [State.gal_putPar]
  rest := rfl

theorem seqFrame_raise (s : State) (g e : Nat) (l : List Byte) : s.SeqFrame (s.raise e l) g where
  gals _ _ := State.gal_raise ..
  gal := by rw [State.gal_raise]
  prog := by rw [State.gal_raise]
  entry := by rw [State.gal_raise]
  rest := by unfold State.raise; split <;> rfl

theorem seqFrame_seqFaulted (s : State) (g code : Nat) : s.SeqFrame (s.seqFaulted g code) g := by
  refine .trans (.trans (seqFrame_putPar s g _ _) (seqFrame_modSeq _ g ?_ ?_)) (seqFrame_raise _ g _ _)
  · exact fun _ => rfl
  · exact fun _ => rfl

theorem seqFrame_markIssued (s : State) (g : Nat) : s.SeqFrame (markIssued g s) g := by
  refine .trans (.trans (seqFrame_modSeq s g ?_ ?_) (seqFrame_putPar _ g _ _)) (seqFrame_putPar _ g _ _)
  · exact fun _ => rfl
  · exact fun _ => rfl

theorem seqFrame_goNext (s : State) (g : Nat) : s.SeqFrame (goNext g s) g :=
  seqFrame_modSeq s g (fun _ => rfl) (fun _ => rfl)

theorem seqFrame_ite {s t u : State} {g : Nat} {p : Prop} [Decidable p] (ht : s.SeqFrame t g) (hu : s.SeqFrame u g) :
    s.SeqFrame (if p then t else u) g := by split <;> assumption

theorem seqFrame_queuePrefetch (s : State) (g c : Nat) : s.SeqFrame (queuePrefetch g c s) g :=
  seqFrame_ite (.refl s g) (seqFrame_ite (seqFrame_putPar s g _ _)
    (seqFrame_modGal s g (fun _ => rfl) (fun _ => rfl) (fun _ => rfl)))

theorem seqFrame_prefetchHint (s : State) (g : Nat) (o : Option Nat) : s.SeqFrame (prefetchHint g o s) g := by
  cases o with
  | none => exact .refl s g
  | some c => exact seqFrame_queuePrefetch s g c

theorem seqFrame_switchCtx (s : State) (g c : Nat) : s.SeqFrame (switchCtx g c s) g := by
  unfold switchCtx
  refine seqFrame_ite (seqFrame_raise s g _ _) ?_
  split
  · exact seqFrame_ite (.refl s g) (seqFrame_modGal s g (fun _ => rfl) (fun _ => rfl) (fun _ => rfl))
  · exact seqFrame_modGal s g (fun _ => rfl) (fun _ => rfl) (fun _ => rfl)

theorem seqFrame_armCapture (s : State) (g kind source srcGal : Nat) (gals : BitVec 16) (tick : Tick) :
    s.SeqFrame (armCapture kind source gals tick srcGal s) g := by
  rw [armCapture_eq]
  exact ⟨fun _ _ => rfl, rfl, rfl, rfl, rfl⟩

theorem seqFrame_startDma (s : State) (g : Nat) (w : Word) : s.SeqFrame (startDma g w s) g :=
  seqFrame_modSeq s g (fun _ => rfl) (fun _ => rfl)

theorem consume_prog_entry (q : Seq) (src test : Nat) :
    (q.consume src test).prog = q.prog ∧ (q.consume src test).entry = q.entry := by
  unfold Seq.consume
  split <;> exact ⟨rfl, rfl⟩

/-- The effect of an instruction keeps the frame. -/
abbrev EffectFrame (act : Nat → Word → State → State) : Prop :=
  ∀ (g : Nat) (w : Word) (s : State), s.SeqFrame (act g w s) g

/-- An issue faults, does nothing, or has its effect: it keeps the frame. -/
theorem seqFrame_issue {op g : Nat} {transfers : Seq → Word → Bool} {bad : State → Seq → Word → Option Nat}
    {act : Nat → Word → State → State} (hact : EffectFrame act) (s : State) :
    s.SeqFrame (issue op transfers bad act g s) g := by
  have hfault : ∀ code, s.SeqFrame (seqFault g code s) g := fun code => by
    rw [seqFault_eq]; exact seqFrame_seqFaulted s g code
  refine seqFrame_ite (seqFrame_ite (hfault 4) (seqFrame_ite (hfault 1) (seqFrame_ite ?_ (.refl s g)))) (.refl s g)
  split
  · exact hfault _
  · exact seqFrame_ite (hfault 4) ((seqFrame_markIssued s g).trans (hact ..))

/-! ### The instructions -/

/-- A sequencer command is one issue of its instruction: with the instruction's own faults, control passing on where
Table 10.2 says so, and an effect that keeps the frame. -/
def IssuesAs (i : Instr) (g op : Nat) (s : State) : Prop :=
  ∃ transfers act, exec i s = .next (issue op transfers (fun _ => ownFault op) act g s) ∧ EffectFrame act ∧
    (op ∈ [0x10, 0x11, 0x13, 0x1, 0x2, 0x3, 0x9, 0xA, 0xB] → transfers = passes)

theorem frame_fence : EffectFrame fun g _ s =>
    if (s.gal g).fenceMet && (s.gal g).hold.isEmpty then fenceDone g s
    else s.modSeq g (fun q => { q with st := .fence }) := fun g _ s => by
  refine seqFrame_ite ?_ (seqFrame_modSeq s g (fun _ => rfl) (fun _ => rfl))
  rw [fenceDone_eq]
  exact seqFrame_modSeq s g (fun _ => rfl) (fun _ => rfl)

theorem frame_switch : EffectFrame fun g w s =>
    match ((switchCtx g (fld w 5 0) s).gal g).seq.st with
    | .switchStall _ => switchCtx g (fld w 5 0) s
    | _ => goNext g (switchCtx g (fld w 5 0) s) := fun g w s => by
  dsimp only
  split
  · exact seqFrame_switchCtx s g _
  · exact (seqFrame_switchCtx s g _).trans (seqFrame_goNext _ g)

theorem frame_waitt : EffectFrame fun g w s => s.modSeq g (fun q =>
    if q.test (fld w 4 0) (fld w 6 5) then
      { (q.consume (fld w 4 0) (fld w 6 5)) with timeout := false, pc := q.pc + 1 }
    else { q with st := .waitt (fld w 4 0) (fld w 6 5) (64 * fld w 27 8) (decide (fld w 27 8 ≠ 0)) }) := fun g w s => by
  refine seqFrame_modSeq s g (fun q => ?_) (fun q => ?_)
  · split
    · exact (consume_prog_entry ..).1
    · rfl
  · split
    · exact (consume_prog_entry ..).2
    · rfl

theorem frame_brc : EffectFrame fun g w s =>
    let q := (s.gal g).seq
    let taken := q.test (fld w 14 10) (fld w 16 15)
    let from' := if w.getLsbD 18 then fld w 9 0 else q.pc + 1
    let s := if w.getLsbD 17 then
        (match hintScan q 4 from' with | some c => queuePrefetch g c s | none => s) else s
    if taken then s.modSeq g (fun q => { (q.consume (fld w 14 10) (fld w 16 15)) with pc := fld w 9 0 })
    else goNext g s := fun g w s => by
  have hhint : ∀ n a, s.SeqFrame
      (match hintScan (s.gal g).seq n a with | some c => queuePrefetch g c s | none => s) g := fun n a => by
    split
    · exact seqFrame_queuePrefetch s g _
    · exact .refl s g
  refine seqFrame_ite ?_ ?_
  · exact (seqFrame_ite (hhint ..) (.refl s g)).trans
      (seqFrame_modSeq _ g (fun _ => (consume_prog_entry ..).1) (fun _ => (consume_prog_entry ..).2))
  · exact (seqFrame_ite (hhint ..) (.refl s g)).trans (seqFrame_goNext _ g)

theorem frame_emit : EffectFrame fun g w s =>
    let s := s.modSeq g (fun q => { q with pulse := q.pulse ||| w.setWidth 4, pc := q.pc + 1 })
    if w.getLsbD 4 then s.raiseGal g 1 [BitVec.ofNat 8 (fld w 12 5)] else s := fun g w s => by
  have hpulse : s.SeqFrame (s.modSeq g (fun q => { q with pulse := q.pulse ||| w.setWidth 4, pc := q.pc + 1 })) g :=
    seqFrame_modSeq s g (fun _ => rfl) (fun _ => rfl)
  exact seqFrame_ite (hpulse.trans (seqFrame_raise _ g _ _)) hpulse

theorem frame_dma : EffectFrame fun g w s =>
    if (s.gal g).seq.dmas.length < 2 then startDma g w s
    else s.modSeq g (fun q => { q with st := .dmaStall }) := fun g w s =>
  seqFrame_ite (seqFrame_startDma s g w) (seqFrame_modSeq s g (fun _ => rfl) (fun _ => rfl))

theorem frame_modSeq (f : Word → Seq → Seq) (hprog : ∀ w q, (f w q).prog = q.prog) (hentry : ∀ w q, (f w q).entry = q.entry) :
    EffectFrame fun g w s => s.modSeq g (f w) := fun g w s => seqFrame_modSeq s g (hprog w) (hentry w)

/-- A DMA that is not stalled is one issue. -/
theorem exec_dma_issues {g : Nat} {s : State} (hst : (s.gal g).seq.st ≠ .dmaStall) : IssuesAs (.dma g) g 0xD s := by
  refine ⟨_, _, congrArg Host.Outcome.next (if_neg ?_), frame_dma, fun hop => absurd hop (by decide)⟩
  simp [hst]

/-- Each sequencer command is one issue; only a stalled DMA has a way of its own. -/
theorem seqOp_issues {i : Instr} {g op : Nat} (h : seqOp i = some (g, op)) {s : State}
    (hst : op = 0xD → (s.gal g).seq.st ≠ .dmaStall) : IssuesAs i g op s := by
  unfold seqOp at h
  split at h <;> cases h
  case h_1 => exact ⟨_, _, rfl, fun g _ s => seqFrame_goNext s g, fun _ => rfl⟩
  case h_2 => exact ⟨_, _, rfl, frame_modSeq _ (fun _ _ => rfl) (fun _ _ => rfl), fun _ => rfl⟩
  case h_3 => exact ⟨_, _, rfl, frame_modSeq _ (fun _ _ => rfl) (fun _ _ => rfl), fun hop => absurd hop (by decide)⟩
  case h_4 => exact ⟨_, _, rfl, frame_fence, fun _ => rfl⟩
  case h_5 => exact ⟨_, _, rfl, frame_switch, fun _ => rfl⟩
  case h_6 => exact ⟨_, _, rfl, fun g _ s => (seqFrame_queuePrefetch s g _).trans (seqFrame_goNext _ g), fun _ => rfl⟩
  case h_7 => exact ⟨_, _, rfl, fun g _ s => seqFrame_ite (seqFrame_goNext s g)
      (seqFrame_modSeq s g (fun _ => rfl) (fun _ => rfl)), fun _ => rfl⟩
  case h_8 => exact ⟨_, _, rfl, frame_waitt, fun hop => absurd hop (by decide)⟩
  case h_9 => exact ⟨_, _, rfl, frame_modSeq _ (fun _ _ => rfl) (fun _ _ => rfl), fun hop => absurd hop (by decide)⟩
  case h_10 => exact ⟨_, _, rfl, frame_brc, fun hop => absurd hop (by decide)⟩
  case h_11 => exact ⟨_, _, rfl, frame_modSeq _ (fun _ _ => rfl) (fun _ _ => rfl), fun hop => absurd hop (by decide)⟩
  case h_12 => exact ⟨_, _, rfl, frame_modSeq _ (fun _ _ => rfl) (fun _ _ => rfl), fun hop => absurd hop (by decide)⟩
  case h_13 => exact ⟨_, _, rfl, frame_modSeq _ (fun _ _ => rfl) (fun _ _ => rfl), fun _ => rfl⟩
  case h_14 => exact ⟨_, _, rfl, frame_modSeq _ (fun _ _ => rfl) (fun _ _ => rfl), fun _ => rfl⟩
  case h_15 => exact ⟨_, _, rfl, frame_emit, fun _ => rfl⟩
  case h_16 => exact ⟨_, _, rfl, fun g _ s => (seqFrame_armCapture s g ..).trans (seqFrame_goNext _ g),
      fun hop => absurd hop (by decide)⟩
  case h_17 => exact exec_dma_issues (hst rfl)

/-- The opcodes of the instructions are not reserved. -/
theorem seqOp_not_reserved {i : Instr} {g op : Nat} (h : seqOp i = some (g, op)) : ¬ (op = 0xE ∨ op = 0xF ∨ 0x14 ≤ op) := by
  unfold seqOp at h
  split at h <;> cases h <;> decide

theorem eq_dma_of_seqOp {i : Instr} {g : Nat} (h : seqOp i = some (g, 0xD)) : i = .dma g := by
  unfold seqOp at h
  split at h <;> simp_all

theorem seqFrame_exec_dma {g : Nat} {s t : State} (h : exec (.dma g) s = .next t) : s.SeqFrame t g := by
  cases h
  refine seqFrame_ite (seqFrame_ite ?_ ?_) (seqFrame_issue frame_dma s)
  · rw [seqFault_eq]
    exact seqFrame_seqFaulted s g 5
  · exact (seqFrame_markIssued s g).trans (seqFrame_startDma _ g _)

/-- Whatever an instruction does, it keeps the frame. -/
theorem seqFrame_exec {i : Instr} {g op : Nat} (h : seqOp i = some (g, op)) {s t : State} (ht : exec i s = .next t) :
    s.SeqFrame t g := by
  by_cases hop : op = 0xD
  · subst hop
    rw [eq_dma_of_seqOp h] at ht
    exact seqFrame_exec_dma ht
  · obtain ⟨transfers, act, hexec, hact, -⟩ := seqOp_issues h (fun e => absurd e hop)
    cases hexec.symm.trans ht
    exact seqFrame_issue hact s

theorem badCond_eq_true {src test : Nat} (h : src = 31 ∨ test = 3) : badCond src test = true := decide_eq_true h

theorem badDesc_eq_true {q : Seq} {a : Nat} (h : a % 4 ≠ 0 ∨ 1020 < a ∨ fld (q.word a) 31 18 = 0 ∨
    2 ^ 21 < 16 * (fld (q.word a) 16 0 + fld (q.word a) 31 18)) : badDesc q a = true := by
  simpa only [badDesc, Bool.or_eq_true, decide_eq_true_eq, or_assoc] using h

/-- Settles O12: a fault by the branch of `issue` it takes, and the frame by `seqFrame_exec`. -/
theorem sequencerFaultsAndFrame : Obligations.SequencerFaultsAndFrame := by
  constructor
  · intro s i g op h hcan q w a
    obtain ⟨-, -, -, hst⟩ := canIssue_issuing hcan
    obtain ⟨transfers, act, hexec, -, hpasses⟩ := seqOp_issues h (s := s) (fun _ => by rw [hst]; nofun)
    have hvalid := seqOp_not_reserved h
    rw [hexec]
    refine ⟨fun hpc => congrArg _ (issue_past_store hcan hpc), fun hpc hres => congrArg _ (issue_reserved hcan hpc hres),
      fun hpc hw => ?_⟩
    have hown : ∀ {c}, ownFault op q w = some c →
        Host.Outcome.next (issue op transfers (fun _ => ownFault op) act g s) =
          (.next (s.seqFaulted g c) : Host.Outcome State Fault Refusal) :=
      fun hbad => congrArg _ (issue_own_fault hcan hpc hw hvalid hbad)
    refine ⟨?_, ?_, ?_, ?_, ?_, ?_, ?_⟩
    · rintro rfl hfull
      exact hown (if_pos hfull)
    · rintro rfl hempty
      exact hown (if_pos (by simp [hempty]))
    · rintro rfl hcond
      exact hown (if_pos (badCond_eq_true hcond))
    · rintro rfl hcond
      exact hown (if_pos (badCond_eq_true hcond))
    · rintro rfl hkind
      exact hown (if_pos hkind)
    · rintro rfl hroom hdesc
      exact hown (if_pos ⟨hroom, badDesc_eq_true hdesc⟩)
    · intro hend hop
      have hnone : ownFault op q w = none := by
        simp only [List.mem_cons, List.not_mem_nil, or_false] at hop
        obtain rfl | rfl | rfl | rfl | rfl | rfl | rfl | rfl | rfl := hop <;> rfl
      exact congrArg _ (issue_at_end hcan hend hw hvalid hnone (by rw [hpasses hop]; rfl))
  · intro s t i g op h ht
    obtain ⟨hgals, hgal, hprog, hentry, hrest⟩ := seqFrame_exec h ht
    refine ⟨hgals, hgal, hprog, hentry, hrest, fun hcan hst => ?_, fun hop hres hpc hst => ?_⟩
    · obtain ⟨transfers, act, hexec, -, -⟩ := seqOp_issues h (s := s) (fun _ => hst)
      cases hexec.symm.trans ht
      exact issue_idle hcan
    · obtain ⟨transfers, act, hexec, -, -⟩ := seqOp_issues h (s := s) (fun _ => hst)
      cases hexec.symm.trans ht
      exact issue_other hpc hop hres

end Sys2Proof.Machine
end

section
/-!
PROOF of O6 and O7 (chapter 8): loads and stores take a place of their tap, and what a hearth command leaves alone.
-/

namespace Sys2Proof.Machine

/-! ### A tap takes a request (R154, R155) -/

/-- Raising a request at a bank changes the requests only. -/
theorem raiseTap_eq (cyc k : Nat) (x : Gallery) :
    raiseTap cyc k x = { x with requests := (raiseTap cyc k x).requests } := by
  unfold raiseTap
  split
  · rfl
  · split
    · split <;> rfl
    · rfl

/-- Raising a request does not look at intervals or assay segments. -/
theorem raiseTap_busy (cyc k : Nat) (x : Gallery) (b : Tab Nat) (e : Tab HearthTest) :
    raiseTap cyc k { x with busy := b, hearths := e } = { raiseTap cyc k x with busy := b, hearths := e } := by
  have hguard : (({ x with busy := b, hearths := e } : Gallery).raisedBy k ||
      ({ x with busy := b, hearths := e } : Gallery).bursting k) = (x.raisedBy k || x.bursting k) := rfl
  have htap : ({ x with busy := b, hearths := e } : Gallery).tap k = x.tap k := rfl
  simp only [raiseTap, hguard, htap]
  split
  · rfl
  · split
    · split <;> rfl
    · rfl

/-- A gallery whose tap `k` holds `l`, its next request raised. -/
def Gallery.queued (x : Gallery) (cyc k : Nat) (l : List TapReq) : Gallery :=
  { x with tapQ := tabSet [] x.tapQ k l, requests := (raiseTap cyc k (x.setTap k l)).requests }

theorem raiseTap_setTap (cyc k : Nat) (x : Gallery) (l : List TapReq) : raiseTap cyc k (x.setTap k l) = x.queued cyc k l := by
  rw [raiseTap_eq]; rfl

theorem queued_busy (x : Gallery) (cyc k : Nat) (l : List TapReq) (b : Tab Nat) (e : Tab HearthTest) :
    ({ x with busy := b, hearths := e } : Gallery).queued cyc k l = { x.queued cyc k l with busy := b, hearths := e } := by
  rw [← raiseTap_setTap, ← raiseTap_setTap]
  exact raiseTap_busy cyc k (x.setTap k l) b e

theorem fld_addr (a : Word) : fld a 20 4 * 16 = a.toNat / 16 % 2 ^ 17 * 16 := rfl

theorem tapRoom_of_two {x : Gallery} {k : Nat} (load : Bool) (h : (x.tap k).length < 2) : x.tapRoom load k = true := by
  simp [Gallery.tapRoom, h]

theorem tapRoom_of_open {x : Gallery} {k : Nat} (h : (openStore (x.tap k)).isSome = true) : x.tapRoom false k = true := by
  simp [Gallery.tapRoom, h]

theorem tapRoom_eq_false {x : Gallery} {k : Nat} {load : Bool} (h : ¬ (x.tap k).length < 2)
    (hopen : load = true ∨ openStore (x.tap k) = none) : x.tapRoom load k = false := by
  obtain rfl | hopen := hopen
  · simp [Gallery.tapRoom, h]
  · simp [Gallery.tapRoom, h, hopen]

/-- The burst that LD asks for (R154). -/
def loadReq (x : Gallery) (r : Record) (a : Word) : TapReq :=
  { load := true, addr := a.toNat / 16 % 2 ^ 17 * 16, beats := r.beats + 1, plane := x.active, granted := false
    words := [], need := 4 * (r.beats + 1), done := 0, wb := if r.wb then some r.wreg else none, fclr := r.fclr
    nowrite := false, wait := 5 }

/-- The burst that ST opens with its first word (R155). -/
def storeReq (writeEn : Bool) (x : Gallery) (r : Record) (a b : Word) : TapReq :=
  { load := false, addr := a.toNat / 16 % 2 ^ 17 * 16, beats := r.beats + 1, plane := x.active, granted := false
    words := [(b, false)], need := 4 * (r.beats + 1), done := 0, wb := none, fclr := false
    nowrite := !writeEn, wait := 0 }

theorem tapLoad_eq (cyc h : Nat) (r : Record) (a : Word) (x : Gallery) :
    tapLoad cyc h r a x = x.queued cyc (tapOf h) (x.tap (tapOf h) ++ [loadReq x r a]) := by
  rw [tapLoad, raiseTap_setTap]; rfl

/-- What the tap of ST holds afterwards (R155). -/
def storeQueue (writeEn : Bool) (k : Nat) (r : Record) (a b : Word) (x : Gallery) : List TapReq :=
  dropNoWrite (if (openStore (x.tap k)).isSome then feedStore b (x.tap k) else x.tap k ++ [storeReq writeEn x r a b])

theorem tapStore_eq (cyc h : Nat) (writeEn : Bool) (r : Record) (a b : Word) (x : Gallery) :
    tapStore cyc h writeEn r a b x = x.queued cyc (tapOf h) (storeQueue writeEn (tapOf h) r a b x) := by
  unfold tapStore
  dsimp only
  rw [raiseTap_setTap]
  rfl

/-- LD when R138 holds and its tap has a place. -/
theorem next_ld {s : State} {g h : Nat} (hf : s.CanFire g h 0x30 [(s.recordOf g h).srcA])
    (hroom : ((s.gal g).tap (tapOf h)).length < 2) : ∃ t, exec (.ld g h) s = .next t ∧
      s.Fired t g h 1 ((s.gal g).queued s.clk.cyc (tapOf h) ((s.gal g).tap (tapOf h) ++
        [loadReq (s.gal g) (s.recordOf g h) (s.operand g h (s.recordOf g h).srcA)])) := by
  refine ⟨_, rfl, ?_⟩
  rw [fire_eq (sel := fun r => [r.srcA]) hf (tapRoom_of_two true hroom), ← tapLoad_eq]
  refine fired_modGal s g h 1 (tapLoad s.clk.cyc h (s.recordOf g h) _) fun x b k => ?_
  rw [tapLoad_eq, tapLoad_eq]
  exact queued_busy ..

/-- FCLR on a firing that places no result puts a clear in flight. -/
def fclrPush (h : Nat) (r : Record) (x : Gallery) : Gallery :=
  if r.fclr then x.push { hearth := h, plane := x.active, left := 1, result := none, wb := none, setZN := none
                          setC := none, sticky := 0, fclr := true, regs := [] } else x

theorem fclrOnly_fired {s t : State} {g h iv : Nat} {r : Record} {y : Gallery} (hfired : s.Fired t g h iv y) :
    s.Fired (fclrOnly g h r t) g h iv (fclrPush h r y) := by
  have hactive : (t.gal g).active = y.active := by rw [hfired.gal]
  unfold fclrOnly fclrPush
  split
  · rw [pushPipe_eq, hactive]
    exact hfired.modGal fun _ _ _ => rfl
  · exact hfired

/-- ST when R138 holds and its tap takes the word. -/
theorem next_st {s : State} {g h : Nat} (hf : s.CanFire g h 0x31 [(s.recordOf g h).srcA, (s.recordOf g h).srcB])
    (hroom : (s.gal g).tapRoom false (tapOf h) = true) : ∃ t, exec (.st g h) s = .next t ∧
      s.Fired t g h 1 (fclrPush h (s.recordOf g h) ((s.gal g).queued s.clk.cyc (tapOf h)
        (storeQueue s.kin.writeEn (tapOf h) (s.recordOf g h) (s.operand g h (s.recordOf g h).srcA)
          (s.operand g h (s.recordOf g h).srcB) (s.gal g)))) := by
  refine ⟨_, rfl, ?_⟩
  rw [fire_eq (sel := fun r => [r.srcA, r.srcB]) hf hroom, ← tapStore_eq]
  refine fclrOnly_fired (fired_modGal s g h 1 (tapStore s.clk.cyc h s.kin.writeEn (s.recordOf g h) _ _) fun x b k => ?_)
  rw [tapStore_eq, tapStore_eq]
  exact queued_busy ..

/-- Settles O6: LD joins the queue of its tap, ST opens a burst or feeds the open one. -/
theorem tapsTakeLoadsAndStores : Obligations.TapsTakeLoadsAndStores := by
  intro s g h r x k a b q queued cleared
  refine ⟨fun hf hroom => next_ld hf hroom, fun hf hroom hopen => ?_, fun hf hopen => ?_⟩
  · have hst := next_st hf (tapRoom_of_two false hroom)
    have hclosed : openStore ((s.gal g).tap (tapOf h)) = none := hopen
    rwa [storeQueue, hclosed] at hst
  · have hst := next_st hf (tapRoom_of_open hopen)
    have hopened : (openStore ((s.gal g).tap (tapOf h))).isSome = true := hopen
    rwa [storeQueue, if_pos hopened] at hst

/-! ### What a hearth command leaves alone (R138, R139, R156) -/

/-- The parameters that a hearth command may count in: discards, stale words and the pair of firings. -/
def hearthCounts (g : Nat) : List Nat := [galP g 0x60, galP g 0x65, galP g 0x66, galP g 0x81]

/-- `t` is `s` but for what a hearth command of gallery `g` may change at once: intervals, assay segments, effects in flight,
accumulators with their planes' records, taps with their requests, and the counts. -/
structure State.HearthFrame (s t : State) (g : Nat) : Prop where
  only : s.Only t g (hearthCounts g)
  gal : t.gal g = { s.gal g with
    busy := (t.gal g).busy, hearths := (t.gal g).hearths, pipe := (t.gal g).pipe, acc := (t.gal g).acc
    planes := (t.gal g).planes, tapQ := (t.gal g).tapQ, requests := (t.gal g).requests }

theorem State.Only.trans {s t u : State} {g : Nat} {ps : List Nat} (h : s.Only t g ps) (h' : t.Only u g ps) : s.Only u g ps where
  gals k hk := (h'.gals k hk).trans (h.gals k hk)
  params n hn := (h'.params n hn).trans (h.params n hn)
  rest := by
    have hrest := h'.rest
    rw [h.rest] at hrest
    exact hrest

theorem only_modGal (s : State) (g : Nat) (f : Gallery → Gallery) (ps : List Nat) : s.Only (s.modGal g f) g ps :=
  ⟨fun _ hk => State.gal_modGal_ne _ _ _ _ hk, fun _ _ => State.par_modGal .., rfl⟩

theorem only_putPar (s : State) (g : Nat) {n : Nat} {ps : List Nat} (hn : n ∈ ps) (v : Word) : s.Only (s.putPar n v) g ps :=
  ⟨fun _ _ => State.gal_putPar .., fun _ hm => State.par_putPar_ne _ _ _ _ fun e => hm (e ▸ hn), rfl⟩

theorem State.HearthFrame.refl (s : State) (g : Nat) : s.HearthFrame s g := ⟨(State.Only.refl s g).mono nofun, rfl⟩

theorem State.HearthFrame.trans {s t u : State} {g : Nat} (h : s.HearthFrame t g) (h' : t.HearthFrame u g) :
    s.HearthFrame u g where
  only := h.only.trans h'.only
  gal := by
    have hgal := h'.gal
    rw [h.gal] at hgal
    exact hgal

/-- A change of the gallery within the frame. -/
theorem hearthFrame_modGal (s : State) (g : Nat) {f : Gallery → Gallery}
    (hf : ∀ x, f x = { x with
      busy := (f x).busy, hearths := (f x).hearths, pipe := (f x).pipe, acc := (f x).acc, planes := (f x).planes
      tapQ := (f x).tapQ, requests := (f x).requests }) : s.HearthFrame (s.modGal g f) g where
  only := only_modGal ..
  gal := by rw [State.gal_modGal_same]; exact hf _

theorem hearthFrame_putPar (s : State) {g n : Nat} (hn : n ∈ hearthCounts g) (v : Word) : s.HearthFrame (s.putPar n v) g where
  only := only_putPar s g hn v
  gal := by rw [State.gal_putPar]

theorem hearthFrame_firing (s : State) (g h iv : Nat) : s.HearthFrame (s.firing g h iv) g := by
  refine .trans (.trans (hearthFrame_modGal s g ?_) (hearthFrame_putPar _ ?_ _)) (hearthFrame_putPar _ ?_ _)
  · exact fun _ => rfl
  · simp [hearthCounts]
  · simp [hearthCounts, galP]

theorem hearthFrame_pushPipe (s : State) (g : Nat) (e : InFlight) : s.HearthFrame (pushPipe g e s) g :=
  hearthFrame_modGal s g fun _ => rfl

theorem hearthFrame_discard (s : State) (g n : Nat) : s.HearthFrame (discard g n s) g := by
  unfold discard
  split
  · exact .refl s g
  · exact hearthFrame_putPar s (by simp [hearthCounts]) _

theorem hearthFrame_stale (s : State) (g n : Nat) : s.HearthFrame (if n = 0 then s else s.count (galP g 0x81) n) g := by
  split
  · exact .refl s g
  · exact hearthFrame_putPar s (by simp [hearthCounts]) _

/-- The effect of a firing keeps the frame. -/
abbrev FiringFrame (g : Nat) (act : Record → Word → Word → Word → State → State) : Prop :=
  ∀ (r : Record) (a b c : Word) (s : State), s.HearthFrame (act r a b c s) g

theorem hearthFrame_fire {op g h : Nat} {sel : Record → List Nat} {iv : Record → Nat} {room : Gallery → Bool}
    {act : Record → Word → Word → Word → State → State} (hact : FiringFrame g act) (s : State) :
    s.HearthFrame (fire op sel iv room act g h s) g := by
  unfold fire
  dsimp only
  generalize switchCount s (s.gal g) _ h _ Offer.isStale = stale
  have hstale := hearthFrame_stale s g stale
  split
  · split
    · exact hstale.trans (hearthFrame_discard ..)
    · split
      · exact hstale.trans (hearthFrame_discard ..)
      · exact (hstale.trans (hearthFrame_firing _ g h _)).trans (hact ..)
  · exact .refl s g

/-- A hearth command is one firing of its operation, which a full tap refuses, with an effect that keeps the frame. -/
def FiresAs (i : Instr) (g h op : Nat) (sel : Record → List Nat) (s : State) : Prop :=
  ∃ iv room act, exec i s = .next (fire op sel iv room act g h s) ∧ FiringFrame g act ∧
    (op = 0x30 → room = fun x => x.tapRoom true (tapOf h)) ∧ (op = 0x31 → room = fun x => x.tapRoom false (tapOf h))

theorem firesAs_A (op lat : Nat) (f : Record → Word → WordRes) {i : Instr} {g h : Nat} {s : State}
    (hi : exec i s = .next (fireA op lat f g h s)) (hld : op ≠ 0x30) (hst : op ≠ 0x31) :
    FiresAs i g h op (fun r => [r.srcA]) s :=
  ⟨_, _, _, hi, fun _ _ _ _ s => hearthFrame_pushPipe s g _, fun e => absurd e hld, fun e => absurd e hst⟩

theorem firesAs_AB (op lat : Nat) (iv : Record → Nat) (f : Record → Word → Word → WordRes) {i : Instr} {g h : Nat} {s : State}
    (hi : exec i s = .next (fireAB op lat iv f g h s)) (hld : op ≠ 0x30) (hst : op ≠ 0x31) :
    FiresAs i g h op (fun r => [r.srcA, r.srcB]) s :=
  ⟨_, _, _, hi, fun _ _ _ _ s => hearthFrame_pushPipe s g _, fun e => absurd e hld, fun e => absurd e hst⟩

theorem frame_mac (minus : Bool) (g h : Nat) : FiringFrame g (macAct minus g h) := fun _ _ _ _ s =>
  (hearthFrame_pushPipe s g _).trans (hearthFrame_modGal _ g fun _ => rfl)

theorem frame_ld (g h : Nat) : FiringFrame g fun r a _ _ t => t.modGal g (tapLoad t.clk.cyc h r a) := fun r a _ _ t =>
  hearthFrame_modGal t g fun x => by rw [tapLoad_eq]; rfl

theorem frame_st (g h : Nat) : FiringFrame g fun r a b _ t =>
    fclrOnly g h r (t.modGal g (tapStore t.clk.cyc h t.kin.writeEn r a b)) := fun r a b _ t => by
  have hstore : t.HearthFrame (t.modGal g (tapStore t.clk.cyc h t.kin.writeEn r a b)) g :=
    hearthFrame_modGal t g fun x => by rw [tapStore_eq]; rfl
  dsimp only [fclrOnly]
  split
  · exact hstore.trans (hearthFrame_pushPipe ..)
  · exact hstore

theorem hearthOp_fires {i : Instr} {g h op : Nat} {sel : Record → List Nat} (hi : hearthOp i = some (g, h, op, sel)) (s : State) :
    FiresAs i g h op sel s := by
  unfold hearthOp at hi
  split at hi <;> cases hi
  case h_1 => exact firesAs_A _ _ _ rfl nofun nofun
  case h_2 => exact ⟨_, _, _, rfl, fun _ _ _ _ s => hearthFrame_pushPipe s g _, nofun, nofun⟩
  case h_3 => exact firesAs_AB _ _ _ _ rfl nofun nofun
  case h_4 => exact firesAs_AB _ _ _ _ rfl nofun nofun
  case h_5 => exact firesAs_A _ _ _ rfl nofun nofun
  case h_6 => exact firesAs_A _ _ _ rfl nofun nofun
  case h_7 => exact firesAs_AB _ _ _ _ rfl nofun nofun
  case h_8 => exact firesAs_AB _ _ _ _ rfl nofun nofun
  case h_9 => exact firesAs_AB _ _ _ _ rfl nofun nofun
  case h_10 => exact firesAs_AB _ _ _ _ rfl nofun nofun
  case h_11 => exact firesAs_AB _ _ _ _ rfl nofun nofun
  case h_12 => exact firesAs_A _ _ _ rfl nofun nofun
  case h_13 => exact firesAs_AB _ _ _ _ rfl nofun nofun
  case h_14 => exact firesAs_AB _ _ _ _ rfl nofun nofun
  case h_15 => exact firesAs_AB _ _ _ _ rfl nofun nofun
  case h_16 => exact firesAs_AB _ _ _ _ rfl nofun nofun
  case h_17 => exact firesAs_A _ _ _ rfl nofun nofun
  case h_18 => exact firesAs_A _ _ _ rfl nofun nofun
  case h_19 => exact firesAs_AB _ _ _ _ rfl nofun nofun
  case h_20 => exact firesAs_AB _ _ _ _ rfl nofun nofun
  case h_21 => exact ⟨_, _, _, rfl, frame_mac false g h, nofun, nofun⟩
  case h_22 => exact ⟨_, _, _, rfl, frame_mac true g h, nofun, nofun⟩
  case h_23 => exact firesAs_A _ _ _ rfl nofun nofun
  case h_24 => exact firesAs_AB _ _ _ _ rfl nofun nofun
  case h_25 => exact ⟨_, _, _, rfl, fun _ _ _ _ s => hearthFrame_pushPipe s g _, nofun, nofun⟩
  case h_26 => exact firesAs_AB _ _ _ _ rfl nofun nofun
  case h_27 => exact firesAs_AB _ _ _ _ rfl nofun nofun
  case h_28 => exact firesAs_AB _ _ _ _ rfl nofun nofun
  case h_29 => exact firesAs_A _ _ _ rfl nofun nofun
  case h_30 => exact ⟨_, _, _, rfl, frame_ld g h, fun _ => rfl, nofun⟩
  case h_31 => exact ⟨_, _, _, rfl, frame_st g h, nofun, fun _ => rfl⟩

section

variable {s : State} {g h op : Nat} {sel : Record → List Nat} {iv : Record → Nat} {room : Gallery → Bool}
  {act : Record → Word → Word → Word → State → State}

/-- A command for a hearth that is not clocked, or whose active plane holds another operation (R138). -/
theorem fire_idle (hidle : s.live g = false ∨ 128 ≤ h ∨ (s.recordOf g h).op ≠ op) : fire op sel iv room act g h s = s := by
  rw [State.recordOf] at hidle
  have hguard : (s.live g && decide (h < 128) && decide (((s.gal g).record (s.gal g).active h).op = op)) = false := by
    obtain hlive | hh | hop := hidle
    · simp [hlive]
    · simp [Nat.not_lt.2 hh]
    · simp [hop]
  simp only [fire, hguard, Bool.false_eq_true, if_false]

/-- The stale words at a hearth, counted. -/
def State.staleCounted (s : State) (g n : Nat) : State := if n = 0 then s else s.count (galP g 0x81) n

/-- A hearth that does not fire counts its stale words and the valid ones that it does not consume (R139, R201). -/
theorem fire_refused (hlive : s.live g = true) (hh : h < 128) (hop : (s.recordOf g h).op = op)
    (hnot : (∃ c ∈ sel (s.recordOf g h), (offerOf s (s.gal g) (s.recordOf g h) h c).valid = false) ∨
      tabGet 0 (s.gal g).busy h ≠ 0 ∨ room (s.gal g) = false) :
    fire op sel iv room act g h s =
      discard g (switchCount s (s.gal g) (s.recordOf g h) h (sel (s.recordOf g h)) Offer.valid)
        (s.staleCounted g (switchCount s (s.gal g) (s.recordOf g h) h (sel (s.recordOf g h)) Offer.isStale)) := by
  rw [State.recordOf] at *
  have hguard : (s.live g && decide (h < 128) && decide (((s.gal g).record (s.gal g).active h).op = op)) = true := by
    simp [hlive, hh, hop]
  simp only [fire, hguard, if_true]
  by_cases hall : (sel ((s.gal g).record (s.gal g).active h)).all
      (fun c => (offerOf s (s.gal g) ((s.gal g).record (s.gal g).active h) h c).valid) = true
  · have hbusy : (decide (tabGet 0 (s.gal g).busy h ≠ 0) || !room (s.gal g)) = true := by
      obtain ⟨c, hc, hinvalid⟩ | hbusy | hroom := hnot
      · exact absurd (List.all_eq_true.1 hall c hc) (by simp [hinvalid])
      · simp [hbusy]
      · simp [hroom]
    simp only [hall, Bool.not_true, Bool.false_eq_true, if_false, hbusy, if_true]
    rfl
  · simp only [hall, Bool.not_false, if_true]
    rfl

end

theorem rest_discard_staleCounted (s : State) (g m n : Nat) :
    discard g m (s.staleCounted g n) = { s with params := (discard g m (s.staleCounted g n)).params } := by
  unfold discard State.staleCounted
  split <;> split <;> rfl

theorem galP_ne {g k l : Nat} (h : k ≠ l) : galP g k ≠ galP g l := by
  simp only [galP]
  omega

theorem par_staleCounted_ne (s : State) {g n k : Nat} (h : k ≠ galP g 0x81) : (s.staleCounted g n).par k = s.par k := by
  unfold State.staleCounted
  split
  · rfl
  · exact State.par_count_ne _ _ _ _ h

theorem par_discard_ne (s : State) {g n k : Nat} (h : k ≠ galP g 0x60) : (discard g n s).par k = s.par k := by
  unfold discard
  split
  · rfl
  · exact State.par_count_ne _ _ _ _ h

theorem toNat_discard (s : State) (g n : Nat) : ((discard g n s).par (galP g 0x60)).toNat =
    Min.min 0xFFFFFFFF ((s.par (galP g 0x60)).toNat + n) := by
  unfold discard
  split
  next hzero =>
    have hlt := (s.par (galP g 0x60)).isLt
    omega
  next => exact toNat_count ..

/-- Settles O7: a hearth that does not fire only counts, and a firing keeps the frame. -/
theorem hearthCommandsLeaveTheRestAlone : Obligations.HearthCommandsLeaveTheRestAlone := by
  refine ⟨fun s i g h op sel hi => ?_, fun s i g h op sel hi hidle => ?_, fun s t i g h op sel hi ht => ?_⟩
  · intro r x offer k hlive hh hop hnot
    obtain ⟨iv, room, act, hexec, -, hld, hst⟩ := hearthOp_fires hi s
    have hroom : (∃ c ∈ sel r, (offer c).valid = false) ∨ tabGet 0 x.busy h ≠ 0 ∨ room x = false := by
      refine hnot.imp_right (Or.imp_right ?_)
      rintro ⟨hfull, rfl | ⟨rfl, hopen⟩⟩
      · rw [hld rfl]
        exact tapRoom_eq_false (Nat.not_lt.2 hfull) (.inl rfl)
      · rw [hst rfl]
        exact tapRoom_eq_false (Nat.not_lt.2 hfull) (.inr hopen)
    refine ⟨_, hexec.trans (congrArg _ (fire_refused hlive hh hop hroom)), rest_discard_staleCounted .., ?_,
      fun n hdiscard hstale => ?_⟩
    · rw [toNat_discard, par_staleCounted_ne _ (galP_ne (by decide))]
      rfl
    · rw [par_discard_ne _ hdiscard, par_staleCounted_ne _ hstale]
  · obtain ⟨iv, room, act, hexec, -⟩ := hearthOp_fires hi s
    rw [hexec, fire_idle hidle]
  · obtain ⟨iv, room, act, hexec, hact, -⟩ := hearthOp_fires hi s
    cases hexec.symm.trans ht
    obtain ⟨honly, hgal⟩ := hearthFrame_fire (sel := sel) (iv := iv) (room := room) hact s (op := op) (h := h)
    exact ⟨honly, hgal, fun a => by rw [hgal]⟩

end Sys2Proof.Machine
end

section
/-!
PROOF of O13 (chapter 9): the engine takes its next transfer, and a bad slot ends a fill.
-/

namespace Sys2Proof.Machine

/-! ### The victim (R159) -/

theorem canLeave_iff (x : Gallery) (p : Nat) : x.canLeave p = true ↔ x.Leaves p := by
  have hsome : (x.plane p).ctx.isSome = true ↔ (x.plane p).ctx ≠ none := Option.isSome_iff_ne_none
  rcases hswitch : x.switchTo with - | ⟨q, k⟩ <;>
    simp [Gallery.canLeave, Gallery.Leaves, hswitch, hsome, and_assoc]

/-- Plane `p` is the one with the oldest stamp, ties to the lower index, among those below `n` that can leave. -/
def Gallery.OldestBelow (x : Gallery) (n p : Nat) : Prop :=
  p < n ∧ x.Leaves p ∧
    ∀ k < n, x.Leaves k → (x.plane p).stamp < (x.plane k).stamp ∨ ((x.plane p).stamp = (x.plane k).stamp ∧ p ≤ k)

/-- The search of `Gallery.oldest` among the planes below `n`. -/
def Gallery.oldestBelow (x : Gallery) (n : Nat) : Option Nat :=
  (List.range n).foldl (fun a p =>
    if x.canLeave p then
      match a with
      | none => some p
      | some q => if (x.plane p).stamp < (x.plane q).stamp then some p else a
    else a) none

theorem oldestBelow_succ (x : Gallery) (n : Nat) : x.oldestBelow (n + 1) =
    if x.canLeave n then
      match x.oldestBelow n with
      | none => some n
      | some q => if (x.plane n).stamp < (x.plane q).stamp then some n else x.oldestBelow n
    else x.oldestBelow n := by
  rw [Gallery.oldestBelow, List.range_succ, List.foldl_append]
  rfl

theorem oldestBelow_spec (x : Gallery) (n : Nat) :
    match x.oldestBelow n with
    | some p => x.OldestBelow n p
    | none => ∀ k < n, ¬ x.Leaves k := by
  induction n with
  | zero => exact fun k hk => absurd hk (by omega)
  | succ n ih =>
    rw [oldestBelow_succ]
    by_cases hn : x.Leaves n
    · rw [if_pos ((canLeave_iff x n).2 hn)]
      cases hold : x.oldestBelow n with
      | none =>
        rw [hold] at ih
        refine ⟨by omega, hn, fun k hk hleaves => ?_⟩
        obtain rfl : k = n := by
          by_contra hne
          exact ih k (by omega) hleaves
        exact .inr ⟨rfl, le_rfl⟩
      | some q =>
        rw [hold] at ih
        obtain ⟨hq, hleaves, hmin⟩ := ih
        dsimp only
        by_cases hlt : (x.plane n).stamp < (x.plane q).stamp
        · rw [if_pos hlt]
          refine ⟨by omega, hn, fun k hk hk' => ?_⟩
          by_cases hkn : k = n
          · subst hkn; exact .inr ⟨rfl, le_rfl⟩
          · have := hmin k (by omega) hk'; omega
        · rw [if_neg hlt]
          refine ⟨by omega, hleaves, fun k hk hk' => ?_⟩
          by_cases hkn : k = n
          · subst hkn; omega
          · exact hmin k (by omega) hk'
    · rw [if_neg (mt (canLeave_iff x n).1 hn)]
      cases hold : x.oldestBelow n with
      | none =>
        rw [hold] at ih
        intro k hk hleaves
        by_cases hkn : k = n
        · exact hn (hkn ▸ hleaves)
        · exact ih k (by omega) hleaves
      | some q =>
        rw [hold] at ih
        obtain ⟨hq, hleaves, hmin⟩ := ih
        refine ⟨by omega, hleaves, fun k hk hk' => hmin k ?_ hk'⟩
        have hkn : k ≠ n := fun e => hn (e ▸ hk')
        omega

/-- The victim is found. -/
theorem victim_eq {x : Gallery} {p : Nat} (h : x.Victim p) : x.victim = some p := by
  obtain ⟨hp, ⟨hfree, hfirst⟩ | ⟨hnone, hleaves, hmin⟩⟩ := h
  · have hfound : firstBelow 8 (fun p => (x.plane p).free) = some p := by
      rw [firstBelow, List.find?_range_eq_some]
      exact ⟨hfree, List.mem_range.2 hp, fun k hk => by simp [hfirst k hk]⟩
    simp only [Gallery.victim, hfound]
  · have hfound : firstBelow 8 (fun p => (x.plane p).free) = none := by
      rw [firstBelow, List.find?_range_eq_none]
      exact fun k hk => by simp [hnone k hk]
    simp only [Gallery.victim, hfound]
    have hspec := oldestBelow_spec x 8
    change x.oldestBelow 8 = some p
    cases hold : x.oldestBelow 8 with
    | none =>
      rw [hold] at hspec
      exact absurd hleaves (hspec p hp)
    | some q =>
      rw [hold] at hspec
      obtain ⟨hq, hqleaves, hqmin⟩ := hspec
      have hpq := hmin q hq hqleaves
      have hqp := hqmin p hp hleaves
      exact congrArg some (by omega)

/-! ### Spills (R162, R164) -/

/-- The transfer that spills plane `p`, which holds context `c`. -/
def spillOf (p c cyc : Nat) : Transfer := { fill := false, plane := p, ctx := c, demand := false, since := cyc, bad := none }

theorem startSpill_only (s : State) (g p c : Nat) : s.Only (startSpill g p c s) g [galP g 0x78] := by
  unfold startSpill
  dsimp only
  split
  · exact ((State.Only.refl s g).putPar _ _).trans (only_modGal ..)
  · exact only_modGal ..

theorem gal_startSpill (s : State) (g p c : Nat) :
    (startSpill g p c s).gal g = { s.gal g with engine := some (spillOf p c s.clk.cyc) } := by
  unfold startSpill
  dsimp only
  rw [State.gal_modGal_same]
  split
  · rw [State.gal_count]; rfl
  · rfl

theorem par_startSpill (s : State) (g p c : Nat) : ((startSpill g p c s).par (galP g 0x78)).toNat =
    Min.min 0xFFFFFFFF ((s.par (galP g 0x78)).toNat +
      (if ((s.gal g).plane p).accLive ≠ 0 ∧ ((s.gal g).desc c).accUse = false then 1 else 0)) := by
  have hguard : (decide (((s.gal g).plane p).accLive ≠ 0) && !((s.gal g).desc c).accUse) = true ↔
      ((s.gal g).plane p).accLive ≠ 0 ∧ ((s.gal g).desc c).accUse = false := by simp
  unfold startSpill
  dsimp only
  rw [State.par_modGal]
  by_cases h : ((s.gal g).plane p).accLive ≠ 0 ∧ ((s.gal g).desc c).accUse = false
  · rw [if_pos (hguard.2 h), if_pos h, toNat_count]
  · rw [if_neg (mt hguard.1 h), if_neg h]
    have hlt := (s.par (galP g 0x78)).isLt
    omega

/-! ### The configuration port and the fill (R165, R389) -/

/-- The engine asks for a port that is free and that nobody waits for: it holds the port at once. -/
theorem askPort_engine {s : State} {g : Nat} (hbusy : (s.gal g).portBusy = none) (hwait : (s.gal g).portWait = []) :
    s.Only (askPort g .engine s) g [] ∧
      (askPort g .engine s).gal g = { s.gal g with portBusy := some .engine, portWait := [] } := by
  have hask : askPort g .engine s = grantPort g .engine (s.modGal g (fun x => { x with portWait := x.portWait ++ [.engine] })) := by
    simp [askPort, portNext, List.filter_cons, pickWriter, State.canGrant, hbusy, hwait]
  rw [hask]
  refine ⟨(only_modGal s g _ []).trans (only_modGal ..), ?_⟩
  change (State.modGal _ g _).gal g = _
  rw [State.gal_modGal_same, State.gal_modGal_same]
  simp [hwait]

theorem startFill_only (s : State) (g p c : Nat) (demand : Bool) :
    s.Only (startFill g p c demand s) g [galP g 0x76, galP g 0x7A] := by
  have hevict : s.Only (evictFor g p c s) g [galP g 0x76, galP g 0x7A] := by
    unfold evictFor
    dsimp only
    split
    · exact (only_putPar s g (by simp) _).trans (only_modGal ..)
    · exact only_modGal ..
  exact (hevict.trans (only_putPar _ g (by simp) _)).trans (only_modGal ..)

/-- The words of the slot of context `c` among the upset ones. -/
def slotOf (bad : Tab Decay) (c : Nat) : List (Nat × Decay) :=
  bad.filter (fun q => decide (2048 * c ≤ q.1 ∧ q.1 < 2048 * (c + 1)))

theorem gal_evictFor (s : State) (g p c : Nat) : (evictFor g p c s).gal g =
    { s.gal g with planes := tabSet Plane.reset (s.gal g).planes p { Plane.reset with filling := some c } } := by
  unfold evictFor
  dsimp only
  rw [State.gal_modGal_same]
  split
  · rw [State.gal_count]
  · rfl

theorem cyc_evictFor (s : State) (g p c : Nat) : (evictFor g p c s).clk = s.clk := by
  unfold evictFor
  dsimp only
  split <;> rfl

/-- A fill of plane `p` for context `c` has started. -/
def Gallery.filling (x : Gallery) (p c : Nat) (demand : Bool) (cyc : Nat) : Gallery :=
  { x with
    planes := tabSet Plane.reset x.planes p { Plane.reset with filling := some c }
    prefetch := if demand then x.prefetch else x.prefetch.filter (fun k => !decide (k = c))
    engine := some { fill := true, plane := p, ctx := c, demand := demand, since := cyc
                     bad := ((slotOf x.storeBad c).find? (fun q => decide (q.2 = .fatal))).map (fun q => (q.1 - 2048 * c) * 8) } }

theorem gal_startFill (s : State) (g p c : Nat) (demand : Bool) :
    (startFill g p c demand s).gal g = (s.gal g).filling p c demand s.clk.cyc := by
  unfold startFill
  dsimp only
  rw [State.gal_modGal_same, State.gal_count, gal_evictFor, State.count_clk, cyc_evictFor]
  rfl

theorem par_startFill (s : State) (g p c : Nat) (demand : Bool) :
    ((startFill g p c demand s).par (galP g 0x76)).toNat =
      Min.min 0xFFFFFFFF ((s.par (galP g 0x76)).toNat + (if ((s.gal g).plane p).unused then 1 else 0)) ∧
    ((startFill g p c demand s).par (galP g 0x7A)).toNat =
      Min.min 0xFFFFFFFF ((s.par (galP g 0x7A)).toNat +
        ((slotOf (s.gal g).storeBad c).filter (fun q => decide (q.2 = .corrected))).length) := by
  have hne : galP g 0x76 ≠ galP g 0x7A := galP_ne (by decide)
  have hlt := (s.par (galP g 0x76)).isLt
  have h76 : ((evictFor g p c s).par (galP g 0x76)).toNat =
      Min.min 0xFFFFFFFF ((s.par (galP g 0x76)).toNat + (if ((s.gal g).plane p).unused then 1 else 0)) := by
    unfold evictFor
    dsimp only
    rw [State.par_modGal]
    split
    · rw [toNat_count]
    · omega
  have h7A : (evictFor g p c s).par (galP g 0x7A) = s.par (galP g 0x7A) := by
    unfold evictFor
    dsimp only
    rw [State.par_modGal]
    split
    · rw [State.par_count_ne _ _ _ _ hne.symm]
    · rfl
  unfold startFill
  dsimp only
  constructor
  · rw [State.par_modGal, State.par_count_ne _ _ _ _ hne, h76]
  · rw [State.par_modGal, toNat_count, h7A, gal_evictFor]
    rfl

/-! ### TRANSFER_START -/

theorem fillsNext_spills {x : Gallery} {p : Nat} (hp : x.victim = some p) (hspill : (x.plane p).mustSpill = true) :
    x.fillsNext = none := by simp [Gallery.fillsNext, hp, hspill]

theorem fillsNext_fills {x : Gallery} {p : Nat} (hp : x.victim = some p) (hspill : (x.plane p).mustSpill = false) :
    x.fillsNext = some p := by simp [Gallery.fillsNext, hp, hspill]

theorem startWork_spills {s : State} {g c p old : Nat} (demand : Bool) (hp : (s.gal g).victim = some p)
    (hold : ((s.gal g).plane p).ctx = some old) (hspill : ((s.gal g).plane p).mustSpill = true) :
    startWork g c demand s = startSpill g p old s := by
  simp [startWork, fillsNext_spills hp hspill, engineWork, hp, hold, hspill]

theorem engineWork_fills {s : State} {g c p : Nat} (demand : Bool) (hp : (s.gal g).victim = some p)
    (hspill : ((s.gal g).plane p).mustSpill = false) : engineWork g c demand s = startFill g p c demand s := by
  simp only [engineWork, hp]
  cases ((s.gal g).plane p).ctx with
  | none => rfl
  | some old => exact if_neg (by simp [hspill])

/-- What the sweep hears of an eviction: the places of context `c` and of the context that leaves plane `p` change. -/
def evictionNoted (g p c : Nat) (s : State) : State :=
  noteCtxChanged g c (match ((s.gal g).plane p).ctx with | some old => noteCtxChanged g old s | none => s)

theorem evictionNoted_eq (g p c : Nat) (s : State) : ∃ w, evictionNoted g p c s = { s with sweep := w } := by
  unfold evictionNoted
  split
  next old _ =>
    obtain ⟨v, hv⟩ := noteCtxChanged_eq g old s
    rw [hv]
    exact (noteCtxChanged_eq g c _).imp fun w hw => by rw [hw]
  next => exact noteCtxChanged_eq g c s

theorem startWork_fills {s : State} {g c p : Nat} (demand : Bool) (hp : (s.gal g).victim = some p)
    (hspill : ((s.gal g).plane p).mustSpill = false) (hbusy : (s.gal g).portBusy = none) (hwait : (s.gal g).portWait = []) :
    startWork g c demand s = startFill g p c demand (evictionNoted g p c (askPort g .engine s)) := by
  have hgal := (askPort_engine hbusy hwait).2
  have hplane : ((askPort g .engine s).gal g).plane p = (s.gal g).plane p := by rw [hgal]; rfl
  obtain ⟨w, hw⟩ := evictionNoted_eq g p c (askPort g .engine s)
  have hnoted : (evictionNoted g p c (askPort g .engine s)).gal g = (askPort g .engine s).gal g := by rw [hw]; rfl
  have hvictim : ((evictionNoted g p c (askPort g .engine s)).gal g).victim = some p := by
    rw [hnoted, hgal]; exact hp
  have hholds : (askPort g .engine s).holdsPort g .engine = true := by simp [State.holdsPort, hgal]
  have hwork : startWork g c demand s = engineWork g c demand (evictionNoted g p c (askPort g .engine s)) := by
    simp only [startWork, fillsNext_fills hp hspill, hholds, if_true]
    rfl
  rw [hwork, engineWork_fills demand hvictim]
  rw [hnoted, hplane, hspill]

theorem noteStore_gal (s : State) (g : Nat) (ups : List Upset) : (noteStore g ups s).gal g = { s.gal g with
    storeBad := ups.foldl (fun t u => tabSet .sound t u.word (if u.fatal then .fatal else .corrected)) (s.gal g).storeBad } :=
  State.gal_modGal_same ..

/-- The engine is free and may start a transfer (R165, R413). -/
structure State.EngineFree (s : State) (g : Nat) : Prop where
  engine : (s.gal g).engine = none
  on : (s.dom g).st = .on
  clocked : s.clocked = true
  running : s.halted g = false
  gal : g ≤ 15

theorem exec_transferStart {s : State} {g : Nat} (h : s.EngineFree g) (ups : List Upset) :
    exec (.transferStart g ups) s = .next (match (s.gal g).demand with
      | some c => if (s.gal g).seq.issued then s else startWork g c true (noteStore g ups s)
      | none =>
        match (s.gal g).prefetch with
        | c :: _ => if s.damping g then s else startWork g c false (noteStore g ups s)
        | [] =>
          match (s.gal g).victim with
          | some p =>
            match ((s.gal g).plane p).ctx with
            | some c => if ((s.gal g).plane p).mustSpill && !s.damping g then startSpill g p c s else s
            | none => s
          | none => s) := by
  obtain ⟨hengine, hon, hclk, hrun, hg⟩ := h
  have hg' : ¬ 15 < g := Nat.not_lt.2 hg
  show execTransferStart g ups s = _
  simp only [execTransferStart, hengine, hon, hclk, hrun, hg', Option.isSome_none, decide_true, decide_false, Bool.not_true,
    Bool.or_self, Bool.false_eq_true, if_false] <;>
    rfl

theorem damping_of_open {s : State} {g : Nat} (h : (s.dom g).damper = .openD) : s.damping g = false := by
  simp [State.damping, h]

/-- A wanted context starts work: the demand of a stalled SWITCH, or the oldest prefetch (R165, R170). -/
theorem exec_transferStart_wanted {s : State} {g c : Nat} (h : s.EngineFree g) (ups : List Upset)
    (hwanted : ((s.gal g).demand = some c ∧ (s.gal g).seq.issued = false) ∨
      ((s.gal g).demand = none ∧ (s.gal g).prefetch.head? = some c ∧ (s.dom g).damper = .openD)) :
    exec (.transferStart g ups) s = .next (startWork g c (s.gal g).demand.isSome (noteStore g ups s)) := by
  rw [exec_transferStart h]
  obtain ⟨hdemand, hissued⟩ | ⟨hdemand, hhead, hopen⟩ := hwanted
  · simp only [hdemand, hissued, Bool.false_eq_true, if_false]
    rfl
  · obtain ⟨r, hprefetch⟩ := List.head?_eq_some_iff.1 hhead
    simp only [hdemand, hprefetch, damping_of_open hopen, Bool.false_eq_true, if_false]
    rfl

/-- With nothing wanted the victim is spilled in the background. -/
theorem exec_transferStart_background {s : State} {g p : Nat} (h : s.EngineFree g) (ups : List Upset)
    (hdemand : (s.gal g).demand = none) (hprefetch : (s.gal g).prefetch = []) (hopen : (s.dom g).damper = .openD)
    (hp : (s.gal g).victim = some p) :
    exec (.transferStart g ups) s = .next (match ((s.gal g).plane p).ctx with
      | some c => if ((s.gal g).plane p).mustSpill then startSpill g p c s else s
      | none => s) := by
  rw [exec_transferStart h]
  simp only [hdemand, hprefetch, hp, damping_of_open hopen, Bool.not_false, Bool.and_true]

/-! ### A bad slot (R173) -/

theorem memByte_memZero_ne (m : Memory) {a n i : Nat} (h : i < a ∨ a + n ≤ i) : memByte (memZero m a n) i = memByte m i := by
  have hfilter := tabGet_filter (0 : Byte) m (fun k => decide (k < a ∨ a + n ≤ k)) i
  rwa [if_pos (decide_eq_true h)] at hfilter

/-- Mending a slot rewrites words of its register and accumulator region only. -/
theorem mendSlot_spec (c : Nat) (x : Gallery) :
    mendSlot c x = { x with store := (mendSlot c x).store, storeBad := (mendSlot c x).storeBad } ∧
      ∀ i, (i < 0x4000 * c + 0x1800 ∨ 0x4000 * (c + 1) ≤ i) → memByte (mendSlot c x).store i = memByte x.store i := by
  have hslot : ∀ q ∈ slotUpsets x c, 2048 * c ≤ q.1 ∧ q.1 < 2048 * (c + 1) := fun q hq =>
    of_decide_eq_true (List.mem_filter.1 hq).2
  unfold mendSlot
  generalize slotUpsets x c = l at hslot ⊢
  induction l generalizing x with
  | nil => exact ⟨rfl, fun _ _ => rfl⟩
  | cons q r ih =>
    have hq := hslot q (List.mem_cons_self ..)
    rw [List.foldl_cons]
    split
    next hmend =>
      obtain ⟨hrest, hbytes⟩ := ih { x with
        store := memZero x.store (slotSize * c + 8 * (q.1 - 2048 * c)) 8, storeBad := tabSet .sound x.storeBad q.1 .sound }
        fun k hk => hslot k (List.mem_cons_of_mem _ hk)
      refine ⟨hrest, fun i hi => (hbytes i hi).trans (memByte_memZero_ne _ ?_)⟩
      simp only [slotSize]
      omega
    next => exact ih x fun k hk => hslot k (List.mem_cons_of_mem _ hk)

/-- A gallery whose demand fill of transfer `e` has failed, the sequencer on its way. -/
def Gallery.fillFailed (x : Gallery) (e : Transfer) : Gallery :=
  mendSlot e.ctx { x with
    engine := none, demand := none, planes := tabSet Plane.reset x.planes e.plane Plane.reset
    seq := match x.seq.st with
      | .switchStall _ => { x.seq with st := .issuing, pc := x.seq.pc + 1, issued := true }
      | _ => x.seq }

theorem ctxFault_two (g c off : Nat) (s : State) :
    ctxFault g 2 c off s = s.raise (0x22 + 6 * g) ([2, BitVec.ofNat 8 c] ++ leBytes 2 off) := by
  have he : 0x20 + 6 * g + 2 = 0x22 + 6 * g := by omega
  rw [ctxFault, State.raiseGal, he]
  rfl

theorem exec_fillComplete_bad {s : State} {g off : Nat} {e : Transfer} (hclk : s.clocked = true)
    (he : (s.gal g).engine = some e) (hfill : e.fill = true) (hbad : e.bad = some off) (hdemand : e.demand = true)
    (hpolicy : (s.par (galP g 0xA0)).getLsbD 2 = false)
    (hbusy : (s.gal g).portBusy = some .engine) (hwait : (s.gal g).portWait = []) :
    exec (.fillComplete g) s = .next
      (((((s.modGal g (fun x => x.fillFailed e)).count (galP g 0x75) 1).raise (0x22 + 6 * g)
        ([2, BitVec.ofNat 8 e.ctx] ++ leBytes 2 off))).modGal g (fun x => { x with portBusy := none })) := by
  show execFillComplete g s = _
  simp only [execFillComplete, hclk, he, hfill, hbad, hdemand, Bool.not_true, Bool.false_eq_true, if_false, if_true, ctxFault_two]
  have hkeeps := (mendSlot_spec e.ctx { s.gal g with
    engine := none, demand := none, planes := tabSet Plane.reset (s.gal g).planes e.plane Plane.reset
    seq := match (s.gal g).seq.st with
      | .switchStall _ => { (s.gal g).seq with st := .issuing, pc := (s.gal g).seq.pc + 1, issued := true }
      | _ => (s.gal g).seq }).1
  have hfault : ∀ u : State, u.par (galP g 0xA0) = s.par (galP g 0xA0) → faultPolicy g 2 u = u := fun u hu => by
    rw [faultPolicy, hu, hpolicy]; rfl
  rw [hfault, endFill_of_nobody_waits]
  · rfl
  · rw [State.gal_raise, State.gal_count, State.gal_modGal_same]
    exact (congrArg Gallery.portBusy hkeeps).trans hbusy
  · rw [State.gal_raise, State.gal_count, State.gal_modGal_same]
    exact (congrArg Gallery.portWait hkeeps).trans hwait
  · rw [State.par_raise, State.par_count_ne _ _ _ _ (galP_ne (by decide)), State.par_modGal]

theorem exec_prefetchFillAbandoned {s : State} {g off : Nat} {e : Transfer} (he : (s.gal g).engine = some e)
    (hfill : e.fill = true) (hbad : e.bad = some off) (hdemand : e.demand = false)
    (hbusy : (s.gal g).portBusy = some .engine) (hwait : (s.gal g).portWait = []) :
    exec (.prefetchFillAbandoned g) s = .next
      ((s.modGal g (fun x => { x with
        engine := none, planes := tabSet Plane.reset x.planes e.plane Plane.reset })).modGal g
          (fun x => { x with portBusy := none })) := by
  show execPrefetchFillAbandoned g s = _
  simp only [execPrefetchFillAbandoned, he, hfill, hbad, hdemand, Option.isSome_some, Bool.not_false, Bool.and_self, if_true]
  rw [endFill_of_nobody_waits]
  · rw [State.gal_modGal_same]; exact hbusy
  · rw [State.gal_modGal_same]; exact hwait

/-- A raise looks at no gallery. -/
theorem raise_withGals (s : State) (gs : Tab Gallery) (e : Nat) (l : List Byte) :
    ({ s with gals := gs } : State).raise e l = { s.raise e l with gals := gs } := by
  unfold State.raise State.canRaise
  dsimp only
  split <;> rfl

theorem rest_of_only_sweep {s t u : State} {g : Nat} {ps qs : List Nat} {w : Sweep} (h : s.Only u g ps)
    (h' : ({ u with sweep := w } : State).Only t g qs) :
    t = { s with gals := t.gals, params := t.params, sweep := t.sweep } := by
  have hu := h.rest
  have ht := h'.rest
  rw [hu] at ht
  rw [ht]

/-- Settles O13: the victim decides between spill and fill, and a bad slot frees the engine, the plane and the port. -/
theorem transferStartAndBadSlots : Obligations.TransferStartAndBadSlots := by
  refine ⟨fun s g p c ups => ?_, fun s g off e => ?_⟩
  · intro x d bad slot spill wanted hengine hon hclk hrun hg hvictim
    have hfree : s.EngineFree g := ⟨hengine, hon, hclk, hrun, hg⟩
    have hp : x.victim = some p := victim_eq hvictim
    have hnoted := noteStore_gal s g ups
    have hp' : ((noteStore g ups s).gal g).victim = some p := by rw [hnoted]; exact hp
    have honly : s.Only (noteStore g ups s) g [] := only_modGal ..
    refine ⟨fun hwanted => ⟨fun old hold hspill => ?_, fun hspill hbusy hwait => ?_⟩,
      fun hdemand hprefetch hopen => ⟨fun hctx hspill => ?_, fun hspill => ?_⟩⟩
    · refine ⟨_, exec_transferStart_wanted hfree ups hwanted, ?_⟩
      rw [startWork_spills (p := p) (old := old) _ hp' (by rw [hnoted]; exact hold) (by rw [hnoted]; exact hspill)]
      refine ⟨(honly.mono nofun).trans (startSpill_only ..), ?_, ?_⟩
      · rw [gal_startSpill, hnoted]; rfl
      · rw [par_startSpill, hnoted, honly.params _ nofun]; rfl
    · refine ⟨_, exec_transferStart_wanted hfree ups hwanted, ?_⟩
      have hbusy' : ((noteStore g ups s).gal g).portBusy = none := by rw [hnoted]; exact hbusy
      have hwait' : ((noteStore g ups s).gal g).portWait = [] := by rw [hnoted]; exact hwait
      rw [startWork_fills (p := p) _ hp' (by rw [hnoted]; exact hspill) hbusy' hwait']
      obtain ⟨hasked, hask⟩ := askPort_engine hbusy' hwait'
      obtain ⟨w, hw⟩ := evictionNoted_eq g p c (askPort g .engine (noteStore g ups s))
      rw [hw]
      generalize hu : askPort g .engine (noteStore g ups s) = u at *
      have hto : s.Only u g [] := honly.trans hasked
      have hfilled := startFill_only { u with sweep := w } g p c d
      have hgal : ({ u with sweep := w } : State).gal g = { x with storeBad := bad, portBusy := some .engine, portWait := [] } := by
        change u.gal g = _
        rw [hask, hnoted]
      have hcyc : u.clk = s.clk := by rw [hto.rest]
      have hpar : ∀ n, ({ u with sweep := w } : State).par n = s.par n := fun n => hto.params n nofun
      obtain ⟨hpar76, hpar7A⟩ := par_startFill { u with sweep := w } g p c d
      refine ⟨fun k hk => (hfilled.gals k hk).trans (hto.gals k hk), ?_, ?_, ?_, ?_⟩
      · exact rest_of_only_sweep hto hfilled
      · rw [gal_startFill, hgal]
        simp only [hcyc]
        rfl
      · rw [hpar76, hgal, hpar]; rfl
      · rw [hpar7A, hgal, hpar]; rfl
    · refine ⟨_, exec_transferStart_background hfree ups hdemand hprefetch hopen hp, ?_⟩
      rw [show (s.gal g).plane p = x.plane p from rfl, hctx]
      simp only [hspill, if_true]
      exact ⟨startSpill_only .., gal_startSpill ..⟩
    · rw [exec_transferStart_background hfree ups hdemand hprefetch hopen hp]
      simp only [show ((s.gal g).plane p).mustSpill = false from hspill, Bool.false_eq_true, if_false]
      cases ((s.gal g).plane p).ctx <;> rfl
  · intro x freed he hfill hbad hbusy hwait
    refine ⟨fun hclk hdemand hpolicy => ?_, fun hdemand => ?_⟩
    · obtain ⟨hkeeps, hbytes⟩ := mendSlot_spec e.ctx { x with
        engine := none, demand := none, planes := freed
        seq := match x.seq.st with
          | .switchStall _ => { x.seq with st := .issuing, pc := x.seq.pc + 1, issued := true }
          | _ => x.seq }
      refine ⟨_, exec_fillComplete_bad hclk he hfill hbad hdemand hpolicy hbusy hwait, ?_, fun k hk => ?_, ?_, ?_⟩
      · rw [show (s.modGal g (fun x => x.fillFailed e)).count (galP g 0x75) 1 =
          { s.count (galP g 0x75) 1 with gals := (s.modGal g (fun x => x.fillFailed e)).gals } from rfl, raise_withGals]
        rfl
      · rw [State.gal_modGal_ne _ _ _ _ hk, State.gal_raise, State.gal_count, State.gal_modGal_ne _ _ _ _ hk]
      · rw [State.gal_modGal_same, State.gal_raise, State.gal_count, State.gal_modGal_same]
        exact congrArg (fun y : Gallery => { y with portBusy := none }) hkeeps
      · intro i hi
        rw [State.gal_modGal_same, State.gal_raise, State.gal_count, State.gal_modGal_same]
        exact hbytes i hi
    · refine ⟨_, exec_prefetchFillAbandoned he hfill hbad hdemand hbusy hwait, (only_modGal ..).trans (only_modGal ..), ?_⟩
      rw [State.gal_modGal_same, State.gal_modGal_same]

end Sys2Proof.Machine
end

section
/-!
SUPPORT. Byte strings (R4): what a little-endian field of a string is worth, and fields of a string made of equal parts.
-/

namespace Sys2Proof.Machine

@[simp] theorem length_leBytes (n v : Nat) : (leBytes n v).length = n := by
  induction n generalizing v with
  | zero => rfl
  | succ n ih => simp [leBytes, ih]

theorem leNat_leBytes (n v : Nat) : leNat (leBytes n v) = v % 256 ^ n := by
  induction n generalizing v with
  | zero => simp [leBytes, leNat, Nat.mod_one]
  | succ n ih =>
    have h : v % 256 ^ (n + 1) = v % 256 + 256 * (v / 256 % 256 ^ n) := by
      rw [pow_succ', Nat.mod_mul]
    simp [leBytes, leNat, ih, h]

theorem leAt_append_left {l m : List Byte} {off n : Nat} (h : off + n ≤ l.length) : leAt (l ++ m) off n = leAt l off n := by
  unfold leAt slice
  rw [List.drop_append_of_le_length (by omega), List.take_append_of_le_length (by simp; omega)]

theorem leAt_append_right {l m : List Byte} {off n : Nat} (h : l.length ≤ off) :
    leAt (l ++ m) off n = leAt m (off - l.length) n := by
  unfold leAt slice
  rw [List.drop_append, List.drop_eq_nil_of_le h, List.nil_append]

/-- A field inside part `i` of a string made of parts of `n` bytes each. -/
theorem leAt_flatMap {α : Type} (f : α → List Byte) {n : Nat} (hf : ∀ a, (f a).length = n) (d : α) {l : List α} {i off k : Nat}
    (hi : i < l.length) (hk : off + k ≤ n) : leAt (l.flatMap f) (n * i + off) k = leAt (f (l.getD i d)) off k := by
  induction l generalizing i with
  | nil => simp at hi
  | cons a l ih =>
    rw [List.flatMap_cons]
    cases i with
    | zero => simpa using leAt_append_left (by rw [hf]; omega)
    | succ i =>
      rw [leAt_append_right (by rw [hf, Nat.mul_succ]; omega), hf, List.getD_cons_succ]
      have e : n * (i + 1) + off - n = n * i + off := by rw [Nat.mul_succ]; omega
      rw [e]
      exact ih (by simpa using hi)

theorem leAt_whole {l : List Byte} {n : Nat} (h : l.length = n) : leAt l 0 n = leNat l := by
  unfold leAt slice
  rw [List.drop_zero, List.take_of_length_le (by omega)]

end Sys2Proof.Machine
end

section
/-!
PROOF of O15 and O16 (chapter 11): words move over the switches, and the edge takes and sends units.
-/

namespace Sys2Proof.Machine

/-! ### A count that is skipped when nothing is to be counted -/

/-- The state after `k` was counted in parameter `n`, untouched when `k` is 0. -/
def State.counted (s : State) (n k : Nat) : State := if k = 0 then s else s.count n k

theorem counted_only (s : State) (g : Nat) {n : Nat} {ps : List Nat} (hn : n ∈ ps) (k : Nat) :
    s.Only (s.counted n k) g ps := by
  unfold State.counted
  split
  · exact (State.Only.refl s g).mono (fun _ h => by cases h)
  · exact only_putPar s g hn _

@[simp] theorem counted_gal (s : State) (n k g : Nat) : (s.counted n k).gal g = s.gal g := by
  unfold State.counted
  split <;> simp

theorem toNat_par_counted (s : State) (n k : Nat) :
    ((s.counted n k).par n).toNat = Min.min 0xFFFFFFFF ((s.par n).toNat + k) := by
  unfold State.counted
  split
  · next h => have := (s.par n).isLt; subst h; omega
  · exact toNat_count s n k

theorem par_counted_ne (s : State) {n m : Nat} (h : m ≠ n) (k : Nat) : (s.counted n k).par m = s.par m := by
  unfold State.counted
  split
  · rfl
  · exact State.par_count_ne s n m k h

/-- A change of a gallery turns on what it makes of the gallery as it stands. -/
theorem modGal_congr {s : State} {g : Nat} {f f' : Gallery → Gallery} (h : f (s.gal g) = f' (s.gal g)) :
    s.modGal g f = s.modGal g f' := by
  have e : ∀ f : Gallery → Gallery, s.modGal g f = { s with gals := tabSet Gallery.reset s.gals g (f (s.gal g)) } :=
    fun _ => rfl
  rw [e, e, h]

/-! ### The wires of the next cycle (Table 11.1) -/

theorem nextWire_neighbour (x : Gallery) {h d : Nat} (hh : h < 128) (hd : d < 4) :
    x.nextWire (4 * h + d) = x.nextNeighbour h d := by
  have e : (4 * h + d) / 4 = h := by omega
  have e' : (4 * h + d) % 4 = d := by omega
  rw [Gallery.nextWire, if_pos (by omega), e, e']

theorem nextWire_track (x : Gallery) {h n : Nat} (hh : h < 128) (hn : n < 4) :
    x.nextWire (512 + 4 * h + n) = x.nextTrack h n := by
  have e : (512 + 4 * h + n - 512) / 4 = h := by omega
  have e' : (512 + 4 * h + n - 512) % 4 = n := by omega
  rw [Gallery.nextWire, if_neg (by omega), if_pos (by omega), e, e']

theorem nextWire_rowJoint (x : Gallery) {r k j : Nat} (hr : r < 8) (hk : k < 8) (hj : j < 3) :
    x.nextWire (1024 + (r * 8 + k) * 3 + j) = x.nextRowJoint r k j := by
  have e : (1024 + (r * 8 + k) * 3 + j - 1024) / 24 = r := by omega
  have e' : (1024 + (r * 8 + k) * 3 + j - 1024) / 3 % 8 = k := by omega
  have e'' : (1024 + (r * 8 + k) * 3 + j - 1024) % 3 = j := by omega
  rw [Gallery.nextWire, if_neg (by omega), if_neg (by omega), if_pos (by omega), e, e', e'']

theorem nextWire_colJoint (x : Gallery) {c k : Nat} (hk : k < 8) :
    x.nextWire (1216 + c * 8 + k) = x.nextColJoint c k := by
  have e : (1216 + c * 8 + k - 1216) / 8 = c := by omega
  have e' : (1216 + c * 8 + k - 1216) % 8 = k := by omega
  rw [Gallery.nextWire, if_neg (by omega), if_neg (by omega), if_neg (by omega), e, e']

theorem nextRowJoint_eq (x : Gallery) (r k j : Nat) : x.nextRowJoint r k j =
    (let c := bits (x.routing ((4 * j + 3) * 8 + r)).rjoint (2 * k + 1) (2 * k)
     if c = 1 then x.rowSeg r k j else if c = 2 then x.rowSeg r k (j + 1) else none) := by
  unfold Gallery.nextRowJoint jointCode
  dsimp only
  split
  · next h => rw [if_pos h]
  · next h => rw [if_neg (by omega), if_pos h]
  · next h1 h2 => rw [if_neg h1, if_neg h2]

theorem nextColJoint_eq (x : Gallery) (c k : Nat) : x.nextColJoint c k =
    (let d := bits (x.routing (c * 8 + 3)).cjoint (2 * k + 1) (2 * k)
     if d = 1 then x.colSeg c k 0 else if d = 2 then x.colSeg c k 1 else none) := by
  unfold Gallery.nextColJoint jointCode
  dsimp only
  split
  · next h => rw [if_pos h]
  · next h => rw [if_neg (by omega), if_pos h]
  · next h1 h2 => rw [if_neg h1, if_neg h2]

theorem nextTrack_eq (x : Gallery) (h n : Nat) : x.nextTrack h n =
    (let v := (x.routing h).tsel.getD n 0
     if bitOf v 4 = false then none
     else if bits v 3 0 < 8 then x.rowSeg (h % 8) (bits v 3 0) (h / 32) else x.colSeg (h / 8) (bits v 3 0 - 8) (h % 8 / 4)) := by
  have e : h / 8 / 4 = h / 32 := by omega
  simp only [Gallery.nextTrack, e, Bool.not_eq_true']

theorem nextNeighbour_eq (x : Gallery) {h : Nat} (hh : h < 128) :
    x.nextNeighbour h 0 = (if h % 8 = 0 then none else x.neighbour (h - 1) (x.routing (h - 1)).ssel) ∧
    x.nextNeighbour h 1 = (if h / 8 = 15 then none else x.neighbour (h + 8) (x.routing (h + 8)).wsel) ∧
    x.nextNeighbour h 2 = (if h % 8 = 7 then none else x.neighbour (h + 1) (x.routing (h + 1)).nsel) ∧
    x.nextNeighbour h 3 = (if h / 8 = 0 then none else x.neighbour (h - 8) (x.routing (h - 8)).esel) := by
  refine ⟨?_, ?_, ?_, ?_⟩
  · by_cases c : h % 8 = 0
    · simp [Gallery.nextNeighbour, c]
    · simp [Gallery.nextNeighbour, c, Nat.pos_of_ne_zero c]
  · by_cases c : h / 8 = 15
    · simp [Gallery.nextNeighbour, c]
    · have : h / 8 < 15 := by omega
      simp [Gallery.nextNeighbour, c, this]
  · by_cases c : h % 8 = 7
    · simp [Gallery.nextNeighbour, c]
    · have : h % 8 < 7 := by omega
      simp [Gallery.nextNeighbour, c, this]
  · by_cases c : h / 8 = 0
    · simp [Gallery.nextNeighbour, c]
    · simp [Gallery.nextNeighbour, c, Nat.pos_of_ne_zero c]

/-! ### The edge lanes and the egress flows (R201, R234) -/

/-- What leaves on lane `r`: the word of its segment when it is not stale. -/
def Gallery.leaving (x : Gallery) (r : Nat) : Option TWord := (x.egressWord r).filter (fun w => decide (w.tag = x.active))

theorem egressLane_eq (x : Gallery) (r : Nat) : x.egressLane r = (x.leaving r).map (·.word) := by
  unfold Gallery.egressLane Gallery.leaving
  cases x.egressWord r with
  | none => rfl
  | some t => by_cases h : t.tag = x.active <;> simp [Option.filter, h]

theorem leaving_eq (x : Gallery) (r : Nat) :
    x.leaving r = (x.egressLane r).map (fun w => ({ word := w, tag := x.active } : TWord)) := by
  unfold Gallery.egressLane Gallery.leaving
  cases x.egressWord r with
  | none => rfl
  | some t =>
    by_cases h : t.tag = x.active
    · have ht : ({ word := t.word, tag := x.active } : TWord) = t := by rw [← h]
      simp [Option.filter, h, ht]
    · simp [Option.filter, h]

theorem stale_iff (x : Gallery) (r : Nat) :
    (match x.egressWord r with | some t => decide (t.tag ≠ x.active) | none => false) =
      ((x.egressWord r).isSome && (x.leaving r).isNone) := by
  unfold Gallery.leaving
  cases x.egressWord r with
  | none => rfl
  | some t => by_cases h : t.tag = x.active <;> simp [Option.filter, h]

/-- The words on the eight edge lanes. -/
def Gallery.lanes (x : Gallery) : List (Option Word) := (List.range 8).map x.egressLane

theorem lanes_getD (x : Gallery) {r : Nat} (hr : r < 8) : x.lanes.getD r none = x.egressLane r := by
  simp [Gallery.lanes, List.getD, hr]

/-- A fold that changes each key at most once, at its own turn. -/
theorem tabGet_foldl_step {α : Type} (d : α) (f : Tab α → Nat → Tab α)
    (hother : ∀ t e k, k ≠ e → tabGet d (f t e) k = tabGet d t k) (v : Nat → α → α)
    (hsame : ∀ t e, tabGet d (f t e) e = v e (tabGet d t e)) (t : Tab α) (n k : Nat) :
    tabGet d ((List.range n).foldl f t) k = if k < n then v k (tabGet d t k) else tabGet d t k := by
  induction n with
  | zero => simp
  | succ n ih =>
    rw [List.range_succ, List.foldl_append, List.foldl_cons, List.foldl_nil]
    by_cases hk : k = n
    · subst hk
      rw [hsame, ih, if_neg (Nat.lt_irrefl _), if_pos (Nat.lt_succ_self _)]
    · rw [hother _ _ _ hk, ih]
      simp only [show k < n + 1 ↔ k < n by omega]

/-- The units that the egress flows hold after they gathered from `lanes`. -/
def State.gathered (s : State) (g : Nat) (lanes : List (Option Word)) (t : Tab (List (List (Option Word)))) :
    Tab (List (List (Option Word))) :=
  (List.range 4).foldl (fun t e =>
    match egressUnit s g e lanes with
    | some u => tabMod [] t e (fun l => l ++ [u])
    | none => t) t

theorem tabGet_gathered (s : State) (g : Nat) (lanes : List (Option Word)) (t : Tab (List (List (Option Word)))) {e : Nat}
    (he : e < 4) : tabGet [] (s.gathered g lanes t) e = tabGet [] t e ++ (egressUnit s g e lanes).toList := by
  refine (tabGet_foldl_step [] _ ?_ (fun e l => l ++ (egressUnit s g e lanes).toList) ?_ t 4 e).trans (if_pos he)
  · intro t e k hk
    cases egressUnit s g e lanes with
    | none => rfl
    | some u => exact tabGet_tabMod_ne _ _ _ _ _ hk
  · intro t e
    cases egressUnit s g e lanes with
    | none => simp
    | some u => simp

theorem egressUnit_lanes (s : State) (g e : Nat) (x : Gallery) : (egressUnit s g e x.lanes).toList =
    (let u := (List.range 8).map (fun r => if s.egressOwns g e r then (x.leaving r).map (·.word) else none)
     if u.any (·.isSome) then [u] else []) := by
  have hu : (List.range 8).map (fun r => if s.egressOwns g e r then x.lanes.getD r none else none) =
      (List.range 8).map (fun r => if s.egressOwns g e r then (x.leaving r).map (·.word) else none) := by
    refine List.map_congr_left fun r hr => ?_
    rw [lanes_getD x (List.mem_range.1 hr), egressLane_eq]
  simp only [egressUnit, hu]
  split <;> rfl

/-- The words of GAL_EGRESS in force do not depend on the gallery's counts. -/
theorem egressCfg_of_only {s t : State} {g : Nat} {ps : List Nat} (h : s.Only t g ps) (hgal : t.gal g = s.gal g) {e : Nat}
    (hlow : galP g (0xB0 + 2 * e) ∉ ps) (hhigh : galP g (0xB1 + 2 * e) ∉ ps) : t.egressCfg g e = s.egressCfg g e := by
  simp only [State.egressCfg, State.egressSet, hgal, h.params _ hlow, h.params _ hhigh]

/-- The counts that one cycle of word movement may move: collisions, stale words and words without an owner. -/
def movedCounts (g : Nat) : List Nat := [galP g 0x80, galP g 0x81, galP g 0x82]

theorem not_mem_movedCounts (g : Nat) {k : Nat} (h : 0xB0 ≤ k) : galP g k ∉ movedCounts g := by
  have h0 : galP g k ≠ galP g 0x80 := galP_ne (by omega)
  have h1 : galP g k ≠ galP g 0x81 := galP_ne (by omega)
  have h2 : galP g k ≠ galP g 0x82 := galP_ne (by omega)
  simp [movedCounts, h0, h1, h2]

/-- Words that leave and that no flow owns. -/
def State.unowned (s : State) (g : Nat) : Nat :=
  countBelow 8 (fun r => ((s.gal g).leaving r).isSome && !(List.range 4).any (fun e => s.egressOwns g e r))

/-- Words that do not leave because they are stale (R201). -/
def Gallery.staleLanes (x : Gallery) : Nat := countBelow 8 (fun r => (x.egressWord r).isSome && (x.leaving r).isNone)

/-- The counts of one cycle of word movement. -/
def State.movedCounted (s : State) (g : Nat) : State :=
  ((s.counted (galP g 0x80) (s.gal g).collisions).counted (galP g 0x81) (s.gal g).staleLanes).counted (galP g 0x82) (s.unowned g)

theorem movedCounted_only (s : State) (g : Nat) : s.Only (s.movedCounted g) g (movedCounts g) :=
  ((counted_only s g (by simp [movedCounts]) _).trans (counted_only _ g (by simp [movedCounts]) _)).trans
    (counted_only _ g (by simp [movedCounts]) _)

theorem movedCounted_gal (s : State) (g k : Nat) : (s.movedCounted g).gal k = s.gal k := by simp [State.movedCounted]

theorem movedCounted_egressCfg (s : State) (g e : Nat) : (s.movedCounted g).egressCfg g e = s.egressCfg g e :=
  egressCfg_of_only (movedCounted_only s g) (movedCounted_gal s g g) (not_mem_movedCounts g (by omega))
    (not_mem_movedCounts g (by omega))

theorem egressUnit_congr {s t : State} {g e : Nat} (h : t.egressCfg g e = s.egressCfg g e) (lanes : List (Option Word)) :
    egressUnit t g e lanes = egressUnit s g e lanes := by
  have howns : t.egressOwns g e = s.egressOwns g e := funext fun r => by simp only [State.egressOwns, State.egressOn, h]
  simp only [egressUnit, howns]

/-- The gallery after its words have moved for one cycle. -/
def State.wordsMoved (s : State) (g : Nat) : Gallery :=
  let x := s.gal g
  { x with
    nextWires := tabBlock none [] 0 1344 x.nextWire
    edgeOut := tabBlock none [] 0 8 (fun r => (x.lanes.getD r none).map (fun w => { word := w, tag := x.active }))
    egress := s.gathered g x.lanes x.egress
    egressNow := tabBlock none [] 0 4 (fun e => some (s.egressCfg g e)) }

/-- An enabled cycle of word movement counts and moves. -/
theorem exec_trackWord {s : State} {g : Nat} (hlive : s.live g = true) :
    exec (.trackWord g) s = .next ((s.movedCounted g).modGal g (fun _ => s.wordsMoved g)) := by
  have hstale : countBelow 8 (fun r => match (s.gal g).egressWord r with
      | some t => decide (t.tag ≠ (s.gal g).active) | none => false) = (s.gal g).staleLanes := by
    simp only [Gallery.staleLanes, ← stale_iff] <;> rfl
  have hunowned : countBelow 8 (fun r => ((s.gal g).lanes.getD r none).isSome &&
      !(List.range 4).any (fun e => s.egressOwns g e r)) = s.unowned g := by
    unfold State.unowned countBelow
    congr 1
    refine List.filter_congr fun r hr => ?_
    rw [lanes_getD _ (List.mem_range.1 hr), egressLane_eq, Option.isSome_map]
  have hcfg := movedCounted_egressCfg s g
  have hgathered : (s.movedCounted g).gathered g (s.gal g).lanes (s.gal g).egress =
      s.gathered g (s.gal g).lanes (s.gal g).egress := by
    simp only [State.gathered, egressUnit_congr (hcfg _)]
  have hexec : exec (.trackWord g) s = .next (if !s.live g then s else
      let c := ((s.counted (galP g 0x80) (s.gal g).collisions).counted (galP g 0x81) (countBelow 8 (fun r =>
        match (s.gal g).egressWord r with
        | some t => decide (t.tag ≠ (s.gal g).active) | none => false))).counted (galP g 0x82)
          (countBelow 8 (fun r => ((s.gal g).lanes.getD r none).isSome && !(List.range 4).any (fun e => s.egressOwns g e r)))
      c.modGal g (fun y => { y with
        nextWires := tabBlock none [] 0 1344 (s.gal g).nextWire
        edgeOut := tabBlock none [] 0 8 (fun r =>
          ((s.gal g).lanes.getD r none).map (fun w => { word := w, tag := (s.gal g).active }))
        egress := c.gathered g (s.gal g).lanes y.egress
        egressNow := tabBlock none [] 0 4 (fun e => some (c.egressCfg g e)) })) := rfl
  rw [hexec, hlive, hunowned, hstale]
  refine congrArg Host.Outcome.next (modGal_congr (s := s.movedCounted g) ?_)
  simp only [movedCounted_gal, State.wordsMoved, ← hgathered, ← hcfg] <;> rfl

theorem tabGet_wordsMoved_wire (s : State) (g : Nat) {n : Nat} (hn : n < 1344) :
    tabGet none (s.wordsMoved g).nextWires n = (s.gal g).nextWire n := by
  simp only [State.wordsMoved, tabGet_tabBlock, Nat.sub_zero]
  exact if_pos (by omega)

theorem tabGet_wordsMoved_edgeOut (s : State) (g : Nat) {r : Nat} (hr : r < 8) :
    tabGet none (s.wordsMoved g).edgeOut r = (s.gal g).leaving r := by
  simp only [State.wordsMoved, tabGet_tabBlock, Nat.sub_zero]
  rw [if_pos (by omega), lanes_getD _ hr, leaving_eq]

/-- Settles O15: an enabled cycle is `wordsMoved`, whose tables are read key by key. -/
theorem wordsMoveOverTheSwitches : Obligations.WordsMoveOverTheSwitches := by
  intro s g x lane leaves owned
  refine ⟨fun hlive => ?_, fun hlive => ⟨_, exec_trackWord hlive, ?_, ?_, fun h hh => ?_, fun r hr k hk j hj => ?_,
    fun c hc k hk => ?_, fun r hr => ?_, fun e he => ?_, ?_, ?_, ?_⟩⟩
  · simp [exec, execTrackWord, hlive]
  · exact (movedCounted_only s g).trans (only_modGal ..)
  · simp [State.wordsMoved, x]
  · simp only [State.gal_modGal_same]
    obtain ⟨h0, h1, h2, h3⟩ := nextNeighbour_eq x hh
    refine ⟨?_, ?_, ?_, ?_, fun n hn => ?_⟩
    · rw [tabGet_wordsMoved_wire s g (by omega), nextWire_neighbour _ hh (by omega)]; exact h0
    · rw [tabGet_wordsMoved_wire s g (by omega), nextWire_neighbour _ hh (by omega)]; exact h1
    · rw [tabGet_wordsMoved_wire s g (by omega), nextWire_neighbour _ hh (by omega)]; exact h2
    · rw [tabGet_wordsMoved_wire s g (by omega), nextWire_neighbour _ hh (by omega)]; exact h3
    · rw [tabGet_wordsMoved_wire s g (by omega), nextWire_track _ hh hn]; exact nextTrack_eq x h n
  · rw [State.gal_modGal_same, tabGet_wordsMoved_wire s g (by omega), nextWire_rowJoint _ hr hk hj]
    exact nextRowJoint_eq x r k j
  · rw [State.gal_modGal_same, tabGet_wordsMoved_wire s g (by omega), nextWire_colJoint _ hk]
    exact nextColJoint_eq x c k
  · rw [State.gal_modGal_same, tabGet_wordsMoved_edgeOut s g hr]; rfl
  · rw [State.gal_modGal_same]
    refine ⟨?_, ?_⟩
    · simp only [State.wordsMoved, tabGet_tabBlock, Nat.sub_zero]
      exact if_pos (by omega)
    · refine (tabGet_gathered s g _ _ he).trans ?_
      rw [egressUnit_lanes]; rfl
  · rw [State.par_modGal, State.movedCounted, par_counted_ne _ (galP_ne (by omega)), par_counted_ne _ (galP_ne (by omega)),
      toNat_par_counted]
  · rw [State.par_modGal, State.movedCounted, par_counted_ne _ (galP_ne (by omega)), toNat_par_counted,
      par_counted_ne _ (galP_ne (by omega))]
    rfl
  · rw [State.par_modGal, State.movedCounted, toNat_par_counted, par_counted_ne _ (galP_ne (by omega)),
      par_counted_ne _ (galP_ne (by omega))]
    rfl

/-! ### A unit enters the edge (R198, R199) -/

/-- `t` is `s` after unit `u` has entered the edge lanes of gallery `g`, which is `y` otherwise. -/
def State.Entered (s t : State) (g : Nat) (u : List (Option Word)) (y : Gallery) : Prop :=
  s.Only t g [galP g 0x82] ∧ t.gal g = { y with edgeBusy := true, edgeIn := (t.gal g).edgeIn } ∧
  (∀ r < 8, tabGet none (t.gal g).edgeIn r = if bitOf ((s.gal g).routing r).edge 3 then u.getD r none else none) ∧
  (t.par (galP g 0x82)).toNat = Min.min 0xFFFFFFFF ((s.par (galP g 0x82)).toNat +
    ((List.range 8).filter (fun r => (u.getD r none).isSome && !bitOf ((s.gal g).routing r).edge 3)).length)

/-- A unit enters a gallery that has just given it up from a queue. -/
theorem enterEdge_entered (s : State) (g : Nat) (u : List (Option Word)) (f : Gallery → Gallery)
    (hrouting : (f (s.gal g)).routing = (s.gal g).routing) : s.Entered (enterEdge g u (s.modGal g f)) g u (f (s.gal g)) := by
  have hlanes : enterEdge g u (s.modGal g f) = ((s.modGal g f).counted (galP g 0x82)
      (countBelow 8 (fun r => (u.getD r none).isSome && !bitOf ((s.gal g).routing r).edge 3))).modGal g (fun y => { y with
        edgeBusy := true
        edgeIn := tabBlock none [] 0 8 (fun r => if bitOf ((s.gal g).routing r).edge 3 then u.getD r none else none) }) := by
    rw [← hrouting, ← State.gal_modGal_same s g f]
    rfl
  rw [hlanes]
  refine ⟨((only_modGal s g f _).trans (counted_only _ g (by simp) _)).trans (only_modGal ..), by simp, fun r hr => ?_, ?_⟩
  · rw [State.gal_modGal_same]
    simp only [tabGet_tabBlock, Nat.sub_zero]
    exact if_pos (by omega)
  · rw [State.par_modGal, toNat_par_counted, State.par_modGal]
    rfl

theorem live_modGal (s : State) (g k : Nat) (f : Gallery → Gallery) (hresume : (f (s.gal g)).mem = (s.gal g).mem) :
    (s.modGal g f).live k = s.live k := rfl

theorem exec_edgeIngress {s : State} {g : Nat} {u : List (Option Word)} {l : List (List (Option Word))}
    (hq : (s.gal g).edgeQ = u :: l) : exec (.edgeIngress g) s = .next (
      let t := s.modGal g (fun y => { y with edgeQ := l })
      if s.live g && (s.gal g).ingress.isEmpty && !(s.gal g).edgeBusy then enterEdge g u t
      else if (s.gal g).ingress.length < 32 then t.modGal g (fun y => { y with ingress := y.ingress ++ [u] })
      else t.count (galP g 0x82) (u.filter (·.isSome)).length) := by
  simp only [exec, execEdgeIngress, hq] <;> rfl

theorem exec_edgeIngress_waits {s : State} {g : Nat} {u : List (Option Word)} {l : List (List (Option Word))}
    (hq : (s.gal g).edgeQ = u :: l) (hwait : s.live g = false ∨ (s.gal g).ingress ≠ [] ∨ (s.gal g).edgeBusy = true) :
    exec (.edgeIngress g) s = .next (
      let t := s.modGal g (fun y => { y with edgeQ := l })
      if (s.gal g).ingress.length < 32 then t.modGal g (fun y => { y with ingress := y.ingress ++ [u] })
      else t.count (galP g 0x82) (u.filter (·.isSome)).length) := by
  have hno : (s.live g && (s.gal g).ingress.isEmpty && !(s.gal g).edgeBusy) = false := by
    obtain h | h | h := hwait <;> simp [h]
  rw [exec_edgeIngress hq, hno]
  rfl

theorem gal_present (p : Packet) (s : State) (g : Nat) : (present p s).gal g = s.gal g := rfl

/-! ### An egress packet closes (R234, R322) -/

/-- The packet that carries `now` to where the words of GAL_EGRESS in force say. -/
def State.egressPacket (s : State) (g e : Nat) (now : List (List (Option Word))) : Packet :=
  let c := (s.egressCfg g e).1
  let d := (s.egressCfg g e).2
  sourced s (.gal g) { unitsPacket now with
    dx := fld d 2 0, dy := fld d 5 3, dport := fld d 6 6, dcard := fld d 10 7, gt := c.getLsbD 13,
    flow := fld c 20 14, addr := streamAddr (fld d 2 0) (fld d 5 3) (fld d 6 6) }

theorem getLsbD_unitsPacket {l : List (List (Option Word))} (hl : l.length ≤ 16) {i : Nat} (hi : i < 8 * l.length) :
    (unitsPacket l).valid.getLsbD i = ((l.getD (i / 8) []).getD (i % 8) none).isSome := by
  simp only [unitsPacket, BitVec.getLsbD_ofNat, testBit_maskOf _ _ hi, Bool.and_eq_right_iff_imp, decide_eq_true_eq]
  intro
  omega

theorem leAt_unitsPacket {l : List (List (Option Word))} {i : Nat} (hi : i < 8 * l.length) :
    leAt (unitsPacket l).data (4 * i) 4 = (((l.getD (i / 8) []).getD (i % 8) none).getD 0).toNat := by
  have hword : ∀ (u : List (Option Word)) (j : Nat), (leBytes 4 ((u.getD j none).getD 0).toNat).length = 4 := by simp
  have hunit : ∀ u : List (Option Word),
      ((List.range 8).flatMap (fun j => leBytes 4 ((u.getD j none).getD 0).toNat)).length = 32 := by simp [List.range_succ]
  have hplace : 4 * i = 32 * (i / 8) + 4 * (i % 8) := by omega
  simp only [unitsPacket]
  rw [hplace, leAt_flatMap _ hunit [] (by omega) (by omega)]
  have h := leAt_flatMap (fun j => leBytes 4 (((l.getD (i / 8) []).getD j none).getD 0).toNat) (hword _) 0
    (l := List.range 8) (i := i % 8) (off := 0) (k := 4) (by simp; omega) (by omega)
  rw [Nat.add_zero] at h
  rw [h, leAt_whole (by simp), leNat_leBytes, Nat.mod_eq_of_lt (a := BitVec.toNat _) (b := 256 ^ 4) (BitVec.isLt _)]
  congr
  simp [List.getD, Nat.mod_lt]

theorem galNode_eq (g : Nat) : 6 * nodeY (Target.gal g).place.1 + nodeX (Target.gal g).place.1 = 6 * (g / 4) + g % 4 + 1 := by
  simp only [nodeX, nodeY, Target.place, galNode]
  omega

/-- Some lane of the flow's mask carries a word in this cycle. -/
def State.egressMore (s : State) (g e : Nat) : Bool :=
  s.egressOn g e && (List.range 8).any (fun r => (s.egressCfg g e).1.getLsbD r && (tabGet none (s.gal g).edgeOut r).isSome)

theorem isSome_egressUnit (s : State) (g e : Nat) :
    (egressUnit s g e ((List.range 8).map (fun r => (tabGet none (s.gal g).edgeOut r).map (·.word)))).isSome =
      s.egressMore g e := by
  have hlane : ∀ r < 8, ((List.range 8).map (fun r => (tabGet none (s.gal g).edgeOut r).map (·.word))).getD r none =
      (tabGet none (s.gal g).edgeOut r).map (·.word) := fun r hr => by simp [List.getD, hr]
  have hsome : ∀ l : List (Option Word), (egressUnit s g e l).isSome =
      (List.range 8).any (fun r => s.egressOwns g e r && (l.getD r none).isSome) := by
    intro l
    have hany : ∀ u : List (Option Word), (if u.any (·.isSome) then some u else none).isSome = u.any (·.isSome) := by
      intro u
      cases hu : u.any (·.isSome) <;> rfl
    simp only [egressUnit, hany]
    rw [List.any_map]
    refine congrArg (List.any (List.range 8)) (funext fun r => ?_)
    by_cases h : s.egressOwns g e r = true <;> simp [h]
  rw [hsome, Bool.eq_iff_iff]
  simp only [State.egressMore, List.any_eq_true, Bool.and_eq_true, List.mem_range, State.egressOwns]
  constructor
  · rintro ⟨r, hr, ⟨hon, hown⟩, hword⟩
    rw [hlane r hr, Option.isSome_map] at hword
    exact ⟨hon, r, hr, hown, hword⟩
  · rintro ⟨hon, r, hr, hown, hword⟩
    refine ⟨r, hr, ⟨hon, hown⟩, ?_⟩
    rwa [hlane r hr, Option.isSome_map]

theorem exec_egressPacketClose (s : State) (g e : Nat) : exec (.egressPacketClose g e) s = .next (
    let l := tabGet [] (s.gal g).egress e
    let units := fld (s.egressCfg g e).1 12 8
    let now := l.take (max 1 (min 16 units))
    if l.isEmpty || (decide (l.length < units) && s.egressMore g e) then s
    else present (s.egressPacket g e now) (s.modGal g (fun y => { y with
      egress := tabSet [] y.egress e (l.drop now.length)
      egressNow := tabSet none y.egressNow e (some (s.egressSet g e)) }))) := by
  rw [← isSome_egressUnit]
  rfl

/-- A packet closes with the units that stand first. -/
theorem egressPacket_fields (s : State) (g e : Nat) (now : List (List (Option Word))) :
    let p := s.egressPacket g e now
    let c := (s.egressCfg g e).1
    let d := (s.egressCfg g e).2
    p.cmd = 0 ∧ p.len = now.length ∧ p.dx = fld d 2 0 ∧ p.dy = fld d 5 3 ∧ p.dport = fld d 6 6 ∧ p.dcard = fld d 10 7 ∧
      p.gt = c.getLsbD 13 ∧ p.flow = fld c 20 14 ∧ 6 * p.sy + p.sx = 6 * (g / 4) + g % 4 + 1 ∧ p.sport = 0 ∧
      p.scard = s.card :=
  ⟨rfl, rfl, rfl, rfl, rfl, rfl, rfl, rfl, galNode_eq g, rfl, rfl⟩

/-- Settles the first half of O16: a unit enters, waits or is lost. -/
theorem edge_takes_units (s : State) (g : Nat) (u : List (Option Word)) (l : List (List (Option Word))) :
    ((s.gal g).edgeQ = u :: l →
      (s.live g = true → (s.gal g).ingress = [] → (s.gal g).edgeBusy = false → ∃ t, exec (.edgeIngress g) s = .next t ∧
        s.Entered t g u { s.gal g with edgeQ := l }) ∧
      ((s.live g = false ∨ (s.gal g).ingress ≠ [] ∨ (s.gal g).edgeBusy = true) →
        ((s.gal g).ingress.length < 32 → ∃ t, exec (.edgeIngress g) s = .next t ∧ s.Only t g [] ∧
          t.gal g = { s.gal g with edgeQ := l, ingress := (s.gal g).ingress ++ [u] }) ∧
        (32 ≤ (s.gal g).ingress.length → ∃ t, exec (.edgeIngress g) s = .next t ∧ s.Only t g [galP g 0x82] ∧
          t.gal g = { s.gal g with edgeQ := l } ∧ (t.par (galP g 0x82)).toNat =
            Min.min 0xFFFFFFFF ((s.par (galP g 0x82)).toNat + (u.filter (·.isSome)).length)))) ∧
    ((s.gal g).ingress = u :: l → s.live g = true → (s.gal g).edgeBusy = false →
      ∃ t, exec (.ingressBufferRelease g) s = .next t ∧ s.Entered t g u { s.gal g with ingress := l }) ∧
    (((s.gal g).ingress = [] ∨ s.live g = false ∨ (s.gal g).edgeBusy = true) →
      exec (.ingressBufferRelease g) s = .next s) := by
  refine ⟨fun hq => ⟨fun hlive hin hbusy => ?_, fun hwait => ⟨fun hroom => ?_, fun hfull => ?_⟩⟩,
    fun hin hlive hbusy => ?_, fun hidle => ?_⟩
  · refine ⟨_, exec_edgeIngress hq, ?_⟩
    rw [hlive, hin, hbusy]
    exact enterEdge_entered s g u (fun y => { y with edgeQ := l }) rfl
  · refine ⟨_, exec_edgeIngress_waits hq hwait, ?_⟩
    simp only [if_pos hroom]
    exact ⟨(only_modGal s g _ _).trans (only_modGal ..), by simp⟩
  · refine ⟨_, exec_edgeIngress_waits hq hwait, ?_⟩
    simp only [if_neg (Nat.not_lt.2 hfull)]
    refine ⟨(only_modGal s g _ _).trans (only_putPar _ g (by simp) _), by simp, ?_⟩
    rw [toNat_count, State.par_modGal]
  · have hexec : exec (.ingressBufferRelease g) s =
        .next (enterEdge g u (s.modGal g (fun y => { y with ingress := l }))) := by
      simp [exec, execIngressBufferRelease, hin, hlive, hbusy]
    exact ⟨_, hexec, enterEdge_entered s g u (fun y => { y with ingress := l }) rfl⟩
  · simp only [exec, execIngressBufferRelease]
    cases hin : (s.gal g).ingress with
    | nil => rfl
    | cons u l =>
      have hno : (s.live g && !(s.gal g).edgeBusy) = false := by
        obtain h | h | h := hidle
        · simp [hin] at h
        · simp [h]
        · simp [h]
      simp [hno]

/-- Settles O16: a unit enters or waits (`edge_takes_units`), and a packet closes with the fields of `egressPacket`. -/
theorem edgesTakeAndSendUnits : Obligations.EdgesTakeAndSendUnits := by
  refine ⟨edge_takes_units, ?_⟩
  intro s g e x l c d n more now he hl
  have hl' : l.isEmpty = false := by simpa using hl
  refine ⟨fun hn hmore => ?_, fun hclose => ?_⟩
  · have hstay : (l.isEmpty || (decide (l.length < n) && s.egressMore g e)) = true := by
      rw [show s.egressMore g e = true from hmore, hl', decide_eq_true hn]
      rfl
    exact (exec_egressPacketClose s g e).trans (congrArg Host.Outcome.next (if_pos hstay))
  · have hgo : (l.isEmpty || (decide (l.length < n) && s.egressMore g e)) = false := by
      obtain h | h := hclose
      · simp [hl', Nat.not_lt.2 h]
      · simp [hl', show s.egressMore g e = false from h]
    have hnow : now.length ≤ 16 := by simp [now]
    refine ⟨_, s.egressPacket g e now,
      (exec_egressPacketClose s g e).trans (congrArg Host.Outcome.next (if_neg (Bool.eq_false_iff.1 hgo))), rfl,
      fun k hk => (gal_present ..).trans (State.gal_modGal_ne _ _ _ _ hk),
      (gal_present ..).trans (State.gal_modGal_same ..), ?_⟩
    obtain ⟨hcmd, hlen, hdx, hdy, hdport, hdcard, hgt, hflow, hsrc, hsport, hscard⟩ := egressPacket_fields s g e now
    exact ⟨hcmd, hlen, hdx, hdy, hdport, hdcard, hgt, hflow, hsrc, hsport, hscard,
      fun i hi => getLsbD_unitsPacket hnow hi, fun i hi => leAt_unitsPacket hi⟩

end Sys2Proof.Machine
end

section
/-!
PROOF of O18 (chapter 13): a router sends the first packet of its stream.  A packet on its way counts its units along its
path (`countPath`), and the links of the path may hit it (`crossLinks`).
-/

namespace Sys2Proof.Machine

/-! ### The counts of a path (Table 18.6) -/

theorem pathFrom_dir (k x y dx dy : Nat) : ∀ o ∈ pathFrom k x y dx dy, o.2 < 4 := by
  induction k generalizing x y with
  | zero => simp [pathFrom]
  | succ k ih =>
    intro o ho
    rw [pathFrom] at ho
    have hstep : ∀ {a : Nat × Nat} {x' y' : Nat}, a.2 < 4 → o ∈ a :: pathFrom k x' y' dx dy → o.2 < 4 := by
      intro a x' y' ha hmem
      obtain rfl | hmem := List.mem_cons.1 hmem
      · exact ha
      · exact ih x' y' o hmem
    split at ho
    · exact hstep (by simp) ho
    · split at ho
      · exact hstep (by simp) ho
      · split at ho
        · exact hstep (by simp) ho
        · split at ho
          · exact hstep (by simp) ho
          · cases ho

theorem meshPath_dir (x y dx dy : Nat) : ∀ o ∈ meshPath x y dx dy, o.2 < 4 := pathFrom_dir 9 x y dx dy

/-- One output of a path counts the units of a packet. -/
def countOutput (p : Packet) (s : State) (o : Nat × Nat) : State :=
  let s := s.tally (0x3300 + 4 * o.1 + o.2) (unitsOf p)
  if p.gt then s.tally (0x3380 + 4 * o.1 + o.2) (unitsOf p) else s

theorem countPath_nil (p : Packet) (s : State) : countPath [] p s = s := rfl

theorem countPath_cons (o : Nat × Nat) (path : List (Nat × Nat)) (p : Packet) (s : State) :
    countPath (o :: path) p s = countPath path p (countOutput p s o) := rfl

theorem countOutput_rest (p : Packet) (s : State) (o : Nat × Nat) :
    countOutput p s o = { s with params := (countOutput p s o).params } := by
  unfold countOutput
  cases p.gt <;> rfl

/-- Counting along a path changes parameters only. -/
theorem countPath_rest (path : List (Nat × Nat)) (p : Packet) (s : State) :
    countPath path p s = { s with params := (countPath path p s).params } := by
  induction path generalizing s with
  | nil => rfl
  | cons o path ih =>
    rw [countPath_cons, ih, countOutput_rest]

theorem par_countOutput_low (p : Packet) (s : State) (o : Nat × Nat) {n : Nat} (h : n < 0x3300) :
    (countOutput p s o).par n = s.par n := by
  unfold countOutput
  cases p.gt
  · exact State.par_tally_ne _ _ _ _ (by omega)
  · exact (State.par_tally_ne _ _ _ _ (by omega)).trans (State.par_tally_ne _ _ _ _ (by omega))

/-- The counts of a path stand behind every other parameter of the mesh. -/
theorem par_countPath_low (path : List (Nat × Nat)) (p : Packet) (s : State) {n : Nat} (h : n < 0x3300) :
    (countPath path p s).par n = s.par n := by
  induction path generalizing s with
  | nil => rfl
  | cons o path ih => rw [countPath_cons, ih, par_countOutput_low p s o h]

theorem par_countOutput (p : Packet) (s : State) {o : Nat × Nat} (ho : o.2 < 4) {n d : Nat} (hn : n < 29) (hd : d < 4) :
    (countOutput p s o).par (0x3300 + 4 * n + d) =
      s.par (0x3300 + 4 * n + d) + wd (if o = (n, d) then unitsOf p else 0) := by
  have hgt : ∀ u : State, (if p.gt then u.tally (0x3380 + 4 * o.1 + o.2) (unitsOf p) else u).par (0x3300 + 4 * n + d) =
      u.par (0x3300 + 4 * n + d) := by
    intro u
    cases p.gt
    · rfl
    · exact State.par_tally_ne _ _ _ _ (by omega)
  refine (hgt _).trans ?_
  by_cases h : o = (n, d)
  · subst h
    rw [State.par_tally_same, if_pos rfl]
  · have hne : 0x3300 + 4 * n + d ≠ 0x3300 + 4 * o.1 + o.2 := fun he => h (by
      obtain ⟨a, b⟩ := o
      simp only at ho he
      exact Prod.ext (by simp only; omega) (by simp only; omega))
    rw [State.par_tally_ne _ _ _ _ hne, if_neg h]
    simp [wd]

/-- Every output of the path counts the units of the packet, as often as the path has it. -/
theorem par_countPath (p : Packet) {n d : Nat} (hn : n < 29) (hd : d < 4) (path : List (Nat × Nat))
    (hdir : ∀ o ∈ path, o.2 < 4) (s : State) : (countPath path p s).par (0x3300 + 4 * n + d) =
      s.par (0x3300 + 4 * n + d) + wd (unitsOf p * path.count (n, d)) := by
  induction path generalizing s with
  | nil => simp [countPath_nil, wd]
  | cons o path ih =>
    rw [countPath_cons, ih (fun o' ho' => hdir o' (List.mem_cons_of_mem _ ho')),
      par_countOutput p s (hdir o List.mem_cons_self) hn hd, BitVec.add_assoc]
    congr 1
    have hcount : (o :: path).count (n, d) = path.count (n, d) + if o = (n, d) then 1 else 0 := by
      rw [List.count_cons]
      simp
    rw [hcount, Nat.mul_add, wd, wd, wd, ← BitVec.ofNat_add, Nat.add_comm]
    split <;> simp

/-! ### On its way (R227, R232, R237) -/

theorem entry_own {s : State} {p : Packet} (h : p.scard = s.card) : s.entry p = p := by
  simp [State.entry, State.isOwn, h]

/-- Whether a packet of a GT flow finds no window of its flow left in this slot frame. -/
def State.isLate (s : State) (q : Packet) : Bool := decide ((s.flowWindows q.flow).length ≤ s.flowWaiting q.flow)

/-- A packet joins those on their way: in flight, or waiting for its window. -/
def setOut (q : Packet) (s : State) : State :=
  let f : Flying := { pkt := q, since := s.clk.cyc, late := !q.gt || s.isLate q }
  if q.gt then { s with mesh := { s.mesh with gtWait := s.mesh.gtWait ++ [f] } }
  else { s with mesh := { s.mesh with flight := s.mesh.flight ++ [f] } }

/-- A packet that crosses its links is on its way. -/
theorem sendOn_crosses {err : LinkError} {p q r : Packet} {to' : Nat × Nat} {s t u : State} (hdemote : demote p s = (q, t))
    (hcross : crossLinks err (meshPath (t.entry q).sx (t.entry q).sy to'.1 to'.2) q t = (some r, u)) :
    sendOn err p to' s = setOut r (noteCommit r u) := by
  simp only [sendOn, hdemote, hcross]
  rfl

/-- `t` is `s` after the packet at place `k` of those presented, counted along the path of `p`, joined the mesh as `q`. -/
def State.Joins (s : State) (k : Nat) (p : Packet) (t : State) (q : Packet) (gt : Bool) : Prop :=
  t = { s with gals := t.gals, params := t.params, mesh := { (s.unready k).mesh with
    flight := if gt then s.mesh.flight else s.mesh.flight ++ [{ pkt := q, since := s.clk.cyc, late := true }]
    gtWait := if gt then s.mesh.gtWait ++ [{ pkt := q, since := s.clk.cyc, late := s.isLate q }] else s.mesh.gtWait } } ∧
  ∀ n < 29, ∀ d < 4, t.par (0x3300 + 4 * n + d) =
    s.par (0x3300 + 4 * n + d) + wd (unitsOf p * (meshPath p.sx p.sy p.dx p.dy).count (n, d))

theorem setOut_be {q : Packet} (h : q.gt = false) (s : State) : setOut q s =
    { s with mesh := { s.mesh with flight := s.mesh.flight ++ [{ pkt := q, since := s.clk.cyc, late := true }] } } := by
  simp [setOut, h]

theorem setOut_gt {q : Packet} (h : q.gt = true) (s : State) : setOut q s =
    { s with mesh := { s.mesh with gtWait := s.mesh.gtWait ++ [{ pkt := q, since := s.clk.cyc, late := s.isLate q }] } } := by
  simp [setOut, h]

theorem par_setOut (q : Packet) (s : State) (n : Nat) : (setOut q s).par n = s.par n := by
  unfold setOut
  dsimp only
  split <;> rfl

theorem par_noteCommit (q : Packet) (s : State) (n : Nat) : (noteCommit q s).par n = s.par n := by
  rw [noteCommit_rest]
  rfl

/-- Whether a packet is late does not depend on the counts. -/
theorem isLate_congr {s t : State} {q : Packet} (hwindows : t.par (flowP q.flow 1) = s.par (flowP q.flow 1))
    (hmesh : t.mesh.gtWait = s.mesh.gtWait) : t.isLate q = s.isLate q := by
  have hw : t.flowWindows q.flow = s.flowWindows q.flow := by simp only [State.flowWindows, hwindows]
  have hn : t.flowWaiting q.flow = s.flowWaiting q.flow := by simp only [State.flowWaiting, hmesh]
  simp only [State.isLate, hw, hn]

/-- A packet whose counts are made joins the mesh. -/
theorem setOut_joins {s u : State} {k : Nat} {p q : Packet} (hrest : u = { s.unready k with params := u.params })
    (hwindows : q.gt = true → u.par (flowP q.flow 1) = s.par (flowP q.flow 1))
    (hcount : ∀ n < 29, ∀ d < 4, u.par (0x3300 + 4 * n + d) =
      s.par (0x3300 + 4 * n + d) + wd (unitsOf p * (meshPath p.sx p.sy p.dx p.dy).count (n, d))) :
    s.Joins k p (setOut q (noteCommit q u)) q q.gt := by
  have hnote : noteCommit q u = { s.unready k with gals := (noteCommit q u).gals, params := u.params } := by
    rw [noteCommit_rest, hrest]
  refine ⟨?_, fun n hn d hd => by rw [par_setOut, par_noteCommit, hcount n hn d hd]⟩
  have hlate : q.gt = true → (noteCommit q u).isLate q = s.isLate q := fun h =>
    isLate_congr (by rw [par_noteCommit, hwindows h]) (by rw [hnote]; rfl)
  cases h : q.gt
  · rw [setOut_be h, hnote]
    rfl
  · rw [setOut_gt h, hlate h, hnote]
    rfl

theorem demote_be {p : Packet} (h : p.gt = false) (s : State) : demote p s = (p, s) := by simp [demote, h]

theorem demote_conforming {s : State} {p : Packet} (hcard : p.dcard = s.card) (h : s.conforms p = true) :
    demote p s = (p, s) := by
  simp [demote, hcard, h]

theorem demote_not_conforming {s : State} {p : Packet} (hgt : p.gt = true) (h : s.conforms p = false) :
    demote p s = ({ p with gt := false }, s.count 0x3026 1) := by
  simp [demote, hgt, h]

/-- A packet of this card to a living unit of this card, presented first of its stream, is sent on. -/
theorem routePacket_sends {s : State} {p : Packet} (err : LinkError) (hcard : p.dcard = s.card)
    (halive : s.deadAt p.sx p.sy p.sport = false) (hcmd : p.cmd ≠ 7) (hx : p.dx ≤ 5) (hy : p.dy ≤ 4) :
    routePacket err p s = sendOn err p (p.dx, p.dy) s := by
  simp [routePacket, halive, hcmd, hcard, Nat.not_lt.2 hx, Nat.not_lt.2 hy]

/-- A packet of this card to this card, as it is routed: `q` after its demotion, `r` after its links. -/
theorem sendOn_joins {s t u : State} {k : Nat} {p q r : Packet} {err : LinkError} (hown : p.scard = s.card)
    (hdemote : demote p (s.unready k) = (q, t)) (hq : q = p ∨ q = { p with gt := false })
    (ht : t = { s.unready k with params := t.params }) (htpar : ∀ n, n ≠ 0x3026 → t.par n = s.par n)
    (hcross : crossLinks err (meshPath p.sx p.sy p.dx p.dy) q t = (some r, u))
    (hu : u = { t with params := u.params })
    (hwindows : r.gt = true → u.par (flowP r.flow 1) = s.par (flowP r.flow 1))
    (hupar : ∀ n < 29, ∀ d < 4, u.par (0x3300 + 4 * n + d) =
      t.par (0x3300 + 4 * n + d) + wd (unitsOf p * (meshPath p.sx p.sy p.dx p.dy).count (n, d))) :
    s.Joins k p (sendOn err p (p.dx, p.dy) (s.unready k)) r r.gt := by
  have hentry : (t.entry q).sx = p.sx ∧ (t.entry q).sy = p.sy := by
    have hcard : q.scard = t.card := by
      rw [ht]
      obtain rfl | rfl := hq <;> exact hown
    rw [entry_own hcard]
    obtain rfl | rfl := hq <;> exact ⟨rfl, rfl⟩
  rw [sendOn_crosses hdemote (by rw [hentry.1, hentry.2]; exact hcross)]
  refine setOut_joins (by rw [hu, ht]) hwindows fun n hn d hd => ?_
  rw [hupar n hn d hd, htpar _ (by omega)]

/-- The counts of the whole path of a packet of this card. -/
theorem par_countPath_meshPath (p q : Packet) (hunits : unitsOf q = unitsOf p) (t : State) {n d : Nat} (hn : n < 29) (hd : d < 4) :
    (countPath (meshPath p.sx p.sy p.dx p.dy) q t).par (0x3300 + 4 * n + d) =
      t.par (0x3300 + 4 * n + d) + wd (unitsOf p * (meshPath p.sx p.sy p.dx p.dy).count (n, d)) := by
  rw [par_countPath q hn hd _ (meshPath_dir p.sx p.sy p.dx p.dy), hunits]

/-- A best-effort packet whose links leave it whole, corrected or poisoned. -/
theorem sendOn_be_joins {s : State} {k : Nat} {p r : Packet} {err : LinkError} {f : State → State} (hown : p.scard = s.card)
    (hbe : p.gt = false) (hr : r.gt = false)
    (hcross : ∀ t, crossLinks err (meshPath p.sx p.sy p.dx p.dy) p t =
      (some r, f (countPath (meshPath p.sx p.sy p.dx p.dy) p t)))
    (hrest : ∀ t, f t = { t with params := (f t).params }) (hf : ∀ t n, n ≠ 0x3027 → (f t).par n = t.par n) :
    s.Joins k p (sendOn err p (p.dx, p.dy) (s.unready k)) r false := by
  have hjoin := sendOn_joins hown (demote_be hbe (s.unready k)) (.inl rfl) rfl (fun _ _ => rfl) (hcross _)
    (by rw [hrest, countPath_rest]) (fun h => by rw [hr] at h; cases h)
    (fun n hn d hd => by rw [hf _ _ (by omega), par_countPath_meshPath p p rfl _ hn hd])
  rwa [hr] at hjoin

/-- A packet that its links corrected is counted (R237). -/
theorem par_sendOn_corrected {s : State} {p : Packet} (hown : p.scard = s.card) (hbe : p.gt = false) :
    ((sendOn .corrected p (p.dx, p.dy) s).par 0x3027).toNat = Min.min 0xFFFFFFFF ((s.par 0x3027).toNat + 1) := by
  have hcross : crossLinks .corrected (meshPath (s.entry p).sx (s.entry p).sy p.dx p.dy) p s =
      (some p, (countPath (meshPath p.sx p.sy p.dx p.dy) p s).count 0x3027 1) := by
    rw [entry_own hown]; rfl
  rw [sendOn_crosses (demote_be hbe s) hcross, par_setOut, par_noteCommit, toNat_count, par_countPath_low _ _ _ (by omega)]

/-- An event does not look at the parameters. -/
theorem raise_params (s : State) (ps : Tab Word) (e : Nat) (l : List Byte) :
    ({ s with params := ps } : State).raise e l = { s.raise e l with params := ps } := by
  unfold State.raise State.canRaise
  dsimp only
  split <;> rfl

theorem raise_withParams {s t : State} (h : t = { s with params := t.params }) (e : Nat) (l : List Byte) :
    t.raise e l = { s.raise e l with params := (t.raise e l).params } := by
  rw [h, raise_params]

/-- A packet whose header a link of its path destroyed is gone (R237). -/
theorem sendOn_header {s : State} {p : Packet} {n d : Nat} (hown : p.scard = s.card) (hbe : p.gt = false)
    (hpath : (n, d) ∈ meshPath p.sx p.sy p.dx p.dy) :
    sendOn (.header n d) p (p.dx, p.dy) s =
      { s.raise 0xC9 [BitVec.ofNat 8 n, BitVec.ofNat 8 d] with params := (sendOn (.header n d) p (p.dx, p.dy) s).params } := by
  have hgone : sendOn (.header n d) p (p.dx, p.dy) s =
      (countPath ((meshPath p.sx p.sy p.dx p.dy).takeWhile (fun o => decide (o ≠ (n, d))) ++ [(n, d)]) p s).raise 0xC9
        [BitVec.ofNat 8 n, BitVec.ofNat 8 d] := by
    simp only [sendOn, demote_be hbe, entry_own hown, crossLinks, List.contains_iff_mem, hpath, if_true]
  rw [hgone]
  exact raise_withParams (countPath_rest _ _ _) _ _

/-- A posted packet that a dead unit would send is dropped at its router (R239). -/
theorem routePacket_dead_posted {s : State} {p : Packet} (err : LinkError) (hown : p.scard = s.card)
    (hdead : s.deadAt p.sx p.sy p.sport = true) (hleaves : s.leavesDead p = false) (hposted : awaits p = false) :
    routePacket err p s = s.count 0x3022 1 := by
  simp only [routePacket, State.isOwn, hown, hdead, hleaves, hposted]
  simp only [decide_true, Bool.not_false, Bool.and_self, if_true]
  split <;> rfl

section
variable {s : State} {p : Packet} (err : LinkError)
  (halive : p.scard ≠ s.card ∨ s.deadAt p.sx p.sy p.sport = false) (hposted : awaits p = false)
include halive

theorem routePacket_alive : (s.isOwn p && s.deadAt p.sx p.sy p.sport && !s.leavesDead p) = false := by
  obtain h | h := halive <;> simp [State.isOwn, h]

include hposted

/-- A posted packet to no node, or to a card without a route, is dropped (R226, R228). -/
theorem routePacket_noTarget_posted
    (hno : p.cmd = 7 ∨ 5 < p.dx ∨ 4 < p.dy ∨ (p.dcard ≠ s.card ∧ s.seamTo p.dcard = none)) :
    routePacket err p s = s.count 0x3025 1 := by
  rw [routePacket, routePacket_alive halive, if_neg Bool.false_ne_true]
  have hbounce : bounce 0x3025 stNoTarget p s = s.count 0x3025 1 := by simp [bounce, hposted]
  by_cases hcmd : p.cmd = 7
  · exact if_pos hcmd
  · rw [if_neg hcmd]
    by_cases hfar : 5 < p.dx ∨ 4 < p.dy
    · rw [if_pos hfar, hbounce]
    · obtain ⟨hcard, hroute⟩ : p.dcard ≠ s.card ∧ s.seamTo p.dcard = none := by tauto
      rw [if_neg hfar, if_neg hcard, hroute]
      exact hbounce

/-- A posted packet for a card behind a link that is down is dropped and counted at its port (R228). -/
theorem routePacket_linkDown_posted {l : Nat} (hcmd : p.cmd ≠ 7) (hx : p.dx ≤ 5) (hy : p.dy ≤ 4) (hcard : p.dcard ≠ s.card)
    (hseam : s.seamTo p.dcard = some l) (hdown : s.seamUp l = false) :
    routePacket err p s = s.count (portP l 0x4A) 1 := by
  rw [routePacket, routePacket_alive halive, if_neg Bool.false_ne_true, if_neg hcmd, if_neg (by omega), if_neg hcard,
    hseam]
  simp [hdown, bounce, hposted]

end

/-- Settles O18: a packet of this card is sent on (`sendOn_joins`); any other is counted where it ends. -/
theorem routersSendTheFirstOfAStream : Obligations.RoutersSendTheFirstOfAStream := by
  intro s k p err path base joins hclk hk hfirst
  have hexec : exec (.packetSend p err) s = .next (routePacket err p (s.unready k)) :=
    exec_packetSend_ready err hclk hk hfirst
  refine ⟨fun hown hcard halive hcmd hx hy hsx hsy => ?_, fun hown hdead hleaves hposted => ?_,
    fun halive hposted hno => ?_, fun halive hposted hcmd hx hy hcard l hseam hdown => ?_⟩
  · have hsend : exec (.packetSend p err) s = .next (sendOn err p (p.dx, p.dy) (s.unready k)) :=
      hexec.trans (congrArg _ (routePacket_sends err hcard halive hcmd hx hy))
    refine ⟨fun hbe => ⟨?_, ?_, ?_, ?_⟩, ?_, ?_⟩
    · rintro rfl
      exact ⟨_, hsend, sendOn_be_joins (f := id) hown hbe hbe (fun _ => rfl) (fun _ => rfl) (fun _ _ _ => rfl)⟩
    · rintro rfl
      exact ⟨_, hsend, sendOn_be_joins (f := fun t => t.count 0x3027 1) hown hbe hbe (fun _ => rfl) (fun _ => rfl)
        (fun t n hn => State.par_count_ne t _ _ _ hn), par_sendOn_corrected (s := s.unready k) hown hbe⟩
    · rintro rfl
      refine ⟨_, hsend, sendOn_be_joins (f := id) hown hbe ?_ (fun _ => rfl) (fun _ => rfl) (fun _ _ _ => rfl)⟩
      split
      · exact hbe
      · exact hbe
    · rintro n d rfl hpath
      exact ⟨_, hsend, sendOn_header (s := s.unready k) hown hbe hpath⟩
    · rintro hgt rfl hflow hconf
      have hconf' : (s.unready k).conforms p = true := hconf
      have hjoin := sendOn_joins (k := k) hown (demote_conforming (s := s.unready k) hcard hconf') (.inl rfl) rfl
        (fun _ _ => rfl) (err := .none) rfl (countPath_rest ..)
        (fun _ => par_countPath_low _ _ _ (by unfold flowP; omega))
        (fun n hn d hd => par_countPath_meshPath p p rfl _ hn hd)
      rw [hgt] at hjoin
      exact ⟨_, hsend, hjoin⟩
    · rintro hgt rfl hconf
      have hdemote := demote_not_conforming (s := s.unready k) hgt hconf
      have hjoin := sendOn_joins hown hdemote (.inr rfl) rfl
        (fun n hn => State.par_count_ne _ _ _ _ hn) (err := .none) rfl (countPath_rest ..)
        (fun h => by cases h) (fun n hn d hd => par_countPath_meshPath p { p with gt := false } rfl _ hn hd)
      refine ⟨_, hsend, hjoin, ?_⟩
      rw [sendOn_crosses hdemote rfl, par_setOut, par_noteCommit, par_countPath_low _ _ _ (by omega), toNat_count]
      rfl
  · exact hexec.trans (congrArg _ (routePacket_dead_posted (s := s.unready k) err hown hdead hleaves hposted))
  · exact hexec.trans (congrArg _ (routePacket_noTarget_posted (s := s.unready k) err halive hposted hno))
  · exact hexec.trans (congrArg _
      (routePacket_linkDown_posted (s := s.unready k) err halive hposted hcmd hx hy hcard hseam hdown))

end Sys2Proof.Machine
end

section
/-!
PROOF of O21 (chapter 13): what a router does with a packet that its target cannot take.  Every arriving command is one
`arrive`, which asks `gate` first.
-/

namespace Sys2Proof.Machine

/-! ### Every arrival asks the gate -/

/-- A packet leaves those in flight. -/
def State.landed (s : State) (i : Nat) : State := { s with mesh := { s.mesh with flight := s.mesh.flight.eraseIdx i } }

/-- The packet at place `i` is the first of its stream, bound for target `t` of this card, and the core clock runs. -/
structure State.Reaches (s : State) (i : Nat) (f : Flying) (t : Target) : Prop where
  clocked : s.clocked = true
  here    : s.mesh.flight[i]? = some f
  card    : f.pkt.dcard = s.card
  target  : targetAt f.pkt.dx f.pkt.dy f.pkt.dport = t
  first   : ∀ e ∈ s.mesh.flight.take i, sameStream f.pkt e.pkt = false

/-- What the gate does to a packet is all that happens to it. -/
theorem arrive_gated {s u : State} {i : Nat} {f : Flying} {t : Target} (h : s.Reaches i f t) {cmds : List Nat} {at' : Target → Bool}
    {act : Target → Packet → State → State} (hc : cmds.contains f.pkt.cmd = true) (ha : at' t = true)
    (hgate : gate t f (s.landed i) = some u) : arrive i cmds at' act s = u := by
  have hfirst : firstInStream (s.mesh.flight.map (·.pkt)) i = true := by
    refine firstInStream_of_first (p := f.pkt) (by rw [List.getElem?_map, h.here]; rfl) fun q hq => ?_
    rw [← List.map_take] at hq
    obtain ⟨e, he, rfl⟩ := List.mem_map.1 hq
    exact h.first e he
  unfold arrive
  rw [h.here]
  simp only [h.clocked, hc, h.card, h.target, ha, hfirst, decide_false, ne_eq, not_true_eq_false, Bool.not_true, Bool.or_false,
    Bool.false_eq_true, if_false]
  have hgate' : gate t f { s with mesh := { s.mesh with flight := s.mesh.flight.eraseIdx i } } = some u := hgate
  rw [hgate']

/-- The command that takes a packet of command `cmd` in at its target. -/
abbrev arrivals (i : Nat) : List Instr :=
  [.meshWrite i, .meshReadReq i, .meshReadRsp i, .meshMessage i, .meshWake i, .meshConfig i, .meshError i]

/-- What an arriving command does when the gate is open; only a CONFIG does not go to the keeper bridge. -/
theorem exec_arrival {i cmd : Nat} {c : Instr} (h : (arrivals i)[cmd]? = some c) : ∃ at' act,
    (∀ s, exec c s = .next (arrive i [cmd] at' act s)) ∧ ∀ t, (cmd = 5 → t ≠ .keeper) → at' t = true := by
  match cmd with
  | 0 => cases h; exact ⟨_, _, fun _ => rfl, fun _ _ => rfl⟩
  | 1 => cases h; exact ⟨_, _, fun _ => rfl, fun _ _ => rfl⟩
  | 2 => cases h; exact ⟨_, _, fun _ => rfl, fun _ _ => rfl⟩
  | 3 => cases h; exact ⟨_, _, fun _ => rfl, fun _ _ => rfl⟩
  | 4 => cases h; exact ⟨_, _, fun _ => rfl, fun _ _ => rfl⟩
  | 5 => cases h; exact ⟨_, _, fun _ => rfl, fun t ht => decide_eq_true (ht rfl)⟩
  | 6 => cases h; exact ⟨_, _, fun _ => rfl, fun _ _ => rfl⟩
  | n + 7 => simp [arrivals] at h

theorem exec_gated {s u : State} {i : Nat} {f : Flying} {t : Target} {c : Instr} (h : s.Reaches i f t)
    (hc : (arrivals i)[f.pkt.cmd]? = some c) (hkeeper : f.pkt.cmd = 5 → t ≠ .keeper)
    (hgate : gate t f (s.landed i) = some u) : exec c s = .next u := by
  obtain ⟨at', act, hexec, hat⟩ := exec_arrival hc
  rw [hexec, arrive_gated h (by simp) (hat t hkeeper) hgate]

theorem variant_taken (s : State) (i : Nat) (f : Flying) : (s.taken i f).variant = s.variant := by
  rw [taken_rest]

section
variable {s : State} {i : Nat} {f : Flying} {t : Target} {c : Instr} (h : s.Arrives i f t) (hcmd : f.pkt.cmd = 4)
  (hc : (arrivals i)[f.pkt.cmd]? = some c)
include h hcmd hc

/-- A WAKE of a domain that is on is absorbed. -/
theorem exec_wake_absorbed {d : Nat} (hd : t.domain s.variant = some d) : exec c s = .next (s.taken i f) := by
  rw [hcmd] at hc
  cases hc
  show Host.Outcome.next (arrive i [4] _ _ s) = _
  rw [arrive_eq h (by rw [hcmd]; rfl) rfl, hcmd, variant_taken, hd]
  simp

/-- A WAKE at a service node is dropped and counted. -/
theorem exec_wake_dropped (hd : t.domain s.variant = none) : exec c s = .next ((s.taken i f).count 0x3025 1) := by
  rw [hcmd] at hc
  cases hc
  show Host.Outcome.next (arrive i [4] _ _ s) = _
  rw [arrive_eq h (by rw [hcmd]; rfl) rfl, hcmd, variant_taken, hd]
  simp

end

/-! ### The gate, case by case (R24, R238–R242) -/

section
variable {s : State} {t : Target} {f : Flying}

theorem gate_absent (h : t.absent s.variant = true) : gate t f s = some (turnAway 0x3023 stAbsent f.pkt s) := by
  simp [gate, h]

theorem gate_dead {u : Nat} (h : t.absent s.variant = false) (hu : t.unit = some u) (hdead : s.isDead u = true) :
    gate t f s = some (turnAway 0x3022 stDead f.pkt s) := by
  simp [gate, h, hu, hdead]

/-- A target that is present and alive is governed by the state of its domain. -/
theorem gate_alive {d : Nat} (h : t.absent s.variant = false) (halive : ∀ u, t.unit = some u → s.isDead u = false)
    (hd : t.dom = some d) (hhas : s.variant.hasDom d = true) : gate t f s =
      if (s.dom d).st = .off ∨ (s.dom d).rekindling = true then some (absorbOff d f.pkt s)
      else if (s.dom d).st = .sleep then some (holdAsleep d f s)
      else if s.holdsAt d f.pkt then some (holdPacket f s)
      else none := by
  have hdead : (match t.unit with | some u => s.isDead u | none => false) = false := by
    cases hu : t.unit with
    | none => rfl
    | some u => exact halive u hu
  have hdom : t.domain s.variant = some d := by simp [Target.domain, hd, hhas]
  unfold gate
  simp only [h, Bool.false_eq_true, if_false, hdom]
  rw [if_neg (by rw [Bool.eq_false_iff] at hdead; exact hdead)]

end

/-! ### What the gate does, written out -/

/-- A packet that its target turns away, with the counter and the status of the cause (R225, R236). -/
def State.turnedAway (p : Packet) (u : State) (ctr status : Nat) : State :=
  if p.cmd = 1 ∨ p.cmd = 3 ∨ p.cmd = 5 then
    { u with mesh := { u.mesh with ready := u.mesh.ready ++
      [{ blankPacket with
          dx := p.sx, dy := p.sy, dport := p.sport, dcard := p.scard, sx := p.dx, sy := p.dy, sport := p.dport, scard := p.dcard
          cmd := 6, tag := p.tag, status := status, valid := BitVec.allOnes 128 }] } }
  else if p.cmd = 2 ∨ p.cmd = 6 then u.count 0x3021 1 else u.count ctr 1

theorem turnAway_eq (ctr status : Nat) (p : Packet) (s : State) : turnAway ctr status p s = s.turnedAway p ctr status := by
  simp only [turnAway, State.turnedAway, awaits, isAnswer, decide_eq_true_eq]
  rfl

/-- A packet that reaches a domain that is off (R242). -/
def State.absorbed (s : State) (d : Nat) (p : Packet) : State :=
  let first := (s.dom d).asleepDone = false
  let wants := d < 16 ∧ (p.cmd = 4 ∨ (first ∧ (s.par (galP d 0x44)).getLsbD 0 = true)) ∧ s.canRekindle d = true
  let started := if wants then s.modDom d (fun x => { x with rekindling := true }) else s
  let noted := if first then
      (started.modDom d (fun x => { x with asleepDone := true })).raise 0xC5 [BitVec.ofNat 8 d, if wants then 1 else 0]
    else started
  if p.cmd = 4 then noted else noted.turnedAway p 0x3024 0x21

theorem absorbOff_eq (d : Nat) (p : Packet) (s : State) : absorbOff d p s = s.absorbed d p := by
  simp only [absorbOff, State.absorbed, turnAway_eq, startRekindle, Bool.and_eq_true, Bool.or_eq_true, decide_eq_true_eq,
    Bool.not_eq_true', and_assoc]
  rfl

/-- A packet that its router holds (R240), when those held before are `before`. -/
def State.holding (f : Flying) (before : List Flying) (u : State) : State :=
  let p := f.pkt
  let here := before.filter (fun q => decide (q.pkt.dx = p.dx ∧ q.pkt.dy = p.dy ∧ q.pkt.dport = p.dport))
  let behind := here.any (fun q => decide (q.pkt.sx = p.sx ∧ q.pkt.sy = p.sy ∧ q.pkt.sport = p.sport ∧ q.pkt.scard = p.scard))
  if behind = true ∨ 32 ≤ here.length then { u with mesh := { u.mesh with pressed := u.mesh.pressed ++ [{ f with late := true }] } }
  else { u with mesh := { u.mesh with held := u.mesh.held ++ [{ f with late := true }] } }

theorem holdPacket_eq (f : Flying) (s : State) : holdPacket f s = s.holding f s.mesh.held := by
  simp only [holdPacket, State.holding, Bool.or_eq_true, decide_eq_true_eq]
  rfl

/-- A sleeping domain starts to wake, and reports it once (R241). -/
def State.wakes (s : State) (d : Nat) : State :=
  if (s.dom d).waking = true then s else (s.modDom d (fun x => { x with waking := true })).raise 0xC4 [BitVec.ofNat 8 d]

theorem mesh_wakes (s : State) (d : Nat) : (s.wakes d).mesh = s.mesh := by
  unfold State.wakes
  split <;> simp

theorem holdAsleep_eq (d : Nat) (f : Flying) (s : State) :
    holdAsleep d f s = if f.pkt.cmd = 4 then s.wakes d else (s.wakes d).holding f s.mesh.held := by
  have h : holdAsleep d f s = if f.pkt.cmd = 4 then s.wakes d else holdPacket f (s.wakes d) := rfl
  rw [h, holdPacket_eq, mesh_wakes]

/-- Only galleries and ports can be absent, and both stand in NOC_DEAD. -/
theorem absent_of_unit_none {t : Target} (h : t.unit = none) (v : Variant) : t.absent v = false := by
  cases t with
  | gal g => cases h
  | port p => cases h
  | _ => rfl

/-- Settles O21: the gate decides (`exec_gated`), or lets a WAKE through (`exec_wake_absorbed`, `exec_wake_dropped`). -/
theorem routersGuardTheirTargets : Obligations.RoutersGuardTheirTargets := by
  intro s i f t c p base turned held hclk hhere hcard htarget hfirst hc hkeeper
  have hreach : s.Reaches i f t := ⟨hclk, hhere, hcard, htarget, hfirst⟩
  have hgated : ∀ u, gate t f (s.landed i) = some u → exec c s = .next u := fun u => exec_gated hreach hc hkeeper
  refine ⟨fun habsent => ?_, fun hpresent => ⟨fun u hu hdead => ?_, fun d hd hhas halive => ?_⟩, fun hdom hunit hcmd => ?_⟩
  · exact hgated _ ((gate_absent (s := s.landed i) habsent).trans (congrArg _ (turnAway_eq ..)))
  · exact hgated _ ((gate_dead (s := s.landed i) hpresent hu hdead).trans (congrArg _ (turnAway_eq ..)))
  · have hgate := gate_alive (s := s.landed i) (f := f) hpresent halive hd hhas
    refine ⟨fun hoff => ?_, fun hnot => ⟨fun hsleep => ?_, fun hon hholds => ?_, fun hon hopen hcmd => ?_⟩⟩
    · exact hgated _ ((hgate.trans (if_pos hoff)).trans (congrArg _ (absorbOff_eq ..)))
    · have hnotOff : ¬ ((s.dom d).st = .off ∨ (s.dom d).rekindling = true) := by simp [hsleep, hnot]
      exact hgated _ (((hgate.trans (if_neg hnotOff)).trans (if_pos hsleep)).trans (congrArg _ (holdAsleep_eq ..)))
    · have hnotOff : ¬ ((s.dom d).st = .off ∨ (s.dom d).rekindling = true) := by simp [hon, hnot]
      have hawake : ¬ (s.dom d).st = .sleep := by simp [hon]
      exact hgated _ ((((hgate.trans (if_neg hnotOff)).trans (if_neg hawake)).trans (if_pos hholds)).trans
        (congrArg _ (holdPacket_eq ..)))
    · have hdomain : t.domain s.variant = some d := by simp [Target.domain, hd, hhas]
      have harrives : s.Arrives i f t := ⟨hclk, hhere, hcard, htarget, hfirst, hpresent, halive, fun e he => by
        cases hdomain.symm.trans he
        exact ⟨hon, hnot, hopen⟩⟩
      exact exec_wake_absorbed harrives hcmd hc hdomain
  · have hdomain : t.domain s.variant = none := by
      cases hd : t.dom with
      | none => simp [Target.domain, hd]
      | some d => simp [Target.domain, hd, hdom d hd]
    have harrives : s.Arrives i f t := ⟨hclk, hhere, hcard, htarget, hfirst, absent_of_unit_none hunit _,
      fun u hu => (by rw [hunit] at hu; cases hu), fun e he => by rw [hdomain] at he; cases he⟩
    exact exec_wake_dropped harrives hcmd hc hdomain

end Sys2Proof.Machine
end

section
/-!
PROOF of O22 (chapter 21): the keeper bridge takes staged frames.  Every refusal is one state change, `frameRefused`; a
frame that passes leaves as one request.
-/

namespace Sys2Proof.Machine

/-! ### A frame is refused (R367) -/

theorem selfTargeted_eq (g cfa : Nat) : selfTargeted g cfa = true ↔ cfaGal cfa = g ∧ cfaKind cfa ≤ 1 := by
  simp [selfTargeted]

/-- The gallery whose staging area records a refused frame; a self-targeted one is no longer in transit (R368). -/
def Gallery.notes (x : Gallery) (g seq cfa st : Nat) (busy : Bool) : Gallery :=
  { x with
    staging := { x.staging with seq := seq, status := st, cfa := cfa, busy := busy, held := false }
    transit := if cfaGal cfa = g ∧ cfaKind cfa ≤ 1 then x.transit - 1 else x.transit }

/-- A refused frame is recorded. -/
def State.noted (s : State) (g seq cfa st : Nat) (busy : Bool) : State :=
  let u := modStaging g (fun x => { x with seq := seq, status := st, cfa := cfa, busy := busy, held := false }) s
  if selfTargeted g cfa then u.modGal g (fun x => { x with transit := x.transit - 1 }) else u

theorem noted_rest (s : State) (g seq cfa st : Nat) (busy : Bool) :
    s.noted g seq cfa st busy = { s with gals := (s.noted g seq cfa st busy).gals } := by
  unfold State.noted
  dsimp only
  split <;> rfl

theorem gal_noted (s : State) (g seq cfa st : Nat) (busy : Bool) :
    (s.noted g seq cfa st busy).gal g = (s.gal g).notes g seq cfa st busy := by
  unfold State.noted modStaging Gallery.notes
  by_cases h : cfaGal cfa = g ∧ cfaKind cfa ≤ 1
  · simp [(selfTargeted_eq g cfa).2 h, h]
  · simp [Bool.eq_false_iff.2 (fun e => h ((selfTargeted_eq g cfa).1 e)), h]

theorem gal_noted_ne (s : State) (g seq cfa st : Nat) (busy : Bool) {k : Nat} (hk : k ≠ g) :
    (s.noted g seq cfa st busy).gal k = s.gal k := by
  unfold State.noted modStaging
  dsimp only
  split
  · rw [State.gal_modGal_ne _ _ _ _ hk, State.gal_modGal_ne _ _ _ _ hk]
  · rw [State.gal_modGal_ne _ _ _ _ hk]

/-- A refused frame is recorded, counted and reported (event 0xD8). -/
def State.frameRefused (s : State) (g seq cfa st : Nat) (busy : Bool) : State :=
  ((s.noted g seq cfa st busy).count (galP g 0x52) 1).raise 0xD8 ([BitVec.ofNat 8 g, BitVec.ofNat 8 st, 0, 0] ++ leBytes 4 cfa)

/-- `v` is `u` after the refusal of a frame of gallery `g`, whatever packet has answered it. -/
structure State.Refused (u v : State) (x : Gallery) (g seq cfa st : Nat) (busy : Bool) : Prop where
  rest : v = { (u.count (galP g 0x52) 1).raise 0xD8 ([BitVec.ofNat 8 g, BitVec.ofNat 8 st, 0, 0] ++ leBytes 4 cfa) with
    gals := v.gals, mesh := v.mesh }
  others : ∀ k, k ≠ g → v.gal k = u.gal k
  gal : v.gal g = x.notes g seq cfa st busy

theorem frameRefused_rest (s : State) (g seq cfa st : Nat) (busy : Bool) : s.frameRefused g seq cfa st busy =
    { (s.count (galP g 0x52) 1).raise 0xD8 ([BitVec.ofNat 8 g, BitVec.ofNat 8 st, 0, 0] ++ leBytes 4 cfa) with
      gals := (s.noted g seq cfa st busy).gals } := by
  unfold State.frameRefused
  rw [noted_rest]
  exact raise_withGals (s.count (galP g 0x52) 1) _ _ _

theorem frameRefused_refused (s : State) (g seq cfa st : Nat) (busy : Bool) :
    s.Refused (s.frameRefused g seq cfa st busy) (s.gal g) g seq cfa st busy := by
  have hgal : ∀ k, (s.frameRefused g seq cfa st busy).gal k = (s.noted g seq cfa st busy).gal k := by
    intro k
    simp [State.frameRefused]
  refine ⟨?_, fun k hk => (hgal k).trans (gal_noted_ne s g seq cfa st busy hk), (hgal g).trans (gal_noted ..)⟩
  rw [frameRefused_rest]

theorem mesh_frameRefused (s : State) (g seq cfa st : Nat) (busy : Bool) :
    (s.frameRefused g seq cfa st busy).mesh = s.mesh := by
  rw [frameRefused_rest]
  simp

/-- An answer that is presented does not touch what a refusal did. -/
theorem State.Refused.present {u v : State} {x : Gallery} {g seq cfa st : Nat} {busy : Bool}
    (h : u.Refused v x g seq cfa st busy) (p : Packet) : u.Refused (present p v) x g seq cfa st busy where
  rest := by
    have e : Machine.present p v = { v with mesh := (Machine.present p v).mesh } := rfl
    rw [e]
    conv_lhs => rw [h.rest]
    rfl
  others := h.others
  gal := h.gal

/-- A record that leaves `busy` alone. -/
theorem modStaging_keeps_busy (s : State) (g seq cfa st : Nat) :
    modStaging g (fun x => { x with seq := seq, status := st, cfa := cfa, held := false }) s =
      modStaging g (fun x => { x with
        seq := seq, status := st, cfa := cfa, busy := (s.gal g).staging.busy, held := false }) s :=
  modGal_congr rfl

theorem refuseCommit_eq {s : State} {g : Nat} (hbusy : (s.gal g).staging.busy = true) (cmd : List Byte) :
    refuseCommit g cmd s = s.frameRefused g (leAt cmd 4 2) (leAt cmd 0 4) stBusy true := by
  rw [refuseCommit, modStaging_keeps_busy, hbusy]
  rfl

/-- An outcome that is a refusal. -/
theorem icpOutcome_of_refusal {g seq cfa st : Nat} (hst : st ≠ 0) (ask : Option Packet) (s : State) :
    icpOutcome g seq cfa ask st s = (match ask with
      | none => s.frameRefused g seq cfa st false
      | some p => replyError p st (s.frameRefused g seq cfa st (s.gal g).staging.busy)) := by
  have hheld : (selfTargeted g cfa && decide (st = 0)) = false := by simp [hst]
  have hgone : (selfTargeted g cfa && decide (st ≠ 0)) = selfTargeted g cfa := by simp [hst]
  unfold icpOutcome
  rw [hheld, hgone]
  simp only [if_neg hst]
  cases ask with
  | none => rfl
  | some p =>
    have hkeep : modStaging g (fun x => { x with
        seq := seq, status := st, cfa := cfa, busy := if (some p).isSome = true then x.busy else false, held := false }) s =
        modStaging g (fun x => { x with
          seq := seq, status := st, cfa := cfa, busy := (s.gal g).staging.busy, held := false }) s := modGal_congr rfl
    rw [hkeep]
    rfl

/-! ### A frame leaves for its target (R365, R367) -/

/-- The CONFIG packet that carries a frame of gallery `g` from the bridge to its target. -/
def State.framePacket (s : State) (g cfa : Nat) (d : List Byte) (tag : Nat) : Packet :=
  { sourced s .keeper (toward s.card (frameTarget cfa)
      { blankPacket with cmd := 5, len := 16, addr := cfa, code := g, valid := BitVec.allOnes 128, data := d }) with
    tag := tag }

/-- `v` is `u` after a frame left the bridge: a packet is presented and its transaction is open. -/
def State.SentOn (s u v : State) (g cfa seq : Nat) (d : List Byte) (ask : Option Packet) : Prop := ∃ q : Packet,
  v = { u with mesh := { u.mesh with
    ready := u.mesh.ready ++ [q], nextTag := (q.tag + 1) % 4096
    trans := u.mesh.trans ++ [{ node := 24, port := 0, tag := q.tag, dcard := s.card, dnode := 6 * q.dy + q.dx,
                                dport := q.dport, purpose := .icp g seq cfa ask }] } } ∧
  q.cmd = 5 ∧ q.len = 16 ∧ q.addr = cfa ∧ q.data = d ∧ q.dcard = s.card ∧ q.scard = s.card ∧ q.sx = 0 ∧ q.sy = 4 ∧ q.sport = 0 ∧
  q.poison = false ∧ q.gt = false ∧
  (if cfaKind cfa = 3 then q.dx = 3 ∧ q.dy = 4 else 6 * q.dy + q.dx = galNode (cfaGal cfa)) ∧ q.dport = 0

theorem frameTarget_place (cfa : Nat) :
    (if cfaKind cfa = 3 then nodeX (frameTarget cfa).place.1 = 3 ∧ nodeY (frameTarget cfa).place.1 = 4
      else 6 * nodeY (frameTarget cfa).place.1 + nodeX (frameTarget cfa).place.1 = galNode (cfaGal cfa)) ∧
      (frameTarget cfa).place.2 = 0 := by
  unfold frameTarget
  split
  · exact ⟨⟨rfl, rfl⟩, rfl⟩
  · exact ⟨Nat.div_add_mod _ 6, rfl⟩

theorem forwardFrame_sent {s u : State} (hcard : u.card = s.card) {g cfa : Nat} {d : List Byte}
    (hpresent : needsAbsent u.variant cfa d = false) (hkind : serviceKind u cfa = true) (seq : Nat) (ask : Option Packet) :
    s.SentOn u (forwardFrame g seq cfa d ask u) g cfa seq d ask := by
  obtain ⟨hplace, hport⟩ := frameTarget_place cfa
  have hsent : forwardFrame g seq cfa d ask u = request .keeper
      (toward u.card (frameTarget cfa)
        { blankPacket with cmd := 5, len := 16, addr := cfa, code := g, valid := BitVec.allOnes 128, data := d })
      (.icp g seq cfa ask) u := by
    simp [forwardFrame, hpresent, hkind]
  rw [hsent]
  have hrequest : ∀ (p : Packet) (q : Purpose), request .keeper p q u =
      present { sourced u .keeper p with tag := u.newTag 24 0 } { u with mesh := { u.mesh with
        nextTag := (u.newTag 24 0 + 1) % 4096
        trans := u.mesh.trans ++ [{ node := 24, port := 0, tag := u.newTag 24 0, dcard := p.dcard
                                    dnode := 6 * p.dy + p.dx, dport := p.dport, purpose := q }] } } := fun _ _ => by
    simp only [request, Target.place, sourced]
  rw [hrequest]
  generalize u.newTag 24 0 = tag
  refine ⟨u.framePacket g cfa d tag, ?_, rfl, rfl, rfl, rfl, hcard, hcard, rfl, rfl, rfl, rfl, rfl, hplace, hport⟩
  rw [← hcard]
  rfl

theorem forwardFrame_refused {u : State} {g cfa : Nat} {d : List Byte} {st : Nat}
    (h : (needsAbsent u.variant cfa d = true ∧ st = 0x0D) ∨
      (needsAbsent u.variant cfa d = false ∧ serviceKind u cfa = false ∧ st = 0x09)) (seq : Nat) (ask : Option Packet) :
    forwardFrame g seq cfa d ask u = icpOutcome g seq cfa ask st u := by
  obtain ⟨habsent, rfl⟩ | ⟨hpresent, hkind, rfl⟩ := h
  · simp only [forwardFrame, habsent, if_true]
    rfl
  · simp [forwardFrame, hpresent, hkind, stRange]

/-! ### A WRITE to the staging area (R366, Table 21.1) -/

theorem isCommit_eq (cmd : List Byte) : isCommit cmd = (byteAt cmd 6).getLsbD 0 := by
  rw [isCommit, bitOf_eq_testBit, BitVec.testBit_toNat]

section
variable {s : State} {g : Nat} {p : Packet} (hown : p.scard = s.card ∧ targetAt p.sx p.sy p.sport = .gal g)
include hown

theorem writerOf_own : s.writerOf p = some g := by
  simp [State.writerOf, State.isOwn, hown.1, hown.2]

theorem writeAtKeeper_staged (ha : p.addr % 16 = 0) (hn : p.addr + byteCount p ≤ 0x210) :
    writeAtKeeper p s = if s.kin.writeEn then stageWrite g p s else s := by
  simp only [writeAtKeeper, writerOf_own hown]
  exact if_pos ⟨ha, hn⟩

theorem writeAtKeeper_unmapped (h : p.addr % 16 ≠ 0 ∨ 0x210 < p.addr + byteCount p) :
    writeAtKeeper p s = s.count 0x3025 1 := by
  simp only [writeAtKeeper, writerOf_own hown]
  exact if_neg (by omega)

end

theorem writerOf_foreign {s : State} {p : Packet} (h : ¬ ∃ g, p.scard = s.card ∧ targetAt p.sx p.sy p.sport = .gal g) :
    s.writerOf p = none := by
  unfold State.writerOf State.isOwn
  split
  · next hown =>
    cases ht : targetAt p.sx p.sy p.sport with
    | gal g => exact absurd ⟨g, of_decide_eq_true hown, ht⟩ h
    | _ => rfl
  · rfl

theorem writeAtKeeper_foreign {s : State} {p : Packet}
    (h : ¬ ∃ g, p.scard = s.card ∧ targetAt p.sx p.sy p.sport = .gal g) : writeAtKeeper p s = s.count 0x3025 1 := by
  simp only [writeAtKeeper, writerOf_foreign h]

/-- The command bytes of a WRITE to a staging area. -/
def stagedCommand (p : Packet) : List Byte := slice (writeData p) (0x200 - p.addr) 16

section
variable {p : Packet} (hpos : 0 < byteCount p) (ha : p.addr % 16 = 0) (hn : p.addr + byteCount p ≤ 0x210)
include hpos ha hn

/-- A WRITE that stays in the staging area holds the whole command or none of it. -/
theorem holdsCommand_iff : (p.addr ≤ 0x200 ∧ (stagedCommand p).length = 16) ↔ p.addr + byteCount p = 0x210 := by
  rw [stagedCommand, slice, List.length_take, List.length_drop, length_writeData]
  omega

theorem stageWrite_free {s : State} {g : Nat} (hfree : (s.gal g).staging.busy = false) : stageWrite g p s =
    (let u := modStaging g (fun x => { x with data := memWrite x.data p.addr ((writeData p).take (0x200 - p.addr)) }) s
     if p.addr + byteCount p = 0x210 then
       modStaging g (fun x => { x with command := stagedCommand p, busy := isCommit (stagedCommand p), held := false }) u
     else u) := by
  have hfree' : ((modStaging g (fun x => { x with
      data := memWrite x.data p.addr ((writeData p).take (0x200 - p.addr)) }) s).gal g).staging.busy = false := by
    simpa [modStaging] using hfree
  have h := holdsCommand_iff hpos ha hn
  unfold stagedCommand at h ⊢
  simp only [stageWrite, hfree, Bool.false_eq_true, if_false, h, stageCommand, hfree']

theorem stageWrite_busy {s : State} {g : Nat} (hbusy : (s.gal g).staging.busy = true) : stageWrite g p s =
    if p.addr + byteCount p = 0x210 ∧ (byteAt (stagedCommand p) 6).getLsbD 0 = true then
      s.frameRefused g (leAt (stagedCommand p) 4 2) (leAt (stagedCommand p) 0 4) stBusy true
    else s := by
  have h := holdsCommand_iff hpos ha hn
  rw [← refuseCommit_eq hbusy, ← isCommit_eq]
  unfold stagedCommand at h ⊢
  simp only [stageWrite, hbusy, if_true, h, stageCommand]
  by_cases hc : p.addr + byteCount p = 0x210 <;> simp [hc]

end

/-- The frame bytes of a WRITE to a staging area. -/
theorem memByte_staged (m : Memory) (p : Packet) (a : Nat) :
    memByte (memWrite m p.addr ((writeData p).take (0x200 - p.addr))) a =
      if p.addr ≤ a ∧ a < p.addr + byteCount p ∧ a < 0x200 then byteAt (writeData p) (a - p.addr) else memByte m a := by
  rw [memByte_memWrite, List.length_take, length_writeData]
  by_cases h : p.addr ≤ a ∧ a < p.addr + byteCount p ∧ a < 0x200
  · rw [if_pos h, if_pos (by omega), byteAt, byteAt, List.getD, List.getD, List.getElem?_take_of_lt (by omega)]
  · rw [if_neg h, if_neg (by omega)]

theorem serviceKind_taken (s : State) (i : Nat) (f : Flying) (cfa : Nat) : serviceKind (s.taken i f) cfa = serviceKind s cfa := by
  simp only [serviceKind, gal_taken]

theorem card_taken (s : State) (i : Nat) (f : Flying) : (s.taken i f).card = s.card := by
  rw [taken_rest]
  rfl

/-- A WRITE to a free staging area: the frame bytes and, when it holds it, the command. -/
theorem stageWrite_fills {p : Packet} (hpos : 0 < byteCount p) (ha : p.addr % 16 = 0) (hn : p.addr + byteCount p ≤ 0x210)
    {s : State} {g : Nat} (hfree : (s.gal g).staging.busy = false) :
    stageWrite g p s = { s with gals := (stageWrite g p s).gals } ∧ (∀ k, k ≠ g → (stageWrite g p s).gal k = s.gal k) ∧
    (stageWrite g p s).gal g = { s.gal g with staging := { (s.gal g).staging with
      data := ((stageWrite g p s).gal g).staging.data
      command := if p.addr + byteCount p = 0x210 then stagedCommand p else (s.gal g).staging.command
      busy := decide (p.addr + byteCount p = 0x210) && (byteAt (stagedCommand p) 6).getLsbD 0
      held := if p.addr + byteCount p = 0x210 then false else (s.gal g).staging.held } } ∧
    ∀ a, memByte ((stageWrite g p s).gal g).staging.data a =
      if p.addr ≤ a ∧ a < p.addr + byteCount p ∧ a < 0x200 then byteAt (writeData p) (a - p.addr)
      else memByte (s.gal g).staging.data a := by
  rw [stageWrite_free hpos ha hn hfree]
  by_cases hc : p.addr + byteCount p = 0x210
  · simp only [if_pos hc, decide_eq_true hc, Bool.true_and, isCommit_eq]
    refine ⟨rfl, fun k hk => ?_, ?_, fun a => ?_⟩
    · rw [modStaging, State.gal_modGal_ne _ _ _ _ hk, modStaging, State.gal_modGal_ne _ _ _ _ hk]
    · simp [modStaging]
    · simpa [modStaging, hc] using memByte_staged (s.gal g).staging.data p a
  · simp only [if_neg hc, decide_eq_false hc, Bool.false_and]
    refine ⟨rfl, fun k hk => State.gal_modGal_ne _ _ _ _ hk, ?_, fun a => ?_⟩
    · simp [modStaging, ← hfree]
    · simpa [modStaging] using memByte_staged (s.gal g).staging.data p a

/-! ### The commands of the bridge -/

section
variable {s : State} {i : Nat} {f : Flying} (h : s.Arrives i f .keeper) (hsound : f.pkt.poison = false)
include h hsound

theorem exec_icpStageWrite (hcmd : f.pkt.cmd = 0) :
    exec (.icpStageWrite i) s = .next (writeAtKeeper f.pkt (s.taken i f)) := by
  show execIcpStageWrite i s = _
  rw [execIcpStageWrite, arrive_eq h (by simp [hcmd]) (by simp), hsound]
  rfl

theorem exec_icpConfigSubmit (hcmd : f.pkt.cmd = 5) (hroom : s.outstanding 24 0 < 64) :
    exec (.icpConfigSubmit i) s = .next (submitAtKeeper f.pkt (s.taken i f)) := by
  show execIcpConfigSubmit i s = _
  rw [execIcpConfigSubmit, if_neg (Nat.not_le.2 hroom), arrive_eq h (by simp [hcmd]) (by simp), hsound]
  rfl

end

theorem exec_icpCommit {s : State} {g : Nat} (hclk : s.clocked = true) (hbusy : (s.gal g).staging.busy = true)
    (hfree : s.forwarded g = false) (hroom : s.outstanding 24 0 < 64) :
    exec (.icpCommit g) s = .next (forwardFrame g (leAt (s.gal g).staging.command 4 2) (leAt (s.gal g).staging.command 0 4)
      (memRead (s.gal g).staging.data 0 512) none s) := by
  show execIcpCommit g s = _
  simp [execIcpCommit, hclk, hbusy, hfree, Nat.not_le.2 hroom]

theorem submitAtKeeper_own {s : State} {g : Nat} {p : Packet} (hown : p.scard = s.card ∧ targetAt p.sx p.sy p.sport = .gal g) :
    submitAtKeeper p s = if s.kin.writeEn then forwardFrame g 0 (p.addr % 2 ^ 32) p.data (some p) s else s := by
  simp only [submitAtKeeper, writerOf_own hown, packetFrame]
  cases s.kin.writeEn <;> rfl

/-- Settles O22: a WRITE fills the staging area or is refused (`stageWrite_fills`, `stageWrite_busy`), and a committed frame
is refused or leaves (`forwardFrame_refused`, `forwardFrame_sent`). -/
theorem bridgeTakesStagedFrames : Obligations.BridgeTakesStagedFrames := by
  intro s i g f p base x n cmd own self refused sent
  have hcard : base.card = s.card := card_taken s i f
  have hgal : ∀ k, base.gal k = s.gal k := gal_taken s i f
  have hvariant : base.variant = s.variant := variant_taken s i f
  have howns : own → p.scard = base.card ∧ targetAt p.sx p.sy p.sport = .gal g := fun h => by rwa [hcard]
  have hrefused : ∀ {u v : State} {seq cfa st : Nat} {busy : Bool}, (∀ k, u.gal k = s.gal k) →
      u.Refused v x g seq cfa st busy → refused u v seq cfa st busy :=
    fun hu h => ⟨h.rest, fun k hk => (h.others k hk).trans (hu k), h.gal⟩
  have hbase : ∀ seq cfa st busy, base.Refused (base.frameRefused g seq cfa st busy) x g seq cfa st busy := by
    intro seq cfa st busy
    have h := frameRefused_refused base g seq cfa st busy
    rwa [hgal] at h
  refine ⟨fun harrives hcmd hsound => ?_, fun hclk hbusy hfree hroom => ?_, fun harrives hcmd hsound hroom => ?_⟩
  · have hexec := exec_icpStageWrite harrives hsound hcmd
    refine ⟨fun hown hpos ha hn => ?_, fun hno => ?_⟩
    · have hstage : ∀ b, s.kin.writeEn = b → exec (.icpStageWrite i) s = .next (if b then stageWrite g p base else base) := by
        intro b hb
        rw [hexec, writeAtKeeper_staged (howns hown) ha hn, kin_taken, hb]
      refine ⟨fun hoff => hstage false hoff, fun hon hfree => ?_, fun hon hbusy => ?_⟩
      · obtain ⟨hrest, hothers, hg, hbytes⟩ := stageWrite_fills hpos ha hn (s := base) (g := g) (by rw [hgal]; exact hfree)
        rw [hgal] at hg
        simp only [hgal] at hothers hbytes
        exact ⟨_, hstage true hon, hrest, hothers, hg, hbytes⟩
      · have hfull := stageWrite_busy hpos ha hn (s := base) (g := g) (by rw [hgal]; exact hbusy)
        refine ⟨fun hcommit => ⟨_, (hstage true hon).trans (congrArg _ (hfull.trans (if_pos hcommit))),
          hrefused hgal (hbase ..), mesh_frameRefused ..⟩, fun hno => ?_⟩
        exact (hstage true hon).trans (congrArg _ (hfull.trans (if_neg hno)))
    · rw [hexec]
      obtain hforeign | ⟨hown, hbad⟩ := hno
      · rw [writeAtKeeper_foreign (by rwa [hcard])]
      · rw [writeAtKeeper_unmapped (howns hown) hbad]
  · have hexec := exec_icpCommit hclk hbusy hfree hroom
    have hrefuse : ∀ st, (needsAbsent s.variant _ _ = true ∧ st = 0x0D) ∨
        (needsAbsent s.variant _ _ = false ∧ serviceKind s _ = false ∧ st = 0x09) →
        ∃ u, exec (.icpCommit g) s = .next u ∧ refused s u _ _ st false ∧ u.mesh = s.mesh := fun st hst => by
      have hne : st ≠ 0 := by omega
      rw [hexec, forwardFrame_refused hst, icpOutcome_of_refusal hne]
      exact ⟨_, rfl, hrefused (fun _ => rfl) (frameRefused_refused s g _ _ _ _), mesh_frameRefused ..⟩
    exact ⟨fun habsent => hrefuse _ (.inl ⟨habsent, rfl⟩), fun hpresent hkind => hrefuse _ (.inr ⟨hpresent, hkind, rfl⟩),
      fun hpresent hkind => ⟨_, hexec, forwardFrame_sent rfl hpresent hkind _ _⟩⟩
  · have hexec := exec_icpConfigSubmit harrives hsound hcmd hroom
    have hsubmit : own → ∀ b, s.kin.writeEn = b → exec (.icpConfigSubmit i) s =
        .next (if b then forwardFrame g 0 (p.addr % 2 ^ 32) p.data (some p) base else base) := fun hown b hb => by
      rw [hexec, submitAtKeeper_own (howns hown), kin_taken, hb]
    refine ⟨fun hown hoff => hsubmit hown false hoff, fun hown hon => ⟨fun st hst => ?_, fun hpresent hkind => ?_⟩⟩
    · have hne : st ≠ 0 := by omega
      have hst' : (needsAbsent base.variant (p.addr % 2 ^ 32) p.data = true ∧ st = 0x0D) ∨
          (needsAbsent base.variant (p.addr % 2 ^ 32) p.data = false ∧ serviceKind base (p.addr % 2 ^ 32) = false ∧ st = 0x09) := by
        rwa [hvariant, serviceKind_taken]
      have hanswer := (forwardFrame_refused hst' (g := g) 0 (some p)).trans (icpOutcome_of_refusal hne (some p) base)
      rw [hgal] at hanswer
      refine ⟨_, replyTo p 6 st 0 [], (hsubmit hown true hon).trans (congrArg _ hanswer), hrefused hgal ((hbase ..).present _),
        ?_, rfl, rfl, rfl, rfl, rfl, rfl, rfl⟩
      rw [← mesh_frameRefused base g 0 (p.addr % 2 ^ 32) st (s.gal g).staging.busy]
      rfl
    · refine ⟨_, hsubmit hown true hon, forwardFrame_sent hcard ?_ ?_ 0 (some p)⟩
      · rwa [hvariant]
      · rwa [serviceKind_taken]

end Sys2Proof.Machine
end

section
/-!
PROOF of O23 (chapters 21 and 22): configuration frames reach their place.  A port grants the writer that `pickWriter`
names (`portNext_grants`); a CONFIG packet is `configAt`, a CONFIG_WRITE is `configWriteCmd`.
-/

namespace Sys2Proof.Machine

/-! ### The port picks a writer (R389) -/

/-- Writer `w` beats the waiting writers behind it. -/
theorem pickWriter_cons {w : Writer} {post : List Writer}
    (h : ∀ v ∈ post, writerRank v < writerRank w ∨ (writerRank v = writerRank w ∧ v.isSweep = false)) :
    pickWriter (w :: post) = some w := by
  have hmem : ∀ {l : List Writer} {v : Writer}, pickWriter l = some v → v ∈ l := by
    intro l
    induction l with
    | nil => intro v hv; cases hv
    | cons a l ih =>
      intro v hv
      rw [pickWriter] at hv
      cases hl : pickWriter l with
      | none => simp_all
      | some b =>
        have hb := ih hl
        simp only [hl] at hv
        split_ifs at hv <;> simp_all
  rw [pickWriter]
  cases hp : pickWriter post with
  | none => rfl
  | some v =>
    dsimp only
    obtain hlt | ⟨heq, hs⟩ := h v (hmem hp)
    · rw [if_neg (by omega), if_neg (by omega)]
    · rw [if_neg (by omega), if_pos heq.symm, hs, if_neg Bool.false_ne_true]

/-- Writer `w` is picked when it beats those that wait before it and those behind it. -/
theorem pickWriter_eq {w : Writer} {pre post : List Writer}
    (hpre : ∀ v ∈ pre, writerRank v < writerRank w ∨ (writerRank v = writerRank w ∧ w.isSweep = true))
    (hpost : ∀ v ∈ post, writerRank v < writerRank w ∨ (writerRank v = writerRank w ∧ v.isSweep = false)) :
    pickWriter (pre ++ w :: post) = some w := by
  induction pre with
  | nil => exact pickWriter_cons hpost
  | cons a pre ih =>
    rw [List.cons_append, pickWriter, ih fun v hv => hpre v (List.mem_cons_of_mem _ hv)]
    dsimp only
    obtain hlt | ⟨heq, hs⟩ := hpre a List.mem_cons_self
    · rw [if_pos hlt]
    · rw [if_neg (by omega), if_pos heq, if_pos hs]

/-- The port is given to `w`; a sweep that waits gains a rank when `w` is no sweep. -/
def State.givePort (u : State) (k : Nat) (w : Writer) : State :=
  u.modGal k (fun x => { x with
    portBusy := some w
    portWait := (x.portWait.erase w).map (fun v =>
      match v with | .sweep n => if w.isSweep = true then v else .sweep (n + 1) | _ => v) })

/-- What a grant does: a lamp or mesh frame is written and answered. -/
theorem grantPort_eq (k : Nat) (w : Writer) (u : State) : grantPort k w u = (match w with
    | .lamp c => respond c 0 [] (serviceWrite (leAt c.body 0 4) (c.body.drop 4) (u.givePort k w))
    | .icp p => replyData p 0 [] (serviceWrite (p.addr % 2 ^ 32) p.data (u.givePort k w))
    | _ => u.givePort k w) := by
  cases w <;> rfl

theorem fillingOf_congr {x y : Gallery} (h : x.planes = y.planes) (c : Nat) : x.fillingOf c = y.fillingOf c := by
  unfold Gallery.fillingOf Gallery.plane
  rw [h]

/-- Whether a frame's context is being filled does not turn on who waits for a port. -/
theorem canGrant_modGal (s : State) (k : Nat) (f : Gallery → Gallery) (hf : ∀ x, (f x).planes = x.planes) (w : Writer) :
    (s.modGal k f).canGrant w = s.canGrant w := by
  have hplanes : ∀ g, ((s.modGal k f).gal g).planes = (s.gal g).planes := by
    intro g
    by_cases h : g = k
    · subst h; rw [State.gal_modGal_same, hf]
    · rw [State.gal_modGal_ne _ _ _ _ h]
  have hfills : ∀ cfa, (s.modGal k f).fillBlocks cfa = s.fillBlocks cfa := by
    intro cfa
    rw [State.fillBlocks, State.fillBlocks, fillingOf_congr (hplanes _)]
  cases w <;> simp only [State.canGrant, hfills]

theorem portNext_busy {s : State} {k : Nat} (h : (s.gal k).portBusy.isSome = true) : portNext k s = s := if_pos h

theorem portNext_grants {s : State} {k : Nat} {w : Writer} (hfree : (s.gal k).portBusy = none)
    (hpick : pickWriter ((s.gal k).portWait.filter s.canGrant) = some w) : portNext k s = grantPort k w s := by
  simp [portNext, hfree, hpick]

/-- The writer `w` waits at the port. -/
def State.askedPort (u : State) (k : Nat) (w : Writer) : State := u.modGal k (fun x => { x with portWait := x.portWait ++ [w] })

/-- A writer that can be granted finds the port free and nobody waiting. -/
theorem askPort_free {s : State} {k : Nat} {w : Writer} (hfree : (s.gal k).portBusy = none) (hwait : (s.gal k).portWait = [])
    (hcan : s.canGrant w = true) : askPort k w s = grantPort k w (s.askedPort k w) := by
  have hnew : ((s.gal k).portWait.contains w || decide ((s.gal k).portBusy = some w)) = false := by simp [hfree, hwait]
  rw [askPort, hnew, if_neg Bool.false_ne_true]
  refine portNext_grants ?_ ?_
  · rw [State.gal_modGal_same]; exact hfree
  · rw [State.gal_modGal_same]
    have hcan' : (s.modGal k (fun x => { x with portWait := x.portWait ++ [w] })).canGrant w = true := by
      rw [canGrant_modGal s k (fun x => { x with portWait := x.portWait ++ [w] }) (fun _ => rfl)]; exact hcan
    simp only [hwait, List.nil_append, List.filter_cons, hcan', if_true, List.filter_nil]
    rfl

theorem askPort_waits {s : State} {k : Nat} {w : Writer} (hbusy : (s.gal k).portBusy.isSome = true)
    (hnew : w ∉ (s.gal k).portWait) (hother : (s.gal k).portBusy ≠ some w) : askPort k w s = s.askedPort k w := by
  have hask : ((s.gal k).portWait.contains w || decide ((s.gal k).portBusy = some w)) = false := by simp [hnew, hother]
  rw [askPort, hask, if_neg Bool.false_ne_true]
  exact portNext_busy (by rw [State.gal_modGal_same]; exact hbusy)

theorem canGrant_icp (s : State) (p : Packet) : s.canGrant (.icp p) = !s.fillBlocks (p.addr % 2 ^ 32) := rfl

theorem canGrant_lamp (s : State) (c : Cmd) : s.canGrant (.lamp c) = !s.fillBlocks (leAt c.body 0 4) := rfl

/-- A boundary frees the port and grants the writer that is picked among those that can be granted. -/
theorem freePort_eq (s : State) (k : Nat) :
    let u := s.modGal k (fun x => { x with portBusy := none })
    freePort k s = match pickWriter ((s.gal k).portWait.filter s.canGrant) with
      | some w => grantPort k w u
      | none => u := by
  intro u
  have hgal : u.gal k = { s.gal k with portBusy := none } := State.gal_modGal_same ..
  have hcan : u.canGrant = s.canGrant := funext fun w => 
    canGrant_modGal s k (fun x => { x with portBusy := none }) (fun _ => rfl) w
  rw [freePort, portNext, hgal, hcan]
  rfl

/-! ### A CONFIG packet at its target (R359, R367, R368) -/

/-- What a CONFIG packet does at a target other than the bridge. -/
def configTo (t : Target) (p : Packet) (s : State) : State :=
  match t with
  | .gal _ => configAt t p s
  | .tinder => configAt t p s
  | _ => replyError p stNoTarget s

theorem exec_meshConfig {s : State} {i : Nat} {f : Flying} {t : Target} (h : s.Arrives i f t) (hcmd : f.pkt.cmd = 5)
    (hsound : f.pkt.poison = false) (ht : t ≠ .keeper) :
    exec (.meshConfig i) s = .next (configTo t f.pkt (s.taken i f)) := by
  show execMeshConfig i s = _
  rw [execMeshConfig, arrive_eq h (by simp [hcmd]) (by simpa using ht), hsound, Bool.false_and, if_neg Bool.false_ne_true]
  rfl

/-- The packet comes from this card's bridge, and the target is the one that its address names. -/
def State.bridgeFrame (s : State) (t : Target) (p : Packet) : Prop :=
  (p.scard = s.card ∧ p.sx = 0 ∧ p.sy = 4 ∧ p.sport = 0) ∧
    t = (if cfaKind (p.addr % 2 ^ 32) = 3 then .tinder else .gal (cfaGal (p.addr % 2 ^ 32)))

section
variable {s : State} {t : Target} {p : Packet}

theorem configAt_elsewhere (h : ¬ s.bridgeFrame t p) : configAt t p s = replyError p stNoTarget s := by
  rw [configAt, if_pos]
  by_contra hno
  refine h ?_
  simp only [State.isOwn, packetFrame, frameTarget, Bool.or_eq_true, Bool.not_eq_true', decide_eq_true_eq, not_or, Bool.not_eq_false,
    Bool.and_eq_true] at hno
  exact ⟨hno.1, not_not.1 (mt (decide_eq_true (p := t ≠ _)) hno.2)⟩

theorem configAt_mine (h : s.bridgeFrame t p) : configAt t p s =
    if needsAbsent s.variant (p.addr % 2 ^ 32) p.data then replyError p stAbsentUnit s
    else if !serviceKind s (p.addr % 2 ^ 32) || !contentOk (p.addr % 2 ^ 32) p.data then replyError p stRange s
    else if selfTargeted p.code (p.addr % 2 ^ 32) then holdFrame (cfaGal (p.addr % 2 ^ 32)) p s
    else askPort (cfaPort (p.addr % 2 ^ 32)) (.icp p) s := by
  obtain ⟨⟨hcard, hx, hy, hport⟩, ht⟩ := h
  rw [configAt, if_neg]
  · rfl
  · have hplace : decide (t ≠ frameTarget (packetFrame p).1) = false := decide_eq_false (fun h => h ht)
    rw [hplace]
    simp [State.isOwn, hcard, hx, hy, hport]

theorem configTo_elsewhere (h : ¬ s.bridgeFrame t p) : configTo t p s = replyError p stNoTarget s := by
  cases t with
  | gal g => exact configAt_elsewhere h
  | tinder => exact configAt_elsewhere h
  | _ => rfl

theorem configTo_mine (h : s.bridgeFrame t p) : configTo t p s = configAt t p s := by
  rw [h.2]
  split <;> rfl

end

/-- A frame that passes the checks of R365. -/
theorem serviceStatus_eq_zero {s : State} {cfa : Nat} {d : List Byte} (h : serviceStatus s cfa d = 0) :
    needsAbsent s.variant cfa d = false ∧ serviceKind s cfa = true ∧ contentOk cfa d = true := by
  unfold serviceStatus at h
  split_ifs at h with h1 h2 h3 <;> simp_all [stAbsentUnit, stRange]

theorem fillBlocks_taken (s : State) (i : Nat) (f : Flying) (cfa : Nat) : (s.taken i f).fillBlocks cfa = s.fillBlocks cfa := by
  simp only [State.fillBlocks, gal_taken]

/-- A frame that passes the checks of R365 at its target. -/
theorem configAt_passes {s : State} {t : Target} {p : Packet} (h : s.bridgeFrame t p)
    (hok : serviceStatus s (p.addr % 2 ^ 32) p.data = 0) : configAt t p s =
      if selfTargeted p.code (p.addr % 2 ^ 32) then holdFrame (cfaGal (p.addr % 2 ^ 32)) p s
      else askPort (cfaPort (p.addr % 2 ^ 32)) (.icp p) s := by
  obtain ⟨habsent, hkind, hcontent⟩ := serviceStatus_eq_zero hok
  rw [configAt_mine h, habsent, hkind, hcontent]
  rfl

/-! ### CONFIG_WRITE (R365, R370) -/

theorem configWriteCmd_absent {s : State} {c : Cmd} (h : needsAbsent s.variant (leAt c.body 0 4) (c.body.drop 4) = true) :
    configWriteCmd c s = respond c 0x0D [] s := by
  simp [configWriteCmd, cmdFrame, h, stAbsentUnit, stSuccess]

section
variable {s : State} {c : Cmd} (hpresent : needsAbsent s.variant (leAt c.body 0 4) (c.body.drop 4) = false)
include hpresent

theorem configWriteCmd_badKind (h : cfaOk (leAt c.body 0 4) = false ∨ cfaKind (leAt c.body 0 4) = 2 ∨ cfaKind (leAt c.body 0 4) = 4) :
    configWriteCmd c s = respond c 0x09 [] s := by
  have hbad : (!cfaOk (leAt c.body 0 4) || decide (cfaKind (leAt c.body 0 4) = 2 ∨ cfaKind (leAt c.body 0 4) = 4)) = true := by
    obtain h | h := h <;> simp [h]
  unfold configWriteCmd cmdFrame
  dsimp only
  rw [hpresent, hbad]
  rfl

variable (hok : cfaOk (leAt c.body 0 4) = true) (hk2 : cfaKind (leAt c.body 0 4) ≠ 2) (hk4 : cfaKind (leAt c.body 0 4) ≠ 4)
include hok hk2 hk4

theorem configWriteCmd_asleep (h : s.cfgAsleep (leAt c.body 0 4) = true) : configWriteCmd c s = respond c 0x21 [] s := by
  simp [configWriteCmd, cmdFrame, hpresent, hok, hk2, hk4, h, stAsleep, stSuccess]

variable (hawake : s.cfgAsleep (leAt c.body 0 4) = false)
include hawake

theorem configWriteCmd_range (h : serviceKind s (leAt c.body 0 4) = false ∨ contentOk (leAt c.body 0 4) (c.body.drop 4) = false) :
    configWriteCmd c s = respond c 0x09 [] s := by
  have hst : serviceStatus s (leAt c.body 0 4) (c.body.drop 4) = stRange := by
    obtain h | h := h <;> simp [serviceStatus, hpresent, h]
  simp [configWriteCmd, cmdFrame, hpresent, hok, hk2, hk4, hawake, hst, stRange, stSuccess]

theorem configWriteCmd_asks (hkind : serviceKind s (leAt c.body 0 4) = true) (hcontent : contentOk (leAt c.body 0 4) (c.body.drop 4) = true) :
    configWriteCmd c s = askPort (cfaPort (leAt c.body 0 4)) (.lamp c) (startCmd c s) := by
  simp [configWriteCmd, cmdFrame, hpresent, hok, hk2, hk4, hawake, serviceStatus, hkind, hcontent]

end

/-- The domain of a configuration port sleeps (R370): written out for a frame whose unit is present. -/
theorem cfgAsleep_iff {s : State} {cfa : Nat} {d : List Byte} (hpresent : needsAbsent s.variant cfa d = false) :
    s.cfgAsleep cfa = true ↔ if cfaKind cfa = 3 then (s.dom 24).st ≠ .on ∨ (s.dom 24).rekindling = true
      else (s.dom (cfaGal cfa)).st = .off ∨ (s.dom (cfaGal cfa)).rekindling = true := by
  unfold State.cfgAsleep
  split
  · next hk =>
    have hhas : s.variant.hasTinder = true := by simpa [needsAbsent, hk] using hpresent
    simp [State.tndOn, hhas]
  · simp

/-- Settles O23: `configTo` with its cases, `portNext_grants` at a boundary, and `configWriteCmd` with its cases. -/
theorem configurationFramesReachTheirPlace : Obligations.ConfigurationFramesReachTheirPlace := by
  refine ⟨?_, fun s g w pre post c => ⟨?_, ?_⟩⟩
  · intro s i g f t p base cfa port bridge mine self grant asks answer harrives hcmd hsound ht
    have hexec := exec_meshConfig harrives hcmd hsound ht
    have hcard : base.card = s.card := card_taken s i f
    have hgal : ∀ k, base.gal k = s.gal k := gal_taken s i f
    have hmine : mine ↔ base.bridgeFrame t p := by
      simp only [State.bridgeFrame, hcard]
      rfl
    have hanswer : ∀ (u : State) (st : Nat), answer u (replyError p st u) 6 st := fun u st =>
      ⟨replyTo p 6 st 0 [], rfl, rfl, rfl, rfl, rfl, rfl, rfl, rfl, rfl⟩
    have hdata : ∀ u : State, answer u (replyData p 0 [] u) 2 0 := fun u =>
      ⟨replyTo p 2 0 0 [], rfl, rfl, rfl, rfl, rfl, rfl, rfl, rfl, rfl⟩
    have hkind : serviceKind base cfa = serviceKind s cfa := serviceKind_taken s i f cfa
    have hvariant : base.variant = s.variant := variant_taken s i f
    refine ⟨fun hno => ?_, fun hm => ?_⟩
    · rw [hexec, configTo_elsewhere (mt hmine.2 hno)]
      exact ⟨_, rfl, hanswer ..⟩
    · have hm' := hmine.1 hm
      rw [hexec, configTo_mine hm']
      refine ⟨fun habsent => ?_, fun hpresent hbad => ?_, fun hok => ?_⟩
      · rw [configAt_mine hm', if_pos (by rwa [hvariant])]
        exact ⟨_, rfl, hanswer ..⟩
      · have hrange : (!serviceKind base cfa || !contentOk cfa p.data) = true := by
          rw [hkind]
          obtain h | h := hbad <;> simp [h]
        rw [configAt_mine hm', if_neg (by rw [hvariant]; exact Bool.eq_false_iff.1 hpresent), if_pos hrange]
        exact ⟨_, rfl, hanswer ..⟩
      · have hok' : serviceStatus base cfa p.data = 0 := by rw [serviceStatus, hvariant, hkind]; exact hok
        rw [configAt_passes hm' hok']
        refine ⟨fun hself hfull => ?_, fun hself hroom => ?_, fun hself hfree hwait hfill => ?_, fun hself hbusy hnew hother => ?_⟩
        · rw [if_pos ((selfTargeted_eq ..).2 hself), holdFrame, if_pos (by rwa [hgal])]
          exact ⟨_, rfl, hanswer ..⟩
        · rw [if_pos ((selfTargeted_eq ..).2 hself), holdFrame, if_neg (by rw [hgal]; exact Nat.not_le.2 hroom)]
          exact ⟨_, rfl, hdata _⟩
        · rw [if_neg (mt (selfTargeted_eq ..).1 hself), askPort_free (by rw [hgal]; exact hfree) (by rw [hgal]; exact hwait)
            ((canGrant_icp ..).trans (by rw [show base.fillBlocks (p.addr % 2 ^ 32) = false from hfill]; rfl)), grantPort_eq]
          exact ⟨_, rfl, hdata _⟩
        · rw [if_neg (mt (selfTargeted_eq ..).1 hself), askPort_waits (by rw [hgal]; exact hbusy) (by rw [hgal]; exact hnew)
            (by rw [hgal]; exact hother)]
          rfl
  · intro hclk hg
    have hexec : exec (.configPortBoundary g) s = .next (freePort g s) := by
      show execConfigPortBoundary g s = _
      simp [execConfigPortBoundary, hclk, hg]
    rw [hexec, freePort_eq]
    refine ⟨fun hnone => ?_, fun hwait hcan hpre hpost => ?_⟩
    · have hempty : (s.gal g).portWait.filter s.canGrant = [] := List.filter_eq_nil_iff.2 fun v hv => by simp [hnone v hv]
      rw [hempty]
      rfl
    · have hfilter : (s.gal g).portWait.filter s.canGrant = pre.filter s.canGrant ++ w :: post.filter s.canGrant := by
        rw [hwait, List.filter_append, List.filter_cons, if_pos hcan]
      rw [hfilter, pickWriter_eq (fun v hv => hpre v (List.mem_of_mem_filter hv) (List.of_mem_filter hv))
        (fun v hv => hpost v (List.mem_of_mem_filter hv) (List.of_mem_filter hv))]
      dsimp only
      rw [grantPort_eq]
      cases w <;> rfl
  · intro cfa d port sleeps hstarts
    have hexec : exec (.configWrite c.via) s = .next (configWriteCmd c s) := congrArg _ (runCmd_eq hstarts _)
    rw [hexec]
    refine ⟨fun habsent => by rw [configWriteCmd_absent habsent], fun hpresent => ⟨fun hbad => ?_, fun hok hk2 hk4 => ?_⟩⟩
    · rw [configWriteCmd_badKind hpresent hbad]
    · have hsleeps : s.cfgAsleep cfa = true ↔ sleeps := cfgAsleep_iff hpresent
      have hawake : ¬ sleeps → s.cfgAsleep cfa = false := fun h => Bool.eq_false_iff.2 (mt hsleeps.1 h)
      refine ⟨fun h => ?_, fun h hbad => ?_, fun h hkind hcontent hfill hfree hwait => ?_⟩
      · rw [configWriteCmd_asleep hpresent hok hk2 hk4 (hsleeps.2 h)]
      · rw [configWriteCmd_range hpresent hok hk2 hk4 (hawake h) hbad]
      · rw [configWriteCmd_asks hpresent hok hk2 hk4 (hawake h) hkind hcontent,
          askPort_free (s := startCmd c s) (k := cfaPort (leAt c.body 0 4)) hfree hwait
            ((canGrant_lamp ..).trans (by rw [show (startCmd c s).fillBlocks (leAt c.body 0 4) = false from hfill]; rfl)),
          grantPort_eq]
        rfl

end Sys2Proof.Machine
end

section
/-!
PROOF of O24 (chapter 13): flows reserve slots and their packets leave in a window.  `flowCheck` is said check by check: the
windows of one flow overlap (`nodup_windowSlots_iff`), two flows meet in a slot of an output (`slotsMeet_iff`).
-/

namespace Sys2Proof.Machine

/-! ### Windows (R230) -/

/-- A flow has one window or two, each starting in the slot frame and shorter than it. -/
theorem flowWindows_cases (s : State) (f : Nat) :
    ∃ w, w.1 < 64 ∧ w.2 < 64 ∧ (s.flowWindows f = [w] ∨ ∃ w', w'.1 < 64 ∧ w'.2 < 64 ∧ s.flowWindows f = [w, w']) := by
  have hfld : ∀ (v : Word) (hi lo : Nat), hi + 1 - lo ≤ 6 → fld v hi lo < 64 := by
    intro v hi lo h
    have : fld v hi lo < 2 ^ (hi + 1 - lo) := Nat.mod_lt _ (Nat.two_pow_pos _)
    calc fld v hi lo < 2 ^ (hi + 1 - lo) := this
      _ ≤ 2 ^ 6 := Nat.pow_le_pow_right (by omega) h
  let v := s.par (flowP f 1)
  refine ⟨(fld v 5 0, fld v 10 6), hfld _ _ _ (by omega), hfld _ _ _ (by omega), ?_⟩
  by_cases h : fld v 26 22 = 0
  · left
    simp only [State.flowWindows]
    rw [if_pos h]
  · right
    refine ⟨(fld v 21 16, fld v 26 22), hfld _ _ _ (by omega), hfld _ _ _ (by omega), ?_⟩
    simp only [State.flowWindows]
    rw [if_neg h]

/-- The slots of one window at output `k`. -/
def slotsOf (w : Nat × Nat) (k : Nat) : List Nat := (List.range w.2).map (fun i => (w.1 + 3 * k + i) % 64)

theorem nodup_slotsOf {w : Nat × Nat} (h : w.2 < 64) (k : Nat) : (slotsOf w k).Nodup := by
  refine List.Nodup.map_on (fun i hi j hj hij => ?_) List.nodup_range
  rw [List.mem_range] at hi hj
  omega

theorem mem_slotsOf {w : Nat × Nat} {k t : Nat} : t ∈ slotsOf w k ↔ ∃ i < w.2, (w.1 + 3 * k + i) % 64 = t := by
  simp [slotsOf]

theorem mem_windowSlots {ws : List (Nat × Nat)} {k t : Nat} :
    t ∈ windowSlots ws k ↔ ∃ w ∈ ws, ∃ i < w.2, (w.1 + 3 * k + i) % 64 = t := by
  simp [windowSlots]

/-- The windows of a flow own no slot twice unless its two windows overlap. -/
theorem nodup_windowSlots_iff (s : State) (f : Nat) : (windowSlots (s.flowWindows f) 0).Nodup ↔
    ¬ ∃ w w', s.flowWindows f = [w, w'] ∧ ∃ i < w.2, ∃ j < w'.2, (w.1 + i) % 64 = (w'.1 + j) % 64 := by
  obtain ⟨w, -, hlen, hone | ⟨w', -, hlen', htwo⟩⟩ := flowWindows_cases s f
  · have hslots : windowSlots [w] 0 = slotsOf w 0 := by simp [windowSlots, slotsOf]
    simp [hone, hslots, nodup_slotsOf hlen]
  · have hslots : windowSlots [w, w'] 0 = slotsOf w 0 ++ slotsOf w' 0 := by simp [windowSlots, slotsOf]
    have hpair : (∃ u u', s.flowWindows f = [u, u'] ∧ ∃ i < u.2, ∃ j < u'.2, (u.1 + i) % 64 = (u'.1 + j) % 64) ↔
        ∃ i < w.2, ∃ j < w'.2, (w.1 + i) % 64 = (w'.1 + j) % 64 := by
      constructor
      · rintro ⟨u, u', h, hmeet⟩
        rw [htwo] at h
        cases h
        exact hmeet
      · exact fun hmeet => ⟨w, w', htwo, hmeet⟩
    rw [htwo, hslots, List.nodup_append', List.disjoint_left, ← htwo, hpair]
    simp only [nodup_slotsOf hlen, nodup_slotsOf hlen', true_and, mem_slotsOf, Nat.mul_zero, Nat.add_zero]
    constructor
    · rintro h ⟨i, hi, j, hj, he⟩
      exact h ⟨i, hi, he⟩ ⟨j, hj, rfl⟩
    · rintro h t ⟨i, hi, rfl⟩ ⟨j, hj, he⟩
      exact h ⟨i, hi, j, hj, he.symm⟩

/-! ### The checks of a commit (R231) -/

/-- The ends or the windows of the flow are wrong. -/
def State.flowWrong (s : State) (f : Nat) : Prop :=
  let a := s.flowSrc f
  let b := s.flowDst f
  targetAt a.1 a.2.1 a.2.2 = .nothing ∨ targetAt b.1 b.2.1 b.2.2 = .nothing ∨ a = b ∨
    (∃ w ∈ s.flowWindows f, w.2 = 0 ∨ 17 < w.2) ∨
    (∃ w w', s.flowWindows f = [w, w'] ∧ ∃ i < w.2, ∃ j < w'.2, (w.1 + i) % 64 = (w'.1 + j) % 64)

theorem flowWrong_iff (s : State) (f : Nat) : (decide (targetAt (s.flowSrc f).1 (s.flowSrc f).2.1 (s.flowSrc f).2.2 = .nothing) ||
    decide (targetAt (s.flowDst f).1 (s.flowDst f).2.1 (s.flowDst f).2.2 = .nothing) ||
    (s.flowWindows f).any (fun w => decide (w.2 < 1 ∨ 17 < w.2)) || !decide (windowSlots (s.flowWindows f) 0).Nodup ||
    decide (s.flowSrc f = s.flowDst f)) = true ↔ s.flowWrong f := by
  have hany : (s.flowWindows f).any (fun w => decide (w.2 < 1 ∨ 17 < w.2)) = true ↔
      ∃ w ∈ s.flowWindows f, w.2 = 0 ∨ 17 < w.2 := by simp
  have hnodup : (!decide (windowSlots (s.flowWindows f) 0).Nodup) = true ↔
      ∃ w w', s.flowWindows f = [w, w'] ∧ ∃ i < w.2, ∃ j < w'.2, (w.1 + i) % 64 = (w'.1 + j) % 64 := by
    rw [Bool.not_eq_true', decide_eq_false_iff_not, nodup_windowSlots_iff, not_not]
  have horder : ∀ A B C D E : Prop, ((((A ∨ B) ∨ C) ∨ D) ∨ E) ↔ (A ∨ B ∨ E ∨ C ∨ D) := by tauto
  rw [Bool.or_eq_true, Bool.or_eq_true, Bool.or_eq_true, Bool.or_eq_true, hany, hnodup, decide_eq_true_eq, decide_eq_true_eq,
    decide_eq_true_eq]
  exact horder _ _ _ _ _

theorem absentAt_iff (s : State) (e : Nat × Nat × Nat) : s.absentAt e.1 e.2.1 e.2.2 = true ↔
    (∃ g, targetAt e.1 e.2.1 e.2.2 = .gal g ∧ s.variant.hasGal g = false) ∨
      (∃ p, targetAt e.1 e.2.1 e.2.2 = .port p ∧ s.variant.hasPort p = false) := by
  unfold State.absentAt
  cases targetAt e.1 e.2.1 e.2.2 <;> simp

theorem deadAt_iff (s : State) (e : Nat × Nat × Nat) : s.deadAt e.1 e.2.1 e.2.2 = true ↔
    (∃ g, targetAt e.1 e.2.1 e.2.2 = .gal g ∧ s.isDead g = true) ∨
      (∃ p, targetAt e.1 e.2.1 e.2.2 = .port p ∧ s.isDead (16 + p) = true) := by
  unfold State.deadAt
  cases targetAt e.1 e.2.1 e.2.2 <;> simp

/-- Two flows own a slot of the same output. -/
def State.slotsMeet (s : State) (e f : Nat) : Prop :=
  ∃ k l o, (s.flowOutputs e)[k]? = some o ∧ (s.flowOutputs f)[l]? = some o ∧
    ∃ w ∈ s.flowWindows e, ∃ i < w.2, ∃ w' ∈ s.flowWindows f, ∃ j < w'.2, (w.1 + 3 * k + i) % 64 = (w'.1 + 3 * l + j) % 64

theorem mem_flowSlots {s : State} {f : Nat} {o : Nat × Nat} {t : Nat} : (o, t) ∈ s.flowSlots f ↔
    ∃ k, (s.flowOutputs f)[k]? = some o ∧ ∃ w ∈ s.flowWindows f, ∃ i < w.2, (w.1 + 3 * k + i) % 64 = t := by
  simp only [State.flowSlots, List.mem_flatMap, List.mem_map, List.mem_zipIdx_iff_getElem?]
  constructor
  · rintro ⟨⟨o', k⟩, hk, t', ht', h⟩
    cases h
    exact ⟨k, hk, mem_windowSlots.1 ht'⟩
  · rintro ⟨k, hk, ht⟩
    exact ⟨(o, k), hk, t, mem_windowSlots.2 ht, rfl⟩

theorem slotsMeet_iff (s : State) (e f : Nat) :
    (s.flowSlots e).any (fun t => (s.flowSlots f).contains t) = true ↔ s.slotsMeet e f := by
  simp only [List.any_eq_true, List.contains_iff_mem]
  constructor
  · rintro ⟨⟨o, t⟩, he, hf⟩
    obtain ⟨k, hk, w, hw, i, hi, rfl⟩ := mem_flowSlots.1 he
    obtain ⟨l, hl, w', hw', j, hj, hij⟩ := mem_flowSlots.1 hf
    exact ⟨k, l, o, hk, hl, w, hw, i, hi, w', hw', j, hj, hij.symm⟩
  · rintro ⟨k, l, o, hk, hl, w, hw, i, hi, w', hw', j, hj, hij⟩
    exact ⟨(o, _), mem_flowSlots.2 ⟨k, hk, w, hw, i, hi, rfl⟩, mem_flowSlots.2 ⟨l, hl, w', hw', j, hj, hij.symm⟩⟩

theorem clash_iff (s : State) (f : Nat) : (List.range 128).any (fun e =>
      decide (e ≠ f) && s.flowActive e && (s.flowSlots e).any (fun t => (s.flowSlots f).contains t)) = true ↔
    ∃ e < 128, e ≠ f ∧ s.flowActive e = true ∧ s.slotsMeet e f := by
  rw [List.any_eq_true]
  refine exists_congr fun e => ?_
  rw [List.mem_range, Bool.and_eq_true, Bool.and_eq_true, decide_eq_true_eq, slotsMeet_iff, and_assoc]

/-! ### NOC_FLOW_CTRL, a host write -/

section
variable {s : State} {f : Nat} {v : Word} (hf : f < 128) (hw : s.Writes (0x3102 + 4 * f))
include hf hw

theorem exec_flowCtrl (act : State → Nat × State) : hostEntry (flowP f 2) act s = (act s).2.ended (act s).1 := by
  have hn : flowP f 2 = 0x3102 + 4 * f := by unfold flowP; omega
  rw [hn]
  exact hostEntry_eq hw act

theorem exec_flowCommit (hv : v.getLsbD 0 = true) : exec (.flowCommit f v) s =
    .next (if s.flowOn f then s.ended stSuccess
      else (s.putPar (0x3102 + 4 * f) (if s.flowCheck f = 0 then 3 else wd (flag (s.flowActive f) 1 + 256 * s.flowCheck f))).ended
        (s.flowCheck f)) := by
  have hn : flowP f 2 = 0x3102 + 4 * f := by unfold flowP; omega
  show execFlowCommit f v s = _
  rw [execFlowCommit, hv, decide_eq_true hf, Bool.true_and, if_pos rfl, exec_flowCtrl hf hw, ← hn]
  unfold writeFlowCtrl
  rw [if_pos hv]
  split <;> rfl

theorem exec_flowRelease (hv : v.getLsbD 0 = false) : exec (.flowRelease f v) s =
    .next (if s.flowOn f then (s.putPar (0x3102 + 4 * f) (s.par (0x3102 + 4 * f) &&& ~~~1#32)).ended stSuccess
      else s.ended stSuccess) := by
  have hn : flowP f 2 = 0x3102 + 4 * f := by unfold flowP; omega
  show execFlowRelease f v s = _
  rw [execFlowRelease, hv, decide_eq_true hf, Bool.and_true, Bool.not_false, if_pos rfl, exec_flowCtrl hf hw, ← hn]
  unfold writeFlowCtrl
  rw [if_neg (Bool.eq_false_iff.1 hv)]
  split <;> rfl

end

theorem flowCheck_wrong {s : State} {f : Nat} (wrong : s.flowWrong f) : s.flowCheck f = 0x09 := by
  rw [State.flowCheck, if_pos ((flowWrong_iff s f).2 wrong)]
  rfl

/-- Some end of the flow is absent. -/
def State.endAbsent (s : State) (f : Nat) : Bool :=
  s.absentAt (s.flowSrc f).1 (s.flowSrc f).2.1 (s.flowSrc f).2.2 || s.absentAt (s.flowDst f).1 (s.flowDst f).2.1 (s.flowDst f).2.2

/-- Some end of the flow belongs to a dead unit. -/
def State.endDead (s : State) (f : Nat) : Bool :=
  s.deadAt (s.flowSrc f).1 (s.flowSrc f).2.1 (s.flowSrc f).2.2 || s.deadAt (s.flowDst f).1 (s.flowDst f).2.1 (s.flowDst f).2.2

/-- The checks after the first, in their order. -/
theorem flowCheck_right {s : State} {f : Nat} (right : ¬ s.flowWrong f) : s.flowCheck f =
    if s.endAbsent f then stAbsent else if s.endDead f then stDead
    else if (List.range 128).any (fun e =>
      decide (e ≠ f) && s.flowActive e && (s.flowSlots e).any (fun t => (s.flowSlots f).contains t)) then stConflict
    else stSuccess := by
  rw [State.flowCheck, if_neg (mt (flowWrong_iff s f).1 right)]
  rfl

section
variable {s : State} {f : Nat} {v : Word} (hf : f < 128) (hw : s.Writes (0x3102 + 4 * f)) (hv : v.getLsbD 0 = true)
  (hoff : s.flowOn f = false)
include hf hw hv hoff

/-- A commit that a check refuses leaves the flow disabled, with its status recorded. -/
theorem exec_flowCommit_refused {st : Nat} (hst : s.flowCheck f = st) (hne : st ≠ 0) : exec (.flowCommit f v) s =
    .next ((s.putPar (0x3102 + 4 * f) (wd ((if s.flowActive f = true then 2 else 0) + 256 * st))).ended st) := by
  rw [exec_flowCommit hf hw hv, hoff, if_neg Bool.false_ne_true, hst, if_neg hne]
  rfl

theorem exec_flowCommit_accepted (hst : s.flowCheck f = 0) :
    exec (.flowCommit f v) s = .next ((s.putPar (0x3102 + 4 * f) 3).ended 0) := by
  rw [exec_flowCommit hf hw hv, hoff, if_neg Bool.false_ne_true, hst, if_pos rfl]

end

/-! ### A packet in its window (R232, R233) -/

theorem untilWindow_eq_zero {s : State} {w : Nat × Nat} (h : w.1 < 64) :
    s.untilWindow w = 0 ↔ w.1 = s.clk.tick.toNat % 64 := by
  unfold State.untilWindow
  omega

theorem start_lt_of_mem {s : State} {f : Nat} {w : Nat × Nat} (h : w ∈ s.flowWindows f) : w.1 < 64 := by
  obtain ⟨u, hu, -, hone | ⟨u', hu', -, htwo⟩⟩ := flowWindows_cases s f
  · rw [hone, List.mem_singleton] at h
    exact h ▸ hu
  · rw [htwo] at h
    simp only [List.mem_cons, List.not_mem_nil, or_false] at h
    obtain rfl | rfl := h
    · exact hu
    · exact hu'

theorem find_window (s : State) (f : Nat) : (s.flowWindows f).find? (fun w => decide (s.untilWindow w = 0)) =
    (s.flowWindows f).find? (fun w => decide (w.1 = s.clk.tick.toNat % 64)) :=
  List.find?_congr fun w hw => decide_eq_decide.2 (untilWindow_eq_zero (start_lt_of_mem hw))

/-- The packet at place `i` of those that wait leaves as best effort, and is counted as not conforming. -/
def State.leavesBestEffort (s : State) (i : Nat) (f : Flying) : State :=
  ({ s with mesh := { s.mesh with
    gtWait := s.mesh.gtWait.eraseIdx i
    flight := s.mesh.flight ++ [{ f with pkt := { f.pkt with gt := false }, late := true }] } } : State).count 0x3026 1

theorem exec_gtWindowSend {s : State} {i : Nat} {f : Flying} (hclk : s.clocked = true) (hhere : s.mesh.gtWait[i]? = some f)
    (hfirst : ∀ e ∈ s.mesh.gtWait.take i, e.pkt.flow ≠ f.pkt.flow) : exec (.gtWindowSend i) s = .next (
      if !s.flowOn f.pkt.flow then s.leavesBestEffort i f
      else match (s.flowWindows f.pkt.flow).find? (fun w => decide (w.1 = s.clk.tick.toNat % 64)) with
        | none => s
        | some w =>
          if unitsOf f.pkt ≤ w.2 then ({ s with mesh := { s.mesh with
            gtWait := s.mesh.gtWait.eraseIdx i, flight := s.mesh.flight ++ [f] } } : State).count (0x3103 + 4 * f.pkt.flow) 1
          else s.leavesBestEffort i f) := by
  have hsame : (s.mesh.gtWait.take i).any (fun e => decide (e.pkt.flow = f.pkt.flow)) = false := by
    simpa using hfirst
  have hn : flowP f.pkt.flow 3 = 0x3103 + 4 * f.pkt.flow := by unfold flowP; omega
  show execGtWindowSend i s = _
  simp only [execGtWindowSend, hhere, hclk, hsame, Bool.not_true, Bool.or_false, Bool.false_eq_true, if_false, hn, find_window]
  rfl

/-- Settles O24: `flowCheck` check by check, and the window that starts now (`exec_gtWindowSend`). -/
theorem flowsReserveSlotsAndSendInWindows : Obligations.FlowsReserveSlotsAndSendInWindows := by
  refine ⟨?_, ?_⟩
  · intro s f v a b ws port absent dead wrong clash refuse hf hw
    have habsent : s.endAbsent f = true ↔ absent a ∨ absent b := by
      rw [State.endAbsent, Bool.or_eq_true, absentAt_iff, absentAt_iff]
    have hdead : s.endDead f = true ↔ dead a ∨ dead b := by
      rw [State.endDead, Bool.or_eq_true, deadAt_iff, deadAt_iff]
    refine ⟨fun hv => ⟨fun hon => ?_, fun hoff => ?_⟩, fun hv => ⟨fun hon => ?_, fun hoff => ?_⟩⟩
    · rw [exec_flowCommit hf hw hv, hon]; rfl
    · have hrefused : ∀ st, st ≠ 0 → s.flowCheck f = st → refuse st := fun st hne hst =>
        exec_flowCommit_refused hf hw hv hoff hst hne
      refine ⟨fun h => hrefused _ (by decide) (flowCheck_wrong h), fun h h1 => hrefused _ (by decide) ?_,
        fun h h1 h1' h2 => hrefused _ (by decide) ?_, fun h h1 h1' h2 h2' => ⟨fun h3 => hrefused _ (by decide) ?_,
        fun h3 => exec_flowCommit_accepted hf hw hv hoff ?_⟩⟩
      · rw [flowCheck_right h, if_pos (habsent.2 h1)]; rfl
      · rw [flowCheck_right h, if_neg (mt habsent.1 (not_or.2 ⟨h1, h1'⟩)), if_pos (hdead.2 h2)]; rfl
      · rw [flowCheck_right h, if_neg (mt habsent.1 (not_or.2 ⟨h1, h1'⟩)), if_neg (mt hdead.1 (not_or.2 ⟨h2, h2'⟩)), if_pos ((clash_iff s f).2 h3)]; rfl
      · rw [flowCheck_right h, if_neg (mt habsent.1 (not_or.2 ⟨h1, h1'⟩)), if_neg (mt hdead.1 (not_or.2 ⟨h2, h2'⟩)), if_neg (mt (clash_iff s f).1 h3)]; rfl
    · rw [exec_flowRelease hf hw hv, hon]; rfl
    · rw [exec_flowRelease hf hw hv, hoff]; rfl
  · intro s i f w rest units demoted hclk hhere hfirst
    have hunits : unitsOf f.pkt = units := by
      simp only [unitsOf, units]
      split <;> rfl
    rw [exec_gtWindowSend hclk hhere hfirst, hunits]
    refine ⟨fun hoff => ?_, fun hon => ⟨fun hfind => ⟨fun hfit => ?_, fun hshort => ?_⟩, fun hnone => ?_⟩⟩
    · rw [hoff]; rfl
    · rw [hon, hfind]
      exact congrArg _ (if_pos hfit)
    · rw [hon, hfind]
      exact congrArg _ (if_neg (Nat.not_le.2 hshort))
    · have hno : (s.flowWindows f.pkt.flow).find? (fun w => decide (w.1 = s.clk.tick.toNat % 64)) = none :=
        List.find?_eq_none.2 fun x hx => by simpa using hnone x hx
      rw [hon, hno]; rfl

end Sys2Proof.Machine
end

section
/-!
PROOF of O26 (chapters 4 and 10): galleries are reset.  A gallery reset is `galleryEnded`, of which `galleryEnded_reset` says
every field; GAL_RESET is its fold over the named galleries.
-/

namespace Sys2Proof.Machine

/-! ### A reset of one gallery (Table 4.6) -/

/-- Records the occupancy of a burst that ends. -/
def noteBurst (g : Nat) (p : Nat → Bool) (s : State) (b : Nat × Bank) : State :=
  match b.2.burst with
  | some (r, first, _) => if p r then noteMax (galP g 0x9B) (s.clk.cyc + 1 - first) r s else s
  | none => s

theorem releaseBursts_eq (g : Nat) (p : Nat → Bool) (s : State) : releaseBursts g p s =
    ((s.gal g).banks.foldl (noteBurst g p) s).modGal g (fun x =>
      { x with banks := (x.banks.map (fun b => (b.1, b.2.without p))).filter (fun b => decide (b.2 ≠ Bank.reset)) }) := rfl

/-- Recording an occupancy touches GAL_BANK_WORST only. -/
theorem noteBurst_only {s t : State} {g : Nat} (h : s.Only t g [galP g 0x9B]) (p : Nat → Bool) (b : Nat × Bank) :
    s.Only (noteBurst g p t b) g [galP g 0x9B] := by
  unfold noteBurst
  split
  · split
    · exact (h.noteMax _ _ _).mono (by simp)
    · exact h
  · exact h

theorem gal_noteBurst (g : Nat) (p : Nat → Bool) (s : State) (b : Nat × Bank) (k : Nat) :
    (noteBurst g p s b).gal k = s.gal k := by
  unfold noteBurst
  split
  · split
    · exact gal_noteMax ..
    · rfl
  · rfl

theorem noteBursts_only {s : State} {g : Nat} (p : Nat → Bool) (l : List (Nat × Bank)) :
    ∀ t, s.Only t g [galP g 0x9B] → s.Only (l.foldl (noteBurst g p) t) g [galP g 0x9B] := by
  induction l with
  | nil => exact fun _ h => h
  | cons b l ih => exact fun t h => ih _ (noteBurst_only h p b)

theorem gal_noteBursts (g : Nat) (p : Nat → Bool) (l : List (Nat × Bank)) (k : Nat) :
    ∀ s : State, (l.foldl (noteBurst g p) s).gal k = s.gal k := by
  induction l with
  | nil => exact fun _ => rfl
  | cons b l ih => exact fun s => (ih _).trans (gal_noteBurst g p s b k)

theorem releaseBursts_only (s : State) (g : Nat) (p : Nat → Bool) : s.Only (releaseBursts g p s) g [galP g 0x9B] := by
  rw [releaseBursts_eq]
  exact (noteBursts_only p _ s ((State.Only.refl s g).mono (by simp))).modGal _

theorem gal_releaseBursts (s : State) (g : Nat) (p : Nat → Bool) :
    (releaseBursts g p s).gal g = { s.gal g with banks := ((releaseBursts g p s).gal g).banks } := by
  rw [releaseBursts_eq, State.gal_modGal_same, gal_noteBursts]

theorem dropTaps_only (s : State) (g : Nat) : s.Only (dropTaps g s) g [galP g 0x9B] := (releaseBursts_only ..).modGal _

theorem gal_dropTaps (s : State) (g : Nat) : (dropTaps g s).gal g =
    { s.gal g with banks := ((dropTaps g s).gal g).banks, tapQ := [], requests := ((dropTaps g s).gal g).requests } := by
  rw [dropTaps, State.gal_modGal_same, gal_releaseBursts]

/-- The sequencer at its entry point, with stack, flags and latches clear. -/
def Seq.restarted (q : Seq) : Seq :=
  { q with
    pc := q.entry, stack := [], flags := 0, timeout := false, latches := 0, began := 0, st := .issuing, damped := false
    issued := true, wdog := 0, pulse := 0 }

/-- The sequencer part of a gallery reset. -/
def Gallery.restarted (x : Gallery) : Gallery :=
  { x with
    prefetch := [], demand := none, resetDue := false
    engine := x.engine.map (fun t => { t with demand := false }), seq := x.seq.restarted }

/-- The damper of a domain that is on, open. -/
def Dom.opened (d : Dom) : Dom := if d.st = .on then { d with damper := .openD, step := 0, fenced := false } else d

/-- A capture that holds gallery `g` notes its reset. -/
def State.noteReset (s : State) (g : Nat) : State :=
  if s.halted g then
    { s with capt := { s.capt with perGal := tabMod CaptGal.reset s.capt.perGal g (fun c => { c with wasReset := true }) } }
  else s

theorem noteReset_rest (s : State) (g : Nat) : s.noteReset g = { s with capt := (s.noteReset g).capt } := by
  unfold State.noteReset
  split <;> rfl

theorem capt_noteReset (s : State) (g : Nat) : (s.noteReset g).capt = { s.capt with perGal := (s.noteReset g).capt.perGal } := by
  unfold State.noteReset
  split <;> rfl

theorem perGal_noteReset (s : State) (g k : Nat) : tabGet CaptGal.reset (s.noteReset g).capt.perGal k =
    if k = g ∧ s.halted k = true then { tabGet CaptGal.reset s.capt.perGal k with wasReset := true }
    else tabGet CaptGal.reset s.capt.perGal k := by
  unfold State.noteReset
  by_cases hk : k = g
  · subst hk
    by_cases h : s.halted k = true
    · simp [h]
    · simp [h]
  · have hno : ¬ (k = g ∧ s.halted k = true) := fun h => hk h.1
    rw [if_neg hno]
    split
    · exact tabGet_tabMod_ne CaptGal.reset s.capt.perGal g k (fun c => { c with wasReset := true }) hk
    · rfl

/-- A gallery reset but for the DAMPER_CLOSE that no longer waits for it. -/
def galleryEnded (g : Nat) (s : State) : State :=
  (((dropTaps g s).modGal g Gallery.restarted).modDom g Dom.opened).noteReset g

theorem galleryReset_eq (g : Nat) (s : State) : galleryReset g s =
    if (s.dom g).damper = .closing then damperDone g false false (galleryEnded g s) else galleryEnded g s := by
  have hdom : ((dropTaps g s).dom g).damper = (s.dom g).damper := by rw [(dropTaps_only s g).rest]; rfl
  have hreset : galleryReset g s = if decide (((dropTaps g s).dom g).damper = .closing) then
      damperDone g false false (galleryEnded g s) else galleryEnded g s := rfl
  rw [hreset, hdom]
  simp only [decide_eq_true_eq]

/-- A gallery reset, field by field. -/
theorem galleryEnded_reset (g : Nat) (s : State) : s.GalReset (galleryEnded g s) [g] := by
  have honly := dropTaps_only s g
  have hgal := gal_dropTaps s g
  unfold galleryEnded
  generalize dropTaps g s = u at honly hgal
  have hv : (u.modGal g Gallery.restarted).modDom g Dom.opened = { s with
      gals := ((u.modGal g Gallery.restarted).modDom g Dom.opened).gals
      params := ((u.modGal g Gallery.restarted).modDom g Dom.opened).params
      pwr := { s.pwr with domains := ((u.modGal g Gallery.restarted).modDom g Dom.opened).pwr.domains } } := by
    rw [honly.rest]
    rfl
  have hdom : ∀ d, ((u.modGal g Gallery.restarted).modDom g Dom.opened).dom d = if d = g then (s.dom d).opened else s.dom d := by
    intro d
    have hu : ∀ k, (u.modGal g Gallery.restarted).dom k = s.dom k := by rw [honly.rest]; exact fun _ => rfl
    by_cases hd : d = g
    · subst hd
      rw [State.dom_modDom_same, hu, if_pos rfl]
    · rw [State.dom_modDom_ne _ _ _ _ hd, hu, if_neg hd]
  have hpar : ∀ n, ((u.modGal g Gallery.restarted).modDom g Dom.opened).par n = u.par n := fun n => by
    rw [State.par_modDom, State.par_modGal]
  have hthis : ((u.modGal g Gallery.restarted).modDom g Dom.opened).gal g = (u.gal g).restarted := by
    rw [State.gal_modDom, State.gal_modGal_same]
  have hothers : ∀ k, k ≠ g → ((u.modGal g Gallery.restarted).modDom g Dom.opened).gal k = s.gal k := fun k hk => by
    rw [State.gal_modDom, State.gal_modGal_ne _ _ _ _ hk, honly.gals k hk]
  generalize (u.modGal g Gallery.restarted).modDom g Dom.opened = v at hv hdom hpar hthis hothers
  have hhalted : v.halted = s.halted := by rw [hv]; rfl
  have hcapt : v.capt = s.capt := by rw [hv]
  have hgals : ∀ k, (v.noteReset g).gal k = v.gal k := fun k => by rw [noteReset_rest]; rfl
  refine ⟨?_, fun n hn => ?_, ?_, fun d => ?_, ?_, fun k => ?_, fun k => ?_⟩
  · rw [noteReset_rest, hv]
  · have : (v.noteReset g).par n = v.par n := by rw [noteReset_rest]; rfl
    rw [this, hpar, honly.params n (by simpa using hn)]
  · rw [noteReset_rest, hv]
  · have : (v.noteReset g).dom d = v.dom d := by rw [noteReset_rest]; rfl
    rw [this, hdom, Dom.opened]
    by_cases hd : d = g <;> simp [hd]
  · rw [capt_noteReset, hcapt]
  · rw [perGal_noteReset, hcapt, hhalted]
    simp only [List.mem_singleton]
  · rw [hgals]
    by_cases hk : k = g
    · subst hk
      rw [if_pos (List.mem_singleton.2 rfl), hthis, hgal]
      rfl
    · rw [if_neg (by simpa using hk), hothers k hk]

/-! ### Resets one after another -/

/-- A reset of one more gallery joins a reset of several. -/
theorem State.GalReset.append {s t : State} {gs : List Nat} (h : s.GalReset t gs) {g : Nat} (hg : g ∉ gs) :
    s.GalReset (galleryEnded g t) (gs ++ [g]) := by
  have hone := galleryEnded_reset g t
  generalize galleryEnded g t = u at hone
  have hhalted : ∀ k, k ∉ gs → t.halted k = s.halted k := by
    intro k hk
    have hst : t.capt.st = s.capt.st := by rw [h.capt]
    rw [State.halted, State.halted, hst, h.held k, if_neg (fun e => hk e.1)]
  refine ⟨?_, fun n hn => ?_, ?_, fun d => ?_, ?_, fun k => ?_, fun k => ?_⟩
  · rw [hone.rest, h.rest]
  · rw [hone.pars n (fun k hk => hn k (by simp_all)), h.pars n (fun k hk => hn k (by simp_all))]
  · rw [hone.pwr, h.pwr]
  · rw [hone.doms, h.doms]
    by_cases hd : d = g
    · subst hd
      simp [hg]
    · simp [hd]
  · rw [hone.capt, h.capt]
  · rw [hone.held, h.held]
    by_cases hk : k = g
    · subst hk
      simp [hg, hhalted k hg]
    · simp [hk]
  · by_cases hk : k = g
    · subst hk
      have hsame : t.gal k = s.gal k := by rw [h.gals, if_neg hg]
      rw [hone.gals, if_pos (List.mem_singleton.2 rfl), if_pos (by simp), hsame]
    · have hsame : u.gal k = t.gal k := by rw [hone.gals, if_neg (by simpa using hk)]
      have hmem : k ∈ gs ++ [g] ↔ k ∈ gs := by simp [hk]
      rw [hsame]
      simp only [hmem]
      exact h.gals k

theorem State.GalReset.refl (s : State) : s.GalReset s [] where
  rest := rfl
  pars _ _ := rfl
  pwr := rfl
  doms _ := by simp
  capt := rfl
  held _ := by simp
  gals _ := by simp

/-- Galleries with open dampers are reset one after another. -/
theorem foldl_galleryReset {s : State} {gs : List Nat} (hnodup : gs.Nodup) (hopen : ∀ g ∈ gs, (s.dom g).damper = .openD) :
    s.GalReset (gs.foldl (fun s g => galleryReset g s) s) gs := by
  induction gs using List.reverseRecOn with
  | nil => exact State.GalReset.refl s
  | append_singleton gs g ih =>
    rw [List.nodup_append'] at hnodup
    obtain ⟨hgs, -, hdisjoint⟩ := hnodup
    have hg : g ∉ gs := fun h => hdisjoint h (List.mem_singleton.2 rfl)
    have hreset := ih hgs fun k hk => hopen k (List.mem_append_left _ hk)
    rw [List.foldl_append, List.foldl_cons, List.foldl_nil, galleryReset_eq, if_neg]
    · exact hreset.append hg
    · rw [hreset.doms, if_neg (fun h => hg h.1), hopen g (by simp)]
      decide

/-! ### GAL_RESET and the watchdog -/

theorem maskList_eq (n : Nat) : maskList n = (List.range 16).filter (fun k => n.testBit k) := by
  unfold maskList setBits
  exact List.filter_congr fun k _ => bitOf_eq_testBit n k

/-- The gallery and the checks of GAL_RESET in their order (R309). -/
theorem galResetCmd_eq (c : Cmd) (s : State) : galResetCmd c s =
    let gs := (List.range 16).filter (fun k => (leAt c.body 0 2).testBit k)
    if gs.any (fun g => !s.variant.hasGal g) then respond c stAbsent [] s
    else if gs.any (fun g => !s.domOn g) then respond c stAsleep [] s
    else if gs.any (fun g => decide ((s.dom g).damper ≠ .openD)) then respond c stBusy [] s
    else respond c stSuccess [] (gs.foldl (fun s g => galleryReset g s) s) := by
  rw [galResetCmd, maskList_eq]

/-- Settles O26: GAL_RESET is a fold of resets (`foldl_galleryReset`), a bite one reset (`galleryEnded_reset`). -/
theorem galleriesAreReset : Obligations.GalleriesAreReset := by
  intro s g c gs q
  refine ⟨fun hstarts => ?_, ?_⟩
  · have hexec : exec (.galReset c.via) s = .next (galResetCmd c s) := congrArg _ (runCmd_eq hstarts _)
    have habsent : gs.any (fun g => !s.variant.hasGal g) = true ↔ ∃ k ∈ gs, s.variant.hasGal k = false := by simp
    have hasleep : gs.any (fun g => !s.domOn g) = true ↔ ∃ k ∈ gs, (s.dom k).st ≠ .on ∨ (s.dom k).rekindling = true := by
      simp [State.domOn]
    have hclosed : gs.any (fun g => decide ((s.dom g).damper ≠ .openD)) = true ↔ ∃ k ∈ gs, (s.dom k).damper ≠ .openD := by simp
    have hawake : (∀ k ∈ gs, (s.dom k).st = .on ∧ (s.dom k).rekindling = false) →
        ¬ ∃ k ∈ gs, (s.dom k).st ≠ .on ∨ (s.dom k).rekindling = true := by
      rintro hon ⟨k, hk, h⟩
      obtain ⟨hst, hrekindling⟩ := hon k hk
      simp [hst, hrekindling] at h
    rw [hexec, galResetCmd_eq]
    refine ⟨fun h => ?_, fun hpresent => ⟨fun h => ?_, fun hon => ⟨fun h => ?_, fun hopen => ?_⟩⟩⟩
    · rw [if_pos (habsent.2 h)]; rfl
    · rw [if_neg (mt habsent.1 (by simpa using hpresent)), if_pos (hasleep.2 h)]; rfl
    · rw [if_neg (mt habsent.1 (by simpa using hpresent)), if_neg (mt hasleep.1 (hawake hon)), if_pos (hclosed.2 h)]; rfl
    · rw [if_neg (mt habsent.1 (by simpa using hpresent)), if_neg (mt hasleep.1 (hawake hon)), if_neg (mt hclosed.1 (by simpa using hopen))]
      exact ⟨_, rfl, foldl_galleryReset (List.nodup_range.filter _) hopen⟩
  · intro limit status hlimit hbite
    refine ⟨galleryEnded g s, galleryEnded_reset g s, ?_⟩
    intro bitten told
    have hbitten : (galleryReset g s).count (galP g 0x05) 1 = bitten := by rw [galleryReset_eq]
    show execWatchdogBite g s = _
    have hlim : fld (s.par (galP g 0x04)) 23 0 = limit := by simp [fld, bits, limit]
    rw [execWatchdogBite]
    simp only [hlim]
    rw [if_pos ⟨hlimit, hbite⟩, hbitten]
    rfl

end Sys2Proof.Machine
end

section
/-!
SUPPORT. What an answer, a report and the end of a transaction leave alone: an answer touches the lamp and the endpoint
only, and no end of a transaction touches the dead units.
-/

namespace Sys2Proof.Machine

/-! ### Answers (R283, R299, R305) -/

theorem signalRing_rest (s : State) : signalRing s = { s with pcie := (signalRing s).pcie } := by
  unfold signalRing
  dsimp only
  split
  · rw [if_pos rfl, raiseVector_rest]
  · split
    · rw [raiseVector_rest]
    · rfl

theorem ringPut_rest (msg : List Byte) (s : State) : ringPut msg s = { s with pcie := (ringPut msg s).pcie } := by
  unfold ringPut hostWrite
  dsimp only
  rw [signalRing_rest]
  split <;> rfl

theorem deliver_rest (via : Transport) (ring : Bool) (msg : List Byte) (s : State) :
    deliver via ring msg s = { s with lamp := (deliver via ring msg s).lamp, pcie := (deliver via ring msg s).pcie } := by
  unfold deliver
  cases via with
  | lampPair =>
    dsimp only
    split <;> rfl
  | pcie =>
    dsimp only
    split
    · split
      · rw [ringPut_rest]
      · rfl
    · split
      · rw [raiseVector_rest]
      · split <;> rfl

/-- An answer touches the lamp and the endpoint only. -/
theorem respondVia_rest (ring : Bool) (c : Cmd) (status : Nat) (body : List Byte) (s : State) :
    respondVia ring c status body s = { s with
      lamp := (respondVia ring c status body s).lamp, pcie := (respondVia ring c status body s).pcie } := by
  unfold respondVia dropCmd
  dsimp only
  split
  · rfl
  · rw [deliver_rest]

theorem respond_rest (c : Cmd) (status : Nat) (body : List Byte) (s : State) :
    respond c status body s = { s with lamp := (respond c status body s).lamp, pcie := (respond c status body s).pcie } :=
  respondVia_rest ..

theorem damperDone_rest (d : Nat) (ended forced : Bool) (s : State) : damperDone d ended forced s =
    { s with lamp := (damperDone d ended forced s).lamp, pcie := (damperDone d ended forced s).pcie } := by
  have hfold : ∀ (l : List DamperCmd) (f : DamperCmd → List Byte) (t : State),
      l.foldl (fun s x => respond x.cmd stSuccess (f x) s) t = { t with
        lamp := (l.foldl (fun s x => respond x.cmd stSuccess (f x) s) t).lamp
        pcie := (l.foldl (fun s x => respond x.cmd stSuccess (f x) s) t).pcie } := by
    intro l f
    induction l with
    | nil => exact fun _ => rfl
    | cons x l ih =>
      intro t
      rw [List.foldl_cons, ih, respond_rest]
  unfold damperDone
  exact hfold _ _ _

theorem endMemRead_rest (c : Cmd) (part status : Nat) (data : List Byte) (s : State) : endMemRead c part status data s =
    { s with lamp := (endMemRead c part status data s).lamp, pcie := (endMemRead c part status data s).pcie } := by
  unfold endMemRead
  dsimp only
  split
  · rfl
  · split
    · split
      · rw [respond_rest]
      · rw [respond_rest]
    · rfl

/-! ### The ends of transactions (R225) -/

theorem dead_icpOutcome (g seq cfa : Nat) (ask : Option Packet) (status : Nat) (s : State) :
    (icpOutcome g seq cfa ask status s).mesh.dead = s.mesh.dead := by
  have hanswer : ∀ (p : Packet) (u : State), (if status = 0 then replyData p 0 [] u else replyError p status u).mesh.dead =
      u.mesh.dead := by
    intro p u
    split <;> rfl
  have hnoted : ∀ u : State, (if status = 0 then u.count (galP g 0x51) 1
      else (u.count (galP g 0x52) 1).raise 0xD8 ([BitVec.ofNat 8 g, BitVec.ofNat 8 status, 0, 0] ++ leBytes 4 cfa)).mesh =
        u.mesh := by
    intro u
    split <;> simp
  have hgone : ∀ (u : State) (f : Gallery → Gallery),
      (if selfTargeted g cfa && decide (status ≠ 0) then u.modGal g f else u).mesh = u.mesh := by
    intro u f
    split <;> simp
  unfold icpOutcome
  dsimp only
  cases ask with
  | none => rw [hnoted, hgone]; rfl
  | some p => rw [hanswer, hnoted, hgone]; rfl

theorem dead_close (q : Purpose) (status : Nat) (data : List Byte) (s : State) :
    (q.close status data s).mesh.dead = s.mesh.dead := by
  cases q with
  | dma g id a n => rfl
  | bulk tag part => rfl
  | lampRead c part => exact (congrArg (·.mesh.dead) (endMemRead_rest c part status data s)).trans rfl
  | icp g seq cfa ask => exact dead_icpOutcome ..
  | message => rfl

theorem dead_endTrans (t : Trans) (status : Nat) (data : List Byte) (s : State) :
    (endTrans t status data s).mesh.dead = s.mesh.dead := by
  unfold endTrans
  split
  · exact dead_close ..
  · rfl

theorem dead_endTransAll (p : Trans → Bool) (status : Nat) (s : State) :
    (endTransAll p status s).mesh.dead = s.mesh.dead := by
  have hfold : ∀ (l : List Trans) (t : State), (l.foldl (fun s t => endTrans t status [] s) t).mesh.dead = t.mesh.dead := by
    intro l
    induction l with
    | nil => exact fun _ => rfl
    | cons x l ih => exact fun t => (ih _).trans (dead_endTrans ..)
  exact hfold _ _

end Sys2Proof.Machine
end

section
/-!
PROOF of O25 (chapters 13 and 21): dead units and wakes.  NOC_DEAD_SET and NOC_DEAD_CLEAR are folds over the bits that the
host writes; a wake is `openDomain`, whose gallery reset commutes with the delivery of what was held.
-/

namespace Sys2Proof.Machine

/-! ### Folds over the bits of a mask -/

theorem setBits_toNat (v : Word) : setBits 32 v.toNat = (List.range 32).filter v.getLsbD := by
  unfold setBits
  exact List.filter_congr fun k _ => by rw [bitOf_eq_testBit, BitVec.testBit_toNat]

/-- A mask with one bit. -/
theorem setBits_single : ∀ u < 32, setBits 32 (1#32 <<< u).toNat = [u] := by decide

/-! ### Dead units (R238, R239) -/

/-- The unit exists on this variant. -/
def Variant.hasUnit (v : Variant) (u : Nat) : Bool := if u < 16 then v.hasGal u else v.hasPort (u - 16)

theorem isDead_congr {s t : State} (h : t.mesh.dead = s.mesh.dead) (u : Nat) : t.isDead u = s.isDead u := by
  rw [State.isDead, State.isDead, h]

/-- A unit that was not dead is noted and reported, before its transactions end. -/
def State.marked (s : State) (u cause : Nat) : State :=
  let noted := if u < 16 then s.putPar (galP u 0xA1) (wd cause) else s
  ({ noted with mesh := { noted.mesh with dead := putBit noted.mesh.dead u true } } : State).raise 0xC1
    [BitVec.ofNat 8 u, BitVec.ofNat 8 cause]

theorem mesh_marked (s : State) (u cause : Nat) :
    (s.marked u cause).mesh = { s.mesh with dead := putBit s.mesh.dead u true } := by
  unfold State.marked
  split <;> simp

theorem marked_eq (s : State) (u cause : Nat) : s.marked u cause =
    ({ (if u < 16 then s.putPar (galP u 0xA1) (wd cause) else s) with
        mesh := { s.mesh with dead := s.mesh.dead ||| 1#32 <<< u } } : State).raise 0xC1
      [BitVec.ofNat 8 u, BitVec.ofNat 8 cause] := by
  unfold State.marked
  split <;> rfl

theorem markDead_eq (u cause : Nat) (s : State) : markDead u cause s = if s.isDead u then s else
    endTransAll (fun x => decide (x.node = (unitPlace u).1 ∧ x.port = (unitPlace u).2)) stDead (s.marked u cause) := rfl

theorem isDead_markDead {u k : Nat} (hk : k < 32) (cause : Nat) (s : State) :
    (markDead u cause s).isDead k = (s.isDead k || decide (k = u)) := by
  rw [markDead_eq]
  split
  · next h =>
    by_cases hku : k = u
    · subst hku; simp [h]
    · simp [hku]
  · rw [isDead_congr (dead_endTransAll ..), State.isDead, mesh_marked, hasBit, getLsbD_putBit _ _ _ hk]
    by_cases hku : k = u
    · simp [hku]
    · simp [hku, State.isDead, hasBit]

/-- NOC_DEAD_SET takes one bit. -/
def markPresent (s : State) (u : Nat) : State := if s.variant.hasUnit u then markDead u 7 s else s

theorem variant_markPresent (s : State) (u : Nat) : (markPresent s u).variant = s.variant := by
  unfold markPresent
  split
  · exact (markDead_keeps u 7 s).2
  · rfl

theorem isDead_markPresent {k : Nat} (hk : k < 32) (s : State) (u : Nat) :
    (markPresent s u).isDead k = (s.isDead k || (decide (k = u) && s.variant.hasUnit k)) := by
  unfold markPresent
  split
  · next h =>
    rw [isDead_markDead hk]
    by_cases hku : k = u
    · subst hku; simp [h]
    · simp [hku]
  · next h =>
    by_cases hku : k = u
    · subst hku; simp [h]
    · simp [hku]

theorem isDead_markPresents {k : Nat} (hk : k < 32) (l : List Nat) : ∀ s : State,
    (l.foldl markPresent s).isDead k = (s.isDead k || (decide (k ∈ l) && s.variant.hasUnit k)) := by
  induction l with
  | nil => simp
  | cons u l ih =>
    intro s
    rw [List.foldl_cons, ih, isDead_markPresent hk, variant_markPresent, Bool.or_assoc, ← Bool.and_or_distrib_right,
      ← Bool.decide_or]
    simp only [List.mem_cons]

/-- NOC_DEAD_CLEAR takes one bit. -/
def clearDead (s : State) (u : Nat) : State :=
  if s.isDead u then ({ s with mesh := { s.mesh with dead := putBit s.mesh.dead u false } } : State).raise 0xC2 [BitVec.ofNat 8 u]
  else s

/-- `t` is `s` but for the dead units and the events. -/
def State.DeadOnly (s t : State) : Prop :=
  t = { s with mesh := { s.mesh with dead := t.mesh.dead }, evt := { s.evt with latches := t.evt.latches } }

theorem raise_rest (s : State) (e : Nat) (l : List Byte) :
    s.raise e l = { s with evt := { s.evt with latches := (s.raise e l).evt.latches } } := by
  unfold State.raise
  split <;> rfl

theorem clearDead_rest (s : State) (u : Nat) : s.DeadOnly (clearDead s u) := by
  unfold clearDead State.DeadOnly
  split
  · rw [raise_rest]
  · rfl

theorem isDead_clearDead {k : Nat} (hk : k < 32) (s : State) (u : Nat) :
    (clearDead s u).isDead k = (s.isDead k && !decide (k = u)) := by
  unfold clearDead
  split
  · next h =>
    rw [State.isDead, State.raise_mesh, hasBit, getLsbD_putBit _ _ _ hk]
    by_cases hku : k = u
    · simp [hku]
    · simp [hku, State.isDead, hasBit]
  · next h =>
    by_cases hku : k = u
    · subst hku; simp [h]
    · simp [hku]

theorem clearDeads (l : List Nat) : ∀ s : State, s.DeadOnly (l.foldl clearDead s) ∧
    ∀ k < 32, (l.foldl clearDead s).isDead k = (s.isDead k && !decide (k ∈ l)) := by
  induction l with
  | nil => exact fun s => ⟨rfl, by simp⟩
  | cons u l ih =>
    intro s
    obtain ⟨hrest, hdead⟩ := ih (clearDead s u)
    refine ⟨?_, fun k hk => ?_⟩
    · rw [List.foldl_cons, State.DeadOnly, hrest, clearDead_rest s u]
    · rw [List.foldl_cons, hdead k hk, isDead_clearDead hk, Bool.and_assoc, ← Bool.not_or, ← Bool.decide_or]
      simp only [List.mem_cons]

theorem exec_nocDeadSet {s : State} {v : Word} (h : s.Writes 0x3011) :
    exec (.nocDeadSet v) s = .next (((setBits 32 v.toNat).foldl markPresent s).ended 0) :=
  congrArg _ (hostEntry_eq h (writeDeadSet v))

theorem exec_nocDeadClear {s : State} {v : Word} (h : s.Writes 0x3012) :
    exec (.nocDeadClear v) s = .next (((setBits 32 v.toNat).foldl clearDead s).ended 0) :=
  congrArg _ (hostEntry_eq h (writeDeadClear v))

/-! ### A wake ends (R240, R241, R375) -/

theorem maskOf_eq_foldl (n : Nat) (p : Nat → Bool) :
    maskOf n p = ((List.range n).filter p).foldl (fun m k => m + 2 ^ k) 0 := by
  induction n with
  | zero => rfl
  | succ n ih =>
    rw [maskOf_succ, List.range_succ, List.filter_append, List.foldl_append, ← ih, List.filter_cons, List.filter_nil]
    cases p n <;> simp [flag]

theorem maskOf_eq_zero_iff (n : Nat) (p : Nat → Bool) : maskOf n p = 0 ↔ (List.range n).filter p = [] := by
  constructor
  · intro h
    rw [List.filter_eq_nil_iff]
    intro k hk hpk
    have := testBit_maskOf n p (List.mem_range.1 hk)
    rw [h, Nat.zero_testBit, hpk] at this
    cases this
  · intro h
    rw [maskOf_eq_foldl, h]
    rfl

/-- The flows whose packets are held for domain `d`. -/
def State.lapses (s : State) (d : Nat) : List Nat :=
  (List.range 128).filter (fun k => (s.mesh.held ++ s.mesh.pressed).any (fun f =>
    s.boundFor d f && f.pkt.gt && decide (f.pkt.flow = k)))

theorem reportLapse_eq (d : Nat) (s : State) : reportLapse d s = if s.lapses d = [] then s
    else s.raise 0xC3 ([BitVec.ofNat 8 d, 0, 0, 0] ++ leBytes 16 ((s.lapses d).foldl (fun n k => n + 2 ^ k) 0)) := by
  have hmask : s.heldFlows d = (s.lapses d).foldl (fun n k => n + 2 ^ k) 0 := maskOf_eq_foldl ..
  have hzero : s.heldFlows d = 0 ↔ s.lapses d = [] := maskOf_eq_zero_iff ..
  rw [reportLapse, hmask]
  exact if_congr (by rw [← hmask]; exact hzero) rfl rfl

theorem reportLapse_rest (d : Nat) (s : State) :
    reportLapse d s = { s with evt := { s.evt with latches := (reportLapse d s).evt.latches } } := by
  rw [reportLapse_eq]
  split
  · rfl
  · rw [raise_rest]

/-- A domain's record when it is open. -/
def Dom.reopened (d : Dom) : Dom :=
  { d with
    st := .on, damper := .openD, step := 0, fenced := false, moving := false, waking := false
    rekindling := false, critical := false, asleepDone := false }

/-- Domain `d` is on and open, and its sequencer runs; what its router held is still held. -/
def State.reopened (s : State) (d : Nat) : State :=
  let s := s.modDom d Dom.reopened
  let s := { s with pwr := { s.pwr with critical := (List.range 25).any (fun k => (s.dom k).critical) } }
  if d < 16 then s.modSeq d (fun q => { q with damped := false }) else s

theorem dom_reopened (s : State) (d k : Nat) :
    (s.reopened d).dom k = if k = d then (s.dom k).reopened else s.dom k := by
  have hdom : (s.reopened d).dom k = (s.modDom d Dom.reopened).dom k := by
    unfold State.reopened
    split
    · rw [State.dom_modSeq]; rfl
    · rfl
  rw [hdom]
  split
  · next h => subst h; exact State.dom_modDom_same ..
  · next h => exact State.dom_modDom_ne _ _ _ _ h

theorem gal_reopened (s : State) (d k : Nat) : (s.reopened d).gal k =
    if k = d ∧ d < 16 then { s.gal k with seq := { (s.gal k).seq with damped := false } } else s.gal k := by
  unfold State.reopened
  by_cases hd : d < 16
  · rw [if_pos hd]
    by_cases hk : k = d
    · subst hk
      rw [if_pos ⟨rfl, hd⟩, State.gal_modSeq_same]
      rfl
    · rw [if_neg (fun h => hk h.1), State.gal_modSeq_ne _ _ _ _ hk]
      rfl
  · rw [if_neg hd, if_neg (fun h => hd h.2)]
    rfl

theorem reopened_rest (s : State) (d : Nat) : s.reopened d =
    { s with gals := (s.reopened d).gals, pwr := { s.pwr with
      domains := (s.reopened d).pwr.domains, critical := (s.reopened d).pwr.critical } } := by
  unfold State.reopened
  split <;> rfl

theorem critical_reopened (s : State) (d : Nat) :
    (s.reopened d).pwr.critical = true ↔ ∃ k < 25, k ≠ d ∧ (s.dom k).critical = true := by
  have hcrit : (s.reopened d).pwr.critical = (List.range 25).any (fun k => ((s.modDom d Dom.reopened).dom k).critical) := by
    unfold State.reopened
    split <;> rfl
  rw [hcrit, List.any_eq_true]
  refine exists_congr fun k => ?_
  rw [List.mem_range]
  by_cases hk : k = d
  · subst hk
    simp [State.dom_modDom_same, Dom.reopened]
  · simp [State.dom_modDom_ne _ _ _ _ hk, hk]

/-- The mesh after the ports of domain `d` opened: what was held comes first, in its order. -/
def Mesh.released (m : Mesh) (mine : Flying → Bool) : Mesh :=
  { m with
    held := m.held.filter (fun f => !mine f), pressed := m.pressed.filter (fun f => !mine f)
    flight := m.held.filter mine ++ m.pressed.filter mine ++ m.flight }

theorem releaseHeld_eq (d : Nat) (s : State) : releaseHeld d s = { s with mesh := s.mesh.released (s.boundFor d) } := rfl

/-- A reset of galleries does not look at the mesh. -/
theorem State.GalReset.withMesh {s t : State} {gs : List Nat} (h : s.GalReset t gs) (m : Mesh) :
    ({ s with mesh := m } : State).GalReset { t with mesh := m } gs where
  rest := by
    conv_lhs => rw [h.rest]
  pars := h.pars
  pwr := h.pwr
  doms := h.doms
  capt := h.capt
  held := h.held
  gals := h.gals

theorem openDomain_eq (d : Nat) (s : State) : openDomain d s =
    damperDone d true false (releaseHeld d (if d < 16 ∧ ((s.reopened d).gal d).resetDue = true then galleryReset d (s.reopened d)
      else s.reopened d)) := rfl

/-- The state of a wake when domain `d` is on: its held packets are delivered. -/
def State.woken (s : State) (d : Nat) : State :=
  let u := (reportLapse d s).reopened d
  { u with mesh := s.mesh.released (s.boundFor d) }

theorem exec_wakeComplete {s : State} {d : Nat} (hclk : s.clocked = true) (hwaking : (s.dom d).waking = true) :
    ∃ t, exec (.wakeComplete d) s = .next ((if 16 ≤ d ∧ d < 24 then (s.pairPorts d).foldl
        (fun u p => portReturns (decide ((s.dom d).st = .off)) p u) else id) (damperDone d true false t)) ∧
      (if d < 16 ∧ (s.gal d).resetDue = true then (s.woken d).GalReset t [d] else t = s.woken d) := by
  have hlapse := reportLapse_rest d s
  generalize hv : reportLapse d s = v at hlapse
  have hmesh : v.mesh = s.mesh := by rw [hlapse]
  have hgal : ∀ k, v.gal k = s.gal k := by rw [hlapse]; exact fun _ => rfl
  have hbound : ∀ f, v.boundFor d f = s.boundFor d f := by rw [hlapse]; exact fun _ => rfl
  have hpairs : v.pairPorts d = s.pairPorts d := by rw [hlapse]; rfl
  have hdue : ((v.reopened d).gal d).resetDue = (s.gal d).resetDue := by
    rw [gal_reopened, hgal]
    split <;> rfl
  have hrest := reopened_rest v d
  have hmesh' : (v.reopened d).mesh = s.mesh := by rw [hrest, hmesh]
  have hbound' : (v.reopened d).boundFor d = s.boundFor d := funext fun f => by rw [hrest]; exact hbound f
  have hwoken : s.woken d = { v.reopened d with mesh := s.mesh.released (s.boundFor d) } := by rw [State.woken, hv]
  have hexec : ∀ t, openDomain d v = damperDone d true false t → exec (.wakeComplete d) s = .next
      ((if 16 ≤ d ∧ d < 24 then (s.pairPorts d).foldl
        (fun u p => portReturns (decide ((s.dom d).st = .off)) p u) else id) (damperDone d true false t)) := by
    intro t ht
    show execWakeComplete d s = _
    have hpairs' : (damperDone d true false t).pairPorts d = s.pairPorts d := by
      rw [← ht, ← hpairs, State.pairPorts, State.pairPorts, (openDomain_keeps d v).2]
    simp only [execWakeComplete, hclk, hwaking, Bool.and_self, if_true, hv, ht, hpairs']
    split <;> rfl
  by_cases hreset : d < 16 ∧ (s.gal d).resetDue = true
  · refine ⟨{ galleryEnded d (v.reopened d) with mesh := s.mesh.released (s.boundFor d) }, hexec _ ?_, ?_⟩
    · have hended := galleryEnded_reset d (v.reopened d)
      have hopen : ((v.reopened d).dom d).damper ≠ .closing := by
        rw [dom_reopened, if_pos rfl]
        simp [Dom.reopened]
      rw [openDomain_eq, hdue, if_pos hreset, galleryReset_eq, if_neg hopen, releaseHeld_eq]
      have hm : (galleryEnded d (v.reopened d)).mesh = s.mesh := by rw [hended.rest, hmesh']
      have hb : (galleryEnded d (v.reopened d)).boundFor d = s.boundFor d := funext fun f => by
        rw [hended.rest, ← hbound']
        rfl
      rw [hm, hb]
    · rw [if_pos hreset, hwoken]
      exact (galleryEnded_reset d (v.reopened d)).withMesh _
  · refine ⟨s.woken d, hexec _ ?_, by rw [if_neg hreset]⟩
    rw [openDomain_eq, hdue, if_neg hreset, releaseHeld_eq, hmesh', hbound', hwoken]

theorem unitPlace_eq (u : Nat) : unitPlace u = if u < 16 then (galNode u, 0) else (portNode (u - 16), (u - 16) % 2) := rfl

/-- Settles O25: the folds over the written bits (`isDead_markPresents`, `clearDeads`), and a wake (`exec_wakeComplete`). -/
theorem deadUnitsAndWakes : Obligations.DeadUnitsAndWakes := by
  refine ⟨fun s v => ⟨fun hw => ⟨?_, ?_⟩, fun hw => ⟨?_, ?_⟩⟩, ?_⟩
  · refine ⟨_, exec_nocDeadSet hw, fun u hu => ?_⟩
    have hmem : decide (u ∈ setBits 32 v.toNat) = v.getLsbD u := by
      rw [setBits_toNat]
      simp [hu]
    exact (isDead_markPresents hu _ s).trans (by rw [hmem]; rfl)
  · rintro u hu rfl place noted marked
    have hexec := exec_nocDeadSet hw (v := 1#32 <<< u)
    rw [setBits_single u hu, List.foldl_cons, List.foldl_nil] at hexec
    refine ⟨fun hhas halive => ?_, fun hno => ?_⟩
    · have hmark : markPresent s u = markDead u 7 s := if_pos hhas
      have hmarked : s.marked u 7 = marked := marked_eq s u 7
      have htrans : (s.marked u 7).mesh.trans = s.mesh.trans := by rw [mesh_marked]
      rw [hexec, hmark, markDead_eq, if_neg (by rw [halive]; exact Bool.false_ne_true), endTransAll, htrans, hmarked]
      rfl
    · have hsame : markPresent s u = s := by
        obtain hno | hdead := hno
        · exact if_neg (Bool.eq_false_iff.1 hno)
        · unfold markPresent
          split
          · rw [markDead_eq, if_pos hdead]
          · rfl
      rw [hexec, hsame]
  · obtain ⟨hrest, hdead⟩ := clearDeads (setBits 32 v.toNat) s
    refine ⟨_, exec_nocDeadClear hw, fun u hu => ?_, ?_⟩
    · have hmem : decide (u ∈ setBits 32 v.toNat) = v.getLsbD u := by
        rw [setBits_toNat]
        simp [hu]
      rw [← hmem]
      exact hdead u hu
    · unfold State.DeadOnly at hrest
      rw [hrest]
      rfl
  · rintro u hu rfl hdead
    have hexec := exec_nocDeadClear hw (v := 1#32 <<< u)
    rw [setBits_single u hu, List.foldl_cons, List.foldl_nil] at hexec
    rw [hexec, clearDead, if_pos hdead]
    rfl
  · intro s d mine gt noted hclk hwaking
    obtain ⟨t, hexec, ht⟩ := exec_wakeComplete hclk hwaking
    have hnoted : reportLapse d s = noted := reportLapse_eq d s
    have hlapse := reportLapse_rest d s
    rw [hnoted] at hlapse
    have hdom : ∀ k, (reportLapse d s).dom k = s.dom k := by rw [hnoted, hlapse]; exact fun _ => rfl
    have hgal : ∀ k, (reportLapse d s).gal k = s.gal k := by rw [hnoted, hlapse]; exact fun _ => rfl
    refine ⟨s.woken d, t, hexec, ht, ?_, ?_, ?_, fun k => ?_, fun k => ?_, rfl⟩
    · rw [State.woken, hnoted, reopened_rest]
    · rw [State.woken, hnoted, reopened_rest, hlapse]
    · refine (critical_reopened (reportLapse d s) d).trans ?_
      simp only [hdom]
    · refine (dom_reopened (reportLapse d s) d k).trans ?_
      rw [hdom]
      split
      · next h => subst h; rfl
      · rfl
    · refine (gal_reopened (reportLapse d s) d k).trans ?_
      rw [hgal]

end Sys2Proof.Machine
end

section
/-!
PROOF of O27 (chapters 14 and 17): links are committed and ports are reset.  A link start is `startLink`, which
`startLink_starts` says lane by lane.
-/

namespace Sys2Proof.Machine

/-! ### Lanes and links (Table 14.3) -/

/-- One lane of the link of lead `l` moves to state `k`, unless it does not follow the link (R245). -/
def setLane (s : State) (l k : Nat) (t : State) (p : Nat) : State :=
  if s.keepsLane l p then t else t.modPort p (fun q => { q with laneSt := k })

theorem setLanes_eq (l : Nat) (ps : List Nat) (k : Nat) (s : State) : setLanes l ps k s = ps.foldl (setLane s l k) s := rfl

/-- A port with its lane in state `k`. -/
def Port.inLane (q : Port) (k : Nat) : Port := { q with laneSt := k }

theorem foldl_setLane_rest (s : State) (l k : Nat) (ps : List Nat) : ∀ t : State,
    ps.foldl (setLane s l k) t = { t with ports := (ps.foldl (setLane s l k) t).ports } := by
  induction ps with
  | nil => exact fun _ => rfl
  | cons p ps ih =>
    intro t
    rw [List.foldl_cons, ih]
    unfold setLane
    split <;> rfl

theorem port_foldl_setLane (s : State) (l k : Nat) (ps : List Nat) (p : Nat) : ∀ t : State,
    (ps.foldl (setLane s l k) t).port p = if p ∈ ps ∧ s.keepsLane l p = false then (t.port p).inLane k else t.port p := by
  induction ps with
  | nil => simp
  | cons a ps ih =>
    intro t
    rw [List.foldl_cons, ih]
    by_cases ha : p = a
    · subst ha
      by_cases hk : s.keepsLane l p = true
      · simp [setLane, hk]
      · simp [setLane, hk, Port.inLane]
    · have hsame : (setLane s l k t a).port p = t.port p := by
        unfold setLane
        split
        · rfl
        · exact State.port_modPort_ne _ _ _ _ ha
      rw [hsame]
      simp [ha]

theorem setLanes_rest (l : Nat) (ps : List Nat) (k : Nat) (s : State) :
    setLanes l ps k s = { s with ports := (setLanes l ps k s).ports } := foldl_setLane_rest s l k ps s

theorem port_setLanes (l : Nat) (ps : List Nat) (k : Nat) (s : State) (p : Nat) :
    (setLanes l ps k s).port p = if p ∈ ps ∧ s.keepsLane l p = false then (s.port p).inLane k else s.port p :=
  port_foldl_setLane s l k ps p s

theorem starters_subset (s : State) (l : Nat) {p : Nat} (h : p ∈ s.starters l) : p ∈ s.members l := by
  unfold State.starters at h
  split at h
  · exact List.mem_of_mem_filter h
  · exact h

/-- Which devices take part in a start turns on the presence and the binding of the modules. -/
theorem starters_congr {s t : State} {l : Nat} (hrest : t = { s with ports := t.ports })
    (hjoins : ∀ p, (t.port p).joins = (s.port p).joins) : t.starters l = s.starters l := by
  have hcfg : ∀ k, t.linkCfg l k = s.linkCfg l k := by rw [hrest]; exact fun _ => rfl
  have hmembers : t.members l = s.members l := by rw [hrest]; rfl
  have hlanes : t.linkL l = s.linkL l := by rw [hrest]; rfl
  simp only [State.starters, hcfg, hmembers, hlanes, hjoins]

/-- Whether a lane follows its link turns on its driver only. -/
theorem keepsLane_congr {s t : State} {l p : Nat} (hrest : t = { s with ports := t.ports })
    (hfault : (t.port p).txFault = (s.port p).txFault) : t.keepsLane l p = s.keepsLane l p := by
  have htx : t.linkTx l = s.linkTx l := by rw [hrest]; rfl
  have hof : t.linkOf p false = s.linkOf p false := by rw [hrest]; rfl
  rw [State.keepsLane, State.keepsLane, htx, hof, hfault]

/-- A port whose link stands at state `k`. -/
def Port.linkAt (q : Port) (k : Nat) : Port := { q with linkSt := k }

/-- The state in which the link of lead `l` starts (R251). -/
def State.startState (s : State) (l : Nat) : Nat := if s.linkTx l = true then 5 else 1

theorem startLink_eq {s : State} {l : Nat} (hon : s.linkOn l = true) : startLink l s =
    let z := setLanes l (s.members l) 0 s
    if (s.members l).all s.pairOn then setLanes l (z.starters l) (s.startState l) (z.modPort l (Port.linkAt · (s.startState l)))
    else z.modPort l (Port.linkAt · 0) := by
  have hrest := setLanes_rest l (s.members l) 0 s
  have hmembers : (setLanes l (s.members l) 0 s).members l = s.members l := by rw [hrest]; rfl
  have hpairs : (setLanes l (s.members l) 0 s).pairOn = s.pairOn := by rw [hrest]; rfl
  simp only [startLink, hon, Bool.not_true, Bool.false_eq_true, if_false, hmembers, hpairs]
  rfl

theorem port_modPort (s : State) (l : Nat) (f : Port → Port) (p : Nat) :
    (s.modPort l f).port p = if p = l then f (s.port p) else s.port p := by
  split
  · next h => subst h; exact State.port_modPort_same ..
  · next h => exact State.port_modPort_ne _ _ _ _ h

theorem ite_inLane (c : Prop) [Decidable c] (q : Port) (k : Nat) :
    (if c then q.inLane k else q) = { q with laneSt := if c then k else q.laneSt } := by
  split <;> rfl

theorem ite_linkAt (c : Prop) [Decidable c] (q : Port) (k : Nat) :
    (if c then q.linkAt k else q) = { q with linkSt := if c then k else q.linkSt } := by
  split <;> rfl

/-- A link start, lane by lane. -/
theorem startLink_starts (l : Nat) (s : State) : s.LinkStarts (startLink l s) l := by
  by_cases hon : s.linkOn l = true
  · rw [startLink_eq hon]
    have hzero := port_setLanes l (s.members l) 0 s
    have hzrest := setLanes_rest l (s.members l) 0 s
    generalize setLanes l (s.members l) 0 s = z at hzero hzrest
    have hall : (s.members l).all s.pairOn = true ↔ ∀ m ∈ s.members l, s.pairOn m = true := List.all_eq_true
    dsimp only
    split
    · next hpairs =>
      have hpairs' := hall.1 hpairs
      have hstarters : z.starters l = s.starters l := starters_congr hzrest fun p => by
        rw [hzero]
        split <;> rfl
      have hmember : ∀ p, p ∈ s.starters l → p ∈ s.members l := fun p => starters_subset s l
      have hkeeps : ∀ p, (z.modPort l (Port.linkAt · (s.startState l))).keepsLane l p = s.keepsLane l p := fun p => by
        refine keepsLane_congr (by rw [hzrest]; rfl) ?_
        rw [port_modPort, hzero]
        split <;> split <;> rfl
      refine ⟨by rw [setLanes_rest, hzrest]; rfl, fun p => ?_⟩
      rw [port_setLanes, hstarters, hkeeps, port_modPort, hzero, ite_inLane, ite_inLane, ite_linkAt]
      have hlink : (if p = l then s.startState l else (s.port p).linkSt) = if p = l ∧ s.linkOn l = true then
          (if (∀ m ∈ s.members l, s.pairOn m = true) then s.startState l else 0) else (s.port p).linkSt := by
        rw [if_pos hpairs']
        simp only [hon, and_true]
      have hlane : (if p ∈ s.starters l ∧ s.keepsLane l p = false then s.startState l
            else if p ∈ s.members l ∧ s.keepsLane l p = false then 0 else (s.port p).laneSt) =
          if s.linkOn l = true ∧ p ∈ s.members l ∧ s.keepsLane l p = false then
            (if (∀ m ∈ s.members l, s.pairOn m = true) ∧ p ∈ s.starters l then s.startState l else 0) else (s.port p).laneSt := by
        have := hmember p
        by_cases hs : p ∈ s.starters l
        · simp only [hon, eq_true hpairs', hs, this hs, true_and, if_true]
          split <;> rfl
        · simp [hon, hs]
      exact (congrArg₂ (fun a b => { s.port p with linkSt := a, laneSt := b }) hlink hlane :)
    · next hpairs =>
      have hpairs' := mt hall.2 hpairs
      refine ⟨by rw [hzrest]; rfl, fun p => ?_⟩
      rw [port_modPort, hzero, ite_inLane, ite_linkAt]
      simp only [hon, hpairs', and_true, true_and, if_false, false_and]
  · have hoff : startLink l s = s := by simp [startLink, hon]
    rw [hoff]
    exact ⟨rfl, fun p => by simp [hon]⟩

/-! ### The parameters of a link -/

theorem portP_ne {p q k l : Nat} (hk : k < 0x80) (hl : l < 0x80) (h : k ≠ l) : portP p k ≠ portP q l := by
  unfold portP
  omega

/-- The value that a write of PORT_LINK_CFG0 keeps. -/
def keptCfg (v : Word) : Word := v &&& 0x800037FF

theorem getLsbD_keptCfg_enable (v : Word) : (keptCfg v).getLsbD 31 = v.getLsbD 31 := by
  simp [keptCfg]

theorem fld_clear_enable (v : Word) {hi lo : Nat} (hhi : hi < 31) (hlo : lo ≤ hi) :
    fld (v &&& 0x7FFFFFFF) hi lo = fld v hi lo := by
  have hmask : (v &&& 0x7FFFFFFF).toNat = v.toNat % 2 ^ 31 := by
    rw [BitVec.toNat_and]
    exact Nat.and_two_pow_sub_one_eq_mod v.toNat 31
  refine Nat.eq_of_testBit_eq fun i => ?_
  simp only [fld, bits, hmask, Nat.testBit_mod_two_pow, Nat.testBit_div_two_pow]
  by_cases hi' : i < hi + 1 - lo
  · have hlow : i + lo < 31 := by omega
    simp [hlow]
  · simp [hi']

section
variable (s : State) (l : Nat) (v : Word)

theorem linkCfg_putPar_ne {k : Nat} (hk : 0x60 + k < 0x80) (hk0 : k ≠ 0) (j : Nat) :
    (s.putPar (portP l 0x60) v).linkCfg j k = s.linkCfg j k :=
  State.par_putPar_ne _ _ _ _ (portP_ne hk (by omega) (by omega))

theorem linkCfg_putPar_same : (s.putPar (portP l 0x60) v).linkCfg l 0 = v := State.par_putPar_same ..

theorem linkRate_putPar (j : Nat) : (s.putPar (portP l 0x60) v).linkRate j = s.linkRate j := by
  rw [State.linkRate, State.linkRate, State.par_putPar_ne _ _ _ _ (portP_ne (by omega) (by omega) (by omega))]

theorem linkE_putPar (j : Nat) : (s.putPar (portP l 0x60) v).linkE j = s.linkE j := by
  rw [State.linkE, State.linkE, linkCfg_putPar_ne s l v (by omega) (by omega)]

theorem linkL_putPar (j : Nat) : (s.putPar (portP l 0x60) v).linkL j = s.linkL j := by
  rw [State.linkL, State.linkL, linkCfg_putPar_ne s l v (by omega) (by omega)]

theorem protocol_putPar (p : Nat) : (s.putPar (portP l 0x60) v).protocol p = s.protocol p := by
  rw [State.protocol, State.protocol, State.par_putPar_ne _ _ _ _ (portP_ne (by omega) (by omega) (by omega))]

end

/-- The checks of a commit that RANGE answers, for the written value `kept` (R248). -/
def State.linkWrong (s : State) (l : Nat) (kept : Word) : Prop :=
  let u := s.putPar (portP l 0x60) (kept &&& 0x7FFFFFFF)
  let ms := u.members l
  ms.head? ≠ some l ∨ (∃ p ∈ ms, (u.linkOf p (kept.getLsbD 8)).isSome = true) ∨ (∃ p ∈ ms, s.protocol p ≠ 1) ∨
    (∃ p ∈ ms, (s.par (portP p 0x02)).toNat % 4096 ≠ s.linkRate l) ∨ u.limitsOk l = false ∨
    s.linkE l * 211200 ≤ (s.linkCfg l 2).toNat % 65536 * s.linkRate l ∨ fld kept 13 12 = 3 ∨ ms.length % s.linkL l ≠ 0 ∨
    4 ≤ ((List.range 16).filter u.linkOn).length

theorem linkCheck_eq (s : State) (l : Nat) (kept : Word) [Decidable (s.linkWrong l kept)] :
    (s.putPar (portP l 0x60) (kept &&& 0x7FFFFFFF)).linkCheck l = if s.linkWrong l kept then stRange
      else if ((s.putPar (portP l 0x60) (kept &&& 0x7FFFFFFF)).members l).any (fun p => !s.variant.hasPort p) then stAbsent
      else stSuccess := by
  have htx : (s.putPar (portP l 0x60) (kept &&& 0x7FFFFFFF)).linkTx l = kept.getLsbD 8 := by
    rw [State.linkTx, linkCfg_putPar_same]
    simp
  have hany : ∀ {α : Type} (l : List α) (p : α → Prop) [DecidablePred p], l.any (fun x => decide (p x)) = true ↔ ∃ x ∈ l, p x := by
    simp
  have hrate : ∀ p, fld ((s.putPar (portP l 0x60) (kept &&& 0x7FFFFFFF)).par (portP p 0x02)) 11 0 =
      (s.par (portP p 0x02)).toNat % 4096 := fun p => by
    rw [State.par_putPar_ne _ _ _ _ (portP_ne (by omega) (by omega) (by omega))]
    simp [fld, bits]
  have hdelay : fld (s.linkCfg l 2) 15 0 = (s.linkCfg l 2).toNat % 65536 := by simp [fld, bits]
  unfold State.linkCheck
  dsimp only
  simp only [htx, linkRate_putPar, linkE_putPar, linkL_putPar, protocol_putPar, hrate,
    linkCfg_putPar_ne s l _ (show 0x60 + 2 < 0x80 by omega) (show 2 ≠ 0 by omega), linkCfg_putPar_same,
    fld_clear_enable kept (show 13 < 31 by omega) (show 12 ≤ 13 by omega), hdelay, hany]
  refine if_congr ?_ rfl rfl
  simp only [State.linkWrong, List.any_eq_true, countBelow]

/-! ### PORT_LINK_CFG0 and PORT_SYSREF, host writes (R248, R253) -/

/-- The state in which a committed link starts. -/
def State.linkCommitted (s : State) (l : Nat) (kept : Word) : State :=
  let w := ((s.putPar (portP l 0x60) (kept &&& 0x7FFFFFFF)).putPar (portP l 0x60) kept).modPort l (fun q => { q with
    phi := none, idSeen := [], armed := false })
  if kept.getLsbD 9 = true then w.modPort l (fun q => { q with armed := true, armAbsent := false }) else w

/-- What a write with ENABLE 1 does (R248). -/
theorem writeLinkCfg0_commit {s : State} {l : Nat} {v : Word} (hv : v.getLsbD 31 = true) : writeLinkCfg0 l v s =
    if s.linkOn l then (stBusy, s)
    else
      let st := (s.putPar (portP l 0x60) (keptCfg v &&& 0x7FFFFFFF)).linkCheck l
      if st ≠ 0 then (st, s) else (stSuccess, startLink l (s.linkCommitted l (keptCfg v))) := by
  have hkept : (keptCfg v).getLsbD 31 = true := (getLsbD_keptCfg_enable v).trans hv
  have hsub : ∀ f, (((s.putPar (portP l 0x60) (keptCfg v &&& 0x7FFFFFFF)).putPar (portP l 0x60) (keptCfg v)).modPort l f).linkSub1 l =
      (keptCfg v).getLsbD 9 := fun f => by
    rw [State.linkSub1, State.linkCfg, State.par_modPort, State.par_putPar_same]
  refine (if_pos hkept).trans (ite_congr rfl (fun _ => rfl) fun _ => ite_congr rfl (fun _ => rfl) fun _ => ?_)
  rw [State.linkCommitted, ← hsub]
  rfl

section
variable {s : State} {l : Nat} {v : Word} (hl : l < 16) (hw : s.Writes (portP l 0x60))
include hl hw

theorem exec_linkCommit (hv : v.getLsbD 31 = true) : exec (.linkCommit l v) s = .next
    (if s.linkOn l then s.ended stBusy
    else
      let st := (s.putPar (portP l 0x60) (keptCfg v &&& 0x7FFFFFFF)).linkCheck l
      if st ≠ 0 then s.ended st else (startLink l (s.linkCommitted l (keptCfg v))).ended 0) := by
  show execLinkCommit l v s = _
  rw [execLinkCommit, hv, decide_eq_true hl, Bool.true_and, if_pos rfl, hostEntry_eq hw, writeLinkCfg0_commit hv]
  dsimp only
  split_ifs <;> rfl

theorem exec_linkDisable (hv : v.getLsbD 31 = false) : exec (.linkDisable l v) s = .next
    ((if s.linkOn l then ((setLanes l (s.members l) 0 s).putPar (portP l 0x60) (keptCfg v)).modPort l (fun q => { q with
        linkSt := 0, armed := false, phi := none })
      else s.putPar (portP l 0x60) (keptCfg v)).ended 0) := by
  have hkept : ¬ (keptCfg v).getLsbD 31 = true := by rw [getLsbD_keptCfg_enable, hv]; exact Bool.false_ne_true
  show execLinkDisable l v s = _
  rw [execLinkDisable, hv, decide_eq_true hl, Bool.and_true, Bool.not_false, if_pos rfl, hostEntry_eq hw]
  show Host.Outcome.next (((if (keptCfg v).getLsbD 31 then _ else _ : Nat × State).2).ended
    (if (keptCfg v).getLsbD 31 then _ else _ : Nat × State).1) = _
  rw [if_neg hkept]
  split <;> rfl

end

/-- Settles the first part of O27: a write of PORT_LINK_CFG0. -/
theorem linkCfg0_written {s : State} {l : Nat} {v : Word} (hl : l < 16) (hw : s.Writes (portP l 0x60)) :
    let kept := keptCfg v
    let ms := (s.putPar (portP l 0x60) (kept &&& 0x7FFFFFFF)).members l
    (v.getLsbD 31 = true →
      (s.linkOn l = true → exec (.linkCommit l v) s = .next (s.ended 0x0A)) ∧
      (s.linkOn l = false →
        (s.linkWrong l kept → exec (.linkCommit l v) s = .next (s.ended 0x09)) ∧
        (¬ s.linkWrong l kept → (∃ p ∈ ms, s.variant.hasPort p = false) → exec (.linkCommit l v) s = .next (s.ended 0x0C)) ∧
        (¬ s.linkWrong l kept → (∀ p ∈ ms, s.variant.hasPort p = true) → ∃ t : State,
          (s.linkCommitted l kept).LinkStarts t l ∧ exec (.linkCommit l v) s = .next (t.ended 0)))) ∧
    (v.getLsbD 31 = false →
      (s.linkOn l = false → exec (.linkDisable l v) s = .next ((s.putPar (portP l 0x60) kept).ended 0)) ∧
      (s.linkOn l = true → ∃ t : State, exec (.linkDisable l v) s = .next (t.ended 0) ∧
        t = { s.putPar (portP l 0x60) kept with ports := t.ports } ∧
        ∀ p, t.port p =
          if p = l then
            { s.port p with
                linkSt := 0, armed := false, phi := none
                laneSt := if p ∈ s.members l ∧ s.keepsLane l p = false then 0 else (s.port p).laneSt }
          else { s.port p with laneSt := if p ∈ s.members l ∧ s.keepsLane l p = false then 0 else (s.port p).laneSt })) := by
  intro kept ms
  refine ⟨fun hv => ⟨fun hon => ?_, fun hoff => ?_⟩, fun hv => ⟨fun hoff => ?_, fun hon => ?_⟩⟩
  · rw [exec_linkCommit hl hw hv, if_pos hon]; rfl
  · classical
    have hexec := exec_linkCommit hl hw hv
    rw [if_neg (Bool.eq_false_iff.1 hoff), linkCheck_eq] at hexec
    have habsent : ms.any (fun p => !s.variant.hasPort p) = true ↔ ∃ p ∈ ms, s.variant.hasPort p = false := by simp
    refine ⟨fun h => ?_, fun h h1 => ?_, fun h h1 => ⟨_, startLink_starts .., ?_⟩⟩
    · rw [hexec, if_pos h]; rfl
    · rw [hexec, if_neg h, if_pos (habsent.2 h1)]; rfl
    · rw [hexec, if_neg h, if_neg (mt habsent.1 (by simpa using h1))]; rfl
  · rw [exec_linkDisable hl hw hv, if_neg (Bool.eq_false_iff.1 hoff)]
  · refine ⟨_, exec_linkDisable hl hw hv, ?_, fun p => ?_⟩
    · rw [if_pos hon, setLanes_rest]; rfl
    · have hlanes : ∀ q, ((setLanes l (s.members l) 0 s).putPar (portP l 0x60) (keptCfg v)).port q =
          { s.port q with laneSt := if q ∈ s.members l ∧ s.keepsLane l q = false then 0 else (s.port q).laneSt } := fun q => by
        rw [State.port_putPar, port_setLanes, ite_inLane]
      rw [if_pos hon, port_modPort, hlanes]

theorem exec_sysrefArm {s : State} {l : Nat} {v : Word} (hl : l < 16) (hv : v.getLsbD 8 = true) (hw : s.Writes (portP l 0x63)) :
    exec (.sysrefArm l v) s = .next
      (if s.linkOn l && decide (v &&& 0x1F#32 ≠ s.par (portP l 0x63) &&& 0x1F#32) then s.ended stBusy
      else ((s.putPar (portP l 0x63) (v &&& 0x1F)).modPort l (fun q => { q with armed := true, armAbsent := false })).ended 0) := by
  show execSysrefArm l v s = _
  rw [execSysrefArm, hv, decide_eq_true hl, Bool.true_and, if_pos rfl, hostEntry_eq hw, writeSysref, hv]
  dsimp only
  split <;> rfl

/-! ### PORT_PROTOCOL and PORT_RESET (R23, R244, R309) -/

theorem exec_portProtocol {s : State} {l : Nat} {v : Word} (hl : l < 16) (hw : s.Writes (portP l 0x01)) :
    exec (.portProtocol l v) s = .next (
      if v.toNat % 4 = 3 then s.ended stRange
      else if v.toNat % 4 = 2 ∧ s.variant.hasSeam l = false then s.ended stAbsentUnit
      else if v.toNat % 4 ≠ 0 ∧ (s.par (portP l 0x02)).toNat % 4096 = 0 then s.ended stRange
      else (portReset l ((if s.protocol l = 2 then seamDown l 5 s else s).putPar (portP l 0x01) (wd (v.toNat % 4)))).ended 0) := by
  have hk : fld v 1 0 = v.toNat % 4 := by simp [fld, bits]
  have hrate : fld (s.par (portP l 0x02)) 11 0 = (s.par (portP l 0x02)).toNat % 4096 := by simp [fld, bits]
  show execPortProtocol l v s = _
  rw [execPortProtocol, if_pos hl, hostEntry_eq hw, writeProtocol, hk, hrate]
  dsimp only
  split_ifs <;> rfl

/-- The checks of PORT_RESET in their order. -/
theorem portResetCmd_eq (c : Cmd) (s : State) : portResetCmd c s =
    let ps := (List.range 16).filter (fun k => (leAt c.body 0 2).testBit k)
    if ps.any (fun p => !s.variant.hasPort p) then respond c stAbsent [] s
    else if ps.any (fun p => !s.domOn (16 + p / 2)) then respond c stAsleep [] s
    else if ps.any (fun p => decide ((s.dom (16 + p / 2)).damper ≠ .openD)) then respond c stBusy [] s
    else respond c stSuccess [] (ps.foldl (fun s p => portReset p s) s) := by
  rw [portResetCmd, maskList_eq]

theorem domOn_eq_false_iff (s : State) (d : Nat) :
    s.domOn d = false ↔ (s.dom d).st ≠ .on ∨ (s.dom d).rekindling = true := by
  simp [State.domOn, Decidable.imp_iff_not_or]

theorem domOn_iff (s : State) (d : Nat) : s.domOn d = true ↔ (s.dom d).st = .on ∧ (s.dom d).rekindling = false := by
  simp [State.domOn]

/-- Settles the fourth part of O27: PORT_RESET. -/
theorem portReset_checked {s : State} {c : Cmd} (hstarts : s.Starts c 0x43) :
    let ps := (List.range 16).filter (fun k => (leAt c.body 0 2).testBit k)
    ((∃ k ∈ ps, s.variant.hasPort k = false) → exec (.portReset c.via) s = .next (respond c 0x0C [] s)) ∧
    ((∀ k ∈ ps, s.variant.hasPort k = true) →
      ((∃ k ∈ ps, (s.dom (16 + k / 2)).st ≠ .on ∨ (s.dom (16 + k / 2)).rekindling = true) →
        exec (.portReset c.via) s = .next (respond c 0x21 [] s)) ∧
      ((∀ k ∈ ps, (s.dom (16 + k / 2)).st = .on ∧ (s.dom (16 + k / 2)).rekindling = false) →
        ((∃ k ∈ ps, (s.dom (16 + k / 2)).damper ≠ .openD) → exec (.portReset c.via) s = .next (respond c 0x0A [] s)) ∧
        ((∀ k ∈ ps, (s.dom (16 + k / 2)).damper = .openD) →
          exec (.portReset c.via) s = .next (respond c 0 [] (ps.foldl (fun r p => portReset p r) s))))) := by
  intro ps
  have hexec : exec (.portReset c.via) s = .next (portResetCmd c s) := congrArg _ (runCmd_eq hstarts _)
  have habsent : ps.any (fun p => !s.variant.hasPort p) = true ↔ ∃ k ∈ ps, s.variant.hasPort k = false := by simp
  have hasleep : ps.any (fun p => !s.domOn (16 + p / 2)) = true ↔
      ∃ k ∈ ps, (s.dom (16 + k / 2)).st ≠ .on ∨ (s.dom (16 + k / 2)).rekindling = true := by
    simp only [List.any_eq_true, Bool.not_eq_true', domOn_eq_false_iff]
  have hclosed : ps.any (fun p => decide ((s.dom (16 + p / 2)).damper ≠ .openD)) = true ↔
      ∃ k ∈ ps, (s.dom (16 + k / 2)).damper ≠ .openD := by simp
  have hawake : (∀ k ∈ ps, (s.dom (16 + k / 2)).st = .on ∧ (s.dom (16 + k / 2)).rekindling = false) →
      ¬ ∃ k ∈ ps, (s.dom (16 + k / 2)).st ≠ .on ∨ (s.dom (16 + k / 2)).rekindling = true := by
    rintro hon ⟨k, hk, h⟩
    obtain ⟨hst, hrekindling⟩ := hon k hk
    simp [hst, hrekindling] at h
  rw [hexec, portResetCmd_eq]
  refine ⟨fun h => ?_, fun hpresent => ⟨fun h => ?_, fun hon => ⟨fun h => ?_, fun hopen => ?_⟩⟩⟩
  · rw [if_pos (habsent.2 h)]; rfl
  · rw [if_neg (mt habsent.1 (by simpa using hpresent)), if_pos (hasleep.2 h)]; rfl
  · rw [if_neg (mt habsent.1 (by simpa using hpresent)), if_neg (mt hasleep.1 (hawake hon)), if_pos (hclosed.2 h)]; rfl
  · rw [if_neg (mt habsent.1 (by simpa using hpresent)), if_neg (mt hasleep.1 (hawake hon)), if_neg (mt hclosed.1 (by simpa using hopen))]
    rfl

/-! ### A port reset (source 7, Table 4.6) -/

/-- A port that is not a seam port, at its reset values. -/
def State.portCleared (s : State) (l : Nat) : State :=
  (s.count (portP l 0x06) 1).modPort l (fun q =>
    { q with
      rateNow := (s.par (portP l 0x02)).toNat % 4096, cdr := false, inverted := false, polDone := false, txFault := false
      phi := none, armed := false, armAbsent := false, idSeen := [], txBuf := [], ringK := 0, laneSt := 0, linkSt := 0
      ctle := Max.max ((s.par (portP l 0x09)).toNat % 16) (Min.min ((s.par (portP l 0x09)).toNat / 256 % 16) 8)
      dfe := [0, 0, 0, 0, 0], seam := Seam.reset })

/-- The link of direction `tx` that port `l` belongs to goes down and restarts. -/
def resetLink (l : Nat) (s : State) (tx : Bool) : State :=
  match s.linkOf l tx with
  | some k => dropLink k (if s.linkSub1 k then armSysref k s else s)
  | none => s

theorem portReset_eq {s : State} {l : Nat} (h : s.protocol l ≠ 2) :
    portReset l s = resetLink l (resetLink l (s.portCleared l) false) true := by
  have hrate : fld (s.par (portP l 0x02)) 11 0 = (s.par (portP l 0x02)).toNat % 4096 := by simp [fld, bits]
  have hctle : clampCtle (s.par (portP l 0x09)) 8 =
      Max.max ((s.par (portP l 0x09)).toNat % 16) (Min.min ((s.par (portP l 0x09)).toNat / 256 % 16) 8) := by
    simp [clampCtle, fld, bits]
  unfold portReset
  simp only [if_neg h, hrate, hctle]
  rfl

/-- The links of a state turn on the words of PORT_LINK_CFG0. -/
theorem linkOf_congr {s t : State} (h : ∀ j, t.linkCfg j 0 = s.linkCfg j 0) (p : Nat) (tx : Bool) : t.linkOf p tx = s.linkOf p tx := by
  have hon : t.linkOn = s.linkOn := funext fun j => by rw [State.linkOn, State.linkOn, h]
  have htx : t.linkTx = s.linkTx := funext fun j => by rw [State.linkTx, State.linkTx, h]
  have hmembers : t.members = s.members := funext fun j => by rw [State.members, State.members, h]
  rw [State.linkOf, State.linkOf, hon, htx, hmembers]

theorem linkCfg_portCleared (s : State) (l j : Nat) : (s.portCleared l).linkCfg j 0 = s.linkCfg j 0 := by
  rw [State.linkCfg, State.portCleared, State.par_modPort, State.par_count_ne _ _ _ _ (portP_ne (by omega) (by omega) (by omega))]
  rfl

/-- The state in which a link that a port reset takes down restarts. -/
def State.linkDown (s : State) (k : Nat) : State :=
  let armed := if s.linkSub1 k = true then s.modPort k (fun q => { q with armed := true, armAbsent := false }) else s
  if (s.port k).linkSt = 6 then armed.count (portP k 0x13) 1 else armed

theorem resetLink_some {s : State} {l k : Nat} {tx : Bool} (h : s.linkOf l tx = some k) :
    resetLink l s tx = startLink k (s.linkDown k) := by
  have hst : ((if s.linkSub1 k = true then s.modPort k (fun q => { q with armed := true, armAbsent := false }) else s).port k).linkSt =
      (s.port k).linkSt := by
    split
    · rw [State.port_modPort_same]
    · rfl
  rw [resetLink, h]
  show dropLink k (if s.linkSub1 k = true then s.modPort k (fun q => { q with armed := true, armAbsent := false }) else s) = _
  rw [dropLink, hst]
  rfl

theorem resetLink_none {s : State} {l : Nat} {tx : Bool} (h : s.linkOf l tx = none) : resetLink l s tx = s := by
  rw [resetLink, h]

theorem linkCfg_linkDown (s : State) (k j : Nat) : (startLink k (s.linkDown k)).linkCfg j 0 = s.linkCfg j 0 := by
  have harmed : (if s.linkSub1 k = true then s.modPort k (fun q => { q with armed := true, armAbsent := false }) else s).linkCfg j 0 =
      s.linkCfg j 0 := by
    split <;> rfl
  have hdown : (s.linkDown k).linkCfg j 0 = s.linkCfg j 0 := by
    rw [← harmed, State.linkDown]
    split
    · exact State.par_count_ne _ _ _ _ (portP_ne (by omega) (by omega) (by omega))
    · rfl
  rw [← hdown, (startLink_starts k (s.linkDown k)).rest]
  rfl

/-- Settles O27: the writes of PORT_LINK_CFG0, PORT_SYSREF and PORT_PROTOCOL, PORT_RESET, and one port reset. -/
theorem linksAreCommittedAndPortsReset : Obligations.LinksAreCommittedAndPortsReset := by
  intro s l v c kept u ms wrong ps
  refine ⟨fun hl hw => linkCfg0_written hl hw, fun hl hv hw => ⟨fun hon hbits => ?_, fun hsame => ?_⟩, ?_, portReset_checked, ?_⟩
  · rw [exec_sysrefArm hl hv hw, if_pos (by simpa [hon] using hbits)]
    rfl
  · have hfree : ¬ (s.linkOn l && decide (v &&& 0x1F#32 ≠ s.par (portP l 0x63) &&& 0x1F#32)) = true := by
      obtain h | h := hsame
      · simp [h]
      · simpa using fun _ => h
    rw [exec_sysrefArm hl hv hw, if_neg hfree]
  · intro k hl hw
    rw [exec_portProtocol hl hw]
    refine ⟨fun h => ?_, fun h2 hseam => ?_, fun h => ?_⟩
    · by_cases h3 : v.toNat % 4 = 3
      · rw [if_pos h3]; rfl
      · obtain ⟨hk, hrate⟩ : (k = 1 ∨ (k = 2 ∧ s.variant.hasSeam l = true)) ∧ (s.par (portP l 0x02)).toNat % 4096 = 0 :=
          h.resolve_left h3
        obtain h1 | ⟨h2, hseam⟩ := hk
        · rw [if_neg h3, if_neg (fun e => absurd (h1.symm.trans e.1) (by decide)), if_pos ⟨by omega, hrate⟩]; rfl
        · rw [if_neg h3, if_neg (by rw [hseam]; exact fun e => absurd e.2 (by decide)), if_pos ⟨by omega, hrate⟩]; rfl
    · rw [if_neg (by omega), if_pos ⟨h2, hseam⟩]; rfl
    · obtain h0 | ⟨h1 | ⟨h2, hseam⟩, hrate⟩ := h
      · rw [if_neg (by omega), if_neg (fun e => absurd (h0.symm.trans e.1) (by decide)), if_neg (fun e => e.1 h0)]
      · rw [if_neg (by omega), if_neg (fun e => absurd (h1.symm.trans e.1) (by decide)), if_neg (fun e => hrate e.2)]
      · rw [if_neg (by omega), if_neg (by rw [hseam]; exact fun e => absurd e.2 (by decide)), if_neg (fun e => hrate e.2)]
  · intro reset armed hl hprotocol
    have hreset : reset = s.portCleared l := rfl
    have hof : ∀ tx, (s.portCleared l).linkOf l tx = s.linkOf l tx := linkOf_congr (linkCfg_portCleared s l) l
    rw [portReset_eq hprotocol]
    refine ⟨fun hrx htx => ?_, fun k tx hk hother => ?_⟩
    · rw [resetLink_none ((hof false).trans hrx), resetLink_none ((hof true).trans htx)]
      rfl
    · have hdown : (if (reset.port k).linkSt = 6 then (armed k).count (portP k 0x13) 1 else armed k) = (s.portCleared l).linkDown k := by
        have hsub : (s.portCleared l).linkSub1 k = s.linkSub1 k := by
          rw [State.linkSub1, linkCfg_portCleared]
          rfl
        rw [State.linkDown, hsub]
        rfl
      rw [hdown]
      cases tx with
      | false =>
        rw [resetLink_some ((hof false).trans hk), resetLink_none]
        · exact startLink_starts ..
        · exact (linkOf_congr (linkCfg_linkDown _ _) l true).trans ((hof true).trans hother)
      | true =>
        rw [resetLink_none ((hof false).trans hother), resetLink_some ((hof true).trans hk)]
        exact startLink_starts ..

end Sys2Proof.Machine
end

section
/-!
PROOF of O28 (chapter 14): JESD204C links lock, remap, come up and go down.  A move of a link is `setLink`, which
`setLink_moves` says lane by lane; a fall is `dropLink`, which O27's `startLink_starts` says.
-/

namespace Sys2Proof.Machine

/-! ### A link and its lanes move to a state -/

theorem starting_congr {s t : State} {l : Nat} (hmembers : t.members l = s.members l)
    (hlanes : ∀ p, (t.port p).laneSt = (s.port p).laneSt) : t.starting l = s.starting l := by
  simp only [State.starting, hmembers, hlanes]

theorem setLink_moves (l k : Nat) (s : State) : s.LinkMoves (setLink l k s) l k := by
  have hstarting : (s.modPort l (Port.linkAt · k)).starting l = s.starting l := starting_congr rfl fun p => by
    rw [port_modPort]
    split <;> rfl
  have hkeeps : ∀ p, (s.modPort l (Port.linkAt · k)).keepsLane l p = s.keepsLane l p := fun p => keepsLane_congr rfl (by
    rw [port_modPort]
    split <;> rfl)
  show s.LinkMoves (setLanes l (s.starting l) k (s.modPort l (Port.linkAt · k))) l k
  refine ⟨by rw [setLanes_rest]; rfl, fun p => ?_⟩
  rw [port_setLanes, hkeeps, port_modPort, ite_inLane, ite_linkAt]

/-- What lets a receive link act in start state `k`. -/
theorem rxIn_eq {s : State} {l k : Nat}
    (h : s.clocked = true ∧ l < 16 ∧ s.linkOn l = true ∧ s.linkTx l = false ∧ (s.port l).linkSt = k) : s.rxIn l k = true := by
  obtain ⟨hclocked, hl, hon, htx, hstate⟩ := h
  simp [State.rxIn, hclocked, hl, hon, htx, hstate]

theorem keepsLane_rx {s : State} {l : Nat} (htx : s.linkTx l = false) (p : Nat) : s.keepsLane l p = false := by
  rw [State.keepsLane, htx, Bool.false_and]

/-! ### CDR lock and sync headers (R250, R251, R266) -/

/-- A port whose clock recovery has locked. -/
def Port.locked (q : Port) : Port := { q with cdr := true, signal := true }

theorem foldl_locked_rest (ps : List Nat) : ∀ s : State,
    ps.foldl (fun s p => s.modPort p Port.locked) s =
      { s with ports := (ps.foldl (fun s p => s.modPort p Port.locked) s).ports } := by
  induction ps with
  | nil => exact fun _ => rfl
  | cons p ps ih =>
    intro s
    rw [List.foldl_cons, ih]
    rfl

theorem port_foldl_locked (ps : List Nat) (p : Nat) : ∀ s : State,
    (ps.foldl (fun s p => s.modPort p Port.locked) s).port p = if p ∈ ps then (s.port p).locked else s.port p := by
  induction ps with
  | nil => simp
  | cons a ps ih =>
    intro s
    rw [List.foldl_cons, ih, port_modPort]
    by_cases ha : p = a <;> by_cases hp : p ∈ ps <;> simp [ha, hp, Port.locked]

theorem mayLeaveCdr_eq {s : State} {l : Nat} (hstarting : s.starting l ≠ [])
    (hdecided : ∀ p ∈ s.members l, ((s.port p).present = true → (s.port p).bind ≠ 0) ∧
      ((s.linkCfg l 0).getLsbD 10 = true ∨ (s.port p).joins = true)) : s.mayLeaveCdr l = true := by
  have hall : (s.members l).all (fun p => (!(s.port p).present || decide ((s.port p).bind ≠ 0)) &&
      ((s.linkCfg l 0).getLsbD 10 || (s.port p).joins)) = true := List.all_eq_true.2 fun p hp => by
    obtain ⟨hbind, hjoins⟩ := hdecided p hp
    have hleft : (!(s.port p).present || decide ((s.port p).bind ≠ 0)) = true := by
      cases hpresent : (s.port p).present
      · rfl
      · exact decide_eq_true (hbind hpresent)
    rw [hleft, Bool.true_and, Bool.or_eq_true]
    exact hjoins
  rw [State.mayLeaveCdr, hall, Bool.true_and, Bool.not_eq_true', List.isEmpty_eq_false_iff]
  exact hstarting

/-- The lanes that leave CDR lock, and the others. -/
def Port.leavesCdr (q : Port) (lead starts takesPart : Prop) [Decidable lead] [Decidable starts] [Decidable takesPart] : Port :=
  { q with
    linkSt := if lead then 2 else q.linkSt
    laneSt := if starts then (if takesPart then 2 else 0) else q.laneSt
    cdr := q.cdr || decide (starts ∧ takesPart), signal := q.signal || decide (starts ∧ takesPart) }

theorem mem_starting {s : State} {l p : Nat} :
    p ∈ s.starting l ↔ p ∈ s.members l ∧ (s.port p).laneSt ≠ 0 ∧ (s.port p).laneSt ≠ 7 := by
  simp [State.starting]

theorem exec_cdrLock {s : State} {l : Nat} (hrx : s.rxIn l 1 = true) (htx : s.linkTx l = false) (hmay : s.mayLeaveCdr l = true) :
    ∃ t, exec (.cdrLock l) s = .next t ∧ t = { s with ports := t.ports } ∧
      ∀ p, t.port p = (s.port p).leavesCdr (p = l) (p ∈ s.starting l) (p ∈ s.starters l) := by
  let out := (s.starting l).filter (fun p => !(s.starters l).contains p)
  have hzrest := setLanes_rest l out 0 s
  have hzero := port_setLanes l out 0 s
  have hmoves := setLink_moves l 2 (setLanes l out 0 s)
  have hexec : exec (.cdrLock l) s = .next (((setLink l 2 (setLanes l out 0 s)).starting l).foldl (fun s p =>
      s.modPort p Port.locked) (setLink l 2 (setLanes l out 0 s))) := by
    show execCdrLock l s = _
    rw [execCdrLock, hrx, hmay]
    rfl
  have hout : ∀ p, p ∈ out ↔ p ∈ s.starting l ∧ p ∉ s.starters l := fun p => by simp [out]
  refine ⟨_, hexec, ?_, fun p => ?_⟩
  · rw [foldl_locked_rest, hmoves.rest, hzrest]
  · generalize setLanes l out 0 s = z at hzrest hzero hmoves
    generalize setLink l 2 z = y at hmoves
    have hmembers : z.members l = s.members l := by rw [hzrest]; rfl
    have hmembers' : y.members l = z.members l := by rw [hmoves.rest]; rfl
    have hlane : (z.port p).laneSt = if p ∈ out then 0 else (s.port p).laneSt := by
      rw [hzero, keepsLane_rx htx, ite_inLane]
      simp
    have hz : p ∈ z.starting l ↔ p ∈ s.starting l ∧ p ∈ s.starters l := by
      rw [mem_starting, hmembers, hlane, if_congr (hout p) rfl rfl]
      by_cases h : p ∈ s.starting l
      · obtain ⟨hmember, h0, h7⟩ := mem_starting.1 h
        by_cases hs : p ∈ s.starters l <;> simp [h, hs, hmember, h0, h7]
      · rw [if_neg (fun hp => h hp.1), ← mem_starting]
        simp [h]
    have htx' : z.linkTx l = false := by rw [hzrest]; exact htx
    have hlane' : (y.port p).laneSt = if p ∈ z.starting l then 2 else (z.port p).laneSt := by
      rw [hmoves.ports, keepsLane_rx htx']
      simp
    have hy : p ∈ y.starting l ↔ p ∈ z.starting l := by
      simp only [mem_starting, hmembers', hlane']
      by_cases h : p ∈ z.members l ∧ (z.port p).laneSt ≠ 0 ∧ (z.port p).laneSt ≠ 7
      · simp [h]
      · simp [h]
    rw [port_foldl_locked, hmoves.ports, hzero, keepsLane_rx htx, keepsLane_rx htx']
    simp only [and_true, hy, hz, hout]
    by_cases hs : p ∈ s.starting l <;> by_cases hk : p ∈ s.starters l <;> simp [hs, hk, Port.locked, Port.inLane, Port.leavesCdr]

/-! ### Pilots and lane identity (R258, R259) -/

section
variable (s : State) (l : Nat) (carried : List (Option Nat))

/-- The members that take part, with their places in the link. -/
def State.placed : List (Nat × Nat) := (s.members l).zipIdx.filter (fun q => (s.starting l).contains q.1)

/-- Every lane carries the position of its place. -/
def State.straight : Prop := ∀ q ∈ s.placed l, carried.getD q.2 none = some q.2

/-- The positions that the lanes carry lie within one converter device each and are distinct. -/
def State.proper : Prop :=
  (∀ q ∈ s.placed l, ∃ k, carried.getD q.2 none = some k ∧ k / s.linkL l = q.2 / s.linkL l ∧ k < (s.members l).length) ∧
    ((s.placed l).map (fun q => carried.getD q.2 none)).Nodup

theorem inOrder_iff : s.inOrder l carried = true ↔ s.straight l carried := by
  simp only [State.inOrder, List.all_eq_true, decide_eq_true_eq]
  rfl

theorem permOk_iff : s.permOk l carried = true ↔ s.proper l carried := by
  have hplace : ∀ q : Nat × Nat, (match carried.getD q.2 none with
      | some c => decide (c / s.linkL l = q.2 / s.linkL l ∧ c < (s.members l).length)
      | none => false) = true ↔
        ∃ k, carried.getD q.2 none = some k ∧ k / s.linkL l = q.2 / s.linkL l ∧ k < (s.members l).length := fun q => by
    cases carried.getD q.2 none <;> simp
  rw [State.permOk, Bool.and_eq_true, decide_eq_true_eq, List.all_eq_true]
  exact and_congr (forall₂_congr fun q _ => hplace q) Iff.rfl

end

theorem foldl_digits_lt (digit : Nat → Nat) : ∀ n, (∀ i, i < n → digit i < 8) →
    (List.range n).foldl (fun a i => a + digit i * 8 ^ i) 0 < 8 ^ n := by
  intro n
  induction n with
  | zero => exact fun _ => Nat.one_pos
  | succ n ih =>
    intro hdigit
    have hlow := ih fun i hi => hdigit i (by omega)
    have htop : digit n * 8 ^ n ≤ 7 * 8 ^ n := Nat.mul_le_mul_right _ (Nat.le_of_lt_succ (hdigit n n.lt_succ_self))
    rw [List.range_succ, List.foldl_append, List.foldl_cons, List.foldl_nil, Nat.pow_succ]
    omega

theorem permWord_lt (carried : List (Option Nat)) : permWord carried < 8 ^ 8 :=
  foldl_digits_lt (fun i => match carried.getD i none with | some c => c % 8 | none => i) 8 fun i hi => by
    split
    · exact Nat.mod_lt _ (by omega)
    · exact hi

theorem toNat_permWord (carried : List (Option Nat)) : (wd (permWord carried)).toNat = permWord carried :=
  (BitVec.toNat_ofNat _ _).trans (Nat.mod_eq_of_lt (Nat.lt_trans (permWord_lt carried) (by decide)))

section
variable {s : State} {l : Nat}

theorem exec_embLock {inverted : BitVec 8} (hrx : s.rxIn l 3 = true) :
    exec (.embLock l inverted) s = .next
      (let bad := (s.starting l).filter (fun p => inverted.getLsbD (p % 8))
       if bad.all (fun p => (s.par (portP p 0x03)).getLsbD 0) then
         setLink l (if fld (s.linkCfg l 0) 13 12 = 0 then 5 else 4) (bad.foldl (fun s p => correctPolarity p s) s)
       else s) := by
  show execEmbLock l inverted s = _
  rw [execEmbLock, hrx]
  rfl

theorem exec_idWindowDone {carried : List (Option Nat)} (hrx : s.rxIn l 4 = true) :
    exec (.idWindowDone l carried) s = .next
      (if s.inOrder l carried then setLink l 5 (s.putPar (portP l 0x67) (wd (permWord carried)))
       else if s.permOk l carried && decide (fld (s.linkCfg l 0) 13 12 = 2) then
         setLink l 5 (reportIdentity l 3 carried (leBytes 4 (permWord carried)) (s.putPar (portP l 0x67) (wd (permWord carried))))
       else reportIdentity l 2 carried [] (s.count (portP l 0x27) 1)) := by
  show execIdWindowDone l carried s = _
  rw [execIdWindowDone, hrx]
  rfl

theorem correctPolarity_eq (p : Nat) (r : State) : correctPolarity p r =
    (let w := r.modPort p (fun q => { q with inverted := !q.inverted, polDone := true })
     if (r.port p).polDone = true then w else w.raiseLane p 1) := by
  unfold correctPolarity
  cases (r.port p).polDone <;> rfl

end

/-! ### A link comes up (R251, R254) -/

section
variable {s : State} {l : Nat}

/-- `t` is `u` after the link of lead `l` came up with this latency. -/
def State.Up (u t : State) (l latency : Nat) : Prop :=
  ∃ w, (u.modPort l (fun q => { q with idSeen := [] })).LinkMoves w l 6 ∧
    t = (((w.count (portP l 0x70) 1).putPair (portP l 0x71) u.clk.tick.toNat).putPar (portP l 0x73)
      (wd (Min.min 65535 latency))).raiseLink l 1 []

theorem linkUp_up (u : State) (latency : Nat) : u.Up (linkUp l latency u) l latency := by
  have hmoves := setLink_moves l 6 (u.modPort l (fun q => { q with idSeen := [] }))
  have hclk : (setLink l 6 (u.modPort l (fun q => { q with idSeen := [] }))).clk = u.clk := by
    rw [hmoves.rest]
    rfl
  refine ⟨_, hmoves, ?_⟩
  rw [linkUp, hclk]

/-- The arrival times as PORT_ARRIVAL keeps them. -/
def State.arrivals (s : State) (l earliest latest : Nat) : State :=
  let old := (s.par (portP l 0x18)).toNat
  let e := Min.min 65535 earliest
  let t := Min.min 65535 latest
  s.putPar (portP l 0x18) (wd (if old = 0 then e + 65536 * t else Min.min (old % 65536) e + 65536 * Max.max (old / 65536) t))

theorem noteArrival_eq (earliest latest : Nat) : noteArrival l earliest latest s = s.arrivals l earliest latest := by
  have hlow : bits (s.parN (portP l 0x18)) 15 0 = (s.par (portP l 0x18)).toNat % 65536 := by simp [bits, State.parN]
  have hhigh : bits (s.parN (portP l 0x18)) 31 16 = (s.par (portP l 0x18)).toNat / 65536 :=
    Nat.mod_eq_of_lt (Nat.div_lt_of_lt_mul (s.par (portP l 0x18)).isLt)
  rw [noteArrival, hlow, hhigh]
  rfl

theorem exec_releaseWaitDone {earliest latest : Nat} (hclocked : s.clocked = true) (hl : l < 16) (hon : s.linkOn l = true)
    (hstate : (s.port l).linkSt = 5) : exec (.releaseWaitDone l earliest latest) s = .next
      (let phased := !s.linkSub1 l || (s.port l).phi.isSome
       let n := s.arrivals l earliest latest
       if s.linkTx l then (if phased && s.kin.outputs then linkUp l ((s.linkCfg l 2).toNat % 65536) s else s)
       else if !phased then n
       else if !s.linkSub1 l then linkUp l (latest + 8) n
       else if latest + 8 ≤ (s.linkCfg l 2).toNat % 65536 ∧
           ((s.linkCfg l 2).toNat % 65536 + 8 - earliest) * s.linkRate l ≤ 64 * 6600 then
         linkUp l ((s.linkCfg l 2).toNat % 65536) n
       else n) := by
  have hcfg : ∀ k, (s.arrivals l earliest latest).linkCfg l k = s.linkCfg l k := fun k =>
    State.par_putPar_ne _ _ _ _ (by unfold portP; omega)
  have hrate : (s.arrivals l earliest latest).linkRate l = s.linkRate l := by
    rw [State.linkRate, State.linkRate, State.arrivals, State.par_putPar_ne _ _ _ _ (portP_ne (by omega) (by omega) (by omega))]
  have hsub : (s.arrivals l earliest latest).linkSub1 l = s.linkSub1 l := by rw [State.linkSub1, hcfg]; rfl
  have hrbd : fld (s.linkCfg l 2) 15 0 = (s.linkCfg l 2).toNat % 65536 := by simp [fld, bits]
  have hgate : (s.clocked && decide (l < 16) && s.linkOn l && decide ((s.port l).linkSt = 5)) = true := by
    simp [hclocked, hl, hon, hstate]
  show execReleaseWaitDone l earliest latest s = _
  simp only [execReleaseWaitDone, hgate, noteArrival_eq, hsub, hcfg, hrbd, State.windowOk, hrate, Bool.not_true,
    Bool.false_eq_true, if_false, Bool.and_eq_true, decide_eq_true_eq]

end

/-- The release of a link whose words wait (R254). -/
theorem linkReleased (s : State) (l earliest latest : Nat) :
    let rbd := (s.linkCfg l 2).toNat % 65536
    let fits := latest + 8 ≤ rbd ∧ (rbd + 8 - earliest) * s.linkRate l ≤ 64 * 6600
    s.clocked = true → l < 16 → s.linkOn l = true → (s.port l).linkSt = 5 →
    (s.linkTx l = true →
      ((s.linkSub1 l = false ∨ (s.port l).phi ≠ none) → s.kin.outputs = true →
        ∃ u, exec (.releaseWaitDone l earliest latest) s = .next u ∧ s.Up u l rbd) ∧
      (((s.linkSub1 l = true ∧ (s.port l).phi = none) ∨ s.kin.outputs = false) → exec (.releaseWaitDone l earliest latest) s = .next s)) ∧
    (s.linkTx l = false →
      (s.linkSub1 l = false → ∃ u, exec (.releaseWaitDone l earliest latest) s = .next u ∧
        (s.arrivals l earliest latest).Up u l (latest + 8)) ∧
      (s.linkSub1 l = true → (s.port l).phi ≠ none → fits → ∃ u, exec (.releaseWaitDone l earliest latest) s = .next u ∧
        (s.arrivals l earliest latest).Up u l rbd) ∧
      (s.linkSub1 l = true → ((s.port l).phi = none ∨ ¬ fits) →
        exec (.releaseWaitDone l earliest latest) s = .next (s.arrivals l earliest latest))) := by
  intro rbd fits hclocked hl hon hstate
  rw [exec_releaseWaitDone hclocked hl hon hstate]
  have hphased : (!s.linkSub1 l || (s.port l).phi.isSome) = true ↔ (s.linkSub1 l = false ∨ (s.port l).phi ≠ none) := by
    rw [Bool.or_eq_true, Bool.not_eq_true', Option.isSome_iff_ne_none]
  refine ⟨fun htx => ⟨fun hphase houtputs => ⟨_, rfl, ?_⟩, fun hwaits => ?_⟩,
    fun hrx => ⟨fun hsub => ⟨_, rfl, ?_⟩, fun hsub hphase hfits => ⟨_, rfl, ?_⟩, fun hsub hwaits => ?_⟩⟩
  · simp only [htx, hphased.2 hphase, houtputs, Bool.and_self, if_true]
    exact linkUp_up s _
  · have hnot : ¬ ((!s.linkSub1 l || (s.port l).phi.isSome) && s.kin.outputs) = true := by
      rw [Bool.and_eq_true, hphased]
      rintro ⟨hphase, houtputs⟩
      rcases hwaits with ⟨hsub, hnone⟩ | hoff
      · exact hphase.elim (fun h => Bool.false_ne_true (h.symm.trans hsub)) (fun h => h hnone)
      · exact Bool.false_ne_true (hoff.symm.trans houtputs)
    dsimp only
    rw [if_pos htx, if_neg hnot]
  · simp only [hrx, hsub, Bool.not_false, Bool.true_or, Bool.not_true, Bool.false_eq_true, if_false, if_true]
    exact linkUp_up _ _
  · have hwindow : latest + 8 ≤ (s.linkCfg l 2).toNat % 65536 ∧
        ((s.linkCfg l 2).toNat % 65536 + 8 - earliest) * s.linkRate l ≤ 64 * 6600 := hfits
    have hsome := hphased.2 (.inr hphase)
    dsimp only
    rw [if_neg (by simp [hrx]), if_neg (by simp [hsome]), if_neg (by simp [hsub]), if_pos hwindow]
    exact linkUp_up _ _
  · dsimp only
    rw [if_neg (by simp [hrx])]
    split
    · rfl
    · next hphase =>
      have hnone : (s.port l).phi ≠ none := by
        simpa [hsub, Option.isSome_iff_ne_none] using hphase
      rw [if_neg (by simp [hsub]), if_neg (hwaits.resolve_left hnone)]

/-! ### A link goes down (R252) -/

/-- The state after the counters and the event of a link's fall, before it starts again. -/
def State.fallen (s : State) (l lane : Nat) (why : DownCause) : State :=
  let q := s.port lane
  let lost := (s.modPort lane (fun q => { q with cdr := false, signal := false })).count (portP lane 0x10) 1
  match why with
  | .signal => if q.present = true then lost.raise (0x80 + 4 * lane) [BitVec.ofNat 8 q.laneSt] else lost
  | .syncHeaders => s.count (portP lane 0x11) 16
  | .bufferWindow => s.raiseLink l 4 []

theorem exec_linkDown {s : State} {l lane : Nat} {why : DownCause} (hclocked : s.clocked = true) (hl : l < 16)
    (hon : s.linkOn l = true) (htx : s.linkTx l = false) (hlane : lane ∈ s.starting l) (hstate : 1 < (s.port lane).laneSt) :
    exec (.linkDown l lane why) s = .next (dropLink l (s.fallen l lane why)) := by
  have hgate : (s.clocked && decide (l < 16) && s.linkOn l && !s.linkTx l && (s.starting l).contains lane &&
      decide (1 < (s.port lane).laneSt)) = true := by
    simp [hclocked, hl, hon, htx, hlane, hstate]
  have hpresent : ((s.modPort lane (fun q => { q with cdr := false, signal := false })).count (portP lane 0x10) 1).port lane =
      { s.port lane with cdr := false, signal := false } := by
    rw [State.port_count, State.port_modPort_same]
  show execLinkDown l lane why s = _
  unfold execLinkDown
  rw [hgate]
  cases why
  · show Host.Outcome.next (dropLink l (if (State.port _ lane).present then _ else _)) = _
    rw [hpresent]
    rfl
  · rfl
  · rfl

theorem dropLink_starts (l : Nat) (s u : State) (h : (u.port l).linkSt = (s.port l).linkSt) :
    (if (s.port l).linkSt = 6 then u.count (portP l 0x13) 1 else u).LinkStarts (dropLink l u) l := by
  rw [← h]
  exact startLink_starts l _

theorem linkSt_fallen (s : State) (l lane : Nat) (why : DownCause) :
    ((s.fallen l lane why).port l).linkSt = (s.port l).linkSt := by
  have hlost : (((s.modPort lane (fun q => { q with cdr := false, signal := false })).count (portP lane 0x10) 1).port l).linkSt =
      (s.port l).linkSt := by
    rw [State.port_count, port_modPort]
    split <;> rfl
  cases why with
  | signal =>
    dsimp only [State.fallen]
    split
    · rw [State.port_raise, hlost]
    · exact hlost
  | syncHeaders => rw [State.fallen, State.port_count]
  | bufferWindow => rw [State.fallen, State.port_raiseLink]

/-- Settles O28: a receive link walks the states of Table 14.3, each move the same for all its lanes. -/
theorem linksLockAndGoDown : Obligations.LinksLockAndGoDown := by
  unfold Obligations.LinksLockAndGoDown
  intro s l rx idMode rbd up
  have hidMode : fld (s.linkCfg l 0) 13 12 = idMode := by simp [fld, bits, idMode]
  refine ⟨?cdr, ?seam, ?sh, ?emb, ?ident, ?release, ?down⟩
  case cdr =>
    intro hrx hstarting hdecided
    exact exec_cdrLock (rxIn_eq hrx) hrx.2.2.2.1 (mayLeaveCdr_eq hstarting hdecided)
  case seam =>
    intro hclocked hoff hprotocol hseam
    have hrx : s.rxIn l 1 = false := by simp [State.rxIn, hoff]
    show execCdrLock l s = _
    simp [execCdrLock, hrx, hclocked, hprotocol, hseam]
  case sh =>
    intro hrx
    refine ⟨setLink l 3 s, ?_, setLink_moves l 3 s⟩
    show execShLock l s = _
    rw [execShLock, rxIn_eq hrx]
    rfl
  case emb =>
    intro inverted bad hrx
    rw [exec_embLock (rxIn_eq hrx)]
    refine ⟨fun hauto => ⟨_, rfl, ?_⟩, fun hmanual => ?_⟩
    · have hall : bad.all (fun p => (s.par (portP p 0x03)).getLsbD 0) = true := List.all_eq_true.2 hauto
      have hfold : (fun r p => correctPolarity p r) = fun (r : State) (p : Nat) =>
          let w := r.modPort p (fun q => { q with inverted := !q.inverted, polDone := true })
          if (r.port p).polDone = true then w else w.raiseLane p 1 := funext fun r => funext fun p => correctPolarity_eq p r
      dsimp only
      rw [if_pos hall, hidMode, hfold]
      exact setLink_moves l _ _
    · have hnot : ¬ bad.all (fun p => (s.par (portP p 0x03)).getLsbD 0) = true := by
        rw [List.all_eq_true]
        intro hall
        obtain ⟨p, hp, hoff⟩ := hmanual
        exact Bool.false_ne_true (hoff.symm.trans (hall p hp))
      dsimp only
      rw [if_neg hnot]
  case ident =>
    intro carried mine straight proper told word hrx
    have hword : word.toNat = permWord carried := toNat_permWord carried
    rw [exec_idWindowDone (rxIn_eq hrx), hidMode]
    refine ⟨fun hstraight => ⟨_, rfl, ?_⟩, fun hcrossed hproper hmode => ⟨_, rfl, ?_⟩, fun hcrossed hwrong => ?_⟩
    · rw [if_pos ((inOrder_iff s l carried).2 hstraight)]
      exact setLink_moves l 5 _
    · have hok : (s.permOk l carried && decide (idMode = 2)) = true := by
        rw [(permOk_iff s l carried).2 hproper, decide_eq_true hmode]
        rfl
      rw [if_neg (mt (inOrder_iff s l carried).1 hcrossed), if_pos hok, hword]
      have htold : told (s.putPar (portP l 0x67) word) 3 (leBytes 4 (permWord carried)) =
          reportIdentity l 3 carried (leBytes 4 (permWord carried)) (s.putPar (portP l 0x67) (wd (permWord carried))) := by
        rw [reportIdentity, State.port_putPar]
        rfl
      rw [htold]
      exact setLink_moves l 5 _
    · have hbad : ¬ (s.permOk l carried && decide (idMode = 2)) = true := by
        rw [Bool.and_eq_true, decide_eq_true_eq]
        exact fun h => hwrong.elim (fun hn => hn ((permOk_iff s l carried).1 h.1)) (fun hn => hn h.2)
      rw [if_neg (mt (inOrder_iff s l carried).1 hcrossed), if_neg hbad, reportIdentity, State.port_count]
  case release => exact fun earliest latest => linkReleased s l earliest latest
  case down =>
    intro lane why q lostSignal told hclocked hl hon htx hlane hstate
    refine ⟨_, exec_linkDown hclocked hl hon htx hlane hstate, ?_⟩
    have htold : told = s.fallen l lane why := by
      cases why <;> rfl
    rw [htold]
    exact dropLink_starts l s _ (linkSt_fallen s l lane why)

end Sys2Proof.Machine
end

section
/-!
PROOF of O29 (chapter 14), first part: SYSREF.  The capture goes through the links one by one; each touches its own lead
only, which `State.SameAt` says of the others.
-/

namespace Sys2Proof.Machine

/-! ### What one link does leaves the others alone -/

/-- The record and the parameters of port `l` are the same in both states. -/
structure State.SameAt (s t : State) (l : Nat) : Prop where
  port : t.port l = s.port l
  pars : ∀ k, k < 0x80 → t.par (portP l k) = s.par (portP l k)

theorem State.SameAt.refl (s : State) (l : Nat) : s.SameAt s l := ⟨rfl, fun _ _ => rfl⟩

theorem State.SameAt.trans {s t u : State} {l : Nat} (h : s.SameAt t l) (h' : t.SameAt u l) : s.SameAt u l :=
  ⟨h'.port.trans h.port, fun k hk => (h'.pars k hk).trans (h.pars k hk)⟩

theorem portP_ne_port {j l k m : Nat} (h : j ≠ l) (hk : k < 0x80) (hm : m < 0x80) : portP l k ≠ portP j m := by
  unfold portP
  omega

section
variable {j l : Nat} (h : j ≠ l)
include h

theorem sameAt_putPar (s : State) {m : Nat} (hm : m < 0x80) (v : Word) : s.SameAt (s.putPar (portP j m) v) l :=
  ⟨State.port_putPar .., fun _ hk => State.par_putPar_ne _ _ _ _ (portP_ne_port h hk hm)⟩

theorem sameAt_putPair (s : State) {m : Nat} (hm : m + 1 < 0x80) (v : Nat) : s.SameAt (s.putPair (portP j m) v) l :=
  (sameAt_putPar h s (by omega) _).trans (sameAt_putPar h (m := m + 1) _ hm _)

theorem sameAt_modPort (s : State) (f : Port → Port) : s.SameAt (s.modPort j f) l :=
  ⟨State.port_modPort_ne _ _ _ _ (Ne.symm h), fun _ _ => State.par_modPort ..⟩

theorem sameAt_raiseLink (s : State) (cause : Nat) (d : List Byte) : s.SameAt (s.raiseLink j cause d) l :=
  ⟨State.port_raiseLink .., fun _ hk => (State.par_raisePort ..).trans ((sameAt_putPar h s (by omega) _).pars _ hk)⟩

end

theorem raiseLink_rest (s : State) (p cause : Nat) (d : List Byte) : s.raiseLink p cause d =
    { s with params := (s.raiseLink p cause d).params, evt := { s.evt with latches := (s.raiseLink p cause d).evt.latches } } := by
  unfold State.raiseLink State.raisePort
  rw [raise_rest]
  rfl

theorem par_raiseLink_ne (s : State) {p k : Nat} (hk : k < 0x80) (h : k ≠ 0x17) (q cause : Nat) (d : List Byte) :
    (s.raiseLink q cause d).par (portP p k) = s.par (portP p k) :=
  (State.par_raisePort ..).trans (State.par_putPar_ne _ _ _ _ (portP_ne hk (by omega) h))

/-! ### A SYSREF capture at one link (R253) -/

/-- The counts of a capture at the link of lead `l`. -/
def State.captured (s : State) (l : Nat) (t : Tick) : State :=
  (s.tally (portP l 0x74) 1).putPair (portP l 0x75) t.toNat

/-- The phase that a capture at tick `t` gives the link of lead `l`. -/
def State.capturedPhase (s : State) (l : Nat) (t : Tick) : Nat :=
  (t.toNat + 16 + fld (s.linkCfg l 3) 4 2) % s.lemc l

/-- The mode of the link of lead `l` takes captures. -/
def State.takesSysref (s : State) (l : Nat) : Prop := fld (s.linkCfg l 3) 1 0 = 1 ∨ fld (s.linkCfg l 3) 1 0 = 2

/-- A capture shows that the phase of the link of lead `l` has slipped. -/
def State.slips (s : State) (l phi : Nat) : Prop :=
  fld (s.linkCfg l 3) 1 0 = 2 ∧ (s.port l).armed = false ∧ (s.port l).phi ≠ none ∧ (s.port l).phi ≠ some phi

section
variable {t : Tick} {l : Nat} {s : State}

theorem sysrefLink_off (h : s.linkOn l = false ∨ s.linkSub1 l = false) : sysrefLink t l s = s := by
  have hgate : (!(s.linkOn l && s.linkSub1 l)) = true := by rcases h with h | h <;> simp [h]
  rw [sysrefLink, if_pos hgate]

theorem port_captured (k : Nat) : (s.captured l t).port k = s.port k := by
  rw [State.captured, State.port_putPair, State.port_tally]

theorem sysrefLink_on (hon : s.linkOn l = true) (hsub : s.linkSub1 l = true) [Decidable (s.takesSysref l)]
    [Decidable (s.slips l (s.capturedPhase l t))] : sysrefLink t l s =
    if s.takesSysref l ∧ (s.port l).armed = true then
      (s.captured l t).modPort l (fun q => { q with phi := some (s.capturedPhase l t), armed := false })
    else if s.slips l (s.capturedPhase l t) then
      ((s.captured l t).count (portP l 0x65) 1).raiseLink l 5 (leBytes 4 (s.capturedPhase l t))
    else s.captured l t := by
  have hgate : ¬ (!(s.linkOn l && s.linkSub1 l)) = true := by simp [hon, hsub]
  have hcapt : (s.tally (portP l 0x74) 1).putPair (portP l 0x75) t.toNat = s.captured l t := rfl
  have hphi : (t.toNat + 16 + fld (s.linkCfg l 3) 4 2) % s.lemc l = s.capturedPhase l t := rfl
  rw [sysrefLink, if_neg hgate]
  simp only [hcapt, hphi, port_captured, State.takesSysref, State.slips, Option.isSome_iff_ne_none]
  by_cases h1 : fld (s.linkCfg l 3) 1 0 = 1
  · by_cases harm : (s.port l).armed = true <;> simp [h1, harm]
  · by_cases h2 : fld (s.linkCfg l 3) 1 0 = 2
    · by_cases harm : (s.port l).armed = true <;> simp [h2, harm]
    · simp [h1, h2]

theorem sysrefLink_rest (t : Tick) (l : Nat) (s : State) : sysrefLink t l s = { s with
    params := (sysrefLink t l s).params, ports := (sysrefLink t l s).ports
    evt := { s.evt with latches := (sysrefLink t l s).evt.latches } } := by
  classical
  by_cases h : s.linkOn l = true ∧ s.linkSub1 l = true
  · rw [sysrefLink_on h.1 h.2]
    split_ifs
    · rfl
    · rw [raiseLink_rest]
      rfl
    · rfl
  · have hoff : s.linkOn l = false ∨ s.linkSub1 l = false := by
      simpa only [not_and_or, Bool.not_eq_true] using h
    rw [sysrefLink_off hoff]

theorem sysrefLink_sameAt (t : Tick) {j l : Nat} (h : j ≠ l) (s : State) : s.SameAt (sysrefLink t j s) l := by
  classical
  have hcapt : s.SameAt (s.captured j t) l :=
    (sameAt_putPar h s (by omega) _).trans (sameAt_putPair h (m := 0x75) _ (by omega) _)
  by_cases hj : s.linkOn j = true ∧ s.linkSub1 j = true
  · rw [sysrefLink_on hj.1 hj.2]
    split_ifs
    · exact hcapt.trans (sameAt_modPort h _ _)
    · exact (hcapt.trans (sameAt_putPar h (m := 0x65) _ (by omega) _)).trans (sameAt_raiseLink h _ _ _)
    · exact hcapt
  · have hoff : s.linkOn j = false ∨ s.linkSub1 j = false := by
      simpa only [not_and_or, Bool.not_eq_true] using hj
    rw [sysrefLink_off hoff]
    exact .refl s l

theorem pair_putPair (s : State) (n v : Nat) : (s.putPair n v).pair n = v % 2 ^ 64 := by
  rw [State.pair, State.par_putPair_low, State.par_putPair_high]
  simp only [wd, BitVec.toNat_ofNat]
  omega

theorem pair_congr {s u : State} {n : Nat} (h : u.par n = s.par n) (h' : u.par (n + 1) = s.par (n + 1)) : u.pair n = s.pair n := by
  rw [State.pair, State.pair, h, h']

/-- The counts, the slip and the phase of one link. -/
theorem sysrefLink_taken (hon : s.linkOn l = true) (hsub : s.linkSub1 l = true) [Decidable (s.takesSysref l)]
    [Decidable (s.slips l (s.capturedPhase l t))] :
    let u := sysrefLink t l s
    u.par (portP l 0x74) = s.par (portP l 0x74) + 1 ∧ u.pair (portP l 0x75) = t.toNat ∧
    (u.par (portP l 0x65)).toNat = Min.min 0xFFFFFFFF ((s.par (portP l 0x65)).toNat +
      (if s.slips l (s.capturedPhase l t) then 1 else 0)) ∧
    u.port l = if s.takesSysref l ∧ (s.port l).armed = true then { s.port l with phi := some (s.capturedPhase l t), armed := false }
      else s.port l := by
  have h74 : (s.captured l t).par (portP l 0x74) = s.par (portP l 0x74) + 1 := by
    rw [State.captured, State.par_putPair_ne _ _ _ _ (by unfold portP; omega) (by unfold portP; omega), State.par_tally_same]
    rfl
  have h75 : (s.captured l t).pair (portP l 0x75) = t.toNat := by
    rw [State.captured, pair_putPair, Nat.mod_eq_of_lt t.isLt]
  have h65 : (s.captured l t).par (portP l 0x65) = s.par (portP l 0x65) := by
    rw [State.captured, State.par_putPair_ne _ _ _ _ (by unfold portP; omega) (by unfold portP; omega),
      State.par_tally_ne _ _ _ _ (by unfold portP; omega)]
  have hword := (s.par (portP l 0x65)).isLt
  have hpair : portP l 0x75 + 1 = portP l 0x76 := rfl
  have hcount : ∀ k, k ≠ 0x65 → k < 0x80 → ((s.captured l t).count (portP l 0x65) 1).par (portP l k) =
      (s.captured l t).par (portP l k) := fun k hk hlt => State.par_count_ne _ _ _ _ (portP_ne hlt (by omega) hk)
  dsimp only
  rw [sysrefLink_on hon hsub]
  by_cases harm : s.takesSysref l ∧ (s.port l).armed = true
  · have hno : ¬ s.slips l (s.capturedPhase l t) := fun h => Bool.false_ne_true (h.2.1.symm.trans harm.2)
    rw [if_pos harm, if_pos harm, if_neg hno, State.par_modPort, State.par_modPort, State.port_modPort_same, port_captured, h74, h65,
      pair_congr (State.par_modPort ..) (State.par_modPort ..), h75]
    exact ⟨rfl, rfl, by omega, rfl⟩
  · rw [if_neg harm, if_neg harm]
    by_cases hslip : s.slips l (s.capturedPhase l t)
    · rw [if_pos hslip, if_pos hslip, par_raiseLink_ne _ (by omega) (by omega), hcount _ (by omega) (by omega), h74,
        par_raiseLink_ne _ (by omega) (by omega), toNat_count, h65, State.port_raiseLink, State.port_count, port_captured]
      refine ⟨rfl, (pair_congr ?_ ?_).trans h75, rfl, rfl⟩
      · rw [par_raiseLink_ne _ (by omega) (by omega), hcount _ (by omega) (by omega)]
      · rw [hpair, par_raiseLink_ne _ (by omega) (by omega), hcount _ (by omega) (by omega)]
    · rw [if_neg hslip, if_neg hslip, h74, h75, h65, port_captured]
      exact ⟨rfl, rfl, by omega, rfl⟩

end

/-! ### A capture at all links -/

/-- The capture at the links `ls`. -/
def sysrefLinks (t : Tick) (ls : List Nat) (s : State) : State := ls.foldl (fun s l => sysrefLink t l s) s

theorem sysrefLinks_rest (t : Tick) (ls : List Nat) : ∀ s : State, sysrefLinks t ls s = { s with
    params := (sysrefLinks t ls s).params, ports := (sysrefLinks t ls s).ports
    evt := { s.evt with latches := (sysrefLinks t ls s).evt.latches } } := by
  induction ls with
  | nil => exact fun _ => rfl
  | cons l ls ih =>
    intro s
    have hstep : sysrefLinks t (l :: ls) s = sysrefLinks t ls (sysrefLink t l s) := rfl
    rw [hstep, ih]
    have hrest := sysrefLink_rest t l s
    generalize sysrefLink t l s = u at hrest
    rw [hrest]

theorem sysrefLinks_sameAt (t : Tick) {l : Nat} (ls : List Nat) (h : l ∉ ls) : ∀ s : State, s.SameAt (sysrefLinks t ls s) l := by
  induction ls with
  | nil => exact fun s => .refl s l
  | cons j ls ih =>
    obtain ⟨hj, hls⟩ := not_or.1 (mt List.mem_cons.2 h)
    exact fun s => (sysrefLink_sameAt t (Ne.symm hj) s).trans (ih hls _)

/-- The capture at all links is, for the link of lead `l`, the capture at that link alone. -/
theorem sysrefLinks_at (t : Tick) {l : Nat} (hl : l < 16) (s : State) : ∃ u : State, s.SameAt u l ∧
    (sysrefLink t l u).SameAt (sysrefLinks t (List.range 16) s) l := by
  obtain ⟨before, after, hsplit⟩ := List.append_of_mem (List.mem_range.2 hl)
  have hnodup : (before ++ l :: after).Nodup := hsplit ▸ List.nodup_range
  have hbefore : l ∉ before := fun h => (List.nodup_append.1 hnodup).2.2 l h l List.mem_cons_self rfl
  have hafter : l ∉ after := (List.nodup_cons.1 (List.nodup_append.1 hnodup).2.1).1
  refine ⟨sysrefLinks t before s, sysrefLinks_sameAt t before hbefore s, ?_⟩
  have hsteps : sysrefLinks t (List.range 16) s = sysrefLinks t after (sysrefLink t l (sysrefLinks t before s)) := by
    rw [hsplit, sysrefLinks, List.foldl_append, List.foldl_cons]
    rfl
  rw [hsteps]
  exact sysrefLinks_sameAt t after hafter _

/-- A state that the capture finds, with the fabric's bus shown. -/
def State.pulsed (s : State) : State := { s with tnd := { s.tnd with pulses := s.tnd.pulses ||| 2#2 } }

theorem exec_sysrefCapture {s : State} (hclocked : s.clocked = true) (hline : tabGet 0 s.pins.kinds 11 ≠ 5) :
    exec .sysrefCapture s = .next (sysrefLinks s.clk.tick (List.range 16) s.pulsed) := by
  have hgate : (!s.clocked || s.sysrefReversed) = false := by simp [hclocked, State.sysrefReversed, hline]
  have hclk : ∀ u : State, u.clk = s.clk → (List.range 16).foldl (fun s l => sysrefLink s.clk.tick l s) u =
      sysrefLinks s.clk.tick (List.range 16) u := fun u => by
    generalize List.range 16 = ls
    induction ls generalizing u with
    | nil => exact fun _ => rfl
    | cons l ls ih =>
      intro hu
      have hkeeps : (sysrefLink s.clk.tick l u).clk = s.clk := by rw [sysrefLink_rest]; exact hu
      rw [List.foldl_cons, hu, ih _ hkeeps]
      rfl
  show execSysrefCapture s = _
  rw [execSysrefCapture, hgate, if_neg Bool.false_ne_true]
  exact congrArg _ (hclk s.pulsed rfl)

/-- Settles the first part of O29: SYSREF_CAPTURE. -/
theorem sysref_captured (s : State) (l : Nat) :
    let c := s.linkCfg l 3
    let phi := (s.clk.tick.toNat + 16 + c.toNat / 4 % 8) % s.lemc l
    let q := s.port l
    s.clocked = true → (tabGet 0 s.pins.kinds 11 ≠ 5) → ∃ t, exec .sysrefCapture s = .next t ∧
      t = { s with params := t.params, ports := t.ports, evt := { s.evt with latches := t.evt.latches }, tnd := { s.tnd with pulses := s.tnd.pulses ||| 2#2 } } ∧
      (l < 16 →
        ((s.linkOn l = false ∨ s.linkSub1 l = false) → t.port l = q ∧ t.par (portP l 0x74) = s.par (portP l 0x74)) ∧
        (s.linkOn l = true → s.linkSub1 l = true →
          t.par (portP l 0x74) = s.par (portP l 0x74) + 1 ∧ t.pair (portP l 0x75) = s.clk.tick.toNat ∧
          (t.par (portP l 0x65)).toNat = Min.min 0xFFFFFFFF ((s.par (portP l 0x65)).toNat +
            (if c.toNat % 4 = 2 ∧ q.armed = false ∧ q.phi ≠ none ∧ q.phi ≠ some phi then 1 else 0)) ∧
          t.port l = if (c.toNat % 4 = 1 ∨ c.toNat % 4 = 2) ∧ q.armed = true then { q with phi := some phi, armed := false } else q)) := by
  intro c phi q hclocked hline
  refine ⟨_, exec_sysrefCapture hclocked hline, sysrefLinks_rest _ _ _, fun hl => ?_⟩
  obtain ⟨u, hu, hthen⟩ := sysrefLinks_at s.clk.tick hl s.pulsed
  generalize sysrefLinks s.clk.tick (List.range 16) s.pulsed = t at hthen
  have hpar : ∀ k, k < 0x80 → u.par (portP l k) = s.par (portP l k) := hu.pars
  have hport : u.port l = s.port l := hu.port
  have hcfg : ∀ k, 0x60 + k < 0x80 → u.linkCfg l k = s.linkCfg l k := fun k hk => hpar _ hk
  have hon : u.linkOn l = s.linkOn l := by rw [State.linkOn, hcfg _ (by omega)]; rfl
  have hsub : u.linkSub1 l = s.linkSub1 l := by rw [State.linkSub1, hcfg _ (by omega)]; rfl
  have hlemc : u.lemc l = s.lemc l := by
    rw [State.lemc, State.linkE, State.linkRate, hcfg _ (by omega), hpar _ (by omega)]
    rfl
  have hmode : fld (u.linkCfg l 3) 1 0 = c.toNat % 4 := by
    rw [hcfg _ (by omega)]
    simp [fld, bits, c]
  have hphi : u.capturedPhase l s.clk.tick = phi := by
    rw [State.capturedPhase, hcfg _ (by omega), hlemc]
    rfl
  refine ⟨fun hoff => ?_, fun hlinkOn hlinkSub => ?_⟩
  · rw [hthen.port, hthen.pars _ (by omega), sysrefLink_off (by rwa [hon, hsub]), hport, hpar _ (by omega)]
    exact ⟨rfl, rfl⟩
  · have htakes : u.takesSysref l = (c.toNat % 4 = 1 ∨ c.toNat % 4 = 2) := by rw [State.takesSysref, hmode]
    have hslips : u.slips l (u.capturedPhase l s.clk.tick) =
        (c.toNat % 4 = 2 ∧ q.armed = false ∧ q.phi ≠ none ∧ q.phi ≠ some phi) := by rw [State.slips, hmode, hport, hphi]
    classical
    obtain ⟨h74, h75, h65, htaken⟩ := sysrefLink_taken (t := s.clk.tick) (hon.trans hlinkOn) (hsub.trans hlinkSub)
    refine ⟨?_, ?_, ?_, ?_⟩
    · rw [hthen.pars _ (by omega), h74, hpar _ (by omega)]
    · rw [pair_congr (hthen.pars 0x75 (by omega)) (hthen.pars 0x76 (by omega)), h75]
    · rw [hthen.pars _ (by omega), h65, hpar _ (by omega), if_congr (iff_of_eq hslips) rfl rfl]
    · rw [hthen.port, htaken, hport, hphi, if_congr (and_congr_left' (iff_of_eq htakes)) rfl rfl]

end Sys2Proof.Machine
end

section
/-!
PROOF of O29 (chapter 14), second part: samples and packets cross the ports, and the equaliser loops.
-/

namespace Sys2Proof.Machine

/-! ### Packet groups (R255) -/

theorem linkOf_putPar {s : State} {n : Nat} {v : Word} (h : ∀ j, n ≠ portP j 0x60) (p : Nat) (tx : Bool) :
    (s.putPar n v).linkOf p tx = s.linkOf p tx :=
  linkOf_congr (fun j => State.par_putPar_ne _ _ _ _ (Ne.symm (h j))) p tx

/-- Bytes cut or filled with zeros to length `n`. -/
theorem length_padded (bytes : List Byte) (n : Nat) : ((bytes ++ List.replicate n 0).take n).length = n := by
  rw [List.length_take, List.length_append, List.length_replicate]
  omega

theorem byteAt_padded {bytes : List Byte} {n i : Nat} (hi : i < n) :
    byteAt ((bytes ++ List.replicate n 0).take n) i = byteAt bytes i := by
  simp only [byteAt, List.getD_eq_getElem?_getD, List.getElem?_take_of_lt hi]
  by_cases hin : i < bytes.length
  · rw [List.getElem?_append_left hin]
  · rw [List.getElem?_append_right (by omega), List.getElem?_eq_none (by omega : bytes.length ≤ i), List.getElem?_replicate,
      if_pos (by omega)]
    rfl

/-- The packet that carries a group (R255). -/
theorem groupPacket_fields (s : State) (p : Nat) (bytes : List Byte) :
    let d := s.par (portP p 0x20)
    let size := (s.par (portP p 0x22)).toNat % 2 ^ 21
    let start := (s.par (portP p 0x21)).toNat % 2 ^ 21
    let units := d.toNat / 2 ^ 11 % 32
    let k := sourced s (.port p) (groupPacket s p bytes)
    k.cmd = 0 ∧ k.len = units ∧ k.half = false ∧ k.dx = d.toNat % 8 ∧ k.dy = d.toNat / 8 % 8 ∧ k.dport = d.toNat / 64 % 2 ∧
      k.dcard = d.toNat / 128 % 16 ∧ k.gt = d.getLsbD 16 ∧ k.flow = d.toNat / 2 ^ 17 % 128 ∧
      6 * k.sy + k.sx = portNode p ∧ k.sport = p % 2 ∧ k.scard = s.card ∧ k.poison = false ∧
      k.addr = (if d.getLsbD 24 = false then 0x100000000 else if size = 0 then start else start + (s.port p).ringK * units * 32 % size) ∧
      k.data.length = 32 * units ∧ (∀ i < 32 * units, byteAt k.data i = byteAt bytes i) ∧ ∀ i < 128, k.valid.getLsbD i = true := by
  intro d size start units k
  have hunits : fld d 15 11 = units := rfl
  have hsize : fld (s.par (portP p 0x22)) 20 0 = size := by simp [fld, bits, size]
  have hstart : fld (s.par (portP p 0x21)) 20 0 = start := by simp [fld, bits, start]
  have hdata : k.data = (bytes ++ List.replicate (32 * units) 0).take (32 * units) := rfl
  refine ⟨rfl, rfl, rfl, ?_, rfl, rfl, rfl, rfl, rfl, ?_, rfl, rfl, rfl, ?_, ?_, fun i hi => ?_, fun i hi => ?_⟩
  · show fld d 2 0 = _
    simp [fld, bits]
  · show 6 * (portNode p / 6) + portNode p % 6 = portNode p
    omega
  · show (if d.getLsbD 24 then fld (s.par (portP p 0x21)) 20 0 + (if fld (s.par (portP p 0x22)) 20 0 = 0 then 0 else
        (s.port p).ringK * fld d 15 11 * 32 % fld (s.par (portP p 0x22)) 20 0) else 0x000100000000) = _
    rw [hunits, hsize, hstart]
    cases d.getLsbD 24
    · rfl
    · simp only [if_true, Bool.true_eq_false, if_false]
      split <;> rfl
  · rw [hdata, length_padded]
  · rw [hdata, byteAt_padded hi]
  · exact BitVec.getLsbD_allOnes.trans (decide_eq_true hi)

theorem modPort_congr {s : State} {p : Nat} {f f' : Port → Port} (h : f (s.port p) = f' (s.port p)) :
    s.modPort p f = s.modPort p f' := by
  have htab : tabMod Port.reset s.ports p f = tabMod Port.reset s.ports p f' := congrArg (tabSet Port.reset s.ports p) h
  rw [State.modPort, State.modPort, htab]

section
variable {s : State} {p l : Nat} {bytes : List Byte} (hlead : s.deviceLead p false = some l) (hclocked : s.clocked = true)
  (hup : (s.port l).linkSt = 6) (hlane : (s.port p).laneSt = 6) (hopen : (s.dom (16 + p / 2)).damper = .openD)
include hlead hclocked hup hlane hopen

theorem exec_packetGroupRelease : exec (.packetGroupRelease p bytes) s = .next
    (let counted := s.tally64 (portP p 0x28) bytes.length
     let passed := counted.modPort p (fun q => { q with ringK := (s.port p).ringK + 1 })
     if (s.par (portP p 0x20)).getLsbD 31 = false then counted
     else if 8 ≤ s.portWaiting p then passed.count (portP p 0x14) 1
     else present (sourced s (.port p) (groupPacket s p bytes)) (passed.tally (portP p 0x23) 1)) := by
  have hgate : ¬ (!(s.clocked && decide ((s.port l).linkSt = 6 ∧ (s.port p).laneSt = 6 ∧ (s.dom (16 + p / 2)).damper = .openD))) = true := by
    simp [hclocked, hup, hlane, hopen]
  have hpar : ∀ k, k ≠ 0x28 → k ≠ 0x29 → (s.tally64 (portP p 0x28) bytes.length).par (portP p k) = s.par (portP p k) :=
    fun k h h' => State.par_tally64_ne _ _ _ _ (by unfold portP; omega) (by unfold portP; omega)
  have hport : (s.tally64 (portP p 0x28) bytes.length).port p = s.port p := State.port_tally64 ..
  have hgroup : groupPacket (s.tally64 (portP p 0x28) bytes.length) p bytes = groupPacket s p bytes := by
    simp only [groupPacket, hpar _ (show 0x20 ≠ 0x28 by omega) (by omega), hpar _ (show 0x21 ≠ 0x28 by omega) (by omega),
      hpar _ (show 0x22 ≠ 0x28 by omega) (by omega), hport]
  have hring : (s.tally64 (portP p 0x28) bytes.length).modPort p (fun q => { q with ringK := q.ringK + 1 }) =
      (s.tally64 (portP p 0x28) bytes.length).modPort p (fun q => { q with ringK := (s.port p).ringK + 1 }) := by
    exact modPort_congr (by rw [hport])
  show execPacketGroupRelease p bytes s = _
  unfold execPacketGroupRelease
  rw [hlead]
  dsimp only
  rw [if_neg hgate, hpar _ (by omega) (by omega), hring, hgroup]
  cases (s.par (portP p 0x20)).getLsbD 31 <;> rfl

end

/-! ### The transmit stream (R256) -/

theorem port_lt_of_targetAt {x y k p : Nat} (h : targetAt x y k = .port p) : p < 16 := by
  unfold targetAt at h
  split at h
  · cases hg : nodeGal x y with
    | some g =>
      simp only [hg] at h
      split at h <;> cases h
    | none =>
      simp only [hg] at h
      cases hp : nodePort x y k with
      | none => simp [hp] at h
      | some j =>
        have hj : j = p := by simpa [hp] using h
        simp only [nodePort] at hp
        split_ifs at hp
        · simp only [Option.some.injEq] at hp
          omega
        · simp only [Option.some.injEq] at hp
          omega
  · split_ifs at h

/-- Noting the time of a GT packet leaves the parameters of the ports (Table 18.6). -/
theorem par_taken_portP (s : State) (i : Nat) (f : Flying) {p k : Nat} (hp : p < 16) (hk : k < 0x80) :
    (s.taken i f).par (portP p k) = s.par (portP p k) := by
  unfold State.taken noteWorst
  dsimp only
  split
  · split
    · exact State.par_putPar_ne _ _ _ _ (by unfold portP; omega)
    · rfl
  · rfl

theorem port_taken (s : State) (i : Nat) (f : Flying) (p : Nat) : (s.taken i f).port p = s.port p := by
  rw [taken_rest]
  rfl

theorem linkOf_lt {s : State} {p l : Nat} {tx : Bool} (h : s.linkOf p tx = some l) : l < 16 := by
  simp only [State.linkOf, firstBelow] at h
  exact List.mem_range.1 (List.mem_of_find?_eq_some h)

theorem deviceLead_taken (s : State) (i : Nat) (f : Flying) (p : Nat) (tx : Bool) :
    (s.taken i f).deviceLead p tx = s.deviceLead p tx := by
  have hcfg : ∀ {j k : Nat}, j < 16 → 0x60 + k < 0x80 → (s.taken i f).linkCfg j k = s.linkCfg j k := fun hj hk =>
    par_taken_portP s i f hj hk
  have hmembers : ∀ {j : Nat}, j < 16 → (s.taken i f).members j = s.members j := fun hj => by
    rw [State.members, State.members, hcfg hj (by omega)]
  have hlink : (s.taken i f).linkOf p tx = s.linkOf p tx := by
    unfold State.linkOf firstBelow
    refine List.find?_congr fun j hj => ?_
    have hj' := List.mem_range.1 hj
    rw [State.linkOn, State.linkTx, hmembers hj', hcfg hj' (by omega)]
    rfl
  unfold State.deviceLead
  rw [hlink]
  cases h : s.linkOf p tx with
  | none => rfl
  | some l =>
    have hl := linkOf_lt h
    dsimp only
    rw [hmembers hl, State.linkL, State.linkL, hcfg hl (by omega)]

/-- The units of a WRITE with a valid word, counted by byte (R256). -/
theorem validUnits_eq (k : Packet) : validUnits k = ((List.range k.len).filter (fun u => (List.range 8).any (fun j =>
    decide (32 * u + 4 * j < byteCount k) && k.valid.getLsbD (8 * u + j)))).length := by
  have hbyte : ∀ u j, 4 * (8 * u + j) = 32 * u + 4 * j := fun u j => by omega
  simp only [validUnits, countBelow, hasBit, hbyte]

/-- Room in the transmit buffer of port `p` for a WRITE. -/
def State.txRoom (s : State) (p : Nat) : Nat := match s.deviceLead p true with
  | some l => if (s.port l).linkSt = 6 then 512 - (s.port p).txBuf.length else 0
  | none => 0

/-- The units that carried words into a buffer with room are counted (PORT_TX_UNITS). -/
def State.txCounted (s : State) (p room units : Nat) : State := if room = 0 then s else s.tally (portP p 0x24) units

/-- The words that found no room are counted (PORT_TX_DROPS). -/
def State.txDropped (s : State) (p lost : Nat) : State := if lost = 0 then s else s.count (portP p 0x16) lost

theorem txCounted_rest (s : State) (p room units : Nat) : s.txCounted p room units =
    { s with params := (s.txCounted p room units).params } := by
  unfold State.txCounted
  split <;> rfl

theorem txDropped_rest (s : State) (p lost : Nat) : s.txDropped p lost = { s with params := (s.txDropped p lost).params } := by
  unfold State.txDropped
  split <;> rfl

theorem port_txCounted (s : State) (p room units j : Nat) : (s.txCounted p room units).port j = s.port j := by
  rw [txCounted_rest]
  rfl

theorem port_txDropped (s : State) (p lost j : Nat) : (s.txDropped p lost).port j = s.port j := by
  rw [txDropped_rest]
  rfl

theorem par_txCounted (s : State) (p room units : Nat) : (s.txCounted p room units).par (portP p 0x24) =
    s.par (portP p 0x24) + (if room = 0 then 0 else wd units) := by
  unfold State.txCounted
  split
  · exact (BitVec.add_zero _).symm
  · exact State.par_tally_same ..

theorem par_txCounted_ne (s : State) (p room units : Nat) {n : Nat} (h : n ≠ portP p 0x24) :
    (s.txCounted p room units).par n = s.par n := by
  unfold State.txCounted
  split
  · rfl
  · exact State.par_tally_ne _ _ _ _ h

theorem par_txDropped (s : State) (p lost : Nat) : ((s.txDropped p lost).par (portP p 0x16)).toNat =
    Min.min 0xFFFFFFFF ((s.par (portP p 0x16)).toNat + lost) := by
  have hword := (s.par (portP p 0x16)).isLt
  unfold State.txDropped
  split
  · omega
  · exact toNat_count ..

theorem par_txDropped_ne (s : State) (p lost : Nat) {n : Nat} (h : n ≠ portP p 0x16) :
    (s.txDropped p lost).par n = s.par n := by
  unfold State.txDropped
  split
  · rfl
  · exact State.par_count_ne _ _ _ _ h

/-- A WRITE at address 0 of a port's transmit stream. -/
theorem writeAtPort_eq {s : State} {p : Nat} {k : Packet} (haddr : k.addr = 0) : writeAtPort p k s =
    ((s.modPort p (fun q => { q with txBuf := q.txBuf ++ (validWords k).take (s.txRoom p) })).txCounted p (s.txRoom p)
      (validUnits k)).txDropped p ((validWords k).length - s.txRoom p) := by
  have hroom : (if (match s.deviceLead p true with | some l => decide ((s.port l).linkSt = 6) | none => false) = true then
      512 - (s.port p).txBuf.length else 0) = s.txRoom p := by
    unfold State.txRoom
    cases s.deviceLead p true <;> simp
  unfold writeAtPort State.txDropped
  rw [if_neg (not_not.2 haddr), ← hroom]
  exact if_congr (Nat.sub_eq_zero_iff_le).symm rfl rfl

/-- What a WRITE leaves in the counters and the buffer of its port. -/
theorem writeAtPort_writes {s : State} {p : Nat} {k : Packet} (haddr : k.addr = 0) :
    let t := writeAtPort p k s
    let words := validWords k
    let room := s.txRoom p
    t = { s with params := t.params, ports := t.ports } ∧ (∀ j, j ≠ p → t.port j = s.port j) ∧
      t.port p = { s.port p with txBuf := (s.port p).txBuf ++ words.take room } ∧
      t.par (portP p 0x24) = s.par (portP p 0x24) + (if room = 0 then 0 else wd (validUnits k)) ∧
      (t.par (portP p 0x16)).toNat = Min.min 0xFFFFFFFF ((s.par (portP p 0x16)).toNat + (words.length - room)) ∧
      ∀ n, n ≠ portP p 0x24 → n ≠ portP p 0x16 → t.par n = s.par n := by
  have hne : portP p 0x16 ≠ portP p 0x24 := portP_ne (by omega) (by omega) (by omega)
  have hports : ∀ j, (writeAtPort p k s).port j =
      if j = p then { s.port p with txBuf := (s.port p).txBuf ++ (validWords k).take (s.txRoom p) } else s.port j := fun j => by
    rw [writeAtPort_eq haddr, port_txDropped, port_txCounted, port_modPort]
    split
    · next h => rw [h]
    · rfl
  dsimp only
  refine ⟨?_, fun j hj => (hports j).trans (if_neg hj), (hports p).trans (if_pos rfl), ?_, ?_, fun n h h' => ?_⟩
  · rw [writeAtPort_eq haddr, txDropped_rest, txCounted_rest]
    rfl
  · rw [writeAtPort_eq haddr, par_txDropped_ne _ _ _ (Ne.symm hne), par_txCounted, State.par_modPort]
  · rw [writeAtPort_eq haddr, par_txDropped, par_txCounted_ne _ _ _ _ hne, State.par_modPort]
  · rw [writeAtPort_eq haddr, par_txDropped_ne _ _ _ h', par_txCounted_ne _ _ _ _ h, State.par_modPort]

/-! ### Equaliser loops (R260) -/

/-- Loop `k` of port `p` has noted a clip: PORT_EQ_CLIPS, the time of the last report and events may differ. -/
structure State.Clipped (s t : State) (p : Nat) : Prop where
  rest   : t = { s with ports := t.ports, params := t.params, evt := { s.evt with latches := t.evt.latches } }
  others : ∀ k, k ≠ p → t.port k = s.port k
  params : ∀ n, n ≠ portP p 0x0C → t.par n = s.par n
  port   : t.port p = { s.port p with clipCyc := (t.port p).clipCyc }

theorem State.Clipped.refl (s : State) (p : Nat) : s.Clipped s p := ⟨rfl, fun _ _ => rfl, fun _ _ => rfl, rfl⟩

theorem State.Clipped.trans {s t u : State} {p : Nat} (h : s.Clipped t p) (h' : t.Clipped u p) : s.Clipped u p where
  rest := by rw [h'.rest, h.rest]
  others k hk := (h'.others k hk).trans (h.others k hk)
  params n hn := (h'.params n hn).trans (h.params n hn)
  port := by rw [h'.port, h.port]

/-- Loop `k` of port `p` may report a clip again. -/
def State.clipDue (s : State) (p k : Nat) : Bool :=
  match tabGet none (s.port p).clipCyc k with | some c => decide (c + 1000000000 ≤ s.clk.cyc) | none => true

theorem noteClip_eq (p k : Nat) (s : State) : noteClip p k s =
    (let t := s.count (portP p 0x0C) 1
     if t.clipDue p k then
       (t.modPort p (fun q => { q with clipCyc := tabSet none q.clipCyc k (some t.clk.cyc) })).raisePort p 3 [BitVec.ofNat 8 k]
     else t) := rfl

theorem noteClip_clipped (p k : Nat) (s : State) : s.Clipped (noteClip p k s) p := by
  have hcount : s.Clipped (s.count (portP p 0x0C) 1) p :=
    ⟨rfl, fun _ _ => State.port_count .., fun n hn => State.par_count_ne _ _ _ _ hn, by rw [State.port_count]⟩
  refine hcount.trans ?_
  rw [noteClip_eq]
  dsimp only
  split
  · refine ⟨?_, fun j hj => ?_, fun n _ => ?_, ?_⟩
    · rw [State.raisePort, raise_rest]
      rfl
    · rw [State.port_raisePort, State.port_modPort_ne _ _ _ _ hj]
    · rw [State.par_raisePort, State.par_modPort]
    · rw [State.port_raisePort, State.port_modPort_same]
  · exact .refl _ p

theorem toNat_noteClip (p k : Nat) (s : State) : ((noteClip p k s).par (portP p 0x0C)).toNat =
    Min.min 0xFFFFFFFF ((s.par (portP p 0x0C)).toNat + 1) := by
  rw [← toNat_count, noteClip_eq]
  dsimp only
  split
  · rw [State.par_raisePort, State.par_modPort]
  · rfl

theorem foldl_noteClip (p : Nat) (ks : List (Bool × Nat)) : ∀ s : State,
    s.Clipped (ks.foldl (fun s k => noteClip p k.2 s) s) p ∧
      ((ks.foldl (fun s k => noteClip p k.2 s) s).par (portP p 0x0C)).toNat =
        Min.min 0xFFFFFFFF ((s.par (portP p 0x0C)).toNat + ks.length) := by
  induction ks with
  | nil =>
    intro s
    have hword := (s.par (portP p 0x0C)).isLt
    refine ⟨.refl s p, ?_⟩
    rw [List.foldl_nil, List.length_nil]
    omega
  | cons k ks ih =>
    intro s
    obtain ⟨hclipped, hcount⟩ := ih (noteClip p k.2 s)
    refine ⟨(noteClip_clipped p k.2 s).trans hclipped, ?_⟩
    rw [List.foldl_cons, hcount, toNat_noteClip, List.length_cons]
    omega

theorem length_filter_zipIdx (l : List Bool) : (l.zipIdx.filter (·.1)).length = (l.filter id).length := by
  have hmap : (l.zipIdx.map (·.1)).filter id = (l.zipIdx.filter (·.1)).map (·.1) := List.filter_map
  rw [← List.zipIdx_map_fst 0 l, hmap, List.length_map, List.zipIdx_map_fst]

section
variable (b e : Word) (ctle : Nat) (dfe : Int) (want : Int)

/-- The CTLE code that the loop asks for (R260). -/
def ctleWish : Int := Max.max 0 (Min.min 15 (stepTo ctle want))

/-- The tap value that the loop asks for (R260). -/
def dfeWish : Int := Max.max (-32) (Min.min 31 (stepTo dfe want))

theorem nextCtle_value : (nextCtle b ctle want).1 = Max.max (b.toNat % 16) (Min.min (b.toNat / 256 % 16)
    (if b.getLsbD 31 = true then (stepTo ctle ((b.toNat / 65536 % 16 : Nat) : Int)).toNat else (ctleWish ctle want).toNat)) := by
  have hlo : fld b 3 0 = b.toNat % 16 := by simp [fld, bits]
  unfold nextCtle ctleWish
  cases b.getLsbD 31 <;> simp only [Bool.false_eq_true, if_false, if_true, clampCtle, hlo] <;> rfl

theorem nextCtle_clipped : (nextCtle b ctle want).2 = (if b.getLsbD 31 = true then
      decide (ctleWish ctle want ≠ ((b.toNat / 65536 % 16 : Nat) : Int))
    else decide (((Max.max (b.toNat % 16) (Min.min (b.toNat / 256 % 16) (ctleWish ctle want).toNat) : Nat) : Int) ≠
      ctleWish ctle want)) := by
  have hlo : fld b 3 0 = b.toNat % 16 := by simp [fld, bits]
  unfold nextCtle ctleWish
  cases b.getLsbD 31 <;> simp only [Bool.false_eq_true, if_false, if_true, clampCtle, hlo] <;> rfl

theorem nextDfe_eq : nextDfe e dfe want =
    (if e.getLsbD 31 = true then dfe else Max.max (-((e.toNat % 32 : Nat) : Int)) (Min.min ((e.toNat % 32 : Nat) : Int) (dfeWish dfe want)),
      if e.getLsbD 31 = true then decide (dfe ≠ dfeWish dfe want)
      else decide (Max.max (-((e.toNat % 32 : Nat) : Int)) (Min.min ((e.toNat % 32 : Nat) : Int) (dfeWish dfe want)) ≠ dfeWish dfe want)) := by
  have hmax : fld e 4 0 = e.toNat % 32 := by simp [fld, bits]
  unfold nextDfe dfeWish
  cases e.getLsbD 31 <;> simp only [Bool.false_eq_true, if_false, if_true, clampDfe, hmax]

end

/-- The loops whose evaluation was clipped. -/
theorem length_clips (c : Bool) (n : Nat) (f : Nat → Int × Bool) :
    ((c :: ((List.range n).map f).map (·.2)).zipIdx.filter (·.1)).length =
      (if c = true then 1 else 0) + ((List.range n).filter (fun i => (f i).2)).length := by
  have htaps : ((((List.range n).map f).map (·.2)).filter id).length = ((List.range n).filter (fun i => (f i).2)).length := by
    rw [List.map_map, List.filter_map, List.length_map]
    rfl
  rw [length_filter_zipIdx, ← htaps]
  cases c
  · simp
  · simp [Nat.add_comm]

/-- The evaluation of the loops of port `p` with these results: the codes and the clips. -/
def State.evaluated (s : State) (p : Nat) (c : Nat × Bool) (d : Nat → Int × Bool) : State :=
  ((c.2 :: ((List.range 5).map d).map (·.2)).zipIdx.filter (·.1)).foldl (fun s k => noteClip p k.2 s)
    (s.modPort p (fun q => { q with ctle := c.1, dfe := ((List.range 5).map d).map (·.1) }))

theorem evaluated_notes (s : State) (p : Nat) (c : Nat × Bool) (d : Nat → Int × Bool) :
    let t := s.evaluated p c d
    t = { s with ports := t.ports, params := t.params, evt := { s.evt with latches := t.evt.latches } } ∧
    (∀ k, k ≠ p → t.port k = s.port k) ∧ (∀ n, n ≠ portP p 0x0C → t.par n = s.par n) ∧
    t.port p = { s.port p with clipCyc := (t.port p).clipCyc, ctle := c.1, dfe := (List.range 5).map (fun i => (d i).1) } ∧
    (t.par (portP p 0x0C)).toNat = Min.min 0xFFFFFFFF ((s.par (portP p 0x0C)).toNat + (if c.2 = true then 1 else 0) +
      ((List.range 5).filter (fun i => (d i).2)).length) := by
  obtain ⟨hclipped, hcount⟩ := foldl_noteClip p ((c.2 :: ((List.range 5).map d).map (·.2)).zipIdx.filter (·.1))
    (s.modPort p (fun q => { q with ctle := c.1, dfe := ((List.range 5).map d).map (·.1) }))
  refine ⟨hclipped.rest, fun k hk => ?_, fun n hn => ?_, ?_, ?_⟩
  · exact (hclipped.others k hk).trans (State.port_modPort_ne _ _ _ _ hk)
  · exact (hclipped.params n hn).trans (State.par_modPort ..)
  · have hport := hclipped.port
    rw [State.port_modPort_same, List.map_map] at hport
    exact hport
  · rw [length_clips, State.par_modPort, ← Nat.add_assoc] at hcount
    exact hcount

theorem exec_eqEvaluation {s : State} {p : Nat} {want : List Int} (hclocked : s.clocked = true) (hp : p < 16)
    (hcdr : (s.port p).cdr = true) (hon : (s.dom (16 + p / 2)).st = .on) : exec (.eqEvaluation p want) s = .next
    (s.evaluated p (nextCtle (s.par (portP p 0x09)) (s.port p).ctle (want.getD 0 0))
      (fun i => nextDfe (s.par (portP p 0x0B)) ((s.port p).dfe.getD i 0) (want.getD (i + 1) 0))) := by
  have hgate : ¬ (!(s.clocked && decide (p < 16) && (s.port p).cdr && s.pairOn p)) = true := by
    simp [hclocked, hp, hcdr, State.pairOn, hon]
  show execEqEvaluation p want s = _
  rw [execEqEvaluation, if_neg hgate]
  rfl

/-! ### The claim -/

/-- Settles O29: a capture goes through the links one by one, a group and a WRITE count what they carry, and every
clipped loop is counted once. -/
theorem sysrefAndSamples : Obligations.SysrefAndSamples := by
  unfold Obligations.SysrefAndSamples
  refine ⟨fun s l => ⟨sysref_captured s l, fun hignored => ?_, fun hclocked hl hon hsub harmed hfirst => ?_⟩,
    fun s p => ⟨?group, ?write, ?frame, ?equaliser⟩⟩
  · have hgate : (!s.clocked || s.sysrefReversed) = true := by
      rcases hignored with h | h <;> simp [h, State.sysrefReversed]
    show execSysrefCapture s = _
    rw [execSysrefCapture, if_pos hgate]
  · have hgate : (s.clocked && decide (l < 16) && s.linkOn l && s.linkSub1 l && (s.port l).armed && !(s.port l).armAbsent) = true := by
      simp [hclocked, hl, hon, hsub, harmed, hfirst]
    show execSysrefAbsent l s = _
    rw [execSysrefAbsent, if_pos hgate]
  case group =>
    intro l bytes d size start units counted passed hlead hclocked hup hlane hopen
    rw [exec_packetGroupRelease hlead hclocked hup hlane hopen]
    refine ⟨fun hoff => if_pos hoff ▸ rfl, fun hon hfull => ?_, fun hon hroom =>
      ⟨sourced s (.port p) (groupPacket s p bytes), ?_, groupPacket_fields s p bytes⟩⟩
    · exact congrArg _ ((if_neg (by simpa using hon)).trans (if_pos hfull))
    · exact congrArg _ ((if_neg (by simpa using hon)).trans (if_neg (by omega)))
  case write =>
    intro i f k base words busy room harrives hcmd hsound
    have hp : p < 16 := port_lt_of_targetAt harrives.target
    have hexec : exec (.txStreamWrite i) s = .next (writeAtPort p k base) := by
      show execTxStreamWrite i s = _
      rw [execTxStreamWrite, arrive_eq harrives (by simp [k, hcmd]) rfl, if_neg (by simp [k, hsound])]
    have hport : ∀ j, base.port j = s.port j := port_taken s i f
    have hroom : base.txRoom p = room := by
      simp only [State.txRoom, base, room, deviceLead_taken, port_taken] <;> rfl
    rw [hexec]
    refine ⟨fun haddr => congrArg _ (if_pos haddr), fun haddr => ⟨_, rfl, ?_⟩⟩
    have hwrites := writeAtPort_writes (s := base) (p := p) haddr
    dsimp only at hwrites
    rw [hroom, validUnits_eq, hport, par_taken_portP s i f hp (by omega), par_taken_portP s i f hp (by omega)] at hwrites
    simp only [hport] at hwrites
    exact hwrites
  case frame =>
    intro l hlead hclocked hup
    have hgate : ¬ (!(s.clocked && decide ((s.port l).linkSt = 6))) = true := by simp [hclocked, hup]
    have hexec : exec (.txFrameDue p) s = .next (match (s.port p).txBuf with
        | [] => (s.tally64 (portP p 0x2A) 4).count (portP p 0x15) 1
        | _ :: r => (s.tally64 (portP p 0x2A) 4).modPort p (fun q => { q with txBuf := r })) := by
      show execTxFrameDue p s = _
      unfold execTxFrameDue
      rw [hlead]
      exact congrArg _ (if_neg hgate)
    rw [hexec]
    refine ⟨fun hempty => ?_, fun w r hnext => ?_⟩
    · rw [show (s.port p).txBuf = [] from hempty]
    · rw [show (s.port p).txBuf = w :: r from hnext]
  case equaliser =>
    intro want b e lo hi bound wish fixed goal tap hclocked hp hcdr hon
    refine ⟨_, exec_eqEvaluation hclocked hp hcdr hon, ?_⟩
    obtain ⟨hrest, hothers, hparams, hport, hcount⟩ := evaluated_notes s p (nextCtle (s.par (portP p 0x09)) (s.port p).ctle (want.getD 0 0))
      (fun i => nextDfe (s.par (portP p 0x0B)) ((s.port p).dfe.getD i 0) (want.getD (i + 1) 0))
    have hdfe : ∀ i, nextDfe (s.par (portP p 0x0B)) ((s.port p).dfe.getD i 0) (want.getD (i + 1) 0) =
        (if e.getLsbD 31 = true then (s.port p).dfe.getD i 0 else Max.max (-bound) (Min.min bound (tap i)),
          if e.getLsbD 31 = true then decide ((s.port p).dfe.getD i 0 ≠ tap i)
          else decide (Max.max (-bound) (Min.min bound (tap i)) ≠ tap i)) := fun i => nextDfe_eq e _ _
    rw [nextCtle_value] at hport
    rw [nextCtle_clipped] at hcount
    simp only [hdfe] at hrest hothers hparams hport hcount ⊢
    exact ⟨hrest, hothers, hparams, hport, hcount⟩

end Sys2Proof.Machine
end

section
/-!
PROOF, layer of the seam link (chapter 15): its blocks and header units read back, and what the shared operations of a
port's seam record do, each said once by `State.PortIs`.
-/

namespace Sys2Proof.Machine

/-! ### Blocks (Table 15.1) -/

section
variable (q : Seam) (kind seq : Nat) (vc head : Bool) (pay : List Byte)

/-- The control word of a block below its CRC. -/
def ctlNat : Nat :=
  kind + 2 ^ 4 * (seq % 4096) + 2 ^ 16 * ((q.expected + 4095) % 4096) + flag vc 28 + flag head 29 +
    flag q.episode.isSome 30 + 2 ^ 32 * (q.reqFreed % 256) + 2 ^ 40 * (q.rspFreed % 256)

theorem flag_eq (b : Bool) (i : Nat) : flag b i = 2 ^ i * b.toNat := by
  cases b <;> simp [flag]

theorem ctlNat_lt (hkind : kind ≤ 4) : ctlNat q kind seq vc head < 2 ^ 48 := by
  have hvc := Bool.toNat_le vc
  have hhead := Bool.toNat_le head
  have hrep := Bool.toNat_le q.episode.isSome
  simp only [ctlNat, flag_eq]
  omega

/-- The CRC of a block. -/
def blockCrc (pay : List Byte) : BitVec 16 := crc16 (leBytes 6 (ctlNat q kind seq vc head) ++ pay)

theorem makeBlock_eq (hpay : pay.length = 32) : makeBlock q kind seq vc head pay =
    leBytes 6 (ctlNat q kind seq vc head) ++ (leBytes 2 (blockCrc q kind seq vc head pay).toNat ++ pay) := by
  have hwhole : (pay ++ List.replicate 32 0).take 32 = pay := by rw [← hpay, List.take_left]
  unfold makeBlock
  rw [hwhole]
  exact List.append_assoc ..

theorem leNat_append (a b : List Byte) : leNat (a ++ b) = leNat a + 256 ^ a.length * leNat b := by
  induction a with
  | nil => simp [leNat]
  | cons x a ih =>
    rw [List.cons_append, leNat, leNat, ih, List.length_cons, Nat.pow_succ, Nat.mul_comm (256 ^ a.length) 256, Nat.mul_add,
      Nat.mul_assoc, Nat.add_assoc]

theorem blockCtl_makeBlock (hkind : kind ≤ 4) (hpay : pay.length = 32) :
    blockCtl (makeBlock q kind seq vc head pay) =
      ctlNat q kind seq vc head + 2 ^ 48 * (blockCrc q kind seq vc head pay).toNat := by
  have hlow := ctlNat_lt q kind seq vc head hkind
  have hcrc := (blockCrc q kind seq vc head pay).isLt
  have htake : slice (makeBlock q kind seq vc head pay) 0 8 =
      leBytes 6 (ctlNat q kind seq vc head) ++ leBytes 2 (blockCrc q kind seq vc head pay).toNat := by
    rw [makeBlock_eq q kind seq vc head pay hpay, ← List.append_assoc]
    exact List.take_left' (by simp)
  rw [blockCtl, leAt, htake, leNat_append, leNat_leBytes, leNat_leBytes, length_leBytes,
    Nat.mod_eq_of_lt (show ctlNat q kind seq vc head < 256 ^ 6 by omega),
    Nat.mod_eq_of_lt (show (blockCrc q kind seq vc head pay).toNat < 256 ^ 2 by omega)]
  rfl

theorem drop_makeBlock (hpay : pay.length = 32) : (makeBlock q kind seq vc head pay).drop 8 = pay := by
  rw [makeBlock_eq q kind seq vc head pay hpay, ← List.append_assoc]
  exact List.drop_left' (by simp)

theorem blockKind_makeBlock (hkind : kind ≤ 4) (hpay : pay.length = 32) : blockKind (makeBlock q kind seq vc head pay) = kind := by
  rw [blockKind, blockCtl_makeBlock q kind seq vc head pay hkind hpay]
  simp only [bits, ctlNat, flag_eq]
  omega

theorem blockOk_makeBlock (hkind : kind ≤ 4) (hpay : pay.length = 32) : blockOk (makeBlock q kind seq vc head pay) = true := by
  have hlow := ctlNat_lt q kind seq vc head hkind
  have hcrc := (blockCrc q kind seq vc head pay).isLt
  have hlength : (makeBlock q kind seq vc head pay).length = 40 := by
    rw [makeBlock_eq q kind seq vc head pay hpay]
    simp [hpay]
  have htake : (makeBlock q kind seq vc head pay).take 6 = leBytes 6 (ctlNat q kind seq vc head) := by
    rw [makeBlock_eq q kind seq vc head pay hpay]
    exact List.take_left' (length_leBytes 6 _)
  have hfield : bits (blockCtl (makeBlock q kind seq vc head pay)) 63 48 = (blockCrc q kind seq vc head pay).toNat := by
    rw [blockCtl_makeBlock q kind seq vc head pay hkind hpay, bits]
    omega
  rw [blockOk, decide_eq_true_eq, htake, drop_makeBlock q kind seq vc head pay hpay, hfield, BitVec.ofNat_toNat, BitVec.setWidth_eq]
  exact ⟨hlength, rfl, by rwa [blockKind_makeBlock q kind seq vc head pay hkind hpay]⟩

end

/-- The first 28 bits of a header unit. -/
def headerEnds (k : Packet) : Nat :=
  k.dx % 8 + 2 ^ 3 * (k.dy % 8) + 2 ^ 6 * (k.dport % 2) + 2 ^ 7 * (k.dcard % 16) + 2 ^ 11 * (k.sx % 8) + 2 ^ 14 * (k.sy % 8) +
    2 ^ 17 * (k.sport % 2) + 2 ^ 18 * (k.scard % 16) + flag k.gt 22 + 2 ^ 23 * (k.cmd % 8) + flag k.half 26 + flag k.poison 27

/-- Bits 32 to 63 of a header unit. -/
def headerTag (k : Packet) : Nat :=
  k.tag % 4096 + 2 ^ 12 * (k.len % 32) + 2 ^ 17 * (k.flow % 128) + 2 ^ 24 * (k.status % 256)

theorem headerEnds_lt (k : Packet) : (headerEnds k) < 2 ^ 28 := by
  have hgt := Bool.toNat_le k.gt
  have hhalf := Bool.toNat_le k.half
  have hpoison := Bool.toNat_le k.poison
  simp only [headerEnds, flag_eq]
  omega

theorem headerTag_lt (k : Packet) : (headerTag k) < 2 ^ 32 := by
  unfold headerTag
  omega

theorem headerNat_eq (k : Packet) : headerNat k = (headerEnds k) + 2 ^ 32 * (headerTag k) +
    2 ^ 64 * (k.addr % 2 ^ 48 + 2 ^ 48 * (k.code % 256) + 2 ^ 64 * k.valid.toNat) := by
  unfold headerNat headerEnds headerTag
  ring

theorem bits_headerEnds (k : Packet) {hi lo : Nat} (hhi : hi < 28) (hlo : lo ≤ hi) :
    bits (headerNat k) hi lo = bits (headerEnds k) hi lo := by
  have hsplit : headerNat k = (headerEnds k) + 2 ^ (hi + 1) * (2 ^ (31 - hi) * (headerTag k) +
      2 ^ (63 - hi) * (k.addr % 2 ^ 48 + 2 ^ 48 * (k.code % 256) + 2 ^ 64 * k.valid.toNat)) := by
    generalize hhigh : k.addr % 2 ^ 48 + 2 ^ 48 * (k.code % 256) + 2 ^ 64 * k.valid.toNat = high
    have hmiddle : 2 ^ (hi + 1) * 2 ^ (31 - hi) = 2 ^ 32 := by rw [← Nat.pow_add, Nat.add_comm, show 31 - hi + (hi + 1) = 32 by omega]
    have htop : 2 ^ (hi + 1) * 2 ^ (63 - hi) = 2 ^ 64 := by rw [← Nat.pow_add, Nat.add_comm, show 63 - hi + (hi + 1) = 64 by omega]
    rw [headerNat_eq, hhigh, Nat.mul_add, ← Nat.mul_assoc, ← Nat.mul_assoc, hmiddle, htop, Nat.add_assoc]
  have hpow : 2 ^ (hi + 1) = 2 ^ lo * 2 ^ (hi + 1 - lo) := by rw [← Nat.pow_add, Nat.add_sub_cancel' (by omega)]
  rw [bits, bits, hsplit, hpow, Nat.mul_assoc, Nat.add_mul_div_left _ _ (Nat.two_pow_pos lo), Nat.add_mul_mod_self_left]

theorem headerEnds_fields (k : Packet) (hdx : k.dx < 8) (hdy : k.dy < 8) (hdport : k.dport < 2) (hdcard : k.dcard < 16)
    (hsx : k.sx < 8) (hsy : k.sy < 8) (hsport : k.sport < 2) (hscard : k.scard < 16) (hcmd : k.cmd < 8) :
    bits (headerEnds k) 2 0 = k.dx ∧ bits (headerEnds k) 5 3 = k.dy ∧ bits (headerEnds k) 6 6 = k.dport ∧
      bits (headerEnds k) 10 7 = k.dcard ∧ bits (headerEnds k) 13 11 = k.sx ∧ bits (headerEnds k) 16 14 = k.sy ∧
      bits (headerEnds k) 17 17 = k.sport ∧ bits (headerEnds k) 21 18 = k.scard ∧ bits (headerEnds k) 22 22 = k.gt.toNat ∧
      bits (headerEnds k) 25 23 = k.cmd ∧ bits (headerEnds k) 26 26 = k.half.toNat ∧ bits (headerEnds k) 27 27 = k.poison.toNat := by
  have hgt := Bool.toNat_le k.gt
  have hhalf := Bool.toNat_le k.half
  have hpoison := Bool.toNat_le k.poison
  simp only [headerEnds, flag_eq, bits, Nat.mod_eq_of_lt hdx, Nat.mod_eq_of_lt hdy, Nat.mod_eq_of_lt hdport,
    Nat.mod_eq_of_lt hdcard, Nat.mod_eq_of_lt hsx, Nat.mod_eq_of_lt hsy, Nat.mod_eq_of_lt hsport, Nat.mod_eq_of_lt hscard,
    Nat.mod_eq_of_lt hcmd]
  omega

theorem bitOf_eq_bits (v i : Nat) : bitOf v i = decide (bits v i i = 1) := by
  simp [bitOf, bits]

theorem headerPacket_headerNat (k : Packet) (hdx : k.dx < 8) (hdy : k.dy < 8) (hdport : k.dport < 2) (hdcard : k.dcard < 16)
    (hsx : k.sx < 8) (hsy : k.sy < 8) (hsport : k.sport < 2) (hscard : k.scard < 16) (hcmd : k.cmd < 8) (htag : k.tag < 4096)
    (hlen : k.len < 32) (hflow : k.flow < 128) (hstatus : k.status < 256) (haddr : k.addr < 2 ^ 48) (hcode : k.code < 256) :
    headerPacket (headerNat k) = { k with data := [] } := by
  have hlow := headerEnds_lt k
  have htagged := headerTag_lt k
  have hbool : ∀ b : Bool, decide (b.toNat = 1) = b := fun b => by cases b <;> rfl
  obtain ⟨h1, h2, h3, h4, h5, h6, h7, h8, h9, h10, h11, h12⟩ :=
    headerEnds_fields k hdx hdy hdport hdcard hsx hsy hsport hscard hcmd
  have hmid : bits (headerNat k) 43 32 = k.tag ∧ bits (headerNat k) 48 44 = k.len ∧ bits (headerNat k) 55 49 = k.flow ∧
      bits (headerNat k) 63 56 = k.status := by
    have hsplit : headerNat k / 2 ^ 32 % 2 ^ 32 = (headerTag k) := by
      rw [headerNat_eq]
      omega
    simp only [bits]
    unfold headerTag at hsplit
    omega
  have htop : bits (headerNat k) 111 64 = k.addr ∧ bits (headerNat k) 119 112 = k.code ∧ headerNat k / 2 ^ 128 = k.valid.toNat := by
    rw [headerNat_eq]
    simp only [bits]
    omega
  obtain ⟨h13, h14, h15, h16⟩ := hmid
  obtain ⟨h17, h18, h19⟩ := htop
  simp only [headerPacket, bitOf_eq_bits, bits_headerEnds k (show 2 < 28 by omega) (show 0 ≤ 2 by omega),
    bits_headerEnds k (show 5 < 28 by omega) (show 3 ≤ 5 by omega), bits_headerEnds k (show 6 < 28 by omega) (show 6 ≤ 6 by omega),
    bits_headerEnds k (show 10 < 28 by omega) (show 7 ≤ 10 by omega), bits_headerEnds k (show 13 < 28 by omega) (show 11 ≤ 13 by omega),
    bits_headerEnds k (show 16 < 28 by omega) (show 14 ≤ 16 by omega), bits_headerEnds k (show 17 < 28 by omega) (show 17 ≤ 17 by omega),
    bits_headerEnds k (show 21 < 28 by omega) (show 18 ≤ 21 by omega), bits_headerEnds k (show 22 < 28 by omega) (show 22 ≤ 22 by omega),
    bits_headerEnds k (show 25 < 28 by omega) (show 23 ≤ 25 by omega), bits_headerEnds k (show 26 < 28 by omega) (show 26 ≤ 26 by omega),
    bits_headerEnds k (show 27 < 28 by omega) (show 27 ≤ 27 by omega),
    h1, h2, h3, h4, h5, h6, h7, h8, h9, h10, h11, h12, h13, h14, h15, h16, h17, h18, h19, hbool, BitVec.ofNat_toNat,
    BitVec.setWidth_eq]

/-! ### Changes of one port -/

section
variable {s t u : State} {p : Nat} {x y : Port} {ps qs : List Nat}

theorem State.PortIs.refl (s : State) (p : Nat) (ps : List Nat) : s.PortIs s p (s.port p) ps :=
  ⟨rfl, fun _ _ => rfl, rfl, fun _ _ => rfl⟩

theorem State.PortIs.trans (h : s.PortIs t p x ps) (h' : t.PortIs u p y ps) : s.PortIs u p y ps where
  rest := by rw [h'.rest, h.rest]
  others j hj := (h'.others j hj).trans (h.others j hj)
  port := h'.port
  params n hn := (h'.params n hn).trans (h.params n hn)

theorem State.PortIs.mono (h : s.PortIs t p x ps) (hsub : ps ⊆ qs) : s.PortIs t p x qs :=
  ⟨h.rest, h.others, h.port, fun n hn => h.params n (mt (hsub ·) hn)⟩

theorem State.PortIs.putPar (h : s.PortIs t p x ps) {n : Nat} (hn : n ∈ ps) (v : Word) : s.PortIs (t.putPar n v) p x ps where
  rest := by rw [h.rest]; rfl
  others j hj := (State.port_putPar ..).trans (h.others j hj)
  port := (State.port_putPar ..).trans h.port
  params m hm := (State.par_putPar_ne _ _ _ _ (ne_of_mem_of_not_mem hn hm).symm).trans (h.params m hm)

theorem State.PortIs.modSeam (h : s.PortIs t p x ps) (f : Seam → Seam) :
    s.PortIs (t.modSeam p f) p { x with seam := f x.seam } ps where
  rest := by rw [h.rest]; rfl
  others j hj := (State.port_modPort_ne _ _ _ _ hj).trans (h.others j hj)
  port := by rw [State.modSeam, State.port_modPort_same, h.port]
  params m hm := (State.par_modSeam ..).trans (h.params m hm)

theorem State.PortIs.clk (h : s.PortIs t p x ps) : t.clk = s.clk := by rw [h.rest]

theorem State.PortIs.card (h : s.PortIs t p x ps) : t.card = s.card := by rw [h.rest]; rfl

end

theorem port_modSeam (s : State) (p : Nat) (f : Seam → Seam) :
    (s.modSeam p f).port p = { s.port p with seam := f (s.port p).seam } := State.port_modPort_same ..

theorem modSeam_congr {s : State} {p : Nat} {f f' : Seam → Seam} (h : f (s.port p).seam = f' (s.port p).seam) :
    s.modSeam p f = s.modSeam p f' := modPort_congr (congrArg (fun q => { s.port p with seam := q }) h)

/-! ### The control word of a good block (R268, R273) -/

section
variable (s : State) (p : Nat)

/-- The longest episode with one of `k` passes that began at cycle `start` (Table 15.4). -/
def State.longest (s : State) (p k start : Nat) : State := s.putPar (portP p 0x4E)
  (wd (Max.max ((s.par (portP p 0x4E)).toNat % 16) (Min.min 15 k) +
    65536 * Max.max ((s.par (portP p 0x4E)).toNat / 65536 % 4096) (Min.min 4095 (s.clk.cyc - start))))

theorem noteEpisode_eq (k start : Nat) : noteEpisode p k (s.clk.cyc - start) s = s.longest p k start := by
  have hlow : bits (s.parN (portP p 0x4E)) 3 0 = (s.par (portP p 0x4E)).toNat % 16 := by simp [bits, State.parN]
  rw [noteEpisode, hlow]
  rfl

theorem par_longest (k start : Nat) {n : Nat} (h : n ≠ portP p 0x4E) : (s.longest p k start).par n = s.par n :=
  State.par_putPar_ne _ _ _ _ h

/-- The record of the link after ACK `a` (R268, R273). -/
def Seam.acks (q : Seam) (a : Nat) : Seam :=
  { q with
    acked := if q.Covers a then a else q.acked
    replay := if q.Covers a then q.replay.drop ((a + 4096 - q.acked) % 4096) else q.replay
    episode := if q.endsEpisode a = true then none else q.episode }

theorem takeAck_eq (a : Nat) : takeAck p a s =
    (let q := (s.port p).seam
     let t := s.modSeam p (fun q => { q with acked := a, replay := q.replay.drop ((a + 4096 - q.acked) % 4096) })
     if q.Covers a then
       match q.episode with
       | some (k, start, last) =>
         if seqAhead last a then t else (t.modSeam p (fun q => { q with episode := none })).longest p k start
       | none => t
     else s) := by
  have hcovers : ((s.port p).seam.Covers a) ↔ ¬ ((a + 4096 - (s.port p).seam.acked) % 4096 = 0 ∨
      (s.port p).seam.replay.length < (a + 4096 - (s.port p).seam.acked) % 4096) := by
    simp only [Seam.Covers]
    omega
  have hdrop : s.modSeam p (fun q => { q with
        acked := a, replay := q.replay.drop ((a + 4096 - (s.port p).seam.acked) % 4096) }) =
      s.modSeam p (fun q => { q with acked := a, replay := q.replay.drop ((a + 4096 - q.acked) % 4096) }) := modSeam_congr rfl
  by_cases h : (s.port p).seam.Covers a
  · unfold takeAck
    dsimp only
    rw [if_neg (hcovers.1 h), if_pos h, hdrop]
    cases hepisode : (s.port p).seam.episode with
    | none => rfl
    | some e =>
      obtain ⟨k, start, last⟩ := e
      dsimp only
      rw [← noteEpisode_eq]
      rfl
  · unfold takeAck
    dsimp only
    rw [if_pos (not_not.1 (mt hcovers.2 h)), if_neg h]

/-- ACK `a` changes the record of the link, and SEAM_REPLAY_MAX when an episode ends. -/
theorem takeAck_acks (a : Nat) : s.PortIs (takeAck p a s) p { s.port p with seam := (s.port p).seam.acks a } [portP p 0x4E] ∧
    (∀ k start last, (s.port p).seam.episode = some (k, start, last) → (takeAck p a s).par (portP p 0x4E) =
      if (s.port p).seam.endsEpisode a = true then (s.longest p k start).par (portP p 0x4E) else s.par (portP p 0x4E)) ∧
    ((s.port p).seam.episode = none → (takeAck p a s).par (portP p 0x4E) = s.par (portP p 0x4E)) := by
  have hdropped := (State.PortIs.refl s p [portP p 0x4E]).modSeam
    (fun q => { q with acked := a, replay := q.replay.drop ((a + 4096 - q.acked) % 4096) })
  rw [takeAck_eq]
  dsimp only
  generalize hq : (s.port p).seam = q
  rw [hq] at hdropped
  by_cases h : q.Covers a
  · rw [if_pos h]
    cases hepisode : q.episode with
    | none =>
      have hends : q.endsEpisode a = false := by rw [Seam.endsEpisode, hepisode]
      have hacks : q.acks a = { q with acked := a, replay := q.replay.drop ((a + 4096 - q.acked) % 4096) } := by
        simp [Seam.acks, h, hends]
      rw [hacks]
      refine ⟨hdropped, fun _ _ _ he => ?_, fun _ => State.par_modSeam ..⟩
      cases he
    | some e =>
      obtain ⟨k, start, last⟩ := e
      have hends : q.endsEpisode a = !seqAhead last a := by rw [Seam.endsEpisode, hepisode]; simp [h]
      dsimp only
      by_cases hahead : seqAhead last a = true
      · have hacks : q.acks a = { q with acked := a, replay := q.replay.drop ((a + 4096 - q.acked) % 4096) } := by
          simp [Seam.acks, h, hends, hahead]
        rw [if_pos hahead, hacks, hends, hahead]
        exact ⟨hdropped, fun _ _ _ _ => State.par_modSeam .., fun _ => State.par_modSeam ..⟩
      · have hacks : q.acks a =
            { q with acked := a, replay := q.replay.drop ((a + 4096 - q.acked) % 4096), episode := none } := by
          simp [Seam.acks, h, hends, hahead]
        rw [if_neg hahead, hacks, hends, Bool.eq_false_iff.2 hahead]
        refine ⟨(hdropped.modSeam (fun q => { q with episode := none })).putPar List.mem_cons_self _, fun k' start' last' he => ?_,
          fun he => ?_⟩
        · simp only [Option.some.injEq, Prod.mk.injEq] at he
          obtain ⟨rfl, rfl, rfl⟩ := he
          simp only [State.longest, State.par_putPar_same, State.par_modSeam, State.modSeam_clk]
          rfl
        · cases he
  · have hends : q.endsEpisode a = false := by
      unfold Seam.endsEpisode
      split
      · rw [decide_eq_false h, Bool.false_and]
      · rfl
    have hacks : q.acks a = q := by simp [Seam.acks, h, hends]
    rw [if_neg h, hacks, hends, ← hq]
    exact ⟨.refl s p _, fun _ _ _ _ => rfl, fun _ => rfl⟩

/-- What every good block carries is taken (Table 15.1). -/
theorem takeControl_heard (b : List Byte) :
    s.Heard (takeControl p b s) p (blockCtl b) ((s.port p).seam.heard (blockCtl b)) [] := by
  have hread := (State.PortIs.refl s p [portP p 0x4E]).modSeam (fun q => { q with
    peerReplay := bitOf (blockCtl b) 30, reqPeer := bits (blockCtl b) 39 32, rspPeer := bits (blockCtl b) 47 40 })
  obtain ⟨his, hlongest, hsame⟩ := takeAck_acks (s.modSeam p (fun q => { q with
    peerReplay := bitOf (blockCtl b) 30, reqPeer := bits (blockCtl b) 39 32, rspPeer := bits (blockCtl b) 47 40 })) p
    (bits (blockCtl b) 27 16)
  have hheard := hread.trans his
  rw [port_modSeam] at hheard hlongest hsame
  refine ⟨hheard, fun k start last he => ?_, fun he => ?_⟩
  · refine (hlongest k start last he).trans (if_congr Iff.rfl ?_ (State.par_modSeam ..))
    simp only [State.longest, State.par_putPar_same, State.par_modSeam, State.modSeam_clk]
  · exact (hsame he).trans (State.par_modSeam ..)

end

end Sys2Proof.Machine
end

section
/-!
PROOF of O30 (chapter 15): seam blocks read back as made, and seam links train.
-/

namespace Sys2Proof.Machine

theorem byteAt_drop (b : List Byte) (n i : Nat) : byteAt (b.drop n) i = byteAt b (n + i) := by
  simp [byteAt, List.getD_eq_getElem?_getD]

theorem leAt_drop (b : List Byte) (n i m : Nat) : leAt (b.drop n) i m = leAt b (n + i) m := by
  rw [leAt, leAt, slice, slice, List.drop_drop]

/-! ### Fields of a block (R268) -/

theorem makeBlock_fields (q : Seam) (kind seq : Nat) (vc head : Bool) (pay : List Byte) (hkind : kind ≤ 4) (hpay : pay.length = 32) :
    let c := blockCtl (makeBlock q kind seq vc head pay)
    c / 2 ^ 4 % 4096 = seq % 4096 ∧ c / 2 ^ 16 % 4096 = (q.expected + 4095) % 4096 ∧ (c / 2 ^ 28 % 2 = 1 ↔ vc = true) ∧
      (c / 2 ^ 29 % 2 = 1 ↔ head = true) ∧ (c / 2 ^ 30 % 2 = 1 ↔ q.episode ≠ none) ∧
      c / 2 ^ 32 % 256 = q.reqFreed % 256 ∧ c / 2 ^ 40 % 256 = q.rspFreed % 256 := by
  have hvc := Bool.toNat_le vc
  have hhead := Bool.toNat_le head
  have hrep := Bool.toNat_le q.episode.isSome
  have htrue : ∀ b : Bool, b = true ↔ b.toNat = 1 := fun b => by cases b <;> simp
  rw [blockCtl_makeBlock q kind seq vc head pay hkind hpay, ← Option.isSome_iff_ne_none, htrue vc, htrue head,
    htrue q.episode.isSome]
  simp only [ctlNat, flag_eq]
  omega

/-! ### Blocks received (R264) -/

section
variable {s : State} {p k : Nat} {b : List Byte}

theorem receiveBlock_good (h : s.Receives p k b) (act : State → State) : receiveBlock k p b act s = act s := by
  have hgate : (s.clocked && decide (p < 16 ∧ s.protocol p = 2 ∧ 3 ≤ (s.port p).seam.state)) = true := by
    simp [h.clocked, h.port, h.seam, h.state]
  rw [receiveBlock, hgate, h.good, h.kind]
  simp

theorem seamUp_iff : s.seamUp p = true ↔ (s.port p).seam.state = 5 := decide_eq_true_iff

theorem badBlock_up (h : (s.port p).seam.state = 5) : badBlock p s = sendNak p (s.count (portP p 0x48) 1) := by
  have hup : (s.count (portP p 0x48) 1).seamUp p = true := seamUp_iff.2 (by rwa [State.port_count])
  rw [badBlock, hup]
  rfl

theorem badBlock_training (h : (s.port p).seam.state ≠ 5) : badBlock p s =
    (s.count (portP p 0x48) 1).modSeam p (fun q => { q with good := 0, readyRun := 0 }) := by
  have hup : ¬ (s.count (portP p 0x48) 1).seamUp p = true := mt seamUp_iff.1 (by rwa [State.port_count])
  rw [badBlock]
  exact if_neg hup

/-- Every command that receives a block counts one that fails. -/
theorem exec_badBlock (hclocked : s.clocked = true) (hp : p < 16) (hseam : s.protocol p = 2) (hstate : 3 ≤ (s.port p).seam.state)
    (hbad : blockOk b = false) {c : Instr}
    (hc : c ∈ [Instr.seamTrainRx p b false, .seamTimeRx p b 0, .seamUnitRx p b, .seamIdleRx p b, .seamNakRx p b]) :
    exec c s = .next (badBlock p s) := by
  have hgate : (s.clocked && decide (p < 16 ∧ s.protocol p = 2 ∧ 3 ≤ (s.port p).seam.state)) = true := by
    simp [hclocked, hp, hseam, hstate]
  have hreceive : ∀ k act, receiveBlock k p b act s = badBlock p s := fun k act => by
    rw [receiveBlock, hgate, hbad]
    rfl
  simp only [List.mem_cons, List.not_mem_nil, or_false] at hc
  rcases hc with rfl | rfl | rfl | rfl | rfl
  · show execSeamTrainRx p b false s = _
    rw [execSeamTrainRx, Bool.false_and, Bool.false_and, Bool.false_and, if_neg Bool.false_ne_true, hreceive]
  · exact congrArg _ (hreceive _ _)
  · exact congrArg _ (hreceive _ _)
  · exact congrArg _ (hreceive _ _)
  · exact congrArg _ (hreceive _ _)

end

/-! ### NAK (R272) -/

section
variable (s : State) (p : Nat)

/-- The record of the link after a NAK has left. -/
def Seam.naks (q : Seam) (cyc : Nat) : Seam :=
  { q with
    nakPending := true, nakCyc := cyc
    sent := makeBlock { q with nakPending := true, nakCyc := cyc } 2 q.nextSeq false false [] :: q.sent }

theorem sendNak_sends (h : ¬ ((s.port p).seam.nakPending = true ∧ s.withinTwo p (s.port p).seam.nakCyc = true)) :
    sendNak p s = (s.modSeam p (Seam.naks · s.clk.cyc)).count (portP p 0x47) 1 := by
  have hgate : ¬ ((s.port p).seam.nakPending && s.withinTwo p (s.port p).seam.nakCyc) = true := by rwa [Bool.and_eq_true]
  have hsends : s.modSeam p (Seam.naks · s.clk.cyc) = s.modSeam p (fun x => ({ x with nakPending := true, nakCyc := s.clk.cyc } : Seam).put
      (makeBlock x 2 x.nextSeq false false [])) := modSeam_congr rfl
  rw [hsends]
  exact if_neg hgate

theorem sendNak_silent (h : (s.port p).seam.nakPending = true) (h' : s.withinTwo p (s.port p).seam.nakCyc = true) :
    sendNak p s = s := by
  have hgate : ((s.port p).seam.nakPending && s.withinTwo p (s.port p).seam.nakCyc) = true := by rw [h, h']; rfl
  exact if_pos hgate

/-- A NAK changes only what it counts, its time and what has left. -/
theorem sendNak_is : ∃ pending cyc sent, s.PortIs (sendNak p s) p
    { s.port p with seam := { (s.port p).seam with nakPending := pending, nakCyc := cyc, sent := sent } } [portP p 0x47] := by
  by_cases h : (s.port p).seam.nakPending = true ∧ s.withinTwo p (s.port p).seam.nakCyc = true
  · rw [sendNak_silent s p h.1 h.2]
    exact ⟨_, _, _, .refl s p _⟩
  · rw [sendNak_sends s p h]
    exact ⟨_, _, _, ((State.PortIs.refl s p _).modSeam (Seam.naks · s.clk.cyc)).putPar List.mem_cons_self _⟩

/-- A good block other than UNIT: its control word, and a NAK when its number is ahead. -/
theorem plainBlock_eq (b : List Byte) : plainBlock p b s =
    (let ahead := (blockCtl b / 16 % 4096 + 4096 - (s.port p).seam.expected) % 4096
     if 1 ≤ ahead ∧ ahead ≤ 2047 then sendNak p (takeControl p b s) else takeControl p b s) := by
  have hexpected : ((takeControl p b s).port p).seam.expected = (s.port p).seam.expected := by
    rw [(takeControl_heard s p b).is.port]
    rfl
  unfold plainBlock
  dsimp only
  rw [hexpected, seqAhead]
  exact if_congr decide_eq_true_iff rfl rfl

/-- A good block other than UNIT leaves what a measurement and a pass read. -/
theorem plainBlock_is (b : List Byte) : ∃ pending cyc sent, s.PortIs (plainBlock p b s) p
    { s.port p with seam := { (s.port p).seam.heard (blockCtl b) with nakPending := pending, nakCyc := cyc, sent := sent } }
    [portP p 0x4E, portP p 0x47] := by
  have hheard := (takeControl_heard s p b).is.mono (qs := [portP p 0x4E, portP p 0x47]) (by simp)
  obtain ⟨pending, cyc, sent, hnak⟩ := sendNak_is (takeControl p b s) p
  rw [plainBlock_eq]
  dsimp only
  split
  · rw [hheard.port] at hnak
    exact ⟨pending, cyc, sent, hheard.trans (hnak.mono (by simp))⟩
  · exact ⟨_, _, _, hheard⟩

end

/-! ### TRAIN blocks (R265, R266) -/

/-- The failing check of a TRAIN block with what its cause carries (Table 15.5). -/
def blockFault (card : Nat) (b : List Byte) : Option (Nat × Nat) :=
  let w := (byteAt b 11).toNat
  if (byteAt b 10).toNat ≠ 1 then some (0x16, (byteAt b 10).toNat)
  else if w / 16 % 2 = 1 then some (0x15, w % 16)
  else if w % 16 = card then some (0x13, w % 16) else none

theorem trainFault_drop (card : Nat) (b : List Byte) : trainFault card (b.drop 8) = blockFault card b := by
  simp only [trainFault, byteAt_drop]
  simp [blockFault, bitOf]

/-- The record of the link after a TRAIN block of the seam's kind. -/
def Seam.trained (q : Seam) (card : Nat) (b : List Byte) : Seam :=
  let w := (byteAt b 11).toNat
  { q with
    peerReplay := decide (blockCtl b / 2 ^ 30 % 2 = 1), peerCard := w % 16, peerPort := (byteAt b 12).toNat % 16
    peerRefuse := decide (w / 16 % 2 = 1), good := q.good + 1
    readyRun := if blockFault card b = none ∧ w / 32 % 2 = 1 then q.readyRun + 1 else 0 }

section
variable {s : State} {p : Nat} {b : List Byte} (h : s.Receives p 3 b)
include h

theorem exec_seamTrainRx : exec (.seamTrainRx p b false) s = .next
    (let t := s.modSeam p (fun q => { q with peerReplay := bitOf (blockCtl b) 30 })
     if (s.port p).seam.state = 5 then seamDown p 3 t else trainBlock p (b.drop 8) t) := by
  have hup : ∀ f : Seam → Seam, (∀ q, (f q).state = q.state) →
      ((s.modSeam p f).seamUp p = true ↔ (s.port p).seam.state = 5) := fun f hf => by
    rw [seamUp_iff, port_modSeam]
    exact iff_of_eq (congrArg (· = 5) (hf _))
  show execSeamTrainRx p b false s = _
  rw [execSeamTrainRx, Bool.false_and, Bool.false_and, Bool.false_and, if_neg Bool.false_ne_true, receiveBlock_good h]
  exact congrArg _ (if_congr (hup _ fun _ => rfl) rfl rfl)

/-- A TRAIN block of the seam's kind on a link that is not up. -/
theorem exec_trained (hdown : (s.port p).seam.state ≠ 5) (hmagic : (byteAt b 8).toNat = 0x53) (hmagic' : (byteAt b 9).toNat = 0x4C) :
    ∃ t, s.PortIs t p { s.port p with seam := (s.port p).seam.trained s.card b } [] ∧
      exec (.seamTrainRx p b false) s = .next
        (if (s.port p).seam.state ≠ 3 then t
         else match blockFault s.card b with
          | some (c, v) =>
            if (s.port p).seam.reported.contains (c + 256 * v) then t
            else (t.modSeam p (fun q => { q with reported := (c + 256 * v) :: q.reported })).raiseLink p c [BitVec.ofNat 8 v]
          | none =>
            if 16 ≤ ((s.port p).seam.trained s.card b).readyRun ∧ s.card ≠ 15 then
              t.modSeam p (fun q => { q with state := 4, timeSeen := false })
            else t) := by
  have hmagic : ¬ (byteAt (b.drop 8) 0 ≠ 0x53 ∨ byteAt (b.drop 8) 1 ≠ 0x4C) := by
    rw [byteAt_drop, byteAt_drop, not_or, not_not, not_not]
    exact ⟨BitVec.eq_of_toNat_eq hmagic, BitVec.eq_of_toNat_eq hmagic'⟩
  let r := s.modSeam p (fun q => { q with peerReplay := bitOf (blockCtl b) 30 })
  let w := (byteAt (b.drop 8) 3).toNat
  let t := r.modSeam p (fun q => { q with
    peerCard := w % 16, peerPort := (byteAt (b.drop 8) 4).toNat % 16, peerRefuse := bitOf w 4, good := q.good + 1
    readyRun := if (trainFault r.card (b.drop 8)).isNone && bitOf w 5 then q.readyRun + 1 else 0 })
  have hrun : ∀ n : Nat, (if (trainFault r.card (b.drop 8)).isNone && bitOf w 5 then n + 1 else 0) =
      if blockFault s.card b = none ∧ (byteAt b 11).toNat / 32 % 2 = 1 then n + 1 else 0 := fun n => by
    have hcard : r.card = s.card := rfl
    have hw : w = (byteAt b 11).toNat := congrArg BitVec.toNat (byteAt_drop b 8 3)
    rw [trainFault_drop, hcard, hw]
    simp [bitOf]
  have hport : t.port p = { s.port p with seam := (s.port p).seam.trained s.card b } := by
    rw [port_modSeam, port_modSeam, hrun]
    simp only [w, byteAt_drop]
    rfl
  have his : s.PortIs t p { s.port p with seam := (s.port p).seam.trained s.card b } [] := by
    rw [← hport]
    have htwo := ((State.PortIs.refl s p []).modSeam (fun q => { q with peerReplay := bitOf (blockCtl b) 30 })).modSeam
      (fun q => { q with
        peerCard := w % 16, peerPort := (byteAt (b.drop 8) 4).toNat % 16, peerRefuse := bitOf w 4, good := q.good + 1
        readyRun := if (trainFault r.card (b.drop 8)).isNone && bitOf w 5 then q.readyRun + 1 else 0 })
    exact ⟨htwo.rest, htwo.others, rfl, htwo.params⟩
  refine ⟨t, his, ?_⟩
  have hblock : trainBlock p (b.drop 8) r =
      if (t.port p).seam.state ≠ 3 then t
      else match trainFault s.card (b.drop 8) with
        | some (c, v) =>
          if (t.port p).seam.reported.contains (c + 256 * v) then t
          else (t.modSeam p (fun q => { q with reported := (c + 256 * v) :: q.reported })).raiseLink p c [BitVec.ofNat 8 v]
        | none =>
          if 16 ≤ (t.port p).seam.readyRun ∧ s.card ≠ 15 then t.modSeam p (fun q => { q with state := 4, timeSeen := false })
          else t := (if_neg hmagic).trans (by rfl)
  rw [exec_seamTrainRx h, if_neg hdown]
  refine congrArg _ (hblock.trans ?_)
  rw [hport, trainFault_drop]
  rfl

end

/-! ### TIME blocks (R267) -/

/-- The round trip of a completed echo, in ticks. -/
def roundTrip (b : List Byte) (t4 : Tick) : Int :=
  ((t4.toNat : Int) - leAt b 16 8).bmod (2 ^ 64) - ((leAt b 8 8 : Int) - leAt b 24 8).bmod (2 ^ 64)

/-- Twice the tick difference that a completed echo measures, less the calibration. -/
def tickSum (b : List Byte) (t4 : Tick) (cal : Word) : Int :=
  ((leAt b 16 8 : Int) - leAt b 24 8).bmod (2 ^ 64) + ((t4.toNat : Int) - leAt b 8 8).bmod (2 ^ 64) -
    (cal.toNat : Int).bmod (2 ^ 16)

/-- The tick difference as the parameters hold it: half the sum, halves away from zero. -/
def tickDiff (sum : Int) : Nat := ((sum.sign * ((sum.natAbs + 1) / 2 : Nat)) % 2 ^ 64).toNat

theorem halfAway_eq (n : Int) : halfAway n = n.sign * ((n.natAbs + 1) / 2 : Nat) := by
  unfold halfAway
  rcases Int.lt_trichotomy n 0 with h | h | h
  · rw [if_neg (by omega), Int.sign_eq_neg_one_of_neg h]
    omega
  · subst h
    rfl
  · rw [if_pos (by omega), Int.sign_eq_one_of_pos h]
    omega

theorem signed_natCast {w : Nat} (hw : 0 < w) (v : Nat) : signed w v = (v : Int).bmod (2 ^ w) := by
  have hwrap : wrap w (v : Int) = v % 2 ^ w := by
    rw [wrap, ← Int.natCast_emod, Int.toNat_natCast]
  rw [← signed_wrap hw, hwrap, signed_mod]

theorem wrap_halfAway (sum : Int) : wrap 64 (halfAway sum) = tickDiff sum := by
  rw [wrap, halfAway_eq]
  rfl

theorem modSeam_raiseLink (s : State) (p q cause : Nat) (d : List Byte) (f : Seam → Seam) :
    (s.raiseLink q cause d).modSeam p f = (s.modSeam p f).raiseLink q cause d := by
  have hraise : ∀ (t : State) e l, (t.raise e l).modSeam p f = (t.modSeam p f).raise e l := fun t e l => by
    have hcan : (t.modSeam p f).canRaise e = t.canRaise e := rfl
    unfold State.raise
    rw [hcan]
    split <;> rfl
  exact hraise _ _ _

/-- The record of the link after a TIME payload. -/
def Seam.echoes (q : Seam) (b : List Byte) (t4 : Tick) : Seam :=
  { q with timeSeen := true, echoTx := BitVec.ofNat 64 (leAt b 8 8), echoRx := t4 }

/-- A completed round trip is recorded (R267). -/
def State.tickNoted (s : State) (p : Nat) (b : List Byte) (t4 : Tick) : State :=
  (s.putPar (portP p 0x44) (wd (roundTrip b t4 % 2 ^ 24).toNat)).putPair (portP p 0x42)
    (tickDiff (tickSum b t4 (s.par (portP p 0x45))))

theorem tickNoted_is {s t : State} {p : Nat} {x : Port} (h : s.PortIs t p x [portP p 0x42, portP p 0x43, portP p 0x44])
    (b : List Byte) (t4 : Tick) : s.PortIs (t.tickNoted p b t4) p x [portP p 0x42, portP p 0x43, portP p 0x44] :=
  ((h.putPar (n := portP p 0x44) (by simp) _).putPar (n := portP p 0x42) (by simp) _).putPar (n := portP p 0x43) (by simp) _

theorem timeBlock_eq (s : State) (p : Nat) (b : List Byte) (t4 : Tick) : timeBlock p (b.drop 8) t4.toNat s =
    (if leAt b 16 8 = 0 ∧ leAt b 24 8 = 0 then s
     else
       let r := noteDiff p (halfAway (tickSum b t4 (s.par (portP p 0x45))))
         (s.putPar (portP p 0x44) (wd (roundTrip b t4 % 2 ^ 24).toNat))
       if (r.port p).seam.state = 4 then seamUpNow p r else r).modSeam p (Seam.echoes · b t4) := by
  have htick : BitVec.ofNat 64 t4.toNat = t4 := by rw [BitVec.ofNat_toNat, BitVec.setWidth_eq]
  unfold timeBlock
  simp only [leAt_drop, signed_wrap (show 0 < 64 by omega), signed_natCast (show 0 < 16 by omega), htick]
  rfl

section
variable {s : State} {p : Nat} (b : List Byte) (t4 : Tick)

theorem noteDiff_training (h : (s.port p).seam.state = 4) :
    noteDiff p (halfAway (tickSum b t4 (s.par (portP p 0x45)))) (s.putPar (portP p 0x44) (wd (roundTrip b t4 % 2 ^ 24).toNat)) =
      s.tickNoted p b t4 := by
  have hup : ¬ (s.tickNoted p b t4).seamUp p = true := by
    rw [seamUp_iff, State.tickNoted, State.port_putPair, State.port_putPar, h]
    decide
  unfold noteDiff
  rw [wrap_halfAway]
  exact if_neg hup

/-- The tick difference is told again: the first that is not 0, and every change (R267). -/
def Seam.tells (q : Seam) (v : Nat) : Prop := (q.lastDiff = none ∧ v ≠ 0) ∨ (∃ o, q.lastDiff = some o ∧ o.toNat ≠ v)

theorem noteDiff_up (h : (s.port p).seam.state = 5) [Decidable ((s.port p).seam.tells (tickDiff (tickSum b t4 (s.par (portP p 0x45)))))] :
    noteDiff p (halfAway (tickSum b t4 (s.par (portP p 0x45)))) (s.putPar (portP p 0x44) (wd (roundTrip b t4 % 2 ^ 24).toNat)) =
      (let v := tickDiff (tickSum b t4 (s.par (portP p 0x45)))
       let w := (s.tickNoted p b t4).modSeam p (fun q => { q with lastDiff := some (BitVec.ofNat 64 v) })
       if (s.port p).seam.tells v then w.raiseLink p 0x14 (leBytes 8 v) else w) := by
  have hport : (s.putPar (portP p 0x44) (wd (roundTrip b t4 % 2 ^ 24).toNat)).port p = s.port p := State.port_putPar ..
  have hup : (s.tickNoted p b t4).seamUp p = true := by
    rw [seamUp_iff, State.tickNoted, State.port_putPair, State.port_putPar, h]
  have htells : ∀ v : Nat, (match (s.port p).seam.lastDiff with | none => decide (v ≠ 0) | some w => decide (w.toNat ≠ v)) = true ↔
      (s.port p).seam.tells v := fun v => by
    unfold Seam.tells
    cases (s.port p).seam.lastDiff <;> simp
  unfold noteDiff
  rw [wrap_halfAway, hport]
  exact (if_pos hup).trans (if_congr (htells _) rfl rfl)

theorem par_tickNoted_rtt : (s.tickNoted p b t4).par (portP p 0x44) = wd (roundTrip b t4 % 2 ^ 24).toNat := by
  rw [State.tickNoted, State.par_putPair_ne _ _ _ _ (by unfold portP; omega) (by unfold portP; omega), State.par_putPar_same]

theorem pair_tickNoted : (s.tickNoted p b t4).pair (portP p 0x42) = tickDiff (tickSum b t4 (s.par (portP p 0x45))) := by
  rw [State.tickNoted, pair_putPair]
  unfold tickDiff
  omega

end

section
variable {s : State} {p : Nat} {b : List Byte} (h : s.Receives p 4 b) (t4 : Tick)
include h

theorem exec_seamTimeRx_training (hstate : (s.port p).seam.state = 4) :
    exec (.seamTimeRx p b t4) s = .next (timeBlock p (b.drop 8) t4.toNat s) := by
  have hup : ¬ s.seamUp p = true := by
    rw [seamUp_iff, hstate]
    decide
  have hgate : 4 ≤ (s.port p).seam.state := by omega
  show execSeamTimeRx p b t4 s = _
  rw [execSeamTimeRx, receiveBlock_good h]
  dsimp only
  rw [if_neg hup, if_pos hgate]

theorem exec_seamTimeRx_up (hstate : (s.port p).seam.state = 5) (hkept : ((plainBlock p b s).port p).seam.state = 5) :
    exec (.seamTimeRx p b t4) s = .next (timeBlock p (b.drop 8) t4.toNat (plainBlock p b s)) := by
  have hgate : 4 ≤ ((plainBlock p b s).port p).seam.state := by omega
  show execSeamTimeRx p b t4 s = _
  rw [execSeamTimeRx, receiveBlock_good h]
  dsimp only
  rw [if_pos (seamUp_iff.2 hstate), if_pos hgate]

end

/-! ### The parts of the claim -/

section
variable {s : State} {p : Nat}

/-- Block lock starts the exchange of TRAIN blocks (R266). -/
theorem blockLock_starts (hclocked : s.clocked = true) (hp : p < 16) (hseam : s.protocol p = 2)
    (hstate : (s.port p).seam.state = 1 ∨ (s.port p).seam.state = 2) (hpair : s.pairOn p = true) : ∃ t,
    s.PortIs t p { s.port p with cdr := true, signal := true, seam := { (s.port p).seam with
      state := 3, good := 0, readyRun := 0, reported := if s.card = 15 then [0x12] else (s.port p).seam.reported } } [] ∧
    exec (.seamBlockLock p) s = .next (if s.card = 15 then t.raiseLink p 0x12 [] else t) := by
  have hgate : (s.clocked && decide (p < 16 ∧ s.protocol p = 2 ∧ ((s.port p).seam.state = 1 ∨ (s.port p).seam.state = 2)) &&
      s.pairOn p) = true := by
    rw [hclocked, hpair, decide_eq_true ⟨hp, hseam, hstate⟩]
    rfl
  have hexec : exec (.seamBlockLock p) s = .next
      (let r := s.modPort p (fun x => { x with cdr := true, signal := true, seam := { x.seam with state := 3, good := 0, readyRun := 0 } })
       if s.card = 15 then (r.modSeam p (fun q => { q with reported := [0x12] })).raiseLink p 0x12 [] else r) := by
    show execSeamBlockLock p s = _
    rw [execSeamBlockLock, if_pos hgate]
    rfl
  have hlocked : s.PortIs (s.modPort p (fun x => { x with
        cdr := true, signal := true, seam := { x.seam with state := 3, good := 0, readyRun := 0 } })) p
      { s.port p with cdr := true, signal := true, seam := { (s.port p).seam with state := 3, good := 0, readyRun := 0 } } [] :=
    ⟨rfl, fun _ hj => State.port_modPort_ne _ _ _ _ hj, State.port_modPort_same .., fun _ _ => State.par_modPort ..⟩
  rw [hexec]
  by_cases hcard : s.card = 15
  · simp only [hcard, if_true]
    exact ⟨_, hlocked.modSeam (fun q => { q with reported := [0x12] }), rfl⟩
  · simp only [hcard, if_false]
    exact ⟨_, hlocked, rfl⟩

theorem invertLane_eq (p : Nat) (s : State) : invertLane p s =
    (let t := s.modPort p (fun x => { x with inverted := !x.inverted, polDone := true })
     if (s.port p).polDone = true then t else t.raiseLane p 1) := by
  unfold invertLane
  cases (s.port p).polDone <;> rfl

variable {b : List Byte}

/-- A TRAIN block (R265, R266, R275). -/
theorem trainBlock_taken (h : s.Receives p 3 b) :
    let x := s.port p
    let q := x.seam
    let heard := q.trained s.card b
    let fault := blockFault s.card b
    (q.state = 5 → exec (.seamTrainRx p b false) s = .next (seamDown p 3 (s.modSeam p (fun q => { q with
      peerReplay := decide (blockCtl b / 2 ^ 30 % 2 = 1) })))) ∧
    (q.state ≠ 5 → ((byteAt b (8 + 0)).toNat ≠ 0x53 ∨ (byteAt b (8 + 1)).toNat ≠ 0x4C) →
      ∃ t, exec (.seamTrainRx p b false) s = .next t ∧
      s.PortIs t p { x with seam := { q with peerReplay := decide (blockCtl b / 2 ^ 30 % 2 = 1), good := 0, readyRun := 0 } } []) ∧
    (q.state ≠ 5 → (byteAt b (8 + 0)).toNat = 0x53 → (byteAt b (8 + 1)).toNat = 0x4C →
      (q.state = 4 → ∃ t, exec (.seamTrainRx p b false) s = .next t ∧ s.PortIs t p { x with seam := heard } []) ∧
      (q.state = 3 →
        (∀ c v, fault = some (c, v) → ∃ t,
          (c + 256 * v ∈ q.reported → exec (.seamTrainRx p b false) s = .next t ∧ s.PortIs t p { x with seam := heard } []) ∧
          (c + 256 * v ∉ q.reported → exec (.seamTrainRx p b false) s = .next (t.raiseLink p c [BitVec.ofNat 8 v]) ∧
            s.PortIs t p { x with seam := { heard with reported := (c + 256 * v) :: q.reported } } [])) ∧
        (fault = none → ∃ t, exec (.seamTrainRx p b false) s = .next t ∧
          s.PortIs t p { x with seam := if 16 ≤ heard.readyRun ∧ s.card ≠ 15 then { heard with state := 4, timeSeen := false }
            else heard } []))) := by
  have hread := (State.PortIs.refl s p []).modSeam (fun q => { q with peerReplay := bitOf (blockCtl b) 30 })
  intro x q heard fault
  refine ⟨fun hup => ?_, fun hdown hwrong => ?_, fun hdown hmagic hmagic' => ?_⟩
  · rw [exec_seamTrainRx h]
    exact congrArg _ (if_pos hup)
  · have hbad : byteAt (b.drop 8) 0 ≠ 0x53 ∨ byteAt (b.drop 8) 1 ≠ 0x4C := by
      rw [byteAt_drop, byteAt_drop]
      exact hwrong.imp (mt (congrArg BitVec.toNat)) (mt (congrArg BitVec.toNat))
    rw [exec_seamTrainRx h]
    refine ⟨_, congrArg _ ((if_neg hdown).trans (if_pos hbad)), hread.modSeam (fun q => { q with good := 0, readyRun := 0 })⟩
  · obtain ⟨t, ht, hexec⟩ := exec_trained h hdown hmagic hmagic'
    rw [hexec]
    refine ⟨fun hstate => ⟨t, ?_, ht⟩, fun hstate => ⟨fun c v hfault => ?_, fun hfault => ?_⟩⟩
    · rw [if_pos (show (s.port p).seam.state ≠ 3 from fun h3 => by rw [show (s.port p).seam.state = 4 from hstate] at h3; omega)]
    · rw [if_neg (not_not.2 hstate), show blockFault s.card b = some (c, v) from hfault]
      dsimp only
      by_cases hold : c + 256 * v ∈ (s.port p).seam.reported
      · rw [if_pos (List.contains_iff_mem.2 hold)]
        exact ⟨t, fun _ => ⟨rfl, ht⟩, fun hnew => absurd hold hnew⟩
      · rw [if_neg (mt List.contains_iff_mem.1 hold)]
        exact ⟨_, fun h => absurd h hold, fun _ => ⟨rfl, ht.modSeam (fun q => { q with reported := (c + 256 * v) :: q.reported })⟩⟩
    · rw [if_neg (not_not.2 hstate), show blockFault s.card b = none from hfault]
      dsimp only
      split
      · exact ⟨_, rfl, ht.modSeam (fun q => { q with state := 4, timeSeen := false })⟩
      · exact ⟨_, rfl, ht⟩

/-- The record of the link when it comes up (R266). -/
def Seam.up (q : Seam) : Seam :=
  { q with
    state := 5, nextSeq := 0, expected := 0, acked := 4095, reqUsed := 0, rspUsed := 0, reqPeer := 0, rspPeer := 0
    reqFreed := 0, rspFreed := 0, replay := [], nakPending := false, episode := none, passFrom := none, rxHead := none
    lastDiff := none }

/-- A TIME block in state 4 (R266, R267). -/
theorem timeBlock_compares (t4 : Tick) (h : s.Receives p 4 b) (hstate : (s.port p).seam.state = 4) :
    let x := s.port p
    let q := x.seam
    let sum := tickSum b t4 (s.par (portP p 0x45))
    (leAt b 16 8 = 0 ∧ leAt b 24 8 = 0 → ∃ t, exec (.seamTimeRx p b t4) s = .next t ∧
      s.PortIs t p { x with seam := q.echoes b t4 } []) ∧
    (¬ (leAt b 16 8 = 0 ∧ leAt b 24 8 = 0) → ∃ t,
      s.PortIs t p { x with seam := (q.echoes b t4).up } [portP p 0x42, portP p 0x43, portP p 0x44] ∧
      ((t.par (portP p 0x44)).toNat : Int) = roundTrip b t4 % 2 ^ 24 ∧
      (t.pair (portP p 0x42) : Int) = (sum.sign * ((sum.natAbs + 1) / 2 : Nat)) % 2 ^ 64 ∧
      exec (.seamTimeRx p b t4) s = .next (t.raiseLink p 0x10
        ([BitVec.ofNat 8 q.peerCard, BitVec.ofNat 8 q.peerPort, 0, 0] ++ leBytes 4 (t.par (portP p 0x44)).toNat))) := by
  intro x q sum
  rw [exec_seamTimeRx_training h t4 hstate, timeBlock_eq]
  refine ⟨fun hfirst => ⟨_, rfl, ?_⟩, fun hecho => ?_⟩
  · rw [if_pos hfirst]
    exact (State.PortIs.refl s p []).modSeam (Seam.echoes · b t4)
  · have hnoted := tickNoted_is (.refl s p _) b t4
    have hthere : ((s.tickNoted p b t4).port p).seam.state = 4 := by rw [hnoted.port, hstate]
    rw [if_neg hecho]
    dsimp only
    rw [noteDiff_training b t4 hstate, if_pos hthere]
    refine ⟨((s.tickNoted p b t4).modSeam p Seam.up).modSeam p (Seam.echoes · b t4),
      (hnoted.modSeam Seam.up).modSeam (Seam.echoes · b t4), ?_, ?_, ?_⟩
    · rw [State.par_modSeam, State.par_modSeam, par_tickNoted_rtt, toNat_wd]
      omega
    · rw [pair_congr (State.par_modSeam ..) (State.par_modSeam ..), pair_congr (State.par_modSeam ..) (State.par_modSeam ..),
        pair_tickNoted]
      exact Int.toNat_of_nonneg (Int.emod_nonneg _ (by decide))
    · rw [seamUpNow, modSeam_raiseLink, port_modSeam, hnoted.port, State.parN, State.par_modSeam, State.par_modSeam, State.par_modSeam]
      rfl

/-- A TIME block on an up link (R267). -/
theorem timeBlock_measures (t4 : Tick) (h : s.Receives p 4 b) (hstate : (s.port p).seam.state = 5) :
    let q := (s.port p).seam
    let c := blockCtl b
    let ahead := (c / 16 % 4096 + 4096 - q.expected) % 4096
    let v := tickDiff (tickSum b t4 (s.par (portP p 0x45)))
    let echo := fun (u : State) => u.modSeam p (Seam.echoes · b t4)
    ∃ t, s.Heard t p c (q.heard c) [] ∧
      let u := if 1 ≤ ahead ∧ ahead ≤ 2047 then sendNak p t else t
      let w := ((u.putPar (portP p 0x44) (wd (roundTrip b t4 % 2 ^ 24).toNat)).putPair (portP p 0x42) v).modSeam p (fun q => { q with
        lastDiff := some (BitVec.ofNat 64 v) })
      (leAt b 16 8 = 0 ∧ leAt b 24 8 = 0 → exec (.seamTimeRx p b t4) s = .next (echo u)) ∧
      (¬ (leAt b 16 8 = 0 ∧ leAt b 24 8 = 0) →
        (q.tells v → exec (.seamTimeRx p b t4) s = .next (echo (w.raiseLink p 0x14 (leBytes 8 v)))) ∧
        (¬ q.tells v → exec (.seamTimeRx p b t4) s = .next (echo w))) := by
  intro q c ahead v echo
  refine ⟨takeControl p b s, takeControl_heard s p b, ?_⟩
  obtain ⟨pending, cyc, sent, his⟩ := plainBlock_is s p b
  have hplain := plainBlock_eq s p b
  have hkept : ((plainBlock p b s).port p).seam.state = 5 := by rw [his.port]; exact hstate
  have hlast : ∀ v, ((plainBlock p b s).port p).seam.tells v = q.tells v := fun v => by
    rw [his.port]
    rfl
  have hcal : (plainBlock p b s).par (portP p 0x45) = s.par (portP p 0x45) := his.params _ (by
    simp only [List.mem_cons, List.not_mem_nil, or_false, portP]
    omega)
  rw [exec_seamTimeRx_up h t4 hstate hkept, timeBlock_eq]
  dsimp only at hplain ⊢
  rw [← hplain]
  generalize plainBlock p b s = u at hkept hlast hcal
  refine ⟨fun hfirst => congrArg _ (by rw [if_pos hfirst]), fun hecho => ?_⟩
  classical
  have htold : u.tickNoted p b t4 = (u.putPar (portP p 0x44) (wd (roundTrip b t4 % 2 ^ 24).toNat)).putPair (portP p 0x42) v := by
    rw [State.tickNoted, hcal]
  have hport : ((u.tickNoted p b t4).port p).seam.state = 5 := by
    rw [State.tickNoted, State.port_putPair, State.port_putPar, hkept]
  have hnoted := noteDiff_up b t4 hkept
  simp only [hlast, hcal] at hnoted
  have hup : ¬ (((noteDiff p (halfAway (tickSum b t4 (s.par (portP p 0x45))))
      (u.putPar (portP p 0x44) (wd (roundTrip b t4 % 2 ^ 24).toNat))).port p).seam.state = 4) := by
    rw [hnoted]
    split
    · rw [State.port_raiseLink, port_modSeam, hport]
      decide
    · rw [port_modSeam, hport]
      decide
  rw [if_neg hecho, hcal, if_neg hup, hnoted, htold]
  exact ⟨fun htells => congrArg _ (congrArg (State.modSeam · p _) (if_pos htells)),
    fun hquiet => congrArg _ (congrArg (State.modSeam · p _) (if_neg hquiet))⟩

end

/-- Settles O30: what each block that arrives does to the record of its port, state by state. -/
theorem seamBlocksAndTraining : Obligations.SeamBlocksAndTraining := by
  unfold Obligations.SeamBlocksAndTraining
  refine ⟨⟨fun q kind seq vc head pay hkind hpay => ?blocks, headerPacket_headerNat⟩, ?training⟩
  case blocks =>
    exact ⟨blockOk_makeBlock q kind seq vc head pay hkind hpay, blockKind_makeBlock q kind seq vc head pay hkind hpay,
      drop_makeBlock q kind seq vc head pay hpay, makeBlock_fields q kind seq vc head pay hkind hpay⟩
  case training =>
    intro s p b x q on body
    refine ⟨?lock, ?inverted, ?bad, ?train, ?compare, ?measure, ?send, ?lost, ?retrain⟩
    case lock => exact fun hon hstate hpair => blockLock_starts hon.1 hon.2.1 hon.2.2 hstate hpair
    case inverted =>
      intro hon hstate
      have hgate : (true && decide (p < 16) && s.clocked && decide (s.protocol p = 2 ∧ (s.port p).seam.state = 3)) = true := by
        rw [hon.1, decide_eq_true hon.2.1, decide_eq_true ⟨hon.2.2, hstate⟩]
        rfl
      show execSeamTrainRx p b true s = _
      rw [execSeamTrainRx, if_pos hgate]
      exact congrArg _ (invertLane_eq p s)
    case bad =>
      intro hon hstate hbad c hc
      rw [exec_badBlock hon.1 hon.2.1 hon.2.2 hstate hbad hc]
      exact ⟨fun h => congrArg _ (badBlock_up h), fun h => congrArg _ (badBlock_training h)⟩
    case train => exact trainBlock_taken
    case compare => exact timeBlock_compares
    case measure => exact timeBlock_measures
    case send =>
      intro hon hstate
      have hgate : (s.clocked && decide (p < 16 ∧ s.protocol p = 2 ∧ 4 ≤ (s.port p).seam.state)) = true := by
        rw [hon.1, decide_eq_true ⟨hon.2.1, hon.2.2, hstate⟩]
        rfl
      show execSeamTimeSend p s = _
      rw [execSeamTimeSend, if_pos hgate]
      exact congrArg _ (modSeam_congr rfl)
    case lost =>
      intro hon
      have hgate : (s.clocked && decide (p < 16 ∧ s.protocol p = 2)) = true := by
        rw [hon.1, decide_eq_true hon.2]
        rfl
      show execSeamSignalLost p s = _
      rw [execSeamSignalLost, if_pos hgate]
    case retrain =>
      intro v hp hseam hw
      show execSeamRetrain p v s = _
      rw [execSeamRetrain, if_pos hp, hostEntry_eq hw, writeSeamCtrl, hseam, decide_eq_true rfl, Bool.and_true]
      rfl

end Sys2Proof.Machine
end

section
/-!
PROOF of O31 (chapter 15): seam links carry units in sequence and replay.
-/

namespace Sys2Proof.Machine

section
variable {s t : State} {p c : Nat} {q : Seam} {ps qs : List Nat}

theorem State.Heard.mono (h : s.Heard t p c q ps) (hsub : ps ⊆ qs) : s.Heard t p c q qs where
  is := h.is.mono (List.cons_subset_cons _ hsub)
  longest := h.longest
  same := h.same

theorem State.Heard.modSeam (h : s.Heard t p c q ps) (f : Seam → Seam) : s.Heard (t.modSeam p f) p c (f q) ps where
  is := h.is.modSeam f
  longest k start last he := (State.par_modSeam ..).trans (h.longest k start last he)
  same he := (State.par_modSeam ..).trans (h.same he)

theorem State.Heard.putPar (h : s.Heard t p c q ps) {n : Nat} (hn : n ∈ ps) (hne : n ≠ portP p 0x4E) (v : Word) :
    s.Heard (t.putPar n v) p c q ps where
  is := h.is.putPar (List.mem_cons_of_mem _ hn) v
  longest k start last he := (State.par_putPar_ne _ _ _ _ hne.symm).trans (h.longest k start last he)
  same he := (State.par_putPar_ne _ _ _ _ hne.symm).trans (h.same he)

end

/-! ### UNIT blocks in sequence (R268, R269, R272) -/

/-- The packet that a unit in sequence continues or begins. -/
def Seam.whole (q : Seam) (b : List Byte) : Option Packet :=
  if blockCtl b / 2 ^ 29 % 2 = 1 then some (headerPacket (leNat (b.drop 8)))
  else q.rxHead.map (fun k => { k with data := k.data ++ b.drop 8 })

/-- The record of the link after unit `e` in sequence, of this virtual channel, is passed on. -/
def Seam.passes (q : Seam) (e rsp : Nat) : Seam :=
  { q with
    expected := (e + 1) % 4096, nakPending := false, reqFreed := if rsp = 1 then q.reqFreed else (q.reqFreed + 1) % 256
    rspFreed := if rsp = 1 then (q.rspFreed + 1) % 256 else q.rspFreed }

/-- The record of the link after a unit in sequence. -/
def Seam.takes (q : Seam) (b : List Byte) : Seam := (q.heard (blockCtl b)).passes q.expected (blockCtl b / 2 ^ 28 % 2)

section
variable {s : State} {p : Nat} {b : List Byte}

/-- A unit in sequence is taken and counted. -/
def State.unitTaken (s : State) (p : Nat) (b : List Byte) : State :=
  ((takeControl p b s).modSeam p (Seam.passes · (s.port p).seam.expected (blockCtl b / 2 ^ 28 % 2))).count (portP p 0x4D) 1

theorem unitTaken_heard : s.Heard (s.unitTaken p b) p (blockCtl b) ((s.port p).seam.takes b) [portP p 0x4D] :=
  (((takeControl_heard s p b).mono (qs := [portP p 0x4D]) (by simp)).modSeam
    (Seam.passes · (s.port p).seam.expected (blockCtl b / 2 ^ 28 % 2))).putPar List.mem_cons_self
      (portP_ne (by omega) (by omega) (by omega)) _

theorem unitTaken_eq : s.unitTaken p b = ((takeControl p b s).modSeam p (fun q => { q with
    expected := ((s.port p).seam.expected + 1) % 4096, nakPending := false
    reqFreed := if bitOf (blockCtl b) 28 then q.reqFreed else (q.reqFreed + 1) % 256
    rspFreed := if bitOf (blockCtl b) 28 then (q.rspFreed + 1) % 256 else q.rspFreed })).count (portP p 0x4D) 1 := by
  simp only [State.unitTaken, Seam.passes, bitOf, decide_eq_true_eq]

theorem par_unitTaken : (s.unitTaken p b).par (portP p 0x4D) =
    wd (Min.min 0xFFFFFFFF ((s.par (portP p 0x4D)).toNat + 1)) := by
  have hsame : (takeControl p b s).par (portP p 0x4D) = s.par (portP p 0x4D) :=
    (takeControl_heard s p b).is.params _ (by simp [portP])
  rw [State.unitTaken, State.par_count_same, State.par_modSeam, hsame]

theorem exec_seamUnitRx (h : s.Receives p 1 b) (hup : (s.port p).seam.state = 5) : exec (.seamUnitRx p b) s = .next
    (let seq := blockCtl b / 16 % 4096
     let e := (s.port p).seam.expected
     if seq = e then
       match (s.port p).seam.whole b with
       | none => s.unitTaken p b
       | some k =>
         if unitsOf k ≤ 1 + k.data.length / 32 then seamPacket p k ((s.unitTaken p b).modSeam p (fun q => { q with rxHead := none }))
         else (s.unitTaken p b).modSeam p (fun q => { q with rxHead := some k })
     else if 1 ≤ (seq + 4096 - e) % 4096 ∧ (seq + 4096 - e) % 4096 ≤ 2047 then sendNak p (takeControl p b s)
     else takeControl p b s) := by
  have hunit : seamUnit p (bitOf (blockCtl b) 29) (b.drop 8) (s.unitTaken p b) =
      match (s.port p).seam.whole b with
      | none => s.unitTaken p b
      | some k =>
        if unitsOf k ≤ 1 + k.data.length / 32 then seamPacket p k ((s.unitTaken p b).modSeam p (fun q => { q with rxHead := none }))
        else (s.unitTaken p b).modSeam p (fun q => { q with rxHead := some k }) := by
    have hhead : ((s.unitTaken p b).port p).seam.rxHead = (s.port p).seam.rxHead := by
      rw [unitTaken_heard.is.port]
      rfl
    have hwhole : (if bitOf (blockCtl b) 29 = true then some (headerPacket (leNat (b.drop 8))) else
        ((s.unitTaken p b).port p).seam.rxHead.map (fun k => { k with data := k.data ++ b.drop 8 })) = (s.port p).seam.whole b := by
      rw [hhead]
      exact if_congr decide_eq_true_iff rfl rfl
    unfold seamUnit
    rw [hwhole] <;> (cases (s.port p).seam.whole b <;> rfl)
  show execSeamUnitRx p b s = _
  rw [unitTaken_eq] at hunit
  rw [execSeamUnitRx, receiveBlock_good h, if_pos (seamUp_iff.2 hup), unitTaken_eq]
  exact congrArg _ (if_congr Iff.rfl hunit (if_congr decide_eq_true_iff rfl rfl))

end

theorem seamPacket_own {s : State} {p : Nat} {k : Packet} (h : k.dcard = s.card) : seamPacket p k s = present k s := if_pos h

theorem seamPacket_other {s : State} {p : Nat} {k : Packet} (h : k.dcard ≠ s.card) : seamPacket p k s =
    if k.cmd = 1 ∨ k.cmd = 3 ∨ k.cmd = 5 then replyError k 0x24 (s.count (portP p 0x4B) 1) else s.count (portP p 0x4B) 1 :=
  (if_neg h).trans (if_congr decide_eq_true_iff rfl rfl)

/-! ### Passes (R273, R274) -/

/-- The record of a pass that resends the replay buffer in episode `e`. -/
def Seam.passing (q : Seam) (e : Nat × Nat × Nat) (cyc : Nat) : Seam :=
  { q with episode := some e, passCyc := cyc, passFrom := some ((q.acked + 1) % 4096) }

/-- The blocks of the replay buffer as this record sends them again. -/
def Seam.resent (r : Seam) (bs : List (List Byte)) : List (List Byte) :=
  bs.map (fun b => makeBlock r 1 (blockCtl b / 16 % 4096) (decide (blockCtl b / 2 ^ 28 % 2 = 1))
    (decide (blockCtl b / 2 ^ 29 % 2 = 1)) (b.drop 8))

theorem foldl_refresh (bs : List (List Byte)) : ∀ q : Seam, bs.foldl (fun q b => q.put (refreshBlock q b)) q =
    { q with sent := (q.resent bs).reverse ++ q.sent } := by
  induction bs with
  | nil => exact fun _ => rfl
  | cons b bs ih =>
    intro q
    have hrest : ∀ l, Seam.resent (q.put l) bs = q.resent bs := fun _ => rfl
    have hcons : (q.resent (b :: bs)).reverse = (q.resent bs).reverse ++ [refreshBlock q b] := List.reverse_cons
    rw [List.foldl_cons, ih, hrest, hcons, List.append_assoc]
    rfl

/-- A pass that begins or goes on with episode `e` (R273). -/
def Seam.replays (q : Seam) (e : Nat × Nat × Nat) (cyc : Nat) : Seam :=
  { q.passing e cyc with sent := ((q.passing e cyc).resent q.replay).reverse ++ q.sent }

section
variable {s : State} {p : Nat}

theorem startPass_first (h : (s.port p).seam.episode = none) : startPass p s =
    (s.modSeam p (fun q => q.replays (1, s.clk.cyc, (q.nextSeq + 4095) % 4096) s.clk.cyc)).count (portP p 0x46) 1 := by
  have hfold : (fun q : Seam => q.replays (1, s.clk.cyc, (q.nextSeq + 4095) % 4096) s.clk.cyc) = fun q : Seam =>
      q.replay.foldl (fun q b => q.put (refreshBlock q b)) (q.passing (1, s.clk.cyc, (q.nextSeq + 4095) % 4096) s.clk.cyc) :=
    funext fun q => (foldl_refresh _ _).symm
  unfold startPass
  dsimp only
  rw [h, hfold]
  rfl

theorem startPass_next {k start last : Nat} (h : (s.port p).seam.episode = some (k, start, last)) (hk : k < 8) : startPass p s =
    (s.modSeam p (fun q => q.replays (k + 1, start, last) s.clk.cyc)).count (portP p 0x46) 1 := by
  have hfold : (fun q : Seam => q.replays (k + 1, start, last) s.clk.cyc) = fun q : Seam =>
      q.replay.foldl (fun q b => q.put (refreshBlock q b)) (q.passing (k + 1, start, last) s.clk.cyc) :=
    funext fun q => (foldl_refresh _ _).symm
  unfold startPass
  dsimp only
  rw [h, hfold]
  exact if_neg (by omega)

theorem startPass_last {k start last : Nat} (h : (s.port p).seam.episode = some (k, start, last)) (hk : 8 ≤ k) :
    startPass p s = seamDown p 1 (s.longest p k start) := by
  unfold startPass
  dsimp only
  rw [h, ← noteEpisode_eq]
  exact if_pos hk

theorem replays_is (e : Seam → Nat × Nat × Nat) : s.PortIs (s.modSeam p (fun q => q.replays (e q) s.clk.cyc)) p
    { s.port p with seam := (s.port p).seam.replays (e (s.port p).seam) s.clk.cyc } [] :=
  (State.PortIs.refl s p []).modSeam _

/-- A NAK starts a pass unless one from the same number is recent (R273). -/
theorem exec_seamNakRx {b : List Byte} (h : s.Receives p 2 b) (hup : (s.port p).seam.state = 5) : exec (.seamNakRx p b) s = .next
    (let q := (s.port p).seam
     if (q.heard (blockCtl b)).replay = [] ∨
         (q.passFrom = some (((q.heard (blockCtl b)).acked + 1) % 4096) ∧ s.withinTwo p q.passCyc = true) then plainBlock p b s
     else startPass p (plainBlock p b s)) := by
  obtain ⟨pending, cyc, sent, his⟩ := plainBlock_is s p b
  have hport := his.port
  have hclk := his.clk
  have hrtt : (plainBlock p b s).par (portP p 0x44) = s.par (portP p 0x44) := his.params _ (by
    simp only [List.mem_cons, List.not_mem_nil, or_false, portP]
    omega)
  have hdown : ¬ (!s.seamUp p) = true := by rw [seamUp_iff.2 hup]; decide
  show execSeamNakRx p b s = _
  rw [execSeamNakRx, receiveBlock_good h, if_neg hdown]
  generalize plainBlock p b s = u at hport hclk hrtt
  have hwithin : ∀ c, u.withinTwo p c = s.withinTwo p c := fun c => by
    rw [State.withinTwo, State.withinTwo, hport, hclk, State.parN, State.parN, hrtt]
  refine congrArg _ (if_congr ?_ rfl rfl)
  rw [hwithin, hport]
  simp only [Bool.or_eq_true, List.isEmpty_iff, Bool.and_eq_true, decide_eq_true_eq]
  rfl

end

/-- Settles O31: a unit is taken, acknowledged only or asked for again, and a pass resends what is unacknowledged. -/
theorem seamLinksCarryAndReplay : Obligations.SeamLinksCarryAndReplay := by
  unfold Obligations.SeamLinksCarryAndReplay
  intro s p b q c seq recent
  have hrecent : ∀ cyc, s.withinTwo p cyc = true ↔ recent cyc := fun cyc => decide_eq_true_iff
  refine ⟨fun hpending hcyc => sendNak_silent s p hpending ((hrecent _).2 hcyc), fun hsends => ?nak, ?unit, ?idle, ?again,
    fun hclocked hp hup hwaits => ?timer, ?pass⟩
  case nak =>
    refine ⟨_, sendNak_sends s p ?_, (State.PortIs.refl s p []).modSeam (Seam.naks · s.clk.cyc)⟩
    rwa [hrecent]
  case unit =>
    intro hreceives hup whole rsp heard taken
    rw [exec_seamUnitRx hreceives hup]
    refine ⟨fun hbehind => ⟨takeControl p b s, takeControl_heard s p b, congrArg _ (if_neg hbehind)⟩, fun hnext => ?_⟩
    dsimp only
    rw [if_pos hnext]
    have hheard : s.Heard (s.unitTaken p b) p c taken [portP p 0x4D] := unitTaken_heard
    have hcard : ∀ f, ((s.unitTaken p b).modSeam p f).card = s.card := fun f => (hheard.modSeam f).is.card
    have hwhole : (s.port p).seam.whole b = whole := rfl
    rw [hwhole]
    cases whole with
    | none => exact ⟨s.unitTaken p b, par_unitTaken, fun _ => ⟨rfl, hheard⟩, fun k hk => by cases hk⟩
    | some k =>
      by_cases hlast : unitsOf k ≤ 1 + k.data.length / 32
      · refine ⟨(s.unitTaken p b).modSeam p (fun q => { q with rxHead := none }), by rw [State.par_modSeam, par_unitTaken],
          fun hnone => (by cases hnone), fun j hj => ?_⟩
        cases hj
        refine ⟨fun hmore => absurd hlast (by omega), fun _ => ⟨hheard.modSeam (fun q => { q with rxHead := none }),
          fun hown => ?_, fun hother => ?_⟩⟩
        · dsimp only
          rw [if_pos hlast, seamPacket_own (by rw [hcard, hown])]
        · dsimp only
          rw [if_pos hlast, seamPacket_other (by rwa [hcard])]
      · refine ⟨(s.unitTaken p b).modSeam p (fun q => { q with rxHead := some k }), by rw [State.par_modSeam, par_unitTaken],
          fun hnone => (by cases hnone), fun j hj => ?_⟩
        cases hj
        exact ⟨fun _ => ⟨congrArg _ (if_neg hlast), hheard.modSeam (fun q => { q with rxHead := some k })⟩,
          fun hdone => absurd hdone hlast⟩
  case idle =>
    intro hreceives hup
    refine ⟨_, takeControl_heard s p b, ?_⟩
    show execSeamIdleRx p b s = _
    rw [execSeamIdleRx, receiveBlock_good hreceives, if_pos (seamUp_iff.2 hup), plainBlock_eq]
  case again =>
    intro hreceives hup
    refine ⟨takeControl p b s, takeControl_heard s p b, ?_⟩
    intro u from'
    have hplain : plainBlock p b s = u := plainBlock_eq s p b
    rw [exec_seamNakRx hreceives hup, hplain]
    dsimp only
    simp only [hrecent]
    refine ⟨fun hquiet => congrArg _ (if_pos hquiet), fun hwaits hnew => congrArg _ (if_neg ?_)⟩
    rw [not_or]
    exact ⟨hwaits, hnew⟩
  case timer =>
    have hgate : (s.clocked && decide (p < 16) && s.seamUp p && !(s.port p).seam.replay.isEmpty) = true := by
      rw [hclocked, decide_eq_true hp, seamUp_iff.2 hup, List.isEmpty_eq_false_iff.2 hwaits]
      rfl
    show execSeamReplayTimeout p s = _
    rw [execSeamReplayTimeout, if_pos hgate]
  case pass =>
    intro pass longest
    refine ⟨fun hfirst => ⟨_, startPass_first hfirst, replays_is _⟩, fun k start last hepisode =>
      ⟨fun hk => ⟨_, startPass_next hepisode hk, replays_is fun _ => (k + 1, start, last)⟩, fun hk => startPass_last hepisode hk,
        fun hclocked hp hup hlong => ?_⟩⟩
    have hgate : (s.clocked && decide (p < 16) && s.seamUp p && decide (start + 4000 ≤ s.clk.cyc)) = true := by
      rw [hclocked, decide_eq_true hp, seamUp_iff.2 hup, decide_eq_true hlong]
      rfl
    show execSeamBudgetExhausted p s = _
    unfold execSeamBudgetExhausted
    rw [show (s.port p).seam.episode = some (k, start, last) from hepisode]
    dsimp only
    rw [if_pos hgate, noteEpisode_eq]
    rfl

end Sys2Proof.Machine
end

section
/-!
PROOF of O32 (chapter 15): seam links send whole packets and fall.
-/

namespace Sys2Proof.Machine

/-! ### The units of a packet leave (R268) -/

theorem makeBlock_mod (q : Seam) (kind m : Nat) (vc head : Bool) (pay : List Byte) :
    makeBlock q kind (m % 4096) vc head pay = makeBlock q kind m vc head pay := by
  rw [makeBlock, makeBlock, Nat.mod_mod]

/-- The blocks that carry the units `us` from place `i` of a packet and number `m` on. -/
def Seam.blocks (q : Seam) (rsp : Bool) : List (List Byte) → Nat → Nat → List (List Byte)
  | [], _, _ => []
  | u :: us, i, m => makeBlock q 1 m rsp (decide (i = 0)) u :: q.blocks rsp us (i + 1) (m + 1)

theorem length_blocks (q : Seam) (rsp : Bool) (us : List (List Byte)) : ∀ i m, (q.blocks rsp us i m).length = us.length := by
  induction us with
  | nil => exact fun _ _ => rfl
  | cons u us ih => exact fun i m => congrArg (· + 1) (ih (i + 1) (m + 1))

theorem blocks_mod (q : Seam) (rsp : Bool) (us : List (List Byte)) : ∀ i m, q.blocks rsp us i (m % 4096) = q.blocks rsp us i m := by
  induction us with
  | nil => exact fun _ _ => rfl
  | cons u us ih =>
    intro i m
    have hnext : q.blocks rsp us (i + 1) (m % 4096 + 1) = q.blocks rsp us (i + 1) (m + 1) := by
      rw [← ih (i + 1) (m % 4096 + 1), ← ih (i + 1) (m + 1), Nat.mod_add_mod]
    rw [Seam.blocks, Seam.blocks, makeBlock_mod, hnext]

theorem getElem?_blocks (q : Seam) (rsp : Bool) (us : List (List Byte)) : ∀ i m j,
    (q.blocks rsp us i m)[j]? = us[j]?.map (fun u => makeBlock q 1 (m + j) rsp (decide (i + j = 0)) u) := by
  induction us with
  | nil => exact fun _ _ _ => rfl
  | cons u us ih =>
    intro i m j
    cases j with
    | zero => rfl
    | succ j =>
      rw [Seam.blocks, List.getElem?_cons_succ, List.getElem?_cons_succ, ih]
      simp only [Nat.add_assoc, Nat.add_comm 1 j]

/-- A running number of the link after `n` more units. -/
def advanced (modulus m n : Nat) : Nat := if n = 0 then m else (m + n) % modulus

theorem advanced_succ (modulus m n : Nat) : advanced modulus ((m + 1) % modulus) n = advanced modulus m (n + 1) := by
  unfold advanced
  rw [if_neg n.succ_ne_zero]
  split
  · next h => rw [h]
  · rw [Nat.mod_add_mod, Nat.add_assoc, Nat.add_comm 1 n]

/-- The record of the link after `n` units have left in the blocks `bs`. -/
def Seam.sends (q : Seam) (rsp : Bool) (bs : List (List Byte)) (n : Nat) : Seam :=
  { q with
    sent := bs.reverse ++ q.sent, replay := q.replay ++ bs, nextSeq := advanced 4096 q.nextSeq n
    reqUsed := if rsp = true then q.reqUsed else advanced 256 q.reqUsed n
    rspUsed := if rsp = true then advanced 256 q.rspUsed n else q.rspUsed }

theorem foldl_sendUnit (rsp : Bool) (us : List (List Byte)) : ∀ (q : Seam) (i : Nat),
    (us.zipIdx i).foldl (Seam.sendUnit rsp) q = q.sends rsp (q.blocks rsp us i q.nextSeq) us.length := by
  induction us with
  | nil => intro q i; cases rsp <;> simp [Seam.sends, Seam.blocks, advanced]
  | cons u us ih =>
    intro q i
    have hblocks : ∀ (r : Seam) (j m : Nat), r.expected = q.expected → r.episode = q.episode → r.reqFreed = q.reqFreed →
        r.rspFreed = q.rspFreed → r.blocks rsp us j m = q.blocks rsp us j m := by
      intro r j m hexpected hepisode hreq hrsp
      clear ih
      induction us generalizing j m with
      | nil => rfl
      | cons v us ih => rw [Seam.blocks, Seam.blocks, ih, makeBlock, makeBlock, hexpected, hepisode, hreq, hrsp]
    rw [List.zipIdx_cons, List.foldl_cons, ih, hblocks (Seam.sendUnit rsp q (u, i)) _ _ rfl rfl rfl rfl]
    have hnext : (Seam.sendUnit rsp q (u, i)).nextSeq = (q.nextSeq + 1) % 4096 := rfl
    rw [hnext, blocks_mod, List.length_cons, Seam.blocks]
    cases rsp <;>
      simp only [Seam.sends, Seam.sendUnit, Seam.put, advanced_succ, List.reverse_cons, List.append_assoc, List.cons_append,
        List.nil_append, if_true, if_false, Bool.false_eq_true]

theorem unitsOf_pos (k : Packet) : 0 < unitsOf k := by
  unfold unitsOf
  omega

theorem length_packetUnits (k : Packet) : (packetUnits k).length = unitsOf k := by
  have hpos := unitsOf_pos k
  rw [packetUnits, List.length_cons, List.length_map, List.length_range]
  omega

/-- The units of a packet: its header, then its data in pieces of 32 bytes. -/
theorem packetUnits_getElem? (k : Packet) {j : Nat} (hj : j < unitsOf k) : ∃ u, (packetUnits k)[j]? = some u ∧ u.length = 32 ∧
    (j = 0 → u = leBytes 32 (headerNat k)) ∧ ∀ m < 32, 0 < j → byteAt u m = byteAt k.data (32 * (j - 1) + m) := by
  cases j with
  | zero => exact ⟨_, rfl, length_leBytes 32 _, fun _ => rfl, fun _ _ h => absurd h (Nat.lt_irrefl 0)⟩
  | succ j =>
    refine ⟨(slice k.data (32 * j) 32 ++ List.replicate 32 0).take 32, ?_, length_padded _ 32, fun h => absurd h (by omega),
      fun m hm _ => ?_⟩
    · rw [packetUnits, List.getElem?_cons_succ, List.getElem?_map, List.getElem?_range (by omega)]
      rfl
    · rw [byteAt_padded hm, Nat.add_sub_cancel, ← byteAt_drop]
      simp [byteAt, slice, List.getD_eq_getElem?_getD, List.getElem?_take_of_lt hm]

section
variable {s : State} {i : Nat} {f : Flying} (hclocked : s.clocked = true) (hhere : s.mesh.flight[i]? = some f)
  (hcard : f.pkt.dcard ≠ s.card) (hfirst : ∀ e ∈ s.mesh.flight.take i, sameStream f.pkt e.pkt = false)
include hclocked hhere hcard hfirst

theorem exec_seamPacketSend : exec (.seamPacketSend i) s = .next (match s.seamTo f.pkt.dcard with
    | some k => seamSend k i f.pkt s
    | none => bounce 0x3025 stNoTarget f.pkt { s with mesh := { s.mesh with flight := s.mesh.flight.eraseIdx i } }) := by
  have hstream : firstInStream (s.mesh.flight.map (·.pkt)) i = true := by
    refine firstInStream_of_first (p := f.pkt) (by rw [List.getElem?_map, hhere]; rfl) fun q hq => ?_
    rw [← List.map_take] at hq
    obtain ⟨e, he, rfl⟩ := List.mem_map.1 hq
    exact hfirst e he
  have hgate : ¬ (!s.clocked || decide (f.pkt.dcard = s.card) || !firstInStream (s.mesh.flight.map (·.pkt)) i) = true := by
    simp [hclocked, hcard, hstream]
  show execSeamPacketSend i s = _
  unfold execSeamPacketSend
  rw [hhere]
  dsimp only
  rw [if_neg hgate] <;> (cases s.seamTo f.pkt.dcard <;> rfl)

end

/-! ### A link falls (R275, R277) -/

theorem ports_icpOutcome (g seq cfa : Nat) (ask : Option Packet) (status : Nat) (s : State) :
    (icpOutcome g seq cfa ask status s).ports = s.ports := by
  have hanswer : ∀ (p : Packet) (u : State), (if status = 0 then replyData p 0 [] u else replyError p status u).ports = u.ports :=
    fun p u => by split <;> rfl
  have hnoted : ∀ u : State, (if status = 0 then u.count (galP g 0x51) 1
      else (u.count (galP g 0x52) 1).raise 0xD8 ([BitVec.ofNat 8 g, BitVec.ofNat 8 status, 0, 0] ++ leBytes 4 cfa)).ports =
        u.ports := fun u => by split <;> simp
  have hgone : ∀ (u : State) (f : Gallery → Gallery),
      (if selfTargeted g cfa && decide (status ≠ 0) then u.modGal g f else u).ports = u.ports := fun u f => by split <;> simp
  unfold icpOutcome
  dsimp only
  cases ask with
  | none => rw [hnoted, hgone]; rfl
  | some p => rw [hanswer, hnoted, hgone]; rfl

theorem ports_endTrans (t : Trans) (status : Nat) (data : List Byte) (s : State) :
    (endTrans t status data s).ports = s.ports := by
  have hclose : ∀ (q : Purpose) (u : State), (q.close status data u).ports = u.ports := fun q u => by
    cases q with
    | dma g id a n => rfl
    | bulk tag part => rfl
    | lampRead c part => exact (congrArg (·.ports) (endMemRead_rest c part status data u)).trans rfl
    | icp g seq cfa ask => exact ports_icpOutcome ..
    | message => rfl
  unfold endTrans
  split
  · exact hclose _ _
  · rfl

theorem ports_endTransAll (l : List Trans) : ∀ s : State, (l.foldl (fun r x => endTrans x 0x23 [] r) s).ports = s.ports := by
  induction l with
  | nil => exact fun _ => rfl
  | cons x l ih => exact fun s => (ih _).trans (ports_endTrans x 0x23 [] s)

theorem port_congr {s t : State} (h : t.ports = s.ports) (p : Nat) : t.port p = s.port p := by
  rw [State.port, State.port, h]

/-- The packets whose units a falling link discards. -/
theorem bufferedPackets_eq (l : List (List Byte)) : bufferedPackets l =
    (l.filter (fun b => decide (leAt b 0 8 / 2 ^ 29 % 2 = 1))).length +
      (match l with | b :: _ => if leAt b 0 8 / 2 ^ 29 % 2 = 1 then 0 else 1 | [] => 0) := by
  cases l with
  | nil => rfl
  | cons b l =>
    unfold bufferedPackets
    dsimp only
    refine congrArg₂ (· + ·) rfl ?_
    exact if_congr decide_eq_true_iff rfl rfl

section
variable {s : State} {p reason : Nat}

/-- The counts of a falling link. -/
def State.fallCounted (s : State) (p lost : Nat) : State :=
  let ended := (s.mesh.trans.filter (fun x => decide (x.dcard ≠ s.card ∧ s.seamTo x.dcard = some p))).foldl
    (fun r x => endTrans x 0x23 [] r) s
  (ended.count (portP p 0x49) 1).count (portP p 0x4A) lost

theorem port_fallCounted (lost j : Nat) : (s.fallCounted p lost).port j = s.port j := by
  rw [State.fallCounted, State.port_count, State.port_count]
  exact port_congr (ports_endTransAll _ s) j

theorem seamDown_up (h : (s.port p).seam.state = 5) : seamDown p reason s =
    ((s.fallCounted p (bufferedPackets (s.port p).seam.replay + (if (s.port p).seam.rxHead.isSome then 1 else 0))).modSeam p
      (fun q => q.retrain reason)).raiseLink p 0x11 [BitVec.ofNat 8 reason] := if_pos h

theorem seamDown_training (h : (s.port p).seam.state ≠ 5) (h' : (s.port p).seam.state ≠ 0) : seamDown p reason s =
    s.modSeam p (fun q => { q.retrain q.reason with reason := q.reason }) := (if_neg h).trans (if_neg h')

end

/-- Settles O32: a packet leaves whole as blocks of its units, or waits, or meets a link that is down; a link that falls
ends what depends on it. -/
theorem seamLinksSendAndFall : Obligations.SeamLinksSendAndFall := by
  unfold Obligations.SeamLinksSendAndFall
  intro s p i f reason q k n rsp gone held
  refine ⟨fun hclocked hhere hcard hfirst => ?send, fun hup => ?fall, fun hdown hidle => ?restart⟩
  case send =>
    rw [exec_seamPacketSend hclocked hhere hcard hfirst]
    refine ⟨fun hnone => ?_, fun hroute => ?_⟩
    · rw [show s.seamTo f.pkt.dcard = none from hnone]
      rfl
    have hsend : (match s.seamTo f.pkt.dcard with
        | some k => seamSend k i f.pkt s
        | none => bounce 0x3025 stNoTarget f.pkt { s with mesh := { s.mesh with flight := s.mesh.flight.eraseIdx i } }) =
        seamSend p i k s := by
      rw [show s.seamTo f.pkt.dcard = some p from hroute]
    have hcredits : q.credits (isAnswer k) = held := if_congr Iff.rfl rfl rfl
    rw [hsend]
    refine ⟨fun hdown => ?_, fun hup hwaits => ?_, fun hup hheld hroom => ?_⟩
    · have hnot : (!s.seamUp p) = true := by rw [Bool.not_eq_true', Bool.eq_false_iff]; exact mt seamUp_iff.1 hdown
      exact congrArg _ (if_pos hnot)
    · have hnot : ¬ (!s.seamUp p) = true := by rw [seamUp_iff.2 hup]; decide
      exact congrArg _ ((if_neg hnot).trans (if_pos (hcredits ▸ hwaits)))
    · have hnot : ¬ (!s.seamUp p) = true := by rw [seamUp_iff.2 hup]; decide
      have hgo : ¬ (q.credits (isAnswer k) < n ∨ 64 < q.replay.length + n) := by rw [hcredits]; omega
      have hn : n ≠ 0 := (unitsOf_pos k).ne'
      have hfold : (packetUnits k).zipIdx.foldl (Seam.sendUnit (isAnswer k)) q = { q with
          sent := (q.blocks rsp (packetUnits k) 0 q.nextSeq).reverse ++ q.sent
          replay := q.replay ++ q.blocks rsp (packetUnits k) 0 q.nextSeq
          nextSeq := (q.nextSeq + n) % 4096
          reqUsed := if rsp = true then q.reqUsed else (q.reqUsed + n) % 256
          rspUsed := if rsp = true then (q.rspUsed + n) % 256 else q.rspUsed } := by
        rw [foldl_sendUnit, length_packetUnits]
        simp only [Seam.sends, advanced, show unitsOf k ≠ 0 from hn, if_false]
        rfl
      have his := (State.PortIs.refl gone p [portP p 0x4C]).modSeam (fun q => (packetUnits k).zipIdx.foldl (Seam.sendUnit (isAnswer k)) q)
      rw [show (gone.port p).seam = q from rfl, hfold] at his
      refine ⟨_, q.blocks rsp (packetUnits k) 0 q.nextSeq, (length_blocks ..).trans (length_packetUnits k), fun j hj => ?_,
        his.putPar List.mem_cons_self _, State.par_count_same .., ?_⟩
      · obtain ⟨u, hu, hlength, hheader, hdata⟩ := packetUnits_getElem? k hj
        refine ⟨u, ?_, hlength, hheader, hdata⟩
        rw [getElem?_blocks, hu, Option.map_some, Nat.zero_add]
        split
        · next h => rw [h, Nat.add_zero]
        · rw [makeBlock_mod]
      · exact congrArg _ ((if_neg hnot).trans (if_neg hgo))
  case fall =>
    refine ⟨_, ?_, fun j hj => ?_, ?_, seamDown_up hup⟩
    · rw [port_modSeam, port_fallCounted]
      rfl
    · rw [State.modSeam, State.port_modPort_ne _ _ _ _ hj, port_fallCounted]
    · have hhead : (if q.rxHead.isSome then 1 else 0) = if q.rxHead = none then 0 else 1 := by
        cases q.rxHead <;> rfl
      show (s.fallCounted p (bufferedPackets q.replay + (if q.rxHead.isSome then 1 else 0))).modSeam p _ = _
      rw [hhead, bufferedPackets_eq]
      rfl
  case restart =>
    rw [seamDown_training hdown hidle]
    exact ⟨_, rfl, rfl, fun j hj => State.port_modPort_ne _ _ _ _ hj, port_modSeam ..⟩

end Sys2Proof.Machine
end

section
/-!
PROOF of O33 (chapters 17 and 18): parameters are checked and written, read and set by command.
-/

namespace Sys2Proof.Machine

/-! ### A host write of a parameter (R318, R322) -/

section
variable {s : State} {n : Nat} {v : Word} {i : ParamInfo}

theorem writeParam_eq (hi : paramInfo n = some i) (hpresent : paramAbsent s.variant n = false) : writeParam n v s =
    match i.access with
    | .ro => (stReadOnly, s)
    | .running => (stReadOnly, s)
    | .counter => if v = 0 then (stSuccess, s.putPar n 0) else (stRange, s)
    | .w0c => if v = 0 then (stSuccess, s.putPar n 0) else (stRange, s)
    | .wo => writeOnly n v s
    | .rw => writeRw i n v s := by
  unfold writeParam
  rw [hi]
  exact if_neg (by simp [hpresent])

theorem exec_paramWrite (hw : s.Writes n) (hcommand : hasCommand n = false) :
    exec (.paramWrite n v) s = .next ((writeParam n v s).2.ended (writeParam n v s).1) := by
  show execParamWrite n v s = _
  rw [execParamWrite, hcommand, if_neg Bool.false_ne_true, hostEntry_eq hw]

theorem rwAction_none (hcommand : hasCommand n = false) : rwAction n = none := by
  simp only [hasCommand, Bool.or_eq_false_iff] at hcommand
  exact Option.not_isSome_iff_eq_none.1 (by simp [hcommand.1.1])

theorem lockedWrite_false (hcommand : hasCommand n = false) : s.lockedWrite n v = false := by
  simp only [hasCommand, Bool.or_eq_false_iff, decide_eq_false_iff_not, not_or] at hcommand
  obtain ⟨⟨haction, hhold, hdrive⟩, hwo⟩ := hcommand
  have halign : n ≠ 0x3D07 := fun h => hwo (by rw [h]; decide)
  simp [State.lockedWrite, hdrive, halign]

/-- A write of a read-write parameter that is no pair and starts no action. -/
theorem writeRw_plain (hlow : i.low = false) (hhigh : i.high = false) (haction : rwAction n = none)
    (hlocked : s.lockedWrite n (v &&& rwMask n) = false) : writeRw i n v s =
    if s.busyWrite n then (stBusy, s)
    else if s.valueOk n (v &&& rwMask n) then (stSuccess, storeParam n (v &&& rwMask n) s) else (stRange, s) := by
  unfold writeRw
  rw [hlow, hhigh, haction]
  dsimp only
  rw [hlocked]
  rfl

theorem writeRw_high (hlow : i.low = false) (hhigh : i.high = true) : writeRw i n v s =
    (let lo := (tabGet none s.staged (n - 1)).getD (s.par (n - 1))
     let unstaged : State := { s with staged := tabSet none s.staged (n - 1) none }
     if s.busyWrite (n - 1) then (stBusy, unstaged)
     else if s.pairOk (n - 1) lo v then (stSuccess, (unstaged.putPar (n - 1) lo).putPar (n - 1 + 1) v) else (stRange, unstaged)) := by
  unfold writeRw
  rw [hlow, hhigh]
  rfl

/-! ### A value comes into force (R260, R330) -/

theorem storeParam_reserved {e : Nat} (hn : n = 0x3B00 + e) (he : e < 256) (hclass : eventClass e = none) :
    storeParam n v s = s := by
  subst hn
  exact if_pos ⟨by omega, by omega, by rwa [Nat.add_sub_cancel_left]⟩

theorem storeParam_port {p o : Nat} (hp : p < 16) (ho : o < 0x80) (hn : n = portP p o) :
    storeParam n v s = applyParam n (s.par n) v (s.putPar n v) := by
  subst hn
  exact if_neg (fun h => by have := h.1; unfold portP at this; omega)

theorem portP_place {p o : Nat} (ho : o < 0x80) : (portP p o - 0x2000) / 0x80 = p ∧ portP p o % 0x80 = o := by
  unfold portP
  omega

theorem applyParam_dfe {p : Nat} (hp : p < 16) (old : Word) : applyParam (portP p 0x0B) old v s =
    s.modPort p (fun q => { q with dfe := if v.getLsbD 31 then q.dfe else q.dfe.map (clampDfe v) }) := by
  obtain ⟨hport, hoff⟩ := portP_place (p := p) (o := 0x0B) (by omega)
  have hin : 0x2000 ≤ portP p 0x0B ∧ portP p 0x0B ≤ 0x27FF := by unfold portP; omega
  unfold applyParam
  rw [if_neg (show portP p 0x0B ≠ 0x3601 by omega), if_pos hin, hport, hoff]
  rfl

theorem applyParam_ctle {p : Nat} (hp : p < 16) (old : Word) : applyParam (portP p 0x09) old v s =
    s.modPort p (fun q => { q with ctle := if v.getLsbD 31 then fld v 19 16 else clampCtle v q.ctle }) := by
  obtain ⟨hport, hoff⟩ := portP_place (p := p) (o := 0x09) (by omega)
  have hin : 0x2000 ≤ portP p 0x09 ∧ portP p 0x09 ≤ 0x27FF := by unfold portP; omega
  unfold applyParam
  rw [if_neg (show portP p 0x09 ≠ 0x3601 by omega), if_pos hin, hport, hoff]
  rfl

theorem storeParam_plain (hdrive : n ≠ 0x3601) (hports : ∀ p < 16, n ≠ portP p 0x09 ∧ n ≠ portP p 0x0B)
    (hevents : ∀ e, n = 0x3B00 + e → e < 256 → eventClass e ≠ none) : storeParam n v s = s.putPar n v := by
  have happly : applyParam n (s.par n) v (s.putPar n v) = s.putPar n v := by
    unfold applyParam
    rw [if_neg hdrive]
    split
    · next hin =>
      have hplace := hports ((n - 0x2000) / 0x80) (by omega)
      unfold portP at hplace
      rw [if_neg (by omega), if_neg (by omega)]
    · rfl
  unfold storeParam
  rw [happly]
  exact if_neg (fun h => hevents (n - 0x3B00) (by omega) (by omega) h.2.2)

end

/-! ### TRIG_DRIVE_EN (R44, R321, R429) -/

/-- The driver of line `n` of TRIG_DRIVE_EN. -/
def driverOf (n : Nat) : Nat := if n = 8 then 9 else n

/-- The driver of line `n` comes back. -/
def restoreDriver (old v : Word) (s : State) (n : Nat) : State :=
  if v.getLsbD n && !old.getLsbD n && hasBit s.pins.tristated (driverOf n) then
    { s with pins := { s.pins with
        tristated := putBit s.pins.tristated (driverOf n) false, kinds := tabSet 0 s.pins.kinds (driverOf n) 0 } }
  else s

/-- `t` is `s` after the drivers `ks` came back. -/
structure State.Restored (s t : State) (ks : Nat → Prop) : Prop where
  rest : t = { s with pins := { s.pins with tristated := t.pins.tristated, kinds := t.pins.kinds } }
  on   : ∀ k, ks k → t.pins.tristated.getLsbD k = false
  kept : ∀ k, ¬ ks k → t.pins.tristated.getLsbD k = s.pins.tristated.getLsbD k
  kind : ∀ k, (ks k ∧ s.pins.tristated.getLsbD k = true → tabGet 0 t.pins.kinds k = 0) ∧
    (¬ (ks k ∧ s.pins.tristated.getLsbD k = true) → tabGet 0 t.pins.kinds k = tabGet 0 s.pins.kinds k)

theorem restoreDriver_restores (old v : Word) (s : State) {n : Nat} (hn : n < 9) :
    s.Restored (restoreDriver old v s n) (fun k => k = driverOf n ∧ v.getLsbD n = true ∧ old.getLsbD n = false) := by
  have hk : driverOf n < 10 := by unfold driverOf; split <;> omega
  unfold restoreDriver
  split
  · next h =>
    simp only [Bool.and_eq_true, Bool.not_eq_true', hasBit] at h
    obtain ⟨⟨hv, hold⟩, hfault⟩ := h
    refine ⟨rfl, fun k hks => ?_, fun k hks => ?_, fun k => ⟨fun hks => ?_, fun hks => ?_⟩⟩
    · rw [hks.1]
      exact (getLsbD_putBit _ _ _ hk).trans (if_pos rfl)
    · exact getLsbD_putBit_ne _ _ fun h => hks ⟨h, hv, hold⟩
    · rw [hks.1.1]
      exact tabGet_tabSet_same ..
    · have hne : k ≠ driverOf n := fun h => hks ⟨⟨h, hv, hold⟩, h ▸ hfault⟩
      exact tabGet_tabSet_other _ _ _ _ _ _ hne
  · next h =>
    simp only [Bool.and_eq_true, Bool.not_eq_true', hasBit, not_and, Bool.not_eq_true] at h
    refine ⟨rfl, fun k hks => ?_, fun _ _ => rfl, fun k => ⟨fun hks => ?_, fun _ => rfl⟩⟩
    · rw [hks.1]
      exact h hks.2
    · exact absurd hks.2 (by rw [hks.1.1, h hks.1.2]; exact Bool.false_ne_true)

theorem State.Restored.trans {s t u : State} {ks ks' : Nat → Prop} (h : s.Restored t ks) (h' : t.Restored u ks') :
    s.Restored u (fun k => ks k ∨ ks' k) := by
  classical
  refine ⟨by rw [h'.rest, h.rest], fun k hks => ?_, fun k hks => ?_, fun k => ⟨fun hks => ?_, fun hks => ?_⟩⟩
  · by_cases hk' : ks' k
    · exact h'.on k hk'
    · rw [h'.kept k hk', h.on k (hks.resolve_right hk')]
  · rw [h'.kept k fun hk => hks (.inr hk), h.kept k fun hk => hks (.inl hk)]
  · by_cases hk : ks k
    · have hoff := h.on k hk
      rw [(h'.kind k).2 fun hk' => Bool.false_ne_true (hoff.symm.trans hk'.2), (h.kind k).1 ⟨hk, hks.2⟩]
    · exact (h'.kind k).1 ⟨hks.1.resolve_left hk, (h.kept k hk).trans hks.2⟩
  · have hfirst : ¬ (ks k ∧ s.pins.tristated.getLsbD k = true) := fun hk => hks ⟨.inl hk.1, hk.2⟩
    have hsecond : ¬ (ks' k ∧ t.pins.tristated.getLsbD k = true) := fun hk => by
      by_cases hk' : ks k
      · exact Bool.false_ne_true ((h.on k hk').symm.trans hk.2)
      · exact hks ⟨.inr hk.1, (h.kept k hk') ▸ hk.2⟩
    rw [(h'.kind k).2 hsecond, (h.kind k).2 hfirst]

theorem State.Restored.congr {s t : State} {ks ks' : Nat → Prop} (h : s.Restored t ks) (heq : ∀ k, ks k ↔ ks' k) :
    s.Restored t ks' := by
  have : ks = ks' := funext fun k => propext (heq k)
  exact this ▸ h

theorem foldl_restoreDriver (old v : Word) (ns : List Nat) (hns : ∀ n ∈ ns, n < 9) : ∀ s : State,
    s.Restored (ns.foldl (restoreDriver old v) s)
      (fun k => ∃ n ∈ ns, k = driverOf n ∧ v.getLsbD n = true ∧ old.getLsbD n = false) := by
  induction ns with
  | nil =>
    intro s
    refine ⟨rfl, fun k h => ?_, fun _ _ => rfl, fun k => ⟨fun h => ?_, fun _ => rfl⟩⟩
    · simp at h
    · simp at h
  | cons n ns ih =>
    intro s
    refine ((restoreDriver_restores old v s (hns n List.mem_cons_self)).trans
      (ih (fun m hm => hns m (List.mem_cons_of_mem _ hm)) _)).congr fun k => ?_
    simp only [List.mem_cons, exists_eq_or_imp]

theorem restoreDrivers_restores (old v : Word) (s : State) : s.Restored (restoreDrivers old v s) (fun k =>
    (k < 8 ∧ v.getLsbD k = true ∧ old.getLsbD k = false) ∨ (k = 9 ∧ v.getLsbD 8 = true ∧ old.getLsbD 8 = false)) := by
  refine (foldl_restoreDriver old v (List.range 9) (fun n hn => List.mem_range.1 hn) s).congr fun k => ?_
  simp only [List.mem_range, driverOf]
  constructor
  · rintro ⟨n, hn, rfl, hv, hold⟩
    by_cases h8 : n = 8
    · rw [if_pos h8]
      exact .inr ⟨rfl, h8 ▸ hv, h8 ▸ hold⟩
    · rw [if_neg h8]
      exact .inl ⟨by omega, hv, hold⟩
  · rintro (⟨hk, hv, hold⟩ | ⟨rfl, hv, hold⟩)
    · exact ⟨k, by omega, (if_neg (by omega)).symm, hv, hold⟩
    · exact ⟨8, by omega, rfl, hv, hold⟩

end Sys2Proof.Machine
end

section
/-!
PROOF of O33, second part: GET, GET_PAIR and SET read and write parameters by command.
-/

namespace Sys2Proof.Machine

/-! ### GET (R309, R316, R317, R319) -/

theorem leBytes_mod (n : Nat) : ∀ v, leBytes n (v % 256 ^ n) = leBytes n v := by
  induction n with
  | zero => exact fun _ => rfl
  | succ n ih =>
    intro v
    have hlow : BitVec.ofNat 8 (v % 256 ^ (n + 1)) = BitVec.ofNat 8 v := by
      refine BitVec.eq_of_toNat_eq ?_
      rw [BitVec.toNat_ofNat, BitVec.toNat_ofNat, Nat.mod_mod_of_dvd]
      exact Dvd.intro_left _ (Nat.pow_succ ..).symm
    have hhigh : v % 256 ^ (n + 1) / 256 = v / 256 % 256 ^ n := by
      rw [Nat.pow_succ, Nat.mul_comm, Nat.mod_mul_right_div_self]
    rw [leBytes, leBytes, hlow, hhigh, ih]

theorem leBytes_wd (v : Nat) : leBytes 4 (wd v).toNat = leBytes 4 v := by
  rw [← leBytes_mod 4 v]
  rfl

/-- The bytes that GET answers for number `x` (R316, R317). -/
def State.EntryIs (s : State) (x : Nat) (b : List Byte) : Prop :=
  (paramInfo x = none → b = leBytes 8 6) ∧
  (∀ i, paramInfo x = some i →
    (paramAbsent s.variant x = true → b = leBytes 8 0x0C) ∧
    (paramAbsent s.variant x = false → i.access = .wo → b = leBytes 8 8) ∧
    (paramAbsent s.variant x = false → i.access ≠ .wo →
      (s.measured x = false → s.view x = none → b = [0, 0, 0, 0] ++ leBytes 4 (s.par x).toNat) ∧
      (s.measured x = false → ∀ v, s.view x = some v → b = [0, 0, 0, 0] ++ leBytes 4 v) ∧
      (s.measured x = true → ∃ f, b = [0, 0, 0, 0] ++ leBytes 4 ((Config.freeWord f).toNat % 65536))))

/-- The state with another count of free values. -/
def State.freed (s : State) (f : Nat) : State := { s with free := f }

theorem unitsLeft_freed (s : State) (f : Nat) : (s.freed f).unitsLeft = s.unitsLeft := by
  have hhearth : (s.freed f).hearthWanted = s.hearthWanted := rfl
  have hlink : (s.freed f).linkWanted = s.linkWanted := rfl
  have hbanks : (s.freed f).banksLeft = s.banksLeft := rfl
  have hgals : (s.freed f).galList = s.galList := rfl
  rw [State.unitsLeft, State.unitsLeft, hhearth, hlink, hbanks, hgals]

theorem commonView_freed (s : State) (f n : Nat) : (s.freed f).commonView n = s.commonView n := by
  have hassay : (s.freed f).assayOn = s.assayOn := rfl
  have hflash : (s.freed f).flashState = s.flashState := rfl
  have hwear : (s.freed f).wearMax = s.wearMax := rfl
  have htnd : (s.freed f).tndStatus = s.tndStatus := rfl
  have hsweep : (s.freed f).sweepStatus = s.sweepStatus := rfl
  have htrig : (s.freed f).trigStatus = s.trigStatus := rfl
  have hcapt : (s.freed f).captStatus = s.captStatus := rfl
  have hgal : (s.freed f).captGalState = s.captGalState := rfl
  have htb : (s.freed f).tbStatus = s.tbStatus := rfl
  have hline : (s.freed f).lineFault = s.lineFault := rfl
  have hpar : (s.freed f).parN = s.parN := rfl
  have hrv : (s.freed f).rvTrig = s.rvTrig := rfl
  unfold State.commonView
  rw [unitsLeft_freed, hassay, hflash, hwear, htnd, hsweep, htrig, hcapt, hgal, htb, hline, hpar, hrv]
  rfl

theorem view_freed (s : State) (f n : Nat) : (s.freed f).view n = s.view n := by
  unfold State.view
  rw [commonView_freed]
  rfl

theorem measured_freed (s : State) (f n : Nat) : (s.freed f).measured n = s.measured n := rfl

theorem par_freed (s : State) (f n : Nat) : (s.freed f).par n = s.par n := rfl

theorem readParam_freed (s : State) (f n : Nat) : ∃ v f', (s.freed f).readParam n = (v, s.freed f') ∧
    (s.measured n = false → s.view n = none → v = s.par n) ∧ (s.measured n = false → ∀ x, s.view n = some x → v = wd x) ∧
    (s.measured n = true → v = Config.freeWord f &&& 0xFFFF#32) := by
  unfold State.readParam
  rw [measured_freed, view_freed, par_freed]
  by_cases hm : s.measured n = true
  · rw [if_pos hm]
    exact ⟨_, f + 1, rfl, fun h => absurd (hm.symm.trans h) Bool.true_eq_false.mp, fun h => absurd (hm.symm.trans h) Bool.true_eq_false.mp,
      fun _ => rfl⟩
  · rw [if_neg hm]
    cases hview : s.view n with
    | none => exact ⟨_, f, rfl, fun _ _ => rfl, fun _ x hx => (by cases hx), fun h => absurd h hm⟩
    | some x => exact ⟨_, f, rfl, fun _ h => (by cases h), fun _ y hy => (by cases hy; rfl), fun h => absurd h hm⟩

theorem readEntry_is (s : State) (f n : Nat) : ∃ (st : Nat) (v : Word) (f' : Nat), readEntry n (s.freed f) = (st, v, s.freed f') ∧
    s.EntryIs n ([BitVec.ofNat 8 st, 0, 0, 0] ++ leBytes 4 v.toNat) := by
  unfold readEntry State.EntryIs
  cases hinfo : paramInfo n with
  | none => exact ⟨6, 0, f, rfl, fun _ => rfl, fun i hi => by cases hi⟩
  | some i =>
    have hone : ∀ j, some i = some j → j = i := fun j h => (Option.some.inj h).symm
    dsimp only
    by_cases habsent : paramAbsent s.variant n = true
    · refine ⟨0x0C, 0, f, if_pos habsent, fun h => (by cases h), fun j hj => ⟨fun _ => rfl, fun h => ?_, fun h => ?_⟩⟩
      · exact absurd (h.symm.trans habsent) Bool.false_ne_true
      · exact absurd (h.symm.trans habsent) Bool.false_ne_true
    · by_cases hwo : i.access = .wo
      · refine ⟨8, 0, f, (if_neg habsent).trans (if_pos hwo), fun h => (by cases h), fun j hj => ⟨fun h => absurd h habsent,
          fun _ _ => rfl, fun _ h => absurd (hone j hj ▸ hwo) h⟩⟩
      · obtain ⟨v, f', hread, hheld, hview, hmeasured⟩ := readParam_freed s f n
        refine ⟨0, v, f', ?_, fun h => (by cases h), fun j hj => ⟨fun h => absurd h habsent, fun _ h => absurd (hone j hj ▸ h) hwo,
          fun _ _ => ⟨fun hm hv => ?_, fun hm x hx => ?_, fun hm => ⟨f, ?_⟩⟩⟩⟩
        · exact ((if_neg habsent).trans (if_neg hwo)).trans (by rw [hread]; rfl)
        · rw [hheld hm hv]
          rfl
        · rw [hview hm x hx, leBytes_wd]
          rfl
        · rw [hmeasured hm, BitVec.toNat_and]
          exact congrArg (fun x => [0, 0, 0, 0] ++ leBytes 4 x) (Nat.and_two_pow_sub_one_eq_mod _ 16)

theorem readEntries_are (s : State) (k : Nat) : ∀ n f, ∃ (d : List (List Byte)) (f' : Nat),
    readEntries k n (s.freed f) = (d.flatten, s.freed f') ∧ d.length = k ∧
      ∀ j b, d[j]? = some b → b.length = 8 ∧ s.EntryIs (n + j) b := by
  induction k with
  | zero => exact fun n f => ⟨[], f, rfl, rfl, fun j b h => by simp at h⟩
  | succ k ih =>
    intro n f
    obtain ⟨st, v, f', hentry, his⟩ := readEntry_is s f n
    obtain ⟨d, f'', hrest, hlength, hentries⟩ := ih (n + 1) f'
    refine ⟨([BitVec.ofNat 8 st, 0, 0, 0] ++ leBytes 4 v.toNat) :: d, f'', ?_, congrArg (· + 1) hlength, fun j b hb => ?_⟩
    · rw [readEntries, hentry]
      dsimp only
      rw [hrest, List.flatten_cons]
    · cases j with
      | zero =>
        rw [List.getElem?_cons_zero, Option.some.injEq] at hb
        subst hb
        exact ⟨by simp, his⟩
      | succ j =>
        rw [List.getElem?_cons_succ] at hb
        obtain ⟨hb8, hbis⟩ := hentries j b hb
        rw [Nat.add_assoc, Nat.add_comm 1 j] at hbis
        exact ⟨hb8, hbis⟩

/-! ### SET (R309, R320) -/

section
variable (body : List Byte) (s : State)

/-- What entry `e` of a SET does to a state. -/
def writeEntry (e : Nat) (t : State) : Nat × State :=
  writeParam (leAt body (8 * e) 2) (BitVec.ofNat 32 (leAt body (8 * e + 4) 4)) t

/-- The states that the entries of a SET pass through. -/
def entryChain : Nat → State
  | 0 => s
  | e + 1 => (writeEntry body e (entryChain e)).2

theorem applyEntries_chain (n : Nat) : ∀ k,
    let r := applyEntries body n k (entryChain body s k)
    r.1 ≤ k + n ∧ (∀ e, k ≤ e → e < r.1 → (writeEntry body e (entryChain body s e)).1 = 0) ∧
      ((r.1 = k + n ∧ r.2.1 = 0 ∧ r.2.2 = entryChain body s (k + n)) ∨
        (r.1 < k + n ∧ r.2.1 ≠ 0 ∧ writeEntry body r.1 (entryChain body s r.1) = r.2)) := by
  induction n with
  | zero => exact fun k => ⟨Nat.le_refl k, fun e hk he => absurd he (Nat.not_lt.2 hk), .inl ⟨rfl, rfl, rfl⟩⟩
  | succ n ih =>
    intro k
    have hstep : applyEntries body (n + 1) k (entryChain body s k) =
        if (writeEntry body k (entryChain body s k)).1 = 0 then applyEntries body n (k + 1) (entryChain body s (k + 1))
        else (k, writeEntry body k (entryChain body s k)) := rfl
    dsimp only
    rw [hstep]
    by_cases hdone : (writeEntry body k (entryChain body s k)).1 = 0
    · obtain ⟨hle, hall, hend⟩ := ih (k + 1)
      rw [if_pos hdone]
      rw [Nat.add_assoc, Nat.add_comm 1 n] at hle hend
      refine ⟨hle, fun e hk he => ?_, hend⟩
      by_cases hek : e = k
      · rw [hek]
        exact hdone
      · exact hall e (by omega) he
    · rw [if_neg hdone]
      exact ⟨by omega, fun e hk he => absurd he (Nat.not_lt.2 hk), .inr ⟨by omega, hdone, rfl⟩⟩

end

/-! ### The commands -/

section
variable {s : State} {c : Cmd}

theorem exec_get (hstarts : s.Starts c 0x10) : exec (.get c.via) s = .next
    (if leAt c.body 2 2 = 0 ∨ 64 < leAt c.body 2 2 ∨ 0x10000 < leAt c.body 0 2 + leAt c.body 2 2 then respond c 9 [] s
     else respond c 0 (leBytes 2 (leAt c.body 2 2) ++ [0, 0] ++ (readEntries (leAt c.body 2 2) (leAt c.body 0 2) s).1)
       (readEntries (leAt c.body 2 2) (leAt c.body 0 2) s).2) :=
  congrArg _ (runCmd_eq hstarts getCmd)

theorem exec_set (hstarts : s.Starts c 0x11) : exec (.set c.via) s = .next
    (if c.body.length / 8 = 0 ∨ 64 < c.body.length / 8 then respond c 9 [] s
     else
       let r := applyEntries c.body (c.body.length / 8) 0 s
       respondVia (r.2.2.pcie.ringArmed && !armsRing c.body r.1) c r.2.1 (leBytes 2 r.1 ++ [0, 0]) r.2.2) :=
  congrArg _ (runCmd_eq hstarts setCmd)

theorem exec_getPair (hstarts : s.Starts c 0x12) : exec (.getPair c.via) s = .next (getPairCmd c s) :=
  congrArg _ (runCmd_eq hstarts getPairCmd)

theorem getPairCmd_none (h : paramInfo (leAt c.body 0 2) = none) : getPairCmd c s = respond c 6 [] s := by
  unfold getPairCmd
  dsimp only
  rw [h]
  rfl

theorem getPairCmd_some {i : ParamInfo} (h : paramInfo (leAt c.body 0 2) = some i) : getPairCmd c s =
    (let n := leAt c.body 0 2
     if !i.low then respond c 9 [] s
     else if paramAbsent s.variant n then respond c 0x0C (leBytes 8 0) s
     else respond c 0 (leBytes 4 (s.readParam n).1.toNat ++ leBytes 4 ((s.readParam n).2.readParam (n + 1)).1.toNat)
       ((s.readParam n).2.readParam (n + 1)).2) := by
  unfold getPairCmd
  dsimp only
  rw [h]
  rfl

/-- The value of a number that is not measured. -/
def State.shown (s : State) (n : Nat) : Nat := match s.view n with
  | some v => v
  | none => (s.par n).toNat

theorem readParam_shown {n : Nat} (h : s.measured n = false) : (s.readParam n).2 = s ∧
    leBytes 4 (s.readParam n).1.toNat = leBytes 4 (s.shown n) := by
  unfold State.readParam State.shown
  rw [if_neg (by simp [h])]
  cases s.view n with
  | none => exact ⟨rfl, rfl⟩
  | some v => exact ⟨rfl, leBytes_wd v⟩

end

/-! ### The claim -/

theorem info_hold : paramInfo 0x22 = some { access := .rw, low := false, high := false } := by decide

theorem info_align : paramInfo 0x3D07 = some { access := .wo, low := false, high := false } := by decide

theorem info_drive : paramInfo 0x3601 = some { access := .rw, low := false, high := false } := by decide

section
variable {s : State} {v : Word}

theorem exec_kindleHoldTimeout (hw : s.Writes 0x22) : exec (.kindleHoldTimeout v) s = .next
    ((s.putPar 0x22 (v &&& 0x80FFFFFF)).ended 0) := by
  have hwrite : writeParam 0x22 v s = (stSuccess, s.putPar 0x22 (v &&& 0x80FFFFFF)) := by
    rw [writeParam_eq info_hold hw.present]
    have hstore : storeParam 0x22 (v &&& 0x80FFFFFF) s = s.putPar 0x22 (v &&& 0x80FFFFFF) := storeParam_plain (by decide)
      (fun p _ => ⟨by unfold portP; omega, by unfold portP; omega⟩) (fun e h => by omega)
    rw [← hstore]
    exact writeRw_plain rfl rfl rfl rfl
  show execKindleHoldTimeout v s = _
  rw [execKindleHoldTimeout, hostEntry_eq hw, hwrite]
  rfl

theorem exec_tbAlign (hw : s.Writes 0x3D07) : exec (.tbAlign v) s = .next
    (if s.syncIgnored then s.ended 0x0B
     else if s.capt.st = 1 then s.ended 0x0A
     else if v ≠ 1 then s.ended 9
     else ({ s with clk := { s.clk with armed := true } } : State).ended 0) := by
  have hwrite : writeParam 0x3D07 v s = writeTbAlign v s := writeParam_eq info_align hw.present
  show execTbAlign v s = _
  rw [execTbAlign, hostEntry_eq hw, hwrite, writeTbAlign]
  split_ifs <;> rfl

theorem exec_trigDriveEn (hw : s.Writes 0x3601) : exec (.trigDriveEn v) s = .next
    (if s.rvTrig = 15 ∧ v &&& 0x1FF ≠ 0 then s.ended 0x0B
     else (restoreDrivers (s.par 0x3601) (v &&& 0x1FF) (s.putPar 0x3601 (v &&& 0x1FF))).ended 0) := by
  have hmask : v &&& 0x1FF#32 &&& 0x1FF#32 = v &&& 0x1FF#32 := by rw [BitVec.and_assoc, BitVec.and_self]
  have hlocked : s.lockedWrite 0x3601 (v &&& 0x1FF) = true ↔ s.rvTrig = 15 ∧ v &&& 0x1FF ≠ 0 := by
    simp [State.lockedWrite, State.listen, hmask]
  have hwrite : writeParam 0x3601 v s = if s.lockedWrite 0x3601 (v &&& 0x1FF) then (stLocked, s)
      else (stSuccess, restoreDrivers (s.par 0x3601) (v &&& 0x1FF) (s.putPar 0x3601 (v &&& 0x1FF))) := by
    rw [writeParam_eq info_drive hw.present]
    rfl
  show execTrigDriveEn v s = _
  rw [execTrigDriveEn, hostEntry_eq hw, hwrite]
  by_cases h : s.rvTrig = 15 ∧ v &&& 0x1FF ≠ 0
  · rw [if_pos h, if_pos (hlocked.2 h)]
    rfl
  · rw [if_neg h, if_neg (mt hlocked.1 h)]
    rfl

end

/-- Settles the first part of O33: a host write of a parameter without a command of its own (R318, R322). -/
theorem parameter_written {s : State} {n : Nat} {v : Word} {i : ParamInfo} (hw : s.Writes n) (hcommand : hasCommand n = false)
    (hi : paramInfo n = some i) :
    let w := v &&& rwMask n
    let lo := (tabGet none s.staged (n - 1)).getD (s.par (n - 1))
    let unstaged : State := { s with staged := tabSet none s.staged (n - 1) none }
    ((i.access = .ro ∨ i.access = .running) → exec (.paramWrite n v) s = .next (s.ended 7)) ∧
    ((i.access = .counter ∨ i.access = .w0c) →
      (v = 0 → exec (.paramWrite n v) s = .next ((s.putPar n 0).ended 0)) ∧
      (v ≠ 0 → exec (.paramWrite n v) s = .next (s.ended 9))) ∧
    (i.access = .rw →
      (i.low = true → exec (.paramWrite n v) s = .next (({ s with staged := tabSet none s.staged n (some v) } : State).ended 0)) ∧
      (i.low = false → i.high = true →
        (s.busyWrite (n - 1) = true → exec (.paramWrite n v) s = .next (unstaged.ended 0x0A)) ∧
        (s.busyWrite (n - 1) = false → s.pairOk (n - 1) lo v = false → exec (.paramWrite n v) s = .next (unstaged.ended 9)) ∧
        (s.busyWrite (n - 1) = false → s.pairOk (n - 1) lo v = true →
          exec (.paramWrite n v) s = .next (((unstaged.putPar (n - 1) lo).putPar (n - 1 + 1) v).ended 0))) ∧
      (i.low = false → i.high = false →
        (s.busyWrite n = true → exec (.paramWrite n v) s = .next (s.ended 0x0A)) ∧
        (s.busyWrite n = false → s.valueOk n w = false → exec (.paramWrite n v) s = .next (s.ended 9)) ∧
        (s.busyWrite n = false → s.valueOk n w = true → exec (.paramWrite n v) s = .next ((storeParam n w s).ended 0)))) := by
  intro w lo unstaged
  rw [exec_paramWrite hw hcommand, writeParam_eq hi hw.present]
  refine ⟨fun hread => ?_, fun hcounter => ⟨fun hzero => ?_, fun hvalue => ?_⟩, fun hrw => ?_⟩
  · rcases hread with h | h <;> rw [h] <;> rfl
  · rcases hcounter with h | h <;> rw [h] <;> simp only [if_pos hzero] <;> rfl
  · rcases hcounter with h | h <;> rw [h] <;> simp only [if_neg hvalue] <;> rfl
  · rw [hrw]
    dsimp only
    refine ⟨fun hlow => ?_, fun hlow hhigh => ?_, fun hlow hhigh => ?_⟩
    · have hstaged : writeRw i n v s = (stSuccess, { s with staged := tabSet none s.staged n (some v) }) := if_pos hlow
      rw [hstaged]
      rfl
    · rw [writeRw_high hlow hhigh]
      dsimp only
      refine ⟨fun hbusy => ?_, fun hfree hwrong => ?_, fun hfree hok => ?_⟩
      · rw [if_pos hbusy]
        rfl
      · rw [if_neg (by simp [hfree]), if_neg (Bool.eq_false_iff.1 hwrong)]
        rfl
      · rw [if_neg (by simp [hfree]), if_pos hok]
        rfl
    · rw [writeRw_plain hlow hhigh (rwAction_none hcommand) (lockedWrite_false hcommand)]
      refine ⟨fun hbusy => ?_, fun hfree hwrong => ?_, fun hfree hok => ?_⟩
      · rw [if_pos hbusy]
        rfl
      · rw [if_neg (by simp [hfree]), if_neg (Bool.eq_false_iff.1 hwrong)]
        rfl
      · rw [if_neg (by simp [hfree]), if_pos hok]
        rfl

/-- What a value that is held does (R260, R330). -/
theorem value_held {s : State} {n : Nat} (w : Word) (hcommand : hasCommand n = false) :
    ((∀ p < 16, n ≠ portP p 0x09 ∧ n ≠ portP p 0x0B) → (∀ e, n = 0x3B00 + e → e < 256 → eventClass e ≠ none) →
      storeParam n w s = s.putPar n w) ∧
    (∀ e, n = 0x3B00 + e → e < 256 → eventClass e = none → storeParam n w s = s) ∧
    (∀ p, p < 16 → n = portP p 0x0B → storeParam n w s = (s.putPar n w).modPort p (fun q => { q with
      dfe := if w.getLsbD 31 = true then q.dfe
        else q.dfe.map (fun c => Max.max (-((w.toNat % 32 : Nat) : Int)) (Min.min ((w.toNat % 32 : Nat) : Int) c)) })) ∧
    (∀ p, p < 16 → n = portP p 0x09 → storeParam n w s = (s.putPar n w).modPort p (fun q => { q with
      ctle := if w.getLsbD 31 = true then w.toNat / 65536 % 16
        else Max.max (w.toNat % 16) (Min.min (w.toNat / 256 % 16) q.ctle) })) := by
  have hdrive : n ≠ 0x3601 := fun h => by rw [h] at hcommand; exact absurd hcommand (by decide)
  refine ⟨fun hports hevents => storeParam_plain hdrive hports hevents, fun e hn he hclass => storeParam_reserved hn he hclass,
    fun p hp hn => ?_, fun p hp hn => ?_⟩
  · have hmax : clampDfe w = fun c => Max.max (-((w.toNat % 32 : Nat) : Int)) (Min.min ((w.toNat % 32 : Nat) : Int) c) := by
      have hfld : fld w 4 0 = w.toNat % 32 := by simp [fld, bits]
      funext c
      rw [clampDfe, hfld]
    rw [storeParam_port hp (by omega) hn, hn, applyParam_dfe hp, hmax]
  · have hclamp : clampCtle w = fun c => Max.max (w.toNat % 16) (Min.min (w.toNat / 256 % 16) c) := by
      have hfld : fld w 3 0 = w.toNat % 16 := by simp [fld, bits]
      funext c
      rw [clampCtle, hfld]
      rfl
    rw [storeParam_port hp (by omega) hn, hn, applyParam_ctle hp, hclamp]
    rfl

theorem valueOk_rate (s : State) {p : Nat} (hp : p < 16) (v : Word) :
    s.valueOk (portP p 0x02) v = true ↔ (100 ≤ v.toNat ∧ v.toNat ≤ 3250) ∨ (v = 0 ∧ s.protocol p = 0) := by
  obtain ⟨hport, hoff⟩ := portP_place (p := p) (o := 0x02) (by omega)
  have hin : 0x2000 ≤ portP p 0x02 ∧ portP p 0x02 ≤ 0x27FF := by unfold portP; omega
  have hzero : v.toNat = 0 ↔ v = 0 := ⟨fun h => BitVec.eq_of_toNat_eq h, fun h => congrArg BitVec.toNat h⟩
  unfold State.valueOk State.portOk
  rw [if_neg (by omega), if_neg (by omega), if_pos hin, hport, hoff, if_pos rfl]
  simp [hzero]

theorem valueOk_watchdog (s : State) {g : Nat} (hg : g < 16) (v : Word) :
    s.valueOk (galP g 0x04) v = true ↔ v = 0 ∨ 1024 ≤ v.toNat := by
  have hin : 0x1000 ≤ galP g 0x04 ∧ galP g 0x04 ≤ 0x1FFF := by unfold galP; omega
  have hoff : galP g 0x04 % 0x100 = 0x04 := by unfold galP; omega
  have hzero : v.toNat = 0 ↔ v = 0 := ⟨fun h => BitVec.eq_of_toNat_eq h, fun h => congrArg BitVec.toNat h⟩
  unfold State.valueOk State.galOk
  rw [if_neg (by omega), if_pos hin, hoff, if_pos rfl, decide_eq_true_iff, hzero]

/-- Settles the part of O33 on GET, GET_PAIR and SET. -/
theorem parameters_commanded (s : State) (c : Cmd) :
    let n := leAt c.body 0 2
    let k := leAt c.body 2 2
    let m := c.body.length / 8
    (s.Starts c 0x10 →
      ((k = 0 ∨ 64 < k ∨ 0x10000 < n + k) → exec (.get c.via) s = .next (respond c 9 [] s)) ∧
      (1 ≤ k → k ≤ 64 → n + k ≤ 0x10000 → ∃ (d : List (List Byte)) (f : Nat),
        exec (.get c.via) s = .next (respond c 0 (leBytes 2 k ++ [0, 0] ++ d.flatten) { s with free := f }) ∧
        d.length = k ∧ ∀ j b, d[j]? = some b → b.length = 8 ∧ s.EntryIs (n + j) b)) ∧
    (s.Starts c 0x12 →
      (paramInfo n = none → exec (.getPair c.via) s = .next (respond c 6 [] s)) ∧
      (∀ i, paramInfo n = some i →
        (i.low = false → exec (.getPair c.via) s = .next (respond c 9 [] s)) ∧
        (i.low = true → paramAbsent s.variant n = true → exec (.getPair c.via) s = .next (respond c 0x0C (List.replicate 8 0) s)) ∧
        (i.low = true → paramAbsent s.variant n = false → s.measured n = false → s.measured (n + 1) = false →
          exec (.getPair c.via) s = .next (respond c 0 (leBytes 4 (s.shown n) ++ leBytes 4 (s.shown (n + 1))) s)))) ∧
    (s.Starts c 0x11 →
      ((m = 0 ∨ 64 < m) → exec (.set c.via) s = .next (respond c 9 [] s)) ∧
      (1 ≤ m → m ≤ 64 → ∃ (j st : Nat) (chain : Nat → State) (t : State),
        let write := fun (e : Nat) => writeParam (leAt c.body (8 * e) 2) (BitVec.ofNat 32 (leAt c.body (8 * e + 4) 4)) (chain e)
        j ≤ m ∧ chain 0 = s ∧ (∀ e < j, write e = (0, chain (e + 1))) ∧
        ((j = m ∧ st = 0 ∧ t = chain m) ∨ (j < m ∧ st ≠ 0 ∧ write j = (st, t))) ∧
        exec (.set c.via) s = .next (respondVia (t.pcie.ringArmed && !((List.range j).any (fun e =>
          decide (leAt c.body (8 * e) 2 = 0x206) && (leAt c.body (8 * e + 4) 4).testBit 0)))
          c st (leBytes 2 j ++ [0, 0]) t))) := by
  intro n k m
  refine ⟨fun hstarts => ?_, fun hstarts => ?_, fun hstarts => ?_⟩
  · rw [exec_get hstarts]
    refine ⟨fun hwrong => congrArg _ (if_pos hwrong), fun h1 h64 hend => ?_⟩
    obtain ⟨d, f, hread, hlength, hentries⟩ := readEntries_are s k n s.free
    refine ⟨d, f, ?_, hlength, hentries⟩
    have hread' : readEntries k n s = (d.flatten, { s with free := f }) := hread
    rw [if_neg (by omega), hread']
  · rw [exec_getPair hstarts]
    refine ⟨fun hnone => congrArg _ (getPairCmd_none hnone), fun i hi => ?_⟩
    rw [getPairCmd_some hi]
    dsimp only
    refine ⟨fun hlow => ?_, fun hlow habsent => ?_, fun hlow hpresent hm hm' => ?_⟩
    · rw [if_pos (by simp [hlow])]
    · rw [if_neg (by simp [hlow]), if_pos habsent]
      rfl
    · obtain ⟨hsame, hbytes⟩ := readParam_shown hm
      obtain ⟨hsame', hbytes'⟩ := readParam_shown hm'
      rw [if_neg (by simp [hlow]), if_neg (Bool.eq_false_iff.1 hpresent), hsame, hbytes, hbytes', hsame']
  · rw [exec_set hstarts]
    refine ⟨fun hwrong => congrArg _ (if_pos hwrong), fun h1 h64 => ?_⟩
    obtain ⟨hle, hall, hend⟩ := applyEntries_chain c.body s m 0
    rw [Nat.zero_add] at hle hend
    refine ⟨_, _, entryChain c.body s, _, hle, rfl, fun e he => Prod.ext (hall e (Nat.zero_le e) he) rfl, hend, ?_⟩
    have harms : ∀ j, armsRing c.body j = (List.range j).any (fun e =>
        decide (leAt c.body (8 * e) 2 = 0x206) && (leAt c.body (8 * e + 4) 4).testBit 0) := fun j => by
      simp only [armsRing, bitOf_eq_testBit]
    rw [if_neg (by omega), ← harms]
    rfl

/-- Settles O33: the writes by R318's order, the commands by the entries they read and write. -/
theorem parametersAreReadAndWritten : Obligations.ParametersAreReadAndWritten := by
  unfold Obligations.ParametersAreReadAndWritten
  refine ⟨fun s n v i => ⟨fun hw hcommand hi => ?write, fun hw => exec_kindleHoldTimeout hw, fun hw => ?align, ?drive,
    fun p hp => valueOk_rate s hp v, ?rate, decide_eq_true_iff, decide_eq_true_iff, fun g hg => valueOk_watchdog s hg v⟩,
    fun s c => parameters_commanded s c⟩
  case write =>
    obtain ⟨hread, hcounter, hrw⟩ := parameter_written (v := v) hw hcommand hi
    refine ⟨hread, hcounter, fun haccess => ?_⟩
    obtain ⟨hlow, hhigh, hplain⟩ := hrw haccess
    refine ⟨hlow, hhigh, fun hnl hnh => ?_⟩
    obtain ⟨hbusy, hwrong, hheld⟩ := hplain hnl hnh
    obtain ⟨hput, hreserved, hdfe, hctle⟩ := value_held (s := s) (v &&& rwMask n) hcommand
    refine ⟨hbusy, hwrong, fun hfree hok => ?_⟩
    rw [hheld hfree hok]
    exact ⟨fun hports hevents => by rw [hput hports hevents], fun e hn he hclass => by rw [hreserved e hn he hclass],
      fun p hp hn => by rw [hdfe p hp hn], fun p hp hn => by rw [hctle p hp hn]⟩
  case align =>
    rw [exec_tbAlign hw]
    refine ⟨fun hignored => ?_, fun hheard hbusy => ?_, fun hheard hfree hv => ?_, fun hheard hfree hv => ?_⟩
    · rw [if_pos hignored]
    · rw [if_neg (by simp [hheard]), if_pos hbusy]
    · rw [if_neg (by simp [hheard]), if_neg hfree, if_pos hv]
    · rw [if_neg (by simp [hheard]), if_neg hfree, if_neg (not_not.2 hv)]
  case drive =>
    intro u rises hw
    rw [exec_trigDriveEn hw]
    refine ⟨fun hlisten hu => congrArg _ (if_pos ⟨hlisten, hu⟩), fun hfree => ?_⟩
    have hrestored := restoreDrivers_restores (s.par 0x3601) u (s.putPar 0x3601 u)
    rw [if_neg hfree]
    refine ⟨_, rfl, hrestored.rest, hrestored.on, hrestored.kept, fun k => ?_⟩
    split
    · next h => exact (hrestored.kind k).1 h
    · next h => exact (hrestored.kind k).2 h
  case rate =>
    have hzero : v.toNat = 0 ↔ v = 0 := ⟨fun h => BitVec.eq_of_toNat_eq h, fun h => congrArg BitVec.toNat h⟩
    exact decide_eq_true_iff.trans (not_congr hzero)

end Sys2Proof.Machine
end

section
/-!
PROOF of O34 (chapter 17): lamp frames are checked and their messages admitted, refused or answered again.
-/

namespace Sys2Proof.Machine

/-! ### Frames (R297, R298) -/

/-- The bytes that carry one byte of a frame on the line (R297). -/
def stuffByte (b : Byte) : List Byte := if b = 0x7E ∨ b = 0x7D then [0x7D, b ^^^ 0x20] else [b]

theorem unstuff_plain {b : Byte} (h : b ≠ 0x7D) (r : List Byte) : unstuff (b :: r) = (unstuff r).map (b :: ·) := by
  cases r with
  | nil => exact if_neg h
  | cons c r => exact if_neg h

theorem unstuff_stuff (l : List Byte) : unstuff (l.flatMap stuffByte) = some l := by
  induction l with
  | nil => rfl
  | cons b l ih =>
    rw [List.flatMap_cons, stuffByte]
    split
    · have hback : b ^^^ 0x20 ^^^ 0x20 = b := by rw [BitVec.xor_assoc, BitVec.xor_self, BitVec.xor_zero]
      show (unstuff (l.flatMap stuffByte)).map (fun r => (b ^^^ 0x20 ^^^ 0x20) :: r) = some (b :: l)
      rw [ih, hback]
      rfl
    · next h =>
      rw [List.singleton_append, unstuff_plain (fun hb => h (.inr hb)), ih]
      rfl

/-- A frame of a message of 12 to 2,048 bytes reads back (R298). -/
theorem frameMessage_stuff {m : List Byte} (h12 : 12 ≤ m.length) (hmax : m.length ≤ 2048) :
    frameMessage (([0xFF, 0x03] ++ m ++ leBytes 4 (crc32 ([0xFF, 0x03] ++ m)).toNat).flatMap stuffByte) = some m := by
  unfold frameMessage
  rw [unstuff_stuff]
  dsimp only
  generalize hcrc : crc32 ([0xFF, 0x03] ++ m) = x
  have hlength : ([0xFF, 0x03] ++ m ++ leBytes 4 x.toNat).length = m.length + 6 := by simp
  have hn : m.length + 6 - 6 = m.length := by omega
  have hend : m.length + 6 - 4 = ([0xFF, 0x03] ++ m).length := by simp
  have htake : ([0xFF, 0x03] ++ m ++ leBytes 4 x.toNat).take (m.length + 6 - 4) = [0xFF, 0x03] ++ m := by
    rw [hend, List.take_left]
  have hsum : leAt ([0xFF, 0x03] ++ m ++ leBytes 4 x.toNat) (m.length + 6 - 4) 4 = x.toNat := by
    rw [leAt, slice, hend, List.drop_left, List.take_of_length_le (by simp), leNat_leBytes]
    exact Nat.mod_eq_of_lt x.isLt
  have hmessage : slice ([0xFF, 0x03] ++ m ++ leBytes 4 x.toNat) 2 m.length = m := by
    rw [slice, List.append_assoc]
    exact List.take_left
  have hback : wd x.toNat = x := by rw [wd, BitVec.ofNat_toNat, BitVec.setWidth_eq]
  rw [hlength, hn, htake, hsum, hmessage, hcrc, hback]
  refine if_neg ?_
  rintro (h | h | h | h | h)
  · omega
  · omega
  · exact h rfl
  · exact h rfl
  · exact h rfl

/-! ### Admission (R301, R303–R306: note 33, DEDUCED) -/

/-- The state once the lamp pair has taken control that was free (R303). -/
def State.owned (s : State) : State := if s.lamp.owner = none then
    ({ s with lamp := { s.lamp with owner := some .lampPair } } : State).raise 0x1A [1, 1] else s

theorem owned_rest (s : State) : s.owned = { s with
    lamp := { s.lamp with owner := s.owned.lamp.owner }, evt := { s.evt with latches := s.owned.evt.latches } } := by
  unfold State.owned
  split
  · rw [raise_rest]
  · rfl

/-- The command of a message on the lamp pair. -/
def lampCmd (m : List Byte) : Cmd := { via := .lampPair, type := leAt m 2 2, tag := leAt m 4 2, body := m.drop 12 }

section
variable {s : State} {m bytes : List Byte}

theorem exec_lampFrameRx (hclocked : s.clocked = true) (hon : s.lamp.pairOn = true) (hbytes : bytes ≠ []) :
    exec (.lampFrameRx bytes) s = .next (match frameMessage bytes with
      | none => s.count 0x302 1
      | some m => receiveMsg .lampPair m s) := by
  have hgate : ¬ (!s.clocked || !s.lamp.pairOn || bytes.isEmpty) = true := by simp [hclocked, hon, hbytes]
  show execLampFrameRx bytes s = _
  rw [execLampFrameRx, if_neg hgate] <;> (cases frameMessage bytes <;> rfl)

theorem receiveMsg_wrong (h : byteAt m 0 ≠ 1 ∨ byteAt m 1 ≠ 0) : receiveMsg .lampPair m s = s.count 0x303 1 :=
  if_pos (h.imp_right .inl)

theorem receiveMsg_sound (hversion : byteAt m 0 = 1) (hkind : byteAt m 1 = 0) (h12 : 12 ≤ m.length) :
    receiveMsg .lampPair m s = acceptCmd (lampCmd m) (leAt m 6 2) s.owned := by
  have hgate : ¬ (byteAt m 0 ≠ 1 ∨ byteAt m 1 ≠ 0 ∨ m.length < 12) := by
    rw [hversion, hkind]
    simp only [ne_eq, not_true_eq_false, false_or]
    omega
  exact if_neg hgate

/-- A command of this tag is outstanding on the lamp pair. -/
def State.lampBusy (s : State) (m : List Byte) : Prop :=
  ∃ x ∈ s.lamp.inbox ++ s.lamp.running, x.via = .lampPair ∧ x.tag = leAt m 4 2

theorem tagBusy_iff : s.owned.tagBusy (lampCmd m) = true ↔ s.lampBusy m := by
  rw [owned_rest]
  simp only [State.tagBusy, List.any_eq_true, decide_eq_true_eq]
  rfl

theorem places_owned : s.owned.places .lampPair = s.places .lampPair := by
  rw [owned_rest]
  rfl

/-- The length of the message or the structure of its body is wrong. -/
def badLength (m : List Byte) : Prop :=
  leAt m 6 2 ≠ (m.drop 12).length ∨ (leAt m 2 2 ∈ knownTypes ∧ structured (leAt m 2 2) (m.drop 12) = false)

/-- The lamp pair does not own control, and the command needs it. -/
def State.foreign (s : State) (m : List Byte) : Prop :=
  s.owned.lamp.owner ≠ some .lampPair ∧ leAt m 2 2 ∉ [0x01, 0x10, 0x12]

theorem acceptCmd_new [Decidable (badLength m)] [Decidable (s.foreign m)] (hnew : ¬ s.lampBusy m)
    (hstored : s.owned.storedFor (lampCmd m) = none) : acceptCmd (lampCmd m) (leAt m 6 2) s.owned =
    if badLength m then refuse (lampCmd m) 5 s.owned
    else if leAt m 2 2 ∉ knownTypes then refuse (lampCmd m) 4 s.owned
    else if s.foreign m then refuse (lampCmd m) 2 s.owned
    else if s.places .lampPair = 0 then refuse (lampCmd m) 3 s.owned
    else { s.owned with lamp := { s.owned.lamp with inbox := s.owned.lamp.inbox ++ [lampCmd m] } } := by
  have hlength : (leAt m 6 2 ≠ (lampCmd m).body.length ∨ (knownTypes.contains (lampCmd m).type = true ∧
      structured (lampCmd m).type (lampCmd m).body = false)) ↔ badLength m :=
    or_congr Iff.rfl (and_congr_left fun _ => List.contains_iff_mem)
  have hknown : (!knownTypes.contains (lampCmd m).type) = true ↔ leAt m 2 2 ∉ knownTypes := by
    rw [Bool.not_eq_true', Bool.eq_false_iff]
    exact not_congr List.contains_iff_mem
  have hforeign : (s.owned.lamp.owner ≠ some (lampCmd m).via ∧ freeTypes.contains (lampCmd m).type = false) ↔ s.foreign m := by
    rw [Bool.eq_false_iff]
    exact and_congr Iff.rfl (not_congr List.contains_iff_mem)
  have hplaces : s.owned.places (lampCmd m).via = 0 ↔ s.places .lampPair = 0 := by
    rw [show (lampCmd m).via = .lampPair from rfl, places_owned]
  unfold acceptCmd
  rw [if_neg (mt tagBusy_iff.1 hnew), hstored]
  exact if_congr hlength rfl (if_congr hknown rfl (if_congr hforeign rfl (if_congr hplaces rfl rfl)))

/-- The stored answer goes out again with the free places of the moment (R305, R306). -/
theorem resend_lamp {r : Stored} (hvia : r.via = .lampPair) : ∃ t, resend r (s.owned.count 0x304 1) = t ∧
    let u := s.owned.count 0x304 1
    t = { u with lamp := { u.lamp with sent := t.lamp.sent } } ∧
    t.lamp.sent = if tabGet 0 s.pins.kinds 12 = 0 then
        (r.rsp.take 9 ++ [BitVec.ofNat 8 (s.places .lampPair)] ++ r.rsp.drop 10) :: s.lamp.sent else s.lamp.sent := by
  have hplaces : (s.owned.count 0x304 1).places .lampPair = s.places .lampPair := places_owned
  have hline : tabGet 0 (s.owned.count 0x304 1).pins.kinds 12 = tabGet 0 s.pins.kinds 12 := by
    show tabGet 0 s.owned.pins.kinds 12 = _
    rw [owned_rest]
  have hsent : (s.owned.count 0x304 1).lamp.sent = s.lamp.sent := by
    show s.owned.lamp.sent = s.lamp.sent
    rw [owned_rest]
  refine ⟨_, rfl, ?_⟩
  unfold resend
  rw [hvia, hplaces]
  unfold deliver
  dsimp only
  rw [hline]
  split
  · exact ⟨rfl, congrArg _ hsent⟩
  · exact ⟨rfl, hsent⟩

end

/-! ### Answers (R305–R307) -/

theorem respond_lamp {c : Cmd} {s : State} (st : Nat) (body : List Byte) (hvia : c.via = .lampPair) :
    let free : Nat := 4 - ((s.lamp.inbox.erase c ++ s.lamp.running.erase c).filter (fun x => decide (x.via = .lampPair))).length
    let msg : List Byte := [1, 1] ++ leBytes 2 c.type ++ leBytes 2 c.tag ++ leBytes 2 body.length ++
      [BitVec.ofNat 8 st, BitVec.ofNat 8 free, 0, 0] ++ body
    respond c st body s = { s with lamp := { s.lamp with
      inbox := s.lamp.inbox.erase c, running := s.lamp.running.erase c, orphans := s.lamp.orphans.erase c
      stored := { via := c.via, tag := c.tag, crc := crc32 c.body, rsp := msg } ::
        (s.lamp.stored.filter (fun x => decide (x.via = c.via))).take 7 ++ s.lamp.stored.filter (fun x => !decide (x.via = c.via))
      sent := if c ∉ s.lamp.orphans ∧ tabGet 0 s.pins.kinds 12 = 0 then msg :: s.lamp.sent else s.lamp.sent } } := by
  intro free msg
  have hmsg : (dropCmd c s).answer c st body = msg := by
    simp only [State.answer, State.places, hvia]
    rfl
  unfold respond respondVia
  dsimp only
  rw [hmsg]
  have horphans : (dropCmd c s).lamp.orphans = s.lamp.orphans := rfl
  rw [horphans]
  by_cases horphan : c ∈ s.lamp.orphans
  · rw [if_pos (List.contains_iff_mem.2 horphan), if_neg (fun h => h.1 horphan)]
    rfl
  · rw [if_neg (mt List.contains_iff_mem.1 horphan)]
    unfold deliver
    rw [hvia]
    dsimp only
    have hpins : (dropCmd c s).pins = s.pins := rfl
    rw [hpins]
    by_cases hline : tabGet 0 s.pins.kinds 12 = 0
    · rw [if_pos hline, if_pos ⟨horphan, hline⟩]
      rfl
    · rw [if_neg hline, if_neg (fun h => hline h.2)]
      rfl

/-- A command that user mode must precede (R97). -/
theorem runCmd_early {s : State} {c : Cmd} {type : Nat} (hclocked : s.clocked = true) (hfirst : s.lamp.inbox.head? = some c)
    (htype : c.type = type) (hearly : s.ready c = false) (act : Cmd → State → State) :
    runCmd c.via type act s = respond c 1 [] s := by
  unfold runCmd
  cases hinbox : s.lamp.inbox with
  | nil => rw [hinbox] at hfirst; cases hfirst
  | cons d r =>
    rw [hinbox, List.head?_cons, Option.some.injEq] at hfirst
    subst hfirst
    have hgate : ¬ (!s.clocked || decide (d.via ≠ d.via ∨ d.type ≠ type)) = true := by simp [hclocked, htype]
    dsimp only
    rw [if_neg hgate, if_neg (by simp [hearly])]
    rfl

/-- Settles O34: frames read back, messages are admitted in the order of note 33, and answers free their places. -/
theorem lampMessagesAreAdmitted : Obligations.LampMessagesAreAdmitted := by
  unfold Obligations.LampMessagesAreAdmitted
  intro s bytes m c st body own cmd busy bad foreign sum stuff
  refine ⟨frameMessage_stuff, fun hclocked hon hbytes => ?frame, fun hclocked hlimit => ?owner, fun hstarts => ?ping,
    fun hstarts => ?release, respond_lamp st body, fun r hr hclocked hfirst htype hearly => ?early⟩
  case frame =>
    rw [exec_lampFrameRx hclocked hon hbytes]
    refine ⟨fun hnone => by rw [hnone], fun hsome => ?_⟩
    rw [hsome]
    refine ⟨fun hwrong => congrArg _ (receiveMsg_wrong hwrong), fun hversion hkind h12 => ?_⟩
    have hsound := receiveMsg_sound (s := s) hversion hkind h12
    dsimp only
    rw [hsound]
    refine ⟨fun hbusy => congrArg _ (if_pos (tagBusy_iff.2 hbusy)), fun hnew r hr => ?_, fun hnew hstored => ?_⟩
    · have hvia : r.via = .lampPair := by
        have hfound := List.find?_some hr
        exact (decide_eq_true_iff.1 hfound).1
      obtain ⟨t, ht, hsent⟩ := resend_lamp (s := s) hvia
      refine ⟨t, congrArg _ ?_, hsent⟩
      rw [← ht]
      unfold acceptCmd
      rw [if_neg (mt tagBusy_iff.1 hnew), show s.owned.storedFor (lampCmd m) = some r from hr]
    · classical
      rw [acceptCmd_new hnew hstored]
      refine ⟨fun hbad => congrArg _ (if_pos hbad), fun hgood htype => ?_, fun hgood htype hforeign => ?_,
        fun hgood htype hown => ⟨fun hfull => ?_, fun hroom => ?_⟩⟩
      · exact congrArg _ ((if_neg hgood).trans (if_pos htype))
      · exact congrArg _ ((if_neg hgood).trans ((if_neg (not_not.2 htype)).trans (if_pos hforeign)))
      · exact congrArg _ ((if_neg hgood).trans ((if_neg (not_not.2 htype)).trans ((if_neg hown).trans (if_pos hfull))))
      · exact congrArg _ ((if_neg hgood).trans ((if_neg (not_not.2 htype)).trans ((if_neg hown).trans (if_neg hroom))))
  case owner =>
    have hfld : fld (s.par 0x301) 23 0 ≠ 0 := by
      have hsame : fld (s.par 0x301) 23 0 = (s.par 0x301).toNat % 2 ^ 24 := by simp [fld, bits]
      rwa [hsame]
    refine ⟨fun hnone => ?_, fun o howner => ?_⟩
    · show execOwnerTimeout s = _
      rw [execOwnerTimeout, hnone]
      simp
    · have hgate : (s.clocked && s.lamp.owner.isSome && decide (fld (s.par 0x301) 23 0 ≠ 0)) = true := by
        rw [hclocked, howner, decide_eq_true hfld]
        rfl
      show execOwnerTimeout s = _
      rw [execOwnerTimeout, if_pos hgate]
      rfl
  case ping => exact congrArg _ (runCmd_eq hstarts _)
  case release => exact congrArg _ (runCmd_eq hstarts _)
  case early =>
    have hrun := fun act => congrArg (Host.Outcome.next (φ := Fault) (ρ := Refusal))
      (runCmd_early hclocked hfirst htype hearly act)
    simp only [List.mem_cons, List.not_mem_nil, or_false] at hr
    rcases hr with rfl | rfl | rfl | rfl | rfl | rfl | rfl | rfl | rfl | rfl | rfl | rfl | rfl | rfl <;> exact hrun _

end Sys2Proof.Machine
end

section
/-!
SUPPORT (chapter 7). What a read of code words of the keeper flash does (R129): what it counts, and what it returns.
-/

namespace Sys2Proof.Machine

theorem countBelow_succ (n : Nat) (p : Nat → Bool) :
    countBelow (n + 1) p = (if p 0 = true then 1 else 0) + countBelow n (fun i => p (i + 1)) := by
  unfold countBelow
  rw [List.range_succ_eq_map, List.filter_cons, List.filter_map, apply_ite List.length, List.length_cons, List.length_map]
  split <;> simp [Function.comp_def, Nat.add_comm]

theorem testBit_maskOf_eq (n : Nat) (p : Nat → Bool) (i : Nat) : (maskOf n p).testBit i = (decide (i < n) && p i) := by
  by_cases hi : i < n
  · rw [testBit_maskOf n p hi, decide_eq_true hi, Bool.true_and]
  · rw [decide_eq_false hi, Bool.false_and]
    exact Nat.testBit_lt_two_pow ((maskOf_lt n p).trans_le (Nat.pow_le_pow_right (by omega) (by omega)))

/-- A bound cuts only once. -/
theorem min_add_min (m a b c : Nat) : Min.min m (Min.min m (a + b) + c) = Min.min m (a + (b + c)) := by omega

section
variable {s t u : State}

theorem State.FlashRead.wordSt (h : s.FlashRead t) (w : Nat) : t.wordSt w = s.wordSt w := by rw [show t = _ from h]; rfl

theorem State.FlashRead.wordDecay (h : s.FlashRead t) (w : Nat) : t.wordDecay w = s.wordDecay w := by
  rw [show t = _ from h]; rfl

theorem State.FlashRead.flashWord (h : s.FlashRead t) (w : Nat) : t.flashWord w = s.flashWord w := by
  rw [show t = _ from h]; rfl

end

/-- The state from which a word is counted: an uncorrectable one has drawn its free bytes. -/
def State.drawn (s : State) (w : Nat) : State := if s.wordDecay w = .fatal then (s.freeBytes 32).2 else s

theorem State.drawn_params (s : State) (w : Nat) : (s.drawn w).params = s.params := by
  unfold State.drawn; split <;> rfl

theorem State.drawn_flash (s : State) (w : Nat) : (s.drawn w).flash = s.flash := by
  unfold State.drawn; split <;> rfl

theorem flashRead_drawn (s : State) (w : Nat) : s.FlashRead (s.drawn w) := by
  unfold State.drawn; split <;> rfl

/-- The bytes that a read of one word gives. -/
def State.readWord (s : State) (w : Nat) : List Byte := if s.wordDecay w = .fatal then (s.freeBytes 32).1 else s.flashWord w

theorem readWords_succ (n w : Nat) (s : State) : readWords (n + 1) w s =
    (s.readWord w ++ (readWords n (w + 1) (countWord w (s.drawn w))).1, (readWords n (w + 1) (countWord w (s.drawn w))).2) := by
  rw [readWords, State.readWord, State.drawn]
  split <;> rfl

theorem params_countWord_sound {s : State} {w : Nat} (h : s.wordDecay w = .sound) : (countWord w s).params = s.params := by
  unfold countWord
  rw [h]

theorem params_countWord_corrected {s : State} {w : Nat} (h : s.wordDecay w = .corrected) :
    (countWord w s).params = (s.count 0x3803 1).params := by
  unfold countWord
  rw [h]
  dsimp only
  rw [apply_ite State.params, State.raise_params]
  exact ite_self _

theorem params_countWord_fatal {s : State} {w : Nat} (h : s.wordDecay w = .fatal) :
    (countWord w s).params = (s.count 0x3804 1).params := by
  unfold countWord
  rw [h]
  exact State.raise_params ..

theorem evt_raise (s : State) (e : Nat) (l : List Byte) :
    (s.raise e l).evt = { s.evt with latches := (s.raise e l).evt.latches } :=
  congrArg State.evt (raise_rest s e l)

theorem evt_countWord (w : Nat) (s : State) : (countWord w s).evt = { s.evt with latches := (countWord w s).evt.latches } := by
  unfold countWord
  split
  · rfl
  · exact iteInduction (motive := fun t : State => t.evt = { s.evt with latches := t.evt.latches })
      (fun _ => evt_raise ..) (fun _ => rfl)
  · exact evt_raise ..

theorem evt_readWords (n w : Nat) (s : State) :
    (readWords n w s).2.evt = { s.evt with latches := (readWords n w s).2.evt.latches } := by
  induction n generalizing w s with
  | zero => rfl
  | succ n ih =>
    have hdrawn : (s.drawn w).evt = s.evt := by unfold State.drawn; split <;> rfl
    rw [readWords_succ, ih, evt_countWord, hdrawn]

theorem readWords_rest (n w : Nat) (s : State) : (readWords n w s).2 = { s with
    params := (readWords n w s).2.params, free := (readWords n w s).2.free
    flash := { s.flash with corrCyc := (readWords n w s).2.flash.corrCyc }
    evt := { s.evt with latches := (readWords n w s).2.evt.latches } } := by
  have hread : s.FlashRead (readWords n w s).2 := (State.FlashRead.refl s).readWords n w
  unfold State.FlashRead at hread
  rw [evt_readWords n w s] at hread
  exact hread

/-- One word adds one to the counter of its class and changes no other parameter. -/
theorem counted_countWord (w : Nat) (s : State) :
    (∀ k, k ≠ 0x3803 → k ≠ 0x3804 → (countWord w s).par k = s.par k) ∧
    ((countWord w s).par 0x3803).toNat = Min.min 0xFFFFFFFF ((s.par 0x3803).toNat + if s.wordDecay w = .corrected then 1 else 0) ∧
    ((countWord w s).par 0x3804).toNat = Min.min 0xFFFFFFFF ((s.par 0x3804).toNat + if s.wordDecay w = .fatal then 1 else 0) := by
  have hmax : ∀ k, (s.par k).toNat = Min.min 0xFFFFFFFF ((s.par k).toNat + 0) := fun k => by
    have := (s.par k).isLt; omega
  have hpar : ∀ {u v : State}, u.params = v.params → ∀ k, u.par k = v.par k := fun h k =>
    congrArg (fun p => tabGet (paramReset k) p k) h
  cases hd : s.wordDecay w
  case sound =>
    have h := hpar (params_countWord_sound hd)
    refine ⟨fun k _ _ => h k, ?_, ?_⟩
    · rw [h]; exact hmax _
    · rw [h]; exact hmax _
  case corrected =>
    have h := hpar (params_countWord_corrected hd)
    refine ⟨fun k hk _ => (h k).trans (State.par_count_ne s 0x3803 k 1 hk), ?_, ?_⟩
    · rw [h]; exact toNat_count s 0x3803 1
    · rw [h, State.par_count_ne s 0x3803 0x3804 1 (by decide)]; exact hmax _
  case fatal =>
    have h := hpar (params_countWord_fatal hd)
    refine ⟨fun k _ hk => (h k).trans (State.par_count_ne s 0x3804 k 1 hk), ?_, ?_⟩
    · rw [h, State.par_count_ne s 0x3804 0x3803 1 (by decide)]; exact hmax _
    · rw [h]; exact toNat_count s 0x3804 1

theorem wordsRead_readWords (n w : Nat) (s : State) : s.WordsRead (readWords n w s).2 w n := by
  induction n generalizing w s with
  | zero =>
    refine ⟨rfl, fun _ _ _ => rfl, ?_, ?_⟩
    · have := (s.par 0x3803).isLt
      exact show (s.par 0x3803).toNat = Min.min 0xFFFFFFFF ((s.par 0x3803).toNat + 0) by omega
    · have := (s.par 0x3804).isLt
      exact show (s.par 0x3804).toNat = Min.min 0xFFFFFFFF ((s.par 0x3804).toNat + 0) by omega
  | succ n ih =>
    have hread := ih (w + 1) (countWord w (s.drawn w))
    have hone : s.FlashRead (countWord w (s.drawn w)) := (flashRead_drawn s w).countWord w
    obtain ⟨hpar, hcor, hfat⟩ := counted_countWord w (s.drawn w)
    have hsame : ∀ k, (s.drawn w).par k = s.par k := fun k => congrArg (fun p => tabGet (paramReset k) p k) (s.drawn_params w)
    have hdecay : (s.drawn w).wordDecay w = s.wordDecay w := (flashRead_drawn s w).wordDecay w
    have hrest : ∀ v : Decay, ((List.range (n + 1)).filter (fun i => decide (s.wordDecay (w + i) = v))).length =
        (if s.wordDecay w = v then 1 else 0) +
          ((List.range n).filter (fun i => decide ((countWord w (s.drawn w)).wordDecay (w + 1 + i) = v))).length := fun v => by
      have h := countBelow_succ n (fun i => decide (s.wordDecay (w + i) = v))
      simp only [decide_eq_true_eq, Nat.add_zero] at h
      rw [countBelow] at h
      rw [h, countBelow]
      simp only [hone.wordDecay, Nat.add_assoc, Nat.add_comm 1]
    refine ⟨readWords_rest (n + 1) w s, fun k hk hk' => ?_, ?_, ?_⟩ <;> rw [readWords_succ]
    · rw [hread.params k hk hk', hpar k hk hk', hsame]
    · rw [hread.corrected, hcor, hsame, hdecay, min_add_min, hrest]
    · rw [hread.fatal, hfat, hsame, hdecay, min_add_min, hrest]

theorem length_readWord (s : State) (w : Nat) : (s.readWord w).length = 32 := by
  unfold State.readWord State.freeBytes State.flashWord flashBytes
  split <;> simp

theorem length_readWords (n w : Nat) (s : State) : (readWords n w s).1.length = 32 * n := by
  induction n generalizing w s with
  | zero => rfl
  | succ n ih => rw [readWords_succ, List.length_append, ih, length_readWord]; omega

theorem slice_append_left {a : List Byte} {off n : Nat} (h : off + n ≤ a.length) (b : List Byte) :
    slice (a ++ b) off n = slice a off n := by
  unfold slice
  rw [List.drop_append_of_le_length (by omega), List.take_append_of_le_length (by rw [List.length_drop]; omega)]

theorem slice_append_right {a : List Byte} {off : Nat} (h : a.length ≤ off) (b : List Byte) (n : Nat) :
    slice (a ++ b) off n = slice b (off - a.length) n := by
  unfold slice
  rw [List.drop_append, List.drop_eq_nil_of_le h, List.nil_append]

/-- A readable word gives its stored bytes (R129). -/
theorem slice_readWords {n i : Nat} (hi : i < n) (w : Nat) (s : State) (hsound : s.wordDecay (w + i) ≠ .fatal) :
    slice (readWords n w s).1 (32 * i) 32 = s.flashWord (w + i) := by
  induction n generalizing w s i with
  | zero => omega
  | succ n ih =>
    have hone : s.FlashRead (countWord w (s.drawn w)) := (flashRead_drawn s w).countWord w
    have hlen := length_readWord s w
    rw [readWords_succ]
    cases i with
    | zero =>
      rw [slice_append_left (by omega), State.readWord, if_neg (show s.wordDecay w ≠ .fatal from hsound), slice]
      exact List.take_of_length_le (by simp [State.flashWord, flashBytes])
    | succ i =>
      have hnext : w + (i + 1) = w + 1 + i := by omega
      rw [slice_append_right (by omega), hlen, show 32 * (i + 1) - 32 = 32 * i by omega,
        ih (by omega) (w + 1) _ (by rw [hone.wordDecay, ← hnext]; exact hsound), hone.flashWord, hnext]

theorem firstBelow_eq_none {n : Nat} {p : Nat → Bool} : firstBelow n p = none ↔ ∀ i < n, p i = false := by
  unfold firstBelow
  rw [List.find?_eq_none]
  simp [List.mem_range]

theorem firstBelow_eq_some {n : Nat} {p : Nat → Bool} {i : Nat} (hi : i < n) (hp : p i = true) (hfirst : ∀ j < i, p j = false) :
    firstBelow n p = some i := by
  unfold firstBelow
  rw [List.find?_range_eq_some]
  exact ⟨hp, List.mem_range.2 hi, fun j hj => by rw [hfirst j hj]; rfl⟩

theorem firstFatal_eq_none {s : State} {w n : Nat} : s.firstFatal w n = none ↔ ∀ i < n, s.wordDecay (w + i) ≠ .fatal := by
  unfold State.firstFatal
  rw [firstBelow_eq_none]
  simp

theorem firstFatal_eq_some {s : State} {w n i : Nat} (hi : i < n) (hbad : s.wordDecay (w + i) = .fatal)
    (hfirst : ∀ j < i, s.wordDecay (w + j) ≠ .fatal) : s.firstFatal w n = some i :=
  firstBelow_eq_some hi (decide_eq_true hbad) (fun j hj => decide_eq_false (hfirst j hj))

end Sys2Proof.Machine
end

section
/-!
PROOF of O35 (chapter 7): the flash messages, what they refuse, and what programs and erases leave in the flash.
-/

namespace Sys2Proof.Machine

theorem wordsOk_iff (a n limit : Nat) : wordsOk a n limit = true ↔
    a % 32 = 0 ∧ 1 ≤ n ∧ n ≤ limit ∧ a < 0x08000000 ∧ a % 65536 + 32 * n ≤ 65536 := by
  unfold wordsOk
  exact decide_eq_true_iff

theorem sectorProtected_iff (s : State) (sec : Nat) : s.sectorProtected sec = true ↔
    sec = 2 ∨ sec = 3 ∨ (s.board.straps.getLsbD 2 = true ∧ sec < 4) := by
  unfold State.sectorProtected State.flashWp hasBit
  simp [or_assoc]

/-! ### FLASH_READ (R129) -/

section
variable {s : State} {c : Cmd}

theorem flashRead_range (h : wordsOk (leAt c.body 0 4) (leAt c.body 4 2) 32 = false) : flashRead c s = respond c 9 [] s := by
  unfold flashRead; exact if_pos (by simp [h])

theorem flashRead_busy (h : wordsOk (leAt c.body 0 4) (leAt c.body 4 2) 32 = true)
    (hbusy : leAt c.body 0 4 / 65536 ∈ s.writingSectors) : flashRead c s = respond c 0x0A [] s := by
  unfold flashRead
  exact (if_neg (by simp [h])).trans (if_pos (List.contains_iff_mem.2 hbusy))

theorem flashRead_reads (h : wordsOk (leAt c.body 0 4) (leAt c.body 4 2) 32 = true)
    (hfree : leAt c.body 0 4 / 65536 ∉ s.writingSectors) : flashRead c s =
      (let n := leAt c.body 4 2
       let w := leAt c.body 0 4 / 32
       let p := readWords n w s
       respond c (if (s.firstFatal w n).isSome then stFlashEcc else stSuccess)
        (leBytes 2 n ++ leBytes 2 (countBelow n (fun i => decide (s.wordDecay (w + i) = .corrected))) ++
          leBytes 2 ((s.firstFatal w n).getD 0xFFFF) ++ [0, 0] ++ leBytes 4 (s.wordMap w n .blank) ++
          leBytes 4 (s.wordMap w n .torn) ++ p.1) p.2) := by
  unfold flashRead
  exact (if_neg (by simp [h])).trans (if_neg (fun hc => hfree (List.contains_iff_mem.1 hc)))

theorem firstFatal_lt {w n i : Nat} (h : s.firstFatal w n = some i) : i < n :=
  List.mem_range.1 (List.mem_of_find?_eq_some h)

/-- The status of a read says whether a word is uncorrectable: no index of one reaches 0xFFFF. -/
theorem status_firstFatal {w n : Nat} (hn : n ≤ 32) :
    (if (s.firstFatal w n).isSome then stFlashEcc else stSuccess) = if (s.firstFatal w n).getD 0xFFFF = 0xFFFF then 0 else 0x14 := by
  cases h : s.firstFatal w n with
  | none => rfl
  | some i =>
    have := firstFatal_lt h
    rw [Option.getD_some, if_neg (show i ≠ 0xFFFF by omega)]
    rfl

theorem testBit_wordMap (w n : Nat) (st : WordSt) (i : Nat) :
    (s.wordMap w n st).testBit i = decide (i < n ∧ s.wordSt (w + i) = st) := by
  rw [State.wordMap, testBit_maskOf_eq, Bool.decide_and]

end

/-! ### Programs (R127) -/

section
variable {s : State} {c : Cmd}

theorem flashProgram_range (h : wordsOk (leAt c.body 0 4) (leAt c.body 4 2) 16 = false) : flashProgram c s = respond c 9 [] s := by
  unfold flashProgram; exact if_pos (by simp [h])

variable (hok : wordsOk (leAt c.body 0 4) (leAt c.body 4 2) 16 = true)
include hok

theorem flashProgram_busy (h : s.flash.op ≠ none ∨ s.sectorInUse (leAt c.body 0 4 / 65536) = true) :
    flashProgram c s = respond c 0x0A [] s := by
  unfold flashProgram
  exact (if_neg (by simp [hok])).trans (if_pos (by simpa [Option.isSome_iff_ne_none] using h))

variable (hop : s.flash.op = none) (hfree : s.sectorInUse (leAt c.body 0 4 / 65536) = false)
include hop hfree

theorem flashProgram_protected (h : s.sectorProtected (leAt c.body 0 4 / 65536) = true) : flashProgram c s = respond c 0x10 [] s := by
  unfold flashProgram
  exact (if_neg (by simp [hok])).trans ((if_neg (by simp [hop, hfree])).trans (if_pos h))

variable (hguard : s.sectorProtected (leAt c.body 0 4 / 65536) = false)
include hguard

theorem flashProgram_double {i : Nat} (hi : i < leAt c.body 4 2) (h : s.wordSt (leAt c.body 0 4 / 32 + i) ≠ .blank)
    (hfirst : ∀ j < i, s.wordSt (leAt c.body 0 4 / 32 + j) = .blank) :
    flashProgram c s = respond c 0x11 (leBytes 2 i ++ [0, 0]) s := by
  have hfind : firstBelow (leAt c.body 4 2) (fun i => decide (s.wordSt (leAt c.body 0 4 / 32 + i) ≠ .blank)) = some i :=
    firstBelow_eq_some hi (decide_eq_true h) (fun j hj => decide_eq_false (not_not_intro (hfirst j hj)))
  unfold flashProgram
  rw [if_neg (by simp [hok]), if_neg (by simp [hop, hfree]), if_neg (by simp [hguard])]
  dsimp only
  rw [hfind]
  rfl

theorem flashProgram_starts (h : ∀ i < leAt c.body 4 2, s.wordSt (leAt c.body 0 4 / 32 + i) = .blank) :
    flashProgram c s = { s.begun c with flash := { s.flash with op := some (.program c (leAt c.body 0 4) (c.body.drop 8)) } } := by
  have hfind : firstBelow (leAt c.body 4 2) (fun i => decide (s.wordSt (leAt c.body 0 4 / 32 + i) ≠ .blank)) = none :=
    firstBelow_eq_none.2 (fun i hi => decide_eq_false (not_not_intro (h i hi)))
  unfold flashProgram
  rw [if_neg (by simp [hok]), if_neg (by simp [hop, hfree]), if_neg (by simp [hguard])]
  dsimp only
  rw [hfind]
  rfl

end

/-- What a flash byte reads as after a run of bytes was written. -/
theorem flashByte_flashPut (m : Memory) (a : Nat) (l : List Byte) (y : Nat) :
    flashByte (flashPut m a l) y = if a ≤ y ∧ y < a + l.length then byteAt l (y - a) else flashByte m y := by
  induction l generalizing m a with
  | nil => exact (if_neg (by rw [List.length_nil]; omega)).symm
  | cons b l ih =>
    rw [flashPut, ih, List.length_cons]
    by_cases hin : a + 1 ≤ y ∧ y < a + 1 + l.length
    · rw [if_pos hin, if_pos (by omega), show y - a = y - (a + 1) + 1 by omega]
      rfl
    · rw [if_neg hin, flashByte, tabGet_tabSet]
      by_cases ha : y = a
      · rw [if_pos ha, if_pos (by omega), ha, Nat.sub_self]
        rfl
      · rw [if_neg ha, if_neg (by omega)]
        rfl

theorem byteAt_take {l : List Byte} {i n : Nat} (h : i < n) : byteAt (l.take n) i = byteAt l i := by
  unfold byteAt
  rw [List.getD_eq_getElem?_getD, List.getElem?_take_of_lt h, List.getD_eq_getElem?_getD]

/-- What the flash holds after the words from `w` on were programmed with `d` (R127). -/
structure State.Programmed (s t : State) (w n : Nat) (d : List Byte) : Prop where
  rest  : t = { s with flash := { s.flash with data := t.flash.data, words := t.flash.words, decay := t.flash.decay } }
  words : ∀ i, t.wordSt i = if w ≤ i ∧ i < w + n then .programmed else s.wordSt i
  decay : ∀ i, tabGet .sound t.flash.decay i = if w ≤ i ∧ i < w + n then .sound else tabGet .sound s.flash.decay i
  bytes : ∀ y, flashByte t.flash.data y = if w * 32 ≤ y ∧ y < (w + n) * 32 then byteAt d (y - w * 32) else flashByte s.flash.data y

theorem programmed_putWord (s : State) (w : Nat) {d : List Byte} (hlen : d.length = 32) : s.Programmed (putWord w d s) w 1 d := by
  have hset : ∀ {α : Type} [DecidableEq α] (e v : α) (m : Tab α) (i : Nat),
      tabGet e (tabSet e m w v) i = if w ≤ i ∧ i < w + 1 then v else tabGet e m i := fun e v m i =>
    (tabGet_tabSet e m w i v).trans (if_congr (by omega) rfl rfl)
  refine ⟨rfl, hset _ _ _, hset _ _ _, fun y => ?_⟩
  show flashByte (flashPut s.flash.data (32 * w) ((d ++ List.replicate 32 0xFF).take 32)) y = _
  rw [List.take_append_of_le_length hlen.ge, List.take_of_length_le hlen.le, flashByte_flashPut, hlen,
    show 32 * w = w * 32 by omega]
  exact if_congr (by omega) rfl rfl

/-- A key and the run of keys behind it make one run. -/
theorem ite_next_run {α : Type} (w n i : Nat) (v x : α) :
    (if w + 1 ≤ i ∧ i < w + 1 + n then v else if w ≤ i ∧ i < w + 1 then v else x) = if w ≤ i ∧ i < w + (n + 1) then v else x := by
  by_cases h : w ≤ i ∧ i < w + (n + 1)
  · rw [if_pos h, ite_eq_left_iff]
    exact fun h' => if_pos (by omega)
  · rw [if_neg h, if_neg (by omega), if_neg (by omega)]

theorem programmed_putWords {s : State} {n w : Nat} {d : List Byte} (hlen : 32 * n ≤ d.length) :
    s.Programmed (putWords n w d s) w n d := by
  induction n generalizing w d s with
  | zero =>
    refine ⟨rfl, fun i => (if_neg (by omega)).symm, fun i => (if_neg (by omega)).symm, fun y => (if_neg (by omega)).symm⟩
  | succ n ih =>
    have hone := programmed_putWord s w (d := d.take 32) (by rw [List.length_take]; omega)
    have hmore := ih (s := putWord w (d.take 32) s) (w := w + 1) (d := d.drop 32) (by rw [List.length_drop]; omega)
    rw [putWords]
    refine ⟨?_, fun i => ?_, fun i => ?_, fun y => ?_⟩
    · have h := hmore.rest
      rw [hone.rest] at h
      exact h
    · rw [hmore.words, hone.words, ite_next_run]
    · rw [hmore.decay, hone.decay, ite_next_run]
    · rw [hmore.bytes, hone.bytes, byteAt_drop]
      by_cases hfirst : w * 32 ≤ y ∧ y < (w + 1) * 32
      · rw [if_neg (by omega), if_pos hfirst, if_pos (by omega), byteAt_take (by omega)]
      · rw [if_neg hfirst]
        by_cases hin : (w + 1) * 32 ≤ y ∧ y < (w + 1 + n) * 32
        · rw [if_pos hin, if_pos (by omega), show 32 + (y - (w + 1) * 32) = y - w * 32 by omega]
        · rw [if_neg hin, if_neg (by omega)]

theorem exec_flashProgramDone {s : State} (hclk : s.clocked = true) {k : Cmd} {x : Nat} {d : List Byte}
    (hop : s.flash.op = some (.program k x d)) : exec .flashProgramDone s = .next (respond k 0 [0xFF, 0xFF, 0, 0]
      (putWords (d.length / 32) (x / 32) d { s with flash := { s.flash with op := none } })) := by
  show Host.Outcome.next _ = _
  rw [hop]
  exact congrArg _ (if_neg (by simp [hclk]))

/-! ### Erases (R128, R134) -/

section
variable {s : State} {c : Cmd}

theorem flashErase_range (h : 2047 < leAt c.body 0 2) : flashErase c s = respond c 9 [] s := by
  unfold flashErase; exact if_pos h

variable (hok : leAt c.body 0 2 ≤ 2047)
include hok

theorem flashErase_busy (h : s.flash.op ≠ none ∨ s.sectorInUse (leAt c.body 0 2) = true) : flashErase c s = respond c 0x0A [] s := by
  unfold flashErase
  exact (if_neg (by omega)).trans (if_pos (by simpa [Option.isSome_iff_ne_none] using h))

variable (hop : s.flash.op = none) (hfree : s.sectorInUse (leAt c.body 0 2) = false)
include hop hfree

theorem flashErase_protected (h : s.sectorProtected (leAt c.body 0 2) = true) : flashErase c s = respond c 0x10 [] s := by
  unfold flashErase
  exact (if_neg (by omega)).trans ((if_neg (by simp [hop, hfree])).trans (if_pos h))

theorem flashErase_starts (h : s.sectorProtected (leAt c.body 0 2) = false) :
    flashErase c s = { s.begun c with flash := { s.flash with op := some (.erase c (leAt c.body 0 2)) } } := by
  unfold flashErase
  exact (if_neg (by omega)).trans ((if_neg (by simp [hop, hfree])).trans (if_neg (by simp [h])))

end

/-- The words of a sector are blank, before the erase is counted. -/
def blankSector (sec : Nat) (s : State) : State :=
  { s with flash := { s.flash with
      data := flashBlank s.flash.data (65536 * sec) 65536
      words := tabClear s.flash.words (2048 * sec) 2048
      decay := tabClear s.flash.decay (2048 * sec) 2048 } }

/-- The erase count of a sector, one higher, before event 0xD3. -/
def State.aged (s : State) (sec : Nat) : State :=
  { s with flash := { s.flash with erases := tabSet 0 s.flash.erases sec (tabGet 0 s.flash.erases sec + 1) } }

theorem eraseSector_eq (sec : Nat) (s : State) : eraseSector sec s = countErase sec (blankSector sec s) := rfl

theorem countErase_eq (sec : Nat) (s : State) : countErase sec s =
    if tabGet 0 s.flash.erases sec + 1 = 20000 then
      (s.aged sec).raise 0xD3 (leBytes 2 sec ++ [0, 0] ++ leBytes 4 (tabGet 0 s.flash.erases sec + 1))
    else s.aged sec := rfl

theorem erases_countErase (sec : Nat) (s : State) :
    tabGet 0 (countErase sec s).flash.erases sec = tabGet 0 s.flash.erases sec + 1 := by
  have hflash : (countErase sec s).flash = (s.aged sec).flash := by
    rw [countErase_eq, apply_ite State.flash, State.raise_flash]
    exact ite_self _
  rw [hflash]
  exact tabGet_tabSet_same _ _ _ _

/-- What an erase of a sector, whole or in part, does to the flash: only the sector changes, and only bits that rise. -/
structure State.SectorWritten (s t : State) (sec : Nat) : Prop where
  rest    : t = { s with free := t.free, flash := { s.flash with data := t.flash.data, words := t.flash.words, decay := t.flash.decay } }
  words   : ∀ i, i < 2048 * sec ∨ 2048 * sec + 2048 ≤ i → t.wordSt i = s.wordSt i
  bytes   : ∀ y, y < 65536 * sec ∨ 65536 * sec + 65536 ≤ y → flashByte t.flash.data y = flashByte s.flash.data y
  rises   : ∀ y, flashByte s.flash.data y &&& flashByte t.flash.data y = flashByte s.flash.data y

theorem wordSt_blankSector (sec : Nat) (s : State) (i : Nat) :
    (blankSector sec s).wordSt i = if 2048 * sec ≤ i ∧ i < 2048 * sec + 2048 then .blank else s.wordSt i :=
  tabGet_tabClear ..

theorem flashByte_blankSector (sec : Nat) (s : State) (y : Nat) : flashByte (blankSector sec s).flash.data y =
    if 65536 * sec ≤ y ∧ y < 65536 * sec + 65536 then 0xFF else flashByte s.flash.data y :=
  tabGet_tabClear ..

theorem sectorWritten_blankSector (sec : Nat) (s : State) : s.SectorWritten (blankSector sec s) sec where
  rest := rfl
  words i hi := by rw [wordSt_blankSector, if_neg (by omega)]
  bytes y hy := by rw [flashByte_blankSector, if_neg (by omega)]
  rises y := by
    rw [flashByte_blankSector]
    split
    · exact BitVec.and_allOnes
    · exact BitVec.and_self

theorem sectorWritten_partErase (sec : Nat) (s : State) : s.SectorWritten (partErase sec s) sec where
  rest := rfl
  words i hi := (tabGet_tabBlock ..).trans (if_neg (by omega))
  bytes y hy := (tabGet_tabBlock ..).trans (if_neg (by omega))
  rises y := by
    have hor : ∀ b x : Byte, b &&& (b ||| x) = b := fun b x => by
      ext i hi
      rw [BitVec.getElem_and, BitVec.getElem_or]
      cases b[i] <;> rfl
    unfold partErase
    dsimp only
    rw [flashByte, flashByte, tabGet_tabBlock]
    split
    · next hin =>
      rw [show 65536 * sec + (y - 65536 * sec) = y by omega]
      split
      · exact BitVec.and_self
      · exact BitVec.and_allOnes
      · exact hor _ _
    · exact BitVec.and_self

theorem exec_flashEraseDone {s : State} (hclk : s.clocked = true) {k : Cmd} {sec : Nat}
    (hop : s.flash.op = some (.erase k sec)) (clean : Bool) : exec (.flashEraseDone clean) s = .next
      (let u : State := { s with flash := { s.flash with op := none } }
       let t := if clean then eraseSector sec u else failErase sec u
       respond k (if clean then stSuccess else stEraseFail) (leBytes 4 (tabGet 0 t.flash.erases sec)) t) := by
  show Host.Outcome.next _ = _
  rw [hop]
  exact congrArg _ (if_neg (by simp [hclk]))

theorem sectorInUse_user {s : State} (h : s.user = true) (x : Nat) : s.sectorInUse x = true ↔
    (s.journalValid = true ∧ x = s.journalBlock) ∨ s.inImage x = true := by
  unfold State.sectorInUse
  rw [if_pos h]
  simp

/-- FLASH_READ of words that may be read returns them all, with its counts and maps (R129). -/
theorem flashRead_returns {u : State} {c : Cmd} {w n : Nat} (hw : w = leAt c.body 0 4 / 32) (hn : n = leAt c.body 4 2)
    (hok : wordsOk (leAt c.body 0 4) (leAt c.body 4 2) 32 = true) (hfree : leAt c.body 0 4 / 65536 ∉ u.writingSectors) :
    ∃ (t : State) (d : List Byte) (first blank torn : Nat),
      u.WordsRead t w n ∧ d.length = 32 * n ∧ (∀ i < n, u.wordDecay (w + i) ≠ .fatal → slice d (32 * i) 32 = u.flashWord (w + i)) ∧
      (∀ i < n, u.wordDecay (w + i) = .fatal → (∀ j < i, u.wordDecay (w + j) ≠ .fatal) → first = i) ∧
      ((∀ i < n, u.wordDecay (w + i) ≠ .fatal) → first = 0xFFFF) ∧
      (∀ i, blank.testBit i = decide (i < n ∧ u.wordSt (w + i) = .blank)) ∧
      (∀ i, torn.testBit i = decide (i < n ∧ u.wordSt (w + i) = .torn)) ∧
      flashRead c u = respond c (if first = 0xFFFF then 0 else 0x14)
        (leBytes 2 n ++ leBytes 2 ((List.range n).filter (fun i => decide (u.wordDecay (w + i) = .corrected))).length ++
          leBytes 2 first ++ [0, 0] ++ leBytes 4 blank ++ leBytes 4 torn ++ d) t := by
  subst hw hn
  obtain ⟨-, -, hn, -, -⟩ := (wordsOk_iff ..).1 hok
  refine ⟨_, _, (u.firstFatal (leAt c.body 0 4 / 32) (leAt c.body 4 2)).getD 0xFFFF, _, _, wordsRead_readWords _ _ u,
    length_readWords _ _ u, fun i hi => slice_readWords hi _ u, fun i hi hbad hfirst => ?_, fun hgood => ?_,
    testBit_wordMap _ _ _, testBit_wordMap _ _ _, ?_⟩
  · rw [firstFatal_eq_some hi hbad hfirst, Option.getD_some]
  · rw [firstFatal_eq_none.2 hgood, Option.getD_none]
  · rw [flashRead_reads hok hfree, ← status_firstFatal hn]
    rfl

/-- The end of an erase: the sector as `SectorWritten` says, its count one higher, the events and the response (R128). -/
theorem exec_flashEraseDone_ends {s : State} (hclk : s.clocked = true) {k : Cmd} {sec : Nat}
    (hop : s.flash.op = some (.erase k sec)) (clean : Bool) {e : State}
    (he : e = (if clean = true then blankSector sec { s with flash := { s.flash with op := none } }
      else partErase sec { s with flash := { s.flash with op := none } })) (hcount : e.flash.erases = s.flash.erases) :
    let times := tabGet 0 s.flash.erases sec + 1
    let worn := if times = 20000 then (e.aged sec).raise 0xD3 (leBytes 2 sec ++ [0, 0] ++ leBytes 4 times) else e.aged sec
    exec (.flashEraseDone clean) s = .next (respond k (if clean = true then 0 else 0x13) (leBytes 4 times)
      (if clean = true then worn else worn.raise 0xD2 (leBytes 2 sec))) := by
  intro times worn
  have hworn : countErase sec e = worn := by rw [countErase_eq, hcount]
  have herases : tabGet 0 worn.flash.erases sec = times := by rw [← hworn, erases_countErase, hcount]
  rw [exec_flashEraseDone hclk hop]
  dsimp only
  cases clean with
  | true =>
    rw [if_pos rfl] at he
    rw [if_pos rfl, if_pos rfl, if_pos rfl, if_pos rfl, eraseSector_eq, ← he, hworn, herases]
    rfl
  | false =>
    rw [if_neg Bool.false_ne_true] at he
    rw [if_neg Bool.false_ne_true, if_neg Bool.false_ne_true, if_neg Bool.false_ne_true, if_neg Bool.false_ne_true, failErase, ← he,
      hworn, State.raise_flash, herases]
    rfl

/-- Settles O35: the refusals are the branches of each message; a read goes word by word, a program by the run of words, an
erase by its sector. -/
theorem flashIsReadProgrammedAndErased : Obligations.FlashIsReadProgrammedAndErased := by
  intro s c ups
  have hwords : ∀ limit, wordsOk (leAt c.body 0 4) (leAt c.body 4 2) limit = true ↔ _ := wordsOk_iff _ _
  refine ⟨fun hst => ?_, fun hst => ?_, fun k x d hclk hop => ?_, fun hst => ?_, fun k x clean hclk hop => ?_,
    fun huser => sectorInUse_user huser⟩
  · have hrun : exec (.flashRead c.via ups) s = .next (flashRead c (noteFlash ups s)) := congrArg _ (runCmd_eq hst _)
    refine ⟨fun h => ?_, fun h hbusy => ?_, fun h hfree => ?_⟩
    · exact hrun.trans (congrArg _ (flashRead_range (Bool.eq_false_iff.2 fun hw => h ((hwords 32).1 hw))))
    · exact hrun.trans (congrArg _ (flashRead_busy ((hwords 32).2 h) hbusy))
    · obtain ⟨t, d, first, blank, torn, hread, hlen, hdata, hfirst, hnone, hblank, htorn, heq⟩ :=
        flashRead_returns (u := noteFlash ups s) rfl rfl ((hwords 32).2 h) hfree
      exact ⟨t, d, first, blank, torn, hread, hlen, hdata, hfirst, hnone, hblank, htorn, hrun.trans (congrArg _ heq)⟩
  · have hrun : exec (.flashProgram c.via) s = .next (flashProgram c s) := congrArg _ (runCmd_eq hst _)
    refine ⟨fun h => ?_, fun h => ?_⟩
    · exact hrun.trans (congrArg _ (flashProgram_range (Bool.eq_false_iff.2 fun hw => h ((hwords 16).1 hw))))
    · have hok := (hwords 16).2 h
      refine ⟨fun hbusy => hrun.trans (congrArg _ (flashProgram_busy hok hbusy)), fun hop hfree => ⟨fun hg => ?_, fun hg => ?_⟩⟩
      · exact hrun.trans (congrArg _ (flashProgram_protected hok hop hfree ((sectorProtected_iff ..).2 hg)))
      · have hguard := Bool.eq_false_iff.2 fun hp => hg ((sectorProtected_iff s _).1 hp)
        exact ⟨fun i hi hbad hfirst => hrun.trans (congrArg _ (flashProgram_double hok hop hfree hguard hi hbad hfirst)),
          fun hblank => hrun.trans (congrArg _ (flashProgram_starts hok hop hfree hguard hblank))⟩
  · have hdone := programmed_putWords (s := { s with flash := { s.flash with op := none } }) (n := d.length / 32) (w := x / 32)
      (d := d) (by omega)
    exact ⟨_, exec_flashProgramDone hclk hop, hdone.rest, hdone.words, hdone.decay, hdone.bytes⟩
  · have hrun : exec (.flashErase c.via) s = .next (flashErase c s) := congrArg _ (runCmd_eq hst _)
    refine ⟨fun h => hrun.trans (congrArg _ (flashErase_range h)), fun hok => ⟨fun hbusy => ?_, fun hop hfree => ⟨fun hg => ?_,
      fun hg => ?_⟩⟩⟩
    · exact hrun.trans (congrArg _ (flashErase_busy hok hbusy))
    · exact hrun.trans (congrArg _ (flashErase_protected hok hop hfree ((sectorProtected_iff ..).2 hg)))
    · have hguard := Bool.eq_false_iff.2 fun hp => hg ((sectorProtected_iff s _).1 hp)
      exact hrun.trans (congrArg _ (flashErase_starts hok hop hfree hguard))
  · cases clean with
    | true =>
      have hsec := sectorWritten_blankSector x { s with flash := { s.flash with op := none } }
      refine ⟨(blankSector x { s with flash := { s.flash with op := none } }).aged x,
        exec_flashEraseDone_ends hclk hop true (if_pos rfl).symm rfl, rfl, hsec.words, hsec.bytes, fun _ => ⟨fun i hi => ?_, fun y hy => ?_⟩,
        hsec.rises⟩
      · exact (wordSt_blankSector ..).trans (if_pos (by omega))
      · exact (flashByte_blankSector ..).trans (if_pos (by omega))
    | false =>
      have hsec := sectorWritten_partErase x { s with flash := { s.flash with op := none } }
      exact ⟨(partErase x { s with flash := { s.flash with op := none } }).aged x,
        exec_flashEraseDone_ends hclk hop false (if_neg Bool.false_ne_true).symm rfl, rfl, hsec.words, hsec.bytes,
        fun h => absurd h Bool.false_ne_true, hsec.rises⟩

end Sys2Proof.Machine
end

section
/-!
PROOF of O36 (R125, R130, R131, R133): FLASH_SWAP, its plan, and what each step of it does.
-/

namespace Sys2Proof.Machine

/-! ### The command -/

section
variable {s : State} {c : Cmd}

theorem flashSwap_range (h : 1 < leAt c.body 0 1) : flashSwap c s = respond c 9 [] s := by
  unfold flashSwap; exact if_pos h

variable (hok : leAt c.body 0 1 ≤ 1)
include hok

theorem flashSwap_busy (h : s.flash.op ≠ none ∨ s.kin.journalOk = false) : flashSwap c s = respond c 0x0A [] s := by
  unfold flashSwap
  exact (if_neg (by omega)).trans (if_pos (by simpa [Option.isSome_iff_ne_none] using h))

variable (hop : s.flash.op = none) (hjournal : s.kin.journalOk = true)
include hop hjournal

theorem flashSwap_protected (h : s.board.straps.getLsbD 2 = true) : flashSwap c s = respond c 0x10 [] s := by
  unfold flashSwap
  exact (if_neg (by omega)).trans ((if_neg (by simp [hop, hjournal])).trans (if_pos h))

variable (hwp : s.board.straps.getLsbD 2 = false)
include hwp

/-- A swap that passes its checks reads the boot record of its block first. -/
theorem flashSwap_reads {b : Nat} {t : State} (hb : leAt c.body 0 1 = b) (ht : (readWords 8 (2048 * b) s).2 = t) :
    flashSwap c s = (
     if ((s.firstFatal (2048 * b) 8).isSome || decide (s.bootRecord b ≠ 0)) = true then respond c 0x12 [] t
     else if swapPlan t b = [] then respond c 0 (swapBody false t) t
     else { t.begun c with flash := { t.flash with op := some (.swap c b) } }) := by
  subst hb ht
  have hfree : (s.flash.op.isSome || !s.kin.journalOk) = false := by simp [hop, hjournal]
  have hflash : s.flashWp = false := hwp
  unfold flashSwap
  dsimp only
  rw [if_neg (Nat.not_lt.2 hok), hfree, if_neg Bool.false_ne_true, hflash, if_neg Bool.false_ne_true]
  generalize (readWords 8 _ s).2 = t
  rfl

end

theorem badBoot_iff (s : State) (b : Nat) : ((s.firstFatal (2048 * b) 8).isSome || decide (s.bootRecord b ≠ 0)) = true ↔
    (∃ i < 8, s.wordDecay (2048 * b + i) = .fatal) ∨ s.bootRecord b ≠ 0 := by
  rw [Bool.or_eq_true, decide_eq_true_iff, Option.isSome_iff_ne_none, ne_eq, firstFatal_eq_none]
  push Not
  rfl

theorem exec_flashSwapDone {s : State} (hclk : s.clocked = true) {k : Cmd} {b : Nat} (hop : s.flash.op = some (.swap k b))
    (clean : Bool) : exec (.flashSwapDone clean) s = .next
      (let idle : State := { s with flash := { s.flash with op := none } }
       let r := journalSteps clean (swapPlan idle b) idle
       respond k r.1 (swapBody (rolledIn (swapPlan idle b) r.2) r.2) r.2) := by
  show Host.Outcome.next _ = _
  rw [hop]
  exact congrArg _ (if_neg (by simp [hclk]))

/-! ### The plan (R133) -/

theorem swapPlan_none {s : State} (h : s.selection = none) (b : Nat) : swapPlan s b =
    (if s.notBlank 2 = true then [.erase 2] else []) ++ (if s.notBlank 3 = true then [.erase 3] else []) ++ [.put 2 0 1 b] := by
  unfold swapPlan
  rw [h]
  dsimp only
  rw [List.filter_cons, List.filter_cons, List.filter_nil]
  cases s.notBlank 2 <;> cases s.notBlank 3 <;> rfl

section
variable {s : State} {x : Selection} (h : s.selection = some x) {b : Nat}
include h

theorem swapPlan_same (hb : x.block = b) : swapPlan s b = [] := by
  unfold swapPlan
  rw [h]
  exact if_pos hb

theorem swapPlan_full (hb : x.block ≠ b) (hk : s.nextFree x.sec x.word = 2048) :
    swapPlan s b = rollover s x.sec x.seq x.block ++ [.put (5 - x.sec) 1 (x.seq + 2) b] := by
  unfold swapPlan
  rw [h]
  exact (if_neg hb).trans (if_pos hk)

theorem swapPlan_room (hb : x.block ≠ b) (hk : s.nextFree x.sec x.word ≠ 2048) :
    swapPlan s b = .put x.sec (s.nextFree x.sec x.word) (x.seq + 1) b ::
      if s.nextFree x.sec (s.nextFree x.sec x.word) = 2048 then rollover s x.sec (x.seq + 1) b else [] := by
  unfold swapPlan
  rw [h]
  exact (if_neg hb).trans (if_neg hk)

end

/-! ### The steps -/

theorem journalSteps_go {clean : Bool} {j : JournalStep} {s : State} (h : (journalStep clean j s).1 = 0) (r : List JournalStep) :
    journalSteps clean (j :: r) s = journalSteps clean r (journalStep clean j s).2 := by
  rw [journalSteps]
  split
  · next t heq => rw [heq]
  · next hne => exact (hne _ (Prod.ext h rfl)).elim

theorem journalSteps_stop {clean : Bool} {j : JournalStep} {s : State} (h : (journalStep clean j s).1 ≠ 0) (r : List JournalStep) :
    journalSteps clean (j :: r) s = journalStep clean j s := by
  rw [journalSteps]
  split
  · next t heq => rw [heq] at h; exact absurd rfl h
  · rfl

theorem journalStep_put_full {s : State} {sec word : Nat} (h : s.wordSt (2048 * sec + word) ≠ .blank) (clean : Bool) (seq b : Nat) :
    journalStep clean (.put sec word seq b) s = (0x11, s) := if_pos h

theorem journalStep_put {s : State} {sec word : Nat} (h : s.wordSt (2048 * sec + word) = .blank) (clean : Bool) (seq b : Nat) :
    journalStep clean (.put sec word seq b) s =
      (0, recordJournal (some { seq := seq, block := b, sec := sec, word := word })
        (putWord (2048 * sec + word) (journalEntry b seq) s)) := if_neg (not_not_intro h)

theorem status_journalStep_erase (clean : Bool) (sec : Nat) (s : State) :
    (journalStep clean (.erase sec) s).1 = 0 ∨ (journalStep clean (.erase sec) s).1 = 0x13 := by
  unfold journalStep
  dsimp only
  split
  · exact .inr rfl
  · exact .inl rfl

/-! ### A new entry is valid (R131, Table 7.6) -/

/-- The bytes of an entry before its CRC. -/
def entryHead (block seq : Nat) : List Byte :=
  [0x4A, 0x4E, BitVec.ofNat 8 block, ~~~(BitVec.ofNat 8 block)] ++ leBytes 4 seq ++
    leBytes 4 (2 ^ 32 - 1 - seq) ++ List.replicate 16 0

theorem journalEntry_eq (block seq : Nat) :
    journalEntry block seq = entryHead block seq ++ leBytes 4 (crc32 (entryHead block seq)).toNat := rfl

theorem length_entryHead (block seq : Nat) : (entryHead block seq).length = 28 := by simp [entryHead]

theorem length_journalEntry (block seq : Nat) : (journalEntry block seq).length = 32 := by
  rw [journalEntry_eq, List.length_append, length_entryHead, length_leBytes]

theorem flashWord_of_bytes {t : State} {i : Nat} {d : List Byte} (hlen : d.length = 32)
    (h : ∀ y, i * 32 ≤ y → y < i * 32 + 32 → flashByte t.flash.data y = byteAt d (y - i * 32)) : t.flashWord i = d := by
  unfold State.flashWord flashBytes
  refine List.ext_getElem (by simp [hlen]) fun k hk hk' => ?_
  rw [List.getElem_map, List.getElem_range, h _ (by omega) (by omega), show 32 * i + k - i * 32 = k by omega, byteAt,
    List.getD_eq_getElem _ _ hk']

theorem leNat_four {v : Nat} (h : v < 2 ^ 32) : leNat (leBytes 4 v) = v := by
  rw [leNat_leBytes]
  exact Nat.mod_eq_of_lt h

theorem validEntry_of_entry {t : State} {i block seq : Nat} (hst : t.wordSt i = .programmed) (hdecay : t.wordDecay i ≠ .fatal)
    (hword : t.flashWord i = journalEntry block seq) (hb : block ≤ 1) (hpos : 1 ≤ seq) (hlt : seq < 2 ^ 32) :
    t.validEntry i = some (seq, block) := by
  have hhead : (journalEntry block seq).take 28 = entryHead block seq := by
    rw [journalEntry_eq, List.take_append_of_le_length (length_entryHead ..).ge, List.take_of_length_le (length_entryHead ..).le]
  have hseq : leAt (journalEntry block seq) 4 4 = seq := leNat_four hlt
  have hnot : leAt (journalEntry block seq) 8 4 = 2 ^ 32 - 1 - seq := leNat_four (by omega)
  have hcrc : leAt (journalEntry block seq) 28 4 = (crc32 (entryHead block seq)).toNat := by
    rw [journalEntry_eq, leAt_append_right (length_entryHead ..).le, length_entryHead, leAt_whole (length_leBytes ..)]
    exact leNat_four (BitVec.isLt _)
  have hblock : (byteAt (journalEntry block seq) 2).toNat = block := Nat.mod_eq_of_lt (by omega)
  unfold State.validEntry
  dsimp only
  rw [hword, hseq, hnot, hcrc, hhead, hblock, if_pos]
  exact ⟨hst, hdecay, rfl, rfl, hb, rfl, rfl, by omega, by rw [wd, BitVec.ofNat_toNat, BitVec.setWidth_eq]⟩

/-! ### What is recorded (R132, Table 7.8) -/

theorem firstBelow_getD_le (n : Nat) (p : Nat → Bool) : (firstBelow n p).getD n ≤ n := by
  cases h : firstBelow n p with
  | none => exact le_rfl
  | some i => exact (List.mem_range.1 (List.mem_of_find?_eq_some h)).le

theorem toNat_wd_of_lt {n : Nat} (h : n < 2 ^ 32) : (wd n).toNat = n := by
  rw [toNat_wd]; exact Nat.mod_eq_of_lt h

theorem par_recordJournal {u : State} {x : Selection} (hseq : x.seq < 2 ^ 32) (hblock : x.block ≤ 1) (hsec : x.sec ≤ 3) :
    let t := recordJournal (some x) u
    (t.par 0x3802).toNat = x.seq ∧ (t.par 0x3801).toNat = x.block + 2 * (x.sec - 2) + 4 * t.nextFree x.sec x.word + 2 ^ 14 ∧
      ∀ n, n ≠ 0x3801 → n ≠ 0x3802 → t.par n = u.par n := by
  have hle : u.nextFree x.sec x.word ≤ 2048 := firstBelow_getD_le _ _
  refine ⟨?_, ?_, fun n h1 h2 => ?_⟩
  · unfold recordJournal
    rw [State.par_putPar_same, toNat_wd_of_lt hseq]
  · unfold recordJournal
    rw [State.par_putPar_ne _ _ _ _ (by decide), State.par_putPar_same]
    exact toNat_wd_of_lt (by omega)
  · unfold recordJournal
    rw [State.par_putPar_ne _ _ _ _ h2, State.par_putPar_ne _ _ _ _ h1]

theorem recordJournal_rest (x : Option Selection) (u : State) :
    recordJournal x u = { u with params := (recordJournal x u).params } := by
  unfold recordJournal
  split <;> rfl

theorem journalStep_put_ends {s : State} {b sec word seq : Nat} (clean : Bool) (h : s.wordSt (2048 * sec + word) = .blank)
    (hb : b ≤ 1) (hpos : 1 ≤ seq) (hlt : seq < 2 ^ 32) (hsec : sec ≤ 3) :
    ∃ t, journalStep clean (.put sec word seq b) s = (0, t) ∧
      t.validEntry (2048 * sec + word) = some (seq, b) ∧
      (∀ k, k ≠ 2048 * sec + word → t.wordSt k = s.wordSt k ∧ t.flashWord k = s.flashWord k) ∧
      (t.par 0x3802).toNat = seq ∧ (t.par 0x3801).toNat = b + 2 * (sec - 2) + 4 * t.nextFree sec word + 2 ^ 14 ∧
      (∀ n, n ≠ 0x3801 → n ≠ 0x3802 → t.par n = s.par n) ∧
      t = { s with params := t.params, flash := { s.flash with data := t.flash.data, words := t.flash.words, decay := t.flash.decay } } := by
  have hlen := length_journalEntry b seq
  have hput := programmed_putWord s (2048 * sec + word) hlen
  have hrest := recordJournal_rest (some { seq := seq, block := b, sec := sec, word := word })
    (putWord (2048 * sec + word) (journalEntry b seq) s)
  obtain ⟨hpar2, hpar1, hpars⟩ := par_recordJournal (u := putWord (2048 * sec + word) (journalEntry b seq) s)
    (x := { seq := seq, block := b, sec := sec, word := word }) hlt hb hsec
  rw [journalStep_put h]
  generalize recordJournal _ (putWord (2048 * sec + word) (journalEntry b seq) s) = t at *
  generalize putWord (2048 * sec + word) (journalEntry b seq) s = u at *
  have hwords : ∀ k, t.wordSt k = u.wordSt k := fun k => by rw [hrest]; rfl
  have hdecay : ∀ k, t.wordDecay k = u.wordDecay k := fun k => by rw [hrest]; rfl
  have hflash : t.flash = u.flash := by rw [hrest]
  have hbytes : t.flash.data = u.flash.data := by rw [hflash]
  refine ⟨t, rfl, ?_, fun k hk => ⟨?_, ?_⟩, hpar2, hpar1, fun n h1 h2 => ?_, ?_⟩
  · refine validEntry_of_entry ((hwords _).trans ((hput.words _).trans (if_pos (by omega)))) ?_ ?_ hb hpos hlt
    · have hst : u.wordSt (2048 * sec + word) = .programmed := (hput.words _).trans (if_pos (by omega))
      have hsound : tabGet .sound u.flash.decay (2048 * sec + word) = .sound := (hput.decay _).trans (if_pos (by omega))
      rw [hdecay, State.wordDecay, hst, hsound]
      decide
    · exact flashWord_of_bytes hlen (fun y hy hy' => (hbytes ▸ hput.bytes y).trans (if_pos (by omega)))
  · exact (hwords k).trans ((hput.words k).trans (if_neg (by omega)))
  · unfold State.flashWord
    rw [hbytes]
    refine List.map_congr_left fun j hj => ?_
    have := List.mem_range.1 hj
    exact (hput.bytes _).trans (if_neg (by omega))
  · rw [hpars n h1 h2, hput.rest]
    rfl
  · have h := hrest
    rw [hput.rest, ← hflash] at h
    exact h

/-- Settles O36: the command by its checks, the plan by the selection, each step by its kind; a programmed entry reads back
as the bytes that make it valid. -/
theorem flashSwapsFollowTheJournal : Obligations.FlashSwapsFollowTheJournal := by
  intro s c b
  refine ⟨?_, fun k clean hclk hop => exec_flashSwapDone hclk hop clean, fun h => swapPlan_none h b, fun x h => ?_, fun clean j r => ?_⟩
  · intro b hst
    have hrun : exec (.flashSwap c.via) s = .next (flashSwap c s) := congrArg _ (runCmd_eq hst _)
    refine ⟨fun h => hrun.trans (congrArg _ (flashSwap_range h)), fun hok => ⟨fun hbusy => ?_, fun hop hj => ⟨fun hwp => ?_,
      fun hwp => ?_⟩⟩⟩
    · exact hrun.trans (congrArg _ (flashSwap_busy hok hbusy))
    · exact hrun.trans (congrArg _ (flashSwap_protected hok hop hj hwp))
    · have hread := wordsRead_readWords 8 (2048 * b) s
      generalize ht : (readWords 8 (2048 * b) s).2 = t at hread
      have hswap := hrun.trans (congrArg _ (flashSwap_reads hok hop hj hwp rfl ht))
      refine ⟨t, hread, fun hbad => ?_, fun hgood hplan => ?_, fun hgood hplan => ?_⟩
      · exact hswap.trans (congrArg _ (if_pos ((badBoot_iff s b).2 hbad)))
      · rw [hswap, if_neg (fun h => hgood ((badBoot_iff s b).1 h)), if_pos hplan]
      · rw [hswap, if_neg (fun h => hgood ((badBoot_iff s b).1 h)), if_neg hplan]
  · intro other k rolls
    refine ⟨swapPlan_same h, fun hb hk => swapPlan_full h hb hk, fun hb hk hnext => ?_, fun hb hk hnext => ?_⟩
    · rw [swapPlan_room h hb hk, if_neg hnext]
    · rw [swapPlan_room h hb hk, if_pos hnext]
      rfl
  · refine ⟨rfl, fun h => journalSteps_go h r, fun h => journalSteps_stop h r, fun sec word seq => ?_⟩
    refine ⟨?_, ?_, rfl, ?_, ?_⟩
    · exact fun h => journalStep_put_full h clean seq b
    · exact fun h hb hpos hlt _ hsec _ => journalStep_put_ends clean h hb hpos hlt hsec
    · rintro rfl
      rfl
    · exact status_journalStep_erase clean sec s

end Sys2Proof.Machine
end

section
/-!
PROOF of O37 (chapters 5 to 7): bring-up, the journal scan, the boot record, the directory, the header and the signature.
-/

namespace Sys2Proof.Machine

/-! ### A gallery that leaves the on state (Table 4.4) -/

/-- What a gallery's domain may change when it leaves the on state: its own record, the sweep and its pass count, waiting
writers, and the answers they get. -/
structure State.GalLeaves (s t : State) (g : Nat) : Prop where
  rest   : t = { s with
    pwr := { s.pwr with domains := t.pwr.domains }, sweep := t.sweep, params := t.params, gals := t.gals, lamp := t.lamp, pcie := t.pcie, mesh := t.mesh
    evt := { s.evt with latches := t.evt.latches } }
  params : ∀ n, n ≠ 0x3A04 → t.par n = s.par n
  doms   : ∀ k, k ≠ g → t.dom k = s.dom k

theorem State.GalLeaves.refl (s : State) (g : Nat) : s.GalLeaves s g := ⟨rfl, fun _ _ => rfl, fun _ _ => rfl⟩

theorem State.GalLeaves.trans {s t u : State} {g : Nat} (h : s.GalLeaves t g) (h' : t.GalLeaves u g) : s.GalLeaves u g where
  rest := by
    have e := h'.rest
    rw [h.rest] at e
    exact e
  params n hn := (h'.params n hn).trans (h.params n hn)
  doms k hk := (h'.doms k hk).trans (h.doms k hk)

theorem galLeaves_modDom (s : State) (g : Nat) (f : Dom → Dom) : s.GalLeaves (s.modDom g f) g :=
  ⟨rfl, fun _ _ => rfl, fun k hk => State.dom_modDom_ne s g k f hk⟩

theorem galLeaves_nextEntry (s : State) (g : Nat) : s.GalLeaves (nextEntry s) g := by
  unfold nextEntry
  dsimp only
  split
  · exact ⟨rfl, fun _ _ => rfl, fun _ _ => rfl⟩
  · split
    · rw [raise_rest]
      exact ⟨rfl, fun n hn => State.par_tally_ne _ _ _ _ hn, fun _ _ => rfl⟩
    · exact ⟨rfl, fun n hn => State.par_tally_ne _ _ _ _ hn, fun _ _ => rfl⟩

theorem galLeaves_dropRepair (s : State) (d g : Nat) : s.GalLeaves (dropRepair d s) g := by
  unfold dropRepair
  split
  · split
    · split
      · exact galLeaves_nextEntry s g
      · exact .refl s g
    · exact .refl s g
  · exact .refl s g

theorem galLeaves_respond (c : Cmd) (status : Nat) (body : List Byte) (s : State) (g : Nat) :
    s.GalLeaves (respond c status body s) g := by
  rw [respond_rest]
  exact ⟨rfl, fun _ _ => rfl, fun _ _ => rfl⟩

theorem State.GalLeaves.foldl {α : Type} {g : Nat} {f : State → α → State} (hf : ∀ s x, State.GalLeaves s (f s x) g) (l : List α)
    (s : State) : s.GalLeaves (l.foldl f s) g := by
  induction l generalizing s with
  | nil => exact .refl s g
  | cons x l ih => exact (hf s x).trans (ih _)

theorem galLeaves_dropWriters (s : State) (p g : Nat) : s.GalLeaves (dropWriters p s) g := by
  have hfree : s.GalLeaves (s.modGal p (fun x => { x with portWait := [], portBusy := none })) g :=
    ⟨rfl, fun _ _ => rfl, fun _ _ => rfl⟩
  refine hfree.trans (.foldl (fun t w => ?_) _ _)
  cases w with
  | lamp c => exact galLeaves_respond c _ _ t g
  | icp q => exact ⟨rfl, fun _ _ => rfl, fun _ _ => rfl⟩
  | _ => exact .refl t g

theorem galLeaves_loseDomain (s : State) {g : Nat} (hg : g < 16) : s.GalLeaves (loseDomain g s) g := by
  unfold loseDomain
  dsimp only
  rw [if_pos hg]
  refine .trans ?_ (galLeaves_dropWriters _ g g)
  refine .trans ?_ (galLeaves_dropRepair _ g g)
  exact ⟨rfl, fun _ _ => rfl, fun _ _ => rfl⟩

theorem galLeaves_leaveOn (s : State) {g : Nat} (hg : g < 16) (st : DomSt) : s.GalLeaves (leaveOn g st s) g := by
  unfold leaveOn
  dsimp only
  rw [if_neg (show ¬ (16 ≤ g ∧ _) from fun h => absurd hg (Nat.not_lt.2 h.1))]
  have hdom := galLeaves_modDom s g (fun x => { x with st := st, moving := false, waking := false })
  refine hdom.trans ?_
  split
  · exact galLeaves_loseDomain _ hg
  · exact .refl _ g

/-- A gallery that the image leaves out goes off (Table 5.1). -/
def offUnless (s : State) (g : Nat) : State :=
  if hasBit s.img.galMask g then s else (leaveOn g .off s).modDom g (fun _ => Dom.reset)

theorem galLeaves_offUnless (s : State) {g : Nat} (hg : g < 16) : s.GalLeaves (offUnless s g) g := by
  unfold offUnless
  split
  · exact .refl s g
  · exact (galLeaves_leaveOn s hg .off).trans (galLeaves_modDom _ g _)

/-- The galleries that an image leaves out go off one after the other; nothing of the image or of the header's parameters
changes. -/
theorem foldl_offUnless {l : List Nat} (hl : ∀ g ∈ l, g < 16) (s : State) :
    (l.foldl offUnless s).img = s.img ∧ (∀ n, n ≠ 0x3A04 → (l.foldl offUnless s).par n = s.par n) ∧
    (l.foldl offUnless s).board = s.board ∧
    (∀ g, (g ∈ l ∧ hasBit s.img.galMask g = false) ∨ s.dom g = Dom.reset → (l.foldl offUnless s).dom g = Dom.reset) := by
  induction l generalizing s with
  | nil => exact ⟨rfl, fun _ _ => rfl, rfl, fun g h => h.resolve_left (fun h => absurd h.1 List.not_mem_nil)⟩
  | cons a l ih =>
    have hone := galLeaves_offUnless s (hl a List.mem_cons_self)
    have himg : (offUnless s a).img = s.img := by rw [hone.rest]
    have hboard : (offUnless s a).board = s.board := by rw [hone.rest]
    obtain ⟨himg', hpar, hboard', hdom⟩ := ih (fun g hg => hl g (List.mem_cons_of_mem a hg)) (offUnless s a)
    refine ⟨himg'.trans himg, fun n hn => (hpar n hn).trans (hone.params n hn), hboard'.trans hboard, fun g h => hdom g ?_⟩
    by_cases hga : g = a
    · refine .inr ?_
      subst hga
      unfold offUnless
      split
      · next hm => exact h.resolve_left (fun h => absurd (hm.symm.trans h.2) Bool.noConfusion)
      · exact State.dom_modDom_same ..
    · rw [hone.doms g hga, himg]
      exact h.imp (fun h => ⟨(List.mem_cons.1 h.1).resolve_left hga, h.2⟩) id

/-- What a header that passes brings (R99, R103, R326, Table 5.1). -/
theorem takeHeader_brings (h : List Byte) (s : State) :
    (takeHeader h s).img = { s.img with
      imageLen := leAt h 8 4, framesOff := leAt h 0x0C 4, hasSig := bitOf (leAt h 0x10 4) 0
      galMask := BitVec.ofNat 16 (leAt h 0x26 2)
      stepPos := [leAt h 0x40 1, leAt h 0x44 1, leAt h 0x48 1, leAt h 0x4C 1]
      stepDelay := [leAt h 0x42 2, leAt h 0x46 2, leAt h 0x4A 2, leAt h 0x4E 2]
      hold := leAt h 0x50 1, strict := bitOf (leAt h 0x51 1) 0, lockLimit := leAt h 0x52 2
      off := leAt h 0x0C 4, index := 0, sect := 0 } ∧
    (takeHeader h s).par 0x22 = (let v := leAt h 0x54 4
      wd (if v % 2 ^ 24 = 0 then v / 2 ^ 31 * 2 ^ 31 + 1000 else v) &&& 0x80FFFFFF) ∧
    (takeHeader h s).par 0x1A = wd (leAt h 0x14 4) ∧ (takeHeader h s).par 0x1B = wd (leAt h 0x18 4) ∧
    (takeHeader h s).board = s.board ∧
    ∀ g ∈ s.galList, (leAt h 0x26 2).testBit g = false → (takeHeader h s).dom g = Dom.reset := by
  have hlt : ∀ g ∈ s.galList, g < 16 := fun g hg => List.mem_range.1 (List.mem_of_mem_filter hg)
  obtain ⟨himg, hpar, hboard, hdom⟩ := foldl_offUnless (l := s.galList) hlt
    (((({ s with img := { s.img with
      imageLen := leAt h 8 4, framesOff := leAt h 0x0C 4, hasSig := bitOf (leAt h 0x10 4) 0
      galMask := BitVec.ofNat 16 (leAt h 0x26 2)
      stepPos := (List.range 4).map (fun i => leAt h (0x40 + 4 * i) 1)
      stepDelay := (List.range 4).map (fun i => leAt h (0x42 + 4 * i) 2)
      hold := leAt h 0x50 1, strict := bitOf (leAt h 0x51 1) 0, lockLimit := leAt h 0x52 2
      off := leAt h 0x0C 4, index := 0, sect := 0 } } : State).putPar 0x22
        (wd (if leAt h 0x54 4 % 2 ^ 24 = 0 then leAt h 0x54 4 / 2 ^ 31 * 2 ^ 31 + 1000 else leAt h 0x54 4) &&& 0x80FFFFFF)).putPar 0x1A
        (wd (leAt h 0x14 4))).putPar 0x1B (wd (leAt h 0x18 4)))
  refine ⟨himg, (hpar 0x22 (by decide)).trans ?_, (hpar 0x1A (by decide)).trans ?_, (hpar 0x1B (by decide)).trans ?_, hboard,
    fun g hg hbit => hdom g (.inl ⟨hg, ?_⟩)⟩
  · rw [State.par_putPar_ne _ _ _ _ (by decide), State.par_putPar_ne _ _ _ _ (by decide), State.par_putPar_same]
  · rw [State.par_putPar_ne _ _ _ _ (by decide), State.par_putPar_same]
  · exact State.par_putPar_same ..
  · show (BitVec.ofNat 16 (leAt h 0x26 2)).getLsbD g = false
    rw [BitVec.getLsbD_ofNat, hbit, Bool.and_false]

end Sys2Proof.Machine
end

section
/-!
PROOF of O37, continued: the journal scan and its selection.
-/

namespace Sys2Proof.Machine

theorem inPhase_here {s : State} {n : Nat} (hclk : s.clocked = true) (hphase : s.kin.phase = n) (act : State → State) :
    inPhase n act s = act s := if_pos (by rw [hclk, Bool.true_and]; exact decide_eq_true hphase)

/-! ### The journal scan (R79, R132) -/

/-- The words that a scan of the journal reads have been read. -/
def scanRead (s : State) : State := (readWords (s.scanned 3) (2048 * 3) (readWords (s.scanned 2) (2048 * 2) s).2).2

theorem scanRead_rest (s : State) : scanRead s = { s with
    params := (scanRead s).params, free := (scanRead s).free, flash := { s.flash with corrCyc := (scanRead s).flash.corrCyc }
    evt := { s.evt with latches := (scanRead s).evt.latches } } := by
  have h2 := readWords_rest (s.scanned 2) (2048 * 2) s
  have h3 := readWords_rest (s.scanned 3) (2048 * 3) (readWords (s.scanned 2) (2048 * 2) s).2
  unfold scanRead
  generalize (readWords (s.scanned 3) (2048 * 3) (readWords (s.scanned 2) (2048 * 2) s).2).2 = u at *
  generalize (readWords (s.scanned 2) (2048 * 2) s).2 = t at *
  rw [h2] at h3
  exact h3

/-- The selection of a scan is recorded. -/
def scanRecorded (s : State) : State :=
  recordJournal s.scanJournal { scanRead s with kin := { s.kin with journalOk := true } }

theorem scanNow_cases (s : State) : scanNow s = scanRecorded s ∨ ∃ l, scanNow s = (scanRecorded s).raise 0xD5 l := by
  unfold scanNow
  dsimp only
  have hread : [2, 3].foldl (fun t sec => (readWords (s.scanned sec) (2048 * sec) t).2) s = scanRead s := by
    rw [List.foldl_cons, List.foldl_cons, List.foldl_nil, scanRead]
  have hkin : (scanRead s).kin = s.kin := by rw [scanRead_rest]
  rw [hread, hkin]
  split
  · exact .inr ⟨_, rfl⟩
  · exact .inl rfl

theorem scanRecorded_rest (s : State) : scanRecorded s = { s with
    kin := { s.kin with journalOk := true }, params := (scanRecorded s).params, free := (scanRecorded s).free
    flash := { s.flash with corrCyc := (scanRecorded s).flash.corrCyc }
    evt := { s.evt with latches := (scanRecorded s).evt.latches } } := by
  have hrec := recordJournal_rest s.scanJournal { scanRead s with kin := { s.kin with journalOk := true } }
  have hread := scanRead_rest s
  unfold scanRecorded
  generalize recordJournal s.scanJournal { scanRead s with kin := { s.kin with journalOk := true } } = t at *
  generalize scanRead s = r at *
  rw [hrec, hread]

theorem scanNow_rest (s : State) : scanNow s = { s with
    kin := { s.kin with journalOk := true }, params := (scanNow s).params, free := (scanNow s).free
    flash := { s.flash with corrCyc := (scanNow s).flash.corrCyc }, evt := { s.evt with latches := (scanNow s).evt.latches } } := by
  have hrec := scanRecorded_rest s
  obtain h | ⟨l, h⟩ := scanNow_cases s
  · rw [h]
    exact hrec
  · have hraise := raise_rest (scanRecorded s) 0xD5 l
    rw [← h] at hraise
    generalize scanNow s = t at *
    generalize scanRecorded s = r at *
    rw [hraise, hrec]

theorem params_scanNow (s : State) : (scanNow s).params = (scanRecorded s).params := by
  obtain h | ⟨l, h⟩ := scanNow_cases s
  · rw [h]
  · rw [h, State.raise_params]

theorem par_scanNow (s : State) (n : Nat) : (scanNow s).par n = (scanRecorded s).par n :=
  congrArg (fun p => tabGet (paramReset n) p n) (params_scanNow s)

/-- What FLASH_JOURNAL and FLASH_JOURNAL_SEQ hold after a scan (Table 7.8). -/
theorem par_scanNow_some {s : State} {x : Selection} (h : s.scanJournal = some x) :
    ((scanNow s).par 0x3802).toNat = x.seq % 2 ^ 32 ∧
    (scanNow s).par 0x3801 = wd (x.block + 2 * (x.sec - 2) + 4 * s.nextFree x.sec x.word + 2 ^ 14) := by
  have hfree : ({ scanRead s with kin := { s.kin with journalOk := true } } : State).nextFree x.sec x.word = s.nextFree x.sec x.word := by
    rw [scanRead_rest]
    rfl
  rw [par_scanNow, par_scanNow, scanRecorded, h, recordJournal, hfree]
  refine ⟨?_, ?_⟩
  · rw [State.par_putPar_same]
    exact toNat_wd _
  · rw [State.par_putPar_ne _ _ _ _ (by decide), State.par_putPar_same]

theorem par_scanNow_none {s : State} (h : s.scanJournal = none) : (scanNow s).par 0x3801 = 0 ∧ (scanNow s).par 0x3802 = 0 := by
  rw [par_scanNow, par_scanNow, scanRecorded, h, recordJournal]
  refine ⟨?_, State.par_putPar_same ..⟩
  rw [State.par_putPar_ne _ _ _ _ (by decide), State.par_putPar_same]

/-! ### The selection of a scan (R132) -/

/-- The scan's choice between what it holds and the word it meets. -/
def State.better (s : State) (a : Option Selection) (p : Nat × Nat) : Option Selection :=
  match s.validEntry (2048 * p.1 + p.2) with
  | some (seq, b) =>
    (match a with
     | some x => if x.seq < seq then some { seq := seq, block := b, sec := p.1, word := p.2 } else a
     | none => some { seq := seq, block := b, sec := p.1, word := p.2 })
  | none => a

/-- The words that a scan meets, in its order. -/
def State.scanWords (s : State) : List (Nat × Nat) := [2, 3].flatMap (fun sec => (List.range (s.scanned sec)).map (fun k => (sec, k)))

theorem scanJournal_eq (s : State) : s.scanJournal = s.scanWords.foldl s.better none := by
  unfold State.scanJournal State.scanWords
  rw [List.foldl_flatMap]
  simp only [List.foldl_map]
  rfl

/-- Word `p` comes before word `q` in a scan. -/
def Earlier (p q : Nat × Nat) : Prop := p.1 < q.1 ∨ (p.1 = q.1 ∧ p.2 < q.2)

/-- `a` is the best entry of the words of `done`: the first among those with the highest SEQ. -/
structure State.Best (s : State) (done : List (Nat × Nat)) (a : Option Selection) : Prop where
  none : a = none → ∀ p ∈ done, s.validEntry (2048 * p.1 + p.2) = none
  some : ∀ x, a = some x → s.validEntry (2048 * x.sec + x.word) = some (x.seq, x.block) ∧ (x.sec, x.word) ∈ done ∧
    ∀ p ∈ done, ∀ q b, s.validEntry (2048 * p.1 + p.2) = some (q, b) →
      q < x.seq ∨ (q = x.seq ∧ (Earlier (x.sec, x.word) p ∨ p = (x.sec, x.word)))

theorem best_better {s : State} {done : List (Nat × Nat)} {a : Option Selection} (h : s.Best done a) {p : Nat × Nat}
    (hlater : ∀ q ∈ done, Earlier q p) : s.Best (done ++ [p]) (s.better a p) := by
  have hmem : ∀ q, q ∈ done ++ [p] ↔ q ∈ done ∨ q = p := by simp
  cases hv : s.validEntry (2048 * p.1 + p.2) with
  | none =>
    have hsame : s.better a p = a := by rw [State.better, hv]
    rw [hsame]
    refine ⟨fun ha q hq => ?_, fun x ha => ?_⟩
    · obtain hq | rfl := (hmem q).1 hq
      · exact h.none ha q hq
      · exact hv
    · obtain ⟨hx, hin, hbest⟩ := h.some x ha
      refine ⟨hx, (hmem _).2 (.inl hin), fun q hq n b hn => ?_⟩
      obtain hq | rfl := (hmem q).1 hq
      · exact hbest q hq n b hn
      · rw [hv] at hn; cases hn
  | some e =>
    obtain ⟨seq, b⟩ := e
    have hself : ∀ {n c : Nat}, s.validEntry (2048 * p.1 + p.2) = some (n, c) → n = seq := fun hn => by
      rw [hv] at hn; cases hn; rfl
    have hnew : (∀ q ∈ done, ∀ n c, s.validEntry (2048 * q.1 + q.2) = some (n, c) → n < seq) →
        s.Best (done ++ [p]) (some { seq := seq, block := b, sec := p.1, word := p.2 }) := fun hall => by
      refine ⟨nofun, fun x hx => ?_⟩
      cases hx
      refine ⟨hv, (hmem _).2 (.inr rfl), fun q hq n c hn => ?_⟩
      obtain hq | rfl := (hmem q).1 hq
      · exact .inl (hall q hq n c hn)
      · exact .inr ⟨hself hn, .inr rfl⟩
    cases a with
    | none =>
      have hgain : s.better none p = some { seq := seq, block := b, sec := p.1, word := p.2 } := by rw [State.better, hv]
      rw [hgain]
      exact hnew (fun q hq n c hn => by rw [h.none rfl q hq] at hn; cases hn)
    | some x =>
      obtain ⟨hx, hin, hbest⟩ := h.some x rfl
      have hstep : s.better (some x) p = if x.seq < seq then some { seq := seq, block := b, sec := p.1, word := p.2 } else some x := by
        rw [State.better, hv]
      rw [hstep]
      split
      · next hlt => exact hnew (fun q hq n c hn => by have := hbest q hq n c hn; omega)
      · next hge =>
        refine ⟨nofun, fun y hy => ?_⟩
        cases hy
        refine ⟨hx, (hmem _).2 (.inl hin), fun q hq n c hn => ?_⟩
        obtain hq | rfl := (hmem q).1 hq
        · exact hbest q hq n c hn
        · have hn := hself hn
          obtain hlt | heq := Nat.lt_or_eq_of_le (Nat.le_of_not_lt hge)
          · exact .inl (hn ▸ hlt)
          · exact .inr ⟨hn.trans heq, .inl (hlater _ hin)⟩

theorem best_foldl {s : State} (l : List (Nat × Nat)) {done : List (Nat × Nat)} {a : Option Selection} (h : s.Best done a)
    (hsorted : (done ++ l).Pairwise Earlier) : s.Best (done ++ l) (l.foldl s.better a) := by
  induction l generalizing done a with
  | nil => rwa [List.append_nil]
  | cons p l ih =>
    have hlater : ∀ q ∈ done, Earlier q p := fun q hq =>
      (List.pairwise_append.1 hsorted).2.2 q hq p List.mem_cons_self
    rw [List.append_cons] at hsorted ⊢
    exact ih (best_better h hlater) hsorted

theorem best_scan {s : State} {l : List (Nat × Nat)} (hsorted : l.Pairwise Earlier) : s.Best l (l.foldl s.better none) :=
  best_foldl (done := []) l (a := none) ⟨fun _ _ hp => absurd hp List.not_mem_nil, nofun⟩ hsorted

theorem mem_scanWords {s : State} {p : Nat × Nat} : p ∈ s.scanWords ↔ p.1 ∈ [2, 3] ∧ p.2 < s.scanned p.1 := by
  unfold State.scanWords
  rw [List.mem_flatMap]
  constructor
  · rintro ⟨sec, hsec, hp⟩
    obtain ⟨k, hk, rfl⟩ := List.mem_map.1 hp
    exact ⟨hsec, List.mem_range.1 hk⟩
  · exact fun ⟨hsec, hk⟩ => ⟨p.1, hsec, List.mem_map.2 ⟨p.2, List.mem_range.2 hk, rfl⟩⟩

theorem sorted_scanWords (s : State) : s.scanWords.Pairwise Earlier := by
  have hrow : ∀ sec, ((List.range (s.scanned sec)).map (fun k => (sec, k))).Pairwise Earlier := fun sec =>
    List.pairwise_map.2 (List.pairwise_lt_range.imp (fun h => .inr ⟨rfl, h⟩))
  have heq : s.scanWords = (List.range (s.scanned 2)).map (fun k => (2, k)) ++ (List.range (s.scanned 3)).map (fun k => (3, k)) := by
    simp [State.scanWords]
  rw [heq]
  refine List.pairwise_append.2 ⟨hrow 2, hrow 3, fun p hp q hq => .inl ?_⟩
  obtain ⟨_, -, rfl⟩ := List.mem_map.1 hp
  obtain ⟨_, -, rfl⟩ := List.mem_map.1 hq
  exact Nat.lt_succ_self 2

/-- A word behind no blank one is scanned. -/
theorem lt_scanned {s : State} {sec k : Nat} (h : ∀ j ≤ k, j < 2048 ∧ s.wordSt (2048 * sec + j) ≠ .blank) : k < s.scanned sec := by
  unfold State.scanned
  cases hb : firstBelow 2048 (fun k => decide (s.wordSt (2048 * sec + k) = .blank)) with
  | none => exact (h k le_rfl).1
  | some i =>
    by_contra hle
    have hblank : decide (s.wordSt (2048 * sec + i) = .blank) = true := List.find?_some (p := fun k => decide (s.wordSt (2048 * sec + k) = .blank)) hb
    exact (h i (Nat.le_of_not_lt hle)).2 (of_decide_eq_true hblank)

/-- The scan selects a valid entry, the first among those with the highest SEQ (R132). -/
theorem scanJournal_best {s : State} {x : Selection} (h : s.scanJournal = some x) :
    s.validEntry (2048 * x.sec + x.word) = some (x.seq, x.block) ∧
    ∀ sec ∈ [2, 3], ∀ k, (∀ j ≤ k, j < 2048 ∧ s.wordSt (2048 * sec + j) ≠ .blank) → ∀ q b, s.validEntry (2048 * sec + k) = some (q, b) →
      q < x.seq ∨ (q = x.seq ∧ (x.sec < sec ∨ (x.sec = sec ∧ x.word ≤ k))) := by
  have hbest := best_scan (s := s) (sorted_scanWords s)
  rw [← scanJournal_eq, h] at hbest
  obtain ⟨hvalid, -, hall⟩ := hbest.some x rfl
  refine ⟨hvalid, fun sec hsec k hk q b hq => (hall (sec, k) (mem_scanWords.2 ⟨hsec, lt_scanned hk⟩) q b hq).imp id (And.imp id ?_)⟩
  rintro ((hlt | ⟨heq, hlt⟩) | heq)
  · exact .inl hlt
  · exact .inr ⟨heq, hlt.le⟩
  · cases heq
    exact .inr ⟨rfl, le_rfl⟩

end Sys2Proof.Machine
end

section
/-!
PROOF of O37, concluded: the rows of kindling from bring-up to the signature.
-/

namespace Sys2Proof.Machine

/-! ### Bring-up and the domains (R41, R78) -/

section
variable {s : State} (hclk : s.clocked = true)
include hclk

theorem exec_keeperCycle16 (hphase : s.kin.phase = 0) :
    let up : State := { s with
      board := { s.board with valid := true }, kin := { s.kin with warnings := if s.board.rvFlags = 0 then 0 else 8 }
      lamp := { s.lamp with pairOn := decide (s.rv 6 ≠ 0) }, pcie := { s.pcie with started := decide (s.rv 4 ≠ 0) } }
    let told := if s.board.rvFlags = 0 then up else up.raise 0xF9 (leBytes 4 s.board.rvFlags.toNat)
    exec .keeperCycle16 s = .next (if s.board.straps.getLsbD 0 = true then bank 0x10 0 told else toPhase 1 told) := by
  intro up told
  have hboard : told.board = up.board := by
    show (if s.board.rvFlags = 0 then up else up.raise 0xF9 (leBytes 4 s.board.rvFlags.toNat)).board = _
    rw [apply_ite State.board, State.raise_board]
    exact ite_self _
  have hstrap : hasBit told.board.straps 0 = s.board.straps.getLsbD 0 := by rw [hboard]; rfl
  rw [show exec .keeperCycle16 s = .next (inPhase 0 _ s) from rfl, inPhase_here hclk hphase]
  show Host.Outcome.next (if hasBit told.board.straps 0 = true then bank 0x10 0 told else toPhase 1 told) = _
  rw [hstrap]

theorem exec_domainPowerUp_bad (hphase : s.kin.phase = 1) {d : Nat} (hd : s.domOrder[s.kin.poweredUp]? = some d) :
    exec (.domainPowerUp false) s = .next (bank 0x16 d s) := by
  rw [show exec (.domainPowerUp false) s = .next (inPhase 1 _ s) from rfl, inPhase_here hclk hphase, hd]
  rfl

end

/-- Domain `d` is on at the start of a kindling, and what it holds is at reset (R78). -/
def State.powered (s : State) (d : Nat) : State :=
  let s := s.modDom d (fun _ => { Dom.reset with st := .on })
  let s := { s with
    kin := { s.kin with poweredUp := s.kin.poweredUp + 1 }
    pwr := { s.pwr with critical := (List.range 25).any (fun k => (s.dom k).critical) } }
  if d < 16 then s.modGal d (fun _ => Gallery.reset)
  else if d < 24 then (s.pairPorts d).foldl (fun s p => s.modPort p Port.atPowerUp) s
  else s

theorem foldl_modPort_rest (f : Port → Port) (l : List Nat) (s : State) :
    l.foldl (fun s p => s.modPort p f) s = { s with ports := (l.foldl (fun s p => s.modPort p f) s).ports } := by
  induction l generalizing s with
  | nil => rfl
  | cons p l ih => rw [List.foldl_cons, ih]; rfl

theorem exec_domainPowerUp_good {s : State} (hclk : s.clocked = true) (hphase : s.kin.phase = 1) {d : Nat}
    (hd : s.domOrder[s.kin.poweredUp]? = some d) : exec (.domainPowerUp true) s = .next
      (if (s.powered d).kin.poweredUp < (s.powered d).domOrder.length then s.powered d
       else if (s.powered d).img.host then answerChunks (toPhase 4 (s.powered d)) else toPhase 2 (s.powered d)) := by
  rw [show exec (.domainPowerUp true) s = .next (inPhase 1 _ s) from rfl, inPhase_here hclk hphase, hd]
  rfl

theorem powered_rest (s : State) (d : Nat) : s.powered d = { s with
    kin := { s.kin with poweredUp := s.kin.poweredUp + 1 }, pwr := (s.powered d).pwr, gals := (s.powered d).gals
    ports := (s.powered d).ports } := by
  unfold State.powered
  dsimp only
  split
  · rfl
  · split
    · rw [foldl_modPort_rest]; rfl
    · rfl

theorem pwr_powered (s : State) (d : Nat) :
    (s.powered d).pwr.domains = (s.modDom d (fun _ => { Dom.reset with st := .on })).pwr.domains := by
  unfold State.powered
  dsimp only
  split
  · rfl
  · split
    · rw [foldl_modPort_rest]
    · rfl

theorem dom_powered (s : State) (d k : Nat) : (s.powered d).dom k = if k = d then { Dom.reset with st := .on } else s.dom k := by
  unfold State.dom
  rw [pwr_powered]
  exact tabGet_tabSet ..

theorem gal_powered (s : State) (d g : Nat) : (s.powered d).gal g = if g = d ∧ d < 16 then Gallery.reset else s.gal g := by
  unfold State.powered
  dsimp only
  by_cases hd : d < 16
  · rw [if_pos hd]
    by_cases hg : g = d
    · rw [if_pos ⟨hg, hd⟩, hg]
      exact State.gal_modGal_same ..
    · rw [if_neg (fun h => hg h.1)]
      exact State.gal_modGal_ne _ _ _ _ hg
  · rw [if_neg hd, if_neg (show ¬ (g = d ∧ d < 16) from fun h => hd h.2)]
    split
    · rw [foldl_modPort_rest]; rfl
    · rfl

/-! ### The boot record and the directory (R79, R80, R98, R122, R123) -/

/-- What follows the boot record, with the conditions of RV_IMG and RV_BOOT of the state before. -/
theorem afterBoot_eq {s u : State} (h : u.board = s.board) : afterBoot u =
    let v := u.putPar 0x23 (wd (u.img.entry + 16 * u.img.block + (if u.img.signed = true then 32 else 0)))
    if s.rv 1 = 14 then bank 0x11 0 v
    else if s.rv 7 = 3 ∨ s.rv 7 = 4 ∨ s.rv 7 = 11 ∨ s.rv 7 = 12 then toPhase 11 { v with img := { v.img with host := true } }
    else toPhase 3 v := by
  have hrv : ∀ i, (recordImage u).rv i = s.rv i := fun i => by
    unfold State.rv
    rw [show (recordImage u).board = s.board from h]
  unfold afterBoot
  dsimp only
  rw [hrv, State.hostBoot, hrv]
  exact if_congr Iff.rfl rfl (if_congr decide_eq_true_iff rfl rfl)

theorem bootRecord_absent {s : State} {b : Nat} (h : (flashBytes s.flash.data (65536 * b) 256).take 4 ≠ [0x50, 0x59, 0x42, 0x52]) :
    s.bootRecord b = 1 := if_pos h

theorem bootRecord_bad {s : State} {b : Nat} (h : (flashBytes s.flash.data (65536 * b) 256).take 4 = [0x50, 0x59, 0x42, 0x52])
    (hbad : ¬ (leAt (flashBytes s.flash.data (65536 * b) 256) 4 2 = 0x0100 ∧
      crc32 ((flashBytes s.flash.data (65536 * b) 256).take 252) = wd (leAt (flashBytes s.flash.data (65536 * b) 256) 252 4))) :
    s.bootRecord b = 2 :=
  (if_neg (not_not_intro h)).trans (if_pos (not_and_or.1 hbad))

theorem bootRecord_sound {s : State} {b : Nat} (h : (flashBytes s.flash.data (65536 * b) 256).take 4 = [0x50, 0x59, 0x42, 0x52])
    (hsound : leAt (flashBytes s.flash.data (65536 * b) 256) 4 2 = 0x0100 ∧
      crc32 ((flashBytes s.flash.data (65536 * b) 256).take 252) = wd (leAt (flashBytes s.flash.data (65536 * b) 256) 252 4)) :
    s.bootRecord b = 0 :=
  (if_neg (not_not_intro h)).trans (if_neg (fun hbad => hbad.elim (fun h => h hsound.1) (fun h => h hsound.2)))

theorem leAt_one {l : List Byte} {i : Nat} (h : i < l.length) : leAt l i 1 = (byteAt l i).toNat := by
  unfold leAt slice byteAt
  rw [List.drop_eq_getElem_cons h, List.getD_eq_getElem _ _ h]
  rfl

section
variable {s : State} (hclk : s.clocked = true) (hphase : s.kin.phase = 2) (hjournal : s.kin.journalOk = true)
include hclk hphase hjournal

theorem exec_bootRecordRead_host (hblock : s.img.blockOk = false) (ups : List Upset) :
    exec (.bootRecordRead ups) s = .next (afterBoot s) := by
  rw [show exec (.bootRecordRead ups) s = .next (inPhase 2 _ s) from rfl, inPhase_here hclk hphase]
  dsimp only
  rw [if_neg (by rw [hjournal]; decide), if_pos (by rw [hblock]; rfl)]

variable (hblock : s.img.blockOk = true)
include hblock

theorem exec_bootRecordRead_ecc {ups : List Upset} {i : Nat} (h : (noteFlash ups s).firstFatal (2048 * s.img.block) 8 = some i) :
    exec (.bootRecordRead ups) s = .next (bank 0x15 (2048 * s.img.block + i)
      (readWords (i + 1) (2048 * s.img.block) (noteFlash ups s)).2) := by
  rw [show exec (.bootRecordRead ups) s = .next (inPhase 2 _ s) from rfl, inPhase_here hclk hphase]
  dsimp only
  rw [if_neg (by rw [hjournal]; decide), if_neg (by rw [hblock]; decide)]
  rw [show (noteFlash ups s).img = s.img from rfl, h]

variable {ups : List Upset} {t : State} (h : (noteFlash ups s).firstFatal (2048 * s.img.block) 8 = none)
  (ht : (readWords 8 (2048 * s.img.block) (noteFlash ups s)).2 = t)
include h ht

theorem exec_bootRecordRead_reads : exec (.bootRecordRead ups) s = .next
    (match s.bootRecord s.img.block with
     | 0 => afterBoot { t with img := { t.img with
          defEntry := leAt (flashBytes s.flash.data (65536 * s.img.block) 256) 6 1
          keyHash := if (byteAt (flashBytes s.flash.data (65536 * s.img.block) 256) 7).getLsbD 0 then
            some (slice (flashBytes s.flash.data (65536 * s.img.block) 256) 8 32) else none } }
     | 1 => if t.lenientBoot then afterBoot t else bank 0x12 0 t
     | _ => if t.lenientBoot then afterBoot t else bank 0x13 0 t) := by
  have hread := readWords_rest 8 (2048 * s.img.block) (noteFlash ups s)
  rw [ht] at hread
  have hboot : t.bootRecord t.img.block = s.bootRecord s.img.block := by rw [hread]; rfl
  rw [show exec (.bootRecordRead ups) s = .next (inPhase 2 _ s) from rfl, inPhase_here hclk hphase]
  dsimp only
  rw [if_neg (by rw [hjournal]; decide), if_neg (by rw [hblock]; decide), show (noteFlash ups s).img = s.img from rfl, h]
  dsimp only
  rw [ht, hboot]
  rfl

theorem exec_bootRecordRead_sound (hboot : s.bootRecord s.img.block = 0) : exec (.bootRecordRead ups) s = .next
    (afterBoot { t with img := { t.img with
      defEntry := leAt (flashBytes s.flash.data (65536 * s.img.block) 256) 6 1
      keyHash := if (byteAt (flashBytes s.flash.data (65536 * s.img.block) 256) 7).getLsbD 0 then
        some (slice (flashBytes s.flash.data (65536 * s.img.block) 256) 8 32) else none } }) := by
  simpa only [hboot] using exec_bootRecordRead_reads hclk hphase hjournal hblock h ht

theorem exec_bootRecordRead_absent (hboot : s.bootRecord s.img.block = 1) : exec (.bootRecordRead ups) s = .next
    (if t.lenientBoot = true then afterBoot t else bank 0x12 0 t) := by
  simpa only [hboot] using exec_bootRecordRead_reads hclk hphase hjournal hblock h ht

theorem exec_bootRecordRead_bad (hboot : s.bootRecord s.img.block = 2) : exec (.bootRecordRead ups) s = .next
    (if t.lenientBoot = true then afterBoot t else bank 0x13 0 t) := by
  simpa only [hboot] using exec_bootRecordRead_reads hclk hphase hjournal hblock h ht

end

section
variable {s : State} (hclk : s.clocked = true) (hphase : s.kin.phase = 3) {e : Nat}
  (he : (if s.rv 1 = 0 ∨ s.rv 1 = 15 then s.img.defEntry else s.rv 1) = e)
include hclk hphase he

theorem exec_imageSelect_none (h : e = 0 ∨ 13 < e) (ups : List Upset) : exec (.imageSelect ups) s = .next (bank 0x14 0 s) := by
  rw [show exec (.imageSelect ups) s = .next (inPhase 3 _ s) from rfl, inPhase_here hclk hphase]
  dsimp only
  rw [he, if_pos h]

variable (hok : ¬ (e = 0 ∨ 13 < e)) {ups : List Upset} {t : State} {w : Nat} (hw : 2048 * s.img.block + 8 + e = w)
  (ht : (readWords 1 w (noteFlash ups s)).2 = t)
include hok hw ht

theorem exec_imageSelect_reads : exec (.imageSelect ups) s = .next
    (if ((noteFlash ups s).firstFatal w 1).isSome then bank 0x15 w t
     else if (byteAt (s.flashWord w) 0).getLsbD 0 = false ∨ crc32 ((s.flashWord w).take 28) ≠ wd (leAt (s.flashWord w) 28 4) ∨
        leAt (s.flashWord w) 2 2 < 4 ∨ leAt (s.flashWord w) 4 2 = 0 ∨
        2048 < leAt (s.flashWord w) 2 2 + leAt (s.flashWord w) 4 2 ∨ leAt (s.flashWord w) 4 2 * 65536 < leAt (s.flashWord w) 8 4 then
      bank 0x14 0 t
     else toPhase 4 (recordImage { t with img := { t.img with
      entry := e, base := 65536 * leAt (s.flashWord w) 2 2, extent := leAt (s.flashWord w) 8 4 } })) := by
  rw [show exec (.imageSelect ups) s = .next (inPhase 3 _ s) from rfl, inPhase_here hclk hphase]
  dsimp only
  rw [he, if_neg hok, show (noteFlash ups s).img = s.img from rfl, hw, ht]
  rfl

end

/-! ### The header and the signature (R81, R82, R102, R118) -/

theorem flashRead_streamRead (off n : Nat) (s : State) : s.FlashRead (streamRead off n s).2 := by
  unfold streamRead
  split
  · exact .refl s
  · dsimp only
    split <;> exact (State.FlashRead.refl s).readWords _ _

/-- The bytes of the image, present or still to come. -/
def State.imgSize (s : State) : Nat := if s.img.host then s.img.hostLen else s.img.extent

section
variable {s : State} {off n : Nat} (act : List Byte → State → State)

theorem readPart_short (h : s.imgSize < off + n) : readPart off n s act = bank 0x43 0 s := if_pos h

theorem readPart_waits (h : off + n ≤ s.imgSize) (hlate : s.imgAvail < off + n) : readPart off n s act = s :=
  (if_neg (Nat.not_lt.2 h)).trans (if_pos hlate)

theorem readPart_reads (h : off + n ≤ s.imgSize) (hhere : off + n ≤ s.imgAvail) {t : State} (hread : streamRead off n s = (none, t)) :
    readPart off n s act = answerChunks (act (s.imgBytes off n) t) := by
  unfold readPart
  refine (if_neg (Nat.not_lt.2 h)).trans ((if_neg (Nat.not_lt.2 hhere)).trans ?_)
  rw [hread]

end

/-- What the header check does with a header it has read. -/
def headerStep (h : List Byte) (s : State) : State :=
  match headerFault s.variant h with
  | some (c, d) => bank c d s
  | none =>
    let s := takeHeader h s
    if s.img.hasSig then toPhase 5 s
    else if s.mustSign then bank 0x30 0 s
    else toPhase 6 s

theorem exec_imageHeaderCheck {s : State} (hclk : s.clocked = true) (hphase : s.kin.phase = 4) (ups : List Upset) :
    exec (.imageHeaderCheck ups) s = .next (readPart 0 256 (noteFlash ups s) headerStep) := by
  rw [show exec (.imageHeaderCheck ups) s = .next (inPhase 4 _ s) from rfl, inPhase_here hclk hphase]
  rfl

theorem headerStep_fault {h : List Byte} {s : State} {c d : Nat} (hf : headerFault s.variant h = some (c, d)) :
    headerStep h s = bank c d s := by
  unfold headerStep
  rw [hf]

section
variable {v : Variant} {h : List Byte}

theorem headerFault_crc (hcrc : crc32 (h.take 252) ≠ wd (leAt h 252 4)) : headerFault v h = some (0x20, 0) := if_pos hcrc

variable (hcrc : crc32 (h.take 252) = wd (leAt h 252 4))
include hcrc

theorem headerFault_format (hfmt : headerFormatOk h = false) : headerFault v h = some (0x21, 0) :=
  (if_neg (not_not_intro hcrc)).trans (if_pos (by rw [hfmt]; rfl))

variable (hfmt : headerFormatOk h = true)
include hfmt

theorem headerFault_part (hmagic : leAt h 0x20 2 ≠ 0x5059) : headerFault v h = some (0x22, 0) :=
  (if_neg (not_not_intro hcrc)).trans ((if_neg (by rw [hfmt]; decide)).trans (if_pos hmagic))

variable (hmagic : leAt h 0x20 2 = 0x5059)
include hmagic

theorem headerFault_stepping (hstep : Config.stepping < leAt h 0x24 1 ∨ leAt h 0x25 1 < Config.stepping) :
    headerFault v h = some (0x23, 0) :=
  (if_neg (not_not_intro hcrc)).trans ((if_neg (by rw [hfmt]; decide)).trans ((if_neg (not_not_intro hmagic)).trans (if_pos hstep)))

variable (hlow : leAt h 0x24 1 ≤ Config.stepping) (hhigh : Config.stepping ≤ leAt h 0x25 1)
include hlow hhigh

theorem headerFault_reads : headerFault v h =
    (match firstBelow 32 (fun i => bitOf (leAt h 0x28 4 ||| leAt h 0x26 2) i && !bitOf v.units i) with
     | some i => some (0x24, i)
     | none =>
       if leAt h 0x22 2 ≠ v.part ∧ leAt h 0x22 2 ≠ 0xFFFF then some (0x24, 0x80000000 + leAt h 0x22 2) else none) :=
  (if_neg (not_not_intro hcrc)).trans ((if_neg (by rw [hfmt]; decide)).trans ((if_neg (not_not_intro hmagic)).trans
    (if_neg (not_or.2 ⟨Nat.not_lt.2 hlow, Nat.not_lt.2 hhigh⟩))))

theorem headerFault_absent {i : Nat} (hi : i < 32) (hneed : (leAt h 0x28 4 ||| leAt h 0x26 2).testBit i = true)
    (hlack : v.units.testBit i = false)
    (hfirst : ∀ j < i, ¬ ((leAt h 0x28 4 ||| leAt h 0x26 2).testBit j = true ∧ v.units.testBit j = false)) :
    headerFault v h = some (0x24, i) := by
  have hfind : firstBelow 32 (fun i => bitOf (leAt h 0x28 4 ||| leAt h 0x26 2) i && !bitOf v.units i) = some i := by
    refine firstBelow_eq_some hi ?_ (fun j hj => ?_)
    · simp only [bitOf_eq_testBit, hneed, hlack, Bool.not_false, Bool.and_self]
    · have := hfirst j hj
      simp only [bitOf_eq_testBit]
      cases hb : (leAt h 0x28 4 ||| leAt h 0x26 2).testBit j
      · rfl
      · cases hu : v.units.testBit j
        · exact absurd ⟨hb, hu⟩ this
        · rfl
  simpa only [hfind] using headerFault_reads (v := v) hcrc hfmt hmagic hlow hhigh

variable (hall : ∀ i, ¬ (i < 32 ∧ (leAt h 0x28 4 ||| leAt h 0x26 2).testBit i = true ∧ v.units.testBit i = false))
include hall

theorem headerFault_present : headerFault v h =
    if leAt h 0x22 2 ≠ v.part ∧ leAt h 0x22 2 ≠ 0xFFFF then some (0x24, 0x80000000 + leAt h 0x22 2) else none := by
  have hfind : firstBelow 32 (fun i => bitOf (leAt h 0x28 4 ||| leAt h 0x26 2) i && !bitOf v.units i) = none := by
    refine firstBelow_eq_none.2 fun i hi => ?_
    simp only [bitOf_eq_testBit]
    cases hb : (leAt h 0x28 4 ||| leAt h 0x26 2).testBit i
    · rfl
    · cases hu : v.units.testBit i
      · exact absurd ⟨hi, hb, hu⟩ (hall i)
      · rfl
  simpa only [hfind] using headerFault_reads (v := v) hcrc hfmt hmagic hlow hhigh

end

/-- A header that passes R81 decides what comes next by its signature flag and RV_BOOT (R20, R82). -/
theorem headerStep_passes {h : List Byte} {s : State} (hf : headerFault s.variant h = none) : headerStep h s =
    if bitOf (leAt h 0x10 4) 0 = true then toPhase 5 (takeHeader h s)
    else if 8 ≤ s.rv 7 ∧ s.rv 7 ≤ 12 then bank 0x30 0 (takeHeader h s)
    else toPhase 6 (takeHeader h s) := by
  obtain ⟨himg, -, -, -, hboard, -⟩ := takeHeader_brings h s
  have hsig : (takeHeader h s).img.hasSig = bitOf (leAt h 0x10 4) 0 := by rw [himg]
  have hmust : (takeHeader h s).mustSign = decide (8 ≤ s.rv 7 ∧ s.rv 7 ≤ 12) := by
    unfold State.mustSign State.rv
    rw [hboard]
  unfold headerStep
  rw [hf]
  dsimp only
  rw [hsig, hmust]
  exact if_congr Iff.rfl rfl (if_congr decide_eq_true_iff rfl rfl)

/-- What the signature check does with a signature block it has read. -/
def signatureStep (b : List Byte) (s : State) : State :=
  let q := slice b 0x10 96
  let e := slice b 0x70 32
  if b.take 4 ≠ [0x50, 0x59, 0x53, 0x47] ∨ leAt b 4 2 ≠ 256 ∨ leAt b 6 2 ≠ 1 ∨ crc32 (b.take 252) ≠ wd (leAt b 252 4) then
    bank 0x32 0 s
  else if s.img.keyHash ≠ some (sha256 q) then bank 0x31 0 s
  else if !ecdsaVerify (beNat (slice b 0x10 48)) (beNat (slice b 0x40 48)) (beNat e) (beNat (slice b 0x90 48))
      (beNat (slice b 0xC0 48)) then bank 0x32 0 s
  else toPhase 6 (recordImage { s with img := { s.img with digest := some e, signed := true } })

theorem exec_signatureCheck {s : State} (hclk : s.clocked = true) (hphase : s.kin.phase = 5) :
    exec .signatureCheck s = .next (readPart 256 256 s signatureStep) := by
  rw [show exec .signatureCheck s = .next (inPhase 5 _ s) from rfl, inPhase_here hclk hphase]
  rfl

/-- JOURNAL_SCAN: the block that RV_BOOT names, or the journal's, or a load that needs none, or the banked state (R79, R98). -/
theorem exec_journalScan {s : State} (hclk : s.clocked = true) (hphase : s.kin.phase = 2) (hjournal : s.kin.journalOk = false)
    (hop : s.flash.op = none) {ups : List Upset} {t : State} (ht : scanNow (noteFlash ups s) = t) :
    exec (.journalScan ups) s = .next
      (if s.rv 7 = 1 ∨ s.rv 7 = 9 then { t with img := { s.img with block := 0, blockOk := true } }
       else if s.rv 7 = 2 ∨ s.rv 7 = 10 then { t with img := { s.img with block := 1, blockOk := true } }
       else if (t.par 0x3801).getLsbD 14 = true then { t with img := { s.img with block := (t.par 0x3801).toNat % 2, blockOk := true } }
       else if s.rv 7 = 3 ∨ s.rv 7 = 4 then t else bank 0x12 0 t) := by
  have hrest := scanNow_rest (noteFlash ups s)
  rw [ht] at hrest
  have hboard : t.board = s.board := by rw [hrest]; rfl
  have himg : t.img = s.img := by rw [hrest]; rfl
  have hrv : ∀ i, t.rv i = s.rv i := fun i => by unfold State.rv; rw [hboard]
  have hblock : t.journalBlock = (t.par 0x3801).toNat % 2 := by
    unfold State.journalBlock fld bits
    norm_num
  have hchosen : t.chosenBlock = if s.rv 7 = 1 ∨ s.rv 7 = 9 then some 0 else if s.rv 7 = 2 ∨ s.rv 7 = 10 then some 1
      else if (t.par 0x3801).getLsbD 14 = true then some ((t.par 0x3801).toNat % 2) else none := by
    unfold State.chosenBlock
    rw [hrv, hblock]
    split
    · next h => rw [if_pos (.inl h)]
    · next h => rw [if_pos (.inr h)]
    · next h => rw [if_neg (by omega), if_pos (.inl h)]
    · next h => rw [if_neg (by omega), if_pos (.inr h)]
    · next h1 h9 h2 h10 => rw [if_neg (not_or.2 ⟨h1, h9⟩), if_neg (not_or.2 ⟨h2, h10⟩)]; rfl
  have hlenient : t.lenientBoot = decide (s.rv 7 = 3 ∨ s.rv 7 = 4) := by unfold State.lenientBoot; rw [hrv]
  rw [show exec (.journalScan ups) s = .next (inPhase 2 _ s) from rfl, inPhase_here hclk hphase]
  dsimp only
  rw [if_neg (by rw [hjournal, hop]; decide), ht, hchosen, himg, hlenient]
  refine congrArg _ ?_
  by_cases h0 : s.rv 7 = 1 ∨ s.rv 7 = 9
  · simp only [if_pos h0]
  · by_cases h1 : s.rv 7 = 2 ∨ s.rv 7 = 10
    · simp only [if_neg h0, if_pos h1]
    · by_cases hj : (t.par 0x3801).getLsbD 14 = true
      · simp only [if_neg h0, if_neg h1, if_pos hj]
      · simp only [if_neg h0, if_neg h1, if_neg hj, decide_eq_true_eq]

section
variable {s : State} (hclk : s.clocked = true)
include hclk

theorem bootRecordRead_cases (hphase : s.kin.phase = 2) (hjournal : s.kin.journalOk = true) (hblock : s.img.blockOk = true)
    {ups : List Upset} (hgood : ∀ i < 8, (noteFlash ups s).wordDecay (2048 * s.img.block + i) ≠ .fatal) :
    let d := flashBytes s.flash.data (65536 * s.img.block) 256
    let sound := leAt d 4 2 = 0x0100 ∧ crc32 (d.take 252) = wd (leAt d 252 4)
    let booted := fun (u : State) =>
      let v := u.putPar 0x23 (wd (u.img.entry + 16 * u.img.block + (if u.img.signed = true then 32 else 0)))
      if s.rv 1 = 14 then bank 0x11 0 v
      else if s.rv 7 = 3 ∨ s.rv 7 = 4 ∨ s.rv 7 = 11 ∨ s.rv 7 = 12 then toPhase 11 { v with img := { v.img with host := true } }
      else toPhase 3 v
    ∃ t, (noteFlash ups s).WordsRead t (2048 * s.img.block) 8 ∧
      (d.take 4 = [0x50, 0x59, 0x42, 0x52] → sound → exec (.bootRecordRead ups) s = .next (booted { t with img := { s.img with
        defEntry := (byteAt d 6).toNat, keyHash := if (byteAt d 7).getLsbD 0 = true then some (slice d 8 32) else none } })) ∧
      (d.take 4 ≠ [0x50, 0x59, 0x42, 0x52] →
        exec (.bootRecordRead ups) s = .next (if s.rv 7 = 3 ∨ s.rv 7 = 4 then booted t else bank 0x12 0 t)) ∧
      (d.take 4 = [0x50, 0x59, 0x42, 0x52] → ¬ sound →
        exec (.bootRecordRead ups) s = .next (if s.rv 7 = 3 ∨ s.rv 7 = 4 then booted t else bank 0x13 0 t)) := by
  intro d sound booted
  have hread := wordsRead_readWords 8 (2048 * s.img.block) (noteFlash ups s)
  generalize ht : (readWords 8 (2048 * s.img.block) (noteFlash ups s)).2 = t at hread
  have hrest := hread.rest
  have hboard : t.board = s.board := by rw [hrest]; rfl
  have himg : t.img = s.img := by rw [hrest]; rfl
  have hlenient : t.lenientBoot = decide (s.rv 7 = 3 ∨ s.rv 7 = 4) := by unfold State.lenientBoot State.rv; rw [hboard]
  have hnone := firstFatal_eq_none.2 hgood
  have hsix : leAt d 6 1 = (byteAt d 6).toNat := leAt_one (by simp [d, flashBytes])
  refine ⟨t, hread, fun hmagic hs => ?_, fun hmagic => ?_, fun hmagic hs => ?_⟩
  · rw [exec_bootRecordRead_sound hclk hphase hjournal hblock hnone ht (bootRecord_sound hmagic hs),
      himg, ← hsix]
    exact congrArg _ (afterBoot_eq hboard)
  · rw [exec_bootRecordRead_absent hclk hphase hjournal hblock hnone ht (bootRecord_absent hmagic), afterBoot_eq (s := s) hboard,
      hlenient]
    exact congrArg _ (if_congr decide_eq_true_iff rfl rfl)
  · rw [exec_bootRecordRead_bad hclk hphase hjournal hblock hnone ht (bootRecord_bad hmagic hs), afterBoot_eq (s := s) hboard,
      hlenient]
    exact congrArg _ (if_congr decide_eq_true_iff rfl rfl)

theorem imageSelect_cases (hphase : s.kin.phase = 3) (ups : List Upset) :
    let e := if s.rv 1 = 0 ∨ s.rv 1 = 15 then s.img.defEntry else s.rv 1
    let w := 2048 * s.img.block + 8 + e
    let d := s.flashWord w
    let first := leAt d 2 2
    let count := leAt d 4 2
    let good := (byteAt d 0).getLsbD 0 = true ∧ crc32 (d.take 28) = wd (leAt d 28 4) ∧ 4 ≤ first ∧ count ≠ 0 ∧ first + count ≤ 2048 ∧
      leAt d 8 4 ≤ count * 65536
    ((e = 0 ∨ 13 < e) → exec (.imageSelect ups) s = .next (bank 0x14 0 s)) ∧
    (1 ≤ e → e ≤ 13 → ∃ t, (noteFlash ups s).WordsRead t w 1 ∧
      ((noteFlash ups s).wordDecay w = .fatal → exec (.imageSelect ups) s = .next (bank 0x15 w t)) ∧
      ((noteFlash ups s).wordDecay w ≠ .fatal → ¬ good → exec (.imageSelect ups) s = .next (bank 0x14 0 t)) ∧
      ((noteFlash ups s).wordDecay w ≠ .fatal → good → exec (.imageSelect ups) s = .next (toPhase 4
        { t.putPar 0x23 (wd (e + 16 * s.img.block + (if s.img.signed = true then 32 else 0))) with
          img := { s.img with entry := e, base := 65536 * first, extent := leAt d 8 4 } }))) := by
  intro e w d first count good
  refine ⟨fun h => exec_imageSelect_none hclk hphase rfl h ups, fun h1 h13 => ?_⟩
  have hread := wordsRead_readWords 1 w (noteFlash ups s)
  generalize ht : (readWords 1 w (noteFlash ups s)).2 = t at hread
  have himg : t.img = s.img := by rw [hread.rest]; rfl
  have hexec := exec_imageSelect_reads hclk hphase (e := e) rfl (by omega) (ups := ups) rfl ht
  have hone : ((noteFlash ups s).firstFatal w 1).isSome = true ↔ (noteFlash ups s).wordDecay w = .fatal := by
    rw [Option.isSome_iff_ne_none, ne_eq, firstFatal_eq_none]
    simp
  have hgood : good ↔ ¬ ((byteAt d 0).getLsbD 0 = false ∨ crc32 (d.take 28) ≠ wd (leAt d 28 4) ∨ first < 4 ∨ count = 0 ∨
      2048 < first + count ∨ count * 65536 < leAt d 8 4) := by
    simp only [good, not_or, Bool.not_eq_false, not_not, Nat.not_lt, ne_eq]
  refine ⟨t, hread, fun hbad => ?_, fun hsound hbad => ?_, fun hsound hok => ?_⟩
  · exact hexec.trans (congrArg _ (if_pos (hone.2 hbad)))
  · exact hexec.trans (congrArg _ ((if_neg (fun h => hsound (hone.1 h))).trans (if_pos (not_not.1 (fun h => hbad (hgood.2 h))))))
  · refine hexec.trans (congrArg _ ((if_neg (fun h => hsound (hone.1 h))).trans ((if_neg (hgood.1 hok)).trans ?_)))
    rw [himg]
    rfl

/-- The header, from its checks in order to the fields it brings. -/
theorem imageHeaderCheck_cases (hphase : s.kin.phase = 4) {t : State} {h : List Byte} {ups : List Upset}
    (hh : h = s.imgBytes 0 256) (hread : streamRead 0 256 (noteFlash ups s) = (none, t)) :
    let whole := if s.img.host = true then s.img.hostLen else s.img.extent
    let here := if s.img.host = true then s.img.hostBytes.length else s.img.extent
    let devices := leAt h 0x28 4 ||| leAt h 0x26 2
    let absent := fun (i : Nat) => i < 32 ∧ devices.testBit i = true ∧ s.variant.units.testBit i = false
    let e := fun (r : State) => exec (.imageHeaderCheck ups) s = .next (answerChunks r)
    (whole < 256 → exec (.imageHeaderCheck ups) s = .next (bank 0x43 0 (noteFlash ups s))) ∧
    (256 ≤ whole → here < 256 → exec (.imageHeaderCheck ups) s = .next (noteFlash ups s)) ∧
    (256 ≤ whole → 256 ≤ here →
      (crc32 (h.take 252) ≠ wd (leAt h 252 4) → e (bank 0x20 0 t)) ∧
      (crc32 (h.take 252) = wd (leAt h 252 4) →
        (headerFormatOk h = false → e (bank 0x21 0 t)) ∧
        (headerFormatOk h = true → leAt h 0x20 2 ≠ 0x5059 → e (bank 0x22 0 t)) ∧
        (headerFormatOk h = true → leAt h 0x20 2 = 0x5059 →
          ((Config.stepping < leAt h 0x24 1 ∨ leAt h 0x25 1 < Config.stepping) → e (bank 0x23 0 t)) ∧
          (leAt h 0x24 1 ≤ Config.stepping → Config.stepping ≤ leAt h 0x25 1 →
            (∀ i, absent i → (∀ j < i, ¬ absent j) → e (bank 0x24 i t)) ∧
            ((∀ i, ¬ absent i) → leAt h 0x22 2 ≠ s.variant.part → leAt h 0x22 2 ≠ 0xFFFF → e (bank 0x24 (0x80000000 + leAt h 0x22 2) t)) ∧
            ((∀ i, ¬ absent i) → (leAt h 0x22 2 = s.variant.part ∨ leAt h 0x22 2 = 0xFFFF) → ∃ u : State,
              (bitOf (leAt h 0x10 4) 0 = true → e (toPhase 5 u)) ∧
              (bitOf (leAt h 0x10 4) 0 = false → 8 ≤ s.rv 7 → s.rv 7 ≤ 12 → e (bank 0x30 0 u)) ∧
              (bitOf (leAt h 0x10 4) 0 = false → (s.rv 7 < 8 ∨ 12 < s.rv 7) → e (toPhase 6 u)) ∧
              u.img = { s.img with
                imageLen := leAt h 8 4, framesOff := leAt h 0x0C 4, hasSig := bitOf (leAt h 0x10 4) 0
                galMask := BitVec.ofNat 16 (leAt h 0x26 2)
                stepPos := [leAt h 0x40 1, leAt h 0x44 1, leAt h 0x48 1, leAt h 0x4C 1]
                stepDelay := [leAt h 0x42 2, leAt h 0x46 2, leAt h 0x4A 2, leAt h 0x4E 2]
                hold := leAt h 0x50 1, strict := bitOf (leAt h 0x51 1) 0, lockLimit := leAt h 0x52 2
                off := leAt h 0x0C 4, index := 0, sect := 0 } ∧
              u.par 0x22 = (let v := leAt h 0x54 4
                wd (if v % 2 ^ 24 = 0 then v / 2 ^ 31 * 2 ^ 31 + 1000 else v) &&& 0x80FFFFFF) ∧
              u.par 0x1A = wd (leAt h 0x14 4) ∧ u.par 0x1B = wd (leAt h 0x18 4) ∧
              ∀ g ∈ s.galList, (leAt h 0x26 2).testBit g = false → u.dom g = Dom.reset))))) := by
  intro whole here devices absent e
  have hrun := exec_imageHeaderCheck hclk hphase ups
  have hsame : (noteFlash ups s).FlashRead t := by
    have := flashRead_streamRead 0 256 (noteFlash ups s)
    rw [hread] at this
    exact this
  have hboard : t.board = s.board := by rw [show t = _ from hsame]; rfl
  have himg : t.img = s.img := by rw [show t = _ from hsame]; rfl
  have hvariant : t.variant = s.variant := by rw [show t = _ from hsame]; rfl
  have hlist : t.galList = s.galList := congrArg (fun v : Variant => (List.range 16).filter v.hasGal) hvariant
  have hrv : ∀ i, t.rv i = s.rv i := fun i => by unfold State.rv; rw [hboard]
  refine ⟨fun hshort => ?_, fun hw hlate => ?_, fun hw hall => ?_⟩
  · exact hrun.trans (congrArg _ (readPart_short _ (s := noteFlash ups s) (show whole < 0 + 256 by omega)))
  · exact hrun.trans (congrArg _ (readPart_waits _ (s := noteFlash ups s) (show 0 + 256 ≤ whole by omega) (show here < 0 + 256 by omega)))
  have hstep : exec (.imageHeaderCheck ups) s = .next (answerChunks (headerStep h t)) := by
    rw [hrun, readPart_reads headerStep (s := noteFlash ups s) (show 0 + 256 ≤ whole by omega) (show 0 + 256 ≤ here by omega) hread]
    rw [show (noteFlash ups s).imgBytes 0 256 = h from hh.symm]
  have hfault : ∀ {c d : Nat}, headerFault s.variant h = some (c, d) → e (bank c d t) := fun hf => by
    rw [← hvariant] at hf
    rw [← headerStep_fault hf]
    exact hstep
  refine ⟨fun hcrc => hfault (headerFault_crc hcrc), fun hcrc => ⟨fun hfmt => hfault (headerFault_format hcrc hfmt),
    fun hfmt hmagic => hfault (headerFault_part hcrc hfmt hmagic), fun hfmt hmagic => ⟨fun hs =>
      hfault (headerFault_stepping hcrc hfmt hmagic hs), fun hlow hhigh => ⟨fun i hi hfirst => ?_, fun hnone hp hp' => ?_, fun hnone hp => ?_⟩⟩⟩⟩
  · exact hfault (headerFault_absent hcrc hfmt hmagic hlow hhigh hi.1 hi.2.1 hi.2.2 (fun j hj hb => hfirst j hj ⟨hj.trans hi.1, hb⟩))
  · exact hfault ((headerFault_present hcrc hfmt hmagic hlow hhigh hnone).trans (if_pos ⟨hp, hp'⟩))
  · have hnofault : headerFault t.variant h = none := by
      rw [hvariant, headerFault_present hcrc hfmt hmagic hlow hhigh hnone, if_neg (fun hn => hp.elim hn.1 hn.2)]
    obtain ⟨hfields, hhold, hver, hser, -, hdom⟩ := takeHeader_brings h t
    rw [headerStep_passes hnofault, hrv] at hstep
    rw [himg] at hfields
    rw [hlist] at hdom
    refine ⟨takeHeader h t, fun hsig => ?_, fun hsig h8 h12 => ?_, fun hsig hfree => ?_, hfields, hhold, hver, hser, hdom⟩
    · rw [if_pos hsig] at hstep; exact hstep
    · rw [if_neg (by rw [hsig]; decide), if_pos ⟨h8, h12⟩] at hstep; exact hstep
    · rw [if_neg (by rw [hsig]; decide), if_neg (by omega)] at hstep; exact hstep

theorem signatureCheck_cases (hphase : s.kin.phase = 5) {t : State} {b : List Byte} (hb : b = s.imgBytes 256 256)
    (hread : streamRead 256 256 s = (none, t)) (hsize : 512 ≤ s.imgSize) (hhere : 512 ≤ s.imgAvail) :
    let q := slice b 0x10 96
    let e := slice b 0x70 32
    let formed := b.take 4 = [0x50, 0x59, 0x53, 0x47] ∧ leAt b 4 2 = 256 ∧ leAt b 6 2 = 1 ∧ crc32 (b.take 252) = wd (leAt b 252 4)
    let valid := ecdsaVerify (beNat (slice b 0x10 48)) (beNat (slice b 0x40 48)) (beNat e) (beNat (slice b 0x90 48)) (beNat (slice b 0xC0 48)) = true
    (¬ formed → exec .signatureCheck s = .next (answerChunks (bank 0x32 0 t))) ∧
    (formed → s.img.keyHash ≠ some (sha256 q) → exec .signatureCheck s = .next (answerChunks (bank 0x31 0 t))) ∧
    (formed → s.img.keyHash = some (sha256 q) → ¬ valid → exec .signatureCheck s = .next (answerChunks (bank 0x32 0 t))) ∧
    (formed → s.img.keyHash = some (sha256 q) → valid → exec .signatureCheck s = .next (answerChunks (toPhase 6
      { t.putPar 0x23 (wd (s.img.entry + 16 * s.img.block + 32)) with img := { s.img with digest := some e, signed := true } }))) := by
  intro q e formed valid
  have himg : t.img = s.img := by
    have h := flashRead_streamRead 256 256 s
    rw [hread] at h
    rw [show t = _ from h]
  have hstep : exec .signatureCheck s = .next (answerChunks (signatureStep b t)) := by
    rw [exec_signatureCheck hclk hphase, readPart_reads signatureStep hsize hhere hread, ← hb]
  have hform : formed ↔ ¬ (b.take 4 ≠ [0x50, 0x59, 0x53, 0x47] ∨ leAt b 4 2 ≠ 256 ∨ leAt b 6 2 ≠ 1 ∨
      crc32 (b.take 252) ≠ wd (leAt b 252 4)) := by simp only [formed, not_or, not_not, ne_eq]
  refine ⟨fun hbad => ?_, fun hok hkey => ?_, fun hok hkey hbad => ?_, fun hok hkey hvalid => ?_⟩
  · rw [hstep, signatureStep, if_pos (not_not.1 (fun h => hbad (hform.2 h)))]
  · rw [hstep, signatureStep, if_neg (hform.1 hok), if_pos (by rw [himg]; exact hkey)]
  · rw [hstep, signatureStep, if_neg (hform.1 hok), if_neg (by rw [himg]; exact not_not_intro hkey),
      if_pos (by rw [Bool.not_eq_true']; exact Bool.eq_false_iff.2 hbad)]
  · rw [hstep, signatureStep, if_neg (hform.1 hok), if_neg (by rw [himg]; exact not_not_intro hkey),
      if_neg (by rw [Bool.not_eq_true']; exact fun h => Bool.noConfusion (h.symm.trans hvalid)), himg]
    rfl

end

/-- Settles O37: each row by its checks in order; the scan keeps the first entry of the highest SEQ, and the header's
galleries go off without touching what it brought. -/
theorem kindlingFindsItsImage : Obligations.KindlingFindsItsImage := by
  intro s ups good
  refine ⟨?_, ?_, ?_, fun x hx => scanJournal_best hx, ?_, ?_, ?_, ?_⟩
  · rintro ⟨hclk, hphase⟩
    exact exec_keeperCycle16 hclk hphase
  · rintro d ⟨hclk, hphase⟩ hd
    refine ⟨?_, ?_⟩
    · rintro rfl
      exact exec_domainPowerUp_bad hclk hphase hd
    · rintro rfl
      have hrest := powered_rest s d
      refine ⟨s.powered d, dom_powered s d, gal_powered s d, hrest, ?_⟩
      have hcount : (s.powered d).kin.poweredUp = s.kin.poweredUp + 1 := by rw [hrest]
      have horder : (s.powered d).domOrder = s.domOrder := by rw [hrest]; rfl
      have hhost : (s.powered d).img.host = s.img.host := by rw [hrest]
      rw [exec_domainPowerUp_good hclk hphase hd, hcount, horder, hhost]
      rfl
  · rintro ⟨hclk, hphase⟩ hjournal hop
    exact ⟨_, scanNow_rest (noteFlash ups s), fun x hx => par_scanNow_some hx, fun hx => par_scanNow_none hx,
      exec_journalScan hclk hphase hjournal hop rfl⟩
  · rintro ⟨hclk, hphase⟩ hjournal
    refine ⟨fun hblock => ?_, fun hblock => ⟨fun i hi hbad hfirst => ?_, fun hgood => ?_⟩⟩
    · rw [exec_bootRecordRead_host hclk hphase hjournal hblock, afterBoot_eq (s := s) rfl]
      rfl
    · exact ⟨_, wordsRead_readWords _ _ _, exec_bootRecordRead_ecc hclk hphase hjournal hblock (firstFatal_eq_some hi hbad hfirst)⟩
    · exact bootRecordRead_cases hclk hphase hjournal hblock hgood
  · rintro ⟨hclk, hphase⟩
    exact imageSelect_cases hclk hphase ups
  · rintro t h ⟨hclk, hphase⟩ hh hread
    exact imageHeaderCheck_cases hclk hphase hh hread
  · rintro t b ⟨hclk, hphase⟩ hb hread hsize hhere
    exact signatureCheck_cases hclk hphase hb hread hsize hhere

end Sys2Proof.Machine
end

section
/-!
SUPPORT (chapters 4 and 5). What a domain that leaves the on state, and the banked state, change: the core of the device
stands apart from what links, transactions and writers do when a domain goes.
-/

namespace Sys2Proof.Machine

/-- The part of the state that the work of galleries, ports and the mesh does not touch. -/
def State.core (s : State) : Kindle × Image × Board × Clock × Flash × Power × Variant :=
  (s.kin, s.img, s.board, s.clk, s.flash, s.pwr, s.variant)

@[simp] theorem core_putPar (s : State) (n : Nat) (v : Word) : (s.putPar n v).core = s.core := rfl

@[simp] theorem core_count (s : State) (n k : Nat) : (s.count n k).core = s.core := rfl

@[simp] theorem core_tally (s : State) (n k : Nat) : (s.tally n k).core = s.core := rfl

@[simp] theorem core_modGal (s : State) (g : Nat) (f : Gallery → Gallery) : (s.modGal g f).core = s.core := rfl

@[simp] theorem core_modPort (s : State) (p : Nat) (f : Port → Port) : (s.modPort p f).core = s.core := rfl

@[simp] theorem core_modSeam (s : State) (p : Nat) (f : Seam → Seam) : (s.modSeam p f).core = s.core := rfl

@[simp] theorem core_raise (s : State) (e : Nat) (l : List Byte) : (s.raise e l).core = s.core := by rw [raise_rest]; rfl

@[simp] theorem core_raiseLink (s : State) (p c : Nat) (l : List Byte) : (s.raiseLink p c l).core = s.core := core_raise ..

@[simp] theorem core_present (p : Packet) (s : State) : (present p s).core = s.core := rfl

@[simp] theorem core_replyData (p : Packet) (n : Nat) (l : List Byte) (s : State) : (replyData p n l s).core = s.core := rfl

@[simp] theorem core_replyError (p : Packet) (st : Nat) (s : State) : (replyError p st s).core = s.core := rfl

@[simp] theorem core_respond (c : Cmd) (st : Nat) (l : List Byte) (s : State) : (respond c st l s).core = s.core := by
  rw [respond_rest]; rfl

/-- A fold of steps that keep the core keeps it. -/
theorem core_foldl {α : Type} {f : State → α → State} (hf : ∀ s x, (f s x).core = s.core) (l : List α) (s : State) :
    (l.foldl f s).core = s.core := by
  induction l generalizing s with
  | nil => rfl
  | cons x l ih => rw [List.foldl_cons, ih, hf]

@[simp] theorem core_endMemRead (c : Cmd) (part st : Nat) (d : List Byte) (s : State) : (endMemRead c part st d s).core = s.core := by
  rw [endMemRead_rest]; rfl

@[simp] theorem core_icpOutcome (g seq cfa : Nat) (ask : Option Packet) (st : Nat) (s : State) :
    (icpOutcome g seq cfa ask st s).core = s.core := by
  unfold icpOutcome modStaging
  dsimp only
  split <;> repeat' split
  all_goals simp

@[simp] theorem core_close (p : Purpose) (st : Nat) (d : List Byte) (s : State) : (p.close st d s).core = s.core := by
  cases p with
  | dma => rfl
  | bulk => rfl
  | lampRead => exact core_endMemRead ..
  | icp => exact core_icpOutcome ..
  | message => rfl

@[simp] theorem core_endTrans (t : Trans) (st : Nat) (d : List Byte) (s : State) : (endTrans t st d s).core = s.core := by
  unfold endTrans
  split
  · exact core_close ..
  · rfl

@[simp] theorem core_endTransAll (p : Trans → Bool) (st : Nat) (s : State) : (endTransAll p st s).core = s.core :=
  core_foldl (fun s t => core_endTrans t st [] s) _ s

@[simp] theorem core_seamDown (p reason : Nat) (s : State) : (seamDown p reason s).core = s.core := by
  unfold seamDown
  dsimp only
  split
  · simp
  · split <;> rfl

@[simp] theorem core_startLink (l : Nat) (s : State) : (startLink l s).core = s.core := by
  rw [(startLink_starts l s).rest]; rfl

@[simp] theorem core_dropLink (l : Nat) (s : State) : (dropLink l s).core = s.core := by
  unfold dropLink
  dsimp only
  split <;> simp

theorem core_eachLink {f : Nat → State → State} (hf : ∀ l s, (f l s).core = s.core) (p : Nat) (s : State) :
    (eachLink p f s).core = s.core := by
  refine core_foldl (fun s tx => ?_) _ s
  split
  · exact hf _ s
  · rfl

@[simp] theorem core_portLeaves (p : Nat) (s : State) : (portLeaves p s).core = s.core := by
  unfold portLeaves
  rw [core_eachLink core_dropLink, core_modSeam, core_seamDown]

@[simp] theorem core_nextEntry (s : State) : (nextEntry s).core = s.core := by
  unfold nextEntry
  dsimp only
  split
  · rfl
  · split
    · rw [core_raise]; rfl
    · rfl

@[simp] theorem core_dropRepair (d : Nat) (s : State) : (dropRepair d s).core = s.core := by
  unfold dropRepair
  split
  · split
    · split
      · exact core_nextEntry s
      · rfl
    · rfl
  · rfl

@[simp] theorem core_dropWriters (p : Nat) (s : State) : (dropWriters p s).core = s.core := by
  refine core_foldl (fun s w => ?_) _ _
  cases w with
  | lamp c => exact core_respond ..
  | icp q => rfl
  | _ => rfl

@[simp] theorem core_loseDomain (d : Nat) (s : State) : (loseDomain d s).core = s.core := by
  have hrepair := core_dropRepair d
    { s with sweep := { s.sweep with shadows := s.sweep.shadows.filter (fun h => decide (cfaDomain h.cfa ≠ d)) } }
  unfold loseDomain
  dsimp only
  split
  · exact (core_dropWriters ..).trans hrepair
  · split
    · exact (core_dropWriters ..).trans hrepair
    · exact hrepair

/-- What a domain's own record stands at when it leaves the on state (Table 4.4). -/
def State.domLeaves (s : State) (d : Nat) (st : DomSt) : State :=
  s.modDom d (fun x => { x with st := st, moving := false, waking := false })

theorem core_leaveOn (d : Nat) (st : DomSt) (s : State) : (leaveOn d st s).core = (s.domLeaves d st).core := by
  have hports : ∀ u : State, (if 16 ≤ d ∧ d < 24 ∧ (s.dom d).st = .on then (s.pairPorts d).foldl (fun s p => portLeaves p s) u
      else u).core = u.core := fun u => by
    split
    · exact core_foldl (fun s p => core_portLeaves p s) _ u
    · rfl
  unfold leaveOn
  dsimp only
  split
  · rw [core_loseDomain]; exact hports (s.domLeaves d st)
  · exact hports (s.domLeaves d st)

theorem core_eq {s t : State} : s.core = t.core ↔ s.kin = t.kin ∧ s.img = t.img ∧ s.board = t.board ∧ s.clk = t.clk ∧
    s.flash = t.flash ∧ s.pwr = t.pwr ∧ s.variant = t.variant := by
  simp [State.core]

/-- `t` is a step on the way to the banked state: domains may have gone off and no more of the core has changed. -/
structure State.PowersDown (s t : State) : Prop where
  kin     : t.kin = s.kin
  img     : t.img = s.img
  board   : t.board = s.board
  clk     : t.clk = s.clk
  flash   : t.flash = s.flash
  variant : t.variant = s.variant
  off     : ∀ d, (s.dom d).st = .off → (t.dom d).st = .off

theorem State.PowersDown.trans {s t u : State} (h : s.PowersDown t) (h' : t.PowersDown u) : s.PowersDown u where
  kin := h'.kin.trans h.kin
  img := h'.img.trans h.img
  board := h'.board.trans h.board
  clk := h'.clk.trans h.clk
  flash := h'.flash.trans h.flash
  variant := h'.variant.trans h.variant
  off d hd := h'.off d (h.off d hd)

/-- A domain that banking powers down. -/
def bankOff (s : State) (d : Nat) : State :=
  if (s.dom d).st = .off then s else (leaveOn d .off s).modDom d (fun _ => Dom.reset)

theorem bankOff_off (s : State) (d : Nat) : ((bankOff s d).dom d).st = .off := by
  unfold bankOff
  split
  · next h => exact h
  · rw [State.dom_modDom_same]; rfl

theorem powersDown_bankOff (s : State) (d : Nat) : s.PowersDown (bankOff s d) := by
  have hself := bankOff_off s d
  unfold bankOff at *
  split
  · exact ⟨rfl, rfl, rfl, rfl, rfl, rfl, fun _ h => h⟩
  · next hon =>
    obtain ⟨hkin, himg, hboard, hclk, hflash, hpwr, hvariant⟩ := core_eq.1 (core_leaveOn d .off s)
    refine ⟨hkin, himg, hboard, hclk, hflash, hvariant, fun k hk => ?_⟩
    by_cases hkd : k = d
    · rw [hkd, State.dom_modDom_same]; rfl
    · rw [State.dom_modDom_ne _ _ _ _ hkd, State.dom, hpwr]
      exact (congrArg Dom.st (State.dom_modDom_ne s d k _ hkd)).trans hk

theorem powersDown_foldl (l : List Nat) (s : State) :
    s.PowersDown (l.foldl bankOff s) ∧ ∀ d ∈ l, ((l.foldl bankOff s).dom d).st = .off := by
  induction l generalizing s with
  | nil => exact ⟨⟨rfl, rfl, rfl, rfl, rfl, rfl, fun _ h => h⟩, fun _ h => absurd h List.not_mem_nil⟩
  | cons a l ih =>
    obtain ⟨hdown, hall⟩ := ih (bankOff s a)
    refine ⟨(powersDown_bankOff s a).trans hdown, fun d hd => ?_⟩
    obtain rfl | hd := List.mem_cons.1 hd
    · exact hdown.off d (bankOff_off s d)
    · exact hall d hd

/-! ### The banked state (R96) -/

/-- The events that waited for the end of kindling do not touch the core. -/
theorem core_raiseDeferred (s : State) : (raiseDeferred s).core = ({ s with clk := { s.clk with deferred := [] } } : State).core :=
  core_foldl (fun s (e : Deferred) => core_raise s e.event e.data) _ _

theorem params_foldl_raise (l : List Deferred) (s : State) : (l.foldl (fun s e => s.raise e.event e.data) s).params = s.params := by
  induction l generalizing s with
  | nil => rfl
  | cons e l ih => rw [List.foldl_cons, ih, State.raise_params]

theorem params_raiseDeferred (s : State) : (raiseDeferred s).params = s.params := params_foldl_raise _ _

theorem core_answerChunks (s : State) : (answerChunks s).core = s.core := core_foldl (fun s c => core_respond c _ [] s) _ s

theorem answerChunks_rest (s : State) :
    answerChunks s = { s with lamp := (answerChunks s).lamp, pcie := (answerChunks s).pcie } := by
  have hfold : ∀ (l : List Cmd) (t : State), l.foldl (fun s c => respond c stSuccess [] s) t = { t with
      lamp := (l.foldl (fun s c => respond c stSuccess [] s) t).lamp, pcie := (l.foldl (fun s c => respond c stSuccess [] s) t).pcie } := by
    intro l
    induction l with
    | nil => exact fun _ => rfl
    | cons c l ih => intro t; rw [List.foldl_cons, ih, respond_rest]
  exact hfold _ s

/-- The domains are off and the journal has been scanned. -/
def State.bankReady (s : State) : State :=
  if (s.domOrder.foldl bankOff s).kin.journalOk then s.domOrder.foldl bankOff s else scanNow (s.domOrder.foldl bankOff s)

/-- The record that banking writes, before its events. -/
def State.bankRecord (s : State) (code detail : Nat) : State :=
  ({ s.bankReady with kin := { s.bankReady.kin with
    phase := 10, code := code, failPhase := s.bankReady.kin.phase, outputs := false, gsr := true, writeEn := false } } : State).putPar
    0x21 (wd detail)

theorem bank_eq (code detail : Nat) (s : State) : bank code detail s =
    answerChunks ((raiseDeferred (s.bankRecord code detail)).raise 0x11
      (leBytes 4 (raiseDeferred (s.bankRecord code detail)).kindleStatus ++
        leBytes 4 ((raiseDeferred (s.bankRecord code detail)).parN 0x21))) := rfl

theorem bankReady_brings (s : State) :
    s.bankReady.kin = { s.kin with journalOk := true } ∧ (∀ d ∈ s.domOrder, (s.bankReady.dom d).st = .off) ∧
    s.bankReady.flash.data = s.flash.data ∧ s.bankReady.flash.words = s.flash.words ∧ s.bankReady.img = s.img ∧
    s.bankReady.board = s.board ∧ s.bankReady.clk = s.clk := by
  obtain ⟨hdown, hoff⟩ := powersDown_foldl s.domOrder s
  unfold State.bankReady
  generalize s.domOrder.foldl bankOff s = t at *
  split
  · next hj =>
    refine ⟨?_, hoff, congrArg _ hdown.flash, congrArg _ hdown.flash, hdown.img, hdown.board, hdown.clk⟩
    rw [hdown.kin] at hj ⊢
    rw [← hj]
  · have hscan := scanNow_rest t
    generalize scanNow t = u at *
    have hdata : t.flash.data = s.flash.data := by rw [hdown.flash]
    have hwords : t.flash.words = s.flash.words := by rw [hdown.flash]
    rw [hscan]
    refine ⟨?_, hoff, hdata, hwords, hdown.img, hdown.board, hdown.clk⟩
    show ({ t.kin with journalOk := true } : Kindle) = _
    rw [hdown.kin]

/-- What the banked state holds (R79, R96, Table 4.6). -/
theorem bank_brings (code detail : Nat) (s : State) :
    (bank code detail s).kin =
      { s.kin with journalOk := true, phase := 10, code := code, failPhase := s.kin.phase, outputs := false, gsr := true, writeEn := false } ∧
    (bank code detail s).par 0x21 = wd detail ∧ (∀ d ∈ s.domOrder, ((bank code detail s).dom d).st = .off) ∧
    (bank code detail s).flash.data = s.flash.data ∧ (bank code detail s).flash.words = s.flash.words ∧
    (bank code detail s).img = s.img ∧ (bank code detail s).board = s.board ∧
    (bank code detail s).clk = { s.clk with deferred := [] } := by
  obtain ⟨hkin, hoff, hdata, hwords, himg, hboard, hclk⟩ := bankReady_brings s
  have hcore : (bank code detail s).core =
      ({ s.bankRecord code detail with clk := { (s.bankRecord code detail).clk with deferred := [] } } : State).core := by
    rw [bank_eq, core_answerChunks, core_raise, core_raiseDeferred]
  have hparams : (bank code detail s).params = (s.bankRecord code detail).params := by
    rw [bank_eq, answerChunks_rest]
    exact (State.raise_params ..).trans (params_raiseDeferred _)
  obtain ⟨hkin', himg', hboard', hclk', hflash', hpwr', -⟩ := core_eq.1 hcore
  refine ⟨hkin'.trans ?_, ?_, fun d hd => ?_, ?_, ?_, himg'.trans himg, hboard'.trans hboard, hclk'.trans ?_⟩
  · show ({ s.bankReady.kin with
      phase := 10, code := code, failPhase := s.bankReady.kin.phase, outputs := false, gsr := true, writeEn := false } : Kindle) = _
    rw [hkin]
  · exact (congrArg (fun p => tabGet (paramReset 0x21) p 0x21) hparams).trans (State.par_putPar_same ..)
  · exact (congrArg (fun p : Power => (tabGet Dom.reset p.domains d).st) hpwr').trans (hoff d hd)
  · exact (congrArg Flash.data hflash').trans hdata
  · exact (congrArg Flash.words hflash').trans hwords
  · exact congrArg (fun k : Clock => { k with deferred := [] }) hclk

end Sys2Proof.Machine
end

section
/-!
PROOF of O40 (chapters 4 and 5): host loads, the banked state, and the warm reset.
-/

namespace Sys2Proof.Machine

theorem loadsFrom_iff (s : State) (via : Transport) : s.loadsFrom via = true ↔
    match via with | .pcie => s.rv 7 = 3 ∨ s.rv 7 = 11 | .lampPair => s.rv 7 = 4 ∨ s.rv 7 = 12 := by
  cases via <;> exact decide_eq_true_iff

theorem loading_iff (s : State) : s.loading = true ↔ s.img.host = true ∧ (s.kin.phase = 1 ∨ (4 ≤ s.kin.phase ∧ s.kin.phase ≤ 6)) := by
  rw [State.loading, Bool.and_eq_true, decide_eq_true_iff]

theorem banked_iff (s : State) : s.banked = true ↔ s.kin.phase = 10 := decide_eq_true_iff

/-! ### Host loads (R98, R309) -/

section
variable {s : State} {c : Cmd}

theorem imageBegin_refused (h : s.loadsFrom c.via = false ∨ (s.kin.phase ≠ 11 ∧ ¬ (s.kin.phase = 10 ∧ s.img.host = true))) :
    imageBeginCmd c s = respond c 1 [] s := by
  unfold imageBeginCmd
  dsimp only
  cases hl : s.loadsFrom c.via with
  | false => exact if_pos rfl
  | true =>
    obtain ⟨h11, h10⟩ := h.resolve_left (by rw [hl]; decide)
    have hno : (s.banked && s.img.host) = false := Bool.eq_false_iff.2 fun h =>
      h10 ⟨(banked_iff s).1 (Bool.and_eq_true_iff.1 h).1, (Bool.and_eq_true_iff.1 h).2⟩
    rw [hno]
    exact (if_neg Bool.false_ne_true).trans ((if_neg h11).trans (if_neg Bool.false_ne_true))

variable (hl : s.loadsFrom c.via = true)
include hl

theorem imageBegin_awaited (h : s.kin.phase = 11) : imageBeginCmd c s = respond c 0 []
    { s with kin := { s.kin with phase := 4 }, img := { s.img with hostLen := leAt c.body 0 4, hostBytes := [] } } := by
  unfold imageBeginCmd
  dsimp only
  rw [if_neg (by rw [hl]; decide), if_pos h]
  rfl

theorem imageBegin_again (h : s.kin.phase = 10) (hhost : s.img.host = true) :
    imageBeginCmd c s = respond c 0 [] (loadAgain (leAt c.body 0 4) s) := by
  have hbank : (s.banked && s.img.host) = true := by rw [(banked_iff s).2 h, hhost]; rfl
  unfold imageBeginCmd
  dsimp only
  rw [if_neg (by rw [hl]; decide), if_neg (by omega), if_pos hbank]
  rfl

theorem imageData_range (hload : s.loading = true) (h : c.body.length - 8 = 0 ∨ 2016 < c.body.length - 8 ∨
    leAt c.body 0 4 ≠ s.img.hostBytes.length ∨ s.img.hostLen < leAt c.body 0 4 + (c.body.length - 8)) :
    imageDataCmd c s = respond c 9 [] s := by
  unfold imageDataCmd
  dsimp only
  rw [if_neg (by rw [hl, hload]; decide), if_pos h]
  rfl

theorem imageData_takes (hload : s.loading = true) (h : ¬ (c.body.length - 8 = 0 ∨ 2016 < c.body.length - 8 ∨
    leAt c.body 0 4 ≠ s.img.hostBytes.length ∨ s.img.hostLen < leAt c.body 0 4 + (c.body.length - 8))) :
    imageDataCmd c s = answerChunks
      (({ s with img := { s.img with hostBytes := s.img.hostBytes ++ c.body.drop 8 } } : State).begun c) := by
  unfold imageDataCmd
  dsimp only
  rw [if_neg (by rw [hl, hload]; decide), if_neg h]
  rfl

end

theorem imageData_refused {s : State} {c : Cmd} (h : s.loadsFrom c.via = false ∨ s.loading = false) :
    imageDataCmd c s = respond c 1 [] s := by
  unfold imageDataCmd
  exact if_pos (by rcases h with h | h <;> simp [h])

theorem imageAbort_eq (c : Cmd) (s : State) : imageAbortCmd c s =
    if s.loadsFrom c.via = true ∧ (s.loading = true ∨ s.kin.phase = 11) then bank 0x52 0 (respond c 0 [] s) else respond c 1 [] s := by
  unfold imageAbortCmd
  exact if_congr (by simp) rfl rfl

/-- A second load keeps what the boot record gave and starts from the first domain (R96, R98). -/
theorem loadAgain_brings (len : Nat) (s : State) :
    loadAgain len s = { s with
      params := (loadAgain len s).params
      kin := { Kindle.reset with phase := 1, warnings := if s.board.rvFlags = 0 then 0 else 8, journalOk := true, pullDown := s.kin.pullDown }
      img := { Image.reset with host := true, hostLen := len, block := s.img.block, blockOk := s.img.blockOk,
                                keyHash := s.img.keyHash, defEntry := s.img.defEntry } } ∧
    (loadAgain len s).par 0x21 = 0 ∧ (loadAgain len s).par 0x22 = 1000 ∧
    ∀ k, k ∉ [0x1A, 0x1B, 0x21, 0x22, 0x23] → (loadAgain len s).par k = s.par k := by
  refine ⟨rfl, ?_, ?_, fun k hk => ?_⟩
  · unfold loadAgain recordImage
    rw [State.par_putPar_ne _ _ _ _ (by decide), State.par_putPar_ne _ _ _ _ (by decide), State.par_putPar_ne _ _ _ _ (by decide),
      State.par_putPar_ne _ _ _ _ (by decide), State.par_putPar_same]
  · unfold loadAgain recordImage
    rw [State.par_putPar_ne _ _ _ _ (by decide), State.par_putPar_ne _ _ _ _ (by decide), State.par_putPar_ne _ _ _ _ (by decide),
      State.par_putPar_same]
  · simp only [List.mem_cons, List.not_mem_nil, or_false, not_or] at hk
    obtain ⟨h1a, h1b, h21, h22, h23⟩ := hk
    unfold loadAgain recordImage
    rw [State.par_putPar_ne _ _ _ _ h23, State.par_putPar_ne _ _ _ _ h1b, State.par_putPar_ne _ _ _ _ h1a,
      State.par_putPar_ne _ _ _ _ h22, State.par_putPar_ne _ _ _ _ h21]
    rfl

/-! ### The warm reset (Table 4.6, R76) -/

theorem par_warmReset (s : State) (k : Nat) : (warmReset s).par k = if warmKeeps k = true then s.par k else paramReset k :=
  tabGet_filter (paramReset k) s.params warmKeeps k

theorem port_warmReset (s : State) {p : Nat} (hp : p < 16) : (warmReset s).port p = (s.port p).atPowerUp :=
  (tabGet_tabBlock ..).trans ((if_pos (by omega)).trans (by rw [Nat.sub_zero]))

theorem dom_warmReset (s : State) {d : Nat} (hd : d < 25) : (warmReset s).dom d = { Dom.reset with critical := (s.dom d).critical } :=
  (tabGet_tabBlock ..).trans ((if_pos (by omega)).trans (by rw [Nat.sub_zero]))

theorem warmKeeps_iff (k : Nat) : warmKeeps k = true ↔
    (0x200 ≤ k ∧ k ≤ 0x24F) ∨ (0x300 ≤ k ∧ k ≤ 0x306) ∨ (0x3D00 ≤ k ∧ k ≤ 0x3D0A) ∨ (0x3800 ≤ k ∧ k ≤ 0x3805) := decide_eq_true_iff

/-- Settles O40: each load command by its conditions, banking by `bank_brings`, the warm reset field by field. -/
theorem hostLoadsBankingAndWarmReset : Obligations.HostLoadsBankingAndWarmReset := by
  intro s c code detail len n here loading
  have hhere : s.loadsFrom c.via = true ↔ here := loadsFrom_iff s c.via
  have hload : s.loading = true ↔ loading := loading_iff s
  have hnot : ∀ {b : Bool} {P : Prop}, (b = true ↔ P) → ¬ P → b = false := fun h hP => Bool.eq_false_iff.2 fun hb => hP (h.1 hb)
  refine ⟨fun hst => ?_, fun hst => ?_, fun hst => ?_, ⟨_, rfl, bank_brings code detail s⟩, fun hst => ?_⟩
  · have hrun : exec (.imageBegin c.via) s = .next (imageBeginCmd c s) := congrArg _ (runCmd_eq hst _)
    rw [hrun]
    refine ⟨fun h => ?_, fun h h11 => ?_, fun h h10 hhost => ?_⟩
    · exact congrArg _ (imageBegin_refused (h.imp (hnot hhere) id))
    · exact congrArg _ (imageBegin_awaited (hhere.2 h) h11)
    · exact ⟨_, congrArg _ (imageBegin_again (hhere.2 h) h10 hhost), loadAgain_brings len s⟩
  · have hrun : exec (.imageData c.via) s = .next (imageDataCmd c s) := congrArg _ (runCmd_eq hst _)
    rw [hrun]
    refine ⟨fun h => ?_, fun h hl hr => ?_, fun h hl h1 h2 h3 h4 => ?_⟩
    · exact congrArg _ (imageData_refused (h.imp (hnot hhere) (hnot hload)))
    · exact congrArg _ (imageData_range (hhere.2 h) (hload.2 hl) hr)
    · exact congrArg _ (imageData_takes (hhere.2 h) (hload.2 hl) (by omega))
  · have hrun : exec (.imageAbort c.via) s = .next (imageAbortCmd c s) := congrArg _ (runCmd_eq hst _)
    rw [hrun, imageAbort_eq]
    refine ⟨fun h hl => congrArg _ (if_pos ⟨hhere.2 h, hl.imp hload.2 id⟩), fun h => congrArg _ (if_neg fun hc => ?_)⟩
    exact h ⟨hhere.1 hc.1, hc.2.imp hload.1 id⟩
  · have hrun : exec (.reset c.via) s = .next (resetCmd c s) := congrArg _ (runCmd_eq hst _)
    rw [hrun]
    refine ⟨fun h => congrArg _ (if_pos h), fun h => ⟨_, congrArg _ (if_neg (not_not_intro h)), ?_⟩⟩
    have hrest := respond_rest c stSuccess [] s
    have hgal : ∀ g, (warmReset (respond c stSuccess [] s)).gal g = Gallery.reset := fun _ => rfl
    have hpar := par_warmReset (respond c stSuccess [] s)
    have hport : ∀ p < 16, _ := fun p hp => port_warmReset (respond c stSuccess [] s) (p := p) hp
    have hdom : ∀ d < 25, _ := fun d hd => dom_warmReset (respond c stSuccess [] s) (d := d) hd
    refine ⟨?_, rfl, hgal, fun k => (hpar k).trans (if_congr (warmKeeps_iff k) rfl rfl), fun p hp => (hport p hp).trans ?_,
      fun d hd => (hdom d hd).trans ?_, rfl, ?_, rfl, rfl, rfl, ?_, rfl, ?_, rfl, rfl, rfl, rfl, rfl, ?_⟩
    all_goals
      generalize respond c stSuccess [] s = u at *
      rw [hrest]
      rfl

end Sys2Proof.Machine
end

section
/-!
PROOF of O38 (chapters 5 and 6): the rows of kindling that take frames, their checks and their effects.
-/

namespace Sys2Proof.Machine

/-! ### The checks that every row makes (R83, R96, R107) -/

section
variable {s t u : State} (hclk : s.clocked = true) (hphase : s.kin.phase = 6) {type : Nat} {act : Fr → State → Nat × State} {f : Fr}
include hclk hphase

theorem loadFrame_bad {code detail : Nat} (h : nextFrame s = (.bad code detail, t)) : loadFrame type act s = bank code detail t := by
  unfold loadFrame
  rw [inPhase_here hclk hphase, h]

theorem loadFrame_wait (h : nextFrame s = (.wait, t)) : loadFrame type act s = s := by
  unfold loadFrame
  rw [inPhase_here hclk hphase, h]

variable (h : nextFrame s = (.frame f, t))
include h

theorem loadFrame_unknown (hsec : frameSection f.type = none) : loadFrame type act s = bank 0x41 f.idx t := by
  unfold loadFrame
  rw [inPhase_here hclk hphase, h]
  exact if_pos hsec

variable (hsec : frameSection f.type ≠ none) (htype : f.type = type)
include hsec htype

theorem loadFrame_commit {l : Nat} (hc : (if frameKind type = none then commitLeads t.img.linkLeads t else (none, t)) = (some l, u)) :
    loadFrame type act s = bank 0x44 (u.frameIndex (0x40000001 + l * 65536)) u := by
  unfold loadFrame
  rw [inPhase_here hclk hphase, h]
  dsimp only
  rw [if_neg hsec, if_neg (not_not_intro htype), hc]

variable (hc : (if frameKind type = none then commitLeads t.img.linkLeads t else (none, t)) = (none, u))
include hc

theorem loadFrame_absent (habs : frameAbsent u.variant f = true) : loadFrame type act s = bank 0x42 f.idx u := by
  unfold loadFrame
  rw [inPhase_here hclk hphase, h]
  dsimp only
  rw [if_neg hsec, if_neg (not_not_intro htype), hc]
  exact if_pos habs

variable (habs : frameAbsent u.variant f = false)
include habs

theorem loadFrame_range (hok : frameOk f u = false) : loadFrame type act s = bank 0x44 f.idx u := by
  unfold loadFrame
  rw [inPhase_here hclk hphase, h]
  dsimp only
  rw [if_neg hsec, if_neg (not_not_intro htype), hc]
  exact (if_neg (by rw [habs]; decide)).trans (if_pos (by rw [hok]; rfl))

variable (hok : frameOk f u = true) {k : Nat} {r : State} (hact : act f u = (k, r))
include hok hact

theorem loadFrame_acts : loadFrame type act s = if k ≠ 0 then bank k f.idx r else answerChunks (endFrame f r) := by
  unfold loadFrame
  rw [inPhase_here hclk hphase, h]
  dsimp only
  rw [if_neg hsec, if_neg (not_not_intro htype), hc]
  refine (if_neg (by rw [habs]; decide)).trans ((if_neg (by rw [hok]; decide)).trans ?_)
  rw [hact]

end

/-! ### The rows -/

/-- The check of the end frame and its effect (R82, R84, R116, R117). -/
def endAct (f : Fr) (s : State) : Nat × State :=
  if f.len ≠ 16 ∨ s.imageComplete = false then (0x44, s)
  else
    let n := f.off + 40 - s.img.framesOff
    let bad := match s.img.digest with
      | some d => decide (sha256 (s.imgBytes 0 256 ++ s.imgBytes s.img.framesOff n) ≠ d)
      | none => false
    if bad then (0x33, s) else (0, toPhase 7 (finishLoad s))

/-- What a row does with a frame that passes the checks that every row makes. -/
def rowAct (type : Nat) : Fr → State → Nat × State :=
  match type with
  | 0x01 | 0x02 => ctxFrame
  | 0x03 => fun f s => (0, writeFrame f.cfa f.data s)
  | 0x04 => fun f s => rangeElse (tableOk f.data) s (s.modGal (cfaGal f.cfa) (loadTable f.data))
  | 0x05 => fun f s => rangeElse (s.seedOk f) s (s.modGal (cfaGal f.cfa) (writeSeed f))
  | 0x06 => fun f s => rangeElse (s.memFrameOk f f.len) s
      (s.modGal (cfaGal f.cfa) (fun x => { x with mem := tabBlock 0 x.mem f.aux f.len (byteAt f.data)
                                                  memBad := tabClear x.memBad (f.aux / 8) (f.len / 8) }))
  | 0x07 => fun f s => rangeElse (decide (f.len = 32 ∧ leAt f.data 0 4 % 16 = 0) && s.memFrameOk f (leAt f.data 0 4)) s
      (s.modGal (cfaGal f.cfa) (fillMem f.aux (leAt f.data 0 4) (slice f.data 16 16)))
  | 0x08 => fun f s => rangeElse (contentOk f.cfa f.data) s (writeFrame f.cfa f.data s)
  | 0x09 => fun f s => if cfaIndex f.cfa = 0 then portFrame0 f s else portFrame1 f s
  | 0x0A => fun f s => applyDefaults f.data (f.len / 8) 0 s
  | 0x0B => fun f s =>
    (0, { s with img := { s.img with mapRecs := s.img.mapRecs ++ mapWalk (f.off + 16) f.data (f.len / 16) 0 } })
  | 0x0C => fun f s =>
    let l := s.img.golden ++ (List.range (f.len / 16)).map (goldenAt f.data)
    let asc := (l.zip (l.drop 1)).all (fun e => decide (cfaNorm e.1.cfa < cfaNorm e.2.cfa))
    rangeElse (asc && l.all s.goldenOk) s { s with img := { s.img with golden := l } }
  | _ => endAct

/-- The end frame's row goes on to the hold point when it has reached the start-up steps (R86). -/
def rowEnd (type : Nat) (s t : State) : State :=
  if type = 0x0F then (if s.kin.phase = 6 ∧ t.kin.phase = 7 then reachHold t else t) else t

/-- The rows of frames and the types they take (Table 6.3). -/
def frameRows : List (Instr × Nat) :=
  [(Instr.planeFrame, 0x01), (.switchFrame, 0x02), (.sequencerFrame, 0x03), (.contextTable, 0x04), (.contextSeed, 0x05),
    (.memPreload, 0x06), (.fillRun, 0x07), (.tinderFrame, 0x08), (.portDefaults, 0x09), (.paramDefaults, 0x0A), (.essentialMap, 0x0B),
    (.goldenTable, 0x0C), (.endFrame, 0x0F)]

/-- The types of frames. -/
def frameTypes : List Nat := [0x01, 0x02, 0x03, 0x04, 0x05, 0x06, 0x07, 0x08, 0x09, 0x0A, 0x0B, 0x0C, 0x0F]

theorem exec_frame {s : State} {c : Instr} {type : Nat} (h : (c, type) ∈ frameRows) :
    type ∈ frameTypes ∧ exec c s = .next (rowEnd type s (loadFrame type (rowAct type) s)) := by
  simp only [frameRows, List.mem_cons, Prod.mk.injEq, List.not_mem_nil, or_false] at h
  rcases h with ⟨rfl, rfl⟩ | ⟨rfl, rfl⟩ | ⟨rfl, rfl⟩ | ⟨rfl, rfl⟩ | ⟨rfl, rfl⟩ | ⟨rfl, rfl⟩ | ⟨rfl, rfl⟩ | ⟨rfl, rfl⟩ | ⟨rfl, rfl⟩ |
    ⟨rfl, rfl⟩ | ⟨rfl, rfl⟩ | ⟨rfl, rfl⟩ | ⟨rfl, rfl⟩
  all_goals exact ⟨by decide, rfl⟩

theorem rowEnd_stays {type : Nat} {s t : State} (h : t.kin.phase ≠ 7) : rowEnd type s t = t := by
  unfold rowEnd
  split
  · exact if_neg (fun hh => h hh.2)
  · rfl

theorem rowEnd_bank {type : Nat} (s t : State) (code detail : Nat) : rowEnd type s (bank code detail t) = bank code detail t := by
  refine rowEnd_stays ?_
  rw [(bank_brings code detail t).1]
  exact (by decide : (10 : Nat) ≠ 7)

theorem rowEnd_other {type : Nat} (h : type ≠ 0x0F) (s t : State) : rowEnd type s t = t := if_neg h

theorem section_frameTypes {type : Nat} (h : type ∈ frameTypes) : frameSection type ≠ none := by
  revert h
  unfold frameTypes
  intro h
  fin_cases h <;> decide

/-- The part of the image that a type of frame belongs to (Table 6.3). -/
def framePart (type : Nat) : Nat :=
  if type ≤ 4 ∨ type = 8 ∨ type = 9 then 1 else if type ≤ 7 then 2 else if type = 0x0F then 6 else type - 7

/-- The state behind a frame that has been taken. -/
def frameBehind (type : Nat) (f : Fr) (r : State) : State := { r with img := { r.img with
  off := f.off + f.len + 24, index := f.idx + 1, sect := framePart type
  loaded := if type ≤ 4 ∨ type = 8 ∨ type = 9 then r.img.loaded ++ [(cfaNorm f.cfa, { gcrc := crc32 f.data, off := f.off })] else r.img.loaded } }

theorem part_frameTypes {type : Nat} (h : type ∈ frameTypes) : (frameSection type).getD 0 = framePart type ∧
    ((frameKind type).isSome = true ↔ type ≤ 4 ∨ type = 8 ∨ type = 9) := by
  unfold frameTypes at h
  fin_cases h <;> exact ⟨rfl, by decide⟩

theorem endFrame_eq {type : Nat} (h : type ∈ frameTypes) {f : Fr} (htype : f.type = type) (r : State) :
    endFrame f r = frameBehind type f r := by
  obtain ⟨hpart, hkind⟩ := part_frameTypes h
  unfold endFrame frameBehind
  rw [htype, hpart]
  simp only [hkind]

section
variable {s t u : State} {c : Instr} {type : Nat} {f : Fr} (hrow : (c, type) ∈ frameRows) (hclk : s.clocked = true) (hphase : s.kin.phase = 6)
  (h : nextFrame s = (.frame f, t)) (htype : f.type = type)
  (hc : (if frameKind type = none then commitLeads t.img.linkLeads t else (none, t)) = (none, u))
  (habs : frameAbsent u.variant f = false) (hok : frameOk f u = true)
include hrow hclk hphase h htype hc habs hok

/-- A frame whose own check fails banks the device with its code. -/
theorem frame_fails {k : Nat} {r : State} (hact : rowAct type f u = (k, r)) (hk : k ≠ 0) : exec c s = .next (bank k f.idx r) := by
  obtain ⟨hmem, hexec⟩ := exec_frame (s := s) hrow
  have hsec : frameSection f.type ≠ none := by rw [htype]; exact section_frameTypes hmem
  rw [hexec, loadFrame_acts hclk hphase h hsec htype hc habs hok hact, if_pos hk, rowEnd_bank]

/-- A sound frame takes effect and the engine goes on behind it. -/
theorem frame_loads {r : State} (hact : rowAct type f u = (0, r)) :
    exec c s = .next (rowEnd type s (answerChunks (frameBehind type f r))) := by
  obtain ⟨hmem, hexec⟩ := exec_frame (s := s) hrow
  have hsec : frameSection f.type ≠ none := by rw [htype]; exact section_frameTypes hmem
  rw [hexec, loadFrame_acts hclk hphase h hsec htype hc habs hok hact, if_neg (not_not_intro rfl), endFrame_eq hmem htype]

/-- A check that decides between the effect and FRAME_RANGE. -/
theorem frame_range {ok : Bool} {r : State} (hact : rowAct type f u = rangeElse ok u r) (hbad : ok = false) :
    exec c s = .next (bank 0x44 f.idx u) :=
  frame_fails hrow hclk hphase h htype hc habs hok (by rw [hact, hbad]; rfl) (by decide)

theorem frame_effect {ok : Bool} {r : State} (hact : rowAct type f u = rangeElse ok u r) (hgood : ok = true) (hnot : type ≠ 0x0F) :
    exec c s = .next (answerChunks (frameBehind type f r)) := by
  rw [frame_loads hrow hclk hphase h htype hc habs hok (r := r) (by rw [hact, hgood]; rfl), rowEnd_other hnot]

end

end Sys2Proof.Machine
end

section
/-!
PROOF of O38, continued: what each type of frame checks and does.
-/

namespace Sys2Proof.Machine

theorem ctxKnown_iff (u : State) (cfa : Nat) : u.ctxKnown cfa = true ↔
    u.hasFrame (0x20000000 + cfaGal cfa * 65536) = true ∧ ((u.gal (cfaGal cfa)).desc (cfaCtx cfa)).defined = true := by
  rw [State.ctxKnown, Bool.and_eq_true]

theorem seedOk_iff (u : State) (f : Fr) : u.seedOk f = true ↔ u.img.galMask.getLsbD (cfaGal f.cfa) = true ∧
    (u.hasFrame (0x20000000 + cfaGal f.cfa * 65536) = true ∧ ((u.gal (cfaGal f.cfa)).desc (cfaCtx f.cfa)).defined = true) ∧
    0x1800 ≤ f.aux ∧ f.aux + f.len ≤ 0x4000 := by
  rw [State.seedOk, Bool.and_eq_true, Bool.and_eq_true, decide_eq_true_iff, ctxKnown_iff, and_assoc]
  rfl

theorem memFrameOk_iff (u : State) (f : Fr) (n : Nat) : u.memFrameOk f n = true ↔
    u.img.galMask.getLsbD (cfaGal f.cfa) = true ∧ f.aux % 16 = 0 ∧ f.aux + n ≤ 0x200000 := by
  rw [State.memFrameOk, Bool.and_eq_true, decide_eq_true_iff]
  rfl

/-- A seed writes its bytes into its slot (R112). -/
theorem memByte_writeSeed (f : Fr) (x : Gallery) (a : Nat) : memByte (writeSeed f x).store a =
    if 0x4000 * cfaCtx f.cfa + f.aux ≤ a ∧ a < 0x4000 * cfaCtx f.cfa + f.aux + f.len then
      byteAt f.data (a - (0x4000 * cfaCtx f.cfa + f.aux)) else memByte x.store a := by
  have hstore : (writeSeed f x).store = tabBlock 0 x.store (slotSize * cfaCtx f.cfa + f.aux) f.len (byteAt f.data) := by
    unfold writeSeed
    dsimp only
    split <;> rfl
  rw [hstore]
  exact tabGet_tabBlock ..

/-- A seed that covers a byte of the accumulators marks them valid (R160). -/
theorem accValid_writeSeed (f : Fr) (x : Gallery) : ((writeSeed f x).desc (cfaCtx f.cfa)).accValid =
    ((x.desc (cfaCtx f.cfa)).accValid || decide (0x3800 < f.aux + f.len ∧ 0 < f.len)) := by
  unfold writeSeed
  dsimp only
  split
  · next h =>
    rw [decide_eq_true h, Bool.or_true]
    exact congrArg CtxDesc.accValid ((tabGet_tabSet ..).trans (if_pos rfl))
  · next h =>
    rw [decide_eq_false h, Bool.or_false]
    rfl

theorem byteAt_slice {l : List Byte} {off n i : Nat} (h : i < n) : byteAt (slice l off n) i = byteAt l (off + i) := by
  rw [slice, byteAt_take h, byteAt_drop]

/-- A fill repeats its 16 bytes over its range (R113). -/
theorem memByte_fillMem (a n : Nat) (d : List Byte) (x : Gallery) (y : Nat) : memByte (fillMem a n (slice d 16 16) x).mem y =
    if a ≤ y ∧ y < a + n then byteAt d (16 + (y - a) % 16) else memByte x.mem y :=
  (tabGet_tabBlock ..).trans (if_congr Iff.rfl (byteAt_slice (Nat.mod_lt _ (by decide))) rfl)

theorem goldenOrder_iff (u : State) (l : List Golden) :
    ((l.zip (l.drop 1)).all (fun e => decide (cfaNorm e.1.cfa < cfaNorm e.2.cfa)) && l.all u.goldenOk) = true ↔
      (∀ p ∈ l.zip (l.drop 1), cfaNorm p.1.cfa < cfaNorm p.2.cfa) ∧ ∀ x ∈ l, u.goldenOk x = true := by
  rw [Bool.and_eq_true, List.all_eq_true, List.all_eq_true]
  simp only [decide_eq_true_eq]

theorem leAt_zero_one (d : List Byte) : leAt d 0 1 = (byteAt d 0).toNat := by
  cases d with
  | nil => rfl
  | cons b d => exact leAt_one (Nat.succ_pos _)

/-- A PORT_DEFAULTS frame that fails leaves the state; index 0 that passes names a protocol of Table 14.1. -/
theorem portFrame0_fails {f : Fr} {u : State} (h : (portFrame0 f u).1 ≠ 0) : portFrame0 f u = (0x44, u) := by
  unfold portFrame0 rangeElse at *
  dsimp only at *
  split
  · next hok => rw [if_pos hok] at h; exact absurd rfl h
  · rfl

theorem portFrame0_passes {f : Fr} {u : State} (h : (portFrame0 f u).1 = 0) : (byteAt f.data 0).toNat ≤ 2 ∧ portFrame0 f u =
    (0, (u.putPar (portP (cfaGal f.cfa) 0x01) (wd (byteAt f.data 0).toNat)).modPort (cfaGal f.cfa) (fun q => { q with
      lockAt := (byteAt f.data 1).getLsbD 0, configured := true, bindCfg := slice f.data 16 16 })) := by
  rw [← leAt_zero_one]
  unfold portFrame0 rangeElse at *
  dsimp only at *
  split
  · next hok =>
    simp only [Bool.and_eq_true, decide_eq_true_eq] at hok
    exact ⟨hok.1.1.1, rfl⟩
  · next hbad => rw [if_neg hbad] at h; exact absurd h (by decide : (0x44 : Nat) ≠ 0)

theorem portFrame1_fails {f : Fr} {u : State} (h : (portFrame1 f u).1 ≠ 0) : portFrame1 f u = (0x44, u) := by
  unfold portFrame1 rangeElse at *
  dsimp only at *
  split
  · next hok => rw [if_pos hok] at h; exact absurd rfl h
  · rfl

theorem portFrame1_passes {f : Fr} {u : State} (h : (portFrame1 f u).1 = 0) :
    ∀ o < 128, u.portWordOk (cfaGal f.cfa) o (leAt f.data (4 * o) 4) = true := by
  unfold portFrame1 rangeElse at h
  dsimp only at h
  split at h
  · next hok =>
    rw [Bool.and_eq_true, List.all_eq_true] at hok
    exact fun o ho => hok.1 o (List.mem_range.2 ho)
  · exact absurd h (by decide : (0x44 : Nat) ≠ 0)

/-! ### The end frame (R26, R84, R116, R117, R176) -/

/-- `t` differs from `s` in its ports at most. -/
def State.PortsOnly (s t : State) : Prop := t = { s with ports := t.ports }

theorem State.PortsOnly.refl (s : State) : s.PortsOnly s := rfl

theorem State.PortsOnly.trans {s t u : State} (h : s.PortsOnly t) (h' : t.PortsOnly u) : s.PortsOnly u := by
  unfold State.PortsOnly at *
  rw [h', h]

theorem State.PortsOnly.foldl {α : Type} {f : State → α → State} (hf : ∀ (s : State) x, s.PortsOnly (f s x)) (l : List α) (s : State) :
    s.PortsOnly (l.foldl f s) := by
  induction l generalizing s with
  | nil => exact .refl s
  | cons x l ih => exact (hf s x).trans (ih _)

theorem portsOnly_modPort (s : State) (p : Nat) (f : Port → Port) : s.PortsOnly (s.modPort p f) := rfl

theorem portsOnly_portReturns (fresh : Bool) (p : Nat) (s : State) : s.PortsOnly (portReturns fresh p s) := by
  have hlinks : ∀ u : State, u.PortsOnly (eachLink p (fun l s => startLink l (if s.linkSub1 l then armSysref l s else s)) u) :=
    fun u => .foldl (fun u tx => by
      split
      · next l _ =>
        have harm : u.PortsOnly (if u.linkSub1 l then armSysref l u else u) := by
          split
          · exact portsOnly_modPort ..
          · exact .refl u
        exact harm.trans (startLink_starts l _).rest
      · exact .refl u) _ u
  unfold portReturns
  dsimp only
  refine State.PortsOnly.trans ?_ (hlinks _)
  exact iteInduction (motive := s.PortsOnly) (fun _ => rfl) (fun _ => rfl)

theorem foldl_projection {α β γ : Type} (π : α → γ) {f : α → β → α} (hf : ∀ a b, π (f a b) = π a) (l : List β) (a : α) :
    π (l.foldl f a) = π a := by
  induction l generalizing a with
  | nil => rfl
  | cons b l ih => rw [List.foldl_cons, ih, hf]

/-- One context's initial plane is loaded, when it has one. -/
def loadInit (cyc : Nat) (x : Gallery) (c : Nat) : Gallery :=
  match (x.desc c).initPlane with
  | some p => if (x.desc c).defined then loadPlane p c cyc false x else x
  | none => x

/-- The initial context is active. -/
def Gallery.begins (x : Gallery) : Gallery := { x with activeCtx := x.initCtx, active := (x.planeOf x.initCtx).getD 0 }

theorem loadInitPlanes_eq (cyc : Nat) (x : Gallery) : loadInitPlanes cyc x = ((List.range 64).foldl (loadInit cyc) x).begins := rfl

theorem loadInit_kept (cyc : Nat) (x : Gallery) (c : Nat) :
    (loadInit cyc x c).allPrimed = x.allPrimed ∧ (loadInit cyc x c).initCtx = x.initCtx := by
  unfold loadInit
  split
  · split <;> exact ⟨rfl, rfl⟩
  · exact ⟨rfl, rfl⟩

/-- The initial planes are loaded with the priming of memory kept; INIT_CONTEXT is active (R176, R178). -/
theorem loadInitPlanes_brings (cyc : Nat) (x : Gallery) :
    (loadInitPlanes cyc x).allPrimed = x.allPrimed ∧ (loadInitPlanes cyc x).activeCtx = x.initCtx := by
  have hprimed := foldl_projection Gallery.allPrimed (fun x c => (loadInit_kept cyc x c).1) (List.range 64) x
  have hinit := foldl_projection Gallery.initCtx (fun x c => (loadInit_kept cyc x c).2) (List.range 64) x
  rw [loadInitPlanes_eq]
  generalize (List.range 64).foldl (loadInit cyc) x = y at *
  exact ⟨hprimed, hinit⟩

/-- A gallery of the image is primed and its initial planes are loaded (R84, R176). -/
def primed (s : State) (g : Nat) : State :=
  if s.inMask g then s.modGal g (fun x => loadInitPlanes s.clk.cyc { x with allPrimed := true, granules := [] }) else s

theorem primed_rest (s : State) (g : Nat) : primed s g = { s with gals := (primed s g).gals } := by
  unfold primed
  split <;> rfl

theorem foldl_primed_rest (l : List Nat) (s : State) : l.foldl primed s = { s with gals := (l.foldl primed s).gals } := by
  induction l generalizing s with
  | nil => rfl
  | cons g l ih => rw [List.foldl_cons, ih, primed_rest]

theorem gal_primed_ne (s : State) {g k : Nat} (h : k ≠ g) : (primed s g).gal k = s.gal k := by
  unfold primed
  split
  · exact State.gal_modGal_ne _ _ _ _ h
  · rfl

/-- Every gallery of the image among those met is primed with its initial context active. -/
theorem foldl_primed {l : List Nat} (hl : l.Nodup) (s : State) : (∀ k, k ∉ l → (l.foldl primed s).gal k = s.gal k) ∧
    ∀ k ∈ l, s.inMask k = true → ((l.foldl primed s).gal k).allPrimed = true ∧
      ((l.foldl primed s).gal k).activeCtx = (s.gal k).initCtx := by
  induction l generalizing s with
  | nil => exact ⟨fun _ _ => rfl, fun _ h => absurd h List.not_mem_nil⟩
  | cons g l ih =>
    obtain ⟨hg, hl⟩ := List.nodup_cons.1 hl
    obtain ⟨hout, hin⟩ := ih hl (primed s g)
    have hmask : ∀ k, (primed s g).inMask k = s.inMask k := fun k => by rw [primed_rest]; rfl
    refine ⟨fun k hk => ?_, fun k hk hm => ?_⟩
    · obtain ⟨hkg, hkl⟩ := not_or.1 (fun h => hk (List.mem_cons.2 h))
      exact (hout k hkl).trans (gal_primed_ne s hkg)
    · by_cases hkg : k = g
      · subst hkg
        obtain ⟨hprime, hactive⟩ := loadInitPlanes_brings s.clk.cyc { s.gal k with allPrimed := true, granules := [] }
        have hgal : (primed s k).gal k = loadInitPlanes s.clk.cyc { s.gal k with allPrimed := true, granules := [] } := by
          unfold primed
          rw [if_pos hm]
          exact State.gal_modGal_same ..
        rw [List.foldl_cons, hout k hg, hgal]
        exact ⟨hprime, hactive⟩
      · obtain ⟨hprime, hactive⟩ := hin k ((List.mem_cons.1 hk).resolve_left hkg) ((hmask k).trans hm)
        rw [gal_primed_ne s hkg] at hactive
        exact ⟨hprime, hactive⟩

/-- What the end of a load leaves alone, and how it leaves the galleries of the image. -/
theorem finishLoad_brings (s : State) : (finishLoad s).kin = s.kin ∧ (finishLoad s).img = s.img ∧
    ∀ k ∈ s.galList, s.img.galMask.getLsbD k = true →
      ((finishLoad s).gal k).allPrimed = true ∧ ((finishLoad s).gal k).activeCtx = (s.gal k).initCtx := by
  have hprime := (foldl_primed (List.nodup_range.filter _ : s.galList.Nodup) s).2
  have hrest := foldl_primed_rest s.galList s
  have hports : ∀ u : State, u.PortsOnly (u.portList.foldl (fun s p =>
      portReturns true p (s.modPort p (fun q => { q with rateNow := fld (s.par (portP p 0x02)) 11 0 }))) u) := fun u =>
    .foldl (fun u p => (portsOnly_modPort ..).trans (portsOnly_portReturns true p _)) _ u
  have hlast := hports { s.galList.foldl primed s with tnd := { (s.galList.foldl primed s).tnd with
    cfg := if (s.galList.foldl primed s).hasFrame 0x30000000 then (s.galList.foldl primed s).tnd.cfg else defaultTinder
    fromImage := (s.galList.foldl primed s).hasFrame 0x30000000
    default := !(s.galList.foldl primed s).hasFrame 0x30000000 && (s.galList.foldl primed s).variant.hasTinder } }
  change State.PortsOnly _ (finishLoad s) at hlast
  have hgals : (finishLoad s).gals = (s.galList.foldl primed s).gals := by rw [show finishLoad s = _ from hlast]
  refine ⟨?_, ?_, fun k hk hm => ?_⟩
  · rw [show finishLoad s = _ from hlast, hrest]
  · rw [show finishLoad s = _ from hlast, hrest]
  · rw [show (finishLoad s).gal k = (s.galList.foldl primed s).gal k from congrArg (fun t => tabGet Gallery.reset t k) hgals]
    exact hprime k hk hm

section
variable {f : Fr} {s : State}

theorem endAct_range (h : f.len ≠ 16 ∨ s.imageComplete = false) : endAct f s = (0x44, s) := if_pos h

variable (hlen : f.len = 16) (hall : s.imageComplete = true)
include hlen hall

theorem endAct_digest {e : List Byte} (he : s.img.digest = some e)
    (h : sha256 (s.imgBytes 0 256 ++ s.imgBytes s.img.framesOff (f.off + 40 - s.img.framesOff)) ≠ e) : endAct f s = (0x33, s) := by
  unfold endAct
  dsimp only
  rw [if_neg (not_or.2 ⟨not_not_intro hlen, by rw [hall]; decide⟩), he]
  exact if_pos (decide_eq_true h)

theorem endAct_done (h : s.img.digest = none ∨
    s.img.digest = some (sha256 (s.imgBytes 0 256 ++ s.imgBytes s.img.framesOff (f.off + 40 - s.img.framesOff)))) :
    endAct f s = (0, toPhase 7 (finishLoad s)) := by
  unfold endAct
  dsimp only
  rw [if_neg (not_or.2 ⟨not_not_intro hlen, by rw [hall]; decide⟩)]
  obtain h | h := h
  · rw [h]; exact if_neg Bool.false_ne_true
  · rw [h]; exact if_neg (by simp)

end

end Sys2Proof.Machine
end

section
/-!
PROOF of O38, concluded: each type of frame as the statement says it.
-/

namespace Sys2Proof.Machine

/-- The end frame that passes every check leads to the start-up steps (R84, R86). -/
theorem endFrame_done {s t u : State} {c : Instr} {f : Fr} (hrow : (c, 0x0F) ∈ frameRows) (hclk : s.clocked = true)
    (hphase : s.kin.phase = 6) (h : nextFrame s = (.frame f, t)) (htype : f.type = 0x0F)
    (hc : (if frameKind 0x0F = none then commitLeads t.img.linkLeads t else (none, t)) = (none, u))
    (habs : frameAbsent u.variant f = false) (hok : frameOk f u = true) (hlen : f.len = 16) (hall : u.imageComplete = true)
    (hdigest : u.img.digest = none ∨
      u.img.digest = some (sha256 (u.imgBytes 0 256 ++ u.imgBytes u.img.framesOff (f.off + 40 - u.img.framesOff)))) :
    ∃ r : State, exec c s = .next (reachHold (answerChunks r)) ∧ r.kin = { u.kin with phase := 7 } ∧
      r.img = { u.img with off := f.off + 40, index := f.idx + 1, sect := 6 } ∧
      ∀ k ∈ u.galList, u.img.galMask.getLsbD k = true → (r.gal k).allPrimed = true ∧ (r.gal k).activeCtx = (u.gal k).initCtx := by
  obtain ⟨hkin, himg, hgal⟩ := finishLoad_brings u
  have hload := frame_loads hrow hclk hphase h htype hc habs hok (endAct_done hlen hall hdigest)
  have hkin' : (frameBehind 0x0F f (toPhase 7 (finishLoad u))).kin = { u.kin with phase := 7 } :=
    congrArg (fun k : Kindle => { k with phase := 7 }) hkin
  have hphase' : (answerChunks (frameBehind 0x0F f (toPhase 7 (finishLoad u)))).kin.phase = 7 := by
    rw [answerChunks_rest]
    exact congrArg Kindle.phase hkin'
  refine ⟨frameBehind 0x0F f (toPhase 7 (finishLoad u)), ?_, hkin', ?_, hgal⟩
  · rw [hload, rowEnd, if_pos rfl, if_pos ⟨hphase, hphase'⟩]
  · show ({ (finishLoad u).img with off := f.off + f.len + 24, index := f.idx + 1, sect := 6, loaded := (finishLoad u).img.loaded } : Image) = _
    rw [himg, hlen]

/-- Settles O38: every row by the checks of `loadFrame` in their order, each type by what its row does with a sound frame. -/
theorem framesAreCheckedAndLoaded : Obligations.FramesAreCheckedAndLoaded := by
  intro s t u f type c rows g d partOf behind range hclk hphase hrow
  obtain ⟨hmem, hexec⟩ := exec_frame (s := s) hrow
  refine ⟨fun code detail h => ?_, fun h => ?_, fun h hsec => ?_, fun l h htype hk hc => ?_, fun h htype hc => ?_⟩
  · rw [hexec, loadFrame_bad hclk hphase h, rowEnd_bank]
  · rw [hexec, loadFrame_wait hclk hphase h, rowEnd_stays (by omega)]
  · rw [hexec, loadFrame_unknown hclk hphase h hsec, rowEnd_bank]
  · have hsec : frameSection f.type ≠ none := by rw [htype]; exact section_frameTypes hmem
    rw [hexec, loadFrame_commit hclk hphase h hsec htype (by rw [if_pos hk]; exact hc), rowEnd_bank]
    rfl
  have hsec : frameSection f.type ≠ none := by rw [htype]; exact section_frameTypes hmem
  refine ⟨fun habs => ?_, fun habs hok => ?_, fun habs hok => ?_⟩
  · rw [hexec, loadFrame_absent hclk hphase h hsec htype hc habs, rowEnd_bank]
  · show exec c s = _
    rw [hexec, loadFrame_range hclk hphase h hsec htype hc habs hok, rowEnd_bank]
  have hrange : ∀ {b : Bool} {P : Prop} {r : State}, rowAct type f u = rangeElse b u r → (b = true ↔ P) → ¬ P → range :=
    fun hact hb hP => frame_range hrow hclk hphase h htype hc habs hok hact (Bool.eq_false_iff.2 fun hb' => hP (hb.1 hb'))
  have hgood : ∀ {b : Bool} {P : Prop} {r : State}, type ≠ 0x0F → rowAct type f u = rangeElse b u r → (b = true ↔ P) → P → behind r :=
    fun hnot hact hb hP => frame_effect hrow hclk hphase h htype hc habs hok hact (hb.2 hP) hnot
  have hplain : ∀ {r : State}, type ≠ 0x0F → rowAct type f u = (0, r) → behind r := fun hnot hact => by
    show exec c s = _
    rw [frame_loads hrow hclk hphase h htype hc habs hok hact, rowEnd_other hnot]
    rfl
  have hfail : ∀ {k : Nat} {r : State}, rowAct type f u = (k, r) → k ≠ 0 → exec c s = .next (bank k f.idx r) :=
    fun hact hk => frame_fails hrow hclk hphase h htype hc habs hok hact hk
  intro known
  refine ⟨?_, ?_, ?_, ?_, ?_, ?_, ?_, ?_, ?_, ?_, ?_, ?_, ?_⟩
  · rintro rfl
    exact ⟨fun hbad => hrange rfl Iff.rfl (by rw [hbad]; decide), fun hok => hgood (by decide) rfl Iff.rfl hok⟩
  · intro hctx
    have hact : rowAct type f u = rangeElse (u.ctxKnown f.cfa && contentOk f.cfa f.data) u (writeFrame f.cfa f.data u) := by
      rcases hctx with rfl | rfl <;> rfl
    have hiff : (u.ctxKnown f.cfa && contentOk f.cfa f.data) = true ↔ known ∧ contentOk f.cfa d = true := by
      rw [Bool.and_eq_true, ctxKnown_iff]
    exact ⟨hrange hact hiff, fun hk hcontent => hgood (by omega) hact hiff ⟨hk, hcontent⟩⟩
  · rintro rfl
    exact hplain (by decide) rfl
  · rintro rfl
    exact ⟨fun hbad => hrange rfl Iff.rfl (by rw [hbad]; decide), fun hok => hgood (by decide) rfl Iff.rfl hok⟩
  · rintro rfl hidx
    have hact : rowAct 0x09 f u = portFrame0 f u := if_pos hidx
    refine ⟨_, rfl, fun hne => ?_, fun hz => ?_⟩
    · exact hfail (hact.trans (portFrame0_fails hne)) (by decide)
    · obtain ⟨hle, hpass⟩ := portFrame0_passes hz
      exact ⟨hle, hplain (by decide) (hact.trans hpass)⟩
  · rintro rfl hidx
    have hact : rowAct 0x09 f u = portFrame1 f u := if_neg hidx
    refine ⟨_, rfl, fun hne => ?_, fun hz => ⟨?_, portFrame1_passes hz⟩⟩
    · exact hfail (hact.trans (portFrame1_fails hne)) (by decide)
    · exact hplain (by decide) (hact.trans (Prod.ext hz rfl))
  · rintro rfl a ok
    refine ⟨hrange rfl (seedOk_iff u f), fun h => ⟨u.modGal g (writeSeed f), hgood (by decide) rfl (seedOk_iff u f) h,
      fun k hk => State.gal_modGal_ne _ _ _ _ hk, rfl, fun x => ?_, ?_⟩⟩
    · rw [State.gal_modGal_same]; exact memByte_writeSeed f _ x
    · rw [State.gal_modGal_same]; exact accValid_writeSeed f _
  · rintro rfl ok
    refine ⟨hrange rfl (memFrameOk_iff u f f.len), fun h => ⟨_, hgood (by decide) rfl (memFrameOk_iff u f f.len) h,
      fun k hk => State.gal_modGal_ne _ _ _ _ hk, rfl, fun x => ?_⟩⟩
    rw [State.gal_modGal_same]
    exact tabGet_tabBlock ..
  · rintro rfl n ok
    have hiff : (decide (f.len = 32 ∧ leAt f.data 0 4 % 16 = 0) && u.memFrameOk f (leAt f.data 0 4)) = true ↔ ok := by
      rw [Bool.and_eq_true, decide_eq_true_iff, memFrameOk_iff, and_assoc]
    refine ⟨hrange rfl hiff, fun h => ⟨_, hgood (by decide) rfl hiff h, fun k hk => State.gal_modGal_ne _ _ _ _ hk, rfl, fun x => ?_⟩⟩
    rw [State.gal_modGal_same]
    exact memByte_fillMem ..
  · rintro rfl code r hr
    refine ⟨?_, hfail hr⟩
    rintro rfl
    exact hplain (by decide) hr
  · rintro rfl
    exact ⟨_, hplain (by decide) rfl, rfl⟩
  · rintro rfl l ok
    have hiff := goldenOrder_iff u l
    exact ⟨hrange rfl hiff, fun h => hgood (by decide) rfl hiff h⟩
  · rintro rfl told
    refine ⟨fun hbad => hfail (endAct_range hbad) (by decide), fun hlen hall => ⟨fun e he hne => ?_, fun hdigest => ?_⟩⟩
    · exact hfail (endAct_digest hlen hall he hne) (by decide)
    · exact endFrame_done hrow hclk hphase h htype hc habs hok hlen hall hdigest

end Sys2Proof.Machine
end

section
/-!
PROOF of O39 (chapter 5): the start-up steps, the hold point, and user mode.
-/

namespace Sys2Proof.Machine

theorem nextStep_iff (s : State) (i : Nat) : s.nextStep i = true ↔
    s.clocked = true ∧ s.kin.phase = 7 ∧ s.kin.steps < 4 ∧ s.img.stepPos.getD i 4 = s.kin.steps := by
  rw [State.nextStep, Bool.and_eq_true, decide_eq_true_iff]

/-! ### The lock conditions (R87) -/

/-- The link of port `p` is up: the seam link, or every JESD204C link it belongs to, and it belongs to one. -/
def State.carries (s : State) (p : Nat) : Prop :=
  (s.protocol p = 2 ∧ (s.port p).seam.state = 5) ∨ (s.protocol p ≠ 2 ∧
    ((s.linkOf p false).isSome = true ∨ (s.linkOf p true).isSome = true) ∧ ∀ tx l, s.linkOf p tx = some l → (s.port l).linkSt = 6)

theorem portUp_iff (s : State) (p : Nat) : s.portUp p = true ↔ s.carries p := by
  unfold State.portUp State.carries
  dsimp only
  by_cases hp : s.protocol p = 2
  · rw [if_pos hp, seamUp_iff]
    simp [hp]
  · rw [if_neg hp]
    cases hf : s.linkOf p false <;> cases ht : s.linkOf p true <;> simp [hp, hf, ht]

theorem testBit_portsNotUp (s : State) (p : Nat) : s.portsNotUp.testBit p = true ↔
    p < 16 ∧ s.variant.hasPort p = true ∧ (s.port p).lockAt = true ∧ ¬ s.carries p := by
  rw [State.portsNotUp, testBit_maskOf_eq, Bool.and_eq_true, Bool.and_eq_true, Bool.and_eq_true, decide_eq_true_iff, Bool.not_eq_true',
    ← portUp_iff, Bool.not_eq_true, and_assoc]

theorem portsNotUp_eq_zero (s : State) : s.portsNotUp = 0 ↔
    ∀ p < 16, s.variant.hasPort p = true → (s.port p).lockAt = true → s.carries p := by
  constructor
  · intro h p hp hport hlock
    by_contra hdown
    have := (testBit_portsNotUp s p).2 ⟨hp, hport, hlock, hdown⟩
    rw [h, Nat.zero_testBit] at this
    exact Bool.noConfusion this
  · intro h
    refine Nat.eq_of_testBit_eq fun p => ?_
    rw [Nat.zero_testBit, Bool.eq_false_iff]
    intro hbit
    obtain ⟨hp, hport, hlock, hdown⟩ := (testBit_portsNotUp s p).1 hbit
    exact hdown (h p hp hport hlock)

theorem lockMet_iff (s : State) : s.lockMet = true ↔ (s.clk.aligned = true ∨ s.syncIgnored = true) ∧
    ∀ p < 16, s.variant.hasPort p = true → (s.port p).lockAt = true → s.carries p := by
  rw [State.lockMet, Bool.and_eq_true, Bool.or_eq_true, decide_eq_true_iff, portsNotUp_eq_zero]

/-! ### The steps (R86–R89, R178, R350) -/

section
variable {s : State} (hnext : s.nextStep 0 = true)
include hnext

theorem exec_lockWait_met (h : s.lockMet = true) : exec .lockWait s = .next (endStep 0 s) :=
  congrArg _ (if_pos (by rw [hnext, h]; rfl))

variable (h : s.lockMet = false)
include h

theorem exec_lockWait_waits : exec .lockWait s = .next s := congrArg _ (if_neg (by rw [hnext, h]; decide))

theorem exec_lockLimitExpiry_strict (hstrict : s.img.strict = true) : exec .lockLimitExpiry s = .next (bank 0x50 0 s) :=
  congrArg _ ((if_neg (by rw [hnext, h]; decide)).trans (if_pos hstrict))

theorem exec_lockLimitExpiry_warns (hstrict : s.img.strict = false) : exec .lockLimitExpiry s = .next
    (endStep 0 (({ s with kin := { s.kin with warnings := s.kin.warnings ||| 1 } } : State).raise 0x13
      (leBytes 2 s.portsNotUp ++ [if s.clk.aligned = true then 1 else 0]))) :=
  congrArg _ ((if_neg (by rw [hnext, h]; decide)).trans (if_neg (by rw [hstrict]; decide)))

end

/-- A gallery whose domain is on starts its sequencer (R178). -/
def started (s : State) (g : Nat) : State := if s.galOn g then s.modSeq g Seq.start else s

theorem foldl_started {l : List Nat} (hl : l.Nodup) (s : State) :
    l.foldl started s = { s with gals := (l.foldl started s).gals } ∧
    ∀ g, (l.foldl started s).gal g =
      if g ∈ l ∧ s.galOn g = true then { s.gal g with seq := (s.gal g).seq.start } else s.gal g := by
  induction l generalizing s with
  | nil => exact ⟨rfl, fun g => (if_neg (fun h => absurd h.1 List.not_mem_nil)).symm⟩
  | cons a l ih =>
    obtain ⟨ha, hl⟩ := List.nodup_cons.1 hl
    obtain ⟨hrest, hgal⟩ := ih hl (started s a)
    have hone : started s a = { s with gals := (started s a).gals } := by unfold started; split <;> rfl
    have hon : ∀ g, (started s a).galOn g = s.galOn g := fun g => by rw [hone]; rfl
    refine ⟨?_, fun g => ?_⟩
    · rw [List.foldl_cons, hrest, hone]
    · rw [List.foldl_cons, hgal, hon]
      by_cases hga : g = a
      · subst hga
        rw [if_neg (fun h => ha h.1), started]
        by_cases hg : s.galOn g = true
        · rw [if_pos hg, if_pos ⟨List.mem_cons_self, hg⟩]
          exact State.gal_modGal_same ..
        · rw [if_neg hg, if_neg (fun h => hg h.2)]
      · have hsame : (started s a).gal g = s.gal g := by
          unfold started
          split
          · exact State.gal_modGal_ne _ _ _ _ hga
          · rfl
        rw [hsame]
        exact if_congr (by rw [List.mem_cons]; simp [hga]) rfl rfl

/-- The Tinder macrocells take their INIT values (R350). -/
def withMacrocells (s : State) : State := { s with tnd := { s.tnd with q := s.mcInit, out := s.mcOut s.mcInit } }

theorem exec_gsrRelease {s : State} (hnext : s.nextStep 2 = true) : ∃ t : State, exec .gsrRelease s = .next (endStep 2 t) ∧
    t = { s with kin := { s.kin with gsr := false }, gals := t.gals, tnd := { s.tnd with q := t.tnd.q, out := t.tnd.out } } ∧
    ∀ g, t.gal g = if g ∈ s.galList ∧ s.galOn g = true then { s.gal g with seq := (s.gal g).seq.start } else s.gal g := by
  obtain ⟨hrest, hgal⟩ := foldl_started (l := s.galList) (List.nodup_range.filter _) { s with kin := { s.kin with gsr := false } }
  have hexec : exec .gsrRelease s = .next (endStep 2 (withMacrocells (s.galList.foldl started
      { s with kin := { s.kin with gsr := false } }))) := congrArg _ (if_pos hnext)
  refine ⟨_, hexec, ?_, hgal⟩
  generalize s.galList.foldl started { s with kin := { s.kin with gsr := false } } = u at *
  unfold withMacrocells
  rw [hrest]

/-! ### The end of a step and the hold point (R86, R90, R103) -/

/-- What `noteLast` may do: the start tick is recorded on a line of one device. -/
theorem noteLast_rest (x : Tick) (s : State) : noteLast x s = { s with params := (noteLast x s).params } := by
  unfold noteLast
  split <;> rfl

theorem par_noteLast (x : Tick) (s : State) {k : Nat} (hlow : k ≠ 0x24) (hhigh : k ≠ 0x25) : (noteLast x s).par k = s.par k := by
  unfold noteLast
  split
  · rfl
  · exact State.par_putPair_ne _ _ _ _ hlow hhigh

theorem noteLast_shared {s : State} (x : Tick) (h : s.board.straps.getLsbD 1 = true) : noteLast x s = s := if_pos h

/-- A step has ended and its successor's start is noted, before the hold point. -/
def stepEnded (i : Nat) (s : State) : State :=
  let took := if i = 0 then 0 else 1
  let s := if s.kin.steps = 3 ∧ i ≠ 0 then noteLast s.clk.tick s else s
  let s := { s with kin := { s.kin with steps := s.kin.steps + 1 } }
  let last := (firstBelow 4 (fun k => decide (s.img.stepPos.getD k 4 = 3))).getD 0
  if s.kin.steps = 3 then noteLast (s.clk.tick + BitVec.ofNat 64 (took + s.img.stepDelay.getD last 0)) s else s

theorem endStep_eq (i : Nat) (s : State) : endStep i s = reachHold (stepEnded i s) := rfl

/-- `t` is `s` with the start tick of the last step perhaps recorded. -/
structure State.TickNoted (s t : State) : Prop where
  rest   : t = { s with params := t.params }
  params : ∀ k, k ≠ 0x24 → k ≠ 0x25 → t.par k = s.par k
  shared : s.board.straps.getLsbD 1 = true → t.params = s.params

theorem tickNoted_noteLast (x : Tick) (s : State) : s.TickNoted (noteLast x s) :=
  ⟨noteLast_rest x s, fun _ h h' => par_noteLast x s h h', fun h => by rw [noteLast_shared x h]⟩

theorem tickNoted_ite {s : State} (p : Prop) [Decidable p] (x : Tick) : s.TickNoted (if p then noteLast x s else s) :=
  iteInduction (motive := s.TickNoted) (fun _ => tickNoted_noteLast x s) (fun _ => ⟨rfl, fun _ _ _ => rfl, fun _ => rfl⟩)

theorem stepEnded_brings (i : Nat) (s : State) :
    ({ s with kin := { s.kin with steps := s.kin.steps + 1 } } : State).TickNoted (stepEnded i s) := by
  have hfirst := tickNoted_ite (s := s) (s.kin.steps = 3 ∧ i ≠ 0) s.clk.tick
  unfold stepEnded
  generalize hu : (if s.kin.steps = 3 ∧ i ≠ 0 then noteLast s.clk.tick s else s) = u at *
  have hlast := tickNoted_ite (s := { u with kin := { u.kin with steps := u.kin.steps + 1 } })
    (u.kin.steps + 1 = 3) (u.clk.tick + BitVec.ofNat 64 ((if i = 0 then 0 else 1) + u.img.stepDelay.getD
      ((firstBelow 4 (fun k => decide (u.img.stepPos.getD k 4 = 3))).getD 0) 0))
  dsimp only
  generalize (if u.kin.steps + 1 = 3 then noteLast _ ({ u with kin := { u.kin with steps := u.kin.steps + 1 } } : State)
    else ({ u with kin := { u.kin with steps := u.kin.steps + 1 } } : State)) = v at *
  refine ⟨?_, fun k h h' => (hlast.params k h h').trans (hfirst.params k h h'), fun h => ?_⟩
  · have e := hlast.rest
    rw [hfirst.rest] at e
    exact e
  · have hboard : u.board = s.board := by rw [hfirst.rest]
    exact (hlast.shared (by rw [← hboard] at h; exact h)).trans (hfirst.shared h)

/-- The hold point in the start-up steps. -/
theorem reachHold_shared {s : State} (hhold : s.kin.steps = s.img.hold) (hshare : s.board.straps.getLsbD 1 = true) :
    reachHold s = { s with kin := { s.kin with phase := 8, holdAt := some s.clk.cyc } } := by
  unfold reachHold
  have hline : s.kshare = true := hshare
  rw [if_pos hhold, if_pos hline]
  exact if_neg (fun h => absurd h.2 (by decide : (8 : Nat) ≠ 7))

theorem reachHold_passes {s : State} (hphase : s.kin.phase = 7) (h : ¬ (s.kin.steps = s.img.hold ∧ s.board.straps.getLsbD 1 = true)) :
    reachHold s = (let t : State := { s with kin := { s.kin with
        holdAt := if s.kin.steps = s.img.hold then some s.clk.cyc else s.kin.holdAt
        pullDown := if s.kin.steps = s.img.hold then false else s.kin.pullDown } }
      if s.kin.steps = 4 then enterUser t else t) := by
  unfold reachHold
  by_cases hhold : s.kin.steps = s.img.hold
  · have hline : ¬ s.kshare = true := fun hs => h ⟨hhold, hs⟩
    rw [if_pos hhold, if_neg hline]
    dsimp only
    rw [if_pos hhold, if_pos hhold]
    exact if_congr (and_iff_left hphase) rfl rfl
  · rw [if_neg hhold]
    dsimp only
    rw [if_neg hhold, if_neg hhold]
    exact if_congr (and_iff_left hphase) rfl rfl

section
variable {s : State} (hphase : s.kin.phase = 7) (i : Nat)
include hphase

theorem endStep_shared (h : s.kin.steps + 1 = s.img.hold ∧ s.board.straps.getLsbD 1 = true) :
    endStep i s = { s with kin := { s.kin with steps := s.kin.steps + 1, phase := 8, holdAt := some s.clk.cyc }, params := s.params } := by
  have hend := stepEnded_brings i s
  have hparams := hend.shared h.2
  rw [endStep_eq]
  generalize stepEnded i s = u at *
  have hrest := hend.rest
  rw [hparams] at hrest
  have hkin : u.kin = { s.kin with steps := s.kin.steps + 1 } := by rw [hrest]
  have himg : u.img = s.img := by rw [hrest]
  have hboard : u.board = s.board := by rw [hrest]
  rw [reachHold_shared (s := u) (by rw [hkin, himg]; exact h.1) (by rw [hboard]; exact h.2), hrest]

theorem endStep_passes (h : ¬ (s.kin.steps + 1 = s.img.hold ∧ s.board.straps.getLsbD 1 = true)) :
    ∃ t : State, (∀ k, k ≠ 0x24 → k ≠ 0x25 → t.par k = s.par k) ∧ (s.board.straps.getLsbD 1 = true → t.params = s.params) ∧
      t = { s with params := t.params
                   kin := { s.kin with
                     steps := s.kin.steps + 1, holdAt := if s.kin.steps + 1 = s.img.hold then some s.clk.cyc else s.kin.holdAt
                     pullDown := if s.kin.steps + 1 = s.img.hold then false else s.kin.pullDown } } ∧
      endStep i s = if s.kin.steps + 1 = 4 then enterUser t else t := by
  have hend := stepEnded_brings i s
  rw [endStep_eq]
  generalize stepEnded i s = u at *
  have hrest := hend.rest
  have hkin : u.kin = { s.kin with steps := s.kin.steps + 1 } := by rw [hrest]
  have himg : u.img = s.img := by rw [hrest]
  have hboard : u.board = s.board := by rw [hrest]
  have hpass := reachHold_passes (s := u) (by rw [hkin]; exact hphase) (by rw [hkin, himg, hboard]; exact h)
  refine ⟨{ u with kin := { u.kin with
    holdAt := if u.kin.steps = u.img.hold then some u.clk.cyc else u.kin.holdAt
    pullDown := if u.kin.steps = u.img.hold then false else u.kin.pullDown } }, hend.params, hend.shared, ?_, ?_⟩
  · rw [hrest]
  · rw [hpass, hkin]

end

/-! ### User mode (R95, R89, R391) -/

theorem startAssay_rest (s : State) : startAssay s = { s with gals := (startAssay s).gals, assay := (startAssay s).assay } ∧
    (startAssay s).assay.inCycle = true := by
  have hfold : ∀ (f : Nat → Gallery → Gallery) (l : List Nat) (u : State),
      l.foldl (fun s g => s.modGal g (f g)) u = { u with gals := (l.foldl (fun s g => s.modGal g (f g)) u).gals } := by
    intro f l
    induction l with
    | nil => exact fun _ => rfl
    | cons g l ih => intro u; rw [List.foldl_cons, ih]; rfl
  have hrest := hfold (fun _ x => closeElement { x with hearths := tabBlock HearthTest.reset [] 0 128 (fun h =>
    { HearthTest.reset with excluded := (tabGet HearthTest.reset x.hearths h).excluded }) }) s.galList
    { s with assay := { s.assay with inCycle := true, start := s.clk.cyc, links := [], linkRetry := [] } }
  change startAssay s = _ at hrest
  generalize startAssay s = t at *
  rw [hrest]
  exact ⟨rfl, rfl⟩

theorem raiseDeferred_rest (s : State) : raiseDeferred s =
    { s with clk := { s.clk with deferred := [] }, evt := (raiseDeferred s).evt } := by
  have hfold : ∀ (l : List Deferred) (u : State), l.foldl (fun s e => s.raise e.event e.data) u =
      { u with evt := (l.foldl (fun s e => s.raise e.event e.data) u).evt } := by
    intro l
    induction l with
    | nil => exact fun _ => rfl
    | cons e l ih => intro u; rw [List.foldl_cons, ih, raise_rest]
  exact hfold _ _

/-- The units that start with user mode have started; events still wait. -/
def userStarted (s : State) : State :=
  let s := { s with kin := { s.kin with phase := 9, code := 1 } }
  let s := if s.img.host then
      { s with sweep := { s.sweep with crcs := (s.img.golden.take 8192).map (fun e => (cfaNorm e.cfa, e.gcrc)) } }
    else s
  if s.assayCtrl 0 then startAssay s else s

theorem enterUser_eq (s : State) : enterUser s = (raiseDeferred (userStarted s)).raise 0x10
    (leBytes 4 (userStarted s).kindleStatus ++ leBytes 8 ((userStarted s).pair 0x24)) := rfl

theorem userStarted_brings (s : State) : (userStarted s).kin = { s.kin with phase := 9, code := 1 } ∧
    (userStarted s).clk = s.clk ∧ (userStarted s).params = s.params ∧
    ((userStarted s).assay.inCycle = true ↔ s.assay.inCycle = true ∨ (s.par 0x3A80).getLsbD 0 = true) := by
  have hmain : ∀ u : State, u.kin = { s.kin with phase := 9, code := 1 } → u.clk = s.clk → u.params = s.params → u.assay = s.assay →
      (if u.assayCtrl 0 then startAssay u else u).kin = { s.kin with phase := 9, code := 1 } ∧
      (if u.assayCtrl 0 then startAssay u else u).clk = s.clk ∧ (if u.assayCtrl 0 then startAssay u else u).params = s.params ∧
      ((if u.assayCtrl 0 then startAssay u else u).assay.inCycle = true ↔ s.assay.inCycle = true ∨ (s.par 0x3A80).getLsbD 0 = true) := by
    intro u hkin hclk hparams hassay
    have hctrl : u.assayCtrl 0 = (s.par 0x3A80).getLsbD 0 := by unfold State.assayCtrl State.par; rw [hparams]
    obtain ⟨hrest, hcycle⟩ := startAssay_rest u
    split
    · next h =>
      refine ⟨?_, ?_, ?_, iff_of_true hcycle (.inr (hctrl.symm.trans h))⟩
      · rw [hrest]; exact hkin
      · rw [hrest]; exact hclk
      · rw [hrest]; exact hparams
    · next h =>
      refine ⟨hkin, hclk, hparams, ?_⟩
      rw [hassay]
      exact ⟨.inl, fun h' => h'.resolve_right (fun hc => h (hctrl.trans hc))⟩
  unfold userStarted
  dsimp only
  by_cases hhost : s.img.host = true
  · rw [if_pos hhost]; exact hmain _ rfl rfl rfl rfl
  · rw [if_neg hhost]; exact hmain _ rfl rfl rfl rfl

theorem enterUser_brings (s : State) : ∃ t : State, enterUser s = t.raise 0x10 (leBytes 4 t.kindleStatus ++ leBytes 8 (s.pair 0x24)) ∧
    t.kin = { s.kin with phase := 9, code := 1 } ∧ t.clk = { s.clk with deferred := [] } ∧ t.params = s.params ∧
    (t.assay.inCycle = true ↔ s.assay.inCycle = true ∨ (s.par 0x3A80).getLsbD 0 = true) := by
  obtain ⟨hkin, hclk, hparams, hcycle⟩ := userStarted_brings s
  rw [enterUser_eq]
  generalize userStarted s = u at *
  have hpair : u.pair 0x24 = s.pair 0x24 := by unfold State.pair State.par; rw [hparams]
  have hrest := raiseDeferred_rest u
  have hstatus : (raiseDeferred u).kindleStatus = u.kindleStatus := by unfold State.kindleStatus; rw [hrest]
  refine ⟨raiseDeferred u, ?_, ?_, ?_, ?_, ?_⟩
  · rw [hstatus, hpair]
  · rw [hrest]; exact hkin
  · rw [hrest]; exact congrArg (fun k : Clock => { k with deferred := [] }) hclk
  · rw [hrest]; exact hparams
  · rw [hrest]; exact hcycle

/-! ### The KINDLED line (R91–R93, R99) -/

theorem fld_low24 (v : Word) : fld v 23 0 = v.toNat % 2 ^ 24 := by simp [fld, bits]

theorem fixEntry_eq (n : Nat) (s : State) : fixEntry n s =
    ({ s with kin := { s.kin with entry := some (BitVec.ofNat 64 (n + 8192)) } } : State).putPair 0x24 ((n + 8192) % 2 ^ 64) := by
  unfold fixEntry
  dsimp only
  rw [BitVec.toNat_ofNat]

section
variable {s : State} (hclk : s.clocked = true) (hphase : s.kin.phase = 8)
include hclk hphase

theorem exec_kindledRelease_due (h : s.clk.tick.toNat % 4096 = 0) :
    exec .kindledRelease s = .next { s with kin := { s.kin with pullDown := false } } := by
  rw [show exec .kindledRelease s = .next (inPhase 8 _ s) from rfl, inPhase_here hclk hphase]
  exact congrArg _ (if_pos h)

theorem exec_kindledRelease_waits (h : s.clk.tick.toNat % 4096 ≠ 0) : exec .kindledRelease s = .next s := by
  rw [show exec .kindledRelease s = .next (inPhase 8 _ s) from rfl, inPhase_here hclk hphase]
  exact congrArg _ (if_neg h)

theorem exec_kindledHigh (hpull : s.kin.pullDown = false) (hentry : s.kin.entry = none) : exec .kindledHigh s = .next
    (fixEntry (s.clk.tick.toNat - s.clk.tick.toNat % 4096)
      (if 2048 ≤ s.clk.tick.toNat % 4096 then
        ({ s with kin := { s.kin with warnings := s.kin.warnings ||| 4 } } : State).raise 0x14 (leBytes 2 (s.clk.tick.toNat % 4096))
      else s)) := by
  rw [show exec .kindledHigh s = .next (inPhase 8 _ s) from rfl, inPhase_here hclk hphase]
  exact congrArg _ (if_neg (by rw [hpull, hentry]; decide))

theorem exec_kindleEntry {e : Tick} (hentry : s.kin.entry = some e) : exec .kindleEntry s = .next
    (if e.toNat ≤ s.clk.tick.toNat then (if s.kin.steps = 4 then enterUser (toPhase 7 s) else toPhase 7 s) else s) := by
  rw [show exec .kindleEntry s = .next (inPhase 8 _ s) from rfl, inPhase_here hclk hphase, hentry]
  rfl

theorem exec_holdTimeout_idle (h : s.kin.entry ≠ none ∨ (s.par 0x22).toNat % 2 ^ 24 = 0) : exec .holdTimeout s = .next s := by
  rw [show exec .holdTimeout s = .next (inPhase 8 _ s) from rfl, inPhase_here hclk hphase]
  refine congrArg _ (if_pos ?_)
  rw [Bool.or_eq_true, decide_eq_true_iff, Option.isSome_iff_ne_none]
  exact h.imp id (fun h => (fld_low24 _).trans h)

theorem exec_holdTimeout_expires (hentry : s.kin.entry = none) (h : (s.par 0x22).toNat % 2 ^ 24 ≠ 0) : exec .holdTimeout s = .next
    (if (s.par 0x22).getLsbD 31 = true then fixEntry ((s.clk.tick.toNat + 4095) / 4096 * 4096)
      (({ s with kin := { s.kin with pullDown := false, warnings := s.kin.warnings ||| 2 } } : State).raise 0x12 [])
    else bank 0x51 0 { s with kin := { s.kin with pullDown := false } }) := by
  rw [show exec .holdTimeout s = .next (inPhase 8 _ s) from rfl, inPhase_here hclk hphase]
  refine congrArg _ ((if_neg ?_).trans rfl)
  rw [Bool.or_eq_true, decide_eq_true_iff, Option.isSome_iff_ne_none, hentry]
  rintro (hne | hz)
  · exact hne rfl
  · exact h ((fld_low24 _).symm.trans hz)

end

/-- Settles O39: each start-up step by its condition, its end by the hold point, and the KINDLED line by its phase. -/
theorem startUpStepsReachUserMode : Obligations.StartUpStepsReachUserMode := by
  intro s n next up locked shared waits d fixed
  have hstep : ∀ i, next i → s.nextStep i = true := fun i h => (nextStep_iff s i).2 h
  have hlock : s.lockMet = true ↔ locked := lockMet_iff s
  have hfixed : ∀ k u, fixed k u = fixEntry k u := fun k u => (fixEntry_eq k u).symm
  refine ⟨fun h hl => ?_, fun h hl => ?_, fun h => congrArg _ (if_pos (hstep 1 h)), fun h => exec_gsrRelease (hstep 2 h),
    fun h => congrArg _ (if_pos (hstep 3 h)), fun i hphase => ?_, enterUser_brings s, ?_, ?_, ?_, ?_, ?_, ?_⟩
  · exact exec_lockWait_met (hstep 0 h) (hlock.2 hl)
  · have hno : s.lockMet = false := Bool.eq_false_iff.2 fun hm => hl (hlock.1 hm)
    exact ⟨exec_lockWait_waits (hstep 0 h) hno, exec_lockLimitExpiry_strict (hstep 0 h) hno, fun hstrict =>
      ⟨s.portsNotUp, testBit_portsNotUp s, exec_lockLimitExpiry_warns (hstep 0 h) hno hstrict⟩⟩
  · exact ⟨fun h => ⟨_, rfl, endStep_shared hphase i h⟩, fun h => endStep_passes hphase i h⟩
  · exact fun ⟨hclk, hphase⟩ h => exec_kindledRelease_due hclk hphase h
  · exact fun ⟨hclk, hphase⟩ h => exec_kindledRelease_waits hclk hphase h
  · rintro ⟨hclk, hphase⟩ hpull hentry
    rw [exec_kindledHigh hclk hphase hpull hentry]
    refine ⟨fun h => ?_, fun h => ?_⟩
    · rw [hfixed, if_neg (Nat.not_le.2 h)]
    · rw [hfixed, if_pos h]
  · rintro ⟨hclk, hphase⟩ e hentry
    rw [exec_kindleEntry hclk hphase hentry]
    exact ⟨fun h => congrArg _ (if_neg (Nat.not_le.2 h)), fun h => congrArg _ (if_pos h)⟩
  · rintro ⟨hclk, hphase⟩ hentry htime
    rw [exec_holdTimeout_expires hclk hphase hentry htime]
    refine ⟨fun h => ?_, fun h => ?_⟩
    · rw [if_neg (by rw [h]; decide)]
    · rw [hfixed, if_pos h]
  · exact fun ⟨hclk, hphase⟩ h => exec_holdTimeout_idle hclk hphase h

end Sys2Proof.Machine
end

section
/-!
PROOF of O41 (R371–R375, R414): DAMPER_CLOSE, the drains it starts, and how they end.
-/

namespace Sys2Proof.Machine

theorem setBits_eq_testBit (n v : Nat) : setBits n v = (List.range n).filter (fun k => v.testBit k) := by
  unfold setBits
  exact List.filter_congr fun k _ => bitOf_eq_testBit v k

theorem domBusy_iff (s : State) (k : Nat) : s.domBusy k = true ↔
    (∃ m ∈ s.lamp.dampers, m.left.getLsbD k = true) ∨ (s.dom k).moving = true ∨ (k < 16 ∧ s.halted k = true) := by
  unfold State.domBusy
  rw [Bool.or_eq_true, Bool.or_eq_true, List.any_eq_true, Bool.and_eq_true, decide_eq_true_iff, or_assoc]
  rfl

/-! ### The command (R371, R374, R414) -/

section
variable {s : State} {c : Cmd} {ds : List Nat} (hds : cmdDomains c = ds)
include hds

theorem damperClose_absent (h : ∃ k ∈ ds, s.variant.hasDom k = false) : damperCloseCmd c s = respond c 0x0C [] s := by
  have hany : ds.any (fun d => !s.variant.hasDom d) = true := by simpa using h
  have href : closeRefusal (cmdDomains c) (leAt c.body 4 1) s = some stAbsent := by rw [hds]; exact if_pos hany
  unfold damperCloseCmd
  dsimp only
  rw [href]
  rfl

variable (hall : ∀ k ∈ ds, s.variant.hasDom k = true)
include hall

theorem damperClose_wrong (h : 2 < leAt c.body 4 1 ∨ (leAt c.body 4 1 = 1 ∧ 24 ∈ ds) ∨
    (leAt c.body 4 1 = 2 ∧ s.img.host = true ∧ ∃ k ∈ ds, k < 16 ∨ k = 24)) : damperCloseCmd c s = respond c 9 [] s := by
  have hany : ¬ ds.any (fun d => !s.variant.hasDom d) = true := by simpa using hall
  have hload : ds.any reloads = true ↔ ∃ k ∈ ds, k < 16 ∨ k = 24 := by simp [reloads]
  have href : closeRefusal (cmdDomains c) (leAt c.body 4 1) s = some stRange := by
    rw [hds, closeRefusal, if_neg hany, if_pos]
    rwa [hload]
  unfold damperCloseCmd
  dsimp only
  rw [href]
  rfl

variable (hright : ¬ (2 < leAt c.body 4 1 ∨ (leAt c.body 4 1 = 1 ∧ 24 ∈ ds) ∨
    (leAt c.body 4 1 = 2 ∧ s.img.host = true ∧ ∃ k ∈ ds, k < 16 ∨ k = 24)))
include hright

theorem closeRefusal_busy : closeRefusal (cmdDomains c) (leAt c.body 4 1) s =
    if ds.any (fun d => s.domBusy d || (s.dom d).waking || (s.dom d).rekindling) then some stBusy else none := by
  have hany : ¬ ds.any (fun d => !s.variant.hasDom d) = true := by simpa using hall
  have hload : ds.any reloads = true ↔ ∃ k ∈ ds, k < 16 ∨ k = 24 := by simp [reloads]
  rw [hds, closeRefusal, if_neg hany, if_neg]
  rwa [hload]

theorem damperClose_busy (h : ∃ k ∈ ds, (∃ m ∈ s.lamp.dampers, m.left.getLsbD k = true) ∨ (s.dom k).moving = true ∨
    (k < 16 ∧ s.halted k = true) ∨ (s.dom k).waking = true ∨ (s.dom k).rekindling = true) :
    damperCloseCmd c s = respond c 0x0A [] s := by
  have hany : ds.any (fun d => s.domBusy d || (s.dom d).waking || (s.dom d).rekindling) = true := by
    rw [List.any_eq_true]
    obtain ⟨k, hk, hbusy⟩ := h
    refine ⟨k, hk, ?_⟩
    rw [Bool.or_eq_true, Bool.or_eq_true, domBusy_iff]
    simpa only [or_assoc] using hbusy
  have href := closeRefusal_busy hds hall hright
  rw [if_pos hany] at href
  unfold damperCloseCmd
  dsimp only
  rw [href]
  rfl

theorem damperClose_starts (h : ∀ k ∈ ds, ¬ ((∃ m ∈ s.lamp.dampers, m.left.getLsbD k = true) ∨ (s.dom k).moving = true ∨
    (k < 16 ∧ s.halted k = true) ∨ (s.dom k).waking = true ∨ (s.dom k).rekindling = true)) :
    damperCloseCmd c s = startDamper c (startClose (leAt c.body 4 1)) s := by
  have hany : ¬ ds.any (fun d => s.domBusy d || (s.dom d).waking || (s.dom d).rekindling) = true := by
    rw [List.any_eq_true]
    rintro ⟨k, hk, hbusy⟩
    rw [Bool.or_eq_true, Bool.or_eq_true, domBusy_iff] at hbusy
    exact h k hk (by simpa only [or_assoc] using hbusy)
  have href := closeRefusal_busy hds hall hright
  rw [if_neg hany] at href
  unfold damperCloseCmd
  dsimp only
  rw [href]

end

theorem startDamper_none {c : Cmd} {s : State} {act : Nat → State → State} (h : cmdDomains c = []) (htype : c.type = 0x40) :
    startDamper c act s = respond c 0 (List.replicate 8 0) s := by
  unfold startDamper
  dsimp only
  rw [h, htype]
  rfl

theorem startDamper_some {c : Cmd} {s : State} {act : Nat → State → State} (h : cmdDomains c ≠ []) : startDamper c act s =
    (cmdDomains c).foldl (fun r k => act k r)
      (let t := s.begun c
       { t with lamp := { t.lamp with dampers := s.lamp.dampers ++
          [{ cmd := c, left := BitVec.ofNat 32 (leAt c.body 0 4 % 2 ^ 25), ended := 0, forced := 0 }] } }) :=
  if_neg (by simpa using h)

/-! ### A domain that closes (R371, R373, Table 21.3) -/

theorem startClose_off {s : State} {d : Nat} (h : (s.dom d).st = .off) (action : Nat) :
    startClose action d s = damperDone d true false s := if_pos h

theorem startClose_closed {s : State} {d : Nat} (h : (s.dom d).st ≠ .off) (hclosed : (s.dom d).st ≠ .on ∨ (s.dom d).damper ≠ .openD ∨ d = 24)
    (action : Nat) : startClose action d s = closeDomain d false (s.modDom d (fun x => { x with action := action })) :=
  (if_neg h).trans (if_neg (fun ho => hclosed.elim (fun hn => hn ho.1) (fun hn => hn.elim (fun hn => hn ho.2.1) (fun hn => ho.2.2 hn))))

/-- A domain that starts to drain, and a gallery without its queued prefetches. -/
def State.draining (s : State) (action d : Nat) : State :=
  let s := s.modDom d (fun x => { x with action := action })
  let s := s.modDom d (fun x => { x with damper := .closing, step := 2, since := s.clk.cyc })
  if d < 16 then s.modGal d (fun x => { x with prefetch := [] }) else s

theorem startClose_drains {s : State} {d : Nat} (hon : (s.dom d).st = .on) (hopen : (s.dom d).damper = .openD) (hd : d ≠ 24) (action : Nat) :
    startClose action d s = s.draining action d :=
  (if_neg (by rw [hon]; decide)).trans (if_pos ⟨hon, hopen, hd⟩)

theorem draining_brings (s : State) (action d : Nat) :
    s.draining action d = { s with pwr := (s.draining action d).pwr, gals := (s.draining action d).gals } ∧
    (∀ k, (s.draining action d).dom k =
      if k = d then { s.dom d with action := action, damper := .closing, step := 2, since := s.clk.cyc } else s.dom k) ∧
    ∀ g, (s.draining action d).gal g = if g = d ∧ d < 16 then { s.gal g with prefetch := [] } else s.gal g := by
  have hdom : ∀ k, (s.draining action d).dom k = ((s.modDom d (fun x => { x with action := action })).modDom d
      (fun x => { x with damper := .closing, step := 2, since := s.clk.cyc })).dom k := fun k => by
    unfold State.draining
    dsimp only
    split <;> rfl
  refine ⟨?_, fun k => ?_, fun g => ?_⟩
  · unfold State.draining
    dsimp only
    split <;> rfl
  · rw [hdom]
    by_cases hk : k = d
    · rw [if_pos hk, hk, State.dom_modDom_same, State.dom_modDom_same]
    · rw [if_neg hk, State.dom_modDom_ne _ _ _ _ hk, State.dom_modDom_ne _ _ _ _ hk]
  · unfold State.draining
    dsimp only
    by_cases hd : d < 16
    · rw [if_pos hd]
      by_cases hg : g = d
      · rw [if_pos ⟨hg, hd⟩, hg]
        exact State.gal_modGal_same ..
      · rw [if_neg (fun h => hg h.1)]
        exact State.gal_modGal_ne _ _ _ _ hg
    · rw [if_neg hd, if_neg (show ¬ (g = d ∧ d < 16) from fun h => hd h.2)]
      rfl

theorem modDom_congr {s : State} {d : Nat} {f f' : Dom → Dom} (h : f (s.dom d) = f' (s.dom d)) : s.modDom d f = s.modDom d f' := by
  unfold State.modDom tabMod
  rw [show f (tabGet Dom.reset s.pwr.domains d) = f' (tabGet Dom.reset s.pwr.domains d) from h]

theorem closeDomain_eq (s : State) (d : Nat) (forced : Bool) : closeDomain d forced s = damperDone d true forced
    (s.modDom d (fun _ => { s.dom d with
      damper := if forced = true ∨ (s.dom d).damper = .forced then .forced else .closed, step := 5, fenced := true
      moving := decide (((s.dom d).action = 1 ∧ (s.dom d).st = .on) ∨ ((s.dom d).action = 2 ∧ (s.dom d).st ≠ .off)) })) := by
  unfold closeDomain
  dsimp only
  refine congrArg _ (modDom_congr ?_)
  simp only [Bool.decide_or, Bool.or_eq_true, decide_eq_true_eq]

/-- The bits of one command's record that domain `d` takes out and notes. -/
def DamperCmd.noted (m : DamperCmd) (d : Nat) (ended forced : Bool) : DamperCmd :=
  { m with
    left := m.left &&& ~~~(1#32 <<< d), ended := if ended = true then m.ended ||| (1#32 <<< d) else m.ended
    forced := if forced = true then m.forced ||| (1#32 <<< d) else m.forced }

theorem damperDone_one {s : State} {m : DamperCmd} {d : Nat} (h : s.lamp.dampers = [m]) (hbit : m.left.getLsbD d = true) (ended forced : Bool) :
    damperDone d ended forced s =
      (if m.left &&& ~~~(1#32 <<< d) ≠ 0 then { s with lamp := { s.lamp with dampers := [m.noted d ended forced] } }
       else respond m.cmd 0 (leBytes 4 (m.noted d ended forced).ended.toNat ++
        (if m.cmd.type = 0x40 then leBytes 4 (m.noted d ended forced).forced.toNat else [])) { s with lamp := { s.lamp with dampers := [] } }) := by
  have hbit' : hasBit m.left d = true := hbit
  unfold damperDone
  dsimp only
  rw [h, List.map_cons, List.map_nil, if_pos hbit']
  by_cases hleft : m.left &&& ~~~(1#32 <<< d) = 0
  · rw [if_neg (not_not_intro hleft), List.filter_cons_of_neg, List.filter_cons_of_pos]
    · rfl
    · exact decide_eq_true hleft
    · exact fun hc => of_decide_eq_true hc hleft
  · rw [if_pos hleft, List.filter_cons_of_pos, List.filter_cons_of_neg]
    · rfl
    · exact fun hc => hleft (of_decide_eq_true hc)
    · exact decide_eq_true hleft

/-! ### Drains (R371–R373) -/

theorem drainsAt_iff (s : State) (d n : Nat) : s.drainsAt d n = true ↔
    s.clocked = true ∧ (s.dom d).st = .on ∧ (s.dom d).damper = .closing ∧ (s.dom d).step = n := by
  rw [State.drainsAt, Bool.and_eq_true, decide_eq_true_iff]

section
variable {s : State} {d : Nat} (hd : d < 16)
include hd

theorem exec_damperSequencerDamped (h : s.drainsAt d 2 = true) : exec (.damperSequencerDamped d) s = .next
    (if (s.gal d).seq.damped = true ∧ (∀ e, (s.gal d).engine = some e → e.fill = false) then s.modDom d (fun x => { x with step := 3 })
     else s) := by
  refine congrArg _ (if_congr ?_ rfl rfl)
  rw [decide_eq_true hd, h]
  cases (s.gal d).engine <;> simp

theorem exec_damperDrained (h : s.drainsAt d 3 = true) : exec (.damperDrained d) s = .next
    (if s.galDrained d = true then closeDomain d false (writeHeld d
        (if (s.par (galP d 0x46)).toNat < Min.min 0xFFFFFFFF (s.clk.cyc - (s.dom d).since) then
          s.putPar (galP d 0x46) (wd (Min.min 0xFFFFFFFF (s.clk.cyc - (s.dom d).since))) else s))
     else s) := by
  refine congrArg _ (if_congr ?_ rfl rfl)
  rw [decide_eq_true hd, h, Bool.and_self, Bool.true_and]

end

/-- Between `s` and `t` no held frame of gallery `g` has gone, and no counter has fallen. -/
structure State.HoldsOn (s t : State) (g : Nat) : Prop where
  hold : (t.gal g).hold = (s.gal g).hold
  par  : (s.par (galP g 0x52)).toNat ≤ (t.par (galP g 0x52)).toNat

theorem State.HoldsOn.refl (s : State) (g : Nat) : s.HoldsOn s g := ⟨rfl, le_rfl⟩

theorem State.HoldsOn.trans {s t u : State} {g : Nat} (h : s.HoldsOn t g) (h' : t.HoldsOn u g) : s.HoldsOn u g :=
  ⟨h'.hold.trans h.hold, h.par.trans h'.par⟩

theorem State.HoldsOn.of_eq {s t : State} {g : Nat} (hgals : t.gals = s.gals) (hparams : t.params = s.params) : s.HoldsOn t g where
  hold := congrArg (fun m => (tabGet Gallery.reset m g).hold) hgals
  par := le_of_eq (congrArg (fun p => (tabGet (paramReset (galP g 0x52)) p (galP g 0x52)).toNat) hparams).symm

theorem holdsOn_modGal (s : State) (g k : Nat) {f : Gallery → Gallery} (hf : ∀ x, (f x).hold = x.hold) : s.HoldsOn (s.modGal k f) g where
  hold := by
    by_cases h : g = k
    · rw [h, State.gal_modGal_same, hf]
    · rw [State.gal_modGal_ne _ _ _ _ h]
  par := le_rfl

theorem holdsOn_count (s : State) (g n k : Nat) : s.HoldsOn (s.count n k) g where
  hold := rfl
  par := by
    by_cases h : galP g 0x52 = n
    · subst h
      rw [toNat_count]
      have := (s.par (galP g 0x52)).isLt
      omega
    · rw [State.par_count_ne _ _ _ _ h]

theorem holdsOn_raise (s : State) (g e : Nat) (l : List Byte) : s.HoldsOn (s.raise e l) g := by
  rw [raise_rest]; exact .of_eq rfl rfl

theorem holdsOn_icpOutcome (k seq cfa : Nat) (ask : Option Packet) (st : Nat) (s : State) (g : Nat) :
    s.HoldsOn (icpOutcome k seq cfa ask st s) g := by
  have hask : ∀ u : State, u.HoldsOn (match ask with | none => u | some p => if st = 0 then replyData p 0 [] u else replyError p st u) g := by
    intro u
    cases ask with
    | none => exact .refl u g
    | some p => exact iteInduction (motive := fun t => u.HoldsOn t g) (fun _ => .of_eq rfl rfl) (fun _ => .of_eq rfl rfl)
  have hcount : ∀ u : State, u.HoldsOn (if st = 0 then u.count (galP k 0x51) 1 else (u.count (galP k 0x52) 1).raise 0xD8
      ([BitVec.ofNat 8 k, BitVec.ofNat 8 st, 0, 0] ++ leBytes 4 cfa)) g := fun u =>
    iteInduction (motive := fun t => u.HoldsOn t g) (fun _ => holdsOn_count u g _ _)
      (fun _ => (holdsOn_count u g _ _).trans (holdsOn_raise _ g _ _))
  have htransit : ∀ u : State, u.HoldsOn (if selfTargeted k cfa && decide (st ≠ 0) then u.modGal k (fun x => { x with transit := x.transit - 1 })
      else u) g := fun u =>
    iteInduction (motive := fun t => u.HoldsOn t g) (fun _ => holdsOn_modGal u g k (fun _ => rfl)) (fun _ => .refl u g)
  have hstaging : s.HoldsOn (modStaging k (fun x => { x with
      seq := seq, status := st, cfa := cfa, busy := if ask.isSome then x.busy else false
      held := selfTargeted k cfa && decide (st = 0) }) s) g := holdsOn_modGal s g k (fun _ => rfl)
  exact ((hstaging.trans (htransit _)).trans (hcount _)).trans (hask _)

theorem holdsOn_close (p : Purpose) (st : Nat) (data : List Byte) (s : State) (g : Nat) : s.HoldsOn (p.close st data s) g := by
  cases p with
  | dma k id a b => exact holdsOn_modGal s g k (fun _ => rfl)
  | bulk tag part => exact .of_eq rfl rfl
  | lampRead c part =>
    have h := endMemRead_rest c part st data s
    show s.HoldsOn (endMemRead c part st data s) g
    rw [h]
    exact .of_eq rfl rfl
  | icp k seq cfa ask => exact holdsOn_icpOutcome ..
  | message => exact .refl s g

theorem State.HoldsOn.foldl {α : Type} {g : Nat} {f : State → α → State} (hf : ∀ s x, State.HoldsOn s (f s x) g) (l : List α) (s : State) :
    s.HoldsOn (l.foldl f s) g := by
  induction l generalizing s with
  | nil => exact .refl s g
  | cons x l ih => exact (hf s x).trans (ih _)

theorem holdsOn_endTrans (t : Trans) (st : Nat) (data : List Byte) (s : State) (g : Nat) : s.HoldsOn (endTrans t st data s) g :=
  iteInduction (motive := fun u => s.HoldsOn u g)
    (fun _ => by
      refine .trans ?_ (holdsOn_close _ _ _ _ g)
      exact .of_eq rfl rfl)
    (fun _ => .refl s g)

theorem holdsOn_markDead (u cause : Nat) (s : State) (g : Nat) : s.HoldsOn (markDead u cause s) g := by
  rw [markDead_eq]
  refine iteInduction (motive := fun t => s.HoldsOn t g) (fun _ => .refl s g) (fun _ => ?_)
  refine .trans ?_ (.foldl (fun s t => holdsOn_endTrans t _ _ s g) _ _)
  unfold State.marked
  dsimp only
  split
  · refine .trans ?_ (holdsOn_raise _ g _ _)
    refine ⟨rfl, le_of_eq (congrArg BitVec.toNat ?_)⟩
    have hne : galP g 0x52 ≠ galP u 0xA1 := by simp only [galP]; omega
    exact (State.par_putPar_ne _ _ _ _ hne).symm
  · refine .trans ?_ (holdsOn_raise _ g _ _)
    exact .of_eq rfl rfl

/-- One held frame is discarded: counted, and reported with DEAD (R367, R372). -/
def discardFrame (g : Nat) (s : State) (f : Frame) : State :=
  (modStaging g (fun x => { x with status := stDead, held := false }) (s.count (galP g 0x52) 1)).raise 0xD8
    ([BitVec.ofNat 8 g, BitVec.ofNat 8 stDead, 0, 0] ++ leBytes 4 f.cfa)

theorem par_discardFrame (g : Nat) (s : State) (f : Frame) : ((discardFrame g s f).par (galP g 0x52)).toNat =
    Min.min 0xFFFFFFFF ((s.par (galP g 0x52)).toNat + 1) := by
  rw [← toNat_count]
  unfold discardFrame
  rw [State.par, State.raise_params]
  rfl

theorem par_discardFrames (g : Nat) (l : List Frame) (s : State) : ((l.foldl (discardFrame g) s).par (galP g 0x52)).toNat =
    Min.min 0xFFFFFFFF ((s.par (galP g 0x52)).toNat + l.length) := by
  induction l generalizing s with
  | nil =>
    have := (s.par (galP g 0x52)).isLt
    exact (Nat.min_eq_right (by simp; omega)).symm
  | cons f l ih => rw [List.foldl_cons, ih, par_discardFrame, min_add_min, List.length_cons, Nat.add_comm 1]

/-- What discarding leaves of a gallery and of the mesh. -/
theorem discardFrames_rest (g : Nat) (l : List Frame) (s : State) :
    ((l.foldl (discardFrame g) s).gal g).tapQ = (s.gal g).tapQ ∧ (l.foldl (discardFrame g) s).mesh = s.mesh := by
  have hone : ∀ u f, ((discardFrame g u f).gal g).tapQ = (u.gal g).tapQ ∧ (discardFrame g u f).mesh = u.mesh := fun u f => by
    have hgal : (modStaging g (fun x => { x with status := stDead, held := false }) (u.count (galP g 0x52) 1)).gal g = _ :=
      State.gal_modGal_same ..
    have hraise : (discardFrame g u f).gal g =
        (modStaging g (fun x => { x with status := stDead, held := false }) (u.count (galP g 0x52) 1)).gal g :=
      congrArg (fun m => tabGet Gallery.reset m g) (State.raise_gals ..)
    exact ⟨(congrArg Gallery.tapQ (hraise.trans hgal)).trans rfl, State.raise_mesh ..⟩
  induction l generalizing s with
  | nil => exact ⟨rfl, rfl⟩
  | cons f l ih =>
    obtain ⟨htap, hmesh⟩ := ih (discardFrame g s f)
    exact ⟨htap.trans (hone s f).1, hmesh.trans (hone s f).2⟩

theorem discardHeld_eq (g : Nat) (s : State) : discardHeld g s =
    ((s.gal g).hold.foldl (discardFrame g) s).modGal g (fun x => { x with hold := [] }) := rfl

/-- The state in which a gallery whose drain ran out is force-isolated (R372). -/
def State.isolated (s : State) (d : Nat) : State :=
  (discardHeld d (dropTaps d (markDead d 6 s))).modSeq d (fun q => { q with damped := true })

theorem exec_drainLimitExpiry {s : State} {d : Nat} (hd : d < 16) (h : s.drainsAt d 2 = true ∨ s.drainsAt d 3 = true) :
    exec (.drainLimitExpiry d) s = .next (forceClose d (s.isolated d)) :=
  congrArg _ (if_pos (by rw [decide_eq_true hd, Bool.true_and, Bool.or_eq_true]; exact h))

theorem isolated_brings (s : State) {d : Nat} (hd : d < 16) :
    ((s.isolated d).gal d).hold = [] ∧ ((s.isolated d).gal d).tapQ = [] ∧ ((s.isolated d).gal d).seq.damped = true ∧
    (s.isolated d).isDead d = true ∧
    Min.min 0xFFFFFFFF ((s.par (galP d 0x52)).toNat + (s.gal d).hold.length) ≤ ((s.isolated d).par (galP d 0x52)).toNat := by
  have hmark := holdsOn_markDead d 6 s d
  have hdead : (markDead d 6 s).isDead d = true := by rw [isDead_markDead (by omega)]; simp
  have htaps := gal_dropTaps (markDead d 6 s) d
  have honly := dropTaps_only (markDead d 6 s) d
  have hpar : (dropTaps d (markDead d 6 s)).par (galP d 0x52) = (markDead d 6 s).par (galP d 0x52) :=
    honly.params _ (by simp [galP])
  have hmesh : (dropTaps d (markDead d 6 s)).mesh = (markDead d 6 s).mesh := by rw [honly.rest]
  unfold State.isolated
  rw [discardHeld_eq]
  generalize dropTaps d (markDead d 6 s) = u at *
  obtain ⟨htapQ, hmesh'⟩ := discardFrames_rest d (u.gal d).hold u
  have hcount := par_discardFrames d (u.gal d).hold u
  generalize hv : (u.gal d).hold.foldl (discardFrame d) u = v at *
  have hgal : ((v.modGal d (fun x => { x with hold := [] })).modSeq d (fun q => { q with damped := true })).gal d =
      { v.gal d with hold := [], seq := { (v.gal d).seq with damped := true } } := by
    rw [State.modSeq, State.gal_modGal_same, State.gal_modGal_same]
  have hhold : (u.gal d).hold = (s.gal d).hold := by rw [htaps]; exact hmark.hold
  have htap : (u.gal d).tapQ = [] := by rw [htaps]
  refine ⟨?_, ?_, ?_, ?_, ?_⟩
  · rw [hgal]
  · rw [hgal]; exact htapQ.trans htap
  · rw [hgal]
  · exact (isDead_congr (congrArg Mesh.dead (hmesh'.trans hmesh)) d).trans hdead
  · show _ ≤ (v.par (galP d 0x52)).toNat
    rw [hcount, hpar, hhold]
    have := hmark.par
    omega

theorem ports_markDead (u cause : Nat) (s : State) : (markDead u cause s).ports = s.ports := by
  rw [markDead_eq]
  split
  · rfl
  · refine (foldl_projection State.ports (fun t x => ports_endTrans x _ [] t) _ _).trans ?_
    unfold State.marked
    rw [State.raise_ports]
    split <;> rfl

/-- A port that a drain gives up: its buffers are lost and it is dead (R373). -/
def portGivenUp (s : State) (k : Nat) : State := markDead (16 + k) 6 (dropBuffers k s)

theorem portGivenUp_brings (s : State) {k : Nat} (hk : k < 16) :
    (portGivenUp s k).isDead (16 + k) = true ∧ ((portGivenUp s k).port k).txBuf = [] ∧
    (∀ u < 32, s.isDead u = true → (portGivenUp s k).isDead u = true) ∧
    (∀ j, (s.port j).txBuf = [] → ((portGivenUp s k).port j).txBuf = []) := by
  have hbuf : ((dropBuffers k s).port k).txBuf = [] := congrArg Port.txBuf (State.port_modPort_same ..)
  have hother : ∀ j, j ≠ k → (dropBuffers k s).port j = s.port j := fun j hj => State.port_modPort_ne _ _ _ _ hj
  have hdead : ∀ u, (dropBuffers k s).isDead u = s.isDead u := fun u => isDead_congr rfl u
  have hport : ∀ j, (portGivenUp s k).port j = (dropBuffers k s).port j := fun j => port_congr (ports_markDead ..) j
  refine ⟨?_, ?_, fun u hu h => ?_, fun j hj => ?_⟩
  · rw [portGivenUp, isDead_markDead (by omega)]; simp
  · rw [hport, hbuf]
  · rw [portGivenUp, isDead_markDead hu, hdead, h, Bool.true_or]
  · rw [hport]
    by_cases h : j = k
    · rw [h, hbuf]
    · rw [hother j h, hj]

theorem foldl_portGivenUp {l : List Nat} (hl : ∀ k ∈ l, k < 16) (s : State) (k : Nat)
    (h : k ∈ l ∨ (k < 16 ∧ s.isDead (16 + k) = true ∧ (s.port k).txBuf = [])) :
    (l.foldl portGivenUp s).isDead (16 + k) = true ∧ ((l.foldl portGivenUp s).port k).txBuf = [] := by
  induction l generalizing s with
  | nil => exact (h.resolve_left List.not_mem_nil).2
  | cons a l ih =>
    obtain ⟨hself, hself', hdead, hbuf⟩ := portGivenUp_brings s (hl a List.mem_cons_self)
    refine ih (fun k hk => hl k (List.mem_cons_of_mem a hk)) (portGivenUp s a) ?_
    obtain hmem | ⟨hk, hd, hb⟩ := h
    · obtain rfl | hmem := List.mem_cons.1 hmem
      · exact .inr ⟨hl _ List.mem_cons_self, hself, hself'⟩
      · exact .inl hmem
    · exact .inr ⟨hk, hdead _ (by omega) hd, hbuf k hb⟩

section
variable {s : State} {p : Nat} (hp : p < 8) (h : s.drainsAt (16 + p) 2 = true)
include hp h

theorem exec_portPairDrained : exec (.portPairDrained p) s = .next
    (if ∀ k ∈ s.pairPorts (16 + p), (s.port k).txBuf = [] ∧ s.portReady k = [] then closeDomain (16 + p) false s else s) := by
  refine congrArg _ (if_congr ?_ rfl rfl)
  rw [decide_eq_true hp, h, Bool.and_self, Bool.true_and, List.all_eq_true]
  simp only [Bool.and_eq_true, List.isEmpty_iff]

theorem exec_portDrainExpiry : exec (.portDrainExpiry p) s = .next
    (forceClose (16 + p) ((s.pairPorts (16 + p)).foldl portGivenUp s)) :=
  congrArg _ (if_pos (by rw [decide_eq_true hp, h]; rfl))

end

theorem pairPorts_eq (s : State) (p : Nat) : s.pairPorts (16 + p) = [2 * p, 2 * p + 1].filter s.variant.hasPort := by
  unfold State.pairPorts
  rw [Nat.add_sub_cancel_left]

theorem exec_powerDownComplete {s : State} {d : Nat} (hclk : s.clocked = true) (h : (s.dom d).moving = true) :
    exec (.powerDownComplete d) s = .next (if (s.dom d).action = 1 then leaveOn d .sleep s else releaseHeld d (leaveOn d .off s)) :=
  congrArg _ (if_neg (by rw [hclk, h]; decide))

/-- Settles O41, clause by clause: the checks of the command, the drain's steps in their order, the forced end
of a drain, the port pair, and the domain's way to sleep or off. -/
theorem dampersCloseTheirDomains : Obligations.DampersCloseTheirDomains := by
  intro s c d p forced ds action x busy wrong drains
  have hds : cmdDomains c = ds := setBits_eq_testBit 25 _
  have hdrains : ∀ k n, drains k n → s.drainsAt k n = true := fun k n h => (drainsAt_iff s k n).2 h
  refine ⟨fun hst => ?_, fun h => startClose_off h action, fun h hc => startClose_closed h hc action, fun hon hopen hd => ?_,
    closeDomain_eq s d forced, fun m ended hm hbit _ => ?_, fun hd h => ?_, fun hd h => ?_, fun hd h => ?_, fun hp h => ?_,
    fun hclk hm => ?_, fun hclk hm => ?_⟩
  · have hrun : exec (.damperClose c.via) s = .next (damperCloseCmd c s) := congrArg _ (runCmd_eq hst _)
    rw [hrun]
    refine ⟨fun h => congrArg _ (damperClose_absent hds h), fun hall => ⟨fun hw => ?_, fun hr hb => ?_, fun hr hfree => ?_⟩⟩
    · exact congrArg _ (damperClose_wrong hds hall hw)
    · exact congrArg _ (damperClose_busy hds hall hr hb)
    · rw [damperClose_starts hds hall hr hfree]
      refine ⟨fun hnil => congrArg _ (startDamper_none (hds.trans hnil) hst.type), fun hne => ?_⟩
      rw [startDamper_some (by rw [hds]; exact hne), hds]
  · obtain ⟨hrest, hdom, hgal⟩ := draining_brings s action d
    exact ⟨_, startClose_drains hon hopen hd action, hrest, hdom, hgal⟩
  · rw [damperDone_one hm hbit]
    exact ⟨fun hne => if_pos hne, fun hz => if_neg (not_not_intro hz)⟩
  · rw [exec_damperSequencerDamped hd (hdrains d 2 h)]
    refine ⟨fun hdamp hfill => congrArg _ (if_pos ⟨hdamp, hfill⟩), fun hno => congrArg _ (if_neg fun hy => ?_)⟩
    obtain hno | ⟨e, he, hfill⟩ := hno
    · exact Bool.noConfusion (hno.symm.trans hy.1)
    · exact Bool.noConfusion ((hy.2 e he).symm.trans hfill)
  · rw [exec_damperDrained hd (hdrains d 3 h)]
    exact ⟨fun hno => congrArg _ (if_neg (by rw [hno]; decide)), fun hy => congrArg _ (if_pos hy)⟩
  · exact ⟨s.isolated d, exec_drainLimitExpiry hd (h.imp (hdrains d 2) (hdrains d 3)), isolated_brings s hd⟩
  · have hports := pairPorts_eq s p
    rw [exec_portPairDrained hp (hdrains _ 2 h), exec_portDrainExpiry hp (hdrains _ 2 h), hports]
    refine ⟨fun hall => congrArg _ (if_pos hall), fun ⟨k, hk, hn⟩ => congrArg _ (if_neg fun hall => ?_), _, rfl, fun k hk => ?_⟩
    · exact hn.elim (fun hn => hn (hall k hk).1) (fun hn => hn (hall k hk).2)
    · refine foldl_portGivenUp (fun k hk => ?_) s k (.inl hk)
      have := List.mem_of_mem_filter hk
      simp only [List.mem_cons, List.not_mem_nil, or_false] at this
      omega
  · rw [exec_powerDownComplete hclk hm]
    exact ⟨fun h => congrArg _ (if_pos h), fun h => congrArg _ (if_neg h)⟩
  · exact congrArg _ (if_pos (by rw [hclk]; simpa using hm))

end Sys2Proof.Machine
end

section
/-!
PROOF of O51: what each probe of a pin, each driver readback and each end of a fault answers.
-/

namespace Sys2Proof.Machine

/-- The probes in a row of pin `key` are `r`. -/
def State.ran (s : State) (key : Nat) (r : Nat × Nat) : State :=
  { s with pins := { s.pins with runs := tabSet (0, 0) s.pins.runs key r } }

/-- R427: a probe that agrees with the declared state ends the run, the first that does not starts one, the second lets
the reaction happen. -/
theorem probe_cases (key was kind : Nat) (act : Nat → State → State) (s : State) :
    ((kind = 0 ↔ was = 0) → probe key was kind act s = s.ran key (0, 0)) ∧
    (¬ (kind = 0 ↔ was = 0) → (tabGet (0, 0) s.pins.runs key).1 = 0 → probe key was kind act s = s.ran key (1, kind)) ∧
    (¬ (kind = 0 ↔ was = 0) → (tabGet (0, 0) s.pins.runs key).1 ≠ 0 → probe key was kind act s = act kind (s.ran key (0, 0))) := by
  have hagree : (decide (kind ≠ 0) = decide (was ≠ 0)) ↔ (kind = 0 ↔ was = 0) := by
    rw [decide_eq_decide]; exact not_iff_not
  unfold probe probeRun
  refine ⟨fun h => ?_, fun h hz => ?_, fun h hz => ?_⟩
  · rw [if_pos (hagree.2 h)]; rfl
  · rw [if_neg (mt hagree.1 h), if_neg (by omega)]; rfl
  · rw [if_neg (mt hagree.1 h), if_pos (by omega)]; rfl

/-- What a probe command answers, from the reaction to a change that is named in the model. -/
theorem probed_of_exec {i : Instr} {key was kind : Nat} {act : Nat → State → State} {act' : State → State} {s : State}
    (h : exec i s = .next (probe key was kind act s))
    (hact : ¬ (kind = 0 ↔ was = 0) → act kind (s.ran key (0, 0)) = act' (s.ran key (0, 0))) :
    ((kind = 0 ↔ was = 0) → exec i s = .next (s.ran key (0, 0))) ∧
    (¬ (kind = 0 ↔ was = 0) → (tabGet (0, 0) s.pins.runs key).1 = 0 → exec i s = .next (s.ran key (1, kind))) ∧
    (¬ (kind = 0 ↔ was = 0) → (tabGet (0, 0) s.pins.runs key).1 ≠ 0 → exec i s = .next (act' (s.ran key (0, 0)))) := by
  obtain ⟨hsame, hfirst, hsecond⟩ := probe_cases key was kind act s
  exact ⟨fun hk => h.trans (congrArg _ (hsame hk)), fun hk hz => h.trans (congrArg _ (hfirst hk hz)),
    fun hk hz => h.trans (congrArg _ ((hsecond hk hz).trans (hact hk)))⟩

/-- The reaction of a timing line and of LAMP_RX: the kind is declared, and a fault raises its event. -/
def declareKind (key event : Nat) (b : Byte) (k : Nat) (s : State) : State :=
  if k = 0 then setKind key k s else (setKind key k s).raise event [b, BitVec.ofNat 8 k]

theorem declareKind_eq (key event : Nat) (b : Byte) (k : Nat) (s : State) : declareKind key event b k s =
    if k = 0 then setKind key 0 s else (setKind key k s).raise event [b, BitVec.ofNat 8 k] := by
  unfold declareKind
  split
  · next h => rw [h]
  · rfl

/-- The same, for the reaction as the model writes it. -/
theorem probed_model {i : Instr} {key was kind : Nat} {act : Nat → State → State} {s : State}
    (h : exec i s = .next (probe key was kind act s)) :
    ((kind = 0 ↔ was = 0) → exec i s = .next (s.ran key (0, 0))) ∧
    (¬ (kind = 0 ↔ was = 0) → (tabGet (0, 0) s.pins.runs key).1 = 0 → exec i s = .next (s.ran key (1, kind))) ∧
    (¬ (kind = 0 ↔ was = 0) → (tabGet (0, 0) s.pins.runs key).1 ≠ 0 → exec i s = .next (act kind (s.ran key (0, 0)))) :=
  probed_of_exec h fun _ => rfl

section
variable {s : State} {kind : Nat} (hclk : s.clocked = true) (hkind : kind ≤ 4)
include hclk hkind

theorem probe_unguarded : ¬ (!s.clocked || decide (4 < kind)) = true := by
  rw [hclk]; simpa using hkind

theorem exec_probe_trig (n : Nat) : exec (.pinBiasProbe (.trig n) kind) s = .next
    (if 8 ≤ n ∨ s.pins.tristated.getLsbD n = true ∨ 1 < kind then s else probe n (s.kind n) kind (lineProbe n) s) :=
  congrArg _ (if_neg (probe_unguarded hclk hkind))

theorem exec_probe_starIn : exec (.pinBiasProbe .starIn kind) s = .next (probe 8 (s.kind 8) kind (lineProbe 8) s) :=
  congrArg _ (if_neg (probe_unguarded hclk hkind))

theorem exec_probe_timing (l : Bool) :
    exec (.pinBiasProbe (if l = true then Pin.sysref else Pin.sync) kind) s = .next
      (if s.kind (if l = true then 11 else 10) = 5 then s
       else probe (if l = true then 11 else 10) (s.kind (if l = true then 11 else 10)) kind
        (declareKind (if l = true then 11 else 10) 0xF2 (if l = true then 1 else 0)) s) := by
  cases l with
  | false => exact congrArg _ (if_neg (probe_unguarded hclk hkind))
  | true => exact congrArg _ (if_neg (probe_unguarded hclk hkind))

theorem exec_probe_lampRx : exec (.pinBiasProbe .lampRx kind) s = .next
    (if 2 < kind then s else probe 13 (s.kind 13) kind (declareKind 13 0xFE 1) s) :=
  congrArg _ (if_neg (probe_unguarded hclk hkind))

theorem exec_probe_tally (j l : Nat) : exec (.pinBiasProbe (.tally j l) kind) s = .next
    (if 8 ≤ j ∨ s.kind (16 + j) ≠ 0 then s
     else probe (16 + j) 0 kind (fun k s => if k = 0 then s else busFault j l k s) s) :=
  congrArg _ (if_neg (probe_unguarded hclk hkind))

theorem exec_probe_presn (p : Nat) : exec (.pinBiasProbe (.presn p) kind) s = .next
    (if 16 ≤ p ∨ s.variant.hasPort p = false then s
     else probe (48 + p) (if (s.port p).faults.getLsbD 1 = true then 1 else 0) kind
      (fun k s => if k = 0 then portFaultEnds p 1 s else (portFault p 1 k s).raise 0xFF [BitVec.ofNat 8 p, BitVec.ofNat 8 k]) s) :=
  congrArg _ (if_neg (probe_unguarded hclk hkind))

theorem exec_probe_rxLane (p : Nat) : exec (.pinBiasProbe (.rxLane p) kind) s = .next
    (if 16 ≤ p ∨ s.protocol p = 0 then s
     else probe (32 + p) (if (s.port p).faults.getLsbD 2 = true then 1 else 0) kind
      (fun k s => if k = 0 then portReset p (portFaultEnds p 2 s) else (portFault p 2 k s).raiseLane p 5) s) :=
  congrArg _ (if_neg (probe_unguarded hclk hkind))

end

/-- A faulty tally bus is reported and counted at both its ports. -/
theorem busFault_eq (j l k : Nat) (s : State) : busFault j l k s =
    ([2 * j, 2 * j + 1].filter s.variant.hasPort).foldl (fun u p => portFault p 0 k u)
      ((setKind (16 + j) k s).raise 0xFD [BitVec.ofNat 8 j, BitVec.ofNat 8 l, BitVec.ofNat 8 k]) := by
  unfold busFault State.busPorts
  dsimp only
  rw [State.raise_variant]
  rfl

section
variable {s : State} {kind : Nat} (hclk : s.clocked = true) (hlow : 2 ≤ kind) (hhigh : kind ≤ 4)
include hclk hlow hhigh

theorem readback_unguarded : ¬ (!s.clocked || decide (kind < 2 ∨ 4 < kind)) = true := by
  rw [hclk]
  simp only [Bool.not_true, Bool.false_or, decide_eq_true_eq]
  omega

theorem exec_readback_trig {n : Nat} (hn : n < 8) : exec (.driverReadbackFault (.trig n) kind) s = .next
    (if s.tnd.driven.getLsbD n = true ∧ s.pins.tristated.getLsbD n = false then shortLine n kind s else s) := by
  refine congrArg _ ((if_neg (readback_unguarded hclk hlow hhigh)).trans (if_congr ?_ rfl rfl))
  unfold State.drivesLine hasBit
  rw [if_neg (by omega : ¬ n = 9), decide_eq_true hn]
  simp

theorem exec_readback_starOut : exec (.driverReadbackFault .starOut kind) s = .next
    (if s.tnd.driven.getLsbD 8 = true ∧ s.pins.tristated.getLsbD 9 = false then shortLine 9 kind s else s) := by
  refine congrArg _ ((if_neg (readback_unguarded hclk hlow hhigh)).trans (if_congr ?_ rfl rfl))
  unfold State.drivesLine hasBit
  rw [if_pos rfl]
  simp

theorem exec_readback_lampTx : exec (.driverReadbackFault .lampTx kind) s = .next
    (if s.lamp.pairOn = true ∧ s.kind 12 = 0 then (setKind 12 kind s).raise 0xFE [0, BitVec.ofNat 8 kind] else s) :=
  congrArg _ ((if_neg (readback_unguarded hclk hlow hhigh)).trans (if_congr (by simp) rfl rfl))

theorem exec_readback_kindled : exec (.driverReadbackFault .kindled kind) s = .next
    (if s.kin.pullDown = true ∧ kind = 3 ∧ s.kind 14 = 0 then (setKind 14 3 s).raise 0xFE [2, 3] else s) :=
  congrArg _ ((if_neg (readback_unguarded hclk hlow hhigh)).trans (if_congr (by simp) rfl rfl))

theorem exec_readback_tally (j l : Nat) : exec (.driverReadbackFault (.tally j l) kind) s = .next
    (if j < 8 ∧ s.kind (16 + j) = 0 then busFault j l kind s else s) :=
  congrArg _ (if_neg (readback_unguarded hclk hlow hhigh))

theorem exec_readback_txLane (p : Nat) : exec (.driverReadbackFault (.txLane p) kind) s = .next
    (if p < 16 ∧ s.protocol p ≠ 0 ∧ s.kin.outputs = true ∧ (s.port p).txFault = false then
      ((portFault p 3 kind s).modPort p (fun q =>
        { q with txFault := true, laneSt := if s.linkOf p false = none then 7 else q.laneSt })).raiseLane p 4
     else s) := by
  refine congrArg _ ((if_neg (readback_unguarded hclk hlow hhigh)).trans (if_congr Iff.rfl ?_ rfl))
  simp only [Option.isNone_iff_eq_none]

end

/-- R428: a port of a bus that works again: its fault ends, and a present module of a JESD204C port is read again. -/
def rereadPort (p : Nat) (s : State) : State :=
  let s := portFaultEnds p 0 s
  if s.readsTally p then startTally p (decide ((s.port p).bind = 0)) s else s

/-- What a bus that works again leaves in a port. -/
def State.reread (s : State) (p : Nat) : Port :=
  if s.protocol p = 1 ∧ (s.port p).present = true then
    { s.port p with faults := putBit (s.port p).faults 0 false, tallySt := 1, tallyTry := 0, tallyEnds := decide ((s.port p).bind = 0) }
  else { s.port p with faults := putBit (s.port p).faults 0 false }

theorem rereadPort_brings (p : Nat) (s : State) :
    rereadPort p s = { s with ports := (rereadPort p s).ports } ∧ (rereadPort p s).port p = s.reread p ∧
    ∀ k, k ≠ p → (rereadPort p s).port k = s.port k := by
  have hfaults : (portFaultEnds p 0 s).port p = { s.port p with faults := putBit (s.port p).faults 0 false } :=
    State.port_modPort_same ..
  have hother : ∀ k, k ≠ p → (portFaultEnds p 0 s).port k = s.port k := fun k hk => State.port_modPort_ne _ _ _ _ hk
  have hreads : (portFaultEnds p 0 s).readsTally p = true ↔ s.protocol p = 1 ∧ (s.port p).present = true := by
    rw [State.readsTally, hfaults, Bool.and_eq_true, decide_eq_true_eq]
    rfl
  unfold rereadPort State.reread
  dsimp only
  by_cases h : s.protocol p = 1 ∧ (s.port p).present = true
  · rw [if_pos (hreads.2 h), if_pos h, hfaults]
    exact ⟨rfl, (State.port_modPort_same ..).trans (by rw [hfaults]),
      fun k hk => (State.port_modPort_ne _ _ _ _ hk).trans (hother k hk)⟩
  · rw [if_neg (mt hreads.1 h), if_neg h]
    exact ⟨rfl, hfaults, hother⟩

theorem foldl_rereadPort : ∀ {l : List Nat} (_ : l.Nodup) (s : State),
    let t := l.foldl (fun r p => rereadPort p r) s
    t = { s with ports := t.ports } ∧ ∀ k, t.port k = if k ∈ l then s.reread k else s.port k
  | [], _, s => ⟨rfl, fun _ => rfl⟩
  | p :: l, hnodup, s => by
    obtain ⟨hnot, hnodup⟩ := List.nodup_cons.1 hnodup
    obtain ⟨hrest, hport, hother⟩ := rereadPort_brings p s
    obtain ⟨hrest', hports⟩ := foldl_rereadPort hnodup (rereadPort p s)
    have hreread : ∀ k, k ≠ p → (rereadPort p s).reread k = s.reread k := fun k hk => by
      unfold State.reread
      rw [hother k hk, hrest]
      rfl
    refine ⟨State.PortsOnly.trans hrest hrest', fun k => ?_⟩
    · refine (hports k).trans ?_
      by_cases hk : k = p
      · rw [hk, if_neg hnot, if_pos List.mem_cons_self, hport]
      · rw [hreread k hk, hother k hk]
        exact if_congr (by simp [hk]) rfl rfl

theorem exec_tallyBusProbe {s : State} {n l kind : Nat} (hclk : s.clocked = true) (hn : n < 8) (hl : l < 2) (hkind : kind = 0)
    (hfault : s.kind (16 + n) ≠ 0) : exec (.tallyBusProbe n l kind) s = .next
      (([2 * n, 2 * n + 1].filter s.variant.hasPort).foldl (fun r p => rereadPort p r) (setKind (16 + n) 0 s)) :=
  congrArg _ (if_pos (by rw [hclk]; rw [Bool.true_and, decide_eq_true ⟨hn, hl, hkind, hfault⟩]))

theorem exec_timingLineReversed (n : Nat) (s : State) : exec (.timingLineReversed n) s = .next
    (if s.clocked = true ∧ n < 2 ∧ s.kind (10 + n) ≠ 5 then (setKind (10 + n) 5 s).raise 0xF2 [BitVec.ofNat 8 n, 5] else s) :=
  congrArg _ (if_congr (by simp) rfl rfl)

theorem exec_timingReversedCleared (n : Nat) (s : State) : exec (.timingReversedCleared n) s = .next
    (if s.clocked = true ∧ n < 2 ∧ s.kind (10 + n) = 5 then setKind (10 + n) 0 s else s) :=
  congrArg _ (if_congr (by simp) rfl rfl)

theorem exec_lampTxReadback (kind : Nat) (s : State) : exec (.lampTxReadback kind) s = .next
    (if s.clocked = true ∧ kind = 0 ∧ s.kind 12 ≠ 0 then setKind 12 0 s else s) :=
  congrArg _ (if_congr (by simp) rfl rfl)

theorem exec_presnNoAck (p : Nat) (s : State) : exec (.presnNoAck p) s = .next
    (if s.clocked = true ∧ p < 16 ∧ (s.port p).present = true ∧ (s.port p).faults.getLsbD 1 = false then
      (portFault p 1 2 s).raise 0xFF [BitVec.ofNat 8 p, 2] else s) :=
  congrArg _ (if_congr (by simp [hasBit, and_assoc]) rfl rfl)

/-- Settles O51, pin by pin: the two probes of R427 are `probe_cases`, and each group's reaction and each end of a fault is
the model's row of Table 25.3. -/
theorem pinFaultsAreDeclaredAndCleared : Obligations.PinFaultsAreDeclaredAndCleared := by
  intro s pin kind n p at' ran declared counted faulty ended probed line bus short
  refine ⟨fun hclk => ?_, fun hclk hkind => ?_, fun hclk hlow hhigh => ?_, fun hkind => ?_, ?_, ?_, fun l => ⟨fun h => ?_, fun hclk hn hl hkind hfault => ?_⟩, ?_, ?_⟩
  · exact ⟨congrArg _ (if_pos (by rw [hclk]; rfl)), congrArg _ (if_pos (by rw [hclk]; rfl))⟩
  · refine ⟨fun hpin hn htri hle => ?_, fun hpin h => ?_, fun hpin => ?_, fun l hpin => ⟨fun h => ?_, fun h => ?_⟩,
      fun hpin hle => ?_, fun j l hpin h => ?_, fun j l hpin hj hz => ?_, fun hpin hp hport => ?_, fun hpin hp hproto => ?_⟩
    · subst hpin
      have hno : ¬ (8 ≤ n ∨ s.pins.tristated.getLsbD n = true ∨ 1 < kind) := by
        rw [htri]
        simp
        omega
      exact probed_model ((exec_probe_trig hclk hkind n).trans (congrArg _ (if_neg hno)))
    · subst hpin
      exact (exec_probe_trig hclk hkind n).trans (congrArg _ (if_pos h))
    · subst hpin
      exact probed_model (exec_probe_starIn hclk hkind)
    · subst hpin
      exact (exec_probe_timing hclk hkind l).trans (congrArg _ (if_pos h))
    · subst hpin
      exact probed_of_exec (act' := fun u => if kind = 0 then setKind (if l = true then 11 else 10) 0 u else
        (setKind (if l = true then 11 else 10) kind u).raise 0xF2 [if l = true then 1 else 0, BitVec.ofNat 8 kind])
        ((exec_probe_timing hclk hkind l).trans (congrArg _ (if_neg h))) fun _ => declareKind_eq ..
    · subst hpin
      exact probed_of_exec (act' := fun u => if kind = 0 then setKind 13 0 u else
        (setKind 13 kind u).raise 0xFE [1, BitVec.ofNat 8 kind])
        ((exec_probe_lampRx hclk hkind).trans (congrArg _ (if_neg (by omega)))) fun _ => declareKind_eq ..
    · subst hpin
      exact (exec_probe_tally hclk hkind j l).trans (congrArg _ (if_pos h))
    · subst hpin
      refine probed_of_exec (act' := fun u => ([2 * j, 2 * j + 1].filter s.variant.hasPort).foldl (fun u p => portFault p 0 kind u)
        ((setKind (16 + j) kind u).raise 0xFD [BitVec.ofNat 8 j, BitVec.ofNat 8 l, BitVec.ofNat 8 kind]))
        ((exec_probe_tally hclk hkind j l).trans (congrArg _ (if_neg ?_))) fun hne => ?_
      · rintro (h | h)
        · omega
        · exact h hz
      · rw [if_neg fun hz => hne (by simp [hz]), busFault_eq]
        rfl
    · subst hpin
      refine probed_model ((exec_probe_presn hclk hkind p).trans (congrArg _ (if_neg ?_)))
      rw [hport]; simpa using hp
    · subst hpin
      refine probed_model ((exec_probe_rxLane hclk hkind p).trans (congrArg _ (if_neg ?_)))
      omega
  · refine ⟨?_, ?_, ?_, ?_, ?_, ?_⟩
    · intro hpin hn
      subst hpin
      exact exec_readback_trig hclk hlow hhigh hn
    · intro hpin
      subst hpin
      exact exec_readback_starOut hclk hlow hhigh
    · intro hpin
      subst hpin
      exact exec_readback_lampTx hclk hlow hhigh
    · intro hpin
      subst hpin
      exact exec_readback_kindled hclk hlow hhigh
    · intro j l hpin
      subst hpin
      rw [exec_readback_tally hclk hlow hhigh, busFault_eq]
      rfl
    · intro hpin
      subst hpin
      exact exec_readback_txLane hclk hlow hhigh p
  · exact congrArg _ (if_pos (by simp; omega))
  · exact exec_timingLineReversed n s
  · exact exec_timingReversedCleared n s
  · refine congrArg _ (if_neg fun hy => ?_)
    simp only [Bool.and_eq_true, decide_eq_true_eq] at hy
    obtain ⟨hclk, hn, hl, hk, hf⟩ := hy
    obtain h | h | h | h | h := h
    · exact Bool.noConfusion (h.symm.trans hclk)
    · omega
    · omega
    · exact h hk
    · exact hf h
  · obtain ⟨hrest, hports⟩ := foldl_rereadPort (l := [2 * n, 2 * n + 1].filter s.variant.hasPort)
      (List.Nodup.filter _ (by simp)) (setKind (16 + n) 0 s)
    refine ⟨_, exec_tallyBusProbe hclk hn hl hkind hfault, hrest, fun k => (hports k).trans (if_congr ?_ rfl rfl)⟩
    simp [List.mem_filter]
  · exact exec_lampTxReadback kind s
  · exact exec_presnNoAck p s

end Sys2Proof.Machine
end

section
/-!
PROOF of O43: MEM_FILL, MEM_READ and MEM_WRITE from the lamp.
-/

namespace Sys2Proof.Machine

/-! ### MEM_FILL (R218) -/

theorem memBad_fillMem {a n : Nat} (pat : List Byte) (x : Gallery) (w : Nat) (ha : a % 16 = 0) (hn : n % 16 = 0) :
    tabGet .sound (fillMem a n pat x).memBad w = if a ≤ 8 * w ∧ 8 * w < a + n then .sound else tabGet .sound x.memBad w :=
  (tabGet_tabClear ..).trans (if_congr (by omega) rfl rfl)

/-- Every bit of a granule's mask is set by a fill that covers its 512 bytes. -/
theorem fillMask_full {a n k : Nat} (old : BitVec 32) (h : ∀ b, b < 512 → a ≤ 512 * k + b ∧ 512 * k + b < a + n) :
    fillMask a n k old = 0xFFFFFFFF := by
  refine BitVec.eq_of_getLsbD_eq fun i hi => ?_
  have hbit : (maskOf 32 (fun b => decide (a ≤ 512 * k + 16 * b ∧ 512 * k + 16 * b < a + n))).testBit i = true := by
    rw [testBit_maskOf _ _ hi]
    simpa using h (16 * i) (by omega)
  have hones : (0xFFFFFFFF : BitVec 32).getLsbD i = true := by
    rw [show (0xFFFFFFFF : BitVec 32) = BitVec.allOnes 32 from rfl, BitVec.getLsbD_allOnes, decide_eq_true hi]
  rw [hones, fillMask, BitVec.getLsbD_or, BitVec.getLsbD_ofNat, hbit, decide_eq_true hi, Bool.true_and, Bool.or_true]

theorem primed_fillMem {a n k : Nat} (pat : List Byte) (x : Gallery)
    (h : ∀ b, b < 512 → a ≤ 512 * k + b ∧ 512 * k + b < a + n) : (fillMem a n pat x).primed k = true := by
  have hlow := h 0 (by omega)
  have hhigh := h 511 (by omega)
  unfold fillMem Gallery.primed
  dsimp only
  cases x.allPrimed with
  | true => rfl
  | false =>
    rw [if_neg Bool.false_ne_true, tabGet_tabBlock, if_pos (by omega), fillMask_full _ (by
      rw [show a / 512 + (k - a / 512) = k by omega]; exact h)]
    rfl

/-- What MEM_FILL leaves: its gallery's memory is filled and the fill counted. -/
theorem filled_brings {s : State} {g a n : Nat} (c : Cmd) (hg : g ≤ 15) (ha : a % 16 = 0) (hn : n % 16 = 0) :
    let t := (s.modGal g (fillMem a n (slice c.body 16 16))).tally (galP g 0x9E) 1
    t = { s with params := t.params, gals := t.gals } ∧ (∀ k, k ≠ g → t.gal k = s.gal k) ∧
    (∀ k, k ≠ galP g 0x9E → t.par k = s.par k) ∧ t.par (galP g 0x9E) = s.par (galP g 0x9E) + 1 ∧
    (∀ x, memByte (t.gal g).mem x = if a ≤ x ∧ x < a + n then byteAt c.body (16 + (x - a) % 16) else memByte (s.gal g).mem x) ∧
    (∀ w, tabGet .sound (t.gal g).memBad w = if a ≤ 8 * w ∧ 8 * w < a + n then .sound else tabGet .sound (s.gal g).memBad w) ∧
    (∀ k, (∀ b, b < 512 → a ≤ 512 * k + b ∧ 512 * k + b < a + n) → (t.gal g).primed k = true) ∧
    t.gal g = { s.gal g with
      mem := (t.gal g).mem, memBad := (t.gal g).memBad, granules := (t.gal g).granules, march := (t.gal g).march } := by
  have hgal : ((s.modGal g (fillMem a n (slice c.body 16 16))).tally (galP g 0x9E) 1).gal g =
      fillMem a n (slice c.body 16 16) (s.gal g) := State.gal_modGal_same ..
  intro t
  change t.gal g = _ at hgal
  rw [hgal]
  exact ⟨rfl, fun k hk => State.gal_modGal_ne _ _ _ _ hk, fun k hk => State.par_putPar_ne _ _ _ _ hk, State.par_putPar_same ..,
    memByte_fillMem a n c.body (s.gal g), fun w => memBad_fillMem _ _ w ha hn, fun k h => primed_fillMem _ _ h, rfl⟩

/-! ### The packets of MEM_READ and MEM_WRITE (R309) -/

/-- The lamp's requests for the parts of a range leave in their order, each with its transaction. -/
theorem foldl_request_parts (p : Nat → Packet) (purpose : Nat → Purpose) (n : Nat) (s : State) :
    ∃ (ks : List Packet) (ts : List Trans) (next : Nat),
      (List.range n).foldl (fun s i => request .lamp (p i) (purpose i) s) s =
        { s with mesh := { s.mesh with ready := s.mesh.ready ++ ks, trans := s.mesh.trans ++ ts, nextTag := next } } ∧
      ks.length = n ∧ ts.length = n ∧
      ∀ i k x, ks[i]? = some k → ts[i]? = some x → ∃ tag, k = { sourced s .lamp (p i) with tag := tag } ∧
        x = { node := 26, port := 0, tag := tag, dcard := (p i).dcard, dnode := 6 * (p i).dy + (p i).dx
              dport := (p i).dport, purpose := purpose i } := by
  obtain ⟨ks, ts, next, hfold, hks, hts, hall⟩ := foldl_request .lamp (fun q => p q.1) (fun q => purpose q.1)
    ((List.range n).map fun i => (i, 0)) s
  rw [List.length_map, List.length_range] at hks hts
  refine ⟨ks, ts, next, (List.foldl_map (f := fun i => (i, 0))).symm.trans hfold, hks, hts, fun i k x hk hx => ?_⟩
  have hi : i < n := hks ▸ (List.getElem?_eq_some_iff.1 hk).1
  exact hall i (i, 0) k x (by rw [List.getElem?_map, List.getElem?_range hi]; rfl) hk hx

/-- The lamp's packets without answer leave in their order. -/
theorem foldl_present (p : Nat → Packet) : ∀ (l : List Nat) (s : State),
    l.foldl (fun s i => present (sourced s .lamp (p i)) s) s =
      { s with mesh := { s.mesh with ready := s.mesh.ready ++ l.map (fun i => sourced s .lamp (p i)) } }
  | [], s => by simp
  | i :: l, s => by
    rw [List.foldl_cons, foldl_present]
    simp only [present, List.map_cons, List.append_assoc, List.cons_append, List.nil_append]
    rfl

/-- Where a packet of MEM_READ or MEM_WRITE comes from and goes to. -/
structure State.Addressed (s : State) (g cmd a size : Nat) (k : Packet) : Prop where
  cmd : k.cmd = cmd
  addr : k.addr = a
  gt : k.gt = false
  len : k.len = (size + 31) / 32
  half : k.half = decide (size % 32 ≠ 0)
  dest : 6 * k.dy + k.dx = galNode g
  dport : k.dport = 0
  dcard : k.dcard = s.card
  sx : k.sx = 2
  sy : k.sy = 4
  scard : k.scard = s.card
  valid : ∀ b < 128, k.valid.getLsbD b = true

theorem addressed_lampPacket (s : State) (g cmd a size tag : Nat) (d : List Byte) :
    s.Addressed g cmd a size { sourced s .lamp (lampPacket s g cmd a size d) with tag := tag } where
  cmd := rfl
  addr := rfl
  gt := rfl
  len := rfl
  half := rfl
  dest := galNode_eq g
  dport := rfl
  dcard := rfl
  sx := rfl
  sy := rfl
  scard := rfl
  valid := fun b hb => (BitVec.getLsbD_allOnes ..).trans (decide_eq_true hb)

/-- Two folds agree when their steps do where a kept condition holds. -/
theorem foldl_eq_of_kept {α β : Type} {I : α → Prop} {f g : α → β → α} (hstep : ∀ a b, I a → f a b = g a b)
    (hkeep : ∀ a b, I a → I (g a b)) : ∀ (l : List β) {a : α}, I a → l.foldl f a = l.foldl g a
  | [], _, _ => rfl
  | b :: l, a, h => by
    rw [List.foldl_cons, List.foldl_cons, hstep a b h]
    exact foldl_eq_of_kept hstep hkeep l (hkeep a b h)

theorem lampPacket_congr {s u : State} (h : u.card = s.card) (g cmd a n : Nat) (d : List Byte) :
    lampPacket u g cmd a n d = lampPacket s g cmd a n d := by
  unfold lampPacket
  rw [h]

/-! ### The checks of MEM_READ and MEM_WRITE -/

section
variable {s : State} {g a n : Nat}

theorem memRefusal_absent (h : g < 16 ∧ s.variant.hasGal g = false) : memRefusal g a n s = some 0x0C := if_pos h

theorem memRefusal_range (h : ¬ (g < 16 ∧ s.variant.hasGal g = false))
    (hw : 15 < g ∨ a % 16 ≠ 0 ∨ n % 16 ≠ 0 ∨ n < 16 ∨ 1024 < n) : memRefusal g a n s = some 9 :=
  (if_neg h).trans (if_pos hw)

theorem memRefusal_none (h : ¬ (g < 16 ∧ s.variant.hasGal g = false))
    (hw : ¬ (15 < g ∨ a % 16 ≠ 0 ∨ n % 16 ≠ 0 ∨ n < 16 ∨ 1024 < n)) : memRefusal g a n s = none :=
  (if_neg h).trans (if_neg hw)

end

theorem memReadCmd_refused {s : State} {c : Cmd} {st : Nat}
    (h : memRefusal (leAt c.body 0 1) (leAt c.body 4 4) (leAt c.body 8 4) s = some st) : memReadCmd c s = respond c st [] s := by
  simp only [memReadCmd, h]

theorem memReadCmd_sends {s : State} {c : Cmd}
    (h : memRefusal (leAt c.body 0 1) (leAt c.body 4 4) (leAt c.body 8 4) s = none) :
    let parts := (leAt c.body 8 4 + 511) / 512
    let t := s.begun c
    memReadCmd c s = (List.range parts).foldl (fun u i => request .lamp
        (lampPacket s (leAt c.body 0 1) 1 (leAt c.body 4 4 + 512 * i) (min 512 (leAt c.body 8 4 - 512 * i)) []) (.lampRead c i) u)
      { t with lamp := { t.lamp with
        reads := s.lamp.reads ++ [{ cmd := c, waiting := parts, parts := [], failed := none }] } } := by
  simp only [memReadCmd, h]
  exact foldl_eq_of_kept (I := fun u : State => u.card = s.card)
    (fun u i hu => congrArg (request .lamp · (.lampRead c i) u) (lampPacket_congr hu ..)) (fun u i hu => hu) _ rfl

theorem memWriteCmd_refused {s : State} {c : Cmd} {st : Nat}
    (h : memRefusal (leAt c.body 0 1) (leAt c.body 4 4) (c.body.drop 8).length s = some st) :
    memWriteCmd c s = respond c st [] s := by
  simp only [memWriteCmd, h]

theorem memWriteCmd_sends {s : State} {c : Cmd}
    (h : memRefusal (leAt c.body 0 1) (leAt c.body 4 4) (c.body.drop 8).length s = none) :
    memWriteCmd c s = respond c 0 [] ((List.range (((c.body.drop 8).length + 511) / 512)).foldl (fun u i =>
      present (sourced u .lamp (lampPacket s (leAt c.body 0 1) 0 (leAt c.body 4 4 + 512 * i)
        (slice (c.body.drop 8) (512 * i) 512).length (slice (c.body.drop 8) (512 * i) 512))) u) s) := by
  simp only [memWriteCmd, h]
  exact congrArg (respond c 0 []) (foldl_eq_of_kept (I := fun u : State => u.card = s.card)
    (fun u i hu => congrArg (fun k => present (sourced u .lamp k) u) (lampPacket_congr hu ..)) (fun u i hu => hu) _ rfl)

/-- Settles O43: the refusals of each command in their order, what MEM_FILL leaves, and the packets MEM_READ and MEM_WRITE
send from the lamp's place. -/
theorem lampReachesStreamMemory : Obligations.LampReachesStreamMemory := by
  intro s c g a n d on absent wrong addressed
  have hon : on ↔ s.domOn g = true := by simp [on, State.domOn]
  refine ⟨fun hst => ?_, fun hst => ?_, fun hst => ?_⟩
  · have hrun : exec (.memFill c.via) s = .next (memFillCmd c s) := congrArg _ (runCmd_eq hst _)
    rw [hrun]
    refine ⟨fun h => congrArg _ (if_pos h), fun h hw => congrArg _ ((if_neg h).trans (if_pos hw)), fun h hg ha hn hlow hhigh => ?_⟩
    have hw : ¬ (15 < g ∨ a % 16 ≠ 0 ∨ n % 16 ≠ 0 ∨ n < 16 ∨ 0x200000 < a + n) := by omega
    have hchecked : memFillCmd c s = if !s.domOn g then respond c 0x21 [] s else if s.halted g then respond c 0x0A [] s
        else respond c 0 [] ((s.modGal g (fillMem a n (slice c.body 16 16))).tally (galP g 0x9E) 1) :=
      (if_neg h).trans (if_neg hw)
    rw [hchecked, hon]
    refine ⟨fun hoff => ?_, fun hon hhalt => ?_, fun hon hhalt => ⟨_, ?_, filled_brings c hg ha hn⟩⟩
    · rw [if_pos (by simpa using hoff)]
    · rw [if_neg (by rw [hon]; decide), if_pos hhalt]
    · rw [if_neg (by rw [hon]; decide), if_neg (by rw [hhalt]; decide)]
  · have hrun : exec (.memRead c.via) s = .next (memReadCmd c s) := congrArg _ (runCmd_eq hst _)
    rw [hrun]
    refine ⟨fun h => congrArg _ (memReadCmd_refused (memRefusal_absent h)),
      fun h hw => congrArg _ (memReadCmd_refused (memRefusal_range h hw)), fun h hw => ?_⟩
    rw [memReadCmd_sends (memRefusal_none h hw)]
    obtain ⟨ks, ts, next, hfold, hks, hts, hall⟩ := foldl_request_parts
      (fun i => lampPacket s g 1 (a + 512 * i) (min 512 (n - 512 * i)) []) (.lampRead c) ((n + 511) / 512)
      { s.begun c with lamp := { (s.begun c).lamp with
        reads := s.lamp.reads ++ [{ cmd := c, waiting := (n + 511) / 512, parts := [], failed := none }] } }
    refine ⟨ks, ts, next, congrArg _ hfold, hks, hts, fun i k x hk hx => ?_⟩
    obtain ⟨tag, rfl, rfl⟩ := hall i k x hk hx
    obtain ⟨h1, h2, h3, h4, h5, h6, h7, h8, h9, h10, h11, h12⟩ :=
      addressed_lampPacket s g 1 (a + 512 * i) (min 512 (n - 512 * i)) tag []
    exact ⟨⟨h1, h2, h3, h4, h5, h6, h7, h8, h9, h10, h11, h12⟩, rfl, rfl, rfl, rfl, rfl⟩
  · have hrun : exec (.memWrite c.via) s = .next (memWriteCmd c s) := congrArg _ (runCmd_eq hst _)
    rw [hrun]
    refine ⟨fun h => congrArg _ (memWriteCmd_refused (memRefusal_absent h)),
      fun h hw => congrArg _ (memWriteCmd_refused (memRefusal_range h hw)), fun h hw => ?_⟩
    rw [memWriteCmd_sends (memRefusal_none h hw), foldl_present]
    refine ⟨_, rfl, by rw [List.length_map, List.length_range], fun i k hk => ?_⟩
    rw [List.getElem?_map, Option.map_eq_some_iff] at hk
    obtain ⟨j, hj, rfl⟩ := hk
    obtain rfl : i = j := by
      obtain ⟨_, hj⟩ := List.getElem?_eq_some_iff.1 hj
      simpa using hj
    have hlen : (slice (c.body.drop 8) (512 * i) 512).length = min 512 (d.length - 512 * i) := by
      rw [slice, List.length_take, List.length_drop]
    rw [hlen]
    obtain ⟨h1, h2, h3, h4, h5, h6, h7, h8, h9, h10, h11, h12⟩ :=
      addressed_lampPacket s g 0 (a + 512 * i) (min 512 (d.length - 512 * i)) 0 (slice (c.body.drop 8) (512 * i) 512)
    exact ⟨⟨h1, h2, h3, h4, h5, h6, h7, h8, h9, h10, h11, h12⟩, rfl⟩

end Sys2Proof.Machine
end

section
/-!
PROOF of O44: captures are armed, taken, released and read, and the trigger lines they wait for.
-/

namespace Sys2Proof.Machine

/-! ### Arming (R408) -/

theorem any_lacks_iff (s : State) (m : Nat) : (maskList m).any (fun g => !s.variant.hasGal g) = true ↔
    ∃ k, (k < 16 ∧ m.testBit k = true) ∧ s.variant.hasGal k = false := by
  rw [maskList_eq, List.any_eq_true]
  simp only [List.mem_filter, List.mem_range, Bool.not_eq_true']

theorem armCapture_idle {s : State} (h : s.capt.st = 0) (kind source : Nat) (gals : BitVec 16) (tick : Tick) (srcGal : Nat) :
    armCapture kind source gals tick srcGal s = { s with capt := { s.capt with
      st := 1, kind := kind, source := source, gals := gals, armTick := tick, srcGal := srcGal, perGal := [], shadows := [] } } :=
  if_pos h

/-! ### The capture (R409–R411, R413) -/

/-- The galleries that a capture records: named, on, and with the damper open. -/
def State.takes (s : State) : List Nat := (List.range 16).filter (fun g => decide ((captGal s g).st = 1 ∨ (captGal s g).st = 2))

theorem captGal_taken {s : State} {k : Nat} (hnamed : s.capt.gals.getLsbD k = true) (hon : s.galOn k = true)
    (hopen : (s.dom k).damper = .openD) : captGal s k = { CaptGal.reset with st := if s.capt.kind = 1 then 2 else 1 } := by
  unfold captGal hasBit
  rw [hnamed, hon, hopen]
  rfl

theorem captGal_skipped {s : State} {k : Nat} (hnamed : s.capt.gals.getLsbD k = true)
    (h : ¬ (s.capt.gals.getLsbD k = true ∧ s.galOn k = true ∧ (s.dom k).damper = .openD)) :
    captGal s k = { CaptGal.reset with st := 3, reason := if s.galOn k = true then 1 else 2 } := by
  unfold captGal hasBit
  rw [hnamed]
  cases hon : s.galOn k with
  | false => rfl
  | true => exact (if_neg (by decide)).trans ((if_neg (by decide)).trans (if_pos fun hopen => h ⟨hnamed, hon, hopen⟩))

theorem captGal_unnamed {s : State} {k : Nat} (h : s.capt.gals.getLsbD k = false) : captGal s k = CaptGal.reset := by
  unfold captGal hasBit
  rw [h]
  rfl

theorem mem_takes {s : State} {k : Nat} (hk : k < 16) (hnamed : s.capt.gals.getLsbD k = true) (hon : s.galOn k = true)
    (hopen : (s.dom k).damper = .openD) : k ∈ s.takes := by
  refine List.mem_filter.2 ⟨List.mem_range.2 hk, decide_eq_true ?_⟩
  rw [captGal_taken hnamed hon hopen]
  show (if s.capt.kind = 1 then 2 else 1) = 1 ∨ (if s.capt.kind = 1 then 2 else 1) = 2
  split
  · exact .inr rfl
  · exact .inl rfl

/-- A fold that sets each key of a list to its value. -/
theorem tabGet_foldl_tabSet {α : Type} [DecidableEq α] (d : α) (v : Nat → α) (l : List Nat) (t : Tab α) (k : Nat) :
    tabGet d (l.foldl (fun t g => tabSet d t g (v g)) t) k = if k ∈ l then v k else tabGet d t k := by
  induction l generalizing t with
  | nil => rfl
  | cons g l ih =>
    rw [List.foldl_cons, ih, tabGet_tabSet]
    by_cases hg : k = g
    · simp [hg]
    · simp [hg]

/-- A list of copies is searched by its key. -/
theorem find_copy {α : Type} (v : Nat → α) {l : List Nat} {k : Nat} (h : k ∈ l) :
    (l.map (fun g => (g, v g))).find? (fun e => decide (e.1 = k)) = some (k, v k) := by
  have hfind : l.find? (fun g => decide (g = k)) = some k := by
    obtain ⟨x, hx⟩ := Option.isSome_iff_exists.1 (List.find?_isSome (p := fun g => decide (g = k)).2 ⟨k, h, decide_eq_true rfl⟩)
    have hk : x = k := of_decide_eq_true (List.find?_some (p := fun g => decide (g = k)) hx)
    rw [hx, hk]
  rw [List.find?_map]
  exact congrArg (Option.map fun g => (g, v g)) hfind

/-- What the capture unit holds once the capture is taken. -/
def State.captureHeld (s : State) : Capture :=
  { s.capt with
    st := 2, perGal := tabBlock CaptGal.reset [] 0 16 (captGal s), shadows := s.takes.map (fun g => (g, s.gal g))
    tick := s.clk.tick, tbStatus := wd s.tbStatus, inbus := s.tnd.inbus, mcOut := s.tnd.out, mcQ := s.tnd.q
    trigSt := wd s.trigStatus }

/-- The duties that stand still with a HALT capture (R414). -/
def State.stilled (s : State) : Tab Nat :=
  if s.capt.kind = 1 then s.takes.foldl (fun t g => tabSet 16 t g (s.duty g)) s.pwr.frozenDuty else s.pwr.frozenDuty

/-- The state after the capture, before its event. -/
def State.afterCapture (s : State) : State :=
  let t : State := { s with capt := s.captureHeld, pwr := { s.pwr with frozenDuty := s.stilled } }
  (t.count 0x3D25 1).putPair 0x3D26 s.clk.tick.toNat

theorem exec_captureTaken {s : State} (hclk : s.clocked = true) (hst : s.capt.st = 1) :
    exec .captureTaken s = .next (if s.capt.armTick.toNat ≤ s.clk.tick.toNat then
      s.afterCapture.raise 0x15 ([BitVec.ofNat 8 s.capt.kind, 0] ++ leBytes 2 s.capt.gals.toNat) else s) :=
  congrArg _ (if_congr (show _ ∧ _ ∧ _ ↔ _ from ⟨fun h => h.2.1, fun h => ⟨hst, h, hclk⟩⟩) rfl rfl)

theorem afterCapture_gallery (s : State) {k : Nat} (hk : k < 16) :
    let t := s.afterCapture
    let taken := s.capt.gals.getLsbD k = true ∧ s.galOn k = true ∧ (s.dom k).damper = .openD
    (taken → tabGet CaptGal.reset t.capt.perGal k = { CaptGal.reset with st := if s.capt.kind = 1 then 2 else 1 } ∧
      t.shadowOf k = s.gal k ∧ (s.capt.kind = 1 → tabGet 16 t.pwr.frozenDuty k = s.duty k)) ∧
    (s.capt.gals.getLsbD k = true → ¬ taken →
      tabGet CaptGal.reset t.capt.perGal k = { CaptGal.reset with st := 3, reason := if s.galOn k = true then 1 else 2 }) ∧
    (s.capt.gals.getLsbD k = false → tabGet CaptGal.reset t.capt.perGal k = CaptGal.reset) := by
  have hper : tabGet CaptGal.reset s.afterCapture.capt.perGal k = captGal s k :=
    (tabGet_tabBlock CaptGal.reset [] 0 16 (captGal s) k).trans (if_pos ⟨Nat.zero_le k, by omega⟩)
  refine ⟨fun htaken => ?_, fun hnamed hnot => hper.trans (captGal_skipped hnamed hnot), fun h => hper.trans (captGal_unnamed h)⟩
  obtain ⟨hnamed, hon, hopen⟩ := htaken
  have hmem := mem_takes hk hnamed hon hopen
  refine ⟨hper.trans (captGal_taken hnamed hon hopen), ?_, fun hkind => ?_⟩
  · exact congrArg (fun o : Option (Nat × Gallery) => (o.map (·.2)).getD Gallery.reset) (find_copy s.gal hmem)
  · show tabGet 16 s.stilled k = s.duty k
    rw [State.stilled, if_pos hkind, tabGet_foldl_tabSet, if_pos hmem]

theorem afterCapture_counts (s : State) :
    (s.afterCapture.par 0x3D25).toNat = Min.min 0xFFFFFFFF ((s.par 0x3D25).toNat + 1) ∧
    s.afterCapture.pair 0x3D26 = s.clk.tick.toNat := by
  refine ⟨?_, (pair_putPair ..).trans (Nat.mod_eq_of_lt s.clk.tick.isLt)⟩
  exact (congrArg BitVec.toNat (State.par_putPair_ne _ _ _ _ (by decide) (by decide))).trans (toNat_count ..)

/-- R358: the fabric's capture route arms with the delay of the routes frame. -/
theorem exec_tndCaptureArm {s : State} (hclk : s.clocked = true) (htnd : s.variant.hasTinder = true) {t : Tick}
    (ht : s.tnd.captDue = some t) :
    let f := memRead s.tnd.cfg (tndAddr 0 7 112) 8
    exec .tndCaptureArm s = .next (armCapture (leAt f 0 1) 2 (BitVec.ofNat 16 (leAt f 2 2))
      (t + BitVec.ofNat 64 (16 + leAt f 4 4 % 2 ^ 20)) 0 { s with tnd := { s.tnd with captDue := none } }) := by
  show execTndCaptureArm s = _
  unfold execTndCaptureArm
  simp only [ht]
  rw [if_neg (by rw [hclk, htnd]; decide)]

/-! ### The release (R415) -/

theorem releaseCapture_brings (s : State) :
    let t := releaseCapture s
    t.capt = Capture.reset ∧ t.pwr = { s.pwr with frozenDuty := [] } ∧
    t = { s with capt := t.capt, pwr := t.pwr, mesh := t.mesh } ∧ ∀ k, t.halted k = false := by
  have hfold : ∀ (l : List Nat) (u : State), l.foldl (fun s g => releaseHeld g s) u =
      { u with mesh := (l.foldl (fun s g => releaseHeld g s) u).mesh } := fun l => by
    induction l with
    | nil => exact fun u => rfl
    | cons g l ih => exact fun u => (ih (releaseHeld g u)).trans rfl
  intro t
  have ht : t = { s with capt := Capture.reset, pwr := { s.pwr with frozenDuty := [] }, mesh := t.mesh } := hfold _ _
  have hcapt : t.capt = Capture.reset := by rw [ht]
  refine ⟨hcapt, by rw [ht], ?_, fun k => ?_⟩
  · exact ht.trans (by rw [ht])
  · rw [State.halted, hcapt]
    rfl

/-! ### CAPT_READ (R416, Table 24.1) -/

section
variable {s : State} {c : Cmd} {g code a n : Nat}

theorem captRead_checked (hg : leAt c.body 1 1 = g) (hcode : leAt c.body 0 1 = code) (ha : leAt c.body 4 4 = a)
    (hn : leAt c.body 8 4 = n) (hpresent : ¬ (g < 16 ∧ s.variant.hasGal g = false))
    (hrange : ¬ (a % 16 ≠ 0 ∨ n % 16 ≠ 0 ∨ n < 16 ∨ 1024 < n)) (hheld : s.capt.st = 2) : captReadCmd c s =
      if g = 0xFF then
        (if 1 < code ∨ (s.capt.device code).length < a + n then respond c 9 [] s
         else respond c 0 (slice (s.capt.device code) a n) s)
      else if 15 < g then respond c 9 [] s else readSection c g code a n s := by
  subst hg hcode ha hn
  exact (if_neg hpresent).trans ((if_neg hrange).trans (if_neg (not_not_intro hheld)))

theorem readSection_unknown (h : sectionSize code = none) : readSection c g code a n s = respond c 9 [] s := by
  simp only [readSection, h]
  exact rfl

theorem readSection_long {z : Nat} (h : sectionSize code = some z) (hz : z < a + n) :
    readSection c g code a n s = respond c 9 [] s := by
  simp only [readSection, h]
  exact if_pos (.inr (.inr hz))

/-- A section of gallery g that its code knows and its range fits. -/
theorem readSection_known {z : Nat} (h : sectionSize code = some z) (hz : a + n ≤ z) : readSection c g code a n s =
    let q := tabGet CaptGal.reset s.capt.perGal g
    if q.st = 0 ∨ q.st = 3 then respond c 9 [] s
    else if code < 0x20 then respond c 0 ((List.range n).map (fun i => sectionByte (s.shadowOf g) code (a + i))) s
    else if q.lost = true then respond c 0x21 [] s
    else if q.st ≠ 2 then respond c 9 [] s
    else if (s.gal g).engine ≠ none then respond c 0x0A [] s
    else if code = 0x30 then readHalted c g a n s
    else respond c 0 ((List.range n).map (fun i => sectionByte (s.gal g) code (a + i))) s := by
  simp only [readSection, h]
  refine if_congr (by omega) rfl (if_congr ?_ rfl (if_congr Iff.rfl rfl (if_congr Iff.rfl rfl (if_congr ?_ rfl rfl))))
  · simp [haltOnly]
  · exact Option.isSome_iff_ne_none

theorem readHalted_busy (h : ∃ i < n / 16, (s.gal g).storeHolds (a + 16 * i) = true) :
    readHalted c g a n s = respond c 0x0A [] s := by
  obtain ⟨i, hi, hholds⟩ := h
  exact if_pos (List.any_eq_true.2 ⟨i, List.mem_range.2 hi, hholds⟩)

theorem readHalted_reads (h : ∀ i < n / 16, (s.gal g).storeHolds (a + 16 * i) = false) {d : List Byte} {bad : Bool} {t : State}
    (hread : readBeats g 32 (n / 16) a s = (d, bad, t)) :
    readHalted c g a n s = if bad = true then respond c 0x25 [] t else respond c 0 d t := by
  have hfree : ¬ (List.range (n / 16)).any (fun i => (s.gal g).storeHolds (a + 16 * i)) = true := fun hany => by
    obtain ⟨i, hi, hholds⟩ := List.any_eq_true.1 hany
    exact Bool.noConfusion ((h i (List.mem_range.1 hi)).symm.trans hholds)
  rw [readHalted, if_neg hfree, hread]
  exact rfl

end

/-! ### The trigger lines (R353, R355) -/

theorem exec_triggerLineRx {s : State} {line : Nat} (level : Bool) (hclk : s.clocked = true) (hline : line ≤ 8)
    (hstar : line = 8 → s.rvTrig ∉ [0, 3, 4, 7] ∧ s.kind 8 = 0) :
    let t : State := { s with tnd := { s.tnd with lines := putBit s.tnd.lines line level } }
    exec (.triggerLineRx line level) s = .next
      (if level = true ∧ s.tnd.lines.getLsbD line = false then t.putPar (0x3610 + line) (s.par (0x3610 + line) + 1) else t) := by
  refine congrArg _ ((if_neg ?_).trans (if_congr (by simp [hasBit]) rfl rfl))
  intro h
  rw [hclk, decide_eq_false (by omega : ¬ 8 < line)] at h
  simp only [Bool.not_true, Bool.or_false, Bool.false_or, Bool.and_eq_true, decide_eq_true_eq, Bool.or_eq_true] at h
  obtain ⟨h8, hoff⟩ := h
  obtain ⟨hrv, hkind⟩ := hstar h8
  simp only [List.mem_cons, List.not_mem_nil, or_false, not_or] at hrv
  omega

/-- Settles O44: arming in the order of its checks, what a capture records (`afterCapture_gallery`), the release, the checks
of CAPT_READ in their order, the fabric's arming and the trigger lines. -/
theorem capturesAreArmedTakenAndRead : Obligations.CapturesAreArmedTakenAndRead := by
  intro s c line level kind gals at' named g code a n taken
  refine ⟨fun hst => ?_, fun hclk hst => ⟨fun hlow => ?_, fun hdue => ?_⟩, fun hst => ?_, fun hst => ?_,
    fun hclk htnd t ht => ⟨fun hidle => ?_, fun hheld => ?_⟩, fun hclk hline hstar => ?_⟩
  · have hrun : exec (.captArm c.via) s = .next (captArmCmd c s) := congrArg _ (runCmd_eq hst _)
    rw [hrun]
    refine ⟨fun h => congrArg _ (if_pos ((any_lacks_iff s gals).2 h)), fun hall => ?_⟩
    have hpresent : ¬ (maskList gals).any (fun g => !s.variant.hasGal g) = true := fun h => by
      obtain ⟨k, hk, hno⟩ := (any_lacks_iff s gals).1 h
      exact Bool.noConfusion ((hall k hk).symm.trans hno)
    refine ⟨fun hbad => congrArg _ ((if_neg hpresent).trans (if_pos hbad)), fun hgals hkind => ?_⟩
    have hgood : ¬ (gals = 0 ∨ 1 < kind) := by omega
    have hchecked : captArmCmd c s = if at' ≤ s.clk.tick.toNat then respond c 0x0E [] (s.count 0x3D24 1)
        else if s.capt.st ≠ 0 then respond c 0x0A [] s
        else respond c 0 [] (armCapture kind 0 (BitVec.ofNat 16 gals) (BitVec.ofNat 64 at') 0 s) :=
      (if_neg hpresent).trans (if_neg hgood)
    rw [hchecked]
    refine ⟨fun hlate => ?_, fun hin hbusy => ?_, fun hin hidle => ?_⟩
    · rw [if_pos hlate]
    · rw [if_neg (by omega), if_pos hbusy]
    · rw [if_neg (by omega), if_neg (by omega), armCapture_idle hidle]
  · exact (exec_captureTaken hclk hst).trans (congrArg _ (if_neg (by omega)))
  · obtain ⟨hcount, hpair⟩ := afterCapture_counts s
    exact ⟨s.afterCapture, (exec_captureTaken hclk hst).trans (congrArg _ (if_pos hdue)), rfl, rfl, rfl, rfl, rfl, rfl,
      hcount, hpair, fun k hk => afterCapture_gallery s hk⟩
  · exact ⟨releaseCapture s, congrArg _ (runCmd_eq hst _), releaseCapture_brings s⟩
  · have hrun : exec (.captRead c.via) s = .next (captReadCmd c s) := congrArg _ (runCmd_eq hst _)
    intro absent wrong q
    rw [hrun]
    refine ⟨fun h => congrArg _ (if_pos h), fun h hw => congrArg _ ((if_neg h).trans (if_pos hw)),
      fun h hw hno => congrArg _ ((if_neg h).trans ((if_neg hw).trans (if_pos hno))), fun hw hheld hdev => ?_,
      fun h hw hheld hgal hbad => ?_, fun z h hw hheld hgal hsize hz => ?_⟩
    · rw [captRead_checked rfl rfl rfl rfl (by omega) hw hheld, if_pos hdev]
      exact ⟨fun hbad => congrArg _ (if_pos hbad), fun hcode hlen => congrArg _ (if_neg (not_or.2 ⟨by omega, Nat.not_lt.2 hlen⟩))⟩
    · rw [captRead_checked rfl rfl rfl rfl h hw hheld, if_neg hgal]
      by_cases hg : 15 < g
      · exact congrArg _ (if_pos hg)
      · refine congrArg _ ((if_neg hg).trans ?_)
        obtain hg' | hnone | ⟨z, hsize, hz⟩ := hbad
        · exact absurd hg' hg
        · exact readSection_unknown hnone
        · exact readSection_long hsize hz
    · rw [captRead_checked rfl rfl rfl rfl h hw hheld, if_neg (by omega), if_neg (by omega), readSection_known hsize hz]
      refine ⟨fun hq => congrArg _ (if_pos hq), fun hq0 hq3 hcode => ?_, fun hq0 hq3 hcode => ?_⟩
      · exact congrArg _ ((if_neg (not_or.2 ⟨hq0, hq3⟩)).trans (if_pos hcode))
      · dsimp only
        rw [if_neg (not_or.2 ⟨hq0, hq3⟩), if_neg (by omega : ¬ code < 0x20)]
        refine ⟨fun hlost => congrArg _ (if_pos hlost), fun hkept hrun => ?_, fun hkept hhalt heng => ?_,
          fun hkept hhalt heng hcode => ?_, fun hkept hhalt heng hcode => ⟨fun hbusy => ?_, fun hfree d bad t hread => ?_⟩⟩
        · rw [if_neg (by rw [hkept]; decide), if_pos hrun]
        · rw [if_neg (by rw [hkept]; decide), if_neg (not_not_intro hhalt), if_pos heng]
        · rw [if_neg (by rw [hkept]; decide), if_neg (not_not_intro hhalt), if_neg (not_not_intro heng), if_neg hcode]
        · rw [if_neg (by rw [hkept]; decide), if_neg (not_not_intro hhalt), if_neg (not_not_intro heng), if_pos hcode,
            readHalted_busy hbusy]
        · rw [if_neg (by rw [hkept]; decide), if_neg (not_not_intro hhalt), if_neg (not_not_intro heng), if_pos hcode,
            readHalted_reads hfree hread]
  · exact (exec_tndCaptureArm hclk htnd ht).trans (congrArg _ (if_pos hidle))
  · exact (exec_tndCaptureArm hclk htnd ht).trans (congrArg _ (if_neg hheld))
  · refine ⟨_, exec_triggerLineRx level hclk hline hstar, rfl, fun k => ?_⟩
    by_cases hk : k = line
    · exact getLsbD_putBit _ _ _ (by omega)
    · exact (getLsbD_putBit_ne _ _ hk).trans (if_neg hk).symm

end Sys2Proof.Machine
end

section
/-!
PROOF of O49: assay's segments of hearths, its link units, its cycles and its control.
-/

namespace Sys2Proof.Machine

/-! ### The conditions of assay -/

theorem assayOn_iff (s : State) : s.assayOn = true ↔ s.user = true ∧ s.assay.inCycle = true ∧ (s.par 0x3A80).getLsbD 0 = true := by
  simp only [State.assayOn, State.assayCtrl, Bool.and_eq_true, and_assoc]

theorem segments_eq (s : State) (h : Nat) : s.segments h = if s.variant.hasDiv = true ∧ h / 8 % 4 = 3 then 42 else 38 := by
  unfold State.segments
  simp only [Bool.and_eq_true, decide_eq_true_eq]

theorem hearthWanted_iff (s : State) (g h : Nat) : s.hearthWanted g h = true ↔
    (s.par 0x3A80).getLsbD 2 = false ∧ s.galOn g = true ∧ (s.hearthTest g h).excluded = false ∧
      (s.hearthTest g h).done < s.segments h := by
  simp only [State.hearthWanted, State.assayCtrl, Bool.and_eq_true, Bool.not_eq_true', decide_eq_true_eq, and_assoc]

/-- R396: an idle hearth, or a sequencer that still waits 16 enabled cycles. -/
theorem window_iff (s : State) (g h : Nat) : s.window g h = true ↔ ((s.gal g).record (s.gal g).active h).op = 0 ∨
    ∃ k, (s.gal g).seq.st = .waiting k ∧ 16 ≤ k ∧ (s.gal g).seq.damped = false := by
  unfold State.window
  dsimp only
  rw [Bool.or_eq_true, decide_eq_true_eq]
  refine or_congr Iff.rfl ?_
  cases (s.gal g).seq.st with
  | waiting n => simp
  | _ => simp

/-- The four directions of a mesh link and the nodes that have one (R403, Table 18.6). -/
theorem linkExists_iff (n d : Nat) : linkExists n d = true ↔
    n < 30 ∧ ((d = 0 ∧ 6 ≤ n) ∨ (d = 1 ∧ n % 6 < 5) ∨ (d = 2 ∧ n / 6 < 4) ∨ (d = 3 ∧ 0 < n % 6)) := by
  unfold linkExists
  rw [Bool.and_eq_true, decide_eq_true_eq]
  refine and_congr Iff.rfl ?_
  match d with
  | 0 => simp
  | 1 => simp
  | 2 => simp
  | 3 => simp
  | d + 4 => simp

theorem slotOwned_false_iff (s : State) (n d : Nat) : s.slotOwned n d = false ↔
    ∀ f < 128, s.flowOn f = true → ((n, d), s.clk.tick.toNat % 64) ∉ s.flowSlots f := by
  unfold State.slotOwned
  rw [List.any_eq_false]
  simp only [List.mem_range, Bool.and_eq_true, List.contains_iff_mem, not_and]

theorem linkWanted_iff (s : State) (n d : Nat) : s.linkWanted n d = true ↔ (s.par 0x3A80).getLsbD 4 = false ∧
    linkExists n d = true ∧ 4 * n + d ∉ s.assay.linkFail ∧ tabGet 0 s.assay.links (4 * n + d) < 578 := by
  simp only [State.linkWanted, State.assayCtrl, Bool.and_eq_true, Bool.not_eq_true', decide_eq_true_eq, and_assoc,
    ← Bool.not_eq_true, List.contains_iff_mem]

/-! ### Segments (R396–R398, R406) -/

theorem exec_assaySegmentStart (s : State) (g h : Nat) : exec (.assaySegmentStart g h) s = .next
    (if s.assayOn = true ∧ s.live g = true ∧ h < 128 ∧ s.hearthWanted g h = true ∧ (s.hearthTest g h).running = false ∧
        s.window g h = true then
      modHearth g h (fun t => { t with running := true, plane := (s.gal g).active }) s
    else s) :=
  congrArg _ (if_congr (by simp only [Bool.and_eq_true, Bool.not_eq_true', decide_eq_true_eq, and_assoc]) rfl rfl)

theorem exec_assaySegmentDone_idle {s : State} {g h : Nat} (hidle : s.clocked = false ∨ (s.hearthTest g h).running = false)
    (b : Bool) : exec (.assaySegmentDone g h b) s = .next s :=
  congrArg _ (if_pos (by simpa using hidle))

section
variable {s : State} {g h : Nat} (hclk : s.clocked = true) (hrun : (s.hearthTest g h).running = true)
include hclk hrun

theorem exec_assaySegmentDone_running (b : Bool) : exec (.assaySegmentDone g h b) s = .next
    (if b = true then
      (if (s.hearthTest g h).done + 1 = s.segments h then
        (modHearth g h (fun t => { t with running := false, retry := false, done := t.done + 1 }) s).tally 0x3A84 1
       else modHearth g h (fun t => { t with running := false, retry := false, done := t.done + 1 }) s)
     else if (s.hearthTest g h).retry = true then
      assayFail 1 g h [BitVec.ofNat 8 g, BitVec.ofNat 8 h, BitVec.ofNat 8 (s.hearthTest g h).plane]
        (modHearth g h (fun t => { t with running := false, retry := false, excluded := true }) s)
     else modHearth g h (fun t => { t with running := false, retry := true }) s) :=
  congrArg _ (if_neg (by rw [hclk, hrun]; decide))

end

/-! ### Link units (R403) -/

theorem exec_assayLinkUnit_closed {s : State} {n d : Nat}
    (h : ¬ (s.clocked = true ∧ s.assayOn = true ∧ s.linkWanted n d = true ∧ s.slotOwned n d = false)) (b : Bool) :
    exec (.assayLinkUnit n d b) s = .next s := by
  refine congrArg _ (if_pos ?_)
  simp only [not_and_or, Bool.not_eq_true, Bool.not_eq_false] at h
  simpa [or_assoc] using h

theorem exec_assayLinkUnit_open {s : State} {n d : Nat}
    (h : s.clocked = true ∧ s.assayOn = true ∧ s.linkWanted n d = true ∧ s.slotOwned n d = false) (b : Bool) :
    let k := 4 * n + d
    let noRetry := s.assay.linkRetry.filter (fun x => !decide (x = k))
    exec (.assayLinkUnit n d b) s = .next
      (if b = true then
        (let t : State := { s with assay := { s.assay with links := tabMod 0 s.assay.links k (· + 1), linkRetry := noRetry } }
         if tabGet 0 s.assay.links k = 577 then t.tally 0x3A86 1 else t)
       else if k ∈ s.assay.linkRetry then
        assayFail 3 n d [BitVec.ofNat 8 n, BitVec.ofNat 8 d]
          { s with assay := { s.assay with linkFail := s.assay.linkFail ++ [k], linkRetry := noRetry } }
       else { s with assay := { s.assay with linkRetry := s.assay.linkRetry ++ [k] } }) := by
  obtain ⟨hclk, hon, hwanted, hfree⟩ := h
  refine congrArg _ ((if_neg (by rw [hclk, hon, hwanted, hfree]; decide)).trans (if_congr Iff.rfl rfl (if_congr ?_ rfl rfl)))
  exact List.contains_iff_mem

/-! ### Cycles (R407) -/

/-- A fold over different galleries changes each of them once. -/
theorem foldl_modGal_list (f : Gallery → Gallery) : ∀ {l : List Nat} (_ : l.Nodup) (s : State),
    let t := l.foldl (fun s g => s.modGal g f) s
    t = { s with gals := t.gals } ∧ ∀ j, t.gal j = if j ∈ l then f (s.gal j) else s.gal j
  | [], _, s => ⟨rfl, fun _ => rfl⟩
  | g :: l, hnodup, s => by
    obtain ⟨hnot, hnodup⟩ := List.nodup_cons.1 hnodup
    obtain ⟨hrest, hgals⟩ := foldl_modGal_list f hnodup (s.modGal g f)
    refine ⟨hrest, fun j => (hgals j).trans ?_⟩
    by_cases hj : j = g
    · rw [hj, if_neg hnot, if_pos List.mem_cons_self, State.gal_modGal_same]
    · rw [State.gal_modGal_ne _ _ _ _ hj]
      exact if_congr (by simp [hj]) rfl rfl

theorem nodup_galList (s : State) : s.galList.Nodup := List.nodup_range.filter _

/-- A gallery at the start of a cycle: its exclusions stay, its open element is closed. -/
def Gallery.assayed (x : Gallery) : Gallery :=
  closeElement { x with hearths := tabBlock HearthTest.reset [] 0 128 (fun h =>
    { HearthTest.reset with excluded := (tabGet HearthTest.reset x.hearths h).excluded }) }

theorem startAssay_brings (s : State) :
    let t := startAssay s
    t = { s with gals := t.gals, assay := { s.assay with inCycle := true, start := s.clk.cyc, links := [], linkRetry := [] } } ∧
    ∀ j, t.gal j = if j ∈ s.galList then (s.gal j).assayed else s.gal j :=
  foldl_modGal_list Gallery.assayed (nodup_galList s)
    { s with assay := { s.assay with inCycle := true, start := s.clk.cyc, links := [], linkRetry := [] } }

theorem stopAssay_brings (s : State) :
    let t := stopAssay s
    t = { s with gals := t.gals, assay := { s.assay with inCycle := false } } ∧
    ∀ j, t.gal j = if j ∈ s.galList then cancelSegments (s.gal j) else s.gal j :=
  foldl_modGal_list cancelSegments (nodup_galList s) { s with assay := { s.assay with inCycle := false } }

theorem hearths_assayed (x : Gallery) {i : Nat} (hi : i < 128) : tabGet HearthTest.reset x.assayed.hearths i =
    { HearthTest.reset with excluded := (tabGet HearthTest.reset x.hearths i).excluded } :=
  (tabGet_tabBlock HearthTest.reset [] 0 128 _ i).trans (if_pos ⟨Nat.zero_le i, by omega⟩)

theorem exec_assayCycleDone (s : State) : exec .assayCycleDone s = .next
    (if s.clocked = true ∧ s.assayOn = true ∧ s.unitsLeft = 0 then
      startAssay ((s.putPar 0x3A82 (wd ((s.clk.cyc - s.assay.start) / 1000))).raise 0xEB
        (leBytes 4 ((s.clk.cyc - s.assay.start + 999999) / 1000000)))
     else s) := by
  refine congrArg Host.Outcome.next ?_
  by_cases h : s.clocked = true ∧ s.assayOn = true ∧ s.unitsLeft = 0
  · rw [if_pos h]
    exact if_neg (by simpa [and_assoc] using h)
  · rw [if_neg h]
    simp only [not_and_or, Bool.not_eq_true] at h
    exact if_pos (by simpa [or_assoc] using h)

/-- A host write of ASSAY_CTRL. -/
theorem hostEntry_assayCtrl {s : State} (h : s.Writes 0x3A80) (v : Word) :
    let w := s.putPar 0x3A80 (v &&& 0x1F#32)
    hostEntry 0x3A80 (writeAssayCtrl v) s =
      (if s.user = true then (if v.getLsbD 0 = true then startAssay w else stopAssay w) else w).ended 0 := by
  rw [hostEntry_eq h]
  cases hu : s.user with
  | false => exact congrArg (State.ended · 0) (if_pos (congrArg (!·) hu))
  | true => exact congrArg (State.ended · 0) (if_neg (by rw [show (s.putPar 0x3A80 (v &&& 0x1F#32)).user = true from hu]; decide))

/-- Settles O49, clause by clause: each command's `exec_…` lemma says when it counts, and the start and the stop of a cycle
are folds over the galleries. -/
theorem assayTestsHearthsAndLinks : Obligations.AssayTestsHearthsAndLinks := by
  intro s g h n d v x q off on segs wanted window k link free open' noRetry ends
  have hon : s.assayOn = true ↔ on := assayOn_iff s
  have hsegs : s.segments h = segs := segments_eq s h
  have hwanted : s.hearthWanted g h = true ↔ wanted := by
    rw [hearthWanted_iff, hsegs]
    exact Iff.rfl
  have hopen : (s.clocked = true ∧ s.assayOn = true ∧ s.linkWanted n d = true ∧ s.slotOwned n d = false) ↔ open' := by
    rw [hon, linkWanted_iff, slotOwned_false_iff, linkExists_iff]
    simp only [open', link, free, off, and_assoc]
    exact Iff.rfl
  have hstart : (s.assayOn = true ∧ s.live g = true ∧ h < 128 ∧ s.hearthWanted g h = true ∧
      (s.hearthTest g h).running = false ∧ s.window g h = true) ↔
      (on ∧ s.live g = true ∧ h < 128 ∧ wanted ∧ q.running = false ∧ window) := by
    rw [hon, hwanted, window_iff]
    exact Iff.rfl
  refine ⟨fun hon hlive hh hw hidle hwin => ?_, fun hno => ?_, fun hidle b => exec_assaySegmentDone_idle hidle b,
    fun hclk hrun => ⟨?_, fun hretry => ?_, fun hretry => ?_⟩, fun hno b => exec_assayLinkUnit_closed (mt hopen.1 hno) b,
    fun ho => ⟨?_, fun hk => ?_, fun hk => ?_⟩, ?_, fun hw => ?_, ?_, ?_⟩
  · exact (exec_assaySegmentStart s g h).trans (congrArg _ (if_pos (hstart.2 ⟨hon, hlive, hh, hw, hidle, hwin⟩)))
  · exact (exec_assaySegmentStart s g h).trans (congrArg _ (if_neg (mt hstart.1 hno)))
  · refine ⟨_, (exec_assaySegmentDone_running hclk hrun true).trans ?_, rfl, rfl⟩
    rw [if_pos rfl, hsegs]
    exact rfl
  · refine ⟨_, (exec_assaySegmentDone_running hclk hrun false).trans (congrArg _ ((if_neg Bool.false_ne_true).trans (if_neg ?_))), rfl, rfl⟩
    exact fun h => Bool.noConfusion (h.symm.trans hretry)
  · exact ⟨_, (exec_assaySegmentDone_running hclk hrun false).trans (congrArg _ ((if_neg Bool.false_ne_true).trans (if_pos hretry))), rfl, rfl⟩
  · exact (exec_assayLinkUnit_open (hopen.2 ho) true).trans (congrArg _ (if_pos rfl))
  · exact (exec_assayLinkUnit_open (hopen.2 ho) false).trans (congrArg _ ((if_neg Bool.false_ne_true).trans (if_pos hk)))
  · exact (exec_assayLinkUnit_open (hopen.2 ho) false).trans (congrArg _ ((if_neg Bool.false_ne_true).trans (if_neg hk)))
  · exact (exec_assayCycleDone s).trans (congrArg _ (if_congr (and_congr Iff.rfl (and_congr hon Iff.rfl)) rfl rfl))
  · refine ⟨fun hv => ⟨?_, ?_⟩, fun hv => ⟨?_, ?_⟩⟩
    · refine congrArg _ ((if_pos hv).trans ((hostEntry_assayCtrl hw v).trans ?_))
      simp only [hv, if_true]
    · exact congrArg _ (if_pos hv)
    · refine congrArg _ ((if_neg (by rw [hv]; decide)).trans ((hostEntry_assayCtrl hw v).trans ?_))
      simp only [hv, Bool.false_eq_true, if_false]
    · exact congrArg _ (if_neg (by rw [hv]; decide))
  · obtain ⟨hrest, hgal⟩ := startAssay_brings s
    refine ⟨_, rfl, hrest, fun j => ⟨fun hj => (hgal j).trans (if_neg hj), fun hj => ?_⟩⟩
    rw [hgal, if_pos hj]
    exact ⟨rfl, fun i hi => hearths_assayed _ hi, rfl, rfl⟩
  · obtain ⟨hrest, hgal⟩ := stopAssay_brings s
    exact ⟨_, rfl, hrest, fun j => ⟨fun hj => (hgal j).trans (if_neg hj), fun hj => (hgal j).trans (if_pos hj)⟩⟩

end Sys2Proof.Machine
end

section
/-!
SUPPORT for O60: the canonical form of the memories as a condition of the four places that hold them, and what keeps it:
the updates of the state, and the operations of hearths, planes, taps, banks and the march.
-/

namespace Sys2Proof.Machine

/-- Parameters, flash, Tinder configuration and gallery memories are in canonical form. -/
def MemoriesWf (params : Tab Word) (flash cfg : Memory) (gals : Tab Gallery) : Prop :=
  TabWf paramReset params ∧ Memory.wf 0xFF flash ∧ Memory.wf 0 cfg ∧ ∀ g, (tabGet Gallery.reset gals g).canonical

/-- The memories of a state are in canonical form: what changes none of the four places keeps it by definition. -/
def State.Wf (s : State) : Prop := MemoriesWf s.params s.flash.data s.tnd.cfg s.gals

theorem State.canonical_iff (s : State) : s.Canonical ↔ s.Wf :=
  ⟨fun h => ⟨h.params, h.flash, h.tinder, h.gals⟩, fun ⟨params, flash, tinder, gals⟩ => ⟨params, flash, tinder, gals⟩⟩

/-- A command that answers a next state leaves its memories in canonical form. -/
def NextWf : Host.Outcome State Fault Refusal → Prop
  | .next t => t.Wf
  | .fault _ => True
  | .refused _ => True

/-! ### Galleries -/

namespace Gallery.canonical

variable {x y : Gallery} {a b c i n p t cyc : Nat} {d : List Byte}

theorem ite {P : Prop} [Decidable P] (hx : x.canonical) (hy : y.canonical) : (if P then x else y).canonical := by
  split
  · exact hx
  · exact hy

theorem foldl {α : Type} {f : Gallery → α → Gallery} (hx : x.canonical) (l : List α)
    (hf : ∀ {y : Gallery} (e : α), y.canonical → (f y e).canonical) : (l.foldl f x).canonical := by
  induction l generalizing x with
  | nil => exact hx
  | cons e l ih => exact ih (hf e hx)

theorem withRequests {l : List BankReq} (hx : x.canonical) : ({ x with requests := l } : Gallery).canonical := hx

theorem withTaps {q : Tab (List TapReq)} {l : List BankReq} (hx : x.canonical) :
    ({ x with tapQ := q, requests := l } : Gallery).canonical := hx

theorem withMarch {m : March} (hx : x.canonical) : ({ x with march := m } : Gallery).canonical := hx

theorem withSwitch {o : Option (Nat × Nat)} (hx : x.canonical) : ({ x with switchTo := o } : Gallery).canonical := hx

theorem setBank {v : Bank} (hx : x.canonical) : (x.setBank b v).canonical := hx

theorem setTap {l : List TapReq} (hx : x.canonical) : (x.setTap t l).canonical := hx

theorem setReg {h n : Nat} {v : Word} (hx : x.canonical) : (x.setReg p h n v).canonical := hx

theorem raiseTap (hx : x.canonical) : (raiseTap cyc t x).canonical := by
  unfold Machine.raiseTap
  split
  · exact hx
  · split
    · exact ite hx hx
    · exact hx

theorem tapDeliver (hx : x.canonical) : (tapDeliver t x).1.canonical := by
  unfold Machine.tapDeliver
  split
  · exact hx
  · split
    · exact hx
    · split
      · exact hx
      · exact hx

theorem foldl_fst {α β : Type} {f : Gallery × β → α → Gallery × β} {q : Gallery × β} (hq : q.1.canonical) (l : List α)
    (hf : ∀ {q : Gallery × β} (e : α), q.1.canonical → (f q e).1.canonical) : (l.foldl f q).1.canonical := by
  induction l generalizing q with
  | nil => exact hq
  | cons e l ih => exact ih (hf e hq)

theorem deliverTaps (hx : x.canonical) : (deliverTaps x).1.canonical :=
  foldl_fst (q := (x, [])) hx _ fun {q} t hq => by
    have hnext : (Machine.tapDeliver t q.1).1.canonical := tapDeliver hq
    split
    · next heq => rw [heq] at hnext; exact hnext
    · next heq => rw [heq] at hnext; exact hnext

theorem deliverTaps_emptied {outs : Tab (Option TWord)} {busy : Tab Nat} (hx : x.canonical) :
    (Machine.deliverTaps { x with outs := outs, busy := busy }).1.canonical :=
  deliverTaps (x := { x with outs := outs, busy := busy }) hx

theorem loadConfig (hx : x.canonical) : (loadConfig p c x).canonical := by
  obtain ⟨hcfg, hrest⟩ := hx
  exact ⟨hcfg.tabBlock _ _ _, hrest⟩

theorem loadPlane {stamp : Nat} {unused : Bool} (hx : x.canonical) : (loadPlane p c stamp unused x).canonical :=
  hx.loadConfig

theorem storePlane (hx : x.canonical) : (storePlane p c x).canonical := by
  obtain ⟨hcfg, hstore, hrest⟩ := hx
  have hregs : Memory.wf 0 (if (x.plane p).dirty then
      tabBlock 0 x.store (slotSize * c + 0x1800) 0x2000 (fun i =>
        byteAt (leBytes 4 (tabGet 0 x.regs (p * 2048 + i / 4)).toNat) (i % 4))
    else x.store) := by
    split
    · exact hstore.tabBlock _ _ _
    · exact hstore
  exact ⟨hcfg, hregs.tabBlock _ _ _, hrest⟩

theorem markWritten (hx : x.canonical) : (markWritten a x).canonical := ite hx hx

theorem memWrite (hx : x.canonical) {l : List Byte} {bad : Tab Decay} :
    ({ x with mem := Machine.memWrite x.mem a l, memBad := bad } : Gallery).canonical := by
  obtain ⟨hcfg, hstore, hmem, hrest⟩ := hx
  exact ⟨hcfg, hstore, wf_memWrite hmem a l, hrest⟩

theorem putBeat (hx : x.canonical) : (putBeat a d x).canonical := hx.memWrite.markWritten

theorem abandonOn (hx : x.canonical) : (abandonOn a x).canonical := ite hx hx

theorem raiseMarch (hx : x.canonical) : (raiseMarch x cyc).canonical := ite hx hx

theorem closeElement (hx : x.canonical) : (closeElement x).canonical := by
  obtain ⟨hcfg, hstore, hmem, hrest⟩ := hx
  refine ⟨hcfg, hstore, ?_, hrest⟩
  unfold Machine.closeElement
  dsimp only
  split
  · exact wf_memWrite hmem _ _
  · exact hmem

theorem writeCtxFrame (hx : x.canonical) : (writeCtxFrame c i d x).canonical := by
  obtain ⟨hcfg, hstore, hrest⟩ := hx
  unfold Machine.writeCtxFrame
  dsimp only
  split
  · exact ⟨hcfg.tabBlock _ _ _, hstore.tabBlock _ _ _, hrest⟩
  · exact ⟨hcfg, hstore.tabBlock _ _ _, hrest⟩

theorem mendSlot (hx : x.canonical) : (mendSlot c x).canonical :=
  hx.foldl _ fun q hy => by
    obtain ⟨hcfg, hstore, hrest⟩ := hy
    exact ite ⟨hcfg, wf_memZero hstore _ _, hrest⟩ ⟨hcfg, hstore, hrest⟩

theorem fillMem (hx : x.canonical) : (fillMem a n d x).canonical := by
  obtain ⟨hcfg, hstore, hmem, hrest⟩ := hx
  exact ⟨hcfg, hstore, hmem.tabBlock _ _ _, hrest⟩

theorem writeSeed {f : Fr} (hx : x.canonical) : (writeSeed f x).canonical := by
  obtain ⟨hcfg, hstore, hrest⟩ := hx
  exact ite ⟨hcfg, hstore.tabBlock _ _ _, hrest⟩ ⟨hcfg, hstore.tabBlock _ _ _, hrest⟩

theorem loadInitPlanes (hx : x.canonical) : (loadInitPlanes cyc x).canonical := by
  unfold Machine.loadInitPlanes
  generalize List.range 64 = l
  refine hx.foldl l fun c hy => ?_
  dsimp only
  split
  · exact ite hy.loadPlane hy
  · exact hy

theorem reset : Gallery.reset.canonical := ⟨.nil _, .nil _, .nil _, .nil _⟩

theorem freshGallery (hx : x.canonical) : (freshGallery x).canonical := by
  obtain ⟨-, -, -, hstage⟩ := hx
  exact ⟨.nil _, .nil _, .nil _, hstage⟩

end Gallery.canonical

/-! ### The updates of the state -/

namespace State.Wf

variable {s : State} {g h k n a b c p e req v lat cyc seq cfa st : Nat} {d : List Byte} {r : Record} {q : BankReq} {ups : List Upset}

theorem gal (hs : s.Wf) (g : Nat) : (s.gal g).canonical := hs.2.2.2 g

theorem withClk {x : Clock} (hs : s.Wf) : ({ s with clk := x } : State).Wf := hs

theorem withKin {x : Kindle} (hs : s.Wf) : ({ s with kin := x } : State).Wf := hs

theorem withLamp {x : Lamp} (hs : s.Wf) : ({ s with lamp := x } : State).Wf := hs

theorem withPcie {x : Pcie} (hs : s.Wf) : ({ s with pcie := x } : State).Wf := hs

theorem withMesh {x : Mesh} (hs : s.Wf) : ({ s with mesh := x } : State).Wf := hs

theorem withSweep {x : Sweep} (hs : s.Wf) : ({ s with sweep := x } : State).Wf := hs

theorem withAssay {x : Assay} (hs : s.Wf) : ({ s with assay := x } : State).Wf := hs

theorem withEvt {x : Events} (hs : s.Wf) : ({ s with evt := x } : State).Wf := hs

theorem withCapt {x : Capture} (hs : s.Wf) : ({ s with capt := x } : State).Wf := hs

theorem withPins {x : Pins} (hs : s.Wf) : ({ s with pins := x } : State).Wf := hs

theorem withImg {x : Image} (hs : s.Wf) : ({ s with img := x } : State).Wf := hs

theorem withPwr {x : Power} (hs : s.Wf) : ({ s with pwr := x } : State).Wf := hs

theorem putPar {v : Word} (hs : s.Wf) : (s.putPar n v).Wf := ⟨hs.1.tabSet n v, hs.2⟩

theorem count (hs : s.Wf) : (s.count n k).Wf := hs.putPar

theorem tally (hs : s.Wf) : (s.tally n k).Wf := hs.putPar

theorem putPair (hs : s.Wf) : (s.putPair n v).Wf := hs.putPar.putPar

theorem tally64 (hs : s.Wf) : (s.tally64 n k).Wf := hs.putPair

theorem modGal {f : Gallery → Gallery} (hs : s.Wf) (hf : (s.gal g).canonical → (f (s.gal g)).canonical) : (s.modGal g f).Wf := by
  obtain ⟨hparams, hflash, hcfg, hgals⟩ := hs
  refine ⟨hparams, hflash, hcfg, fun k => ?_⟩
  show ((s.modGal g f).gal k).canonical
  by_cases hk : k = g
  · rw [hk, State.gal_modGal_same]
    exact hf (hgals g)
  · rw [State.gal_modGal_ne _ _ _ _ hk]
    exact hgals k

theorem modPort {f : Port → Port} (hs : s.Wf) : (s.modPort p f).Wf := hs

theorem modSeam {f : Seam → Seam} (hs : s.Wf) : (s.modSeam p f).Wf := hs

theorem modDom {f : Dom → Dom} (hs : s.Wf) : (s.modDom k f).Wf := hs

theorem modSeq {f : Seq → Seq} (hs : s.Wf) : (s.modSeq g f).Wf := hs.modGal id

theorem raise (hs : s.Wf) : (s.raise e d).Wf := by
  unfold State.raise
  split
  · exact hs
  · exact hs

theorem raiseGal (hs : s.Wf) : (s.raiseGal g k d).Wf := hs.raise

theorem raisePort (hs : s.Wf) : (s.raisePort p k d).Wf := hs.raise

theorem raiseLink (hs : s.Wf) : (s.raiseLink p c d).Wf := hs.putPar.raisePort

theorem raiseLane (hs : s.Wf) : (s.raiseLane p c).Wf := hs.putPar.raisePort

/-! ### Choices and repetitions -/

theorem ite {P : Prop} [Decidable P] {t u : State} (ht : t.Wf) (hu : u.Wf) : (if P then t else u).Wf := by
  split
  · exact ht
  · exact hu

theorem foldl {α : Type} {f : State → α → State} (hs : s.Wf) (l : List α) (hf : ∀ {t : State} (x : α), t.Wf → (f t x).Wf) :
    (l.foldl f s).Wf := by
  induction l generalizing s with
  | nil => exact hs
  | cons x l ih => exact ih (hf x hs)

/-! ### Hearths -/

theorem discard (hs : s.Wf) : (discard g n s).Wf := hs.ite hs.count

theorem fire {op : Nat} {sel : Record → List Nat} {iv : Record → Nat} {room : Gallery → Bool}
    {act : Record → Word → Word → Word → State → State} (hs : s.Wf)
    (hact : ∀ {t : State} {r a b c}, t.Wf → (act r a b c t).Wf) : (fire op sel iv room act g h s).Wf :=
  have hstale {P : Prop} [Decidable P] {k : Nat} : (if P then s else s.count (galP g 0x81) k).Wf := hs.ite hs.count
  ite (ite hstale.discard (ite hstale.discard (hact (hstale.modGal id).tally64))) hs

theorem pushPipe {e : InFlight} (hs : s.Wf) : (pushPipe g e s).Wf := hs.modGal id

theorem pushRes {e : WordRes} (hs : s.Wf) : (pushRes lat g h r e s).Wf := hs.pushPipe

theorem fireA {op : Nat} {f : Record → Word → WordRes} (hs : s.Wf) : (fireA op lat f g h s).Wf := hs.fire pushRes

theorem fireAB {op : Nat} {iv : Record → Nat} {f : Record → Word → Word → WordRes} (hs : s.Wf) :
    (fireAB op lat iv f g h s).Wf := hs.fire pushRes

theorem macAct {minus : Bool} {a b c : Word} (hs : s.Wf) : (macAct minus g h r a b c s).Wf := hs.pushPipe.modGal id

theorem fclrOnly (hs : s.Wf) : (fclrOnly g h r s).Wf := ite hs.pushPipe hs

theorem outWinner {l : List InFlight} (hs : s.Wf) : (outWinner k l s).2.Wf := by
  induction l with
  | nil => exact hs
  | cons e l ih =>
    unfold Machine.outWinner
    split
    · next t heq => rw [heq] at ih; exact ih
    · next w t heq =>
      rw [heq] at ih
      split
      · exact ih
      · split
        · exact ih
        · exact ih

theorem landEffect {e : InFlight} {placed : Bool} (hs : s.Wf) : (landEffect g e placed s).Wf := by
  refine hs.modGal fun hx => ?_
  dsimp only
  have hregs := hx.foldl (f := fun y q => y.setReg e.plane e.hearth q.1 q.2) e.regs fun _ hy => hy
  generalize e.regs.foldl (fun y q => y.setReg e.plane e.hearth q.1 q.2) (s.gal g) = y at *
  refine Gallery.canonical.ite ?_ ?_
  · split <;> split <;> exact hregs
  · split <;> split <;> exact hregs

theorem landHearth {l : List InFlight} (hs : s.Wf) : (landHearth g h l s).Wf :=
  (hs.outWinner.foldl _ fun _ ht => ht.landEffect).discard

theorem hearthCycle (hs : s.Wf) : (hearthCycle g s).Wf :=
  (hs.modGal fun hx => hx.deliverTaps_emptied).foldl _ fun _ ht => ht.landHearth

end State.Wf
end Sys2Proof.Machine
end

section
/-!
SUPPORT for O60: answers, transactions and deaths, and the operations of contexts, banks, the march and assay keep the
canonical form.
-/

namespace Sys2Proof.Machine.State.Wf

variable {s : State} {g h k n t a b c p e req v seq cfa status cause kind part : Nat} {d : List Byte} {ups : List Upset}

/-! ### Answers and transactions -/

theorem raiseVector (hs : s.Wf) : (raiseVector v s).Wf := ite hs hs

theorem releaseVectors (hs : s.Wf) : (releaseVectors s).Wf :=
  hs.foldl (List.range 4) fun _ ht => ite (raiseVector ht) ht

theorem signalRing (hs : s.Wf) : (signalRing s).Wf := ite (raiseVector hs) hs

theorem hostWrite (hs : s.Wf) : (hostWrite a d s).Wf := hs

theorem ringPut (hs : s.Wf) : (ringPut d s).Wf :=
  signalRing (withPcie (hostWrite (hostWrite (ite (hostWrite hs) hs))))

theorem deliver {via : Transport} {ring : Bool} (hs : s.Wf) : (deliver via ring d s).Wf := by
  unfold Machine.deliver
  cases via with
  | lampPair => exact ite hs hs
  | pcie => exact ite (ite (ringPut hs) hs) (ite (raiseVector hs) (ite hs hs))

theorem refuse {c : Cmd} (hs : s.Wf) : (refuse c status s).Wf := deliver hs

theorem respondVia {ring : Bool} {c : Cmd} (hs : s.Wf) : (respondVia ring c status d s).Wf := ite hs (deliver hs)

theorem respond {c : Cmd} (hs : s.Wf) : (respond c status d s).Wf := respondVia hs

theorem startCmd {c : Cmd} (hs : s.Wf) : (startCmd c s).Wf := hs

theorem damperDone {ended forced : Bool} (hs : s.Wf) : (damperDone k ended forced s).Wf :=
  foldl (withLamp hs) _ fun _ ht => respond ht

theorem present {q : Packet} (hs : s.Wf) : (present q s).Wf := hs

theorem replyError {q : Packet} (hs : s.Wf) : (replyError q status s).Wf := hs

theorem replyData {q : Packet} (hs : s.Wf) : (replyData q n d s).Wf := hs

theorem request {src : Target} {q : Packet} {purpose : Purpose} (hs : s.Wf) : (request src q purpose s).Wf := hs

theorem modDma {f : Dma → Dma} (hs : s.Wf) : (modDma g k f s).Wf := hs.modSeq

theorem endMemRead {c : Cmd} (hs : s.Wf) : (endMemRead c part status d s).Wf := by
  unfold Machine.endMemRead
  dsimp only
  split
  · exact hs
  · split
    · split
      · exact respond hs
      · exact respond hs
    · exact hs

/-- A staging area changes in what is not its data. -/
theorem modStaging {f : Staging → Staging} (hs : s.Wf) (hf : ∀ x, (f x).data = x.data) : (modStaging g f s).Wf :=
  hs.modGal fun ⟨hcfg, hstore, hmem, hstage⟩ => ⟨hcfg, hstore, hmem, (hf _).symm ▸ hstage⟩

theorem icpOutcome {ask : Option Packet} (hs : s.Wf) : (icpOutcome g seq cfa ask status s).Wf := by
  unfold Machine.icpOutcome
  extract_lets u v w
  have hu : u.Wf := hs.modStaging fun _ => rfl
  have hv : v.Wf := ite (hu.modGal id) hu
  have hw : w.Wf := ite hv.count hv.count.raise
  split
  · exact hw
  · exact ite hw.replyData hw.replyError

theorem close {q : Purpose} (hs : s.Wf) : (q.close status d s).Wf := by
  cases q with
  | dma => exact hs.modDma
  | bulk => exact hs
  | lampRead => exact hs.endMemRead
  | icp => exact hs.icpOutcome
  | message => exact hs

theorem endTrans {x : Trans} (hs : s.Wf) : (endTrans x status d s).Wf := ite (close hs) hs

theorem endTransAll {f : Trans → Bool} (hs : s.Wf) : (endTransAll f status s).Wf := foldl hs _ fun _ ht => ht.endTrans

theorem markDead (hs : s.Wf) : (markDead t cause s).Wf := by
  unfold Machine.markDead
  split
  · exact hs
  · dsimp only
    split
    · exact endTransAll (raise hs.putPar)
    · exact endTransAll (raise hs)

theorem faultPolicy (hs : s.Wf) : (faultPolicy g b s).Wf := ite hs.markDead hs

/-! ### Contexts -/

theorem evictFor (hs : s.Wf) : (evictFor g p c s).Wf := modGal (ite hs.count hs) id

theorem queuePrefetch (hs : s.Wf) : (queuePrefetch g c s).Wf := ite hs (ite hs.count (hs.modGal id))

theorem ctxFault (hs : s.Wf) : (ctxFault g kind c k s).Wf := hs.raiseGal

theorem noteMax (hs : s.Wf) : (noteMax n v req s).Wf := ite hs.putPar hs

theorem releaseBursts {f : Nat → Bool} (hs : s.Wf) : (releaseBursts g f s).Wf :=
  (hs.foldl _ fun b ht => by
    split
    · exact ite ht.noteMax ht
    · exact ht).modGal id

theorem cutTaps (hs : s.Wf) : (cutTaps g s).Wf := by
  unfold Machine.cutTaps
  refine ite ?_ (count ?_) <;>
    exact hs.releaseBursts.modGal fun hx => .ite (hx.withTaps.foldl _ fun _ hy => hy.putBeat) hx.withTaps

theorem switchNow (hs : s.Wf) : (switchNow g s).Wf := by
  unfold Machine.switchNow
  split
  · exact hs
  · exact hs.cutTaps.modGal id

theorem switchCtx (hs : s.Wf) : (switchCtx g c s).Wf := by
  unfold Machine.switchCtx
  dsimp only
  split
  · exact hs.ctxFault
  · split
    · exact ite hs (hs.modGal id)
    · exact hs.modGal id

theorem startFill {demand : Bool} (hs : s.Wf) : (startFill g p c demand s).Wf := hs.evictFor.count.modGal id

theorem startSpill (hs : s.Wf) : (startSpill g p c s).Wf := modGal (ite hs.count hs) id

theorem engineWork {demand : Bool} (hs : s.Wf) : (engineWork g c demand s).Wf := by
  unfold Machine.engineWork
  dsimp only
  split
  · exact hs
  · split
    · exact ite hs.startSpill hs.startFill
    · exact hs.startFill

theorem noteStore (hs : s.Wf) : (noteStore g ups s).Wf := hs.modGal id

/-! ### Banks and the march -/

theorem countBankEcc (hs : s.Wf) : (countBankEcc g b n k s).Wf := hs.putPar

theorem eccFatal (hs : s.Wf) : (eccFatal g a req s).Wf := faultPolicy (raiseGal (countBankEcc hs.count))

theorem beatEffects (hs : s.Wf) : (beatEffects g a req s).Wf :=
  have hcounted {P : Prop} [Decidable P] {m j i : Nat} : (if P then s else Machine.countBankEcc g m j 0 (s.count (galP g 0x95) i)).Wf :=
    ite hs hs.count.countBankEcc
  ite (ite hs.count (raiseGal (hs.count.modGal id))) (ite hs (ite (eccFatal hcounted) hcounted))

theorem readBeat (hs : s.Wf) : (readBeat g a req s).2.Wf := hs.beatEffects

theorem writeBeat (hs : s.Wf) : (writeBeat g a d s).Wf := ite (hs.modGal fun hx => hx.abandonOn.putBeat) hs

theorem readBeats (hs : s.Wf) : (readBeats g req n a s).2.2.Wf := by
  induction n generalizing s a with
  | zero => exact hs
  | succ n ih => exact ih hs.readBeat

theorem writeBeats (hs : s.Wf) : (writeBeats g n a d s).Wf := by
  induction n generalizing s a d with
  | zero => exact hs
  | succ n ih => exact ih hs.writeBeat

theorem grantReq {q : BankReq} (hs : s.Wf) : (grantReq g b q s).Wf := 
  hs.noteMax.modGal fun hx => .ite hx.withRequests.setBank.setTap hx.withRequests.setBank

theorem noteMem (hs : s.Wf) : (noteMem g b ups s).Wf := hs.modGal id

theorem marchNext (hs : s.Wf) : (marchNext g s).Wf := by
  unfold Machine.marchNext
  exact ite (ite (hs.modGal id) (hs.modGal id)) (ite (hs.modGal id) (tally (hs.modGal id)))

theorem marchSkip (hs : s.Wf) : (marchSkip g s).Wf := hs.modGal id

theorem assayFail (hs : s.Wf) : (assayFail kind g k d s).Wf :=
  have hfail {v : Word} {x : Assay} : ({ (s.count 0x3A83 1).putPar 0x3A87 v with assay := x } : State).Wf := withAssay hs.count.putPar
  ite (markDead (raise (ite hfail (putPar (count hfail))))) (raise (ite hfail (putPar (count hfail))))

theorem marchBeat (hs : s.Wf) : (marchBeat g s).Wf := by
  unfold Machine.marchBeat
  dsimp only
  split
  · exact ite hs.marchNext (ite hs.beatEffects.marchNext ((hs.beatEffects.modGal id).modGal fun hx => hx.withMarch.raiseMarch))
  · exact (hs.modGal fun hx => hx.memWrite).modGal fun hx => hx.withMarch.raiseMarch
  · exact hs.modGal fun hx => hx.withMarch.raiseMarch
  · have hput : ∀ {a : Nat} {l : List Byte}, (s.modGal g (fun x =>
        { x with mem := memWrite x.mem a l, memBad := tabClear x.memBad (a / 8) 2 })).Wf := hs.modGal fun hx => hx.memWrite
    exact ite hput.marchNext (ite (hput.modGal id).marchSkip.assayFail (hput.modGal fun hx => hx.withMarch.raiseMarch))

theorem marchCycle (hs : s.Wf) : (marchCycle g s).Wf :=
  ite hs (ite hs (ite hs.marchSkip (ite hs.marchNext (hs.modGal fun hx => hx.raiseMarch))))

theorem tapBeat (hs : s.Wf) : (tapBeat g t s).2.Wf := by
  unfold Machine.tapBeat
  dsimp only
  split
  · exact hs
  · split
    · exact hs.readBeat.modGal id
    · split
      · split
        · exact hs.writeBeat.modGal id
        · exact hs.writeBeat.modGal id
      · exact hs

theorem bankBeat (hs : s.Wf) : (bankBeat g b s).Wf := by
  unfold Machine.bankBeat
  split
  · exact hs
  · dsimp only
    split
    · exact hs
    · next r first n _ _ =>
      have hbeat : (if r < 32 then Machine.tapBeat g r s else if r = 34 then (true, Machine.marchBeat g s) else (true, s)).2.Wf := by
        split
        · exact hs.tapBeat
        · split
          · exact hs.marchBeat
          · exact hs
      exact ite hbeat (ite (hbeat.modSeq.tally64.noteMax.modGal id) (hbeat.modSeq.tally64.modGal id))

theorem bankCycle (hs : s.Wf) : (bankCycle g s).Wf :=
  (hs.foldl _ fun _ ht => ht.bankBeat).marchCycle.modGal fun hx =>
    hx.withRequests.foldl _ fun _ hy => hy.raiseTap

end Sys2Proof.Machine.State.Wf
end

section
/-!
SUPPORT for O60: the operations of parameters, edges, the Tinder fabric, the configuration ports, contexts, captures,
sequencers and routers keep the canonical form.
-/

namespace Sys2Proof.Machine.State.Wf

variable {s : State} {g h k n i t a b c p e req v w seq cfa status cause kind port : Nat} {d : List Byte} {ups : List Upset}

/-! ### Parameters that are written by their number -/

theorem hostEntry {act : State → Nat × State} (hs : s.Wf) (hact : (act s).2.Wf) : (hostEntry n act s).Wf := by
  unfold Machine.hostEntry
  dsimp only
  split
  · exact hs
  · split
    · exact hs
    · split
      · exact hs
      · exact hact

theorem writeFlowCtrl {v : Word} (hs : s.Wf) : (writeFlowCtrl k v s).2.Wf := by
  unfold Machine.writeFlowCtrl
  split
  · split
    · exact hs
    · exact hs.putPar
  · split
    · exact hs.putPar
    · exact hs

theorem endSlotFrame (hs : s.Wf) : (endSlotFrame s).Wf := hs.foldl (List.range 128) fun _ ht => ite ht.putPar ht

theorem writeDeadSet {v : Word} (hs : s.Wf) : (writeDeadSet v s).2.Wf := hs.foldl _ fun _ ht => ite ht.markDead ht

theorem writeDeadClear {v : Word} (hs : s.Wf) : (writeDeadClear v s).2.Wf :=
  hs.foldl _ fun _ ht => ite (raise (withMesh ht)) ht

theorem modHearth {f : HearthTest → HearthTest} (hs : s.Wf) : (modHearth g h f s).Wf := hs.modGal id

theorem startAssay (hs : s.Wf) : (startAssay s).Wf :=
  foldl (withAssay hs) _ fun _ ht => ht.modGal fun hx => Gallery.canonical.closeElement hx

theorem stopAssay (hs : s.Wf) : (stopAssay s).Wf := foldl (withAssay hs) _ fun _ ht => ht.modGal id

theorem writeAssayCtrl {v : Word} (hs : s.Wf) : (writeAssayCtrl v s).2.Wf :=
  ite hs.putPar (ite hs.putPar.startAssay hs.putPar.stopAssay)

/-! ### Edges and the Tinder fabric -/

theorem enterEdge {l : List (Option Word)} (hs : s.Wf) : (enterEdge g l s).Wf := modGal (ite hs hs.count) id

/-- The Tinder fabric changes in what is not its configuration. -/
theorem withTnd {x : Tinder} (hs : s.Wf) (hx : x.cfg = s.tnd.cfg := by rfl) : ({ s with tnd := x } : State).Wf := by
  obtain ⟨hparams, hflash, hcfg, hgals⟩ := hs
  exact ⟨hparams, hflash, hx ▸ hcfg, hgals⟩

theorem tndCycle {t : Tick} (hs : s.Wf) : (tndCycle t s).Wf :=
  ite (withTnd hs) (foldl (withTnd hs) _ fun _ hu => ite hu.tally.raise hu.tally)

theorem writeTinder (hs : s.Wf) : (writeTinder b i d s).Wf := by
  obtain ⟨hparams, hflash, hcfg, hgals⟩ := hs
  exact ⟨hparams, hflash, hcfg.tabBlock _ _ _, hgals⟩

/-! ### Configuration ports -/

theorem writeFrame (hs : s.Wf) : (writeFrame cfa d s).Wf := by
  unfold Machine.writeFrame
  split
  · exact hs.modGal fun hx => hx.writeCtxFrame
  · exact hs.modGal id
  · exact hs.writeTinder
  · exact hs

theorem noteChanged (hs : s.Wf) : (noteChanged cfa s).Wf := withSweep hs

theorem noteCtxChanged (hs : s.Wf) : (noteCtxChanged g c s).Wf := hs.foldl (List.range 12) fun _ ht => ht.noteChanged

theorem noteShadow (hs : s.Wf) : (noteShadow cfa d s).Wf := ite (withSweep hs) (ite (withSweep hs) (ite (withSweep hs) (ite hs (withSweep hs))))

theorem serviceWrite (hs : s.Wf) : (serviceWrite cfa d s).Wf := hs.writeFrame.noteChanged.noteShadow

theorem writeHeld (hs : s.Wf) : (writeHeld g s).Wf := (hs.foldl _ fun _ ht => ht.serviceWrite).modGal id

theorem grantPort {x : Writer} (hs : s.Wf) : (grantPort port x s).Wf := by
  unfold Machine.grantPort
  dsimp only
  split
  · exact respond (serviceWrite (hs.modGal id))
  · exact replyData (serviceWrite (hs.modGal id))
  · exact hs.modGal id

theorem portNext (hs : s.Wf) : (portNext port s).Wf := by
  unfold Machine.portNext
  split
  · exact hs
  · split
    · exact hs.grantPort
    · exact hs

theorem askPort {x : Writer} (hs : s.Wf) : (askPort port x s).Wf := portNext (ite hs (hs.modGal id))

theorem freePort (hs : s.Wf) : (freePort port s).Wf := portNext (hs.modGal id)

theorem dropWriters (hs : s.Wf) : (dropWriters port s).Wf :=
  foldl (hs.modGal id) _ fun w ht => by
    split
    · exact ht.respond
    · exact ht.replyError
    · exact ht

/-! ### Contexts -/

theorem startWork {demand : Bool} (hs : s.Wf) : (startWork g c demand s).Wf := by
  unfold Machine.startWork
  split
  · exact hs.engineWork
  · dsimp only
    split
    · split
      · exact hs.askPort.noteCtxChanged.noteCtxChanged.engineWork
      · exact hs.askPort.noteCtxChanged.engineWork
    · exact hs.askPort

theorem endFill (hs : s.Wf) : (endFill g s).Wf := ite hs.freePort hs.portNext

theorem execTransferStart (hs : s.Wf) : NextWf (execTransferStart g ups s) := by
  show State.Wf _
  dsimp only
  split
  · exact hs
  · split
    · exact ite hs hs.noteStore.startWork
    · split
      · exact ite hs hs.noteStore.startWork
      · split
        · split
          · exact ite hs.startSpill hs
          · exact hs
        · exact hs

theorem execFillComplete (hs : s.Wf) : NextWf (execFillComplete g s) := by
  show State.Wf _
  split
  · exact hs
  · split
    · exact hs
    · split
      · exact hs
      · split
        · exact ite (endFill (faultPolicy (ctxFault (count (hs.modGal fun hx => Gallery.canonical.mendSlot hx))))) hs
        · exact endFill (noteCtxChanged (hs.count.modGal fun hx =>
            .ite (Gallery.canonical.withSwitch (Gallery.canonical.loadPlane hx)) (Gallery.canonical.loadPlane hx)))

theorem execSpillComplete (hs : s.Wf) : NextWf (execSpillComplete g s) := by
  show State.Wf _
  split
  · exact hs
  · split
    · exact hs
    · exact count (hs.modGal fun hx => Gallery.canonical.storePlane hx)

theorem execPrefetchFillAbandoned (hs : s.Wf) : NextWf (execPrefetchFillAbandoned g s) := by
  show State.Wf _
  split
  · exact hs
  · exact ite (endFill (hs.modGal id)) hs

/-! ### Captures -/

theorem armCapture {gals : BitVec 16} {tick : Tick} (hs : s.Wf) : (armCapture kind k gals tick n s).Wf := ite hs hs

/-! ### Sequencers -/

theorem seqFault (hs : s.Wf) : (seqFault g c s).Wf := hs.putPar.modSeq.raiseGal

theorem markIssued (hs : s.Wf) : (markIssued g s).Wf := hs.modSeq.tally64

theorem goTo (hs : s.Wf) : (goTo g a s).Wf := hs.modSeq

theorem goNext (hs : s.Wf) : (goNext g s).Wf := hs.modSeq

theorem issue {op : Nat} {transfers : Seq → Word → Bool} {bad : State → Seq → Word → Option Nat} {act : Nat → Word → State → State}
    (hs : s.Wf) (hact : ∀ {t : State} {g w}, t.Wf → (act g w t).Wf) : (issue op transfers bad act g s).Wf := by
  unfold Machine.issue
  dsimp only
  split
  · refine ite hs.seqFault (ite hs.seqFault (ite ?_ hs))
    split
    · exact hs.seqFault
    · exact ite hs.seqFault (hact hs.markIssued)
  · exact hs

theorem fenceDone (hs : s.Wf) : (fenceDone g s).Wf := hs.modSeq

theorem startDma {w : Word} (hs : s.Wf) : (startDma g w s).Wf := hs.modSeq

theorem execSwitch (hs : s.Wf) : NextWf (execSwitch g s) :=
  hs.issue fun ht => by
    dsimp only
    split
    · exact ht.switchCtx
    · exact ht.switchCtx.goNext

theorem execFenceComplete (hs : s.Wf) : NextWf (execFenceComplete g s) :=
  ite (ite hs.fenceDone (ite hs.askPort.writeHeld.fenceDone hs.askPort)) hs

theorem execWaittMet (hs : s.Wf) : NextWf (execWaittMet g s) := by
  show State.Wf _
  split
  · exact ite hs.modSeq hs
  · exact hs

theorem execWaittTimeout (hs : s.Wf) : NextWf (execWaittTimeout g s) := by
  show State.Wf _
  split
  · exact ite hs.modSeq hs
  · exact hs

theorem execBrc (hs : s.Wf) : NextWf (execBrc g s) :=
  hs.issue fun ht => by
    refine ite (modSeq ?_) (goNext ?_) <;>
    · refine ite ?_ ht
      split
      · exact ht.queuePrefetch
      · exact ht

theorem execDma (hs : s.Wf) : NextWf (execDma g s) :=
  ite (ite hs.seqFault hs.markIssued.startDma) (hs.issue fun ht => ite ht.startDma ht.modSeq)

theorem execDmaComplete (hs : s.Wf) : NextWf (execDmaComplete g k s) := by
  show State.Wf _
  split
  · exact hs
  · exact ite hs.modSeq.count (ite hs.modSeq.tally hs)

theorem latchEdge (hs : s.Wf) : (latchEdge g i s).Wf := ite (ite hs.modSeq.count (ite hs.modSeq.tally hs.modSeq)) hs

theorem dropTaps (hs : s.Wf) : (dropTaps g s).Wf := hs.releaseBursts.modGal id

theorem galleryReset (hs : s.Wf) : (galleryReset g s).Wf := by
  have hreset {u : State} (hu : u.Wf) {P : Prop} [Decidable P] {x : Capture} : (if P then { u with capt := x } else u).Wf := ite hu hu
  exact ite (damperDone (hreset (withPwr (hs.dropTaps.modGal id)))) (hreset (withPwr (hs.dropTaps.modGal id)))

theorem execWatchdogBite (hs : s.Wf) : NextWf (execWatchdogBite g s) :=
  ite (faultPolicy (raiseGal hs.galleryReset.count)) hs

theorem dmaSend {x : Dma} (hs : s.Wf) : (dmaSend g x s).Wf := by
  have hread := hs.readBeats (g := g) (req := 32) (n := min 32 x.units) (a := x.addr)
  unfold Machine.dmaSend
  dsimp only
  exact ite hread.modDma (modDma hread)

theorem dmaAsk {x : Dma} (hs : s.Wf) : (dmaAsk g x s).Wf := ite hs (modDma (request hs))

theorem dmaCycle (hs : s.Wf) : (dmaCycle g s).Wf := by
  unfold Machine.dmaCycle
  split
  · exact hs
  · split
    · exact ite hs.dmaSend hs.dmaAsk
    · exact hs

theorem seqCycle (hs : s.Wf) : (seqCycle g s).Wf := by
  unfold Machine.seqCycle
  extract_lets rise t q live u v hold
  have ht : t.Wf := ite hs (hs.foldl _ fun _ ht => ht.latchEdge)
  have hu : u.Wf := by
    unfold u
    split
    · exact ite ht ht.count
    · exact ht
  have hv : v.Wf := by
    refine ite hu ?_
    split
    · exact hu.tally64
    · exact hu.tally64
    · exact hu.tally64
    · exact hu.tally64
    · exact hu.tally64
    · exact hu
  exact hv.modSeq

end Sys2Proof.Machine.State.Wf
end

section
/-!
SUPPORT for O60: the routers, the keeper bridge and the JESD204C links keep the canonical form.
-/

namespace Sys2Proof.Machine.State.Wf

variable {s : State} {g h k n i t a b c p l e req v w seq cfa status cause kind port : Nat} {d : List Byte} {q : Packet}

/-! ### Routers -/

theorem bounce (hs : s.Wf) : (bounce c status q s).Wf := by
  unfold Machine.bounce
  refine ite (ite ?_ hs.replyError) hs.count
  split
  · exact hs.endTrans
  · exact hs

theorem turnAway (hs : s.Wf) : (turnAway c status q s).Wf := ite hs.replyError (ite hs.count hs.count)

theorem countPath {path : List (Nat × Nat)} (hs : s.Wf) : (countPath path q s).Wf :=
  hs.foldl _ fun _ ht => ite ht.tally.tally ht.tally

theorem crossLinks {err : LinkError} {path : List (Nat × Nat)} (hs : s.Wf) : (crossLinks err path q s).2.Wf := by
  unfold Machine.crossLinks
  split
  · exact hs.countPath
  · exact hs.countPath.count
  · exact hs.countPath
  · split
    · exact hs.countPath.raise
    · exact hs.countPath

theorem noteCommit (hs : s.Wf) : (noteCommit q s).Wf := by
  unfold Machine.noteCommit
  dsimp only
  split
  · exact ite (hs.modGal id) hs
  · exact hs

theorem demote (hs : s.Wf) : (demote q s).2.Wf := by
  unfold Machine.demote
  split
  · exact hs.count
  · exact hs

theorem sendOn {err : LinkError} {to' : Nat × Nat} (hs : s.Wf) : (sendOn err q to' s).Wf := by
  have hdemoted := hs.demote (q := q)
  unfold Machine.sendOn
  dsimp only
  generalize Machine.demote q s = r at *
  have hcrossed := hdemoted.crossLinks (err := err) (path := meshPath (r.2.entry r.1).sx (r.2.entry r.1).sy to'.1 to'.2) (q := r.1)
  split
  · next heq => rw [heq] at hcrossed; exact hcrossed
  · next heq =>
    rw [heq] at hcrossed
    exact ite (withMesh hcrossed.noteCommit) (withMesh hcrossed.noteCommit)

theorem routePacket {err : LinkError} (hs : s.Wf) : (routePacket err q s).Wf := by
  unfold Machine.routePacket
  split
  · dsimp only
    split
    · exact ite hs.count.endTrans hs.count
    · exact hs.count
  · refine ite hs.count (ite hs.bounce (ite hs.sendOn ?_))
    split
    · exact hs.bounce
    · exact ite hs.sendOn hs.bounce

theorem execPacketSend {err : LinkError} (hs : s.Wf) : NextWf (execPacketSend q err s) := by
  show State.Wf _
  split
  · exact hs
  · split
    · exact ite (routePacket (withMesh hs)) hs
    · exact ite hs (ite (ite hs (routePacket (withMesh hs))) hs.routePacket)

theorem execGtWindowSend (hs : s.Wf) : NextWf (execGtWindowSend i s) := by
  show State.Wf _
  split
  · exact hs
  · dsimp only
    split
    · exact hs
    · split
      · exact count (withMesh (withMesh hs))
      · split
        · exact hs
        · exact ite (count (withMesh (withMesh hs))) (count (withMesh (withMesh hs)))

theorem absorbOff (hs : s.Wf) : (absorbOff k q s).Wf :=
  have hwoken {P Q : Prop} [Decidable P] [Decidable Q] {f : Dom → Dom} {e : Nat} {d : List Byte} :
      (if P then ((if Q then startRekindle k s else s).modDom k f).raise e d else if Q then startRekindle k s else s).Wf :=
    ite (raise (modDom (ite hs.modDom hs))) (ite hs.modDom hs)
  ite hwoken (turnAway hwoken)

theorem holdPacket {f : Flying} (hs : s.Wf) : (holdPacket f s).Wf := ite (withMesh hs) (withMesh hs)

theorem holdAsleep {f : Flying} (hs : s.Wf) : (holdAsleep k f s).Wf :=
  ite (ite hs hs.modDom.raise) (holdPacket (ite hs hs.modDom.raise))

/-- What a guard answers instead of letting a packet pass. -/
theorem some_eq {t u : State} (ht : t.Wf) (h : some t = some u) : u.Wf := Option.some.inj h ▸ ht

theorem ite_some {P : Prop} [Decidable P] {o o' : Option State} {u : State} (ho : o = some u → u.Wf) (ho' : o' = some u → u.Wf) :
    (if P then o else o') = some u → u.Wf := by
  split
  · exact ho
  · exact ho'

theorem gate {x : Target} {f : Flying} {u : State} (hs : s.Wf) : gate x f s = some u → u.Wf := by
  refine ite_some hs.turnAway.some_eq (ite_some hs.turnAway.some_eq ?_)
  split
  · exact nofun
  · exact ite_some hs.absorbOff.some_eq (ite_some hs.holdAsleep.some_eq (ite_some hs.holdPacket.some_eq nofun))

theorem noteWorst {f : Flying} (hs : s.Wf) : (noteWorst f s).Wf := ite (ite hs.putPar hs) hs

theorem arrive {cmds : List Nat} {at' : Target → Bool} {act : Target → Packet → State → State} (hs : s.Wf)
    (hact : ∀ {u : State} {x k}, u.Wf → (act x k u).Wf) : (arrive i cmds at' act s).Wf := by
  unfold Machine.arrive
  split
  · exact hs
  · next f _ =>
    dsimp only
    split
    · exact hs
    · have htaken : ({ s with mesh := { s.mesh with flight := s.mesh.flight.eraseIdx i } } : State).Wf := withMesh hs
      split
      · next heq => exact htaken.gate heq
      · exact ite (count htaken.noteWorst) (hact htaken.noteWorst)

theorem releaseHeld (hs : s.Wf) : (releaseHeld k s).Wf := withMesh hs

theorem reportLapse (hs : s.Wf) : (reportLapse k s).Wf := ite hs hs.raise

theorem execTransactionTimeout (hs : s.Wf) : NextWf (execTransactionTimeout n p t s) := by
  show State.Wf _
  split
  · exact hs
  · exact ite hs hs.count.raise.endTrans

/-! ### The keeper bridge -/

theorem refuseCommit (hs : s.Wf) : (refuseCommit g d s).Wf :=
  raise (count (ite (modGal (hs.modStaging fun _ => rfl) id) (hs.modStaging fun _ => rfl)))

theorem stageCommand (hs : s.Wf) : (stageCommand g d s).Wf := ite (ite hs.refuseCommit hs) (hs.modStaging fun _ => rfl)

theorem stageData {l : List Byte} (hs : s.Wf) : (Machine.modStaging g (fun x => { x with data := memWrite x.data a l }) s).Wf :=
  hs.modGal fun ⟨hcfg, hstore, hmem, hstage⟩ => ⟨hcfg, hstore, hmem, wf_memWrite hstage _ _⟩

theorem stageWrite (hs : s.Wf) : (stageWrite g q s).Wf := ite (stageCommand (ite hs hs.stageData)) (ite hs hs.stageData)

theorem writeAtKeeper (hs : s.Wf) : (writeAtKeeper q s).Wf := by
  unfold Machine.writeAtKeeper
  split
  · exact ite (ite hs.stageWrite hs) hs.count
  · exact hs.count

theorem readAtKeeper (hs : s.Wf) : (readAtKeeper q s).Wf := by
  unfold Machine.readAtKeeper
  split
  · exact ite hs.replyData hs.replyError
  · exact hs.replyError

theorem forwardFrame {ask : Option Packet} (hs : s.Wf) : (forwardFrame g seq cfa d ask s).Wf :=
  ite hs.icpOutcome (ite hs.icpOutcome hs.request)

theorem submitAtKeeper (hs : s.Wf) : (submitAtKeeper q s).Wf := by
  unfold Machine.submitAtKeeper
  split
  · exact ite hs hs.forwardFrame
  · exact hs.replyError

theorem holdFrame (hs : s.Wf) : (holdFrame g q s).Wf := ite hs.replyError (replyData (hs.modGal id))

theorem configAt {x : Target} (hs : s.Wf) : (configAt x q s).Wf :=
  ite hs.replyError (ite hs.replyError (ite hs.replyError (ite hs.holdFrame hs.askPort)))

theorem execMeshConfig (hs : s.Wf) : NextWf (execMeshConfig i s) :=
  hs.arrive fun hu => by
    split
    · exact hu.configAt
    · exact hu.configAt
    · exact hu.replyError

/-! ### JESD204C links -/

theorem setLanes {ps : List Nat} (hs : s.Wf) : (setLanes l ps k s).Wf := hs.foldl _ fun _ ht => ite ht ht.modPort

theorem setLink (hs : s.Wf) : (setLink l k s).Wf := hs.modPort.setLanes

theorem startLink (hs : s.Wf) : (startLink l s).Wf := ite hs (ite (setLanes (modPort hs.setLanes)) (modPort hs.setLanes))

theorem armSysref (hs : s.Wf) : (armSysref l s).Wf := hs.modPort

theorem dropLink (hs : s.Wf) : (dropLink l s).Wf := startLink (ite hs.count hs)

theorem writeLinkCfg0 {v : Word} (hs : s.Wf) : (writeLinkCfg0 l v s).2.Wf := by
  unfold Machine.writeLinkCfg0
  dsimp only
  split
  · split
    · exact hs
    · split
      · exact hs
      · exact startLink (ite (armSysref (modPort hs.putPar.putPar)) (modPort hs.putPar.putPar))
  · split
    · exact modPort (putPar hs.setLanes)
    · exact hs.putPar

theorem seamDown (hs : s.Wf) : (seamDown p c s).Wf := ite (raiseLink (modSeam (count (count hs.endTransAll)))) (ite hs hs.modSeam)

theorem portReset (hs : s.Wf) : (portReset p s).Wf := by
  unfold Machine.portReset
  refine foldl (modPort (count (ite hs.seamDown hs))) [false, true] fun tx ht => ?_
  split
  · exact dropLink (ite ht.armSysref ht)
  · exact ht

theorem writeProtocol {v : Word} (hs : s.Wf) : (writeProtocol p v s).2.Wf := by
  unfold Machine.writeProtocol
  dsimp only
  split
  · exact hs
  · split
    · exact hs
    · split
      · exact hs
      · exact portReset (putPar (ite hs.seamDown hs))

theorem execCdrLock (hs : s.Wf) : NextWf (execCdrLock l s) :=
  ite (foldl (setLink hs.setLanes) _ fun _ ht => ht.modPort) (ite hs.modPort hs)

theorem correctPolarity (hs : s.Wf) : (correctPolarity p s).Wf := ite (raiseLane hs.modPort) hs.modPort

theorem execEmbLock {x : BitVec 8} (hs : s.Wf) : NextWf (execEmbLock l x s) :=
  ite (setLink (hs.foldl _ fun _ ht => ht.correctPolarity)) hs

theorem reportIdentity {o : List (Option Nat)} (hs : s.Wf) : (reportIdentity l c o d s).Wf := ite hs hs.modPort.raiseLink

theorem execIdWindowDone {o : List (Option Nat)} (hs : s.Wf) : NextWf (execIdWindowDone l o s) :=
  ite hs (ite hs.putPar.setLink (ite (setLink (reportIdentity hs.putPar)) (reportIdentity hs.count)))

theorem noteArrival (hs : s.Wf) : (noteArrival l a b s).Wf := hs.putPar

theorem linkUp (hs : s.Wf) : (linkUp l a s).Wf := raiseLink (putPar (putPair (count (setLink hs.modPort))))

theorem execReleaseWaitDone (hs : s.Wf) : NextWf (execReleaseWaitDone l a b s) :=
  ite hs (ite (ite hs.linkUp hs) (ite hs.noteArrival (ite hs.noteArrival.linkUp (ite hs.noteArrival.linkUp hs.noteArrival))))

theorem execLinkDown {x : DownCause} (hs : s.Wf) : NextWf (execLinkDown l a x s) := by
  show State.Wf _
  split
  · exact hs
  · split
    · exact dropLink (ite (raisePort (count hs.modPort)) (count hs.modPort))
    · exact hs.count.dropLink
    · exact hs.raiseLink.dropLink

theorem sysrefLink {t : Tick} (hs : s.Wf) : (sysrefLink t l s).Wf :=
  ite hs (ite hs.tally.putPair (ite hs.tally.putPair.modPort (ite hs.tally.putPair.count.raiseLink hs.tally.putPair)))

theorem execSysrefCapture (hs : s.Wf) : NextWf (execSysrefCapture s) :=
  ite hs (foldl (withTnd hs) (List.range 16) fun _ ht => ht.sysrefLink)

theorem writeSysref {v : Word} (hs : s.Wf) : (writeSysref l v s).2.Wf := by
  unfold Machine.writeSysref
  dsimp only
  split
  · exact hs
  · exact ite hs.putPar.armSysref hs.putPar

theorem stepLinks (hs : s.Wf) : (stepLinks s).Wf :=
  hs.foldl (List.range 16) fun _ ht => ite (dropLink (armSysref ht.modPort.raiseLink)) ht

theorem execPacketGroupRelease (hs : s.Wf) : NextWf (execPacketGroupRelease p d s) := by
  show State.Wf _
  split
  · exact hs
  · exact ite hs (ite hs.tally64 (ite hs.tally64.modPort.count (present hs.tally64.modPort.tally)))

theorem writeAtPort (hs : s.Wf) : (writeAtPort p q s).Wf :=
  ite hs.count (ite (ite hs.modPort hs.modPort.tally) (count (ite hs.modPort hs.modPort.tally)))

end Sys2Proof.Machine.State.Wf
end

section
/-!
SUPPORT for O60: the lamp protocol, the keeper flash and the sweep keep the canonical form.
-/

namespace Sys2Proof.Machine.State.Wf

variable {s : State} {g h k n i t a b c p l e w sec status cause kind port cfa pol : Nat} {d : List Byte} {ups : List Upset}
  {clean : Bool} {z : Cmd}

/-! ### Streams and equalisers -/

theorem execTxStreamWrite (hs : s.Wf) : NextWf (execTxStreamWrite i s) :=
  hs.arrive fun hu => by
    split
    · exact hu.writeAtPort
    · exact hu

theorem execTxFrameDue (hs : s.Wf) : NextWf (execTxFrameDue p s) := by
  show State.Wf _
  split
  · exact hs
  · split
    · exact hs
    · dsimp only
      split
      · exact hs.tally64.count
      · exact hs.tally64.modPort

theorem noteClip (hs : s.Wf) : (noteClip p k s).Wf := ite hs.count.modPort.raisePort hs.count

theorem execEqEvaluation {want : List Int} (hs : s.Wf) : NextWf (execEqEvaluation p want s) :=
  ite hs (foldl hs.modPort _ fun _ ht => ht.noteClip)

/-! ### The lamp protocol -/

theorem changeOwner {o : Option Transport} (hs : s.Wf) : (changeOwner o c s).Wf := raise (withLamp hs)

theorem resend {r : Stored} (hs : s.Wf) : (resend r s).Wf := hs.deliver

theorem acceptCmd (hs : s.Wf) : (acceptCmd z n s).Wf := by
  unfold Machine.acceptCmd
  split
  · exact hs.count
  · split
    · exact hs.count.resend
    · exact ite hs.refuse (ite hs.refuse (ite hs.refuse (ite hs.refuse (withLamp hs))))

theorem receiveMsg {via : Transport} (hs : s.Wf) : (receiveMsg via d s).Wf :=
  ite hs.count (acceptCmd (ite hs.changeOwner hs))

theorem execLampFrameRx (hs : s.Wf) : NextWf (execLampFrameRx d s) := by
  show State.Wf _
  split
  · exact hs
  · split
    · exact hs.count
    · exact hs.receiveMsg

theorem runCmd {via : Transport} {act : Cmd → State → State} (hs : s.Wf) (hact : ∀ {u : State} {c}, u.Wf → (act c u).Wf) :
    (runCmd via kind act s).Wf := by
  unfold Machine.runCmd
  split
  · exact hs
  · exact ite hs (ite (hact hs) hs.respond)

/-! ### The keeper flash -/

/-- The flash changes in what is not its data. -/
theorem withFlash {x : Flash} (hs : s.Wf) (hx : x.data = s.flash.data := by rfl) : ({ s with flash := x } : State).Wf := by
  obtain ⟨hparams, hflash, hrest⟩ := hs
  exact ⟨hparams, hx ▸ hflash, hrest⟩

theorem noteFlash (hs : s.Wf) : (noteFlash ups s).Wf := withFlash hs

theorem countWord (hs : s.Wf) : (countWord w s).Wf := by
  unfold Machine.countWord
  split
  · exact hs
  · exact ite (raise (withFlash hs.count)) hs.count
  · exact hs.count.raise

theorem freeWord (hs : s.Wf) : s.freeWord.2.Wf := hs

theorem freeBit (hs : s.Wf) : s.freeBit.2.Wf := hs

theorem freeBytes (hs : s.Wf) : (s.freeBytes n).2.Wf := hs

theorem freeBelow (hs : s.Wf) : (s.freeBelow n).2.Wf := hs

theorem readWords (hs : s.Wf) : (readWords n w s).2.Wf := by
  induction n generalizing s w with
  | zero => exact hs
  | succ n ih =>
    refine ih (countWord ?_)
    split
    · exact hs.freeBytes
    · exact hs

theorem putWord (hs : s.Wf) : (putWord w d s).Wf := by
  obtain ⟨hparams, hflash, hrest⟩ := hs
  exact ⟨hparams, wf_flashPut hflash _ _, hrest⟩

theorem putWords (hs : s.Wf) : (putWords n w d s).Wf := by
  induction n generalizing s w d with
  | zero => exact hs
  | succ n ih => exact ih hs.putWord

theorem countErase (hs : s.Wf) : (countErase sec s).Wf := ite (raise (withFlash hs)) (withFlash hs)

theorem eraseSector (hs : s.Wf) : (eraseSector sec s).Wf := by
  obtain ⟨hparams, hflash, hrest⟩ := hs
  exact countErase ⟨hparams, wf_flashBlank hflash _ _, hrest⟩

theorem partErase (hs : s.Wf) : (partErase sec s).Wf := by
  obtain ⟨hparams, hflash, hrest⟩ := hs
  exact ⟨hparams, hflash.tabBlock _ _ _, hrest⟩

theorem failErase (hs : s.Wf) : (failErase sec s).Wf := hs.partErase.countErase.raise

theorem recordJournal {x : Option Selection} (hs : s.Wf) : (recordJournal x s).Wf := by
  unfold Machine.recordJournal
  split
  · exact hs.putPar.putPar
  · exact hs.putPar.putPar

theorem journalStep {j : JournalStep} (hs : s.Wf) : (journalStep clean j s).2.Wf := by
  unfold Machine.journalStep
  cases j with
  | erase =>
    dsimp only
    split
    · exact hs.freeBit.failErase
    · exact eraseSector (ite hs hs.freeBit)
  | put =>
    dsimp only
    split
    · exact hs
    · exact hs.putWord.recordJournal
  | rolled => exact hs.raise

theorem journalSteps {js : List JournalStep} (hs : s.Wf) : (journalSteps clean js s).2.Wf := by
  induction js generalizing s with
  | nil => exact hs
  | cons j js ih =>
    have hstep := hs.journalStep (clean := clean) (j := j)
    unfold Machine.journalSteps
    split
    · next heq => rw [heq] at hstep; exact ih hstep
    · exact hstep

theorem flashRead (hs : s.Wf) : (flashRead z s).Wf := ite hs.respond (ite hs.respond hs.readWords.respond)

theorem flashProgram (hs : s.Wf) : (flashProgram z s).Wf := by
  refine ite hs.respond (ite hs.respond (ite hs.respond ?_))
  split
  · exact hs.respond
  · exact withFlash hs.startCmd

theorem execFlashProgramDone (hs : s.Wf) : NextWf (execFlashProgramDone s) := by
  show State.Wf _
  split
  · exact ite hs (respond (putWords (withFlash hs)))
  · exact hs

theorem flashErase (hs : s.Wf) : (flashErase z s).Wf :=
  ite hs.respond (ite hs.respond (ite hs.respond (withFlash hs.startCmd)))

theorem execFlashEraseDone (hs : s.Wf) : NextWf (execFlashEraseDone clean s) := by
  show State.Wf _
  split
  · exact ite hs (respond (ite (eraseSector (withFlash hs)) (failErase (withFlash hs))))
  · exact hs

theorem flashSwap (hs : s.Wf) : (flashSwap z s).Wf := by
  unfold Machine.flashSwap
  dsimp only
  have hread := hs.readWords (n := 8) (w := 2048 * leAt z.body 0 1)
  generalize Machine.readWords 8 (2048 * leAt z.body 0 1) s = r at *
  exact ite hs.respond (ite hs.respond (ite hs.respond (ite hread.respond (ite hread.respond (withFlash hread.startCmd)))))

theorem execFlashSwapDone (hs : s.Wf) : NextWf (execFlashSwapDone clean s) := by
  show State.Wf _
  split
  · exact ite hs (respond (journalSteps (withFlash hs)))
  · exact hs

theorem partProgram (hs : s.Wf) : (partProgram w d s).Wf := ite (withFlash (putWord hs)) hs

theorem partStep {j : JournalStep} (hs : s.Wf) : (partStep j s).Wf := by
  unfold Machine.partStep
  cases j with
  | erase => exact hs.partErase
  | put => exact ite hs.partProgram hs
  | rolled => exact hs

theorem cutFlash (hs : s.Wf) : (cutFlash s).Wf := by
  have ht : ({ s with flash := { s.flash with op := none } } : State).Wf := withFlash hs
  unfold Machine.cutFlash
  generalize ({ s with flash := { s.flash with op := none } } : State) = t at *
  split
  · exact hs
  · exact ite (partProgram (putWords ht.freeBelow)) (putWords ht.freeBelow)
  · exact ht.partErase
  · dsimp only
    split
    · exact partStep (journalSteps ht.freeBelow)
    · exact journalSteps ht.freeBelow

/-! ### The sweep -/

theorem putPlace {x : Golden} (hs : s.Wf) : (putPlace x d s).Wf := by
  unfold Machine.putPlace
  split
  · refine hs.modGal fun ⟨hcfg, hstore, hrest⟩ => ?_
    split
    · exact ⟨hcfg.tabBlock _ _ _, hstore, hrest⟩
    · exact ⟨hcfg, hstore.tabBlock _ _ _, hrest⟩
  · exact hs.modGal id
  · exact hs.writeFrame

theorem applyPolicy (hs : s.Wf) : (applyPolicy pol g s).Wf := by
  unfold Machine.applyPolicy
  split
  · exact ite (hs.count.modGal id) hs.count.galleryReset
  · exact hs.markDead
  · exact hs

theorem countEssential (hs : s.Wf) : (countEssential cfa s).Wf := ite hs.count.count hs.count

theorem raiseEssential (hs : s.Wf) : (raiseEssential cfa n pol s).Wf := hs.raise

theorem recordRepair {essential inUse : Bool} (hs : s.Wf) : (recordRepair cfa n essential inUse s).Wf :=
  ite hs.countEssential.putPar.applyPolicy.raiseEssential (ite hs.count.count hs.count)

theorem nextEntry (hs : s.Wf) : (nextEntry s).Wf :=
  ite (withSweep hs) (ite (raise (withSweep (tally (withSweep hs)))) (withSweep (tally (withSweep hs))))

theorem endEntry (hs : s.Wf) : (endEntry s).Wf := nextEntry (withSweep hs)

theorem startSweepPass (hs : s.Wf) : (startSweepPass s).Wf := withSweep hs

theorem readFlash (hs : s.Wf) : (readFlash a n s).2.Wf := hs.readWords

theorem noteMapBad (hs : s.Wf) : (noteMapBad a cfa s).Wf := ite hs.count (raise (withSweep hs.count))

theorem classify {x : Golden} {diff : List Nat} (hs : s.Wf) : (classify x diff s).2.Wf := by
  unfold Machine.classify
  split
  · exact hs
  · dsimp only
    split
    · exact hs.readFlash
    · exact hs.readFlash.noteMapBad

theorem goldenFails {x : Golden} (hs : s.Wf) : (goldenFails i x s).Wf := applyPolicy (raise (withSweep hs))

theorem detectOnly {x : Golden} (hs : s.Wf) : (detectOnly i x s).Wf :=
  ite hs.countEssential.applyPolicy (raiseEssential (withSweep (freeWord hs.countEssential.applyPolicy)))

end Sys2Proof.Machine.State.Wf
end

section
/-!
SUPPORT for O60: the sweep's entries, the domains, events, resets, the clock, power and tallies keep the canonical form.
-/

namespace Sys2Proof.Machine.State.Wf

variable {s : State} {g h k n i t a b c p l e w sec status cause kind port cfa pol : Nat} {d : List Byte} {ups : List Upset}

theorem mismatch {x : Golden} {flips : List Nat} (hs : s.Wf) : (mismatch i x flips s).Wf := by
  have hdata {P : Prop} [Decidable P] : (if P then s else (Machine.readFlash (s.img.base + x.frameOff + 16) 512 s).2).Wf := ite hs hs.readFlash
  exact ite hs.detectOnly.endEntry (ite hs.recordRepair.endEntry (ite (endEntry (goldenFails hdata)) (askPort (withSweep (classify hdata)))))

theorem execSweepEntryDue {flips : List Nat} (hs : s.Wf) : NextWf (execSweepEntryDue flips ups s) := by
  show State.Wf _
  dsimp only
  split
  · exact hs
  · split
    · exact hs
    · exact ite hs.noteFlash.nextEntry (ite (ite hs.noteFlash.endEntry hs.noteFlash.mismatch)
        (ite (endEntry (ite hs.noteFlash hs.noteFlash.putPlace)) (mismatch (ite hs.noteFlash hs.noteFlash.putPlace))))

theorem repairPlace {x : Golden} (hs : s.Wf) : (repairPlace x s).Wf := ite (hs.modGal id) hs.writeFrame

theorem execSweepRepairWrite (hs : s.Wf) : NextWf (execSweepRepairWrite s) := by
  show State.Wf _
  split
  · exact hs
  · split
    · exact hs
    · exact ite hs (ite hs.endEntry hs.repairPlace.recordRepair.endEntry)

theorem restartSweep (hs : s.Wf) : (restartSweep c s).Wf :=
  raise (count (foldl (withSweep hs) (List.range 17) fun _ ht => ht.modGal id))

/-! ### Domains -/

theorem dropRepair (hs : s.Wf) : (dropRepair k s).Wf := by
  unfold Machine.dropRepair
  split
  · split
    · exact ite hs.nextEntry hs
    · exact hs
  · exact hs

theorem loseDomain (hs : s.Wf) : (loseDomain k s).Wf :=
  have hdropped {x : Sweep} : (Machine.dropRepair k { s with sweep := x }).Wf := dropRepair (withSweep hs)
  ite hdropped.dropWriters (ite (withTnd hdropped.dropWriters) hdropped)

theorem eachLink {f : Nat → State → State} (hs : s.Wf) (hf : ∀ {u : State} {l}, u.Wf → (f l u).Wf) : (eachLink p f s).Wf :=
  hs.foldl [false, true] fun _ ht => by
    split
    · exact hf ht
    · exact ht

theorem portLeaves (hs : s.Wf) : (portLeaves p s).Wf := hs.seamDown.modSeam.eachLink dropLink

theorem portReturns {fresh : Bool} (hs : s.Wf) : (portReturns fresh p s).Wf :=
  eachLink (ite hs.modPort.modSeam hs.modPort) fun hu => startLink (ite hu.armSysref hu)

theorem leaveOn {x : DomSt} (hs : s.Wf) : (leaveOn k x s).Wf :=
  have hleft {P : Prop} [Decidable P] {f : Dom → Dom} {ps : List Nat} :
      (if P then ps.foldl (fun s p => Machine.portLeaves p s) (s.modDom k f) else s.modDom k f).Wf :=
    ite (hs.modDom.foldl _ fun _ ht => ht.portLeaves) hs.modDom
  ite hleft.loseDomain hleft

theorem openDomain (hs : s.Wf) : (openDomain k s).Wf := by
  unfold Machine.openDomain
  extract_lets u x v w y
  have hv : v.Wf := withPwr hs.modDom
  have hw : w.Wf := ite hv.modSeq hv
  have hy : y.Wf := ite hw.galleryReset hw
  exact hy.releaseHeld.damperDone

/-! ### Events and resets -/

theorem loseReport {t : Tick} (hs : s.Wf) : (loseReport e t s).Wf := count (withEvt hs)

theorem queueReport {t : Tick} (hs : s.Wf) : (queueReport e t d s).Wf := ite hs.loseReport (withEvt hs)

theorem takeLatch {x : Latch} (hs : s.Wf) : (takeLatch x s).Wf := ite hs.count hs.count.queueReport

theorem takeAll (hs : s.Wf) : (takeAll s).Wf := foldl (withEvt hs) _ fun _ ht => ht.takeLatch

theorem execReportSend (hs : s.Wf) : NextWf (execReportSend s) := by
  show State.Wf _
  split
  · exact hs
  · split
    · exact hs
    · split
      · exact hs
      · dsimp only
        split
        · exact ite hs hs
        · exact ite (ringPut (withEvt hs)) hs

theorem clearAll {mode : ClockMode} (hs : s.Wf) : (clearAll mode n s).Wf := by
  obtain ⟨-, hflash, -⟩ := hs.cutFlash
  exact ⟨.nil _, hflash, .nil _, fun _ => .reset⟩

theorem foldl_snd {α β : Type} {f : β × State → α → β × State} {q : β × State} (hq : q.2.Wf) (l : List α)
    (hf : ∀ {q : β × State} (x : α), q.2.Wf → (f q x).2.Wf) : (l.foldl f q).2.Wf := by
  induction l generalizing q with
  | nil => exact hq
  | cons x l ih => exact ih (hf x hq)

theorem latchStraps {x y : BitVec 4} (hs : s.Wf) : (latchStraps x y s).2.Wf :=
  foldl_snd (q := (x, s)) hs (List.range 4) fun i hq => by
    split
    · exact hq.freeBit
    · exact hq

theorem execColdRstnRise {x y : BitVec 4} {ratios : List Nat} {good : Bool} (hs : s.Wf) : NextWf (execColdRstnRise x y ratios good s) := by
  unfold Machine.execColdRstnRise
  split
  · exact hs
  · split
    · trivial
    · exact hs.latchStraps

theorem stopClock {x : StopCause} (hs : s.Wf) : (stopClock x s).Wf := hs

theorem execRefLost (hs : s.Wf) : NextWf (execRefLost s) := withClk (ite hs.stopClock hs)

theorem execClockStartFail {x : Bool} (hs : s.Wf) : NextWf (execClockStartFail x s) :=
  ite (ite (withClk hs.stopClock) hs.stopClock) hs

theorem startClock (hs : s.Wf) : (startClock s).Wf := hs

theorem execPllLock (hs : s.Wf) : NextWf (execPllLock n s) := by
  show State.Wf _
  split
  · exact hs.startClock
  · exact startClock (s := { Machine.clearAll .relocking 3 s with board := _, pwr := _, lamp := _, clk := _ }) (clearAll (mode := .relocking) (n := 3) hs)
  · exact hs

theorem execBrownOut (hs : s.Wf) : NextWf (execBrownOut n s) := ite hs (clearAll (mode := .brownOut) (n := 2) hs)

theorem checkSlip (hs : s.Wf) : (checkSlip s).Wf := ite hs.count.raise hs

theorem execSyncCapture {x : Bool} (hs : s.Wf) : NextWf (execSyncCapture x s) := by
  refine ite hs ?_
  extract_lets _ u v _ w
  have hu : u.Wf := withTnd hs
  have hv : v.Wf := ite hu.raise hu
  have hw : w.Wf := withClk hv
  exact ite (withClk hw) hw.checkSlip

end Sys2Proof.Machine.State.Wf
end

section
/-!
SUPPORT for O60: voltage, temperature, tallies and pin faults keep the canonical form.
-/

namespace Sys2Proof.Machine.State.Wf

variable {s : State} {g h k n i t a b c p l e w sec status cause kind port key : Nat} {d : List Byte} {tj : BitVec 16}

/-! ### Voltage and temperature -/

theorem marginGate {low top : Bool} (hs : s.Wf) : (marginGate low top g s).Wf :=
  ite (ite (withPwr (ite (raise (withPwr hs)) (withPwr hs))) (withPwr hs)) (withPwr hs)

theorem moveCode (hs : s.Wf) : (moveCode w s).Wf := hs

theorem avsLoop {low high : BitVec 17} (hs : s.Wf) : (avsLoop low high s).Wf := by
  unfold Machine.avsLoop
  extract_lets run _ u v want pin out w due
  have hu : u.Wf := withPwr hs
  have hw : w.Wf := hu.moveCode
  exact ite (raise (withPwr hw)) hw

theorem execAvsEvaluation {low high : BitVec 17} (hs : s.Wf) : NextWf (execAvsEvaluation low high s) :=
  have hgated {l : List Nat} {top : Bool} : (l.foldl (fun s g => Machine.marginGate (hasBit low g) top g s) s).Wf :=
    hs.foldl _ fun _ ht => ht.marginGate
  ite hs (ite (ite hs hs.moveCode) (ite hgated hgated.avsLoop))

theorem setTj (hs : s.Wf) : (setTj tj s).Wf := hs

theorem alertAt (hs : s.Wf) : (alertAt n s).Wf := ite (raise (withPwr hs)) hs

theorem thermDown (hs : s.Wf) : (thermDown s).Wf := by
  unfold Machine.thermDown
  split
  · exact hs
  · exact withPwr (ite hs hs.raise)

theorem thermUp (hs : s.Wf) : (thermUp s).Wf := by
  unfold Machine.thermUp
  split
  · exact hs
  · exact ite (raise (withPwr hs)) (withPwr hs)

theorem execThermTrip (hs : s.Wf) : NextWf (execThermTrip tj s) := ite (ite hs.setTj.thermDown hs.setTj) hs

theorem execThermGateStep (hs : s.Wf) : NextWf (execThermGateStep tj s) :=
  ite (ite hs.setTj.thermDown (ite hs.setTj.thermUp hs.setTj)) hs

theorem critOff (hs : s.Wf) : (critOff k s).Wf :=
  ite hs (damperDone (releaseHeld (modDom (leaveOn (ite (withCapt hs) hs)))))

theorem execThermCritical (hs : s.Wf) : NextWf (execThermCritical tj n s) :=
  ite (ite (raise (withPwr (hs.setTj.alertAt.foldl _ fun _ ht => ht.critOff))) hs.setTj.alertAt) hs

/-! ### Tallies -/

theorem startTally {ends : Bool} (hs : s.Wf) : (startTally p ends s).Wf := hs

theorem tallyFails (hs : s.Wf) : (tallyFails p c s).Wf := hs.modPort.count.raise

theorem tallyRecord (hs : s.Wf) : (tallyRecord p d s).Wf := by
  unfold Machine.tallyRecord
  extract_lets rec' u q r
  have hu : u.Wf := hs.count.foldl (List.range 8) fun _ ht => ht.putPar
  exact ite hu.tallyFails (ite hu.modPort.raise (ite hu.tallyFails hu.modPort))

theorem execTallyReadDone {x : TallyAnswer} (hs : s.Wf) : NextWf (execTallyReadDone p x s) := by
  show State.Wf _
  split
  · exact hs
  · split
    · exact hs.tallyRecord
    · exact ite hs.tallyFails hs
    · exact hs.tallyFails

theorem writeTallyCtrl {v : Word} (hs : s.Wf) : (writeTallyCtrl p v s).2.Wf := by
  unfold Machine.writeTallyCtrl
  split
  · exact hs
  · split
    · exact hs
    · split
      · exact hs
      · exact ite hs.startTally hs

theorem execPresnChange {x : Bool} (hs : s.Wf) : NextWf (execPresnChange p x s) :=
  ite hs (ite hs.modPort (ite hs.modPort.count.modPort.raise hs.modPort.count.modPort.raise))

/-! ### Pin faults -/

theorem setKind (hs : s.Wf) : (setKind key kind s).Wf := hs

theorem countLine (hs : s.Wf) : (countLine n s).Wf := hs

theorem portFault (hs : s.Wf) : (portFault p b kind s).Wf := hs.modPort.count

theorem portFaultEnds (hs : s.Wf) : (portFaultEnds p b s).Wf := hs

theorem busFault (hs : s.Wf) : (busFault k l kind s).Wf := foldl (raise hs.setKind) _ fun _ ht => ht.portFault

theorem lineProbe (hs : s.Wf) : (lineProbe n kind s).Wf :=
  ite (raise (ite (withTnd hs.setKind) hs.setKind)) (raise (countLine (ite (withTnd hs.setKind) hs.setKind)))

theorem probe {act : Nat → State → State} (hs : s.Wf) (hact : ∀ {u : State} {k}, u.Wf → (act k u).Wf) :
    (probe key n kind act s).Wf := by
  unfold Machine.probe
  dsimp only
  split
  · exact hact (withPins hs)
  · exact withPins hs

theorem execPinBiasProbe {x : Pin} (hs : s.Wf) : NextWf (execPinBiasProbe x kind s) := by
  show State.Wf _
  split
  · exact hs
  · split
    · exact ite hs (hs.probe lineProbe)
    · exact hs.probe lineProbe
    · exact ite hs (hs.probe fun hu => ite hu.setKind hu.setKind.raise)
    · exact ite hs (hs.probe fun hu => ite hu.setKind hu.setKind.raise)
    · exact ite hs (hs.probe fun hu => ite hu.setKind hu.setKind.raise)
    · exact ite hs (hs.probe fun hu => ite hu hu.busFault)
    · exact ite hs (hs.probe fun hu => ite hu.portFaultEnds hu.portFault.raise)
    · exact ite hs (hs.probe fun hu => ite hu.portFaultEnds.portReset hu.portFault.raiseLane)
    all_goals exact hs

theorem shortLine (hs : s.Wf) : (shortLine n kind s).Wf := raise (withPins hs.setKind.countLine)

theorem execDriverReadbackFault {x : Pin} (hs : s.Wf) : NextWf (execDriverReadbackFault x kind s) := by
  show State.Wf _
  split
  · exact hs
  · split
    · exact ite hs.shortLine hs
    · exact ite hs.shortLine hs
    · exact ite hs.setKind.raise hs
    · exact ite hs.setKind.raise hs
    · exact ite hs.busFault hs
    · exact ite hs.portFault.modPort.raiseLane hs
    all_goals exact hs

theorem execTallyBusProbe (hs : s.Wf) : NextWf (execTallyBusProbe k l kind s) :=
  ite (foldl hs.setKind _ fun _ ht => ite ht.portFaultEnds.startTally ht.portFaultEnds) hs

end Sys2Proof.Machine.State.Wf
end

section
/-!
SUPPORT for O60: the host's interface, the delivery of packets and the seam links keep the canonical form.
-/

namespace Sys2Proof.Machine.State.Wf

variable {s : State} {g h k n i t a b c p l e w off status width gen : Nat} {d : List Byte} {v : Word} {q : Packet}

/-! ### The host's interface -/

theorem readParam (hs : s.Wf) : (s.readParam n).2.Wf := by
  unfold State.readParam
  split
  · exact hs
  · split <;> exact hs

theorem readEntry (hs : s.Wf) : (readEntry n s).2.2.Wf := by
  unfold Machine.readEntry
  split
  · exact hs
  · split
    · exact hs
    · split
      · exact hs
      · exact hs.readParam

theorem readEntries (hs : s.Wf) : (readEntries k n s).2.Wf := by
  induction k generalizing n s with
  | zero => exact hs
  | succ k ih => exact ih hs.readEntry

theorem drainRing (hs : s.Wf) : (drainRing k s).Wf := by
  induction k generalizing s with
  | zero => exact hs
  | succ k ih =>
    unfold Machine.drainRing
    split
    · exact ite (ih (ringPut (withPcie hs))) hs
    · exact hs

theorem fillDirect (hs : s.Wf) : (fillDirect s).Wf := by
  unfold Machine.fillDirect
  refine ite hs ?_
  split
  · exact raiseVector (withPcie hs)
  · exact ite hs (raiseVector (withPcie hs))
  · exact hs

theorem ackResponse (hs : s.Wf) : (ackResponse s).Wf := fillDirect (withPcie hs)

theorem doorbellError (hs : s.Wf) : (doorbellError s).Wf := withPcie hs

theorem writeVectors {l : List Word} (hs : s.Wf) : (writeVectors off l s).Wf :=
  releaseVectors (hs.foldl _ fun _ ht => ite (withPcie ht) ht)

theorem execCmdSlotWrite (hs : s.Wf) : NextWf (execCmdSlotWrite k off d s) :=
  ite hs (ite hs.writeVectors (ite hs (withPcie hs)))

theorem doorbell (hs : s.Wf) : (doorbell v s).Wf := by
  unfold Machine.doorbell
  extract_lets ack k n t
  have ht : t.Wf := ite hs.ackResponse hs
  exact ite ht (ite ht.doorbellError (withPcie ht))

theorem execCmdDoorbell (hs : s.Wf) : NextWf (execCmdDoorbell v s) := ite hs.doorbell hs

theorem execRspAck (hs : s.Wf) : NextWf (execRspAck s) := ite hs.ackResponse hs

theorem execSlotCopy (hs : s.Wf) : NextWf (execSlotCopy s) := by
  show State.Wf _
  split
  · exact hs
  · exact ite hs (receiveMsg (ite (raiseVector (withPcie hs)) (withPcie hs)))

theorem execRingDoorbell (hs : s.Wf) : NextWf (execRingDoorbell v s) :=
  ite hs (ite hs.doorbellError (drainRing (withPcie hs)))

theorem writeRingCtrl (hs : s.Wf) : (writeRingCtrl v s).2.Wf := by
  unfold Machine.writeRingCtrl
  dsimp only
  split
  · split
    · exact hs
    · exact drainRing (withPcie hs)
  · exact withPcie hs

theorem execRingArm (hs : s.Wf) : NextWf (execRingArm v s) := ite (hs.hostEntry hs.writeRingCtrl) hs

theorem execMsixHoldoffExpiry (hs : s.Wf) : NextWf (execMsixHoldoffExpiry s) := ite hs.signalRing hs

theorem noteBulkError (hs : s.Wf) : (noteBulkError status off s).Wf := ite (raise (withPcie hs.count.putPar)) hs.count.putPar

theorem splitWrite (hs : s.Wf) : (splitWrite n a d s).Wf := hs.foldl _ fun _ ht => ht.hostWrite

theorem writeAtPcie (hs : s.Wf) : (writeAtPcie q s).Wf := ite (withPcie hs) (ite hs.count hs.splitWrite)

theorem endMessage (hs : s.Wf) : (endMessage q s).Wf := by
  refine ite ?_ hs
  split
  · exact hs.endTrans
  · exact hs

theorem messageAtPcie (hs : s.Wf) : (messageAtPcie q s).Wf := ite (withPcie hs) hs.raiseVector

theorem releaseUpstream (hs : s.Wf) : (releaseUpstream s).Wf :=
  foldl (withPcie hs) _ fun _ ht => ite ht.writeAtPcie ht.messageAtPcie

theorem execUpstreamWrite (hs : s.Wf) : NextWf (execUpstreamWrite i s) := hs.arrive writeAtPcie

theorem execUpstreamMsix (hs : s.Wf) : NextWf (execUpstreamMsix i s) := hs.arrive fun ht => ht.endMessage.messageAtPcie

theorem pcieClear (hs : s.Wf) : (pcieClear s).Wf := by
  have hu {x : Pcie} {y : Lamp} {z : Mesh} : (Machine.releaseUpstream { s with pcie := x, lamp := y, mesh := z }).Wf :=
    releaseUpstream hs
  exact ite hu.changeOwner hu

theorem execPcieReset (hs : s.Wf) : NextWf (execPcieReset s) := ite hs.pcieClear hs

theorem execPcieLinkDown (hs : s.Wf) : NextWf (execPcieLinkDown s) := ite (raise (pcieClear (withPcie hs))) hs

theorem execPcieLinkUp (hs : s.Wf) : NextWf (execPcieLinkUp width gen s) := ite (raise (withPcie hs)) hs

theorem cfgWrite (hs : s.Wf) : (cfgWrite n v s).Wf := by
  have hc {x : Pcie} : ({ s with pcie := x } : State).Wf := withPcie hs
  exact ite hc.pcieClear (releaseVectors (ite hc.releaseUpstream hc))

theorem execPcieConfigRequest {x : Bool} (hs : s.Wf) : NextWf (execPcieConfigRequest x n v s) :=
  ite hs (ite hs.cfgWrite (withPcie hs))

/-! ### Delivery -/

theorem writeAtGallery (hs : s.Wf) : (writeAtGallery g q s).Wf := ite (ite hs.count hs.writeBeats) (ite (hs.modGal id) hs.count)

theorem writeAt {x : Target} (hs : s.Wf) : (writeAt x q s).Wf := by
  cases x with
  | gal g => exact hs.writeAtGallery
  | port k => exact hs.writeAtPort
  | keeper => exact hs.writeAtKeeper
  | pcie => exact hs.writeAtPcie
  | _ => exact hs.count

theorem execMeshWrite (hs : s.Wf) : NextWf (execMeshWrite i s) := hs.arrive writeAt

theorem replyRead (hs : s.Wf) : (replyRead q d s).Wf := hs.present

theorem readAtGallery (hs : s.Wf) : (readAtGallery g q s).Wf := by
  have hr := hs.readBeats (g := g) (req := 32) (n := byteCount q / 16) (a := q.addr)
  unfold Machine.readAtGallery
  split
  · exact hs.replyError
  · split
    · exact hs.replyError
    · split
      next heq => rw [heq] at hr; exact ite hr.replyError hr.replyRead

theorem readAt {x : Target} (hs : s.Wf) : (readAt x q s).Wf := by
  cases x with
  | gal g => exact hs.readAtGallery
  | keeper => exact hs.readAtKeeper
  | tinder => exact ite hs.replyRead hs.replyError
  | _ => exact hs.replyError

theorem execMeshReadReq (hs : s.Wf) : NextWf (execMeshReadReq i s) := hs.arrive readAt

theorem storeAnswer {x : Purpose} (hs : s.Wf) : (storeAnswer x d s).Wf := by
  cases x with
  | dma g id addr n => exact ite hs.writeBeats hs
  | _ => exact hs

theorem answerAt (hs : s.Wf) : (answerAt q s).Wf := by
  unfold Machine.answerAt
  split
  · exact hs.count
  · exact ite hs.count.endTrans hs.storeAnswer.endTrans

theorem execMeshReadRsp (hs : s.Wf) : NextWf (execMeshReadRsp i s) := hs.arrive answerAt

theorem execMeshError (hs : s.Wf) : NextWf (execMeshError i s) := by
  refine hs.arrive fun {u} _ k hu => ?_
  split
  · exact hu.count
  · exact hu.endTrans

theorem execMeshMessage (hs : s.Wf) : NextWf (execMeshMessage i s) := by
  refine hs.arrive fun {u} x k hu => ?_
  split
  · exact hu.endMessage.messageAtPcie
  · exact hu.replyError

theorem execMeshWake (hs : s.Wf) : NextWf (execMeshWake i s) := by
  refine hs.arrive fun {u} x k hu => ?_
  split
  · exact hu
  · exact hu.count

/-! ### Seam links -/

theorem sendNak (hs : s.Wf) : (sendNak p s).Wf := ite hs hs.modSeam.count

theorem noteEpisode (hs : s.Wf) : (noteEpisode p a c s).Wf := hs.putPar

theorem takeAck (hs : s.Wf) : (takeAck p a s).Wf := by
  refine ite hs ?_
  split
  · exact ite hs.modSeam hs.modSeam.modSeam.noteEpisode
  · exact hs.modSeam

theorem takeControl (hs : s.Wf) : (takeControl p d s).Wf := hs.modSeam.takeAck

theorem badBlock (hs : s.Wf) : (badBlock p s).Wf := ite hs.count.sendNak hs.count.modSeam

theorem receiveBlock {act : State → State} (hs : s.Wf) (hact : (act s).Wf) : (receiveBlock k p d act s).Wf :=
  ite hs (ite hs.badBlock (ite hs hact))

theorem plainBlock (hs : s.Wf) : (plainBlock p d s).Wf := ite hs.takeControl.sendNak hs.takeControl

theorem execSeamBlockLock (hs : s.Wf) : NextWf (execSeamBlockLock p s) := ite (ite hs.modPort.modSeam.raiseLink hs.modPort) hs

theorem trainBlock (hs : s.Wf) : (trainBlock p d s).Wf := by
  refine ite hs.modSeam (ite hs.modSeam ?_)
  split
  · exact ite hs.modSeam hs.modSeam.modSeam.raiseLink
  · exact ite hs.modSeam.modSeam hs.modSeam

theorem invertLane (hs : s.Wf) : (invertLane p s).Wf := ite hs.modPort.raiseLane hs.modPort

theorem execSeamTrainRx {x : Bool} (hs : s.Wf) : NextWf (execSeamTrainRx p d x s) :=
  ite hs.invertLane (hs.receiveBlock (ite hs.modSeam.seamDown hs.modSeam.trainBlock))

theorem seamUpNow (hs : s.Wf) : (seamUpNow p s).Wf := hs.modSeam.raiseLink

theorem noteDiff {x : Int} (hs : s.Wf) : (noteDiff p x s).Wf :=
  ite (ite hs.putPair.modSeam.raiseLink hs.putPair.modSeam) hs.putPair

theorem timeBlock (hs : s.Wf) : (timeBlock p d t s).Wf :=
  modSeam (ite hs (ite hs.putPar.noteDiff.seamUpNow hs.putPar.noteDiff))

theorem execSeamTimeRx {x : Tick} (hs : s.Wf) : NextWf (execSeamTimeRx p d x s) := by
  have hp {P : Prop} [Decidable P] : (if P then Machine.plainBlock p d s else s).Wf := ite hs.plainBlock hs
  exact hs.receiveBlock (ite hp.timeBlock hp)

theorem execSeamTimeSend (hs : s.Wf) : NextWf (execSeamTimeSend p s) := ite hs.modSeam hs

theorem seamPacket (hs : s.Wf) : (seamPacket p q s).Wf := ite hs.present (ite hs.count.replyError hs.count)

theorem seamUnit {x : Bool} (hs : s.Wf) : (seamUnit p x d s).Wf := by
  unfold Machine.seamUnit
  extract_lets o
  clear_value o
  cases o
  · exact hs
  · exact ite hs.modSeam.seamPacket hs.modSeam

theorem unitBlock (hs : s.Wf) : (unitBlock p d s).Wf :=
  ite hs.takeControl.modSeam.count.seamUnit (ite hs.takeControl.sendNak hs.takeControl)

theorem execSeamUnitRx (hs : s.Wf) : NextWf (execSeamUnitRx p d s) := hs.receiveBlock (ite hs.unitBlock hs)

theorem execSeamIdleRx (hs : s.Wf) : NextWf (execSeamIdleRx p d s) := hs.receiveBlock (ite hs.plainBlock hs)

theorem startPass (hs : s.Wf) : (startPass p s).Wf := by
  unfold Machine.startPass
  extract_lets q
  split
  · exact ite hs.noteEpisode.seamDown hs.modSeam.count
  · exact hs.modSeam.count

end Sys2Proof.Machine.State.Wf
end

section
/-!
SUPPORT for O60: parameters and the lamp's commands keep the canonical form.
-/

namespace Sys2Proof.Machine.State.Wf

variable {s : State} {g h k n i t a b c p l e w status code : Nat} {d : List Byte} {v old : Word} {q : Packet} {z : Cmd}
  {via : Transport}

/-! ### Seam links: replay and sending -/

theorem execSeamNakRx (hs : s.Wf) : NextWf (execSeamNakRx p d s) :=
  hs.receiveBlock (ite hs (ite hs.plainBlock hs.plainBlock.startPass))

theorem execSeamReplayTimeout (hs : s.Wf) : NextWf (execSeamReplayTimeout p s) := ite hs.startPass hs

theorem execSeamBudgetExhausted (hs : s.Wf) : NextWf (execSeamBudgetExhausted p s) := by
  show State.Wf _
  split
  · exact ite hs.noteEpisode.seamDown hs
  · exact hs

theorem execSeamSignalLost (hs : s.Wf) : NextWf (execSeamSignalLost p s) := ite hs.seamDown.modPort hs

theorem writeSeamCtrl (hs : s.Wf) : (writeSeamCtrl p v s).2.Wf := ite hs.seamDown hs

theorem execSeamRetrain (hs : s.Wf) : NextWf (execSeamRetrain p v s) := ite (hs.hostEntry hs.writeSeamCtrl) hs

theorem seamSend (hs : s.Wf) : (seamSend k i q s).Wf :=
  ite (bounce (withMesh hs)) (ite hs (ite (endMessage (count (modSeam (withMesh hs)))) (count (modSeam (withMesh hs)))))

theorem execSeamPacketSend (hs : s.Wf) : NextWf (execSeamPacketSend i s) := by
  show State.Wf _
  split
  · exact hs
  · refine ite hs ?_
    split
    · exact hs.seamSend
    · exact bounce (withMesh hs)

/-! ### Parameters -/

theorem restoreDrivers (hs : s.Wf) : (restoreDrivers old v s).Wf := hs.foldl (List.range 9) fun _ ht => ite (withPins ht) ht

theorem applyParam (hs : s.Wf) : (applyParam n old v s).Wf :=
  ite hs.restoreDrivers (ite (ite hs.modPort (ite hs.modPort hs)) hs)

theorem storeParam (hs : s.Wf) : (storeParam n v s).Wf := ite hs hs.putPar.applyParam

theorem commitPair (hs : s.Wf) : (commitPair n v s).2.Wf := by
  unfold Machine.commitPair
  dsimp only
  split
  · exact hs
  · split
    · exact putPar (putPar hs)
    · exact hs

theorem writeTbAlign (hs : s.Wf) : (writeTbAlign v s).2.Wf := by
  unfold Machine.writeTbAlign
  split
  · exact hs
  · split
    · exact hs
    · split <;> exact hs

theorem writeOnly (hs : s.Wf) : (writeOnly n v s).2.Wf := by
  unfold Machine.writeOnly
  split
  · exact hs.writeTbAlign
  · split
    · exact hs.writeDeadSet
    · split
      · exact hs.writeDeadClear
      · split
        · exact hs.writeTallyCtrl
        · exact hs.writeSeamCtrl

theorem rwAction {act : Word → State → Nat × State} (hs : s.Wf) (h : rwAction n = some act) : (act v s).2.Wf := by
  unfold Machine.rwAction at h
  split at h
  · cases h; exact hs.writeRingCtrl
  · split at h
    · cases h; exact hs.writeAssayCtrl
    · split at h
      · split at h
        · cases h; exact hs.writeProtocol
        · split at h
          · cases h; exact hs.writeLinkCfg0
          · split at h
            · cases h; exact hs.writeSysref
            · cases h
      · split at h
        · split at h
          · cases h; exact hs.writeFlowCtrl
          · cases h
        · cases h

theorem writeRw {x : ParamInfo} (hs : s.Wf) : (writeRw x n v s).2.Wf := by
  unfold Machine.writeRw
  split
  · exact hs
  · split
    · exact hs.commitPair
    · split
      next heq => exact hs.rwAction heq
      next =>
        dsimp only
        split
        · exact hs
        · split
          · exact hs
          · split
            · exact hs.storeParam
            · exact hs

theorem writeParam (hs : s.Wf) : (writeParam n v s).2.Wf := by
  unfold Machine.writeParam
  split
  · exact hs
  · split
    · exact hs
    · split
      · exact hs
      · exact hs
      · split
        · exact hs.putPar
        · exact hs
      · split
        · exact hs.putPar
        · exact hs
      · exact hs.writeOnly
      · exact hs.writeRw

theorem execParamWrite (hs : s.Wf) : NextWf (execParamWrite n v s) := ite hs (hs.hostEntry hs.writeParam)

theorem applyEntries (hs : s.Wf) : (applyEntries d n k s).2.2.Wf := by
  induction n generalizing k s with
  | zero => exact hs
  | succ n ih =>
    unfold Machine.applyEntries
    dsimp only
    split
    · exact ih hs.writeParam
    · exact hs.writeParam

theorem setCmd (hs : s.Wf) : (setCmd z s).Wf := ite hs.respond hs.applyEntries.respondVia

theorem getCmd (hs : s.Wf) : (getCmd z s).Wf := ite hs.respond hs.readEntries.respond

theorem getPairCmd (hs : s.Wf) : (getPairCmd z s).Wf := by
  unfold Machine.getPairCmd
  dsimp only
  split
  · exact hs.respond
  · exact ite hs.respond (ite hs.respond hs.readParam.readParam.respond)

/-! ### Lamp commands -/

theorem galResetCmd (hs : s.Wf) : (galResetCmd z s).Wf :=
  ite hs.respond (ite hs.respond (ite hs.respond (respond (hs.foldl _ fun _ ht => ht.galleryReset))))

theorem portResetCmd (hs : s.Wf) : (portResetCmd z s).Wf :=
  ite hs.respond (ite hs.respond (ite hs.respond (respond (hs.foldl _ fun _ ht => ht.portReset))))

theorem configWriteCmd (hs : s.Wf) : (configWriteCmd z s).Wf := ite hs.startCmd.askPort hs.respond

theorem memFillCmd (hs : s.Wf) : (memFillCmd z s).Wf :=
  ite hs.respond (ite hs.respond (ite hs.respond (ite hs.respond (respond (tally (hs.modGal fun hx => hx.fillMem))))))

theorem memReadCmd (hs : s.Wf) : (memReadCmd z s).Wf := by
  unfold Machine.memReadCmd
  dsimp only
  split
  · exact hs.respond
  · exact foldl (withLamp hs.startCmd) _ fun _ ht => ht.request

theorem memWriteCmd (hs : s.Wf) : (memWriteCmd z s).Wf := by
  unfold Machine.memWriteCmd
  dsimp only
  split
  · exact hs.respond
  · exact respond (hs.foldl _ fun _ ht => ht.present)

theorem captArmCmd (hs : s.Wf) : (captArmCmd z s).Wf :=
  ite hs.respond (ite hs.respond (ite hs.count.respond (ite hs.respond hs.armCapture.respond)))

theorem releaseCapture (hs : s.Wf) : (releaseCapture s).Wf := by
  have hc : ({ s with capt := Capture.reset, pwr := { s.pwr with frozenDuty := [] } } : State).Wf := hs
  exact hc.foldl _ fun _ ht => ht.releaseHeld

theorem readHalted (hs : s.Wf) : (readHalted z g a n s).Wf := by
  have hr := hs.readBeats (g := g) (req := 32) (n := n / 16) (a := a)
  unfold Machine.readHalted
  split
  · exact hs.respond
  · split
    next heq => rw [heq] at hr; exact ite hr.respond hr.respond

theorem readSection (hs : s.Wf) : (readSection z g code a n s).Wf := by
  unfold Machine.readSection
  dsimp only
  split
  · exact hs.respond
  · exact ite hs.respond (ite hs.respond (ite hs.respond (ite hs.respond (ite hs.respond (ite hs.readHalted hs.respond)))))

theorem captReadCmd (hs : s.Wf) : (captReadCmd z s).Wf :=
  ite hs.respond (ite hs.respond (ite hs.respond (ite (ite hs.respond hs.respond) (ite hs.respond hs.readSection))))

theorem execTriggerLineRx {level : Bool} (hs : s.Wf) : NextWf (execTriggerLineRx l level s) :=
  ite hs (ite (tally (withTnd hs)) (withTnd hs))

theorem execTndCaptureArm (hs : s.Wf) : NextWf (execTndCaptureArm s) := by
  show State.Wf _
  split
  · exact hs
  · exact ite hs (armCapture (withTnd hs))

end Sys2Proof.Machine.State.Wf
end

section
/-!
SUPPORT for O60: loading an image keeps the canonical form.
-/

namespace Sys2Proof.Machine.State.Wf

variable {s : State} {g h k n i t a b c p l e w code detail off type : Nat} {d : List Byte} {ups : List Upset} {f : Fr}

theorem raiseDeferred (hs : s.Wf) : (raiseDeferred s).Wf := foldl (withClk hs) _ fun _ ht => ht.raise

theorem answerChunks (hs : s.Wf) : (answerChunks s).Wf := hs.foldl _ fun _ ht => ht.respond

theorem scanNow (hs : s.Wf) : (scanNow s).Wf := by
  have hr : ([2, 3].foldl (fun t sec => (Machine.readWords (s.scanned sec) (2048 * sec) t).2) s).Wf :=
    hs.foldl _ fun _ ht => ht.readWords
  unfold Machine.scanNow
  extract_lets sound torn x u _ v
  have hv : v.Wf := recordJournal (withKin hr)
  clear_value torn v
  cases torn with
  | none => exact hv
  | some k => exact hv.raise

theorem bank (hs : s.Wf) : (bank code detail s).Wf := by
  have hd : (s.domOrder.foldl (fun s d =>
      if (s.dom d).st = .off then s else (Machine.leaveOn d .off s).modDom d (fun _ => Dom.reset)) s).Wf :=
    hs.foldl _ fun _ ht => ite ht ht.leaveOn.modDom
  exact answerChunks (raise (raiseDeferred (putPar (withKin (ite hd hd.scanNow)))))

theorem toPhase (hs : s.Wf) : (toPhase n s).Wf := hs

theorem inPhase {act : State → State} (hs : s.Wf) (hact : (act s).Wf) : (inPhase n act s).Wf := ite hact hs

theorem streamRead (hs : s.Wf) : (streamRead off n s).2.Wf := by
  unfold Machine.streamRead
  split
  · exact hs
  · dsimp only
    split <;> exact hs.readWords

theorem streamRead_eq {o : Option Nat} {t : State} (hs : s.Wf) (h : Machine.streamRead off n s = (o, t)) : t.Wf := by
  have hr := hs.streamRead (off := off) (n := n)
  rwa [h] at hr

theorem execJournalScan (hs : s.Wf) : NextWf (execJournalScan ups s) := by
  refine hs.inPhase (ite hs ?_)
  have hn : (Machine.scanNow (Machine.noteFlash ups s)).Wf := hs.noteFlash.scanNow
  dsimp only
  split
  · exact withImg hn
  · exact ite hn hn.bank

theorem recordImage (hs : s.Wf) : (recordImage s).Wf := hs.putPar

theorem afterBoot (hs : s.Wf) : (afterBoot s).Wf := ite hs.recordImage.bank (ite (toPhase (withImg hs.recordImage)) hs.recordImage.toPhase)

theorem execBootRecordRead (hs : s.Wf) : NextWf (execBootRecordRead ups s) := by
  refine hs.inPhase (ite hs (ite hs.afterBoot ?_))
  have hn : (Machine.noteFlash ups s).Wf := hs.noteFlash
  dsimp only
  split
  · exact hn.readWords.bank
  · have hr {n w} : (Machine.readWords n w (Machine.noteFlash ups s)).2.Wf := hn.readWords
    split
    · exact afterBoot (withImg hr)
    · exact ite hr.afterBoot hr.bank
    · exact ite hr.afterBoot hr.bank

theorem execImageSelect (hs : s.Wf) : NextWf (execImageSelect ups s) := by
  have hr {n w} : (Machine.readWords n w (Machine.noteFlash ups s)).2.Wf := hs.noteFlash.readWords
  exact hs.inPhase (ite hs.bank (ite hr.bank (ite hr.bank (toPhase (recordImage (withImg hr))))))

theorem takeHeader (hs : s.Wf) : (takeHeader d s).Wf :=
  foldl (putPar (putPar (putPar (withImg hs)))) _ fun _ ht => ite ht ht.leaveOn.modDom

theorem readPart {act : List Byte → State → State} (hs : s.Wf) (hact : ∀ {u : State} {b}, u.Wf → (act b u).Wf) :
    (readPart off n s act).Wf := by
  refine ite hs.bank (ite hs ?_)
  split
  next heq => exact (hs.streamRead_eq heq).bank
  next heq => exact answerChunks (hact (hs.streamRead_eq heq))

theorem execImageHeaderCheck (hs : s.Wf) : NextWf (execImageHeaderCheck ups s) := by
  refine hs.inPhase (hs.noteFlash.readPart fun {u b} hu => ?_)
  split
  · exact hu.bank
  · exact ite hu.takeHeader.toPhase (ite hu.takeHeader.bank hu.takeHeader.toPhase)

theorem execSignatureCheck (hs : s.Wf) : NextWf (execSignatureCheck s) :=
  hs.inPhase (hs.readPart fun hu => ite hu.bank (ite hu.bank (ite hu.bank (toPhase (recordImage (withImg hu))))))

/-! ### Frames -/

theorem nextFrame (hs : s.Wf) : (nextFrame s).2.Wf := by
  unfold Machine.nextFrame
  dsimp only
  split
  · exact hs
  · split
    · exact hs
    · split
      next heq => exact hs.streamRead_eq heq
      next t heq =>
        have ht : t.Wf := hs.streamRead_eq heq
        split
        · exact ht
        · split
          · exact hs
          · split
            next heq' => exact ht.streamRead_eq heq'
            next heq' => split <;> exact ht.streamRead_eq heq'

theorem endFrame (hs : s.Wf) : (endFrame f s).Wf := hs

theorem commitLeads {ls : List Nat} (hs : s.Wf) : (commitLeads ls s).2.Wf := by
  induction ls generalizing s with
  | nil => exact hs
  | cons l ls ih =>
    unfold Machine.commitLeads
    split
    · exact ih hs.putPar
    · exact hs

theorem loadFrame {act : Fr → State → Nat × State} (hs : s.Wf) (hact : ∀ {f} {u : State}, u.Wf → (act f u).2.Wf) :
    (loadFrame type act s).Wf := by
  have hn := hs.nextFrame
  refine hs.inPhase ?_
  split
  · exact hs
  next heq => rw [heq] at hn; exact hn.bank
  next f t heq =>
    rw [heq] at hn
    have hc : (if frameKind type = none then Machine.commitLeads t.img.linkLeads t else (none, t)).2.Wf := by
      split
      · exact commitLeads hn
      · exact hn
    refine ite (bank hn) (ite hs ?_)
    split
    next heq' => rw [heq'] at hc; exact hc.bank
    next heq' => rw [heq'] at hc; exact ite hc.bank (ite hc.bank (ite (bank (hact hc)) (answerChunks (endFrame (hact hc)))))

theorem rangeElse {ok : Bool} {t : State} (hs : s.Wf) (ht : t.Wf) : (rangeElse ok s t).2.Wf := by
  unfold Machine.rangeElse
  split
  · exact ht
  · exact hs

theorem execContextTable (hs : s.Wf) : NextWf (execContextTable s) := hs.loadFrame fun hu => hu.rangeElse (hu.modGal id)

theorem ctxFrame (hs : s.Wf) : (ctxFrame f s).2.Wf := hs.rangeElse hs.writeFrame

theorem execPlaneFrame (hs : s.Wf) : NextWf (execPlaneFrame s) := hs.loadFrame ctxFrame

theorem execSwitchFrame (hs : s.Wf) : NextWf (execSwitchFrame s) := hs.loadFrame ctxFrame

theorem execSequencerFrame (hs : s.Wf) : NextWf (execSequencerFrame s) := hs.loadFrame writeFrame

theorem execTinderFrame (hs : s.Wf) : NextWf (execTinderFrame s) := hs.loadFrame fun hu => hu.rangeElse hu.writeFrame

theorem portFrame0 (hs : s.Wf) : (portFrame0 f s).2.Wf := hs.rangeElse hs.putPar.modPort

theorem storePortWords (hs : s.Wf) : (storePortWords p d s).Wf := by
  refine hs.foldl (List.range 128) fun _ ht => ite ht (ite (ite ht ht.putPar) (ite ?_ (ite ht.putPar ht.putPar)))
  exact ite (withImg ht.putPar) ht.putPar

theorem portFrame1 (hs : s.Wf) : (portFrame1 f s).2.Wf := hs.rangeElse hs.storePortWords

theorem execPortDefaults (hs : s.Wf) : NextWf (execPortDefaults s) := by
  refine hs.loadFrame fun {f u} hu => ?_
  split
  · exact hu.portFrame0
  · exact hu.portFrame1

theorem execContextSeed (hs : s.Wf) : NextWf (execContextSeed s) :=
  hs.loadFrame fun hu => hu.rangeElse (hu.modGal Gallery.canonical.writeSeed)

theorem execMemPreload (hs : s.Wf) : NextWf (execMemPreload s) :=
  hs.loadFrame fun hu => hu.rangeElse (hu.modGal fun ⟨hcfg, hctx, hmem, hstage⟩ => ⟨hcfg, hctx, hmem.tabBlock _ _ _, hstage⟩)

theorem execFillRun (hs : s.Wf) : NextWf (execFillRun s) :=
  hs.loadFrame fun hu => hu.rangeElse (hu.modGal Gallery.canonical.fillMem)

theorem applyDefaults (hs : s.Wf) : (applyDefaults d k i s).2.Wf := by
  induction k generalizing i s with
  | zero => exact hs
  | succ k ih =>
    unfold Machine.applyDefaults
    dsimp only
    split
    · exact ih hs
    · split
      · exact hs
      · split
        · exact hs
        · split
          · exact hs
          · split
            · exact ih hs.writeParam
            · exact hs.writeParam

theorem execParamDefaults (hs : s.Wf) : NextWf (execParamDefaults s) := hs.loadFrame applyDefaults

theorem execEssentialMap (hs : s.Wf) : NextWf (execEssentialMap s) := hs.loadFrame fun hu => withImg hu

theorem execGoldenTable (hs : s.Wf) : NextWf (execGoldenTable s) := hs.loadFrame fun hu => hu.rangeElse (withImg hu)

/-- A Tinder record whose configuration is canonical. -/
theorem withTinder {x : Tinder} (hs : s.Wf) (hx : Memory.wf 0 x.cfg) : ({ s with tnd := x } : State).Wf :=
  ⟨hs.1, hs.2.1, hx, hs.2.2.2⟩

theorem tinder_cfg (hs : s.Wf) {P : Prop} [Decidable P] : Memory.wf 0 (if P then s.tnd.cfg else defaultTinder) := by
  split
  · exact hs.2.2.1
  · exact (TabWf.nil _).tabBlock _ _ _

theorem finishLoad (hs : s.Wf) : (finishLoad s).Wf := by
  have hg : (s.galList.foldl (fun s g => if s.inMask g then s.modGal g (fun x =>
      Machine.loadInitPlanes s.clk.cyc { x with allPrimed := true, granules := [] }) else s) s).Wf :=
    hs.foldl _ fun _ ht => ite (ht.modGal fun hx => Gallery.canonical.loadInitPlanes hx) ht
  exact foldl (withTinder hg hg.tinder_cfg) _ fun _ ht => ht.modPort.portReturns

theorem loadEnd (hs : s.Wf) : (loadEnd s).Wf := by
  refine hs.loadFrame fun {f u} hu => ?_
  split
  · exact hu
  · extract_lets n bad
    clear_value bad
    cases bad
    · exact hu.finishLoad.toPhase
    · exact hu

end Sys2Proof.Machine.State.Wf
end

section
/-!
SUPPORT for O60: dampers, the start-up steps and the core cycle keep the canonical form.
-/

namespace Sys2Proof.Machine.State.Wf

variable {s : State} {g h k n i t a b c p l e w action : Nat} {d : List Byte} {f : Fr} {z : Cmd}

/-! ### Dampers -/

theorem closeDomain {forced : Bool} (hs : s.Wf) : (closeDomain k forced s).Wf := hs.modDom.damperDone

theorem startClose (hs : s.Wf) : (startClose action k s).Wf :=
  ite hs.damperDone (ite (ite (modGal hs.modDom.modDom id) hs.modDom.modDom) hs.modDom.closeDomain)

theorem startDamper {act : Nat → State → State} (hs : s.Wf) (hact : ∀ {u : State} {k}, u.Wf → (act k u).Wf) :
    (startDamper z act s).Wf :=
  ite hs.respond (foldl (withLamp hs.startCmd) _ fun _ ht => hact ht)

theorem damperCloseCmd (hs : s.Wf) : (damperCloseCmd z s).Wf := by
  unfold Machine.damperCloseCmd
  dsimp only
  split
  · exact hs.respond
  · exact hs.startDamper startClose

theorem execDamperSequencerDamped (hs : s.Wf) : NextWf (execDamperSequencerDamped g s) := ite hs.modDom hs

theorem execDamperDrained (hs : s.Wf) : NextWf (execDamperDrained g s) := ite (closeDomain (writeHeld (ite hs.putPar hs))) hs

theorem discardHeld (hs : s.Wf) : (discardHeld g s).Wf :=
  modGal (hs.foldl _ fun _ ht => raise (modStaging ht.count fun _ => rfl)) id

theorem forceClose (hs : s.Wf) : (forceClose k s).Wf := hs.raise.closeDomain

theorem execDrainLimitExpiry (hs : s.Wf) : NextWf (execDrainLimitExpiry g s) :=
  ite hs.markDead.dropTaps.discardHeld.modSeq.forceClose hs

theorem execPortPairDrained (hs : s.Wf) : NextWf (execPortPairDrained p s) := ite hs.closeDomain hs

theorem dropBuffers (hs : s.Wf) : (dropBuffers k s).Wf := modPort (withMesh hs.count.count)

theorem execPortDrainExpiry (hs : s.Wf) : NextWf (execPortDrainExpiry p s) :=
  ite (forceClose (hs.foldl _ fun _ ht => ht.dropBuffers.markDead)) hs

theorem execPowerDownComplete (hs : s.Wf) : NextWf (execPowerDownComplete k s) :=
  ite hs (ite hs.leaveOn hs.leaveOn.releaseHeld)

theorem startOpen (hs : s.Wf) : (startOpen k s).Wf := by
  unfold Machine.startOpen
  dsimp only
  split
  · exact ite hs.damperDone hs.openDomain
  · exact hs.modDom
  · exact ite hs.modDom hs.modDom

theorem damperOpenCmd (hs : s.Wf) : (damperOpenCmd z s).Wf := by
  unfold Machine.damperOpenCmd
  split
  · exact hs.respond
  · exact hs.startDamper startOpen

/-! ### Reloading a gallery and the Tinder -/

theorem readItems {is : List Item} (hs : s.Wf) : (readItems is s).2.Wf := by
  induction is generalizing s with
  | nil => exact hs
  | cons i r ih =>
    unfold Machine.readItems
    dsimp only
    split
    · exact hs.readWords
    · split
      · exact hs.readWords
      · exact ih hs.readWords

theorem reloadFrame (hs : s.Wf) : (reloadFrame s f).Wf :=
  ite (hs.modGal id) (ite (hs.modGal Gallery.canonical.writeSeed) hs.writeFrame)

theorem rebuildGallery {fs : List Fr} (hs : s.Wf) : (rebuildGallery g fs s).Wf := by
  unfold Machine.rebuildGallery
  extract_lets u
  have hu : u.Wf := foldl (hs.modGal Gallery.canonical.freshGallery) _ fun _ ht => ht.reloadFrame
  have hp {x : Gallery} (hx : x.canonical) :
      ({ x with allPrimed := false, granules := [], seq := x.seq.start } : Gallery).canonical := hx
  exact hu.modGal fun hx => hp hx.loadInitPlanes

theorem execRekindleDone (hs : s.Wf) : NextWf (execRekindleDone g s) := by
  have hr {is : List Item} : (Machine.readItems is s).2.Wf := hs.readItems
  exact ite (raise (ite hr.rebuildGallery.openDomain hr.modDom.damperDone)) hs

theorem execTinderReloadDone (hs : s.Wf) : NextWf (execTinderReloadDone s) := by
  have hr {is : List Item} : (Machine.readItems is s).2.Wf := hs.readItems
  have hf {fs : List Fr} {x : Tinder} (u : State) (hu : u.Wf) (hx : Memory.wf 0 x.cfg) :
      (fs.foldl Machine.reloadFrame { u with tnd := x }).Wf := foldl (withTinder hu hx) _ fun _ hu => hu.reloadFrame
  exact ite (ite (openDomain (withTnd (hf _ hr hr.tinder_cfg))) hr.modDom.damperDone) hs

theorem execWakeComplete (hs : s.Wf) : NextWf (execWakeComplete k s) :=
  ite (ite (hs.reportLapse.openDomain.foldl _ fun _ ht => ht.portReturns) hs.reportLapse.openDomain) hs

theorem execDomainPowerUp {good : Bool} (hs : s.Wf) : NextWf (execDomainPowerUp good s) := by
  refine hs.inPhase ?_
  split
  · exact hs
  next k _ =>
    refine ite hs.bank ?_
    extract_lets _ u _ _ v w
    have hu : u.Wf := hs.modDom
    have hv : v.Wf := hu
    have hw : w.Wf := ite (hv.modGal fun _ => Gallery.canonical.reset) (ite (hv.foldl _ fun _ ht => ht.modPort) hv)
    exact ite hw (ite hw.toPhase.answerChunks hw.toPhase)

/-! ### Start-up -/

theorem enterUser (hs : s.Wf) : (enterUser s).Wf := by
  unfold Machine.enterUser
  extract_lets _ u _ v w
  have hu : u.Wf := withKin hs
  have hv : v.Wf := ite (withSweep hu) hu
  have hw : w.Wf := ite hv.startAssay hv
  exact hw.raiseDeferred.raise

theorem reachHold (hs : s.Wf) : (reachHold s).Wf := by
  unfold Machine.reachHold
  extract_lets _ u
  have hu : u.Wf := ite (ite (withKin hs) (withKin hs)) hs
  exact ite hu.enterUser hu

theorem noteLast {t : Tick} (hs : s.Wf) : (noteLast t s).Wf := ite hs hs.putPair

theorem endStep (hs : s.Wf) : (endStep i s).Wf := by
  unfold Machine.endStep
  extract_lets took u _ v last w
  have hu : u.Wf := ite hs.noteLast hs
  have hv : v.Wf := withKin hu
  exact reachHold (ite hv.noteLast hv)

theorem execEndFrame (hs : s.Wf) : NextWf (execEndFrame s) := ite hs.loadEnd.reachHold hs.loadEnd

theorem execLockWait (hs : s.Wf) : NextWf (execLockWait s) := ite hs.endStep hs

theorem execLockLimitExpiry (hs : s.Wf) : NextWf (execLockLimitExpiry s) := ite hs (ite hs.bank (endStep (raise (withKin hs))))

theorem execOutputRelease (hs : s.Wf) : NextWf (execOutputRelease s) := ite (endStep (withKin hs)) hs

theorem execGsrRelease (hs : s.Wf) : NextWf (execGsrRelease s) :=
  ite (endStep (withTnd (foldl (withKin hs) _ fun _ ht => ite ht.modSeq ht))) hs

theorem execWriteEnable (hs : s.Wf) : NextWf (execWriteEnable s) := ite (endStep (withKin hs)) hs

theorem execKindledRelease (hs : s.Wf) : NextWf (execKindledRelease s) := hs.inPhase (ite (withKin hs) hs)

theorem fixEntry (hs : s.Wf) : (fixEntry n s).Wf := putPair (withKin hs)

theorem execKindledHigh (hs : s.Wf) : NextWf (execKindledHigh s) :=
  hs.inPhase (ite hs (fixEntry (ite (raise (withKin hs)) hs)))

theorem execKindleEntry (hs : s.Wf) : NextWf (execKindleEntry s) := by
  refine hs.inPhase ?_
  split
  · exact ite (ite hs.toPhase.enterUser hs.toPhase) hs
  · exact hs

theorem execHoldTimeout (hs : s.Wf) : NextWf (execHoldTimeout s) := by
  have hk {x : Kindle} : ({ s with kin := x } : State).Wf := hs
  exact hs.inPhase (ite hs (ite (fixEntry (raise (withKin hk))) hk.bank))

/-! ### The warm reset and host loads -/

theorem warmReset (hs : s.Wf) : (warmReset s).Wf :=
  ⟨hs.1.filter _, hs.2.1, TabWf.nil _, fun _ => Gallery.canonical.reset⟩

theorem resetCmd (hs : s.Wf) : (resetCmd z s).Wf := ite hs.respond hs.respond.warmReset

theorem loadAgain (hs : s.Wf) : (loadAgain n s).Wf := by
  have hk {x : Kindle} {y : Image} : ({ s with kin := x, img := y } : State).Wf := hs
  exact recordImage (putPar (putPar (putPar (putPar hk))))

theorem imageBeginCmd (hs : s.Wf) : (imageBeginCmd z s).Wf :=
  ite hs.respond (ite (respond (toPhase (withImg hs))) (ite hs.loadAgain.respond hs.respond))

theorem imageDataCmd (hs : s.Wf) : (imageDataCmd z s).Wf :=
  ite hs.respond (ite hs.respond (answerChunks (startCmd (withImg hs))))

theorem imageAbortCmd (hs : s.Wf) : (imageAbortCmd z s).Wf := ite hs.respond.bank hs.respond

/-! ### The core cycle -/

theorem alignAt {t : Tick} (hs : s.Wf) : (alignAt t s).Wf := by
  have hc {x : Clock} : (({ s with clk := x } : State).putPar 0x3D08 0).Wf := putPar (withClk hs)
  exact ite hc hc.putPair.raise.stepLinks

theorem tickClock (hs : s.Wf) : (tickClock s).Wf := by
  have hc {x : Clock} : ({ s with clk := x } : State).Wf := withClk hs
  exact ite hc.alignAt hc

theorem countHf {r : BitVec 4} (hs : s.Wf) : (countHf g r s).Wf := ite hs (hs.foldl _ fun _ ht => ht.tally)

theorem countDuty (hs : s.Wf) : (countDuty g s).Wf := ite hs.tally64 (ite hs hs.tally64)

theorem galCycle (hs : s.Wf) : (galCycle g s).Wf := by
  have hc {P : Prop} [Decidable P] : (if P then Machine.hearthCycle g (Machine.countDuty g s) else Machine.countDuty g s).Wf :=
    ite hs.countDuty.hearthCycle hs.countDuty
  have hw {x : Gallery} {q : Seq} (hx : x.canonical) :
      ({ (if s.live g then moveWires x else x) with edgeOut := [], seq := q } : Gallery).canonical :=
    Gallery.canonical.ite (P := s.live g) hx hx
  exact ite (ite hs (hs.modGal id)) (countHf (modGal (switchNow (modGal hc.bankCycle.dmaCycle.seqCycle hw)) id))

theorem triggerCycle (hs : s.Wf) : (triggerCycle s).Wf := withTnd hs.tndCycle

theorem coreCycle (hs : s.Wf) : (coreCycle s).Wf := by
  have hg {u : State} (hu : u.Wf) : (u.galList.foldl (fun s g => Machine.galCycle g s) u).Wf := hu.foldl _ fun _ ht => ht.galCycle
  have ht := (hg hs.triggerCycle).tickClock
  exact ite (ite ht.endSlotFrame ht) hs

end Sys2Proof.Machine.State.Wf
end

section
/-!
SUPPORT for O60: the remaining commands keep the canonical form, and so does every command.
-/

namespace Sys2Proof.Machine.State.Wf

variable {s : State} {g h k n i t a b c p l e off len tag line : Nat} {d : List Byte} {ups : List Upset}

/-! ### Hearths, edges and the sequencer -/

theorem execDly (hs : s.Wf) : NextWf (execDly g h s) := hs.fire pushPipe

theorem execSel (hs : s.Wf) : NextWf (execSel g h s) := hs.fire pushRes

theorem execLd (hs : s.Wf) : NextWf (execLd g h s) := hs.fire fun ht => ht.modGal fun hx => hx.setTap.raiseTap

theorem execSt (hs : s.Wf) : NextWf (execSt g h s) := hs.fire fun ht => fclrOnly (ht.modGal fun hx => hx.setTap.raiseTap)

theorem execTrackWord (hs : s.Wf) : NextWf (execTrackWord g s) := by
  refine ite hs (modGal ?_ id)
  have hc {P : Prop} [Decidable P] {u : State} {n k : Nat} (hu : u.Wf) : (if P then u else u.count n k).Wf := ite hu hu.count
  exact hc (hc (hc hs))

theorem execEdgeIngress (hs : s.Wf) : NextWf (execEdgeIngress g s) := by
  show State.Wf _
  split
  · exact hs
  · have hd {x : List (List (Option Word))} : (s.modGal g fun y => { y with edgeQ := x }).Wf := hs.modGal id
    exact ite hd.enterEdge (ite (hd.modGal id) hd.count)

theorem execIngressBufferRelease (hs : s.Wf) : NextWf (execIngressBufferRelease g s) := by
  show State.Wf _
  split
  · exact hs
  · exact ite (enterEdge (hs.modGal id)) hs

theorem execEgressPacketClose (hs : s.Wf) : NextWf (execEgressPacketClose g e s) := ite hs (present (hs.modGal id))

theorem execBankDecision (hs : s.Wf) : NextWf (execBankDecision g b ups s) := by
  have hn : (Machine.noteMem g b ups s).Wf := hs.noteMem
  refine ite hn ?_
  extract_lets v
  split
  · exact ite (count (modGal (hn.modGal id) id)) (grantReq (hn.modGal id))
  · split
    · exact hn
    · split
      · exact hn.grantReq
      · exact hn

theorem execCapt (hs : s.Wf) : NextWf (execCapt g s) := hs.issue fun ht => ht.armCapture.goNext

theorem execEmit (hs : s.Wf) : NextWf (execEmit g s) := hs.issue fun ht => ite ht.modSeq.raiseGal ht.modSeq

theorem execFence (hs : s.Wf) : NextWf (execFence g s) := hs.issue fun ht => ite ht.fenceDone ht.modSeq

theorem execWait (hs : s.Wf) : NextWf (execWait g s) := hs.issue fun ht => ite ht.goNext ht.modSeq

theorem execPrep (hs : s.Wf) : NextWf (execPrep g s) := hs.issue fun ht => ht.queuePrefetch.goNext

/-! ### The device -/

theorem execBeaconFrame (hs : s.Wf) : NextWf (execBeaconFrame s) := ite hs hs

theorem execSyncAbsent (hs : s.Wf) : NextWf (execSyncAbsent s) := ite (raise (withClk hs)) hs

theorem execKeeperCycle16 (hs : s.Wf) : NextWf (execKeeperCycle16 s) := by
  refine hs.inPhase ?_
  extract_lets _ _ _ _ u v
  have hu : u.Wf := hs
  have hv : v.Wf := ite hu hu.raise
  exact ite hv.bank hv.toPhase

theorem execRelease {via : Transport} (hs : s.Wf) : NextWf (execRelease via s) :=
  hs.runCmd fun ht => ite ht.respond.changeOwner ht.respond

theorem execCaptureTaken (hs : s.Wf) : NextWf (execCaptureTaken s) := by
  refine ite ?_ hs
  extract_lets per took frozen _ x _ u
  have hu : u.Wf := hs
  exact hu.count.putPair.raise

theorem execBar2Write {enables : Bool} (hs : s.Wf) : NextWf (execBar2Write off d enables s) := by
  refine ite hs (ite hs.count ?_)
  split
  · exact hs.count
  · exact hs.present

theorem execBar2Read (hs : s.Wf) : NextWf (execBar2Read off len tag s) := by
  refine ite hs (ite hs (ite (count (withPcie hs)) ?_))
  split
  · exact withPcie hs
  · exact ite hs (foldl (withPcie hs) _ fun _ ht => ht.request)

theorem execBar2ReadComplete (hs : s.Wf) : NextWf (execBar2ReadComplete tag s) := by
  show State.Wf _
  split
  · exact hs
  · refine ite hs ?_
    extract_lets data _ u
    have hu : u.Wf := withPcie hs
    split
    · exact hu.noteBulkError
    · exact hu

theorem execPresnNoAck (hs : s.Wf) : NextWf (execPresnNoAck p s) := ite hs.portFault.raise hs

theorem execTimingLineReversed (hs : s.Wf) : NextWf (execTimingLineReversed line s) := ite hs.setKind.raise hs

/-! ### The assay -/

theorem execAssaySegmentStart (hs : s.Wf) : NextWf (execAssaySegmentStart g h s) := ite hs.modHearth hs

theorem execAssaySegmentDone {x : Bool} (hs : s.Wf) : NextWf (execAssaySegmentDone g h x s) :=
  ite hs (ite (ite hs.modHearth.tally hs.modHearth) (ite hs.modHearth.assayFail hs.modHearth))

theorem execAssayLinkUnit {x : Bool} (hs : s.Wf) : NextWf (execAssayLinkUnit n k x s) :=
  ite hs (ite (ite (tally (withAssay hs)) (withAssay hs)) (ite (assayFail (withAssay hs)) (withAssay hs)))

theorem execAssayCycleDone (hs : s.Wf) : NextWf (execAssayCycleDone s) := ite hs hs.putPar.raise.startAssay

end Sys2Proof.Machine.State.Wf
end

section
/-!
The memories stay in canonical form (O60): every command, and an empty queue's core cycle.
-/

namespace Sys2Proof.Machine.State.Wf

variable {s : State}

/-- Every command keeps the memories in canonical form. -/
theorem exec (hs : s.Wf) (i : Instr) : NextWf (exec i s) := by
  cases i with
  | coldReset => exact hs.clearAll
  | coldRstnRise straps moving ratios railsGood => exact hs.execColdRstnRise
  | refLost => exact hs.execRefLost
  | pllUnlock => exact ite hs.stopClock hs
  | refPresent => exact withClk hs
  | stopWaitExpiry => exact ite (withClk hs) hs
  | relockTimeout => exact ite (withClk hs) hs
  | clockStartFail missing => exact hs.execClockStartFail
  | pllLock periods => exact hs.execPllLock
  | beaconFrame => exact hs.execBeaconFrame
  | brownOut rail => exact hs.execBrownOut
  | railRecovered => exact ite (withClk hs) hs
  | syncCapture marginal => exact hs.execSyncCapture
  | syncAbsent => exact hs.execSyncAbsent
  | tbAlign v => exact hs.hostEntry hs.writeParam
  | avsEvaluation low high => exact hs.execAvsEvaluation
  | thermAlert tj sensor => exact ite hs.setTj.alertAt hs
  | thermTrip tj => exact hs.execThermTrip
  | thermGateStep tj => exact hs.execThermGateStep
  | thermCritical tj sensor => exact hs.execThermCritical
  | keeperCycle16 => exact hs.execKeeperCycle16
  | domainPowerUp good => exact hs.execDomainPowerUp
  | journalScan upsets => exact hs.execJournalScan
  | bootRecordRead upsets => exact hs.execBootRecordRead (ups := upsets)
  | imageSelect upsets => exact hs.execImageSelect
  | imageHeaderCheck upsets => exact hs.execImageHeaderCheck
  | signatureCheck => exact hs.execSignatureCheck
  | contextTable => exact hs.execContextTable
  | planeFrame => exact hs.execPlaneFrame
  | switchFrame => exact hs.execSwitchFrame
  | sequencerFrame => exact hs.execSequencerFrame
  | tinderFrame => exact hs.execTinderFrame
  | portDefaults => exact hs.execPortDefaults
  | contextSeed => exact hs.execContextSeed
  | memPreload => exact hs.execMemPreload
  | fillRun => exact hs.execFillRun
  | paramDefaults => exact hs.execParamDefaults
  | essentialMap => exact hs.execEssentialMap
  | goldenTable => exact hs.execGoldenTable
  | endFrame => exact hs.execEndFrame
  | lockWait => exact hs.execLockWait
  | lockLimitExpiry => exact hs.execLockLimitExpiry
  | outputRelease => exact hs.execOutputRelease
  | gsrRelease => exact hs.execGsrRelease
  | writeEnable => exact hs.execWriteEnable
  | kindledRelease => exact hs.execKindledRelease
  | kindledHigh => exact hs.execKindledHigh
  | kindleEntry => exact hs.execKindleEntry
  | holdTimeout => exact hs.execHoldTimeout
  | kindleHoldTimeout v => exact hs.hostEntry hs.writeParam
  | lampFrameRx bytes => exact hs.execLampFrameRx
  | ownerTimeout => exact ite hs.changeOwner hs
  | ping via => exact hs.runCmd respond
  | release via => exact hs.execRelease
  | reset via => exact hs.runCmd resetCmd
  | get via => exact hs.runCmd getCmd
  | set via => exact hs.runCmd setCmd
  | paramWrite n v => exact hs.execParamWrite
  | getPair via => exact hs.runCmd getPairCmd
  | flashRead via upsets => exact hs.runCmd fun ht => ht.noteFlash.flashRead
  | flashProgram via => exact hs.runCmd flashProgram
  | flashProgramDone => exact hs.execFlashProgramDone
  | flashErase via => exact hs.runCmd flashErase
  | flashEraseDone clean => exact hs.execFlashEraseDone
  | flashSwap via => exact hs.runCmd flashSwap
  | flashSwapDone clean => exact hs.execFlashSwapDone
  | imageBegin via => exact hs.runCmd imageBeginCmd
  | imageData via => exact hs.runCmd imageDataCmd
  | imageAbort via => exact hs.runCmd imageAbortCmd
  | damperClose via => exact hs.runCmd damperCloseCmd
  | damperSequencerDamped g => exact hs.execDamperSequencerDamped
  | damperDrained g => exact hs.execDamperDrained
  | drainLimitExpiry g => exact hs.execDrainLimitExpiry
  | portPairDrained p => exact hs.execPortPairDrained
  | portDrainExpiry p => exact hs.execPortDrainExpiry
  | powerDownComplete d => exact hs.execPowerDownComplete
  | damperOpen via => exact hs.runCmd damperOpenCmd
  | rekindleDone g => exact hs.execRekindleDone
  | tinderReloadDone => exact hs.execTinderReloadDone
  | galReset via => exact hs.runCmd galResetCmd
  | portReset via => exact hs.runCmd portResetCmd
  | configWrite via => exact hs.runCmd configWriteCmd
  | memFill via => exact hs.runCmd memFillCmd
  | memRead via => exact hs.runCmd memReadCmd
  | memWrite via => exact hs.runCmd memWriteCmd
  | captArm via => exact hs.runCmd captArmCmd
  | captRelease via => exact hs.runCmd fun ht => ht.releaseCapture.respond
  | captRead via => exact hs.runCmd captReadCmd
  | captureTaken => exact hs.execCaptureTaken
  | eventTake => exact ite hs.takeAll hs
  | reportSend => exact hs.execReportSend
  | cmdSlotWrite slot off bytes => exact hs.execCmdSlotWrite
  | cmdDoorbell v => exact hs.execCmdDoorbell
  | rspAck => exact hs.execRspAck
  | slotCopy => exact hs.execSlotCopy
  | ringDoorbell v => exact hs.execRingDoorbell
  | ringArm v => exact hs.execRingArm
  | bar2Write off bytes enables => exact hs.execBar2Write
  | bar2Read off len tag => exact hs.execBar2Read
  | bar2ReadComplete tag => exact hs.execBar2ReadComplete
  | upstreamWrite i => exact hs.execUpstreamWrite
  | upstreamMsix i => exact hs.execUpstreamMsix
  | pcieConfigRequest write reg v => exact hs.execPcieConfigRequest
  | pcieReset => exact hs.execPcieReset
  | pcieLinkDown => exact hs.execPcieLinkDown
  | pcieLinkUp width gen => exact hs.execPcieLinkUp
  | pass g h => exact hs.fireA
  | dly g h => exact hs.execDly
  | add g h => exact hs.fireAB
  | sub g h => exact hs.fireAB
  | neg g h => exact hs.fireA
  | abs g h => exact hs.fireA
  | min g h => exact hs.fireAB
  | max g h => exact hs.fireAB
  | and g h => exact hs.fireAB
  | or g h => exact hs.fireAB
  | xor g h => exact hs.fireAB
  | not g h => exact hs.fireA
  | shl g h => exact hs.fireAB
  | shr g h => exact hs.fireAB
  | shra g h => exact hs.fireAB
  | rot g h => exact hs.fireAB
  | clz g h => exact hs.fireA
  | popc g h => exact hs.fireA
  | mul g h => exact hs.fireAB
  | mulh g h => exact hs.fireAB
  | mac g h => exact hs.fire macAct
  | msu g h => exact hs.fire macAct
  | rnd g h => exact hs.fireA
  | cmp g h => exact hs.fireAB
  | sel g h => exact hs.execSel
  | div g h => exact hs.fireAB
  | rem g h => exact hs.fireAB
  | pack g h => exact hs.fireAB
  | unpk g h => exact hs.fireA
  | ld g h => exact hs.execLd
  | st g h => exact hs.execSt
  | trackWord g => exact hs.execTrackWord
  | edgeIngress g => exact hs.execEdgeIngress
  | ingressBufferRelease g => exact hs.execIngressBufferRelease
  | bankDecision g b upsets => exact hs.execBankDecision
  | nop g => exact hs.issue goNext
  | halt g => exact hs.issue modSeq
  | ret g => exact hs.issue modSeq
  | fence g => exact hs.execFence
  | fenceComplete g => exact hs.execFenceComplete
  | switch g => exact hs.execSwitch
  | prep g => exact hs.execPrep
  | wait g => exact hs.execWait
  | waitDone g => exact ite hs.modSeq hs
  | waitt g => exact hs.issue modSeq
  | waittMet g => exact hs.execWaittMet
  | waittTimeout g => exact hs.execWaittTimeout
  | br g => exact hs.issue goTo
  | brc g => exact hs.execBrc
  | loop g => exact hs.issue modSeq
  | call g => exact hs.issue modSeq
  | setf g => exact hs.issue modSeq
  | clrf g => exact hs.issue modSeq
  | emit g => exact hs.execEmit
  | capt g => exact hs.execCapt
  | dma g => exact hs.execDma
  | dmaComplete g d => exact hs.execDmaComplete
  | triggerEdge g i => exact ite hs.latchEdge hs
  | watchdogBite g => exact hs.execWatchdogBite
  | transferStart g upsets => exact hs.execTransferStart
  | fillComplete g => exact hs.execFillComplete
  | spillComplete g => exact hs.execSpillComplete
  | configPortBoundary g => exact ite hs.freePort hs
  | packetSend p err => exact hs.execPacketSend
  | gtWindowSend i => exact hs.execGtWindowSend
  | meshWrite i => exact hs.execMeshWrite
  | meshReadReq i => exact hs.execMeshReadReq
  | meshReadRsp i => exact hs.execMeshReadRsp
  | meshError i => exact hs.execMeshError
  | meshMessage i => exact hs.execMeshMessage
  | meshWake i => exact hs.execMeshWake
  | meshConfig i => exact hs.execMeshConfig
  | transactionTimeout node port tag => exact hs.execTransactionTimeout
  | wakeComplete d => exact hs.execWakeComplete
  | egressPacketClose g e => exact hs.execEgressPacketClose
  | flowCommit f v => exact ite (hs.hostEntry hs.writeFlowCtrl) hs
  | flowRelease f v => exact ite (hs.hostEntry hs.writeFlowCtrl) hs
  | nocDeadSet v => exact hs.hostEntry hs.writeDeadSet
  | nocDeadClear v => exact hs.hostEntry hs.writeDeadClear
  | cdrLock u => exact hs.execCdrLock
  | shLock u => exact ite hs.setLink hs
  | embLock u inverted => exact hs.execEmbLock
  | idWindowDone u carried => exact hs.execIdWindowDone
  | releaseWaitDone u earliest latest => exact hs.execReleaseWaitDone
  | linkDown u lane why => exact hs.execLinkDown
  | sysrefCapture => exact hs.execSysrefCapture
  | sysrefAbsent u => exact ite hs.modPort.raiseLink hs
  | sysrefArm u v => exact ite (hs.hostEntry hs.writeSysref) hs
  | packetGroupRelease u bytes => exact hs.execPacketGroupRelease
  | txStreamWrite i => exact hs.execTxStreamWrite
  | txFrameDue u => exact hs.execTxFrameDue
  | eqEvaluation u want => exact hs.execEqEvaluation
  | portProtocol u v => exact ite (hs.hostEntry hs.writeProtocol) hs
  | linkCommit u v => exact ite (hs.hostEntry hs.writeLinkCfg0) hs
  | linkDisable u v => exact ite (hs.hostEntry hs.writeLinkCfg0) hs
  | seamBlockLock u => exact hs.execSeamBlockLock
  | seamTrainRx u block inverted => exact hs.execSeamTrainRx
  | seamTimeRx u block arrival => exact hs.execSeamTimeRx
  | seamTimeSend u => exact hs.execSeamTimeSend
  | seamUnitRx u block => exact hs.execSeamUnitRx
  | seamIdleRx u block => exact hs.execSeamIdleRx
  | seamNakRx u block => exact hs.execSeamNakRx
  | seamReplayTimeout u => exact hs.execSeamReplayTimeout
  | seamBudgetExhausted u => exact hs.execSeamBudgetExhausted
  | seamPacketSend i => exact hs.execSeamPacketSend
  | seamRetrain u v => exact hs.execSeamRetrain
  | triggerLineRx line level => exact hs.execTriggerLineRx
  | tndCaptureArm => exact hs.execTndCaptureArm
  | trigDriveEn v => exact hs.hostEntry hs.writeParam
  | icpStageWrite i => exact hs.arrive writeAtKeeper
  | icpCommit g => exact ite hs hs.forwardFrame
  | icpConfigSubmit i => exact ite hs (hs.arrive submitAtKeeper)
  | sweepPassStart => exact ite hs.startSweepPass hs
  | sweepEntryDue flips upsets => exact hs.execSweepEntryDue
  | sweepRepairWrite => exact hs.execSweepRepairWrite
  | sweepVoteFailure => exact ite hs.restartSweep hs
  | sweepHeartbeatTimeout => exact ite hs.restartSweep hs
  | sweepRestartDone => exact ite (startSweepPass (withSweep hs)) hs
  | assaySegmentStart g h => exact hs.execAssaySegmentStart
  | assaySegmentDone g h matched => exact hs.execAssaySegmentDone
  | assayLinkUnit n d arrived => exact hs.execAssayLinkUnit
  | assayCycleDone => exact hs.execAssayCycleDone
  | assayEnable v => exact ite (hs.hostEntry hs.writeAssayCtrl) hs
  | assayDisable v => exact ite hs (hs.hostEntry hs.writeAssayCtrl)
  | presnChange u present => exact hs.execPresnChange
  | tallyReadStart u => exact ite hs.startTally hs
  | tallyRetry u => exact ite hs.modPort hs
  | tallyReadDone u answer => exact hs.execTallyReadDone
  | tallyReread u v => exact ite (hs.hostEntry hs.writeTallyCtrl) hs
  | pinBiasProbe pin kind => exact hs.execPinBiasProbe
  | driverReadbackFault pin kind => exact hs.execDriverReadbackFault
  | timingLineReversed line => exact hs.execTimingLineReversed
  | tallyBusProbe bus line kind => exact hs.execTallyBusProbe
  | lampTxReadback kind => exact ite hs.setKind hs
  | presnNoAck u => exact hs.execPresnNoAck
  | prefetchFillAbandoned g => exact hs.execPrefetchFillAbandoned
  | timingReversedCleared line => exact ite hs.setKind hs
  | msixHoldoffExpiry => exact hs.execMsixHoldoffExpiry
  | seamSignalLost u => exact hs.execSeamSignalLost

theorem step {t : State} (hs : s.Wf) (h : Machine.step s = .next t) : t.Wf := by
  cases hq : s.pending with
  | nil =>
    rw [step_nil hq] at h
    injection h with h
    exact h ▸ hs.coreCycle
  | cons c r =>
    have hr : ({ s with pending := r } : State).Wf := hs
    have hn := hr.exec c
    rw [step_cons hq] at h
    rwa [h] at hn

end Sys2Proof.Machine.State.Wf

namespace Sys2Proof.Machine

/-- Settles O60, as a step lemma over every state whose memories are canonical. -/
theorem everyStepKeepsMemoriesCanonical : Obligations.EveryStepKeepsMemoriesCanonical :=
  fun s t hs h => t.canonical_iff.2 ((s.canonical_iff.1 hs).step h)

end Sys2Proof.Machine
end
